-- ==== Sys2Proof/Word.lean ====
section
/-!
DEFINITION. The word types of the Olunov module (00, 02 R32, R47) and their plainest readings.
-/
namespace Sys2Proof

/-- A 64-bit register word (R47). -/
abbrev Word := BitVec 64

/-- A byte of memory (R1). -/
abbrev Byte := BitVec 8

end Sys2Proof
end

