-- ==== Sys2Proof/Config.lean ====
section
/-!
DEFINITION. Free values and implementation constants: what the spec leaves open and the model does not choose. Each is
opaque, so nothing can be proved of its value; a statement holds whatever it is.
-/
namespace Sys2Proof.Config

/-- Arithmetic-clock cycles that step n takes (R53, R517; log 4). -/
opaque cycles : Nat → Word

/-- Which permitted older value a non-coherent read or a TLB returns, by step and by item of the step (R78, R189,
R216; log 7). -/
opaque stale : Nat → Nat → Nat

/-- Which of several permitted choices the machine makes, by step and by item of the step (log 13). -/
opaque choice : Nat → Nat → Nat

/-- The home sheet of the 2 MiB sub-block with a given number (R20; log 8). -/
opaque homeSheet : Nat → Fin 4

/-- The memory that lies at the 2^28 bytes with a given number: none, tier 0 or tier 1 (R24, R495; log 8). -/
opaque tierAt : Nat → Option (Fin 2)

/-- Does a port reach a module (R504; log 8)? -/
opaque reaches : Nat → Nat → Bool

/-- The syndrome of an error record (R490; log 10). -/
opaque syndrome : Nat → BitVec 32

/-- The stepping of IDENT (R499; log 10). -/
opaque stepping : BitVec 8

/-- The context image FORMAT of IDENT (R487, R499; log 10). -/
opaque format : BitVec 8

/-- Words of measurement digests and signatures (R507, R510; log 10). -/
opaque digest : Nat → Word

/-- The board telemetry that PLDM reports (R507; log 10). -/
opaque telemetry : Nat → Nat

end Sys2Proof.Config
end

