-- ==== Sys2Proof/Machine/Table.lean ====
section
/-!
DEFINITION. Sparse tables: a list of (key, value) pairs, keys strictly rising, that lists no value equal to the value
an unlisted key reads as. Register files, memories and the per-core, per-quad and per-partition state are tables, so
equal contents are equal data.
-/
namespace Sys2Proof.Machine

/-- A sparse table with natural number keys. -/
abbrev Table (β : Type) := List (Nat × β)

/-- The value at key k; d where the table lists none. -/
def Table.get {β : Type} (t : Table β) (d : β) (k : Nat) : β :=
  match t with
  | [] => d
  | (a, b) :: r => if a = k then b else Table.get r d k

/-- The table without key k. -/
def Table.erase {β : Type} (t : Table β) (k : Nat) : Table β :=
  match t with
  | [] => []
  | (a, b) :: r => if a = k then Table.erase r k else (a, b) :: Table.erase r k

/-- The pair (k, v) put before the first larger key. -/
def Table.insert {β : Type} (t : Table β) (k : Nat) (v : β) : Table β :=
  match t with
  | [] => [(k, v)]
  | (a, b) :: r => if k < a then (k, v) :: (a, b) :: r else (a, b) :: Table.insert r k v

/-- The table with value v at key k, in canonical form: a value equal to d is not listed. -/
def Table.set {β : Type} [DecidableEq β] (t : Table β) (d : β) (k : Nat) (v : β) : Table β :=
  if v = d then Table.erase t k else Table.insert (Table.erase t k) k v

/-- The keys rise strictly from above lo. -/
def Table.sorted {β : Type} (t : Table β) (lo : Nat) : Bool :=
  match t with
  | [] => true
  | (a, _) :: r => decide (lo ≤ a) && Table.sorted r (a + 1)

/-- The canonical form: keys strictly rising, no value equal to d. -/
def Table.wf {β : Type} [DecidableEq β] (t : Table β) (d : β) : Bool :=
  Table.sorted t 0 && t.all (fun e => decide (e.2 ≠ d))

/-- The keys of a table. -/
def Table.keys {β : Type} (t : Table β) : List Nat := t.map (fun e => e.1)

end Sys2Proof.Machine
end

