-- ==== Sys2Proof/Syntax.lean ====
section
/-!
DEFINITION. Instr: one constructor for each row of the opcode table (spec/opcode_table.json). The first 177 are the
32-bit words of the A-side majors, with their fields as the word holds them (02 R37, R39). Then come the 65 events of
the device that have no word: time limits, steps of the units, launches, scheduling, errors, peers, the physical
function's registers and requests, and power-up. The last 135 are the words of the E-side majors (R40), each with its
continuation bit c first (R33). Operands that a word cannot hold are never built; operand
values that a word holds and the spec calls reserved are refused by Instr.wellFormed (WellFormed.lean).
-/
namespace Sys2Proof

/-- A thread of a launch, named by its partition, its launch id (14 R418) and its rank (14 R425). -/
structure ThreadId where
  part : Nat
  lid : Nat
  rank : Nat
  deriving DecidableEq, Repr

/-- The two masters of the configuration registers (17 R507 to R509). -/
inductive Master where
  | host
  | port
  deriving DecidableEq, Repr

/-- The updates of an atomic (07 R239). -/
inductive AmoOp where
  | swap
  | add
  | and
  | or
  | xor
  | min
  | max
  | minu
  | maxu
  | cas
  | fadd
  deriving DecidableEq, Repr

/-- What a peer module asks of a line of this module (07 R259; 17 R505, R506). An atomic is of 8 bytes, or of 4 where half
holds; v is its operand and e the value that CAS expects. -/
inductive PeerOp where
  | read (len : Nat)
  | write (bytes : List (BitVec 8))
  | atomic (op : AmoOp) (half : Bool) (v : BitVec 64) (e : BitVec 64)
  deriving DecidableEq, Repr

/-- One request that arrives at a Crinik port: the requesting module, its sequence tag (07 R259), and the place. -/
structure PeerReq where
  port : Nat
  requester : Nat
  tag : Nat
  aperture : Nat
  offset : Nat
  op : PeerOp
  deriving DecidableEq, Repr

/-- The instructions and events of the opcode table. -/
inductive Instr where
  /-- ADD (R68). -/
  | add (d : BitVec 5) (a : BitVec 5) (b : BitVec 5) (w : BitVec 1)
  /-- SUB (R68). -/
  | sub (d : BitVec 5) (a : BitVec 5) (b : BitVec 5) (w : BitVec 1)
  /-- AND (R68). -/
  | and (d : BitVec 5) (a : BitVec 5) (b : BitVec 5) (w : BitVec 1)
  /-- OR (R68). -/
  | or (d : BitVec 5) (a : BitVec 5) (b : BitVec 5) (w : BitVec 1)
  /-- XOR (R68). -/
  | xor (d : BitVec 5) (a : BitVec 5) (b : BitVec 5) (w : BitVec 1)
  /-- SLL (R68). -/
  | sll (d : BitVec 5) (a : BitVec 5) (b : BitVec 5) (w : BitVec 1)
  /-- SRL (R68). -/
  | srl (d : BitVec 5) (a : BitVec 5) (b : BitVec 5) (w : BitVec 1)
  /-- SRA (R68). -/
  | sra (d : BitVec 5) (a : BitVec 5) (b : BitVec 5) (w : BitVec 1)
  /-- MUL (R68). -/
  | mul (d : BitVec 5) (a : BitVec 5) (b : BitVec 5) (w : BitVec 1)
  /-- MULH (R68). -/
  | mulh (d : BitVec 5) (a : BitVec 5) (b : BitVec 5) (w : BitVec 1)
  /-- MULHU (R68). -/
  | mulhu (d : BitVec 5) (a : BitVec 5) (b : BitVec 5) (w : BitVec 1)
  /-- DIV (R69). -/
  | div (d : BitVec 5) (a : BitVec 5) (b : BitVec 5) (w : BitVec 1)
  /-- DIVU (R69). -/
  | divu (d : BitVec 5) (a : BitVec 5) (b : BitVec 5) (w : BitVec 1)
  /-- REM (R69). -/
  | rem (d : BitVec 5) (a : BitVec 5) (b : BitVec 5) (w : BitVec 1)
  /-- REMU (R69). -/
  | remu (d : BitVec 5) (a : BitVec 5) (b : BitVec 5) (w : BitVec 1)
  /-- MIN (R68). -/
  | min (d : BitVec 5) (a : BitVec 5) (b : BitVec 5) (w : BitVec 1)
  /-- MAX (R68). -/
  | max (d : BitVec 5) (a : BitVec 5) (b : BitVec 5) (w : BitVec 1)
  /-- MINU (R68). -/
  | minu (d : BitVec 5) (a : BitVec 5) (b : BitVec 5) (w : BitVec 1)
  /-- MAXU (R68). -/
  | maxu (d : BitVec 5) (a : BitVec 5) (b : BitVec 5) (w : BitVec 1)
  /-- SLT (R68). -/
  | slt (d : BitVec 5) (a : BitVec 5) (b : BitVec 5) (w : BitVec 1)
  /-- SLTU (R68). -/
  | sltu (d : BitVec 5) (a : BitVec 5) (b : BitVec 5) (w : BitVec 1)
  /-- ADDV (R70). -/
  | addv (d : BitVec 5) (a : BitVec 5) (b : BitVec 5) (w : BitVec 1)
  /-- SUBV (R70). -/
  | subv (d : BitVec 5) (a : BitVec 5) (b : BitVec 5) (w : BitVec 1)
  /-- CLZ (R71). -/
  | clz (d : BitVec 5) (a : BitVec 5) (w : BitVec 1)
  /-- POPC (R71). -/
  | popc (d : BitVec 5) (a : BitVec 5) (w : BitVec 1)
  /-- ADDI (R72). -/
  | addi (d : BitVec 5) (a : BitVec 5) (i : BitVec 15)
  /-- ANDI (R73). -/
  | andi (d : BitVec 5) (a : BitVec 5) (i : BitVec 12)
  /-- ORI (R73). -/
  | ori (d : BitVec 5) (a : BitVec 5) (i : BitVec 12)
  /-- XORI (R73). -/
  | xori (d : BitVec 5) (a : BitVec 5) (i : BitVec 12)
  /-- SLTI (R73). -/
  | slti (d : BitVec 5) (a : BitVec 5) (i : BitVec 12)
  /-- SLTIU (R73). -/
  | sltiu (d : BitVec 5) (a : BitVec 5) (i : BitVec 12)
  /-- SLLI (R73). -/
  | slli (d : BitVec 5) (a : BitVec 5) (i : BitVec 6)
  /-- SRLI (R73). -/
  | srli (d : BitVec 5) (a : BitVec 5) (i : BitVec 6)
  /-- SRAI (R73). -/
  | srai (d : BitVec 5) (a : BitVec 5) (i : BitVec 6)
  /-- HI (R74). -/
  | hi (d : BitVec 5) (i : BitVec 20)
  /-- PCADD (R74). -/
  | pcadd (d : BitVec 5) (i : BitVec 20)
  /-- LB (R75). -/
  | lb (d : BitVec 5) (a : BitVec 5) (i : BitVec 12)
  /-- LH (R75). -/
  | lh (d : BitVec 5) (a : BitVec 5) (i : BitVec 12)
  /-- LW (R75). -/
  | lw (d : BitVec 5) (a : BitVec 5) (i : BitVec 12)
  /-- LD (R75). -/
  | ld (d : BitVec 5) (a : BitVec 5) (i : BitVec 12)
  /-- LBU (R75). -/
  | lbu (d : BitVec 5) (a : BitVec 5) (i : BitVec 12)
  /-- LHU (R75). -/
  | lhu (d : BitVec 5) (a : BitVec 5) (i : BitVec 12)
  /-- LWU (R75). -/
  | lwu (d : BitVec 5) (a : BitVec 5) (i : BitVec 12)
  /-- LDK (R78). -/
  | ldk (d : BitVec 5) (a : BitVec 5) (i : BitVec 12)
  /-- SB (R75). -/
  | sb (d : BitVec 5) (a : BitVec 5) (i : BitVec 12)
  /-- SH (R75). -/
  | sh (d : BitVec 5) (a : BitVec 5) (i : BitVec 12)
  /-- SW (R75). -/
  | sw (d : BitVec 5) (a : BitVec 5) (i : BitVec 12)
  /-- SD (R75). -/
  | sd (d : BitVec 5) (a : BitVec 5) (i : BitVec 12)
  /-- BEQ (R86). -/
  | beq (a : BitVec 5) (b : BitVec 5) (o : BitVec 12)
  /-- BNE (R86). -/
  | bne (a : BitVec 5) (b : BitVec 5) (o : BitVec 12)
  /-- BLT (R86). -/
  | blt (a : BitVec 5) (b : BitVec 5) (o : BitVec 12)
  /-- BGE (R86). -/
  | bge (a : BitVec 5) (b : BitVec 5) (o : BitVec 12)
  /-- BLTU (R86). -/
  | bltu (a : BitVec 5) (b : BitVec 5) (o : BitVec 12)
  /-- BGEU (R86). -/
  | bgeu (a : BitVec 5) (b : BitVec 5) (o : BitVec 12)
  /-- JAL (R87). -/
  | jal (i : BitVec 25)
  /-- JALR (R88). -/
  | jalr (d : BitVec 5) (a : BitVec 5) (i : BitVec 15)
  /-- LOOP0 (R92). -/
  | loop0 (a : BitVec 5) (i : BitVec 12)
  /-- LOOP1 (R92). -/
  | loop1 (a : BitVec 5) (i : BitVec 12)
  /-- LOOPI0 (R92). -/
  | loopi0 (l : BitVec 5) (i : BitVec 12)
  /-- LOOPI1 (R92). -/
  | loopi1 (l : BitVec 5) (i : BitVec 12)
  /-- LEXIT0 (R95). -/
  | lexit0
  /-- LEXIT1 (R95). -/
  | lexit1
  /-- QPOP (R101). -/
  | qpop (d : BitVec 5) (a : BitVec 5)
  /-- QCNT (R101). -/
  | qcnt (d : BitVec 5) (a : BitVec 5)
  /-- QDRAIN (R101). -/
  | qdrain (d : BitVec 5) (a : BitVec 5)
  /-- FADD (R80). -/
  | fadd (d : BitVec 5) (a : BitVec 5) (b : BitVec 5) (p : BitVec 2) (r : BitVec 2)
  /-- FSUB (R80). -/
  | fsub (d : BitVec 5) (a : BitVec 5) (b : BitVec 5) (p : BitVec 2) (r : BitVec 2)
  /-- FMUL (R80). -/
  | fmul (d : BitVec 5) (a : BitVec 5) (b : BitVec 5) (p : BitVec 2) (r : BitVec 2)
  /-- FDIV (R80). -/
  | fdiv (d : BitVec 5) (a : BitVec 5) (b : BitVec 5) (p : BitVec 2) (r : BitVec 2)
  /-- FSQRT (R80). -/
  | fsqrt (d : BitVec 5) (a : BitVec 5) (p : BitVec 2) (r : BitVec 2)
  /-- FMIN (R81). -/
  | fmin (d : BitVec 5) (a : BitVec 5) (b : BitVec 5) (p : BitVec 2)
  /-- FMAX (R81). -/
  | fmax (d : BitVec 5) (a : BitVec 5) (b : BitVec 5) (p : BitVec 2)
  /-- FEQ (R81). -/
  | feq (d : BitVec 5) (a : BitVec 5) (b : BitVec 5) (p : BitVec 2)
  /-- FLT (R81). -/
  | flt (d : BitVec 5) (a : BitVec 5) (b : BitVec 5) (p : BitVec 2)
  /-- FLE (R81). -/
  | fle (d : BitVec 5) (a : BitVec 5) (b : BitVec 5) (p : BitVec 2)
  /-- FCVTFI (R83). -/
  | fcvtfi (d : BitVec 5) (a : BitVec 5) (b : BitVec 5) (p : BitVec 2) (r : BitVec 2)
  /-- FCVTIF (R80). -/
  | fcvtif (d : BitVec 5) (a : BitVec 5) (b : BitVec 5) (p : BitVec 2) (r : BitVec 2)
  /-- FCVTFF (R84). -/
  | fcvtff (d : BitVec 5) (a : BitVec 5) (p : BitVec 2) (r : BitVec 2)
  /-- FCLASS (R85). -/
  | fclass (d : BitVec 5) (a : BitVec 5) (p : BitVec 2)
  /-- FMA (R80). -/
  | fma (d : BitVec 5) (a : BitVec 5) (b : BitVec 5) (p : BitVec 2) (r : BitVec 2)
  /-- AMOSWAP (R239). -/
  | amoswap (d : BitVec 5) (a : BitVec 5) (b : BitVec 5) (s : BitVec 3) (o : BitVec 2) (w : BitVec 1)
  /-- AMOADD (R239). -/
  | amoadd (d : BitVec 5) (a : BitVec 5) (b : BitVec 5) (s : BitVec 3) (o : BitVec 2) (w : BitVec 1)
  /-- AMOAND (R239). -/
  | amoand (d : BitVec 5) (a : BitVec 5) (b : BitVec 5) (s : BitVec 3) (o : BitVec 2) (w : BitVec 1)
  /-- AMOOR (R239). -/
  | amoor (d : BitVec 5) (a : BitVec 5) (b : BitVec 5) (s : BitVec 3) (o : BitVec 2) (w : BitVec 1)
  /-- AMOXOR (R239). -/
  | amoxor (d : BitVec 5) (a : BitVec 5) (b : BitVec 5) (s : BitVec 3) (o : BitVec 2) (w : BitVec 1)
  /-- AMOMIN (R239). -/
  | amomin (d : BitVec 5) (a : BitVec 5) (b : BitVec 5) (s : BitVec 3) (o : BitVec 2) (w : BitVec 1)
  /-- AMOMAX (R239). -/
  | amomax (d : BitVec 5) (a : BitVec 5) (b : BitVec 5) (s : BitVec 3) (o : BitVec 2) (w : BitVec 1)
  /-- AMOMINU (R239). -/
  | amominu (d : BitVec 5) (a : BitVec 5) (b : BitVec 5) (s : BitVec 3) (o : BitVec 2) (w : BitVec 1)
  /-- AMOMAXU (R239). -/
  | amomaxu (d : BitVec 5) (a : BitVec 5) (b : BitVec 5) (s : BitVec 3) (o : BitVec 2) (w : BitVec 1)
  /-- AMOCAS (R239). -/
  | amocas (d : BitVec 5) (a : BitVec 5) (b : BitVec 5) (s : BitVec 3) (o : BitVec 2) (w : BitVec 1)
  /-- LDA (R238). -/
  | lda (d : BitVec 5) (a : BitVec 5) (s : BitVec 3) (w : BitVec 1)
  /-- STL (R238). -/
  | stl (a : BitVec 5) (b : BitVec 5) (s : BitVec 3) (w : BitVec 1)
  /-- AMOFADD (R239). -/
  | amofadd (d : BitVec 5) (a : BitVec 5) (b : BitVec 5) (s : BitVec 3) (o : BitVec 2) (w : BitVec 1)
  /-- FENCE (R234). -/
  | fence (s : BitVec 3) (k : BitVec 2)
  /-- PFENCE (R218). -/
  | pfence (s : BitVec 3) (p : BitVec 4)
  /-- BAR (R242). -/
  | bar (s : BitVec 3)
  /-- SBAR (R237). -/
  | sbar (s : BitVec 3) (w : BitVec 8) (h : BitVec 8)
  /-- SRR (R476). -/
  | srr (d : BitVec 5) (n : BitVec 12)
  /-- SRW (R476). -/
  | srw (a : BitVec 5) (n : BitVec 12)
  /-- SRS (R476). -/
  | srs (d : BitVec 5) (a : BitVec 5) (n : BitVec 12)
  /-- SRC (R476). -/
  | src (d : BitVec 5) (a : BitVec 5) (n : BitVec 12)
  /-- TRAP (R477). -/
  | trap (i : BitVec 11)
  /-- BREAKPOINT (R477). -/
  | breakpoint (i : BitVec 11)
  /-- TRET (R478). -/
  | tret
  /-- URET (R108). -/
  | uret
  /-- WFE (R480). -/
  | wfe (d : BitVec 5) (a : BitVec 5)
  /-- VTINV (R481). -/
  | vtinv (a : BitVec 5) (b : BitVec 5)
  /-- PTINV (R482). -/
  | ptinv (a : BitVec 5) (b : BitVec 5)
  /-- CTXSAVE (R483). -/
  | ctxsave (d : BitVec 5) (a : BitVec 5)
  /-- CTXLOAD (R483). -/
  | ctxload (d : BitVec 5) (a : BitVec 5)
  /-- LAUNCH (R420). -/
  | launch (d : BitVec 5) (a : BitVec 5)
  /-- LAUNCHC (R436). -/
  | launchc (d : BitVec 5) (a : BitVec 5) (b : BitVec 5)
  /-- LWAIT (R422). -/
  | lwait (d : BitVec 5) (a : BitVec 5)
  /-- YIELD (R431). -/
  | yield
  /-- LSTAT (R422). -/
  | lstat (d : BitVec 5) (a : BitVec 5)
  /-- END (R430). -/
  | endThread
  /-- HCLAIM (R268). -/
  | hclaim (d : BitVec 5) (a : BitVec 5)
  /-- HFREE (R284). -/
  | hfree (b : BitVec 5)
  /-- HSTAT (R283). -/
  | hstat (d : BitVec 5) (b : BitVec 5)
  /-- HDRAIN (R286). -/
  | hdrain (d : BitVec 5) (a : BitVec 5) (b : BitVec 5)
  /-- LDT (R303). -/
  | ldt (c : BitVec 4) (d : BitVec 5) (a : BitVec 5) (z : BitVec 2)
  /-- STT (R303). -/
  | stt (c : BitVec 4) (d : BitVec 5) (a : BitVec 5) (z : BitVec 2)
  /-- TXN (R303). -/
  | txn (c : BitVec 4) (d : BitVec 5) (a : BitVec 5)
  /-- STQRY (R309). -/
  | stqry (d : BitVec 5) (a : BitVec 5)
  /-- STLOAD (R299). -/
  | stload (d : BitVec 5) (a : BitVec 5) (b : BitVec 5)
  /-- STBIND (R297). -/
  | stbind (d : BitVec 5) (a : BitVec 5)
  /-- STUNBIND (R298). -/
  | stunbind (d : BitVec 5) (b : BitVec 5)
  /-- CPY (R366). -/
  | cpy (d : BitVec 5) (a : BitVec 5) (b : BitVec 5) (w : BitVec 1) (s : BitVec 1) (p : BitVec 1)
  /-- ECWAIT (R371). -/
  | ecwait (d : BitVec 5) (a : BitVec 5)
  /-- WBLD (R400). -/
  | wbld (d : BitVec 5) (a : BitVec 5) (l : BitVec 5) (w : BitVec 1) (s : BitVec 1) (p : BitVec 1) (h : BitVec 3)
  /-- ACSTM (R408). -/
  | acstm (d : BitVec 5) (a : BitVec 5) (b : BitVec 5) (w : BitVec 1) (s : BitVec 1) (p : BitVec 1)
  /-- ACLDM (R408). -/
  | acldm (d : BitVec 5) (a : BitVec 5) (b : BitVec 5) (w : BitVec 1) (s : BitVec 1) (p : BitVec 1)
  /-- ENGB (R370). -/
  | engb (d : BitVec 5) (a : BitVec 5) (g : BitVec 5)
  /-- ATTACH (R388). -/
  | attach (d : BitVec 5) (a : BitVec 5)
  /-- DETACH (R389). -/
  | detach
  /-- VLD (R196). -/
  | vld (d : BitVec 5) (a : BitVec 5) (g : BitVec 5) (n : BitVec 3)
  /-- VLD_STRIDED (R196). -/
  | vldStrided (d : BitVec 5) (a : BitVec 5) (b : BitVec 5) (g : BitVec 5) (n : BitVec 3)
  /-- VLD_INDEXED (R196). -/
  | vldIndexed (d : BitVec 5) (a : BitVec 5) (b : BitVec 5) (g : BitVec 5) (n : BitVec 3)
  /-- VLD_ORD (R197). -/
  | vldOrd (d : BitVec 5) (a : BitVec 5) (b : BitVec 5) (g : BitVec 5) (n : BitVec 3)
  /-- VST (R196). -/
  | vst (d : BitVec 5) (a : BitVec 5) (g : BitVec 5) (n : BitVec 3)
  /-- VST_STRIDED (R196). -/
  | vstStrided (d : BitVec 5) (a : BitVec 5) (b : BitVec 5) (g : BitVec 5) (n : BitVec 3)
  /-- VST_INDEXED (R196). -/
  | vstIndexed (d : BitVec 5) (a : BitVec 5) (b : BitVec 5) (g : BitVec 5) (n : BitVec 3)
  /-- VST_ORD (R197). -/
  | vstOrd (d : BitVec 5) (a : BitVec 5) (b : BitVec 5) (g : BitVec 5) (n : BitVec 3)
  /-- VLDFF (R206). -/
  | vldff (d : BitVec 5) (a : BitVec 5) (g : BitVec 5) (n : BitVec 3)
  /-- VLDM (R207). -/
  | vldm (d : BitVec 5) (a : BitVec 5) (g : BitVec 5) (n : BitVec 3)
  /-- VLDB (R210). -/
  | vldb (d : BitVec 5) (a : BitVec 5) (b : BitVec 5) (g : BitVec 5) (n : BitVec 3)
  /-- VSTM (R207). -/
  | vstm (d : BitVec 5) (a : BitVec 5) (g : BitVec 5) (n : BitVec 3)
  /-- VAMOADD (R246). -/
  | vamoadd (d : BitVec 5) (a : BitVec 5) (b : BitVec 5) (g : BitVec 5) (n : BitVec 3)
  /-- VAMOMIN (R246). -/
  | vamomin (d : BitVec 5) (a : BitVec 5) (b : BitVec 5) (g : BitVec 5) (n : BitVec 3)
  /-- VAMOMAX (R246). -/
  | vamomax (d : BitVec 5) (a : BitVec 5) (b : BitVec 5) (g : BitVec 5) (n : BitVec 3)
  /-- VAMOFADD (R246). -/
  | vamofadd (d : BitVec 5) (a : BitVec 5) (b : BitVec 5) (g : BitVec 5) (n : BitVec 3)
  /-- SPLD (R220). -/
  | spld (d : BitVec 5) (a : BitVec 5) (b : BitVec 5) (g : BitVec 5)
  /-- SPST (R220). -/
  | spst (d : BitVec 5) (a : BitVec 5) (b : BitVec 5) (g : BitVec 5)
  /-- SPLDU (R220). -/
  | spldu (d : BitVec 5) (a : BitVec 5) (g : BitVec 5)
  /-- SPSTU (R220). -/
  | spstu (d : BitVec 5) (a : BitVec 5) (g : BitVec 5)
  /-- HINS (R276). -/
  | hins (a : BitVec 5) (b : BitVec 5) (g : BitVec 5) (t : BitVec 2)
  /-- HPRB (R276). -/
  | hprb (d : BitVec 5) (a : BitVec 5) (g : BitVec 5) (t : BitVec 2)
  /-- HDEL (R276). -/
  | hdel (a : BitVec 5) (g : BitVec 5) (t : BitVec 2)
  /-- HACC (R276). -/
  | hacc (a : BitVec 5) (b : BitVec 5) (g : BitVec 5) (t : BitVec 2)
  /-- HAMIN (R276). -/
  | hamin (a : BitVec 5) (b : BitVec 5) (g : BitVec 5) (t : BitVec 2)
  /-- HAMAX (R276). -/
  | hamax (a : BitVec 5) (b : BitVec 5) (g : BitVec 5) (t : BitVec 2)
  /-- HUPD (R276). -/
  | hupd (a : BitVec 5) (b : BitVec 5) (g : BitVec 5) (t : BitVec 2)
  /-- VTXN (R312). -/
  | vtxn (c : BitVec 4) (a : BitVec 5) (b : BitVec 5) (g : BitVec 5)
  /-- BOXX (R445). -/
  | boxx (d : BitVec 5) (a : BitVec 5) (b : BitVec 5) (g : BitVec 5)
  /-- TRIX (R446). -/
  | trix (d : BitVec 5) (a : BitVec 5) (b : BitVec 5) (g : BitVec 5)
  /-- MLINS (R457). -/
  | mlins (a : BitVec 5) (b : BitVec 5) (g : BitVec 5)
  /-- MLINS2 (R459). -/
  | mlins2 (a : BitVec 5) (b : BitVec 5) (g : BitVec 5)
  /-- MLRSLV (R460). -/
  | mlrslv (d : BitVec 5) (a : BitVec 5) (b : BitVec 5) (g : BitVec 5)
  /-- MLCLR (R461). -/
  | mlclr (b : BitVec 5) (g : BitVec 5)
  /-- MLCFG (R454). -/
  | mlcfg (d : BitVec 5) (a : BitVec 5)
  /-- MLD (R213). -/
  | mld (d : BitVec 5) (a : BitVec 5) (b : BitVec 5) (g : BitVec 5) (n : BitVec 3)
  /-- MLDP (R213). -/
  | mldp (d : BitVec 5) (a : BitVec 5) (b : BitVec 5) (g : BitVec 5) (n : BitVec 3)
  /-- MST (R213). -/
  | mst (d : BitVec 5) (a : BitVec 5) (b : BitVec 5) (g : BitVec 5) (n : BitVec 3)
  /-- MSTP (R213). -/
  | mstp (d : BitVec 5) (a : BitVec 5) (b : BitVec 5) (g : BitVec 5) (n : BitVec 3)
  /-- SETVL (R145). -/
  | setvl (d : BitVec 5) (a : BitVec 5) (b : BitVec 5)
  /-- SETTYPE (R153). -/
  | settype (d : BitVec 5) (a : BitVec 5)
  /-- SETTYPEI (R153). -/
  | settypei (i : BitVec 20)
  /-- QUEUE_DEADLOCK (R102): an event without a word. -/
  | queueDeadlock (t : ThreadId)
  /-- WFE_TIMEOUT (R480): an event without a word. -/
  | wfeTimeout (t : ThreadId)
  /-- STAGED_RESEND (R306): an event without a word. -/
  | stagedResend (t : ThreadId)
  /-- COMMAND_COMPLETE (R362): an event without a word. -/
  | commandComplete (id : Nat) (err : Bool)
  /-- TOKEN_DEADLOCK (R385): an event without a word. -/
  | tokenDeadlock (t : ThreadId)
  /-- ML_INSERTION (R458): an event without a word. -/
  | mlInsertion (id : Nat)
  /-- ML_RESOLVE_APPLY (R460): an event without a word. -/
  | mlResolveApply (id : Nat)
  /-- ML_CLEAR_APPLY (R461): an event without a word. -/
  | mlClearApply (id : Nat)
  /-- SETVL_REEVALUATION (R147): an event without a word. -/
  | setvlReevaluation (core : Nat)
  /-- BOOT_LAUNCH (R419): an event without a word. -/
  | bootLaunch (part : Nat) (packet : BitVec 1024)
  /-- PARTITION_UNIT_TAKE (R423): an event without a word. -/
  | partitionUnitTake (part : Nat)
  /-- GATE_REOFFER (R315): an event without a word. -/
  | gateReoffer (part lid : Nat)
  /-- THREAD_DISPATCH (R432): an event without a word. -/
  | threadDispatch (part : Nat)
  /-- RECORD_AGING (R432): an event without a word. -/
  | recordAging (t : ThreadId)
  /-- LAUNCH_COMPLETE (R429): an event without a word. -/
  | launchComplete (part lid : Nat)
  /-- NODE_FLUSH (R436): an event without a word. -/
  | nodeFlush (part node : Nat)
  /-- LANE_RECLAIM (R151): an event without a word. -/
  | laneReclaim (t : ThreadId)
  /-- GOVERNOR_EVALUATION (R26): an event without a word. -/
  | governorEvaluation (core ceil quad rowcap pace : Nat)
  /-- PREEMPTION (R486): an event without a word. -/
  | preemption (t : ThreadId)
  /-- RESUME (R489): an event without a word. -/
  | resume (t : ThreadId)
  /-- PEER_REQUEST (R505): an event without a word. -/
  | peerRequest (q : PeerReq)
  /-- PEER_RESEND (R260): an event without a word. -/
  | peerResend (tag : Nat)
  /-- PEER_RETRY_REPLY (R260): an event without a word. -/
  | peerRetryReply (tag : Nat)
  /-- LINK_ERROR (R260): an event without a word. -/
  | linkError (tag : Nat)
  /-- FLIT_CRC_RETRY (R504): an event without a word. -/
  | flitCrcRetry (port : Nat)
  /-- CRINIK_LANE_FAILURE (R504): an event without a word. -/
  | crinikLaneFailure (port : Nat)
  /-- CRINIK_PORT_LOSS (R504): an event without a word. -/
  | crinikPortLoss (port : Nat)
  /-- HOST_REQUEST (R494): an event without a word. -/
  | hostRequest (part addr : Nat)
  /-- SOFT_ERROR (R492): an event without a word. -/
  | softError (core group : Nat) (again : Bool)
  /-- ECC_CORRECTED (R491): an event without a word. -/
  | eccCorrected (part addr unit : Nat)
  /-- UNCORRECTABLE_ERROR (R493): an event without a word. -/
  | uncorrectableError (addr len : Nat)
  /-- FATAL_DEVICE_ERROR (R491): an event without a word. -/
  | fatalDeviceError (unit : Nat)
  /-- HEARTBEAT (R500): an event without a word. -/
  | heartbeat (m : Master)
  /-- TAKEOVER_EXPIRY (R500): an event without a word. -/
  | takeoverExpiry
  /-- OWNERSHIP_WRITE (R500): an event without a word. -/
  | ownershipWrite (m : Master) (v : BitVec 64)
  /-- MODID_WRITE (R501): an event without a word. -/
  | modidWrite (m : Master) (v : BitVec 64)
  /-- REGISTER_WRITE (R499): an event without a word. -/
  | registerWrite (m : Master) (vf : Option Nat) (off : Nat) (v : BitVec 64)
  /-- CREATE (R503): an event without a word. -/
  | create (m : Master)
  /-- DESTROY (R503): an event without a word. -/
  | destroy (m : Master)
  /-- RESIZE (R503): an event without a word. -/
  | resize (m : Master)
  /-- ADDMEM (R503): an event without a word. -/
  | addmem (m : Master)
  /-- EXPORT (R503): an event without a word. -/
  | exportAperture (m : Master)
  /-- PEERMAP (R503): an event without a word. -/
  | peermap (m : Master)
  /-- PEERUNMAP (R503): an event without a word. -/
  | peerunmap (m : Master)
  /-- FENCEQ (R513): an event without a word. -/
  | fenceq (m : Master)
  /-- READMIT (R513): an event without a word. -/
  | readmit (m : Master)
  /-- RETIRESB (R503): an event without a word. -/
  | retiresb (m : Master)
  /-- RETIRECH (R503): an event without a word. -/
  | retirech (m : Master)
  /-- POWER (R514): an event without a word. -/
  | power (m : Master)
  /-- LINKS (R503): an event without a word. -/
  | links (m : Master)
  /-- UPDATE (R512): an event without a word. -/
  | update (m : Master)
  /-- SEIZE (R508): an event without a word. -/
  | seize
  /-- HANDBACK (R508): an event without a word. -/
  | handback
  /-- REQUEST_COMPLETE (R502): an event without a word. -/
  | requestComplete
  /-- IMAGE_SWITCH (R512): an event without a word. -/
  | imageSwitch (unit : Nat) (ok : Bool)
  /-- SPDM_GET_MEASUREMENTS (R507): an event without a word. -/
  | spdmGetMeasurements
  /-- SPDM_CHALLENGE (R507): an event without a word. -/
  | spdmChallenge (nonce : BitVec 256)
  /-- SPDM_KEY_EXCHANGE (R507): an event without a word. -/
  | spdmKeyExchange (nonce : BitVec 256)
  /-- PLDM_MONITORING (R507): an event without a word. -/
  | pldmMonitoring
  /-- PLDM_FIRMWARE_UPDATE (R508): an event without a word. -/
  | pldmFirmwareUpdate (unit version : Nat) (ok : Bool)
  /-- AUX_POWER_UP (R515): an event without a word. -/
  | auxPowerUp (ok : Bool)
  /-- MAIN_POWER_UP (R515): an event without a word. -/
  | mainPowerUp (ok : Bool) (badChannels : List Nat)
  /-- ILLEGAL_WORD (R34): an event without a word. -/
  | illegalWord (w : BitVec 32)
  /-- DIE_TO_DIE_LINK_RETRY (R259): an event without a word. -/
  | dieToDieLinkRetry (tag : Nat)
  /-- REPLY_ACKNOWLEDGEMENT (R259): an event without a word. -/
  | replyAcknowledgement (port requester tag : Nat)
  /-- VADD (R167). -/
  | vadd (c : BitVec 1) (d : BitVec 5) (a : BitVec 5) (b : BitVec 5) (g : BitVec 5)
  /-- VSUB (R167). -/
  | vsub (c : BitVec 1) (d : BitVec 5) (a : BitVec 5) (b : BitVec 5) (g : BitVec 5)
  /-- VMUL (R167). -/
  | vmul (c : BitVec 1) (d : BitVec 5) (a : BitVec 5) (b : BitVec 5) (g : BitVec 5)
  /-- VMULH (R167). -/
  | vmulh (c : BitVec 1) (d : BitVec 5) (a : BitVec 5) (b : BitVec 5) (g : BitVec 5)
  /-- VMIN (R167). -/
  | vmin (c : BitVec 1) (d : BitVec 5) (a : BitVec 5) (b : BitVec 5) (g : BitVec 5)
  /-- VMAX (R167). -/
  | vmax (c : BitVec 1) (d : BitVec 5) (a : BitVec 5) (b : BitVec 5) (g : BitVec 5)
  /-- VMINU (R167). -/
  | vminu (c : BitVec 1) (d : BitVec 5) (a : BitVec 5) (b : BitVec 5) (g : BitVec 5)
  /-- VMAXU (R167). -/
  | vmaxu (c : BitVec 1) (d : BitVec 5) (a : BitVec 5) (b : BitVec 5) (g : BitVec 5)
  /-- VAND (R167). -/
  | vand (c : BitVec 1) (d : BitVec 5) (a : BitVec 5) (b : BitVec 5) (g : BitVec 5)
  /-- VOR (R167). -/
  | vor (c : BitVec 1) (d : BitVec 5) (a : BitVec 5) (b : BitVec 5) (g : BitVec 5)
  /-- VXOR (R167). -/
  | vxor (c : BitVec 1) (d : BitVec 5) (a : BitVec 5) (b : BitVec 5) (g : BitVec 5)
  /-- VSLL (R167). -/
  | vsll (c : BitVec 1) (d : BitVec 5) (a : BitVec 5) (b : BitVec 5) (g : BitVec 5)
  /-- VSRL (R167). -/
  | vsrl (c : BitVec 1) (d : BitVec 5) (a : BitVec 5) (b : BitVec 5) (g : BitVec 5)
  /-- VSRA (R167). -/
  | vsra (c : BitVec 1) (d : BitVec 5) (a : BitVec 5) (b : BitVec 5) (g : BitVec 5)
  /-- VMACC (R167). -/
  | vmacc (c : BitVec 1) (d : BitVec 5) (a : BitVec 5) (b : BitVec 5) (g : BitVec 5)
  /-- VDIV (R168). -/
  | vdiv (c : BitVec 1) (d : BitVec 5) (a : BitVec 5) (b : BitVec 5) (g : BitVec 5)
  /-- VADDSAT (R167). -/
  | vaddsat (c : BitVec 1) (d : BitVec 5) (a : BitVec 5) (b : BitVec 5) (g : BitVec 5)
  /-- VSUBSAT (R167). -/
  | vsubsat (c : BitVec 1) (d : BitVec 5) (a : BitVec 5) (b : BitVec 5) (g : BitVec 5)
  /-- VINTS_VADD (R41). -/
  | vintsVadd (c : BitVec 1) (d : BitVec 5) (a : BitVec 5) (b : BitVec 5) (g : BitVec 5)
  /-- VINTS_VSUB (R41). -/
  | vintsVsub (c : BitVec 1) (d : BitVec 5) (a : BitVec 5) (b : BitVec 5) (g : BitVec 5)
  /-- VINTS_VMUL (R41). -/
  | vintsVmul (c : BitVec 1) (d : BitVec 5) (a : BitVec 5) (b : BitVec 5) (g : BitVec 5)
  /-- VINTS_VMULH (R41). -/
  | vintsVmulh (c : BitVec 1) (d : BitVec 5) (a : BitVec 5) (b : BitVec 5) (g : BitVec 5)
  /-- VINTS_VMIN (R41). -/
  | vintsVmin (c : BitVec 1) (d : BitVec 5) (a : BitVec 5) (b : BitVec 5) (g : BitVec 5)
  /-- VINTS_VMAX (R41). -/
  | vintsVmax (c : BitVec 1) (d : BitVec 5) (a : BitVec 5) (b : BitVec 5) (g : BitVec 5)
  /-- VINTS_VMINU (R41). -/
  | vintsVminu (c : BitVec 1) (d : BitVec 5) (a : BitVec 5) (b : BitVec 5) (g : BitVec 5)
  /-- VINTS_VMAXU (R41). -/
  | vintsVmaxu (c : BitVec 1) (d : BitVec 5) (a : BitVec 5) (b : BitVec 5) (g : BitVec 5)
  /-- VINTS_VAND (R41). -/
  | vintsVand (c : BitVec 1) (d : BitVec 5) (a : BitVec 5) (b : BitVec 5) (g : BitVec 5)
  /-- VINTS_VOR (R41). -/
  | vintsVor (c : BitVec 1) (d : BitVec 5) (a : BitVec 5) (b : BitVec 5) (g : BitVec 5)
  /-- VINTS_VXOR (R41). -/
  | vintsVxor (c : BitVec 1) (d : BitVec 5) (a : BitVec 5) (b : BitVec 5) (g : BitVec 5)
  /-- VINTS_VSLL (R41). -/
  | vintsVsll (c : BitVec 1) (d : BitVec 5) (a : BitVec 5) (b : BitVec 5) (g : BitVec 5)
  /-- VINTS_VSRL (R41). -/
  | vintsVsrl (c : BitVec 1) (d : BitVec 5) (a : BitVec 5) (b : BitVec 5) (g : BitVec 5)
  /-- VINTS_VSRA (R41). -/
  | vintsVsra (c : BitVec 1) (d : BitVec 5) (a : BitVec 5) (b : BitVec 5) (g : BitVec 5)
  /-- VINTS_VMACC (R41). -/
  | vintsVmacc (c : BitVec 1) (d : BitVec 5) (a : BitVec 5) (b : BitVec 5) (g : BitVec 5)
  /-- VINTS_VDIV (R41). -/
  | vintsVdiv (c : BitVec 1) (d : BitVec 5) (a : BitVec 5) (b : BitVec 5) (g : BitVec 5)
  /-- VINTS_VADDSAT (R41). -/
  | vintsVaddsat (c : BitVec 1) (d : BitVec 5) (a : BitVec 5) (b : BitVec 5) (g : BitVec 5)
  /-- VINTS_VSUBSAT (R41). -/
  | vintsVsubsat (c : BitVec 1) (d : BitVec 5) (a : BitVec 5) (b : BitVec 5) (g : BitVec 5)
  /-- VFADD (R170). -/
  | vfadd (c : BitVec 1) (d : BitVec 5) (a : BitVec 5) (b : BitVec 5) (g : BitVec 5)
  /-- VFSUB (R170). -/
  | vfsub (c : BitVec 1) (d : BitVec 5) (a : BitVec 5) (b : BitVec 5) (g : BitVec 5)
  /-- VFMUL (R170). -/
  | vfmul (c : BitVec 1) (d : BitVec 5) (a : BitVec 5) (b : BitVec 5) (g : BitVec 5)
  /-- VFDIV (R170). -/
  | vfdiv (c : BitVec 1) (d : BitVec 5) (a : BitVec 5) (b : BitVec 5) (g : BitVec 5)
  /-- VFSQRT (R170). -/
  | vfsqrt (c : BitVec 1) (d : BitVec 5) (a : BitVec 5) (g : BitVec 5)
  /-- VFMA (R170). -/
  | vfma (c : BitVec 1) (d : BitVec 5) (a : BitVec 5) (b : BitVec 5) (g : BitVec 5)
  /-- VFMS (R170). -/
  | vfms (c : BitVec 1) (d : BitVec 5) (a : BitVec 5) (b : BitVec 5) (g : BitVec 5)
  /-- VFMIN (R170). -/
  | vfmin (c : BitVec 1) (d : BitVec 5) (a : BitVec 5) (b : BitVec 5) (g : BitVec 5)
  /-- VFMAX (R170). -/
  | vfmax (c : BitVec 1) (d : BitVec 5) (a : BitVec 5) (b : BitVec 5) (g : BitVec 5)
  /-- VFABS (R170). -/
  | vfabs (c : BitVec 1) (d : BitVec 5) (a : BitVec 5) (g : BitVec 5)
  /-- VFNEG (R170). -/
  | vfneg (c : BitVec 1) (d : BitVec 5) (a : BitVec 5) (g : BitVec 5)
  /-- VFPS_VFADD (R41). -/
  | vfpsVfadd (c : BitVec 1) (d : BitVec 5) (a : BitVec 5) (b : BitVec 5) (g : BitVec 5)
  /-- VFPS_VFSUB (R41). -/
  | vfpsVfsub (c : BitVec 1) (d : BitVec 5) (a : BitVec 5) (b : BitVec 5) (g : BitVec 5)
  /-- VFPS_VFMUL (R41). -/
  | vfpsVfmul (c : BitVec 1) (d : BitVec 5) (a : BitVec 5) (b : BitVec 5) (g : BitVec 5)
  /-- VFPS_VFDIV (R41). -/
  | vfpsVfdiv (c : BitVec 1) (d : BitVec 5) (a : BitVec 5) (b : BitVec 5) (g : BitVec 5)
  /-- VFPS_VFMA (R41). -/
  | vfpsVfma (c : BitVec 1) (d : BitVec 5) (a : BitVec 5) (b : BitVec 5) (g : BitVec 5)
  /-- VFPS_VFMS (R41). -/
  | vfpsVfms (c : BitVec 1) (d : BitVec 5) (a : BitVec 5) (b : BitVec 5) (g : BitVec 5)
  /-- VFPS_VFMIN (R41). -/
  | vfpsVfmin (c : BitVec 1) (d : BitVec 5) (a : BitVec 5) (b : BitVec 5) (g : BitVec 5)
  /-- VFPS_VFMAX (R41). -/
  | vfpsVfmax (c : BitVec 1) (d : BitVec 5) (a : BitVec 5) (b : BitVec 5) (g : BitVec 5)
  /-- VCMP_EQ (R172). -/
  | vcmpEq (c : BitVec 1) (d : BitVec 5) (a : BitVec 5) (b : BitVec 5) (g : BitVec 5) (k : BitVec 2)
  /-- VCMP_NE (R172). -/
  | vcmpNe (c : BitVec 1) (d : BitVec 5) (a : BitVec 5) (b : BitVec 5) (g : BitVec 5) (k : BitVec 2)
  /-- VCMP_LT (R172). -/
  | vcmpLt (c : BitVec 1) (d : BitVec 5) (a : BitVec 5) (b : BitVec 5) (g : BitVec 5) (k : BitVec 2)
  /-- VCMP_GE (R172). -/
  | vcmpGe (c : BitVec 1) (d : BitVec 5) (a : BitVec 5) (b : BitVec 5) (g : BitVec 5) (k : BitVec 2)
  /-- VCMP_LE (R172). -/
  | vcmpLe (c : BitVec 1) (d : BitVec 5) (a : BitVec 5) (b : BitVec 5) (g : BitVec 5) (k : BitVec 2)
  /-- VCMP_GT (R172). -/
  | vcmpGt (c : BitVec 1) (d : BitVec 5) (a : BitVec 5) (b : BitVec 5) (g : BitVec 5) (k : BitVec 2)
  /-- VCMP_UN (R174). -/
  | vcmpUn (c : BitVec 1) (d : BitVec 5) (a : BitVec 5) (b : BitVec 5) (g : BitVec 5)
  /-- PAND (R175). -/
  | pand (c : BitVec 1) (d : BitVec 5) (a : BitVec 5) (b : BitVec 5) (g : BitVec 5)
  /-- POR (R175). -/
  | por (c : BitVec 1) (d : BitVec 5) (a : BitVec 5) (b : BitVec 5) (g : BitVec 5)
  /-- PXOR (R175). -/
  | pxor (c : BitVec 1) (d : BitVec 5) (a : BitVec 5) (b : BitVec 5) (g : BitVec 5)
  /-- PANDN (R175). -/
  | pandn (c : BitVec 1) (d : BitVec 5) (a : BitVec 5) (b : BitVec 5) (g : BitVec 5)
  /-- PNOT (R175). -/
  | pnot (c : BitVec 1) (d : BitVec 5) (a : BitVec 5) (g : BitVec 5)
  /-- PLEAD (R175). -/
  | plead (c : BitVec 1) (d : BitVec 5) (a : BitVec 5) (g : BitVec 5)
  /-- PTHRU (R175). -/
  | pthru (c : BitVec 1) (d : BitVec 5) (a : BitVec 5) (g : BitVec 5)
  /-- PPRE (R175). -/
  | ppre (c : BitVec 1) (d : BitVec 5) (a : BitVec 5) (g : BitVec 5)
  /-- PCNT (R175). -/
  | pcnt (c : BitVec 1) (d : BitVec 5) (a : BitVec 5) (g : BitVec 5)
  /-- PANY (R175). -/
  | pany (c : BitVec 1) (d : BitVec 5) (a : BitVec 5) (g : BitVec 5)
  /-- PSET (R175). -/
  | pset (c : BitVec 1) (d : BitVec 5) (g : BitVec 5)
  /-- PCLR (R175). -/
  | pclr (c : BitVec 1) (d : BitVec 5) (g : BitVec 5)
  /-- PGETF (R175). -/
  | pgetf (c : BitVec 1) (d : BitVec 5) (g : BitVec 5)
  /-- VSLUP (R176). -/
  | vslup (c : BitVec 1) (d : BitVec 5) (a : BitVec 5) (b : BitVec 5) (g : BitVec 5)
  /-- VSLDN (R176). -/
  | vsldn (c : BitVec 1) (d : BitVec 5) (a : BitVec 5) (b : BitVec 5) (g : BitVec 5)
  /-- VSLUPI (R176). -/
  | vslupi (c : BitVec 1) (d : BitVec 5) (a : BitVec 5) (b : BitVec 5) (g : BitVec 5)
  /-- VSLDNI (R176). -/
  | vsldni (c : BitVec 1) (d : BitVec 5) (a : BitVec 5) (b : BitVec 5) (g : BitVec 5)
  /-- VPERM (R176). -/
  | vperm (c : BitVec 1) (d : BitVec 5) (a : BitVec 5) (b : BitVec 5) (g : BitVec 5)
  /-- VCOMP (R176). -/
  | vcomp (c : BitVec 1) (d : BitVec 5) (a : BitVec 5) (b : BitVec 5)
  /-- VEXPD (R176). -/
  | vexpd (c : BitVec 1) (d : BitVec 5) (a : BitVec 5) (b : BitVec 5)
  /-- VMERGE (R176). -/
  | vmerge (c : BitVec 1) (d : BitVec 5) (a : BitVec 5) (b : BitVec 5) (g : BitVec 5)
  /-- VBCAST (R176). -/
  | vbcast (c : BitVec 1) (d : BitVec 5) (a : BitVec 5) (g : BitVec 5)
  /-- VEXTR (R176). -/
  | vextr (c : BitVec 1) (d : BitVec 5) (a : BitVec 5) (b : BitVec 5)
  /-- VINS (R176). -/
  | vins (c : BitVec 1) (d : BitVec 5) (a : BitVec 5) (b : BitVec 5)
  /-- VIOTA (R176). -/
  | viota (c : BitVec 1) (d : BitVec 5) (a : BitVec 5) (g : BitVec 5)
  /-- VID (R176). -/
  | vid (c : BitVec 1) (d : BitVec 5) (g : BitVec 5)
  /-- VREDSUM (R179). -/
  | vredsum (c : BitVec 1) (d : BitVec 5) (a : BitVec 5) (g : BitVec 5)
  /-- VREDMIN (R179). -/
  | vredmin (c : BitVec 1) (d : BitVec 5) (a : BitVec 5) (g : BitVec 5)
  /-- VREDMAX (R179). -/
  | vredmax (c : BitVec 1) (d : BitVec 5) (a : BitVec 5) (g : BitVec 5)
  /-- VFREDO (R179). -/
  | vfredo (c : BitVec 1) (d : BitVec 5) (a : BitVec 5) (g : BitVec 5)
  /-- VFREDT (R129). -/
  | vfredt (c : BitVec 1) (d : BitVec 5) (a : BitVec 5) (g : BitVec 5)
  /-- VFREDMIN (R179). -/
  | vfredmin (c : BitVec 1) (d : BitVec 5) (a : BitVec 5) (g : BitVec 5)
  /-- VFREDMAX (R179). -/
  | vfredmax (c : BitVec 1) (d : BitVec 5) (a : BitVec 5) (g : BitVec 5)
  /-- VCMUL (R182). -/
  | vcmul (c : BitVec 1) (d : BitVec 5) (a : BitVec 5) (b : BitVec 5) (g : BitVec 5)
  /-- VCMAC (R182). -/
  | vcmac (c : BitVec 1) (d : BitVec 5) (a : BitVec 5) (b : BitVec 5) (g : BitVec 5)
  /-- VCMULC (R182). -/
  | vcmulc (c : BitVec 1) (d : BitVec 5) (a : BitVec 5) (b : BitVec 5) (g : BitVec 5)
  /-- VCABS2 (R182). -/
  | vcabs2 (c : BitVec 1) (d : BitVec 5) (a : BitVec 5) (g : BitVec 5)
  /-- VCVT (R135). -/
  | vcvt (c : BitVec 1) (d : BitVec 5) (a : BitVec 5) (e : BitVec 3) (g : BitVec 5) (f : BitVec 4)
  /-- VSCALE (R138). -/
  | vscale (c : BitVec 1) (d : BitVec 5) (a : BitVec 5) (b : BitVec 5) (g : BitVec 5)
  /-- VQMAX (R139). -/
  | vqmax (c : BitVec 1) (d : BitVec 5) (a : BitVec 5) (g : BitVec 5)
  /-- MGP (R348). -/
  | mgp (c : BitVec 1) (d : BitVec 5) (a : BitVec 5) (b : BitVec 5) (g : BitVec 5) (p : BitVec 2)
  /-- MWDG (R348). -/
  | mwdg (c : BitVec 1) (d : BitVec 5) (a : BitVec 5) (b : BitVec 5) (g : BitVec 5) (p : BitVec 2)
  /-- MDOT (R348). -/
  | mdot (c : BitVec 1) (d : BitVec 5) (a : BitVec 5) (b : BitVec 5) (g : BitVec 5) (p : BitVec 2)
  /-- MLCT (R348). -/
  | mlct (c : BitVec 1) (d : BitVec 5) (a : BitVec 5) (b : BitVec 5) (g : BitVec 5) (p : BitVec 2)
  /-- MJOIN (R348). -/
  | mjoin (c : BitVec 1) (d : BitVec 5) (a : BitVec 5) (b : BitVec 5) (g : BitVec 5) (p : BitVec 2)
  /-- MSAND (R349). -/
  | msand (c : BitVec 1) (d : BitVec 5) (a : BitVec 5) (b : BitVec 5) (g : BitVec 5) (p : BitVec 2)
  /-- MCOMM (R348). -/
  | mcomm (c : BitVec 1) (d : BitVec 5) (a : BitVec 5) (b : BitVec 5) (g : BitVec 5) (p : BitVec 2)
  /-- MREV (R351). -/
  | mrev (c : BitVec 1) (d : BitVec 5) (a : BitVec 5) (g : BitVec 5) (p : BitVec 2)
  /-- MDUAL (R351). -/
  | mdual (c : BitVec 1) (d : BitVec 5) (a : BitVec 5) (g : BitVec 5) (p : BitVec 2)
  /-- MGRD (R351). -/
  | mgrd (c : BitVec 1) (d : BitVec 5) (a : BitVec 5) (b : BitVec 5) (g : BitVec 5) (p : BitVec 2)
  /-- MNRM2 (R352). -/
  | mnrm2 (c : BitVec 1) (d : BitVec 5) (a : BitVec 5) (g : BitVec 5) (p : BitVec 2)
  /-- MNRMI (R352). -/
  | mnrmi (c : BitVec 1) (d : BitVec 5) (a : BitVec 5) (g : BitVec 5) (p : BitVec 2)
  /-- MNORMZ (R353). -/
  | mnormz (c : BitVec 1) (d : BitVec 5) (a : BitVec 5) (g : BitVec 5) (p : BitVec 2)
  /-- MEXPB (R354). -/
  | mexpb (c : BitVec 1) (d : BitVec 5) (a : BitVec 5) (g : BitVec 5) (p : BitVec 2)
  /-- MLOGM (R355). -/
  | mlogm (c : BitVec 1) (d : BitVec 5) (a : BitVec 5) (g : BitVec 5) (p : BitVec 2)
  /-- MMOV (R333). -/
  | mmov (c : BitVec 1) (d : BitVec 5) (a : BitVec 5) (g : BitVec 5) (p : BitVec 2)
  /-- MSETM (R334). -/
  | msetm (c : BitVec 1) (d : BitVec 5) (b : BitVec 5)
  /-- MGETM (R335). -/
  | mgetm (c : BitVec 1) (d : BitVec 5) (a : BitVec 5)
  /-- MCLEAN (R336). -/
  | mclean (c : BitVec 1) (d : BitVec 5) (a : BitVec 5)
  /-- MFROMV (R337). -/
  | mfromv (c : BitVec 1) (d : BitVec 5) (a : BitVec 5) (b : BitVec 5) (g : BitVec 5) (p : BitVec 2)
  /-- MTOV (R337). -/
  | mtov (c : BitVec 1) (d : BitVec 5) (a : BitVec 5) (b : BitVec 5) (g : BitVec 5)
  /-- MADD (R338). -/
  | madd (c : BitVec 1) (d : BitVec 5) (a : BitVec 5) (b : BitVec 5) (g : BitVec 5) (p : BitVec 2)
  /-- MSUB (R338). -/
  | msub (c : BitVec 1) (d : BitVec 5) (a : BitVec 5) (b : BitVec 5) (g : BitVec 5) (p : BitVec 2)
  /-- MSCAL (R339). -/
  | mscal (c : BitVec 1) (d : BitVec 5) (a : BitVec 5) (b : BitVec 5) (g : BitVec 5) (p : BitVec 2)
  /-- MCONJ (R339). -/
  | mconj (c : BitVec 1) (d : BitVec 5) (a : BitVec 5) (g : BitVec 5) (p : BitVec 2)
  /-- MINVOL (R339). -/
  | minvol (c : BitVec 1) (d : BitVec 5) (a : BitVec 5) (g : BitVec 5) (p : BitVec 2)
  /-- MXAC (R404). -/
  | mxac (c : BitVec 1) (d : BitVec 5) (a : BitVec 5) (l : BitVec 5) (h : BitVec 3) (w : BitVec 1) (s : BitVec 1)
  /-- MXACS (R404). -/
  | mxacs (c : BitVec 1) (d : BitVec 5) (a : BitVec 5) (l : BitVec 5) (h : BitVec 3) (w : BitVec 1) (s : BitVec 1)
  /-- MZERO (R406). -/
  | mzero (c : BitVec 1) (d : BitVec 5) (w : BitVec 1) (s : BitVec 1)
  /-- ACLD (R406). -/
  | acld (c : BitVec 1) (d : BitVec 5) (a : BitVec 5) (w : BitVec 1) (s : BitVec 1)
  /-- ACST (R406). -/
  | acst (c : BitVec 1) (d : BitVec 5) (a : BitVec 5) (w : BitVec 1) (s : BitVec 1)
  /-- MCHK (R412). -/
  | mchk (c : BitVec 1) (d : BitVec 5) (e : BitVec 1) (w : BitVec 1) (s : BitVec 1)
  /-- VTOK (R378). -/
  | vtok (c : BitVec 1) (w : BitVec 1) (s : BitVec 1)
  deriving DecidableEq, Repr

end Sys2Proof
end

