-- ==== Sys2Proof/Machine/State.lean ====
section
/-!
DEFINITION. State: everything the spec gives the machine, as plain data, with the model's own few fields; the reasons
a step stops; and the state right after reset. INVENTORY.md lists each field with its rule and reset value.
-/
namespace Sys2Proof.Machine

/-! ## Threads -/

/-- The six hardware loop registers (R53, R90). -/
structure Loops where
  lc0 : Word
  lb0 : Word
  le0 : Word
  lc1 : Word
  lb1 : Word
  le1 : Word
  deriving DecidableEq, Repr

/-- The nine dimension registers (R53, R207, R208). -/
structure Dims where
  dl0 : Word
  dl1 : Word
  dl2 : Word
  ds0 : Word
  ds1 : Word
  ds2 : Word
  dx0 : Word
  dx1 : Word
  dx2 : Word
  deriving DecidableEq, Repr

/-- The user status registers that are kept as words (R53, R104, R105, R126, R308). -/
structure UserRegs where
  ustatus : Word
  uhandler : Word
  uepc : Word
  ucause : Word
  fflags : Word
  vfirst : Word
  stst : Word
  deriving DecidableEq, Repr

/-- The six handler registers of one of the rings 1 to 3 (R470). -/
structure RingRegs where
  status : Word
  handler : Word
  epc : Word
  cause : Word
  record : Word
  scratch : Word
  deriving DecidableEq, Repr

/-- The handler registers of the driver, hypervisor and monitor rings. -/
structure RingSet where
  d : RingRegs
  h : RingRegs
  m : RingRegs
  deriving DecidableEq, Repr

/-- A multivector register: eight lane-group slices of 4,096 bits and the 5-bit grade mask tag (R321). -/
structure MvReg where
  bits : BitVec 32768
  tag : BitVec 5
  deriving DecidableEq, Repr

/-- The tags of R488. -/
inductive Dirt where
  | zero
  | clean
  | dirty
  deriving DecidableEq, Repr

/-- The save tag of a v, m or p register with its high-water mark, counted in bytes of the register (log 9). -/
structure SaveTag where
  dirt : Dirt
  high : Nat
  deriving DecidableEq, Repr

/-- The register files whose size the grant sets (R47). Lane group j of the thread's grant holds bits 2048·j of a v
register, 512·j of a p register and 4096·j of an m register (R12, R13, R120, R321). -/
structure VRegs where
  v : Table (BitVec 16384)
  p : Table (BitVec 4096)
  m : Table MvReg
  tags : Table SaveTag
  deriving DecidableEq, Repr

/-- The four token FIFOs of a thread, as counts of the tokens present (R375). -/
structure Tokens where
  lsvx : Nat
  vxls : Nat
  lsmx : Nat
  mxls : Nat
  deriving DecidableEq, Repr

/-- The names of the four token FIFOs (R375). -/
inductive Fifo where
  | lsvx
  | vxls
  | lsmx
  | mxls
  deriving DecidableEq, Repr

/-- Vector configuration of a thread (R51, R53, R148). -/
structure VConf where
  vl : Nat
  vtype : BitVec 32
  grant : Nat
  tgrant : Nat
  fmask : BitVec 4096
  counters : Table Nat
  deriving DecidableEq, Repr

/-- A member of a convoy, with what it captured at dispatch: the scalars its A and B fields name, fmask, and the
checksum-mode bit (R14, R155, R205, R412). -/
structure Member where
  instr : Instr
  sa : Word
  sb : Word
  fmask : BitVec 4096
  chk : Bool
  deriving DecidableEq, Repr

/-- A convoy (R43): the PC of its first word, its members, the loop registers as they stood at its first word, the vl,
vtype, grant and tgrant captured at dispatch (R155, R395), how many members have executed, the members whose W pop
is recorded (R46), and the tokens its members push when it retires. sregs, pops, instret, last, chk and the captured vl
and vtype undo what later words did to the scalar registers, the queues, the count of retired words, the last completed
word, the checksum-mode bit and the vector configuration, should the convoy trap (R469); late holds the flags of later
scalar operations until it retires. bad: a member with C = 1 stands at the end word of an active loop (R44). -/
structure Convoy where
  pc : Word
  members : List Member
  loops : Loops
  vl : Nat
  vtype : BitVec 32
  grant : Nat
  tgrant : Nat
  done : Nat
  popped : List Nat
  pushes : List Fifo
  sregs : Table Word
  pops : List (Nat × Word)
  instret : Word
  last : Option Word
  chk : Bool
  late : Nat
  bad : Bool
  deriving DecidableEq, Repr

/-- A write of an A-side instruction to a vector, predicate or multivector register: the bits of mask take val. -/
inductive RegWrite where
  | v (n : Nat) (mask val : BitVec 16384)
  | p (n : Nat) (mask val : BitVec 4096)
  | m (n : Nat) (mask val : BitVec 32768)
  deriving DecidableEq, Repr

/-- One run of bits that a vector store or load moves between bit src of register reg and bit bit of the byte at pa, len
bits. -/
structure StoreRun where
  reg : Nat
  src : Nat
  pa : Nat
  bit : Nat
  len : Nat
  deriving DecidableEq, Repr

/-- A scalar access: a load of n bytes into d, sign-extended where sx holds; LDK, 8 bytes into d on the constant path; a store
of bytes, which releases where rel holds (STL); an atomic of n bytes with its operand and the value that CAS expects (R75, R77,
R239, R240). -/
inductive ScalarOp where
  | load (d : BitVec 5) (n : Nat) (sx : Bool)
  | ldk (d : BitVec 5)
  | store (bytes : List Byte) (rel : Bool)
  | amo (op : AmoOp) (d : BitVec 5) (n : Nat) (v e : Nat)
  deriving DecidableEq, Repr

/-- The updates of VAMO (R246). -/
inductive VamoOp where
  | add
  | min
  | max
  | fadd
  deriving DecidableEq, Repr

/-- What an access to a peer that waits keeps, so that its LINK_ERROR leaves no trace of the word and of those after it (R237,
R260, R467): its request tag, the thread as it stood at the word, the queue entries taken since and the flags raised since. -/
structure Undo where
  tag : Nat
  pc : Word
  s : Table Word
  conf : VConf
  dims : Dims
  loops : Loops
  vfirst : Word
  chk : Bool
  instret : Word
  last : Option Word
  pops : List (Nat × Word)
  late : Nat
  deriving DecidableEq, Repr

/-- An access whose turn has not come: its stream, the streams that an SBAR or an acquire holds behind it (R237, R255), the
address of its first element, when it was dispatched, as the count of free values then, before which an engine command was
issued or not (R374), and for a peer what its failure takes back. -/
structure Held where
  ag : Nat
  held : BitVec 8
  ea : Word
  stamp : Nat
  undo : Option Undo
  deriving DecidableEq, Repr

/-- An entry of the work that a thread performs in program order: a convoy of the VIQ (R14); a pending register write of an
A-side instruction (R159); an access that waits for earlier work (R16, R159, R229, R237): of vector registers, mv saying
whether reg names an m register and load whether the bytes go to the register; of VLDM on the tile path, with the element
width and the fences that its reads must honour (R216); of VAMO, each element with its address, its register, its bit there
and its bytes; or of a scalar word (R111); or the place of the registers that the reply to a multi-layer operation will write
(R457). -/
inductive VEntry where
  | convoy (c : Convoy)
  | write (ws : List RegWrite)
  | access (h : Held) (load mv : Bool) (runs : List StoreRun)
  | tile (h : Held) (w : Nat) (fences : Table Nat) (runs : List StoreRun)
  | vamo (h : Held) (op : VamoOp) (vtype : BitVec 32) (elems : List (Nat × Nat × Nat × List Nat))
  | scalar (h : Held) (pas : List Nat) (op : ScalarOp)
  | reply (id : Nat) (regs : List Nat)
  deriving DecidableEq, Repr

/-- A trap before its delivery: cause, address, syndrome, ESIDE, queue, reissue flag, the batch list of R188, whether
fmask and vfirst apply to it, whether the sweep counters do (R475), the PC to save where it is not the thread's, and the
syndrome of its error record where the spec gives one (R162, R414), and whether the record already stands in the log
(R455). -/
structure Trap where
  cause : Nat
  addr : Word := 0#64
  synd : Nat := 0
  eside : Bool := false
  queue : Nat := 0
  reissue : Bool := false
  batch : List Nat := []
  elems : Bool := false
  sweep : Bool := false
  epc : Option Word := none
  logSynd : Option (BitVec 32) := none
  logged : Bool := false
  deriving DecidableEq, Repr

/-- What a waiting A-side word waits for. -/
inductive WaitOn where
  /-- dispatch into a full VIQ (R102) -/
  | viq
  /-- QPOP of queue k (R101) -/
  | qpop (k : Nat)
  /-- QDRAIN of queue k (R101) -/
  | qdrain (k : Nat)
  /-- an ENG word with W, for a token (R376) -/
  | tokenPop
  /-- an ENG word with S, for a free entry (R376) -/
  | tokenPush
  /-- SETVL for a lane group, with its operands (R147) -/
  | setvl (d a b : BitVec 5)
  /-- BAR (R242) -/
  | bar
  /-- WFE (R480) -/
  | wfe
  /-- a reply of a peer module, under a request tag (R260) -/
  | peer (tag : Nat)
  /-- a trap of the word at pc that a staged unit has found, for the E-side to finish earlier work (R305, R468) -/
  | fault (cause : Nat) (addr : Word)
  /-- a trap of the word at pc whose record waits for an engine that owns its lines (R23, R474) -/
  | trap (x : Trap)
  /-- anything else: the word executes again when the thread's turn comes -/
  | other
  deriving DecidableEq, Repr

/-- Does the thread's A-side wait? -/
inductive Wait where
  /-- no -/
  | none
  /-- the word at pc executes again at the thread's next turn -/
  | retry (w : WaitOn)
  /-- parked in the waiter queue of a staged object (R305) or at a full unit (R306): only the unit moves it -/
  | parked
  deriving DecidableEq, Repr

/-- Barriers executed, per scope, and whether the thread has arrived at the next one of a scope (R242, R243). -/
structure Bars where
  core : Nat
  sheet : Nat
  device : Nat
  arrived : Option Nat
  deriving DecidableEq, Repr

/-- The place of a thread: the core its record is assigned (R426), the core and slot it runs in or left, its launch's
priority (R144), its stack (R427), its context area while saved (R487), its first accumulator row (R388), the WEIGHT and SHARE
saved with it (R141, R144); while its record waits, whether it has aged (R432) and, where YIELD put it at the tail of its
priority, the launch id that was next then (R431); and whether a convoy has retired since it last resumed (R486). -/
structure Place where
  home : Nat
  core : Nat
  slot : Nat
  prio : Nat
  stack : Option Nat
  area : Option Nat
  rowBase : Nat
  weight : Nat
  share : Nat
  aged : Bool
  tail : Option Nat
  ran : Bool
  deriving DecidableEq, Repr

/-- Matrix state of a thread: the checksum-mode bit, UNCHK and REDO (R412), and the FP32 tile positions written since
ATTACH (R391). -/
structure MatState where
  chk : Bool
  unchk : BitVec 32
  redo : BitVec 32
  tiles : List Nat
  deriving DecidableEq, Repr

/-- Progress of a thread: words retired (R53); the last word that completed (R467); the instruction at pc is to be
reissued (R203); for each level of trap the word and the request tag that a TRET resends under (R260); the WFE event mask
(R480); commands found complete with an error since the last ECWAIT, by tag (R371); the next engine tag (R361); the
position of the memory log at the newest PFENCE, by the core that executed it, the path and the scope, 32·core + 8·path + scope
(R216, R218); barriers; the wait; the address of a
MACHINE_CHECK from outside its words that waits to be taken (R455, R491); and for each level of trap the convoy that
trapped there with the members whose W pop is recorded (R46). -/
structure Progress where
  instret : Word
  last : Option Word
  reissue : Bool
  resend : Table (Option (Word × Nat))
  events : BitVec 4
  errors : List Nat
  nextTag : Nat
  fences : Table Nat
  bars : Bars
  wait : Wait
  check : Option Word
  wpops : Table (Option (Word × List Nat))
  deriving DecidableEq, Repr

/-- A hardware thread with its context. -/
structure Thread where
  id : ThreadId
  place : Place
  pc : Word
  ring : BitVec 2
  s : Table Word
  vr : VRegs
  q : Table (List Word)
  tok : Tokens
  conf : VConf
  user : UserRegs
  loops : Loops
  dims : Dims
  rings : RingSet
  mat : MatState
  prog : Progress
  viq : List VEntry
  framing : Option Convoy
  deriving DecidableEq, Repr

/-! ## Cores and quads -/

/-- A lane allocation table entry (R141). HELD is the number of bits set in map. -/
structure Lat where
  weight : Nat
  map : BitVec 8
  share : Nat
  pm : Bool
  wait : Bool
  deriving DecidableEq, Repr

/-- A slot of a hash bucket (R271). -/
inductive HSlot where
  | empty
  | tombstone
  | live (key : Word) (val : BitVec 128)
  deriving DecidableEq, Repr

/-- A claimed hash table (R263 to R272, R280): its claim group, the fields of the claim descriptor, the slots keyed by
8·bucket + slot, and the spill state. -/
structure HTable where
  part : Nat
  lid : Nat
  b : Nat
  layout : Nat
  vfmt : Nat
  action : Nat
  seed : Word
  sbase : Word
  scap : Nat
  slots : Table HSlot
  scnt : Nat
  spilled : Bool
  sfull : Bool
  deriving DecidableEq, Repr

/-- A core: the lane allocation table by slot, the slots waiting in SETVL in order (R147), CEIL (R142), the scratchpad
keyed by 131,072·slice + offset (R219), the hash tables (R263), the free-node lists of the multi-layer targets
(R453), and the position of the last PTINV that removed every translation (R482). -/
structure Core where
  lat : Table Lat
  waiters : List Nat
  ceil : Nat
  spad : Table Byte
  tables : Table (Option HTable)
  freeNodes : Table (List Nat)
  deriving DecidableEq, Repr

/-- The states of a weight slot (R396). -/
inductive WState where
  | empty
  | loading (cmd : Nat)
  | ready
  deriving DecidableEq, Repr

/-- A weight slot (R396 to R398, R413): data holds the stored entries, the first byte lowest; cks and dks hold the
checksum column. -/
structure WSlot where
  state : WState
  format : Nat
  layout : Nat
  scale0 : BitVec 32
  scale1 : BitVec 32
  data : BitVec 65536
  flag : Bool
  cks : List Word
  dks : List Word
  deriving DecidableEq, Repr

/-- A quad: its owner (R28), whether it is fenced (R513), ROWCAP and PACE (R387), the accumulator store keyed by
1,024·row + word (R392), and the weight slots. -/
structure Quad where
  owner : Option Nat
  fenced : Bool
  rowcap : Nat
  pace : Nat
  acc : Table (BitVec 32)
  slots : Table WSlot
  deriving DecidableEq, Repr

/-! ## Partitions -/

/-- The partition's status registers (R470), with the values of vwbase, gzimage and ptroot that are in force. -/
structure PartRegs where
  vwbase : Word
  gzimage : Word
  ptroot : Word
  vwbaseF : Word
  gzimageF : Word
  ptrootF : Word
  reclaim : Word
  nqbase : Word
  nqcap : Word
  nqhead : Word
  nqtail : Word
  ctxbase : Word
  ctxcount : Word
  stkbase : Word
  stkslot : Word
  stkcount : Word
  deriving DecidableEq, Repr

/-- The rest of the partition's status registers (R470). -/
structure PartRegs2 where
  gzfirst : Nat
  gzcount : Nat
  logbase : Word
  logcap : Word
  loghead : Word
  logtail : Word
  ddefh : Word
  ddefr : Word
  hdefh : Word
  hdefr : Word
  mdefh : Word
  mdefr : Word
  deriving DecidableEq, Repr

/-- A launch packet as the hub holds it (R416, R417), with its address, 0 for the boot launch. -/
structure Packet where
  addr : Word
  legend : Word
  ext0 : Word
  ext1 : Word
  ext2 : Word
  prio : Nat
  tpc : Nat
  gated : Bool
  completes : Bool
  gcode : Nat
  ccode : Nat
  gate : Word
  compl : Word
  args : List Word
  deriving DecidableEq, Repr

/-- A loop entry of a legend (R63). -/
structure LoopEntry where
  kind : Nat
  ext : Nat
  bal : Nat
  deriving DecidableEq, Repr

/-- A legend (R62), with its entry word's address. -/
structure Legend where
  entry : Word
  stack : Nat
  threads : Nat
  hashkb : Nat
  rows : Nat
  levels : List LoopEntry
  deriving DecidableEq, Repr

/-- The states of a launch (R421), and whether a gate already passed lets the partition unit go on to step 2. -/
inductive LState where
  | queued
  | parked
  | running
  | complete
  | rejected
  | gateFailed
  | gateFaulted
  deriving DecidableEq, Repr

/-- An accepted launch (R418, R421, R423). accepter: the thread that accepted it, if one did (R480); passed: the gate has
been applied (R305); owes: it is complete, and its completion transition is still to come (R429). -/
structure Launch where
  accepter : Option ThreadId
  packet : Packet
  legend : Option Legend
  state : LState
  reason : Nat
  cfail : Bool
  passed : Bool
  owes : Bool
  ended : Nat
  total : Nat
  ranksEnded : List Nat
  deriving DecidableEq, Repr

/-- A thread record that waits for a slot (R424 to R428, R432): its place in the split. -/
structure Record where
  id : ThreadId
  core : Nat
  prio : Nat
  aged : Bool
  pairs : List (Word × Word)
  entries : Word × Word
  deriving DecidableEq, Repr

/-- An automaton slot (R292, R293): NST, and the 256 table entries by 16·state + code. -/
structure Automaton where
  nst : Nat
  table : Table (BitVec 16)
  deriving DecidableEq, Repr

/-- A bound class (R295, R296). -/
structure Class where
  base : Word
  count : Nat
  osh : Nat
  slot : Nat
  scope : Nat
  sarr : Word
  deriving DecidableEq, Repr

/-- The access kinds of a transition (R303, R312, R315). -/
inductive StKind where
  | ldt
  | stt
  | txn
  | gate
  deriving DecidableEq, Repr

/-- A waiter of a staged object (R305), or an access that a full unit turned away (R306): the access with its thread, its
address and operands, or a launch, with the physical address of the object's state byte. -/
structure Waiter where
  va : Word
  sb : Nat
  cls : Nat
  obj : Nat
  kind : StKind
  code : Nat
  thread : ThreadId
  dest : Nat
  size : Nat
  pa : Nat
  data : Word
  deriving DecidableEq, Repr

/-- A bound multi-layer target (R449, R453): its descriptor and the pages not yet drawn. -/
structure Target where
  width : Nat
  height : Nat
  k : Nat
  merge : Nat
  head : Word
  pool : Word
  pages : Nat
  undrawn : List Nat
  deriving DecidableEq, Repr

/-- A batch of a coalescing node: its first slot, its records, its launch once launched (R436). -/
structure Batch where
  start : Nat
  count : Nat
  lid : Option Nat
  deriving DecidableEq, Repr

/-- An active coalescing node (R434 to R436): its descriptor's address and fields, its child template, the next slot,
its batches (oldest first; the open one has no launch), and the launch whose thread appended the open batch's first
record. -/
structure Node where
  desc : Word
  packet : Packet
  buf : Word
  cap : Nat
  thresh : Nat
  flush : Nat
  next : Nat
  batches : List Batch
  parent : Nat
  deriving DecidableEq, Repr

/-- The states of a partition (R498). -/
inductive PState where
  | absent
  | running
  | halted
  | quiescing
  deriving DecidableEq, Repr

/-- A partition (R28, R29, R496, R503). -/
structure Part where
  state : PState
  quads : BitVec 64
  ranges : List (Nat × Nat)
  pasid : Nat
  peers : List (Nat × Nat)
  key : Nat
  regs : PartRegs
  regs2 : PartRegs2
  queues : Table (List Nat)
  launches : Table Launch
  nextLid : Nat
  boot : BitVec 1024
  bootClosed : Bool
  bootBad : Bool
  records : List Record
  stackSlots : List Nat
  areas : List Nat
  ptinv : List (Nat × Nat × Nat)
  deriving DecidableEq, Repr

/-- The staged objects, layers and coalescing nodes of a partition. -/
structure Objects where
  automata : Table Automaton
  classes : Table (Option Class)
  waiters : List Waiter
  targets : Table (Option Target)
  nodes : List Node
  resend : List Waiter
  deriving DecidableEq, Repr

/-! ## Memory, engines and the hub -/

/-- Who writes a byte (R27, R216): a thread on a core, the copy engine of a core, the matrix engine of a quad, the staged-object
or multi-layer unit of a sheet, another unit of the module, or a master outside it. -/
inductive Writer where
  | thread (id : ThreadId) (core : Nat)
  | copier (core : Nat)
  | matrix (quad : Nat)
  | sheet (n : Nat)
  | unit
  | outside
  deriving DecidableEq, Repr

/-- A write of a byte as the log keeps it: the place, the value before, and the writer. -/
structure OldByte where
  pa : Nat
  val : Byte
  who : Writer
  deriving DecidableEq, Repr

/-- The memory: physical bytes, the writes (newest first) with their number, the poisoned bytes (R493). Bytes of host
memory are keyed by their address and the PASID of the access (R496). -/
structure Mem where
  cells : List Host.Cell
  log : List OldByte
  logLen : Nat
  poison : List Nat
  deriving DecidableEq, Repr

/-- A gazetteer replica entry (R484). -/
structure GzEntry where
  t0base : Nat
  t1base : Nat
  perm : BitVec 3
  resid : BitVec 128
  tier : BitVec 128
  deriving DecidableEq, Repr

/-- What an engine command does when it completes: byte runs of physical addresses (destination, source, length);
a fill (destination, length, offset of its first byte in the pattern); a weight load of a header and its data, with the
fences that its reads must honour (R216); accumulator transfers, whose
runs pair a physical address with the byte offset in the tile (rows of 128 or 256 bytes). -/
inductive CmdBody where
  | copy (runs : List (Nat × Nat × Nat))
  | fill (runs : List (Nat × Nat × Nat)) (pattern : Word)
  | wbld (slot : Nat) (header : BitVec 512) (runs : List (Nat × Nat)) (chk : Bool) (fences : Table Nat)
  | acstm (tile : Nat) (w64 : Bool) (runs : List (Nat × Nat × Nat))
  | acldm (tile : Nat) (w64 : Bool) (runs : List (Nat × Nat × Nat))
  deriving DecidableEq, Repr

/-- An outstanding engine command (R360 to R364). ahead counts the entries of the thread's VIQ that were dispatched
before it and have not retired (R410); lost holds its destination lines that have suffered an uncorrectable error (R372). -/
structure Cmd where
  id : Nat
  thread : ThreadId
  core : Nat
  copyEngine : Bool
  tag : Nat
  scope : Nat
  ordered : Bool
  push : Option Fifo
  gz : List Nat
  ahead : Nat
  lost : List Nat
  body : CmdBody
  deriving DecidableEq, Repr

/-- What a multi-layer unit is asked to do at a pixel (R458, R460, R461): the pixel's head address (virtual), with the
node allocated for an insertion. -/
inductive MlKind where
  | insert (pix : Nat) (node : Nat) (depth : BitVec 32) (rgba : BitVec 64)
  | resolve (pix : Nat) (free : Bool) (elem : Nat) (dreg : Nat) (bg : BitVec 64)
  | clear (pix : Nat)
  deriving DecidableEq, Repr

/-- An operation on its way to a multi-layer unit: one element of an ML instruction, whose steps are applied together
(R457, R459). -/
structure MlOp where
  id : Nat
  part : Nat
  target : Nat
  core : Nat
  thread : ThreadId
  fences : Table Nat
  steps : List MlKind
  deriving DecidableEq, Repr

/-- A Crinik port (R504). -/
structure Port where
  trained : Bool
  lanes : Nat
  spareUsed : Bool
  deriving DecidableEq, Repr

/-- An entry of the replay filter (R259, R505): port, requester, tag and the recorded reply. -/
structure Replay where
  port : Nat
  requester : Nat
  tag : Nat
  reply : List Byte
  deriving DecidableEq, Repr

/-- An exported aperture (R503, R506). -/
structure Aperture where
  num : Nat
  part : Nat
  base : Nat
  size : Nat
  writable : Bool
  shared : Bool
  sharers : List Nat
  deriving DecidableEq, Repr

/-- A firmware unit with its A and B slots (R512). -/
structure Image where
  versionA : Nat
  versionB : Nat
  active : Bool
  pending : Bool
  deriving DecidableEq, Repr

/-- What the module sends to the outside world, in order. -/
inductive Output where
  | peerReply (port requester tag : Nat) (reply : List Byte)
  | peerRetry (port requester tag : Nat)
  | peerError (port requester tag : Nat)
  | invalidate (aperture : Nat) (sharers : List Nat)
  | unsupportedRequest
  | aerCorrectable
  | aerNonFatal
  | aerFatal
  | mctpNotReady
  | spdm (code : Nat) (payload : Word)
  | pldm (payload : List Nat)
  | bringUpFailed (step : Nat)
  deriving DecidableEq, Repr

/-- The states of a configuration request (R502). -/
inductive ReqState where
  | idle
  | busy
  | done
  | refused
  | failed
  deriving DecidableEq, Repr

/-- The physical function's registers (R499 to R502), the arguments and the opcode of the request in execution, captured at its
OPCODE write, what waits behind it (R509: a SEIZE behind a request, a request of the host behind a SEIZE), and the log (R499). -/
structure PfRegs where
  owner : BitVec 1
  takeover : Nat
  seized : Bool
  expired : Bool
  modid : Nat
  args : Table Word
  held : Table Word
  waits : Option (Master × Word)
  reqState : ReqState
  reason : Nat
  seq : BitVec 32
  reqRes : Word
  logBase : Word
  logCap : BitVec 32
  logHead : BitVec 32
  logTail : BitVec 32
  logCount : Nat
  deriving DecidableEq, Repr

/-- The hub: PF registers, power state (R514), the bring-up steps done (R515), links, filters, apertures, images,
retired memory, and whether a fatal device error has struck (R491). -/
structure Hub where
  pf : PfRegs
  power : Nat
  stage : Nat
  ports : Table Port
  replay : List Replay
  apertures : List Aperture
  images : Table Image
  retiredSb : List Nat
  retiredCh : List (Nat × Nat × Nat)
  fatal : Bool
  nextKey : Nat
  deriving DecidableEq, Repr

/-! ## The machine -/

/-- Whose turn a step is (log 5). -/
inductive Turn where
  | cur
  | switch (k : Nat)
  | event (k : Nat)
  | timer (k : Nat)
  deriving DecidableEq, Repr

/-- The machine. mlLog keeps, for heads and nodes by their first byte, the log position of the last write that a
multi-layer unit made (R215, R462). The last rows are the model's own (INVENTORY.md); flaws tells, check by check, whether
the hardware fails where the spec lets it (R414, R502, R515; log 29). -/
structure State where
  mem : Mem
  gz : Table GzEntry
  cur : Thread
  active : Bool
  others : List Thread
  saved : List (Thread × List (Nat × HTable) × Table (BitVec 32))
  cores : Table Core
  quads : Table Quad
  parts : Table Part
  objects : Table Objects
  cmds : List Cmd
  mlq : List MlOp
  mlLog : Table Nat
  hub : Hub
  cycle : Word
  fresh : Nat
  sched : List Turn
  inputs : List Instr
  timers : List Instr
  outbox : List Output
  flaws : List Bool
  deriving DecidableEq, Repr

/-- The reasons a step ends in a fault. -/
inductive Fault where
  /-- Raised by step after FATAL_DEVICE_ERROR (R491, class 4): state shared by all partitions is lost, and the spec
  says no more of the module than that every partition halts. Safe: the model stops where the module stands halted. -/
  | deviceFatal
  deriving DecidableEq, Repr

/-- The reasons a step is refused. -/
inductive Refusal where
  /-- Raised by an arm of exec whose instruction has no meaning in the model yet. Safe: nothing can be proved of it. -/
  | notModelled (mnemonic : String)
  deriving DecidableEq, Repr

/-! ## Reset -/

/-- The register every unwritten slot of an m register file reads as (R148). -/
def MvReg.zero : MvReg := ⟨0, 0⟩

/-- A save tag after a grant change (R488). -/
def SaveTag.zero : SaveTag := ⟨.zero, 0⟩

/-- A lane allocation table entry at reset (R141). -/
def Lat.zero : Lat := ⟨0, 0, 0, false, false⟩

/-- A core at reset (R142, R515). -/
def Core.reset : Core := ⟨[], [], 8, [], [], []⟩

/-- An empty weight slot (R396). -/
def WSlot.empty : WSlot := ⟨.empty, 0, 0, 0, 0, 0, false, [], []⟩

/-- A quad at reset (R387, R515). -/
def Quad.reset : Quad := ⟨none, false, 64, 1, [], []⟩

/-- The partition registers at their reset values (R470). -/
def PartRegs.reset : PartRegs := ⟨0, 0, 0, 0, 0, 0, 100, 0, 0, 0, 0, 0, 0, 0, 0, 0⟩

/-- The partition registers at their reset values (R470). -/
def PartRegs2.reset : PartRegs2 := ⟨0, 0, 0, 0, 0, 0, 0, 0, 0, 0, 0, 0⟩

/-- A partition before its creation (R498). -/
def Part.reset : Part :=
  ⟨.absent, 0, [], 0, [], 0, PartRegs.reset, PartRegs2.reset, [], [], 1, 0, false, false, [], [], [], []⟩

/-- No automaton, class, waiter, target or node (R292, R447). -/
def Objects.reset : Objects := ⟨[], [], [], [], [], []⟩

/-- A gazetteer entry at reset: zeroed (R515). -/
def GzEntry.zero : GzEntry := ⟨0, 0, 0, 0, 0⟩

/-- An untrained Crinik port (R515). -/
def Port.reset : Port := ⟨false, 0, false⟩

/-- Image slots before any update (log 2). -/
def Image.reset : Image := ⟨0, 0, false, false⟩

/-- An empty automaton slot (R292). -/
def Automaton.empty : Automaton := ⟨0, []⟩

/-- The vtype of R51 at reset: FP32, LMUL 1, RNE. -/
def vtypeReset : BitVec 32 := 0x14#32

/-- A thread as R67 starts it, before its entry registers are set. -/
def Thread.reset : Thread where
  id := ⟨0, 0, 0⟩
  place := ⟨0, 0, 0, 0, none, none, 0, 0, 0, false, none, true⟩
  pc := 0
  ring := 0
  s := []
  vr := ⟨[], [], [], []⟩
  q := []
  tok := ⟨0, 0, 0, 0⟩
  conf := ⟨0, vtypeReset, 0, 0, 0, []⟩
  user := ⟨0, 0, 0, 0, 0, 0, 0⟩
  loops := ⟨0, 0, 0, 0, 0, 0⟩
  dims := ⟨0, 0, 0, 0, 0, 0, 0, 0, 0⟩
  rings := ⟨⟨0, 0, 0, 0, 0, 0⟩, ⟨0, 0, 0, 0, 0, 0⟩, ⟨0, 0, 0, 0, 0, 0⟩⟩
  mat := ⟨false, 0, 0, []⟩
  prog := ⟨0, none, false, [], 0, [], 1, [], ⟨0, 0, 0, none⟩, .none, none, []⟩
  viq := []
  framing := none

/-- The PF registers at reset (R499 to R502). -/
def PfRegs.reset : PfRegs := ⟨0, 30, false, false, 0, [], [], none, .idle, 0, 0, 0, 0, 0, 0, 0, 0⟩

/-- The hub at reset: power state P3 and no bring-up step done (log 3). -/
def Hub.reset : Hub := ⟨PfRegs.reset, 3, 0, [], [], [], [], [], [], false, 1⟩

/-- The module right after reset: no power, no partition, no thread (R28, R515; logs 2 and 3). -/
def State.reset : State where
  mem := ⟨[], [], 0, []⟩
  gz := []
  cur := Thread.reset
  active := false
  others := []
  saved := []
  cores := []
  quads := []
  parts := []
  objects := []
  cmds := []
  mlq := []
  mlLog := []
  hub := Hub.reset
  cycle := 0
  fresh := 0
  sched := []
  inputs := []
  timers := []
  outbox := []
  flaws := []

end Sys2Proof.Machine
end

