-- ==== Sys2Proof/Machine/Access.lean ====
section
/-!
DEFINITION. Reading and writing the parts of State: scalar registers, cores, quads, partitions, threads; the fields
of vtype; bits of words.
-/
namespace Sys2Proof.Machine

/-! ## Bits -/

/-- len bits of x from bit lo, as a number. -/
def bitsAt (x lo len : Nat) : Nat := (x >>> lo) % 2 ^ len

/-- Is bit k of x set? -/
def bitAt (x k : Nat) : Bool := x.testBit k

/-- 1 for true, 0 for false. -/
def b2n (b : Bool) : Nat := if b then 1 else 0

/-- The two's complement reading of the low w bits of x. -/
def sgnN (w x : Nat) : Int :=
  let y := x % 2 ^ w
  if y < 2 ^ (w - 1) then (y : Int) else (y : Int) - (2 ^ w : Int)

/-- An integer modulo 2^w. -/
def wrapN (w : Nat) (i : Int) : Nat := (i % (2 ^ w : Int)).toNat

/-- n little-endian bytes of x (R1). -/
def bytesOf : Nat → Nat → List Byte
  | 0, _ => []
  | n + 1, x => BitVec.ofNat 8 x :: bytesOf n (x / 256)

/-- The number that little-endian bytes hold (R1). -/
def ofBytes : List Byte → Nat
  | [] => 0
  | b :: r => b.toNat + 256 * ofBytes r

/-- Word n of the ring's arithmetic modulo 2^64. -/
def w64 (n : Nat) : Word := BitVec.ofNat 64 n

/-- Sign extension of a field to 64 bits (R38). -/
def sext {n : Nat} (x : BitVec n) : Word := x.signExtend 64

/-- Word with bits hi..lo replaced. -/
def setBits (x : Word) (lo len : Nat) (v : Nat) : Word :=
  let mask := w64 ((2 ^ len - 1) <<< lo)
  (x &&& ~~~ mask) ||| (w64 (v <<< lo) &&& mask)

/-- Numbers from lo, n of them. -/
def rangeFrom (lo n : Nat) : List Nat := (List.range n).map (fun i => lo + i)

/-- A list with the item at place k replaced by f of it. -/
def modifyAt {α : Type} (f : α → α) : List α → Nat → List α
  | [], _ => []
  | a :: r, 0 => f a :: r
  | a :: r, k + 1 => a :: modifyAt f r k

/-- Does any item satisfy p? The place of the first that does. -/
def findIdxOpt {α : Type} (p : α → Bool) : List α → Nat → Option Nat
  | [], _ => none
  | a :: r, k => if p a then some k else findIdxOpt p r (k + 1)

/-! ## vtype (R51) -/

/-- SEW code to bits. -/
def sewBits (c : Nat) : Nat :=
  match c with
  | 0 => 4
  | 1 => 6
  | 2 => 8
  | 3 => 16
  | 4 => 32
  | _ => 64

/-- vtype.SEW in bits. -/
def vtSew (v : BitVec 32) : Nat := sewBits (bitsAt v.toNat 0 3)
/-- vtype.FMT. -/
def vtFmt (v : BitVec 32) : Nat := bitsAt v.toNat 3 4
/-- vtype.LMUL as a group size. -/
def vtLmul (v : BitVec 32) : Nat := 2 ^ bitsAt v.toNat 7 2
/-- vtype.IW in bits. -/
def vtIw (v : BitVec 32) : Nat := if bitAt v.toNat 9 then 64 else 32
/-- vtype.RM. -/
def vtRm (v : BitVec 32) : Nat := bitsAt v.toNat 10 2
/-- vtype.SAT. -/
def vtSat (v : BitVec 32) : Bool := bitAt v.toNat 12
/-- vtype.SCL. -/
def vtScl (v : BitVec 32) : Bool := bitAt v.toNat 13
/-- vtype.SCR. -/
def vtScr (v : BitVec 32) : Nat := bitsAt v.toNat 14 5
/-- vtype.PM. -/
def vtPm (v : BitVec 32) : Bool := bitAt v.toNat 19
/-- vtype.BL. -/
def vtBl (v : BitVec 32) : Nat := bitsAt v.toNat 20 2

/-- Elements of width w in one slice of 2,048 bits (R120). -/
def perSlice (w : Nat) : Nat := 2048 / w

/-- VLMAX per lane group (R156). -/
def perGroup (w l : Nat) : Nat := min (perSlice w * l) 512

/-! ## Scalar registers (R47, R48) -/

/-- s0 reads as zero. -/
def Thread.readS (t : Thread) (n : BitVec 5) : Word := if n = 0#5 then 0#64 else Table.get t.s 0#64 n.toNat

/-- A write to s0 is discarded. -/
def Thread.writeS (t : Thread) (n : BitVec 5) (v : Word) : Thread :=
  if n = 0#5 then t else { t with s := Table.set t.s 0#64 n.toNat v }

/-- Register sN of the current thread. -/
def State.readS (s : State) (n : BitVec 5) : Word := s.cur.readS n

/-- The state with register sN of the current thread written. -/
def State.writeS (s : State) (n : BitVec 5) (v : Word) : State := { s with cur := s.cur.writeS n v }

/-- The state with the current thread changed. -/
def State.onCur (s : State) (f : Thread → Thread) : State := { s with cur := f s.cur }

/-- The state with the current thread's progress changed. -/
def State.onProg (s : State) (f : Progress → Progress) : State := s.onCur (fun t => { t with prog := f t.prog })

/-- The state with the current thread's user registers changed. -/
def State.onUser (s : State) (f : UserRegs → UserRegs) : State := s.onCur (fun t => { t with user := f t.user })

/-- The state with the current thread's vector configuration changed. -/
def State.onConf (s : State) (f : VConf → VConf) : State := s.onCur (fun t => { t with conf := f t.conf })

/-- Queue k of a thread, oldest entry first (R99). -/
def Thread.queue (t : Thread) (k : Nat) : List Word := Table.get t.q [] k

/-- The thread with queue k replaced. -/
def Thread.setQueue (t : Thread) (k : Nat) (l : List Word) : Thread := { t with q := Table.set t.q [] k l }

/-! ## Cores, quads, partitions -/

/-- Core c. -/
def State.core (s : State) (c : Nat) : Core := Table.get s.cores Core.reset c
/-- The state with core c replaced. -/
def State.setCore (s : State) (c : Nat) (v : Core) : State := { s with cores := Table.set s.cores Core.reset c v }
/-- Quad q. -/
def State.quad (s : State) (q : Nat) : Quad := Table.get s.quads Quad.reset q
/-- The state with quad q replaced. -/
def State.setQuad (s : State) (q : Nat) (v : Quad) : State := { s with quads := Table.set s.quads Quad.reset q v }
/-- Partition p. -/
def State.part (s : State) (p : Nat) : Part := Table.get s.parts Part.reset p
/-- The state with partition p replaced. -/
def State.setPart (s : State) (p : Nat) (v : Part) : State := { s with parts := Table.set s.parts Part.reset p v }
/-- The objects of partition p. -/
def State.objs (s : State) (p : Nat) : Objects := Table.get s.objects Objects.reset p
/-- The state with the objects of partition p replaced. -/
def State.setObjs (s : State) (p : Nat) (v : Objects) : State :=
  { s with objects := Table.set s.objects Objects.reset p v }
/-- The lane allocation table entry of a slot. -/
def Core.latOf (c : Core) (slot : Nat) : Lat := Table.get c.lat Lat.zero slot
/-- The core with a slot's lane allocation table entry replaced. -/
def Core.setLat (c : Core) (slot : Nat) (l : Lat) : Core := { c with lat := Table.set c.lat Lat.zero slot l }
/-- Hash table n of a core. -/
def Core.table (c : Core) (n : Nat) : Option HTable := Table.get c.tables none n
/-- The core with hash table n replaced. -/
def Core.setTable (c : Core) (n : Nat) (t : Option HTable) : Core := { c with tables := Table.set c.tables none n t }

/-- The sheet of a core (R10). -/
def sheetOf (core : Nat) : Nat := core / 64

/-- The quad of a core (R10). -/
def quadOf (core : Nat) : Nat := core / 4

/-- The current thread's partition number. -/
def State.pn (s : State) : Nat := s.cur.id.part

/-- The current thread's partition. -/
def State.cp (s : State) : Part := s.part s.pn

/-- Every thread on a core, running or waiting in its slot. -/
def State.onChip (s : State) : List Thread := if s.active then s.cur :: s.others else s.others

/-- Every thread that has started and not ended. -/
def State.started (s : State) : List Thread := s.onChip ++ s.saved.map (fun e => e.1)

/-- The launch of a thread. -/
def State.launchOf (s : State) (t : ThreadId) : Option Launch :=
  ((s.part t.part).launches.find? (fun e => e.1 == t.lid)).map (fun e => e.2)

/-- The legend of the current thread's launch: ROWS and HASHKB (R65). -/
def State.legendOf (s : State) (t : ThreadId) : Option Legend :=
  match s.launchOf t with
  | some l => l.legend
  | none => none

/-- A thread changed wherever it stands. -/
def State.onThread (s : State) (id : ThreadId) (f : Thread → Thread) : State :=
  let g := fun t => if t.id = id then f t else t
  { s with
    cur := if s.active then g s.cur else s.cur
    others := s.others.map g
    saved := s.saved.map (fun e => (g e.1, e.2.1, e.2.2)) }

/-- The thread with a given id, if it has started. -/
def State.findThread (s : State) (id : ThreadId) : Option Thread := s.started.find? (fun t => t.id == id)

/-- Run f with another thread in cur, then put the current thread back (nothing where the thread is not on a core). -/
def State.asThread (s : State) (id : ThreadId) (f : State → State) : State :=
  if s.active && s.cur.id == id then f s
  else
    match s.others.find? (fun t => t.id == id) with
    | none => s
    | some t =>
      let s1 := { s with cur := t, active := true, others := s.others.filter (fun u => u.id != id) }
      let s2 := f s1
      if s2.active && s2.cur.id == id then
        { s2 with cur := s.cur, active := s.active, others := s2.others ++ [s2.cur] }
      else { s2 with cur := s.cur, active := s.active }

/-- Whether the hardware fails at a check where the spec lets it, and the state that has made the check (log 29). -/
def State.flaw (s : State) : Bool × State := (s.flaws.headD false, { s with flaws := s.flaws.tail })

/-- The current thread as a writer of memory. -/
def State.writer (s : State) : Writer := .thread s.cur.id s.cur.place.core

/-- Does a scope of thread id on a core hold a writer (R27, R216)? A wider scope includes every narrower one. -/
def Writer.covered (w : Writer) (sc : Nat) (id : ThreadId) (core : Nat) : Bool :=
  decide (3 ≤ sc) && decide (w ≠ .outside) || decide (4 ≤ sc) ||
    match w with
    | .thread i c => decide (i = id) || (decide (1 ≤ sc) && c == core) || (decide (2 ≤ sc) && sheetOf c == sheetOf core)
    | .copier c => (decide (1 ≤ sc) && c == core) || (decide (2 ≤ sc) && sheetOf c == sheetOf core)
    | .matrix q => (decide (1 ≤ sc) && q == quadOf core) || (decide (2 ≤ sc) && q / 16 == sheetOf core)
    | .sheet n => decide (2 ≤ sc) && n == sheetOf core
    | .unit => false
    | .outside => false

/-- The number for the next free value, and the state that has used it. -/
def State.useFresh (s : State) : Nat × State := (s.fresh, { s with fresh := s.fresh + 1 })

end Sys2Proof.Machine
end

