-- ==== Sys2Proof/Machine/Translate.lean ====
section
/-!
DEFINITION. Bytes of memory, the two translations of virtual addresses (06 R185, R186; 16 R485) and the physical
target checks (17 R496). Cause codes are those of R467.
-/
namespace Sys2Proof.Machine

/-! ## Cause codes (R467) -/

def cIllegal : Nat := 0x01
def cConvoy : Nat := 0x02
def cMisaligned : Nat := 0x03
def cPageFault : Nat := 0x04
def cResidency : Nat := 0x05
def cWindow : Nat := 0x06
def cProtection : Nat := 0x07
def cOverflow : Nat := 0x08
def cScratch : Nat := 0x09
def cUnderflow : Nat := 0x0A
def cQDeadlock : Nat := 0x0B
def cMvForbidden : Nat := 0x0C
def cMvNonzero : Nat := 0x0D
def cMvVersor : Nat := 0x0E
def cStIllegal : Nat := 0x0F
def cStBad : Nat := 0x10
def cHashFull : Nat := 0x11
def cMlPool : Nat := 0x12
def cMatAttach : Nat := 0x13
def cMatLayout : Nat := 0x14
def cEngine : Nat := 0x15
def cTrap : Nat := 0x16
def cBreak : Nat := 0x17
def cNested : Nat := 0x18
def cViolation : Nat := 0x20
def cLink : Nat := 0x21
def cMachine : Nat := 0x30
def cSecurity : Nat := 0x31

/-! ## Bytes of memory -/

/-- What a byte that nothing has written reads as (log 1). -/
def Mem.unwritten : Byte := 0#8

/-- The byte at a physical address. -/
def Mem.byte (m : Mem) (pa : Nat) : Byte := Table.get m.cells Mem.unwritten pa

/-- One byte written: its older value is kept in the log, and its poison, if any, goes (R493). -/
def Mem.write (m : Mem) (who : Writer) (pa : Nat) (b : Byte) : Mem where
  cells := Table.set m.cells Mem.unwritten pa b
  log := ⟨pa, m.byte pa, who⟩ :: m.log
  logLen := m.logLen + 1
  poison := m.poison.filter (fun x => x != pa)

/-- Bytes written in order. -/
def Mem.writeAll (m : Mem) (who : Writer) (l : List (Nat × Byte)) : Mem := l.foldl (fun m e => m.write who e.1 e.2) m

/-- The canonical form of memory. -/
def Mem.wf (m : Mem) : Bool := Table.wf m.cells Mem.unwritten

/-- Writes since log position t, newest first. -/
def Mem.since (m : Mem) (t : Nat) : List OldByte := m.log.take (m.logLen - t)

/-- The byte at pa as it stood at log position t: the value before the oldest write to it since then. -/
def Mem.byteAt (m : Mem) (t pa : Nat) : Byte :=
  (m.since t).foldl (fun v e => if e.pa = pa then e.val else v) (m.byte pa)

/-- Has any of the bytes been written since position t? -/
def Mem.changed (m : Mem) (t : Nat) (pas : List Nat) : Bool := (m.since t).any (fun e => pas.contains e.pa)

/-- A log position from t to now: now where none of the bytes has been written since t, and otherwise one that the
spec leaves open (log 7). -/
def State.pickTime (s : State) (item t : Nat) (pas : List Nat) : Nat :=
  if s.mem.changed t pas then t + Config.stale s.fresh item % (s.mem.logLen - t + 1) else s.mem.logLen

/-- The bytes at pas on a non-coherent path whose reads may be as old as position t, as one access. -/
def State.readOld (s : State) (item t : Nat) (pas : List Nat) : List Byte :=
  let p := s.pickTime item t pas
  if p = s.mem.logLen then pas.map s.mem.byte else pas.map (s.mem.byteAt p)

/-- The paths whose reads are not coherent (R215). -/
inductive Path where
  | const
  | tile
  | layer
  deriving DecidableEq, Repr

/-- The number of a path in Progress.fences. -/
def Path.num (p : Path) : Nat :=
  match p with
  | .const => 0
  | .tile => 1
  | .layer => 2

/-- The fences of a thread with a PFENCE of a scope, executed on a core, that names a path at log position now (R218). -/
def fenced (fences : Table Nat) (p : Path) (core sc now : Nat) : Table Nat :=
  Table.set fences 0 (32 * core + 8 * p.num + sc) now

/-- The position just after the newest write to one of the bytes that reads of a path must see: one whose writer a later
PFENCE covers, on whatever core it was executed (R216). l holds the newest n writes, newest first. -/
def mustSee (fences : Table Nat) (p : Path) (id : ThreadId) (pas : List Nat) : List OldByte → Nat → Nat
  | [], _ => 0
  | e :: r, n =>
    if pas.contains e.pa && fences.any (fun f =>
        decide (f.1 / 8 % 4 = p.num) && e.who.covered (f.1 % 8) id (f.1 / 32) && decide (n ≤ f.2)) then n
    else mustSee fences p id pas r (n - 1)

/-- The bytes at pas, read on a path by thread id under its fences (R78, R215, R216). -/
def State.readPath (s : State) (p : Path) (fences : Table Nat) (id : ThreadId) (item : Nat) (pas : List Nat) : List Byte :=
  s.readOld item (mustSee fences p id pas s.mem.log s.mem.logLen) pas

/-- The n bytes from pa. -/
def Mem.bytes (m : Mem) (pa n : Nat) : List Byte := (rangeFrom pa n).map m.byte

/-- Is any of the bytes poisoned (R493)? -/
def State.poisoned (s : State) (pas : List Nat) : Bool := s.mem.poison.any (fun p => pas.contains p)

/-! ## Targets (R496) -/

/-- PA[51:50]. -/
def targetOf (pa : Nat) : Nat := bitsAt pa 50 2

/-- Does the byte's physical address, of 52 bits, lie in what partition p owns (R30, R496)? -/
def Part.owns (p : Part) (pa : Nat) : Bool :=
  decide (pa < 2 ^ 52) &&
    match targetOf pa with
    | 0 => p.ranges.any (fun r => decide (r.1 ≤ pa) && decide (pa < r.1 + r.2))
    | 1 => true
    | 2 => p.peers.any (fun r => decide (r.1 = bitsAt pa 40 10) && decide (r.2 = bitsAt pa 36 4))
    | _ => false

/-- The key of a byte in memory: host memory is one address space for each PASID (R496, R497; log 8). -/
def Part.tagged (p : Part) (pa : Nat) : Nat := if targetOf pa = 1 then pa + 2 ^ 52 * (p.pasid + 1) else pa

/-- The cause that the physical target gives, if any: a reserved target raises MACHINE_CHECK, and memory outside the
partition, such as what lies past the 52 bits of an address, PARTITION_VIOLATION. -/
def Part.targetCause (p : Part) (pa : Nat) : Option Nat :=
  if targetOf pa = 3 && decide (pa < 2 ^ 52) then some cMachine
  else if p.owns pa then none
  else some cViolation

/-- Is the byte on a peer module that no trained port reaches (R504)? -/
def State.cutOff (s : State) (pa : Nat) : Bool :=
  decide (targetOf pa = 2) && !s.hub.ports.any (fun e => e.2.trained && Config.reaches e.1 (bitsAt pa 40 10))

/-! ## The vector window (R184, R185, R186) -/

/-- How an access uses memory: read, write, both, or instruction fetch. -/
inductive Acc where
  | read
  | write
  | atomic
  | fetch
  deriving DecidableEq, Repr

/-- Does the address lie in the partition's vector window, as in force (R184, R470)? -/
def Part.inWindow (p : Part) (va : Nat) : Bool :=
  decide (p.regs.vwbaseF.toNat ≤ va) && decide (va < p.regs.vwbaseF.toNat + p.regs2.gzcount * 2 ^ 28)

/-- The gazetteer entry number of an address in the window. -/
def Part.gzIndex (p : Part) (va : Nat) : Nat := p.regs2.gzfirst + (va - p.regs.vwbaseF.toNat) / 2 ^ 28

/-- The replica entry k. -/
def State.gzEntry (s : State) (k : Nat) : GzEntry := Table.get s.gz GzEntry.zero k

/-- Does the entry let the access pass? Reads and fetches need PERM[0], writes PERM[1], atomics both (R186, R89). -/
def GzEntry.allows (e : GzEntry) (k : Acc) : Bool :=
  match k with
  | .read => bitAt e.perm.toNat 0
  | .fetch => bitAt e.perm.toNat 0
  | .write => bitAt e.perm.toNat 1
  | .atomic => bitAt e.perm.toNat 0 && bitAt e.perm.toNat 1

/-- Why one byte of a window access fails, if it does, in the order of R186 from check 2. -/
def State.winCause (s : State) (p : Part) (k : Acc) (va : Nat) : Option Nat :=
  if 2 ^ 52 ≤ va then some cWindow
  else if !p.inWindow va then some cWindow
  else
    let e := s.gzEntry (p.gzIndex va)
    if !bitAt e.perm.toNat 2 then some cWindow
    else if !e.allows k then some cProtection
    else if !bitAt e.resid.toNat (bitsAt va 21 7) then some cResidency
    else none

/-- The physical address of a window byte (R185). -/
def State.winPa (s : State) (p : Part) (va : Nat) : Nat :=
  let e := s.gzEntry (p.gzIndex va)
  (if bitAt e.tier.toNat (bitsAt va 21 7) then e.t1base else e.t0base) + bitsAt va 0 28

/-- The addresses of n bytes from ea, modulo 2^64 (R194). -/
def byteAddrs (ea : Word) (n : Nat) : List Nat := (List.range n).map (fun i => (ea + w64 i).toNat)

/-- The first of the causes, in the order WINDOW, PROTECTION, RESIDENCY (R186), MACHINE_CHECK, PARTITION_VIOLATION. -/
def firstCause (l : List Nat) : Option Nat :=
  [cWindow, cProtection, cResidency, cMachine, cViolation].find? (fun c => l.contains c)

/-- An element of a vector access (R186): its n bytes from ea, aligned to al. Its cause, or the bytes' places. That a target which
R496 refuses comes after RESIDENCY, as a fault of the element, is the model's reading (log 18). -/
def State.element (s : State) (p : Part) (k : Acc) (al : Nat) (ea : Word) (n : Nat) : Except Nat (List Nat) :=
  if ea.toNat % al ≠ 0 then .error cMisaligned
  else
    let vas := byteAddrs ea n
    match firstCause (vas.filterMap (s.winCause p k)) with
    | some c => .error c
    | none =>
      let pas := vas.map (s.winPa p)
      match firstCause (pas.filterMap p.targetCause) with
      | some c => .error c
      | none => .ok (pas.map p.tagged)

/-! ## Scalar tables (R485) -/

/-- A table entry's fields, as the eight bytes hold it. -/
def pteBit (e k : Nat) : Bool := bitAt e k

/-- The permissions a walk has gathered. -/
structure Perms where
  r : Bool
  w : Bool
  x : Bool
  u : Bool
  deriving DecidableEq, Repr

/-- What a walk of the tables finds: the page's base, its size, the permissions, or a failure with its cause; with the
places of the entries' bytes that it reads. -/
structure Walk where
  result : Except Nat (Nat × Nat × Perms)
  touched : List Nat

/-- A walk from a table at level l + 1 levels left (R485). rd reads a physical byte. -/
def walkFrom (p : Part) (rd : Nat → Byte) (va : Nat) : Nat → Nat → Perms → List Nat → Walk
  | 0, _, _, seen => ⟨.error cPageFault, seen⟩
  | l + 1, table, pm, seen =>
    let idx := if l = 3 then bitsAt va 39 13 else bitsAt va (12 + 9 * l) 9
    let pa := table + 8 * idx
    let seen := seen ++ (rangeFrom pa 8).map p.tagged
    match p.targetCause pa with
    | some c => ⟨.error c, seen⟩
    | none =>
      let e := ofBytes ((rangeFrom pa 8).map (fun a => rd (p.tagged a)))
      let base := bitsAt e 12 40 * 4096
      let pm := Perms.mk (pm.r && pteBit e 1) (pm.w && pteBit e 2) (pm.x && pteBit e 3) (pm.u && pteBit e 5)
      if !pteBit e 0 then ⟨.error cPageFault, seen⟩
      else if bitsAt e 52 12 ≠ 0 || bitsAt e 7 5 ≠ 0 then ⟨.error cPageFault, seen⟩
      else if pteBit e 6 && l ≠ 0 then ⟨.error cPageFault, seen⟩
      else if pteBit e 4 then
        if l = 3 then ⟨.error cPageFault, seen⟩
        else
          let size := if l = 0 then (if pteBit e 6 then 65536 else 4096) else 4096 * 512 ^ l
          if base % size ≠ 0 then ⟨.error cPageFault, seen⟩ else ⟨.ok (base, size, pm), seen⟩
      else if l = 0 then ⟨.error cPageFault, seen⟩
      else walkFrom p rd va l base pm seen

/-- The walk of the four levels from the root in force (R485). -/
def Part.walk (p : Part) (rd : Nat → Byte) (va : Nat) : Walk :=
  walkFrom p rd va 4 p.regs.ptrootF.toNat ⟨true, true, true, true⟩ []

/-- The position of the newest PTINV that removed translations of the page of size n around va (R482). -/
def Part.ptinvPos (p : Part) (va n : Nat) : Nat :=
  p.ptinv.foldl (fun a e =>
    let lo := e.1
    let pages := e.2.1
    let page := va / n * n
    if pages = 0 || (decide (lo < page + n) && decide (page < lo + 4096 * pages)) then max a e.2.2 else a) 0

/-- The walk that an access uses: through the tables as they stand, or a translation that a TLB has held since a walk
that succeeded after the last PTINV of its page, which reads none of them (R189, R482; log 7). -/
def State.walkOf (s : State) (p : Part) (va : Nat) : Walk :=
  let now := p.walk s.mem.byte va
  let t := s.pickTime va (p.ptinvPos va 4096) now.touched
  if t = s.mem.logLen then now
  else
    let held := p.walk (s.mem.byteAt t) va
    match held.result with
    | .ok (_, n, _) => if p.ptinvPos va n ≤ t then { held with touched := [] } else now
    | .error _ => now

/-- Do the permissions let the access pass (R485)? -/
def Perms.allow (pm : Perms) (k : Acc) (needU : Bool) : Bool :=
  (!needU || pm.u) &&
    match k with
    | .read => pm.r
    | .write => pm.w
    | .atomic => pm.r && pm.w
    | .fetch => pm.x

/-- A scalar access of n bytes at ea by partition p (R76), aligned to al, with or without the U requirement: its
cause or its bytes' places. -/
def State.scalar (s : State) (p : Part) (needU : Bool) (k : Acc) (al : Nat) (ea : Word) (n : Nat) :
    Except Nat (List Nat) :=
  if ea.toNat % al ≠ 0 then .error cMisaligned
  else if 2 ^ 52 ≤ ea.toNat then .error cPageFault
  else if p.inWindow ea.toNat then s.element p k 1 ea n
  else
    match (s.walkOf p ea.toNat).result with
    | .error c => .error c
    | .ok (base, size, pm) =>
      if !pm.allow k needU then .error cProtection
      else
        let pas := rangeFrom (base + ea.toNat % size) n
        match firstCause (pas.filterMap p.targetCause) with
        | some c => .error c
        | none => .ok (pas.map p.tagged)

/-- The bytes of table entries that a scalar access at ea reads (R485): none where the window translates it. -/
def State.walkBytes (s : State) (p : Part) (ea : Word) : List Nat :=
  if 2 ^ 52 ≤ ea.toNat ∨ p.inWindow ea.toNat then [] else (s.walkOf p ea.toNat).touched

/-- The places of n bytes from ea, in scalar accesses of al bytes each (R420, R299); a failure gives its cause and the
address of the access that failed. -/
def State.scalarRange (s : State) (p : Part) (needU : Bool) (k : Acc) (al : Nat) :
    Nat → Word → Except (Nat × Word) (List Nat)
  | 0, _ => .ok []
  | n + 1, ea =>
    match s.scalar p needU k al ea al with
    | .error c => .error (c, ea)
    | .ok pas =>
      match s.scalarRange p needU k al n (ea + w64 al) with
      | .error e => .error e
      | .ok rest => .ok (pas ++ rest)

/-- The places of n accesses of al bytes each that the device makes for a partition: as of a thread's access, and LINK_ERROR
where the bytes or the entries of a walk lie on a peer that no port reaches, its interval being no part of the model (R260,
R504; log 31). -/
def State.deviceRange (s : State) (p : Part) (needU : Bool) (k : Acc) (al n : Nat) (ea : Word) :
    Except (Nat × Word) (List Nat) :=
  match (List.range n).find? (fun i => (s.walkBytes p (ea + w64 (al * i))).any s.cutOff) with
  | some i => .error (cLink, ea + w64 (al * i))
  | none =>
    match s.scalarRange p needU k al n ea with
    | .error e => .error e
    | .ok pas => if pas.any s.cutOff then .error (cLink, ea) else .ok pas

end Sys2Proof.Machine
end

