-- ==== Sys2Proof/Machine/Ops.lean ====
section
/-!
DEFINITION. The operations the meanings share: error records and notices, taking a trap and returning from one,
completing a word, and a thread's own accesses to memory.
-/
namespace Sys2Proof.Machine

/-- The outcome of a step. -/
abbrev Out := Host.Outcome State Fault Refusal

/-! ## Hub records (R479, R490) -/

/-- The 32 bytes of an error record. -/
def errorRecord (s : State) (addr : Word) (part unit : Nat) (synd : BitVec 32) (cls cause : Nat) (lost : Bool) :
    List Byte :=
  bytesOf 8 s.cycle.toNat ++ bytesOf 8 addr.toNat ++ bytesOf 2 part ++ bytesOf 2 unit ++ bytesOf 4 synd.toNat ++
    bytesOf 1 (cls + 128 * b2n lost) ++ bytesOf 1 cause ++ bytesOf 6 0

/-- A record of the PF log (R499): written to host memory, which the PF reaches without a PASID, or only counted where the
log is disabled. -/
def State.logPf (s : State) (addr : Word) (part unit : Nat) (synd : BitVec 32) (cls cause : Nat) : State :=
  let pf := s.hub.pf
  let cap := pf.logCap.toNat
  if cap = 0 then { s with hub := { s.hub with pf := { pf with logCount := pf.logCount + 1 } } }
  else
    let next := (pf.logTail.toNat + 1) % cap
    let full := decide (next = pf.logHead.toNat)
    let bytes := errorRecord s addr part unit synd cls cause full
    let pa := 2 ^ 50 + bitsAt (pf.logBase.toNat + 32 * pf.logTail.toNat) 0 50
    let head := if full then (pf.logHead.toNat + 1) % cap else pf.logHead.toNat
    { s with
      mem := s.mem.writeAll .unit ((rangeFrom pa 32).zip bytes)
      hub := { s.hub with pf := { pf with logHead := BitVec.ofNat 32 head, logTail := BitVec.ofNat 32 next } } }

/-- A record of a partition's error log (R490), or of the PF log where the partition has no log ring or its write fails; a write
that violates the partition's bounds has a record of its own beside it, with class 5 (R30, R494). -/
def State.logError (s : State) (part : Nat) (addr : Word) (unit : Nat) (synd : BitVec 32) (cls cause : Nat) : State :=
  let p := s.part part
  let r := p.regs2
  let cap := r.logcap.toNat
  if cap = 0 then s.logPf addr part unit synd cls cause
  else
    let next := (r.logtail.toNat + 1) % cap
    let full := decide (next = r.loghead.toNat)
    let bytes := errorRecord s addr part unit synd cls cause full
    let place := r.logbase + w64 (32 * r.logtail.toNat)
    match s.deviceRange p false .write 32 1 place with
    | .error (c, _) =>
      let s1 := s.logPf addr part unit synd cls cause
      if c = cViolation then s1.logPf place part 0x2000 (Config.syndrome s.fresh) 5 cViolation else s1
    | .ok pas =>
      let head := if full then w64 ((r.loghead.toNat + 1) % cap) else r.loghead
      { s with mem := s.mem.writeAll .unit (pas.zip bytes) }.setPart part
        { p with regs2 := { r with loghead := head, logtail := w64 next } }

/-- A syndrome, which the spec leaves open (log 10). -/
def State.synd (s : State) : BitVec 32 := Config.syndrome s.fresh

/-- A hub action that violates the partition's bounds is logged with class 5 (R30, R494). -/
def State.logViolation (s : State) (pn cause : Nat) (addr : Word) : State :=
  if cause = cViolation then s.logError pn addr 0x2000 s.synd 5 cViolation else s

/-- What the module sends out. -/
def State.emit (s : State) (o : Output) : State := { s with outbox := s.outbox ++ [o] }

/-- An event of the unit that happens next. -/
def State.push (s : State) (i : Instr) : State := { s with inputs := s.inputs ++ [i] }

/-- An event that time brings. -/
def State.timer (s : State) (i : Instr) : State := { s with timers := s.timers ++ [i] }

/-- A partition whose records wait for a slot looks for one again (R432). -/
def State.redispatch (s : State) (pn : Nat) : State :=
  if ((s.part pn).records.isEmpty && s.saved.all (fun e => e.1.id.part != pn)) ||
    s.inputs.contains (Instr.threadDispatch pn) then s
  else s.push (.threadDispatch pn)

/-- A residency notice of the sub-block that holds va, from the current thread (R367, R479). A full ring or no ring
drops it; a failed write logs it with class 6, and a violation also with class 5 (R494). -/
def State.notice (s : State) (va : Word) : State :=
  let p := s.cp
  let r := p.regs
  let cap := r.nqcap.toNat
  if cap ≤ 1 then s
  else
    let next := (r.nqtail.toNat + 1) % cap
    if next = r.nqhead.toNat then s
    else
      let sub := va.toNat / 2 ^ 21 * 2 ^ 21
      let entry := r.nqbase + w64 (16 * r.nqtail.toNat)
      match s.deviceRange p false .write 16 1 entry with
      | .error (c, _) => (s.logViolation s.pn c entry).logError s.pn entry 0x2000 s.synd 6 c
      | .ok pas =>
        let bytes := bytesOf 8 sub ++ bytesOf 4 s.cur.place.core ++ bytesOf 2 s.cur.place.slot ++ bytesOf 2 0
        let s1 := { s with mem := s.mem.writeAll .unit (pas.zip bytes) }.setPart s.pn
          { p with regs := { r with nqtail := w64 next } }
        let mark := fun (t : Thread) =>
          if t.id.part = s.pn && t.ring ≠ 0#2 then
            { t with prog := { t.prog with events := t.prog.events ||| 4#4 } } else t
        { s1 with cur := mark s1.cur, others := s1.others.map mark
                  saved := s1.saved.map (fun e => (mark e.1, e.2)) }

/-! ## Lines that engines own -/

/-- The sheet that is home to a byte's sub-block (R20; log 8). -/
def homeOf (pa : Nat) : Nat := (Config.homeSheet (pa / 2 ^ 21)).val

/-- The runs of destination bytes of a command, as (first byte, length). -/
def CmdBody.dests (b : CmdBody) : List (Nat × Nat) :=
  match b with
  | .copy runs => runs.map (fun r => (r.1, r.2.2))
  | .fill runs _ => runs.map (fun r => (r.1, r.2.1))
  | .wbld _ _ _ _ _ => []
  | .acstm _ _ runs => runs.map (fun r => (r.1, r.2.2))
  | .acldm _ _ _ => []

/-- Does an engine own the line of the byte (R23, R373)? -/
def State.owned (s : State) (pa : Nat) : Bool :=
  s.cmds.any (fun c => c.body.dests.any (fun r =>
    decide (0 < r.2) && decide (r.1 / 64 ≤ pa / 64) && decide (pa / 64 ≤ (r.1 + r.2 - 1) / 64)))

/-! ## Traps -/

/-- The ring that a cause routes to (R467). -/
def routeOf (c : Nat) : Nat :=
  if [0x03, 0x08, 0x09, 0x0A, 0x0B, 0x0C, 0x0D, 0x0E, 0x0F, 0x10, 0x11, 0x13, 0x14].contains c then 0
  else if c = cViolation || c = cMachine then 2
  else if c = cSecurity then 3
  else 1

/-- The registers of ring r, 1 to 3. -/
def RingSet.get (x : RingSet) (r : Nat) : RingRegs := if r = 1 then x.d else if r = 2 then x.h else x.m

/-- The ring set with the registers of ring r replaced. -/
def RingSet.put (x : RingSet) (r : Nat) (v : RingRegs) : RingSet :=
  if r = 1 then { x with d := v } else if r = 2 then { x with h := v } else { x with m := v }

/-- ustatus.IH (R104). -/
def UserRegs.ih (u : UserRegs) : Bool := bitAt u.ustatus.toNat 0
/-- ustatus.LS. -/
def UserRegs.ls (u : UserRegs) : Bool := bitAt u.ustatus.toNat 1
/-- ustatus.PLS. -/
def UserRegs.pls (u : UserRegs) : Bool := bitAt u.ustatus.toNat 2
/-- ustatus.URI. -/
def UserRegs.uri (u : UserRegs) : Bool := bitAt u.ustatus.toNat 3

/-- A ustatus word from its fields (R104). -/
def mkUstatus (ih ls pls uri : Bool) : Word := w64 (b2n ih + 2 * b2n ls + 4 * b2n pls + 8 * b2n uri)

/-- The ucause layout (R105), with kcause's ORIG and ORING (R472). -/
def mkCause (cause queue : Nat) (eside : Bool) (orig oring synd : Nat) : Word :=
  w64 (cause + 256 * queue + 2048 * b2n eside + 4096 * orig + 2 ^ 20 * oring + 2 ^ 24 * synd)

/-- The 1,024 bytes of a trap record (R475). -/
def trapRecord (s : State) (x : Trap) (epc cause : Word) (pr : Nat) : List Byte :=
  let t := s.cur
  let fm := if x.elems then t.conf.fmask.toNat else 0
  let vf := if x.elems then bitsAt t.user.vfirst.toNat 0 16 else 0
  let flags := b2n x.reissue + 2 * b2n x.eside + 4 * pr + 256 * x.batch.length + 65536 * vf
  let addr := if x.synd ≠ 0 then w64 x.synd else x.addr
  let word := fun (w : Word) => bytesOf 8 w.toNat
  let dx := if x.sweep then [t.dims.dx0, t.dims.dx1, t.dims.dx2] else [0#64, 0#64, 0#64]
  let lp := t.loops
  word epc ++ word cause ++ word addr ++ bytesOf 8 flags ++
    (List.range 16).flatMap (fun i => bytesOf 8 (x.batch.getD i 0)) ++
    (List.range 8).flatMap (fun i => bytesOf 2 (if x.sweep then Table.get t.conf.counters 0 i else 0)) ++
    dx.flatMap word ++ [lp.lc0, lp.lb0, lp.le0, lp.lc1, lp.lb1, lp.le1].flatMap word ++
    (List.range 8).flatMap (fun i => bytesOf 1 (t.queue i).length) ++
    bytesOf 512 fm ++ List.replicate 256 0#8

/-- A partition that halts (R474, R491): a FATAL-PARTITION record and a non-fatal AER message. -/
def State.haltPart (s : State) (pn : Nat) (addr : Word) (unit cause : Nat) : State :=
  let s1 := s.setPart pn { s.part pn with state := .halted }
  (s1.logError pn addr unit s.synd 3 cause).emit .aerNonFatal

/-- Entry to ring r with its registers written (R474, last lines). -/
def State.enterRing (s : State) (x : Trap) (r : Nat) (epc cause : Word) : State :=
  let c := s.cur.ring.toNat
  let k := s.cur.rings.get r
  let status := w64 (c + 4 * b2n x.reissue + 16 * b2n s.cur.user.ls)
  { s with cur := { s.cur with
      pc := k.handler
      ring := BitVec.ofNat 2 r
      rings := s.cur.rings.put r { k with status := status, epc := epc, cause := cause }
      prog := { s.cur.prog with reissue := false, wait := .none } } }

/-- Delivery from ring r upward (R474), with the rings left to try: cause code x0, or NESTED with the original cause
and its ring. -/
def State.deliver (s : State) (x : Trap) (epc : Word) : Nat → Nat → Bool → Nat → State
  | 0, _, _, orig => s.haltPart s.pn x.addr s.cur.place.core orig
  | n + 1, r, nested, orig =>
    if 4 ≤ r then s.haltPart s.pn x.addr s.cur.place.core orig
    else
      let k := s.cur.rings.get r
      if k.handler = 0#64 then s.deliver x epc n (r + 1) true orig
      else
        let cause := if nested then mkCause cNested x.queue x.eside orig (routeOf orig) x.synd
          else mkCause orig x.queue x.eside 0 0 x.synd
        if k.record = 0#64 then s.enterRing x r epc cause
        else
          match s.deviceRange s.cp false .write 64 16 k.record with
          | .error (c, a) => (s.logViolation s.pn c a).deliver x epc n (r + 1) true orig
          | .ok pas =>
            let bytes := trapRecord s x epc cause s.cur.ring.toNat
            { s with mem := s.mem.writeAll s.writer (pas.zip bytes) }.enterRing x r epc cause

/-- The bytes that delivery from ring r upward reads and writes for its trap record: the table entries of its walk, and the
record (R474). -/
def State.trapBytes (s : State) : Nat → Nat → List Nat
  | 0, _ => []
  | n + 1, r =>
    let k := s.cur.rings.get r
    if 4 ≤ r then []
    else if k.handler = 0#64 then s.trapBytes n (r + 1)
    else if k.record = 0#64 then []
    else
      (List.range 16).flatMap (fun i => s.walkBytes s.cp (k.record + w64 (64 * i))) ++
        match s.deviceRange s.cp false .write 64 16 k.record with
        | .error _ => s.trapBytes n (r + 1)
        | .ok pas => pas

/-- Entry to the user handler (R107). -/
def State.enterUser (s : State) (x : Trap) (epc : Word) : State :=
  let u := s.cur.user
  { s with cur := { s.cur with
      pc := u.uhandler
      user := { u with
        uepc := epc
        ucause := mkCause x.cause x.queue x.eside 0 0 x.synd
        ustatus := mkUstatus true true u.ls x.reissue }
      prog := { s.cur.prog with reissue := false, wait := .none } } }

/-- The log records that a cause brings with it: a violation is logged with class 5 (R494), a machine check with class
2 and a non-fatal AER message (R491). -/
def State.logCause (s : State) (x : Trap) : State :=
  if x.logged then s
  else if x.cause = cViolation then s.logError s.pn x.addr s.cur.place.core s.synd 5 cViolation
  else if x.cause = cMachine then (s.logError s.pn x.addr s.cur.place.core (x.logSynd.getD s.synd) 2 cMachine).emit .aerNonFatal
  else s

/-- Is a cause contained, not precise (R467)? -/
def contained (c : Nat) : Bool := decide (c = cMachine) || decide (c = cSecurity)

/-- The PC that a trap saves: the trapping word's or its convoy's first (R474), and for a contained one that of the last
word that completed (R467; log 15). -/
def Trap.savedPc (x : Trap) (t : Thread) : Word :=
  let pc := x.epc.getD t.pc
  if contained x.cause then t.prog.last.getD pc else pc

/-- Delivery of a trap in the current thread: R107 for a user-routable cause at ring 0, else R474. -/
def deliverTrap (s : State) (x : Trap) : State :=
  let epc := x.savedPc s.cur
  let s := { s.logCause x with cur := { s.cur with framing := none } }
  let c := s.cur.ring.toNat
  let r := routeOf x.cause
  if r = 0 && c = 0 then
    if s.cur.user.ih then s.deliver x epc 4 1 true x.cause
    else if s.cur.user.uhandler ≠ 0#64 then s.enterUser x epc
    else s.deliver x epc 4 1 false x.cause
  else if r ≤ c then s.deliver x epc 4 (c + 1) true x.cause
  else s.deliver x epc 4 r false x.cause

/-- Does an engine own a line of the record that a trap of the current thread would write, or of its walk (R23, R474)? -/
def State.recordHeld (s : State) (x : Trap) : Bool :=
  let c := s.cur.ring.toNat
  let r := routeOf x.cause
  let toUser := r = 0 && c = 0 && !s.cur.user.ih && decide (s.cur.user.uhandler ≠ 0#64)
  !toUser && (s.trapBytes 4 (if r = 0 && c = 0 then 1 else if r ≤ c then c + 1 else r)).any s.owned

/-- Taking a trap in the current thread: it is delivered, or where an engine owns a line of its record it waits for that (R23;
log 31). -/
def takeTrap (s : State) (x : Trap) : State :=
  if s.recordHeld x then s.onCur (fun t => { t with framing := none, prog := { t.prog with wait := .retry (.trap x) } })
  else deliverTrap s x

/-- A MACHINE_CHECK that comes to a thread from outside its words: its record is logged at once, and the trap is taken at
the thread's next turn, once its earlier convoys have retired (R455, R468, R491). -/
def State.asyncTrap (s : State) (id : ThreadId) (addr : Word) (unit : Nat) (synd : BitVec 32) : State :=
  let s1 := (s.logError id.part addr unit synd 2 cMachine).emit .aerNonFatal
  s1.onThread id (fun t => { t with prog := { t.prog with check := some (t.prog.check.getD addr) } })

/-! ## Completing a word -/

/-- Why an A-side word does not complete: a trap with no effect, a trap after a partial effect, a wait, or a wait that
has left its mark in the state. -/
inductive Stop where
  | trap (x : Trap)
  | after (x : Trap) (s : State)
  | wait (w : WaitOn)
  | waitIn (w : WaitOn) (s : State)

/-- The trap of a bare cause. -/
def trapOf (c : Nat) : Stop := .trap { cause := c }

/-- Do the hardware loops act? Only at ring 0 with ustatus.LS = 0 (R93, R94, R473). -/
def Thread.loopsOn (t : Thread) : Bool := decide (t.ring = 0#2) && !t.user.ls

/-- The loop-end test of R93 for the word at x: the next PC and the loop registers. -/
def loopEnd (l : Loops) (x : Word) : Word × Loops :=
  let zero := fun (l : Loops) =>
    if l.lc0 ≠ 0#64 && l.le0 = x then
      if 1#64 < l.lc0 then (l.lb0, { l with lc0 := l.lc0 - 1#64 }) else (x + 4#64, { l with lc0 := 0#64 })
    else (x + 4#64, l)
  if l.lc1 ≠ 0#64 && l.le1 = x then
    if 1#64 < l.lc1 then (l.lb1, { l with lc1 := l.lc1 - 1#64 }) else zero { l with lc1 := 0#64 }
  else zero l

/-- The deactivation of R94 by a transfer to target. -/
def loopLeave (l : Loops) (target : Word) : Loops :=
  let out := fun (lc lb le : Word) => lc ≠ 0#64 && !(decide (lb ≤ target) && decide (target ≤ le))
  { l with
    lc0 := if out l.lc0 l.lb0 l.le0 then 0#64 else l.lc0
    lc1 := if out l.lc1 l.lb1 l.le1 then 0#64 else l.lc1 }

/-- Does the word at pc end an active hardware loop (R44, R90, R96)? -/
def Thread.atLoopEnd (t : Thread) : Bool :=
  (decide (t.loops.lc0 ≠ 0#64) && decide (t.loops.le0 = t.pc)) ||
    (decide (t.loops.lc1 ≠ 0#64) && decide (t.loops.le1 = t.pc))

/-- The level of trap that a thread runs at: its ring, and at ring 0 whether it is in its user handler. -/
def Thread.level (t : Thread) : Nat := t.ring.toNat + 4 * b2n (t.user.ih)

/-- The request tag of a peer access ends with its word (R260). -/
def Thread.settleTag (t : Thread) : Thread :=
  match Table.get t.prog.resend none t.level with
  | some e => if e.1 = t.pc then { t with prog := { t.prog with resend := Table.set t.prog.resend none t.level none } } else t
  | none => t

/-- The thread's next PC and loops after its word completes without transferring control (R93). A loop start or end that SRW,
SRS or SRC set off the multiple of 4 that R32 gives a PC, which no rule checks, is taken as it stands, and the fetch there
raises MISALIGNED (DESIGN CHOICE, log 12). -/
def Thread.advance (u : Thread) : Thread :=
  let t := u.settleTag
  if t.loopsOn then
    let e := loopEnd t.loops t.pc
    { t with pc := e.1, loops := e.2 }
  else { t with pc := t.pc + 4#64 }

/-- The word at pc retired: no wait, no reissue pending. -/
def Thread.retired (t : Thread) (pc : Word) : Thread :=
  { t with prog := { t.prog with
      instret := t.prog.instret + 1#64, last := some pc, reissue := false, wait := .none } }

/-- A word completes without transferring control. -/
def complete (s : State) : State := s.onCur (fun t => t.advance.retired t.pc)

/-- A word completes by a transfer of control to target that R94 governs. -/
def completeJump (target : Word) (s : State) : State :=
  s.onCur (fun t =>
    let t1 := if t.loopsOn then { t with loops := loopLeave t.loops target } else t
    { t1 with pc := target }.retired t.pc)

/-- A word completes with the next PC given, no loop touched (TRET, URET, LOOP with count 0). -/
def completeAt (target : Word) (s : State) : State := s.onCur (fun t => { t with pc := target }.retired t.pc)

/-- The current thread waits: its word executes again at its next turn. -/
def State.waits (s : State) (w : WaitOn) : State := s.onProg (fun p => { p with wait := .retry w })

/-- A trap that is taken from s' once every earlier convoy has retired; until then the word waits (R468), a QPOP as one
of its empty queue (R102). -/
def trapWhen (x : Trap) (s' s : State) : Out :=
  if s.cur.viq.isEmpty then .next (takeTrap s' x)
  else .next (s.waits (if x.cause = cUnderflow then .qpop x.queue else .other))

/-- The outcome of an A-side word whose completion is done. -/
def finishWith (fin : State → State) (s : State) (r : Except Stop State) : Out :=
  match r with
  | .ok s' => .next (fin s')
  | .error (.trap x) => trapWhen x s s
  | .error (.after x s') => trapWhen x s' s
  | .error (.wait w) => .next (s.waits w)
  | .error (.waitIn w s') => .next (s'.waits w)

/-- May the members of a convoy still trap before they issue (R469)? -/
def mayTrap (i : Instr) : Bool :=
  let tz := fun (p : BitVec 2) => p = 0#2 || p = 3#2
  match i with
  | .mgp _ _ _ _ _ p => tz p
  | .mwdg _ _ _ _ _ p => tz p
  | .mdot _ _ _ _ _ p => tz p
  | .mlct _ _ _ _ _ p => tz p
  | .mjoin _ _ _ _ _ p => tz p
  | .msand _ _ _ _ _ _ => true
  | .mcomm _ _ _ _ _ _ => true
  | .mrev _ _ _ _ p => tz p
  | .mdual _ _ _ _ p => tz p
  | .mgrd _ _ _ _ _ p => tz p
  | .mnrm2 _ _ _ _ p => tz p
  | .mnrmi _ _ _ _ p => tz p
  | .mnormz _ _ _ _ p => tz p
  | .mexpb _ _ _ _ _ => true
  | .mlogm _ _ _ _ _ => true
  | .mmov _ _ _ _ p => tz p
  | .mfromv _ _ _ _ _ p => tz p
  | .madd _ _ _ _ _ p => tz p
  | .msub _ _ _ _ _ p => tz p
  | .mscal _ _ _ _ _ p => tz p
  | .mconj _ _ _ _ p => tz p
  | .minvol _ _ _ _ p => tz p
  | .mxac _ _ _ _ _ _ _ => true
  | .mxacs _ _ _ _ _ _ _ => true
  | _ => false

/-- The stream fields of an entry that is an access. -/
def VEntry.holds (e : VEntry) : Option Held :=
  match e with
  | .access h _ _ _ => some h
  | .tile h _ _ _ => some h
  | .vamo h _ _ _ => some h
  | .scalar h _ _ => some h
  | _ => none

/-- What an access to a peer takes back should it fail. -/
def VEntry.undo (e : VEntry) : Option Undo := e.holds.bind (fun h => h.undo)

/-- Does a convoy that can still trap stand in the VIQ (R469), or an access to a peer, whose LINK_ERROR is as precise (R467;
log 31)? -/
def Thread.trapPending (t : Thread) : Bool :=
  t.viq.any (fun e =>
    match e with
    | .convoy c => (c.members.drop c.done).any (fun m => mayTrap m.instr)
    | e => e.undo.isSome)

/-- An A-side word (R14): a convoy still being framed ends without it and raises CONVOY_ILLEGAL (R44); a word that may
not run ahead waits, as w says, for a convoy that can still trap (R469); otherwise body decides. free marks the words
that compute into registers only. -/
def asideAs (w : WaitOn) (free : Bool) (fin : State → State) (body : State → Except Stop State) (s : State) : Out :=
  match s.cur.framing with
  | some c => trapWhen { cause := cConvoy, eside := true, epc := some c.pc } s s
  | none =>
    if !free && s.cur.trapPending then .next (s.waits w)
    else finishWith fin s (body s)

/-- An A-side word whose wait for such a convoy has no name of its own. -/
def aside (free : Bool) (fin : State → State) (body : State → Except Stop State) (s : State) : Out :=
  asideAs .other free fin body s

/-- An A-side word that computes into registers and never stops. -/
def asideReg (f : State → State) (s : State) : Out := aside true complete (fun s => .ok (f s)) s

/-- A check that raises a cause with no address. -/
def check (ok : Bool) (c : Nat) : Except Stop Unit := if ok then .ok () else .error (trapOf c)

/-- A check whose failure raises ILLEGAL. -/
def legal (ok : Bool) : Except Stop Unit := check ok cIllegal

/-! ## A thread's own accesses -/

/-- Does an engine own the line of the byte by a command issued before an access that was dispatched at stamp? The access came
first to the line of a later one (R249, R374). -/
def State.ownedAt (s : State) (stamp pa : Nat) : Bool :=
  s.cmds.any (fun c => decide (c.id < 64 * stamp) && c.body.dests.any (fun r =>
    decide (0 < r.2) && decide (r.1 / 64 ≤ pa / 64) && decide (pa / 64 ≤ (r.1 + r.2 - 1) / 64)))

/-- Does a scalar access read memory? -/
def ScalarOp.reads (op : ScalarOp) : Bool :=
  match op with
  | .store _ _ => false
  | _ => true

/-- Is an entry an access on the general path (R215)? -/
def VEntry.general (e : VEntry) : Bool :=
  match e with
  | .access _ _ _ _ => true
  | .vamo _ _ _ _ => true
  | .scalar _ _ (.ldk _) => false
  | .scalar _ _ _ => true
  | _ => false

/-- The bytes of an entry that is an access, and whether it reads them. -/
def VEntry.bytes (e : VEntry) : Bool × List Nat :=
  match e with
  | .access _ load _ runs => (load, runs.map (fun r => r.pa))
  | .tile _ _ _ runs => (true, runs.map (fun r => r.pa))
  | .vamo _ _ _ es => (true, es.flatMap (fun x => x.2.2.2))
  | .scalar _ pas op => (op.reads, pas)
  | _ => (false, [])

/-- The bytes that an access shares with others of its thread: those of the general path (R230). -/
def VEntry.shared (e : VEntry) : List Nat := if e.general then e.bytes.2 else []

/-- Does an entry stand before a later access of stream ag that shares the bytes pas: by its stream, by what an SBAR or an
acquire holds behind it, or by a byte (R229, R230, R237, R255)? -/
def VEntry.precedes (e : VEntry) (ag : Nat) (pas : List Nat) : Bool :=
  e.holds.any (fun h => h.ag == ag || h.held.getLsbD ag) || e.shared.any pas.contains

/-- Does an access that waits stand before an access of stream ag to these bytes? -/
def Thread.accessPending (t : Thread) (ag : Nat) (pas : List Nat) : Bool := t.viq.any (fun e => e.precedes ag pas)

/-- Does an access on the general path wait? -/
def Thread.anyPending (t : Thread) : Bool := t.viq.any VEntry.general

/-- Does any access wait, on whatever path? -/
def Thread.accessWaits (t : Thread) : Bool := t.viq.any (fun e => e.holds.isSome)

/-- Is an entry a store that releases (R240)? -/
def VEntry.releases (e : VEntry) : Bool :=
  match e with
  | .scalar _ _ (.store _ rel) => rel
  | _ => false

/-- Does an access wait that stands before an acquire fence: a load or an atomic on the general path (R234), or a store that
releases (R255 to R258)? -/
def Thread.readPending (t : Thread) : Bool := t.viq.any (fun e => (e.general && e.bytes.1) || e.releases)

/-- The tag under which the current word's peer request is sent, and sent again (R260). -/
def State.peerTag (s : State) : Nat :=
  match s.cur.prog.wait with
  | .retry (.peer k) => k
  | _ =>
    match Table.get s.cur.prog.resend none s.cur.level with
    | some e => if e.1 = s.cur.pc then e.2 else s.fresh
    | none => s.fresh

/-- The word of a thread keeps its request tag, and waits in another way (R260). The tags are kept for each level of trap, so
that a handler's own requests leave the interrupted word's. -/
def Thread.keepTag (t : Thread) (tag : Nat) (w : Wait) : Thread :=
  { t with prog := { t.prog with resend := Table.set t.prog.resend none t.level (some (t.pc, tag)), wait := w } }

/-- A request to a peer of thread id that gets no reply: LINK_ERROR with the tag at the thread's word, which is sent again under it on
a return (R260). -/
def State.linkLost (s : State) (id : ThreadId) (tag : Nat) : State :=
  s.onThread id (fun t => t.keepTag tag (.retry (.fault cLink (w64 tag))))

/-- The waits that the lines of an access lay on it: an engine that owns one (R23), a peer that no port reaches (R504). -/
def State.reachable (s : State) (pas : List Nat) : Except Stop Unit :=
  if pas.any s.owned then .error (.wait .other)
  else if pas.any s.cutOff then .error (.wait (.peer s.peerTag))
  else .ok ()

/-- The waits that the walk of an access of n bytes at ea in accesses of al bytes meets: a line of a table that an engine owns
(R23), a table on a peer that no port reaches (R504). -/
def State.walkReady (s : State) (al n : Nat) (ea : Word) : Except Stop Unit :=
  if ea.toNat % al ≠ 0 then .ok ()
  else s.reachable ((List.range (n / al)).flatMap (fun i => s.walkBytes s.cp (ea + w64 (al * i))))

/-- The waits that an access of the current thread to these bytes meets where its word waits for it. -/
def State.ready (s : State) (ag : Nat) (pas : List Nat) : Except Stop Unit :=
  if s.cur.accessPending ag pas then .error (.wait .other) else s.reachable pas

/-- The sub-block of an address (R188). -/
def subBlock (va : Word) : Nat := va.toNat / 2 ^ 21 * 2 ^ 21

/-- The trap of a scalar access at ea: a RESIDENCY fault names its sub-block in the batch list. -/
def accessTrap (c : Nat) (ea : Word) : Stop :=
  .trap { cause := c, addr := ea, batch := if c = cResidency then [subBlock ea] else [] }

/-- Does an access of the current thread need U (R485)? Only at ring 0. -/
def State.needU (s : State) : Bool := decide (s.cur.ring = 0#2)

/-- The places of a scalar access of the current thread: n bytes at ea in accesses of al bytes, on AG0 (R76, R77). -/
def State.place (s : State) (k : Acc) (al : Nat) (ea : Word) (n : Nat) : Except Stop (List Nat) :=
  match s.walkReady al n ea with
  | .error e => .error e
  | .ok _ =>
    match s.scalarRange s.cp s.needU k al (n / al) ea with
    | .error (c, a) => .error (accessTrap c a)
    | .ok pas =>
      match s.ready 0 pas with
      | .error e => .error e
      | .ok _ => .ok pas

/-- The bytes at pas, read on the general path; consuming poison raises MACHINE_CHECK (R493). -/
def State.fetchBytes (s : State) (ea : Word) (pas : List Nat) : Except Stop (List Byte) :=
  if s.poisoned pas then .error (.trap { cause := cMachine, addr := ea }) else .ok (pas.map s.mem.byte)

/-- A scalar read of n bytes (R75). -/
def State.load (s : State) (k : Acc) (ea : Word) (n : Nat) : Except Stop Nat := do
  let pas ← s.place k n ea n
  let bs ← s.fetchBytes ea pas
  return ofBytes bs

/-- A read of n bytes of a structure in accesses of al bytes (R266, R297, R299, R420). -/
def State.loadBlock (s : State) (al : Nat) (ea : Word) (n : Nat) : Except Stop (List Byte) := do
  let pas ← s.place .read al ea n
  s.fetchBytes ea pas

/-- Bytes written at their places by a writer. -/
def State.putBy (s : State) (who : Writer) (pas : List Nat) (bs : List Byte) : State :=
  { s with mem := s.mem.writeAll who (pas.zip bs) }

/-- Bytes written at their places by the current thread. -/
def State.putBytes (s : State) (pas : List Nat) (bs : List Byte) : State := s.putBy s.writer pas bs

/-- A scalar write of n bytes (R75). -/
def State.store (s : State) (ea : Word) (n : Nat) (v : Nat) : Except Stop State := do
  let pas ← s.place .write n ea n
  return s.putBytes pas (bytesOf n v)

/-- The field of n bytes at offset o of a structure. -/
def field (bs : List Byte) (o n : Nat) : Nat := ofBytes ((bs.drop o).take n)

/-- −1 as a result. -/
def minusOne : Word := BitVec.allOnes 64

/-- fflags with bits added (R127). -/
def State.raise (s : State) (fl : Nat) : State := s.onUser (fun u => { u with fflags := u.fflags ||| w64 fl })

end Sys2Proof.Machine
end

