-- ==== Sys2Proof/Machine/Flags.lean ====
section
/-!
DEFINITION. Floating values as exact numbers, the formats (04 R113, R114), round_once with its flags (R122 to R125),
and the conversions to integers. Every flag computation of the module is here.
-/
namespace Sys2Proof.Machine

/-! ## Flags (R126) -/

def fNX : Nat := 1
def fUF : Nat := 2
def fOF : Nat := 4
def fDZ : Nat := 8
def fNV : Nat := 16
def fGD : Nat := 32

/-- A value with the flags its computation sets. -/
structure Fl (α : Type) where
  val : α
  fl : Nat

/-- The flags of a list of values, joined. -/
def flagsOf {α : Type} (l : List (Fl α)) : Nat := l.foldl (fun a x => a ||| x.fl) 0

/-! ## Formats (R113) -/

/-- A floating format: exponent and fraction bits, bias, whether it has infinities, and whether it has NaNs. -/
structure Fmt where
  eb : Nat
  fb : Nat
  bias : Nat
  hasInf : Bool
  hasNan : Bool
  deriving DecidableEq, Repr

def fp64 : Fmt := ⟨11, 52, 1023, true, true⟩
def fp32 : Fmt := ⟨8, 23, 127, true, true⟩
def fp16 : Fmt := ⟨5, 10, 15, true, true⟩
def bf16 : Fmt := ⟨8, 7, 127, true, true⟩
def e4m3 : Fmt := ⟨4, 3, 7, false, true⟩
def e5m2 : Fmt := ⟨5, 2, 15, true, true⟩
def e3m2 : Fmt := ⟨3, 2, 3, false, false⟩
def e2m1 : Fmt := ⟨2, 1, 1, false, false⟩

/-- The width of a format. -/
def Fmt.width (f : Fmt) : Nat := 1 + f.eb + f.fb

/-- The canonical NaN (R116). -/
def Fmt.nan (f : Fmt) : Nat :=
  if f.hasInf then (2 ^ f.eb - 1) * 2 ^ f.fb + 2 ^ (f.fb - 1) else (2 ^ f.eb - 1) * 2 ^ f.fb + (2 ^ f.fb - 1)

/-- The largest finite magnitude's encoding without sign. -/
def Fmt.maxEnc (f : Fmt) : Nat :=
  if f.hasInf then (2 ^ f.eb - 1) * 2 ^ f.fb - 1
  else if f.hasNan then 2 ^ (f.eb + f.fb) - 2
  else 2 ^ (f.eb + f.fb) - 1

/-- Infinity's encoding without sign. -/
def Fmt.infEnc (f : Fmt) : Nat := (2 ^ f.eb - 1) * 2 ^ f.fb

/-- An encoding with a sign. -/
def Fmt.signed (f : Fmt) (neg : Bool) (enc : Nat) : Nat := if neg then enc + 2 ^ (f.eb + f.fb) else enc

/-! ## Exact values -/

/-- A floating value: NaN (signalling or quiet), an infinity, or the number (−1)^neg · num/den · 2^exp, whose sign
counts when it is zero. -/
inductive FV where
  | nan (sig : Bool)
  | inf (neg : Bool)
  | fin (neg : Bool) (num den : Nat) (exp : Int)
  deriving DecidableEq, Repr

/-- A zero of a given sign. -/
def FV.zero (neg : Bool) : FV := .fin neg 0 1 0

/-- The number 1. -/
def FV.one : FV := .fin false 1 1 0

/-- The value of an integer. -/
def FV.ofInt (i : Int) : FV := .fin (decide (i < 0)) i.natAbs 1 0

/-- Is it a NaN? -/
def FV.isNan : FV → Bool
  | .nan _ => true
  | _ => false

/-- Is it a signalling NaN? -/
def FV.isSig : FV → Bool
  | .nan s => s
  | _ => false

/-- Is it an infinity or a NaN? -/
def FV.notFinite : FV → Bool
  | .fin _ _ _ _ => false
  | _ => true

/-- Is it a zero? -/
def FV.isZero : FV → Bool
  | .fin _ n _ _ => decide (n = 0)
  | _ => false

/-- Its sign. -/
def FV.neg : FV → Bool
  | .nan _ => false
  | .inf s => s
  | .fin s _ _ _ => s

/-- The value with its sign inverted. -/
def FV.negate : FV → FV
  | .nan s => .nan s
  | .inf s => .inf (!s)
  | .fin s n d e => .fin (!s) n d e

/-- The magnitude. -/
def FV.abs : FV → FV
  | .nan s => .nan s
  | .inf _ => .inf false
  | .fin _ n d e => .fin false n d e

/-- The value of an encoding (R114, R115). -/
def Fmt.value (f : Fmt) (x : Nat) : FV :=
  let neg := bitAt x (f.eb + f.fb)
  let e := bitsAt x f.fb f.eb
  let m := bitsAt x 0 f.fb
  if e = 2 ^ f.eb - 1 && f.hasInf then
    if m = 0 then .inf neg else .nan (!bitAt m (f.fb - 1) && decide (f ≠ e5m2))
  else if e = 2 ^ f.eb - 1 && f.hasNan && m = 2 ^ f.fb - 1 then .nan false
  else if e = 0 then .fin neg m 1 (1 - (f.bias : Int) - (f.fb : Int))
  else .fin neg (m + 2 ^ f.fb) 1 ((e : Int) - (f.bias : Int) - (f.fb : Int))

/-- num · 2^e as a natural number over a power of two: the numerator for a common exponent lo ≤ e. -/
def scaleTo (num : Nat) (e lo : Int) : Nat := num * 2 ^ (e - lo).toNat

/-- The signed sum of two finite values, with the sign of a zero result left positive. -/
def addFin (s1 : Bool) (n1 d1 : Nat) (e1 : Int) (s2 : Bool) (n2 d2 : Nat) (e2 : Int) : FV :=
  let lo := min e1 e2
  let a : Int := (scaleTo (n1 * d2) e1 lo : Nat)
  let b : Int := (scaleTo (n2 * d1) e2 lo : Nat)
  let t := (if s1 then -a else a) + (if s2 then -b else b)
  .fin (decide (t < 0)) t.natAbs (d1 * d2) lo

/-- The exact product of factors (R124, R125): NV where a factor is a signalling NaN, or where a zero and an infinity are
among the factors, whatever else is (log 30). -/
def prodTerms (l : List FV) : Fl FV :=
  let invalid := l.any FV.isZero && l.any (fun x => x.notFinite && !x.isNan)
  let fl := if l.any FV.isSig || invalid then fNV else 0
  let neg := l.foldl (fun a x => a != x.neg) false
  if l.any FV.isNan || invalid then ⟨.nan false, fl⟩
  else if l.any FV.notFinite then ⟨.inf neg, fl⟩
  else
    l.foldl (fun (a : Fl FV) x =>
      match a.val, x with
      | .fin s n d e, .fin s' n' d' e' => ⟨.fin (s != s') (n * n') (d * d') (e + e'), a.fl⟩
      | _, _ => a) ⟨FV.one, fl⟩

/-- The exact product of two factors. -/
def FV.mul (a b : FV) : Fl FV := prodTerms [a, b]

/-- The exact quotient (R125). An exact zero has the exclusive OR of the operands' signs, which R124 states for a product only (log 11). -/
def FV.div : FV → FV → Fl FV
  | .nan a, .nan b => ⟨.nan false, if a || b then fNV else 0⟩
  | .nan a, _ => ⟨.nan false, if a then fNV else 0⟩
  | _, .nan b => ⟨.nan false, if b then fNV else 0⟩
  | .inf _, .inf _ => ⟨.nan false, fNV⟩
  | .inf a, .fin s _ _ _ => ⟨.inf (a != s), 0⟩
  | .fin s _ _ _, .inf b => ⟨FV.zero (s != b), 0⟩
  | .fin s1 n1 d1 e1, .fin s2 n2 d2 e2 =>
    if n2 = 0 then (if n1 = 0 then ⟨.nan false, fNV⟩ else ⟨.inf (s1 != s2), fDZ⟩)
    else ⟨.fin (s1 != s2) (n1 * d2) (d1 * n2) (e1 - e2), 0⟩

/-- Does every term stand as a zero of the given sign (R124)? -/
def allZeros (neg : Bool) (l : List FV) : Bool := l.all (fun x => x.isZero && x.neg == neg)

/-- The exact sum of terms with the sign of a zero result under a rounding mode (R124, R125): NV where a term is a
signalling NaN, or where infinities of both signs are among the terms, whatever else is (log 30). -/
def sumTerms (rm : Nat) (l : List FV) : Fl FV :=
  let up := l.contains (.inf false)
  let down := l.contains (.inf true)
  let fl := if l.any FV.isSig || (up && down) then fNV else 0
  if l.any FV.isNan || (up && down) then ⟨.nan false, fl⟩
  else if up || down then ⟨.inf down, fl⟩
  else
    let sum := l.foldl (fun (a : FV) x =>
      match a, x with
      | .fin s n d e, .fin s' n' d' e' => addFin s n d e s' n' d' e'
      | _, _ => a) (FV.zero false)
    match sum with
    | .fin _ 0 _ _ =>
      let neg := if allZeros true l then true else if allZeros false l then false else decide (rm = 2)
      ⟨FV.zero (neg && !l.isEmpty), fl⟩
    | v => ⟨v, fl⟩

/-- The exact sum of two values. -/
def FV.add (a b : FV) : Fl FV := sumTerms 0 [a, b]

/-- The sum of terms that carry flags of their own. -/
def sumFl (rm : Nat) (l : List (Fl FV)) : Fl FV :=
  let r := sumTerms rm (l.map (fun x => x.val))
  ⟨r.val, r.fl ||| flagsOf l⟩

/-- Order of two finite values or infinities: is a < b? -/
def FV.lt : FV → FV → Bool
  | .inf a, .inf b => a && !b
  | .inf a, .fin _ _ _ _ => a
  | .fin _ _ _ _, .inf b => !b
  | .fin s1 n1 d1 e1, .fin s2 n2 d2 e2 =>
    match addFin s2 n2 d2 e2 (!s1) n1 d1 e1 with
    | .fin s n _ _ => !s && decide (n ≠ 0)
    | _ => false
  | _, _ => false

/-- Are two finite values or infinities equal (−0 equals +0)? -/
def FV.eq (a b : FV) : Bool := !a.isNan && !b.isNan && !FV.lt a b && !FV.lt b a

/-! ## Rounding (R121 to R123) -/

/-- The rounding modes: 0 RNE, 1 RTZ, 2 RDN, 3 RUP. Does the magnitude m + rem/2^sh (with more below when sticky) round
up? -/
def roundsUp (rm : Nat) (neg : Bool) (m rem half : Nat) (sticky : Bool) : Bool :=
  let inexact := decide (rem ≠ 0) || sticky
  match rm with
  | 0 => decide (half < rem) || (decide (rem = half) && decide (half ≠ 0) && (sticky || decide (m % 2 = 1)))
  | 1 => false
  | 2 => neg && inexact
  | _ => !neg && inexact

/-- Overflow (R122, R123). -/
def overflow (f : Fmt) (rm : Nat) (neg sat : Bool) : Nat :=
  let toMax := rm = 1 || (rm = 2 && !neg) || (rm = 3 && neg)
  if sat || !f.hasNan then f.signed neg f.maxEnc
  else if toMax then f.signed neg f.maxEnc
  else if f.hasInf then f.signed neg f.infEnc
  else f.nan

/-- round_once of a nonzero magnitude (q + δ)·2^e, 0 < δ < 1 exactly when sticky; a sticky q has at least fb + 3
bits. -/
def roundMag (f : Fmt) (rm : Nat) (sat neg : Bool) (q : Nat) (e : Int) (sticky : Bool) : Fl Nat :=
  let top : Int := (Nat.log2 q : Int) + e
  let emin : Int := 1 - (f.bias : Int)
  let ulp : Int := max (top - (f.fb : Int)) (emin - (f.fb : Int))
  let sh := (ulp - e).toNat
  let m0 := if ulp ≤ e then q * 2 ^ (e - ulp).toNat else q >>> sh
  let rem := if ulp ≤ e then 0 else q % 2 ^ sh
  let half := if ulp ≤ e then 0 else 2 ^ (sh - 1)
  let inexact := decide (rem ≠ 0) || sticky
  let m := if roundsUp rm neg m0 rem half sticky then m0 + 1 else m0
  let nx := if inexact then fNX else 0
  let uf := if inexact && decide (top < emin) then fUF else 0
  let enc : Nat := if ulp = emin - (f.fb : Int) then m
    else (((ulp - (emin - (f.fb : Int))).toNat) <<< f.fb) + m
  if f.maxEnc < enc then ⟨overflow f rm neg sat, nx ||| uf ||| fOF ||| fNX⟩
  else ⟨f.signed neg enc, nx ||| uf⟩

/-- round_once of an exact value (R122). -/
def roundOnce (f : Fmt) (rm : Nat) (sat : Bool) (x : FV) : Fl Nat :=
  match x with
  | .nan _ => if f.hasNan then ⟨f.nan, 0⟩ else ⟨0, fNV⟩
  | .inf neg =>
    if f.hasInf then ⟨f.signed neg f.infEnc, 0⟩
    else if f.hasNan && !sat then ⟨f.nan, fNV⟩
    else ⟨f.signed neg f.maxEnc, fNV⟩
  | .fin neg num den e =>
    if num = 0 then ⟨f.signed neg 0, 0⟩
    else
      let k := f.fb + 6 + Nat.log2 den - Nat.log2 num
      let k := if den = 1 then 0 else k
      let n := num <<< k
      let d := if den = 0 then 1 else den
      roundMag f rm sat neg (n / d) (e - (k : Int)) (decide (n % d ≠ 0))

/-- round_once of a value whose computation set flags. -/
def roundFl (f : Fmt) (rm : Nat) (x : Fl FV) : Fl Nat :=
  let r := roundOnce f rm false x.val
  ⟨r.val, x.fl ||| r.fl⟩

/-- The real number that a finite value is; 0 for the others. -/
noncomputable def FV.real (x : FV) : ℝ :=
  match x with
  | .fin s n d e => (if s then -1 else 1) * ((n : ℝ) / (d : ℝ)) * (2 : ℝ) ^ e
  | _ => 0

/-- round_once of a real number that is not zero (R122). -/
noncomputable def roundReal (f : Fmt) (rm : Nat) (sat : Bool) (x : ℝ) : Fl Nat :=
  let k : Int := (f.fb : Int) + 6 - Int.log 2 |x|
  let y := |x| * (2 : ℝ) ^ k
  roundMag f rm sat (decide (x < 0)) ⌊y⌋₊ (-k) (decide ((⌊y⌋₊ : ℝ) ≠ y))

/-! ## Square root -/

/-- The integer square root of n below 2^(2·bits), by bits from the top. -/
def isqrt (n : Nat) : Nat → Nat → Nat
  | 0, r => r
  | b + 1, r =>
    let t := r + 2 ^ b
    if t * t ≤ n then isqrt n b t else isqrt n b r

/-- round_once of the square root (R81, R125). -/
def sqrtOnce (f : Fmt) (rm : Nat) (x : FV) : Fl Nat :=
  match x with
  | .nan s => ⟨f.nan, if s then fNV else 0⟩
  | .inf false => ⟨f.infEnc, 0⟩
  | .inf true => ⟨f.nan, fNV⟩
  | .fin neg num _ e =>
    if num = 0 then ⟨f.signed neg 0, 0⟩
    else if neg then ⟨f.nan, fNV⟩
    else
      let odd := (e % 2).toNat
      let m := num * 2 ^ odd
      let e' := e - (odd : Int)
      let k := f.fb + 4
      let n := m <<< (2 * k)
      let r := isqrt n (Nat.log2 n / 2 + 1) 0
      roundMag f rm false false r (e' / 2 - (k : Int)) (decide (r * r ≠ n))

/-! ## Minimum, maximum, comparison (R81, R170, R174) -/

/-- fmin and fmax on encodings: the other operand where exactly one is NaN, the canonical NaN where both are, −0 below
+0; a signalling NaN sets NV. -/
def fminmax (f : Fmt) (isMax : Bool) (a b : Nat) : Fl Nat :=
  let x := f.value a
  let y := f.value b
  let fl := if x.isSig || y.isSig then fNV else 0
  if x.isNan && y.isNan then ⟨f.nan, fl⟩
  else if x.isNan then ⟨b, fl⟩
  else if y.isNan then ⟨a, fl⟩
  else
    let less := FV.lt x y || (FV.eq x y && x.neg && !y.neg)
    ⟨if less != isMax then a else b, fl⟩

/-! ## Integers (R83, R118) -/

/-- The magnitude num/den·2^e rounded to an integer, with its inexactness. -/
def roundInt (rm : Nat) (neg : Bool) (num den : Nat) (e : Int) : Nat × Bool :=
  let n := num * 2 ^ e.toNat
  let d := (if den = 0 then 1 else den) * 2 ^ (-e).toNat
  let m0 := n / d
  let rem := n % d
  let up := match rm with
    | 0 => decide (d < 2 * rem) || (decide (2 * rem = d) && decide (m0 % 2 = 1))
    | 1 => false
    | 2 => neg && decide (rem ≠ 0)
    | _ => !neg && decide (rem ≠ 0)
  (if up then m0 + 1 else m0, decide (rem ≠ 0))

/-- The limits of an integer type of w bits. -/
def intMax (sgn : Bool) (w : Nat) : Int := if sgn then 2 ^ (w - 1) - 1 else 2 ^ w - 1
/-- The smallest value of an integer type of w bits. -/
def intMin (sgn : Bool) (w : Nat) : Int := if sgn then -(2 ^ (w - 1)) else 0

/-- to_int (R83), also the conversion of VCVT to integers (R135): saturating, with NV for NaN, infinity and values
out of range. -/
def toInt (sgn : Bool) (w rm : Nat) (x : FV) : Fl Int :=
  match x with
  | .nan _ => ⟨intMax sgn w, fNV⟩
  | .inf neg => ⟨if neg then intMin sgn w else intMax sgn w, fNV⟩
  | .fin neg num den e =>
    let r := roundInt rm neg num den e
    let i : Int := if neg then -(r.1 : Int) else (r.1 : Int)
    if i < intMin sgn w then ⟨intMin sgn w, fNV⟩
    else if intMax sgn w < i then ⟨intMax sgn w, fNV⟩
    else ⟨i, if r.2 then fNX else 0⟩

/-- The class mask of FCLASS (R85). -/
def classMask (f : Fmt) (x : Nat) : Nat :=
  match f.value x with
  | .nan true => 2 ^ 8
  | .nan false => 2 ^ 9
  | .inf true => 2 ^ 0
  | .inf false => 2 ^ 7
  | .fin neg num _ _ =>
    if num = 0 then (if neg then 2 ^ 3 else 2 ^ 4)
    else if bitsAt x f.fb f.eb = 0 then (if neg then 2 ^ 2 else 2 ^ 5)
    else (if neg then 2 ^ 1 else 2 ^ 6)

/-! ## Element formats (R51, R52) -/

/-- The floating format of an FMT code and an element width; FP32 where the pair names none. -/
def fmtOf (fmt sew : Nat) : Fmt :=
  match fmt with
  | 2 => if sew = 64 then fp64 else if sew = 16 then fp16 else fp32
  | 3 => bf16
  | 4 => e4m3
  | 5 => e5m2
  | 6 => e3m2
  | 7 => e2m1
  | _ => fp32

/-- FP32 rounding to nearest (R130). -/
def roundF32 (x : Fl FV) : Fl Nat := roundFl fp32 0 x

end Sys2Proof.Machine
end

