-- ==== Sys2Proof/Machine/Operands.lean ====
section
/-!
DEFINITION. Operand forms: elements of vector groups (02 R49; 04 R120), predicates (R48), multivector elements (10
R321), index groups (06 R195), the pieces of state a word reads and writes (02 R45), and register writes.
-/
namespace Sys2Proof.Machine

/-! ## Places of elements -/

/-- The bit at which element i of width w of a register stands (R120). -/
def elemPos (w i : Nat) : Nat := 2048 * (i / perSlice w) + w * (i % perSlice w)

/-- The register and bit of element i of the group that starts at register base, for a grant (R49). -/
def groupLoc (grant w base i : Nat) : Nat × Nat :=
  let one := grant * perSlice w
  ((base + i / one) % 32, elemPos w (i % one))

/-- Register vN. -/
def VRegs.vreg (r : VRegs) (n : Nat) : BitVec 16384 := Table.get r.v 0#16384 n

/-- Predicate pN: p0 reads as all true (R48). -/
def VRegs.preg (r : VRegs) (n : Nat) : BitVec 4096 := if n = 0 then BitVec.allOnes 4096 else Table.get r.p 0#4096 n

/-- Register mN. -/
def VRegs.mreg (r : VRegs) (n : Nat) : MvReg := Table.get r.m MvReg.zero n

/-- Element i of a group, as its bits. -/
def VRegs.elem (r : VRegs) (grant w base i : Nat) : Nat :=
  let l := groupLoc grant w base i
  bitsAt (r.vreg l.1).toNat l.2 w

/-- Component c of element i of register mN (R321). -/
def MvReg.comp (m : MvReg) (i c : Nat) : Nat := bitsAt m.bits.toNat (512 * i + 32 * c) 32

/-- The active elements below n under a predicate, ascending (R4). -/
def activeOf (p : BitVec 4096) (n : Nat) : List Nat := (List.range n).filter (fun i => p.getLsbD i)

/-! ## Register writes -/

/-- The bits lo..lo+w of a mask. -/
def maskBits (lo w : Nat) : Nat := (2 ^ w - 1) <<< lo

/-- Writes of values at bits of v registers, gathered into one write for each register: (register, bit, width,
value). -/
def gatherV (l : List (Nat × Nat × Nat × Nat)) : List RegWrite :=
  let regs := (l.map (fun e => e.1)).eraseDups
  regs.map (fun n =>
    let mv := l.foldl (fun (a : Nat × Nat) e =>
      if e.1 = n then
        let m := maskBits e.2.1 e.2.2.1
        ((a.1 ||| m), ((a.2 ^^^ (a.2 &&& m)) ||| (bitsAt e.2.2.2 0 e.2.2.1 <<< e.2.1)))
      else a) (0, 0)
    .v n (BitVec.ofNat 16384 mv.1) (BitVec.ofNat 16384 mv.2))

/-- The unused bits of the slices that these elements lie in, written as zero (R120). -/
def tailZeros (grant w base : Nat) (is : List Nat) : List (Nat × Nat × Nat × Nat) :=
  if w = 6 then is.map (fun i =>
    let p := groupLoc grant w base i
    (p.1, 2048 * (p.2 / 2048) + 2046, 2, 0)) else []

/-- Elements of a group written: (element, value). -/
def groupWrites (grant w base : Nat) (l : List (Nat × Nat)) : List RegWrite :=
  gatherV (l.map (fun e =>
    let p := groupLoc grant w base e.1
    (p.1, p.2, w, e.2)) ++ tailZeros grant w base (l.map (fun e => e.1)))

/-- Bits of a predicate written: (element, bit). -/
def predWrite (n : Nat) (l : List (Nat × Bool)) : List RegWrite :=
  if l.isEmpty then []
  else
    let mv := l.foldl (fun (a : Nat × Nat) e =>
      let m := maskBits e.1 1
      ((a.1 ||| m), ((a.2 ^^^ (a.2 &&& m)) ||| (b2n e.2 <<< e.1)))) (0, 0)
    [.p n (BitVec.ofNat 4096 mv.1) (BitVec.ofNat 4096 mv.2)]

/-- Components of an m register written: (element, component, bits). -/
def compWrite (n : Nat) (l : List (Nat × Nat × Nat)) : List RegWrite :=
  if l.isEmpty then []
  else
    let mv := l.foldl (fun (a : Nat × Nat) e =>
      let lo := 512 * e.1 + 32 * e.2.1
      let m := maskBits lo 32
      ((a.1 ||| m), ((a.2 ^^^ (a.2 &&& m)) ||| (bitsAt e.2.2 0 32 <<< lo)))) (0, 0)
    [.m n (BitVec.ofNat 32768 mv.1) (BitVec.ofNat 32768 mv.2)]

/-- The save tag of register code k after a write below byte h (R488). Codes: v 0 to 31, m 32 to 63, p 64 to 95. -/
def VRegs.touch (r : VRegs) (k h : Nat) : VRegs :=
  let t := Table.get r.tags SaveTag.zero k
  { r with tags := Table.set r.tags SaveTag.zero k ⟨.dirty, max t.high h⟩ }

/-- The bytes below which a mask of bits ends. -/
def maskBytes (m : Nat) : Nat := if m = 0 then 0 else Nat.log2 m / 8 + 1

/-- One register write applied: the bits of the mask take the value. -/
def VRegs.apply (r : VRegs) (w : RegWrite) : VRegs :=
  match w with
  | .v n m x =>
    { r with v := Table.set r.v 0#16384 n ((r.vreg n &&& ~~~m) ||| (x &&& m)) }.touch n (maskBytes m.toNat)
  | .p n m x =>
    if n = 0 then r
    else
      { r with p := Table.set r.p 0#4096 n ((r.preg n &&& ~~~m) ||| (x &&& m)) }.touch (64 + n) (maskBytes m.toNat)
  | .m n m x =>
    let o := r.mreg n
    { r with m := Table.set r.m MvReg.zero n { o with bits := (o.bits &&& ~~~m) ||| (x &&& m) } }.touch (32 + n)
      (maskBytes m.toNat)

/-- Register writes applied in order. -/
def VRegs.applyAll (r : VRegs) (l : List RegWrite) : VRegs := l.foldl VRegs.apply r

/-- The tag of an m register set. -/
def VRegs.setTag (r : VRegs) (n : Nat) (tag : BitVec 5) : VRegs :=
  { r with m := Table.set r.m MvReg.zero n { r.mreg n with tag := tag } }.touch (32 + n) 0

/-- The current thread's register files. -/
def State.vr (s : State) : VRegs := s.cur.vr

/-- Register writes applied to the current thread at once. -/
def State.applyRegs (s : State) (l : List RegWrite) : State := s.onCur (fun t => { t with vr := t.vr.applyAll l })

/-! ## Pieces of state (R45)

Codes: v 0 to 31, m 32 to 63, p 64 to 95 (p0 is none), queues 96 to 103, FP32 tiles 128 to 159. -/

/-- The registers of a v group of L registers. -/
def vGroup (l n : Nat) : List Nat := (List.range l).map (fun k => (n + k) % 32)
/-- A predicate as a piece; p0 is constant. -/
def pPiece (n : Nat) : List Nat := if n = 0 then [] else [64 + n]
/-- An m register as a piece. -/
def mPiece (n : Nat) : List Nat := [32 + n]
/-- A queue as a piece. -/
def qPiece (n : Nat) : List Nat := [96 + n]

/-- Do two lists of pieces meet? -/
def meet (a b : List Nat) : Bool := a.any (fun x => b.contains x)

/-- Does vtype select the FP64 view of the accumulators (R393)? -/
def fp64View (vt : BitVec 32) : Bool := decide (vtSew vt = 64) && decide (vtFmt vt = 2)

/-- The FP32 tiles that tile t covers in the view of vtype (R392). -/
def tilePieces (vt : BitVec 32) (t : Nat) : List Nat :=
  if fp64View vt then [128 + (2 * t) % 32, 128 + (2 * t + 1) % 32] else [128 + t]

/-- Ceiling of a quotient. -/
def cdiv (a b : Nat) : Nat := (a + b - 1) / b

/-- Registers of an MX operand group of n bytes (R394). -/
def mxRegs (bytes grant : Nat) : Nat := cdiv bytes (256 * grant)

/-- The least of 1, 2, 4, 8 registers at width w that hold at least n elements per lane group, if any (R135, R195). -/
def leastGroup (w n : Nat) : Option Nat := [1, 2, 4, 8].find? (fun l => decide (n ≤ perSlice w * l))

/-- LI of R195: index registers at width iw for VLMAX elements of vtype. -/
def indexRegs (grant : Nat) (vt : BitVec 32) (iw : Nat) : Option Nat :=
  if grant = 0 then some 1 else leastGroup iw (perGroup (vtSew vt) (vtLmul vt))

/-- Index i of an index group, of width iw (R195). -/
def VRegs.index (r : VRegs) (grant iw base i : Nat) : Nat := r.elem grant iw base i

/-! ## What an E-side member acts with (R155) -/

/-- What a member's effect comes to: the state after it, a wait on the E-side, a trap without effect, or a trap that
leaves a count behind (R414). -/
inductive Eff where
  | done (s : State)
  | block
  | trap (x : Trap)
  | after (x : Trap) (s : State)

/-- The element width of a convoy's vtype. -/
def Convoy.sew (c : Convoy) : Nat := vtSew c.vtype
/-- Its LMUL. -/
def Convoy.lmul (c : Convoy) : Nat := vtLmul c.vtype
/-- Its VLMAX (R156). -/
def Convoy.vlmax (c : Convoy) : Nat := c.grant * perGroup c.sew c.lmul

/-- Element i of a v group under the convoy's vtype. -/
def Convoy.elem (c : Convoy) (r : VRegs) (base i : Nat) : Nat := r.elem c.grant c.sew base i

/-- The active elements of a member (R4). -/
def Convoy.active (c : Convoy) (r : VRegs) (g : Nat) : List Nat := activeOf (r.preg g) c.vl

/-- The active elements of an MV-format member (R323). -/
def Convoy.activeMv (c : Convoy) (r : VRegs) (g : Nat) : List Nat := activeOf (r.preg g) (min c.vl (8 * c.grant))

/-- Elements of a v group written under the convoy's vtype, with flags. -/
def Convoy.put (c : Convoy) (s : State) (d : Nat) (l : List (Nat × Nat)) : State :=
  s.applyRegs (groupWrites c.grant c.sew d l)

/-- Elements written from values that carry flags (R127). -/
def Convoy.putFl (c : Convoy) (s : State) (d : Nat) (l : List (Nat × Fl Nat)) : State :=
  (c.put s d (l.map (fun e => (e.1, e.2.val)))).raise (flagsOf (l.map (fun e => e.2)))

/-- One entry appended to queue k, which the E-side waits for while the queue is full (R15, R99). -/
def pushQ (s : State) (k : Nat) (v : Word) : Eff :=
  let q := s.cur.queue k
  if 16 ≤ q.length then .block else .done (s.onCur (fun t => t.setQueue k (q ++ [v])))

end Sys2Proof.Machine
end

