-- ==== Sys2Proof/Machine/Vcvt.lean ====
section
/-!
DEFINITION. The effects and checks of VCVT, VSCALE and VQMAX (04 R132, R135 to R139).
-/
namespace Sys2Proof.Machine

/-- Block scale j: element j of the group vSCR, read as FP32 (R132). -/
def VRegs.scale (r : VRegs) (grant : Nat) (vt : BitVec 32) (j : Nat) : FV := fp32.value (r.elem grant 32 (vtScr vt) j)

/-- Is the format code one of the floating formats of R135? -/
def isFp (f : Nat) : Bool := decide (2 ≤ f) && decide (f ≤ 7)

/-- Is it INT or UINT? -/
def isInt (f : Nat) : Bool := decide (f ≤ 1)

/-- A format that scaled conversions pack into (R136): E4M3, E5M2, E3M2, E2M1, INT4 or INT8. -/
def packed (f w : Nat) : Bool :=
  (decide (4 ≤ f) && decide (f ≤ 7)) || (decide (f = 0) && (decide (w = 4) || decide (w = 8)))

/-- A format that scaled conversions unpack to: FP or BF16. -/
def wide (f : Nat) : Bool := decide (f = 2) || decide (f = 3)

/-- Is a conversion narrowing (R136)? -/
def narrowing (sf df dw : Nat) : Bool := packed df dw && wide sf

/-- Is it widening (R136)? -/
def widening (sf sw df : Nat) : Bool := packed sf sw && wide df

/-- The exact value of an element of a format (R115, R118). -/
def elemValue (f w x : Nat) : FV :=
  match f with
  | 0 => FV.ofInt (sgnN w x)
  | 1 => FV.ofInt (x : Int)
  | _ => (fmtOf f w).value x

/-- conv of R135 for a real element: source format, destination vtype, the exact value with the flags of its scaling,
and the pattern of an integer source. -/
def convOne (sf : Nat) (vt : BitVec 32) (x : Fl FV) : Fl Nat :=
  let df := vtFmt vt
  let dw := vtSew vt
  let sig := if x.val.isSig then fNV else 0
  if isFp df then
    let r := roundOnce (fmtOf df dw) (vtRm vt) (isFp sf && vtSat vt) x.val
    ⟨r.val, r.fl ||| x.fl ||| sig⟩
  else
    let signed := decide (df = 0)
    if isInt sf then
      match x.val with
      | .fin neg n _ _ =>
        let i : Int := if neg then -(n : Int) else (n : Int)
        let v := if vtSat vt then
            (if i < intMin signed dw then intMin signed dw else if intMax signed dw < i then intMax signed dw else i)
          else i
        ⟨wrapN dw v, 0⟩
      | _ => ⟨0, 0⟩
    else
      let r := toInt signed dw (vtRm vt) x.val
      ⟨wrapN dw r.val, r.fl ||| x.fl⟩

/-- The scaling of R135 by the scale of the element's block. -/
def scaled (sf sw : Nat) (vt : BitVec 32) (s : FV) (x : FV) : Fl FV :=
  if !vtScl vt then ⟨x, 0⟩
  else if narrowing sf (vtFmt vt) (vtSew vt) then x.div s
  else if widening sf sw (vtFmt vt) then x.mul s
  else ⟨x, 0⟩

/-- Both parts of a CF32 element. -/
def convCx (rm x : Nat) : Fl Nat :=
  let part := fun (y : Nat) =>
    let v := fp32.value y
    let r := roundOnce fp32 rm false v
    Fl.mk r.val (r.fl ||| (if v.isSig then fNV else 0))
  let re := part (bitsAt x 0 32)
  let im := part (bitsAt x 32 32)
  ⟨re.val + im.val * 2 ^ 32, re.fl ||| im.fl⟩

/-- Element i of VCVT, converted from the registers as they stand. -/
def vcvtOne (c : Convoy) (a : BitVec 5) (e : BitVec 3) (f : BitVec 4) (r : VRegs) (i : Nat) : Fl Nat :=
  let sf := f.toNat
  let sw := sewBits e.toNat
  let x := r.elem c.grant sw a.toNat i
  if sf = 8 then convCx (vtRm c.vtype) x
  else convOne sf c.vtype (scaled sf sw c.vtype (r.scale c.grant c.vtype (i / 128)) (elemValue sf sw x))

/-- The loop of VCVT: each element is written before the next is read, in ascending order (00, Pseudocode; R135). R165, by which
every source element is read first, speaks of chapter 05 alone, so that a widening onto its own source converts what it has
written. -/
def vcvtLoop (c : Convoy) (d a : BitVec 5) (e : BitVec 3) (f : BitVec 4) (r : VRegs) (is : List Nat) : VRegs × Nat :=
  is.foldl (fun (t : VRegs × Nat) i =>
    let x := vcvtOne c a e f t.1 i
    (t.1.applyAll (groupWrites c.grant c.sew d.toNat [(i, x.val)]), t.2 ||| x.fl)) (r, 0)

/-- VCVT (R135). -/
def effVcvt (c : Convoy) (d a : BitVec 5) (e : BitVec 3) (g : BitVec 5) (f : BitVec 4) (s : State) : Eff :=
  let x := vcvtLoop c d a e f s.vr (c.active s.vr g.toNat)
  .done ((s.onCur (fun t => { t with vr := x.1 })).raise x.2)

/-- VSCALE on one element (R138). -/
def vscaleOne (tgt x : Nat) : Fl Nat :=
  match (fp32.value x).abs with
  | .fin _ 0 _ _ => ⟨0x3F800000, 0⟩
  | .fin s n d e => roundFl fp32 3 ((FV.fin s n d e).div ((fmtOf tgt 8).value (fmtOf tgt 8).maxEnc))
  | _ => ⟨0x7FC00000, fNV⟩

/-- VSCALE (R138). -/
def effVscale (c : Convoy) (d a b g : BitVec 5) (s : State) : Eff :=
  let r := s.vr
  .done (c.putFl s d.toNat ((c.active r g.toNat).map (fun i => (i, vscaleOne b.toNat (c.elem r a.toNat i)))))

/-- VQMAX on the elements of one block (R139). -/
def vqmaxOne (f : Fmt) (l : List Nat) : Fl Nat :=
  if l.any (fun x => (f.value x).isNan) then ⟨0x7FC00000, if l.any (fun x => (f.value x).isSig) then fNV else 0⟩
  else
    let m := l.foldl (fun t x => max t (bitsAt x 0 (f.eb + f.fb))) 0
    roundOnce fp32 3 false (f.value m)

/-- VQMAX (R139). -/
def effVqmax (c : Convoy) (d a g : BitVec 5) (s : State) : Eff :=
  let r := s.vr
  let f := fmtOf (vtFmt c.vtype) c.sew
  let act := c.active r g.toNat
  let l := (List.range (cdiv c.vl 128)).map (fun j =>
    (j, vqmaxOne f ((act.filter (fun i => decide (i / 128 = j))).map (fun i => c.elem r a.toNat i))))
  .done ((s.applyRegs (groupWrites c.grant 32 d.toNat (l.map (fun e => (e.1, e.2.val))))).raise
    (flagsOf (l.map (fun e => e.2))))

/-! ## Checks -/

/-- LS of R135. -/
def vcvtLs (vt : BitVec 32) (e : BitVec 3) : Option Nat :=
  leastGroup (sewBits e.toNat) (perSlice (vtSew vt) * vtLmul vt)

/-- The two scale registers (R132). -/
def scaleRegs (vt : BitVec 32) : List Nat := vGroup 2 (vtScr vt)

/-- Is the first group apart from the second, or the same? -/
def apartOrSame (a b : List Nat) : Bool := !meet a b || decide (a = b)

/-- The checks of VCVT that depend on vtype (R137). -/
def vcvtLegal (vt : BitVec 32) (d a : BitVec 5) (e : BitVec 3) (f : BitVec 4) : Bool :=
  let sf := f.toNat
  let sw := sewBits e.toNat
  let df := vtFmt vt
  match vcvtLs vt e with
  | none => false
  | some ls =>
    let src := vGroup ls a.toNat
    let dst := vGroup (vtLmul vt) d.toNat
    decide ((sf = 8) ↔ (df = 8)) && apartOrSame src dst &&
      (!vtScl vt || ((narrowing sf df (vtSew vt) || widening sf sw df) && !meet (scaleRegs vt) (src ++ dst)))

/-- The checks of VSCALE (R138). -/
def vscaleLegal (vt : BitVec 32) (d a : BitVec 5) : Bool :=
  decide (vtSew vt = 32) && decide (vtFmt vt = 2) &&
    apartOrSame (vGroup (vtLmul vt) a.toNat) (vGroup (vtLmul vt) d.toNat)

/-- The checks of VQMAX (R139). -/
def vqmaxLegal (vt : BitVec 32) (d a : BitVec 5) : Bool :=
  wide (vtFmt vt) && !(vGroup (vtLmul vt) a.toNat).contains d.toNat

end Sys2Proof.Machine
end

