-- ==== Sys2Proof/Machine/Mat.lean ====
section
/-!
DEFINITION. The effects of the MX-format words (13 R392 to R406, R411 to R414): the accumulator store, operand rows,
weight slots, the sums of R131 and their checksum.
-/
namespace Sys2Proof.Machine

/-! ## Weight formats (R397, R398) -/

/-- The class of a weight format. -/
def wClass (f : Nat) : Nat := if f = 0 then 64 else if f = 1 then 32 else if f ≤ 3 then 16 else 8

/-- Its K. -/
def wK (f : Nat) : Nat := if f = 0 then 32 else if f = 1 then 64 else if f ≤ 3 then 128 else 256

/-- Its entry width in bits. -/
def wBits (f : Nat) : Nat := [64, 32, 16, 16, 8, 8, 6, 4, 4].getD f 8

/-- Its data bytes. -/
def wBytes (f : Nat) : Nat := wBits f * wK f * 32 / 8

/-- Its pages. -/
def wPages (f : Nat) : Nat := if wBytes f ≤ 4096 then 1 else 2

/-- The entry number of K-step k of column j under a layout code. -/
def wEntry (layout kk k j : Nat) : Nat :=
  match layout with
  | 0 => j * kk + k
  | 1 => 32 * k + j
  | 2 => 64 * (k / 2) + 2 * j + k % 2
  | _ => 128 * (k / 4) + 4 * j + k % 4

/-- The exact value of a weight (its widening to E4M3 is exact). -/
def wValue (f x : Nat) : FV :=
  match f with
  | 0 => fp64.value x
  | 1 => fp32.value x
  | 2 => fp16.value x
  | 3 => bf16.value x
  | 4 => e4m3.value x
  | 5 => e5m2.value x
  | 6 => e3m2.value x
  | 7 => e2m1.value x
  | _ => FV.ofInt (sgnN 4 x)

/-- Slot entry (k, j). -/
def WSlot.entry (w : WSlot) (k j : Nat) : FV :=
  wValue w.format (bitsAt w.data.toNat (wBits w.format * wEntry w.layout (wK w.format) k j) (wBits w.format))

/-- The class of operand A under vtype, if MXAC allows the vtype (R402). -/
def aClass (vt : BitVec 32) : Option Nat :=
  match vtFmt vt, vtSew vt with
  | 2, 64 => some 64
  | 2, 32 => some 32
  | 2, 16 => some 16
  | 3, 16 => some 16
  | 4, 8 => some 8
  | 5, 8 => some 8
  | _, _ => none

/-! ## The accumulator store (R392) -/

/-- The bits of column j of row r of a tile; base is the thread's first row. -/
def Quad.accGet (q : Quad) (base : Nat) (w64view : Bool) (t r j : Nat) : Nat :=
  let word := fun k => (Table.get q.acc 0#32 (1024 * (base + r) + k)).toNat
  if w64view then word (64 * t + 2 * j) + 2 ^ 32 * word (64 * t + 2 * j + 1) else word (32 * t + j)

/-- Column j of row r of a tile written. -/
def Quad.accPut (q : Quad) (base : Nat) (w64view : Bool) (t r j v : Nat) : Quad :=
  let put := fun (a : Table (BitVec 32)) k x => Table.set a 0#32 (1024 * (base + r) + k) (BitVec.ofNat 32 x)
  if w64view then { q with acc := put (put q.acc (64 * t + 2 * j) v) (64 * t + 2 * j + 1) (v / 2 ^ 32) }
  else { q with acc := put q.acc (32 * t + j) v }

/-- Columns of a tile written in a quad: (row, column, bits). -/
def Quad.accPutAll (q : Quad) (base : Nat) (w64view : Bool) (t : Nat) (l : List (Nat × Nat × Nat)) : Quad :=
  l.foldl (fun q e => q.accPut base w64view t e.1 e.2.1 e.2.2) q

/-- The FP32 tiles a tile covers. -/
def tileList (w64view : Bool) (t : Nat) : List Nat := if w64view then [2 * t, 2 * t + 1] else [t]

/-- The tile positions written since ATTACH, with more (R391). -/
def MatState.wrote (m : MatState) (l : List Nat) : MatState :=
  { m with tiles := m.tiles ++ l.filter (fun t => !m.tiles.contains t) }

/-- Columns of a tile of the current thread written. -/
def State.putTile (s : State) (w64view : Bool) (t : Nat) (l : List (Nat × Nat × Nat)) : State :=
  let qn := quadOf s.cur.place.core
  let s1 := s.setQuad qn ((s.quad qn).accPutAll s.cur.place.rowBase w64view t l)
  s1.onCur (fun h => { h with mat := h.mat.wrote (tileList w64view t) })

/-! ## Operand rows (R394) -/

/-- n bits at byte x of the group that starts at register a. -/
def VRegs.groupBits (r : VRegs) (grant a x n : Nat) : Nat :=
  bitsAt (r.vreg ((a + x / (256 * grant)) % 32)).toNat (8 * (x % (256 * grant))) n

/-- Element k of row r of an operand, as its bits. -/
def Convoy.operand (c : Convoy) (v : VRegs) (a r k : Nat) : Nat :=
  v.groupBits c.grant a (256 * r + k * (c.sew / 8)) c.sew

/-! ## The sums of R131 -/

/-- A sum of terms without a rounding. -/
def plain (l : List (Fl FV)) : Fl FV := sumFl 0 l

/-- One update: acc with more terms, rounded once. -/
def accStep (f : Fmt) (acc : Fl Nat) (l : List (Fl FV)) : Fl Nat :=
  let r := roundFl f 0 (plain (⟨f.value acc.val, 0⟩ :: l))
  ⟨r.val, acc.fl ||| r.fl⟩

/-- Pieces of n items. -/
def chunksOf {α : Type} (n : Nat) : Nat → List α → List (List α)
  | 0, _ => []
  | k + 1, l => l.take n :: chunksOf n k (l.drop n)

/-- The exact product P·s_a·s_b of a block's sum, which carries flags, and its scales (R131). -/
def scaleBlock (x : Fl FV) (sa sb : FV) : Fl FV :=
  let r := prodTerms [x.val, sa, sb]
  ⟨r.val, x.fl ||| r.fl⟩

/-- acc over the terms a_k·b_k in the order of the class; sab gives the scales of a block. -/
def accRow (cls : Nat) (acc : Nat) (products : List (Fl FV)) (sab : Nat → FV × FV) : Fl Nat :=
  match cls with
  | 64 => products.foldl (fun t p => accStep fp64 t [p]) ⟨acc, 0⟩
  | 32 => products.foldl (fun t p => accStep fp32 t [p]) ⟨acc, 0⟩
  | 16 => (chunksOf 8 16 products).foldl (fun t ps => accStep fp32 t ps) ⟨acc, 0⟩
  | _ => ((List.range 2).zip (chunksOf 128 2 products)).foldl (fun t e =>
      let s := sab e.1
      accStep fp32 t [scaleBlock (plain e.2) s.1 s.2]) ⟨acc, 0⟩

/-! ## The checksum (R413, R414) -/

/-- c_k and d_k of a slot, as encodings of the accumulator format, with the flags of their rounding (R127). -/
def WSlot.column (w : WSlot) (absolute : Bool) (k : Nat) : Fl Nat :=
  let f := if wClass w.format = 64 then fp64 else fp32
  (roundFl f 0 (plain ((List.range 32).map (fun j =>
    let b := w.entry k j
    ⟨if absolute then b.abs else b, 0⟩))))

/-- What a row's checksum comes to. -/
inductive RowCheck where
  | pass
  | unchecked
  | fail
  deriving DecidableEq, Repr

/-- The check of a row: old and new tile values, the operands with the checksum column, the scales of their blocks. -/
def rowCheck (p : Nat) (old new : List FV) (terms : List (FV × FV × FV × FV × FV)) : RowCheck :=
  if old.any FV.notFinite || new.any FV.notFinite ||
      terms.any (fun t => t.1.notFinite || t.2.1.notFinite || t.2.2.1.notFinite || t.2.2.2.1.notFinite ||
        t.2.2.2.2.notFinite) then .unchecked
  else
    let prod := fun (l : List FV) => l.foldl (fun a x => (a.mul x).val) FV.one
    let sum := fun (l : List FV) => (sumTerms 0 l).val
    let s1 := sum (new ++ old.map FV.negate)
    let s2 := sum (terms.map (fun t => prod [t.1, t.2.1, t.2.2.2.1, t.2.2.2.2]))
    let u := sum (old.map FV.abs ++ new.map FV.abs ++
      terms.map (fun t => prod [t.1.abs, t.2.2.1, (prod [t.2.2.2.1, t.2.2.2.2]).abs]))
    let gap := (sum [s1, s2.negate]).abs
    let bound := prod [.fin false 1 1 (6 - (p : Int)), u]
    if FV.lt bound gap then .fail else .pass

/-! ## MXAC and MXACS (R403, R404) -/

/-- Is an entry of the pending work a convoy? -/
def VEntry.isConvoy (e : VEntry) : Bool :=
  match e with
  | .convoy _ => true
  | _ => false

/-- Does an outstanding accumulator transfer of the thread, issued before its first convoy, which executes next, use the tile
(R410)? -/
def State.tileHeld (s : State) (tiles : List Nat) : Bool :=
  s.cmds.any (fun c => decide (c.thread = s.cur.id) && decide (c.ahead ≤ s.cur.viq.findIdx VEntry.isConvoy) &&
    match c.body with
    | .acstm t w _ => meet (tileList w t) tiles
    | .acldm t w _ => meet (tileList w t) tiles
    | _ => false)

/-- A row of an update: its number, the old values and the results of its columns, and its check. -/
abbrev MxRow := Nat × List (Nat × Fl Nat) × RowCheck

/-- The rows that fail their check again when they execute a second time, and the state that has made the checks. The first
execution of a row fails where its check does, or where the hardware errs in a row that is checked; the second gives the same
values, and fails where the check does or where the hardware errs again, at a checked row that the spec leaves open (R414;
logs 13, 21, 29). -/
def State.recheck (s : State) (on : Bool) (rows : List MxRow) : Bool × List MxRow × State :=
  let bad := rows.filter (fun e => decide (e.2.2 = .fail))
  let able := rows.filter (fun e => decide (e.2.2 = .pass))
  if !on then (false, bad, s)
  else
    let first := s.flaw
    if bad.isEmpty && (!first.1 || able.isEmpty) then (false, [], first.2)
    else
      let again := first.2.flaw
      if again.1 && bad.isEmpty then
        (true, (able.drop (Config.choice s.fresh (2 ^ 60) % able.length)).take 1, again.2)
      else (true, bad, again.2)

/-- MXAC, or MXACS where scaled. A row that fails twice keeps its old values, and the others take their new ones (R414;
log 21). The record's SYND is quad·65,536 + row·256 + tile, the row being that of the array, and of several rows that fail it
names the lowest (DESIGN CHOICE, log 21). -/
def mxacEff (scaled : Bool) (c : Convoy) (m : Member) (d a l : BitVec 5) (h : BitVec 3) (s : State) : Eff :=
  let q := s.quad (quadOf s.cur.place.core)
  let w := Table.get q.slots WSlot.empty (32 * h.toNat + l.toNat)
  let cls := (aClass c.vtype).getD 8
  let layoutTrap := fun n => Eff.trap { cause := cMatLayout, synd := n, eside := true }
  let view := fp64View c.vtype
  match w.state with
  | .loading _ => .block
  | .empty => layoutTrap 5
  | .ready =>
    if w.layout ≠ vtBl c.vtype then layoutTrap 1
    else if wClass w.format ≠ cls then layoutTrap 2
    else if s.tileHeld (tileList view d.toNat) then .block
    else
      let v := s.vr
      let f := fmtOf (vtFmt c.vtype) c.sew
      let accF := if cls = 64 then fp64 else fp32
      let base := s.cur.place.rowBase
      let kk := wK w.format
      let rows : List MxRow := (List.range c.tgrant).map (fun r =>
        let as := (List.range kk).map (fun k => f.value (c.operand v a.toNat r k))
        let sab := fun b => if scaled then
            (v.scale c.grant c.vtype (2 * r + b), fp32.value (if b = 0 then w.scale0 else w.scale1).toNat)
          else (FV.one, FV.one)
        let cols := (List.range 32).map (fun j =>
          let old := q.accGet base view d.toNat r j
          let products := (((List.range kk).zip as).map (fun e => e.2.mul (w.entry e.1 j)))
          (old, accRow cls old products sab))
        let check := if !m.chk then RowCheck.pass
          else if !w.flag then RowCheck.unchecked
          else rowCheck (accF.fb + 1) (cols.map (fun e => accF.value e.1)) (cols.map (fun e => accF.value e.2.val))
            (((List.range kk).zip as).map (fun e =>
              let s2 := if cls = 8 then sab (e.1 / 128) else (FV.one, FV.one)
              (e.2, accF.value (w.cks.getD e.1 0#64).toNat, accF.value (w.dks.getD e.1 0#64).toNat, s2.1, s2.2)))
        (r, cols, check))
      let redo := s.recheck (m.chk && w.flag) rows
      let kept := rows.filter (fun e => !redo.2.1.any (fun b => b.1 == e.1))
      let unchk := (rows.filter (fun e => decide (e.2.2 = .unchecked))).length
      let vals := kept.flatMap (fun e => ((List.range 32).zip e.2.1).map (fun x => (e.1, x.1, x.2.2.val)))
      let fl := flagsOf (kept.flatMap (fun e => e.2.1.map (fun x => x.2)))
      let s1 := ((redo.2.2.putTile view d.toNat vals).raise fl).onCur (fun t =>
        { t with mat := { t.mat with
            unchk := t.mat.unchk + BitVec.ofNat 32 unchk, redo := t.mat.redo + (if redo.1 then 1#32 else 0#32) } })
      match redo.2.1 with
      | e :: _ =>
        .after { cause := cMachine, eside := true, logSynd := some (BitVec.ofNat 32
            (quadOf s.cur.place.core * 65536 + (base + e.1) * 256 + d.toNat)) } s1
      | [] => .done s1

/-! ## Tile moves (R406) and MCHK (R412) -/

/-- Rows and columns of the granted part of a tile. -/
def tileCells (rows : Nat) : List (Nat × Nat) :=
  (List.range rows).flatMap (fun r => (List.range 32).map (fun j => (r, j)))

def effMzero (c : Convoy) (d : BitVec 5) (s : State) : Eff :=
  let view := fp64View c.vtype
  if s.tileHeld (tileList view d.toNat) then .block
  else .done (s.putTile view d.toNat ((tileCells c.tgrant).map (fun e => (e.1, e.2, 0))))

def effAcld (c : Convoy) (d a : BitVec 5) (s : State) : Eff :=
  let view := fp64View c.vtype
  let n := if view then 8 else 4
  if s.tileHeld (tileList view d.toNat) then .block
  else
    let v := s.vr
    .done (s.putTile view d.toNat ((tileCells c.tgrant).map (fun e =>
      (e.1, e.2, v.groupBits c.grant a.toNat (32 * n * e.1 + n * e.2) (8 * n)))))

/-- ACST: mD names the tile in D and the vector group in A. -/
def effAcst (c : Convoy) (d a : BitVec 5) (s : State) : Eff :=
  let view := fp64View c.vtype
  let n := if view then 8 else 4
  if s.tileHeld (tileList view d.toNat) then .block
  else
    let q := s.quad (quadOf s.cur.place.core)
    let base := s.cur.place.rowBase
    .done (s.applyRegs (gatherV ((tileCells c.tgrant).map (fun e =>
      let x := 32 * n * e.1 + n * e.2
      ((a.toNat + x / (256 * c.grant)) % 32, 8 * (x % (256 * c.grant)), 8 * n,
        q.accGet base view d.toNat e.1 e.2)))))

def effMchk (d : BitVec 5) (s : State) : Eff :=
  let m := s.cur.mat
  match pushQ s d.toNat (w64 (m.unchk.toNat + 2 ^ 32 * m.redo.toNat)) with
  | .done s' => .done (s'.onCur (fun t => { t with mat := { t.mat with unchk := 0#32, redo := 0#32 } }))
  | e => e

/-! ## Dispatch checks (R50, R394, R395, R402, R406) -/

/-- The registers of the operand group of an MX word, none where more than 16 would be needed (R395). -/
def mxGroup (bytes grant a : Nat) : Option (List Nat) :=
  if grant = 0 then none
  else
    let n := mxRegs bytes grant
    if 16 < n then none else some (vGroup n a)

/-- Does the tile exist in the view (R50)? -/
def tileOk (vt : BitVec 32) (d : BitVec 5) : Bool := !fp64View vt || decide (d.toNat < 16)

/-- The checks of MXAC and MXACS that come before MATRIX_NOT_ATTACHED, and the one that comes after it. -/
def mxacLegal (scaled : Bool) (vt : BitVec 32) (grant tgrant : Nat) (d : BitVec 5) : Bool :=
  (match aClass vt with
    | some cl => !scaled || decide (cl = 8)
    | none => false) && tileOk vt d && (decide (tgrant = 0) || decide (tgrant ≤ 16 * grant))

/-- The bytes of a row of a tile move. -/
def moveBytes (vt : BitVec 32) : Nat := if fp64View vt then 256 else 128

/-- The checks of ACLD and ACST. -/
def moveLegal (vt : BitVec 32) (grant tgrant : Nat) (d a : BitVec 5) : Bool :=
  decide (vtFmt vt = 2) && (decide (vtSew vt = 32) || decide (vtSew vt = 64)) && tileOk vt d &&
    (decide (tgrant = 0) || (decide (tgrant ≤ 16 * grant) && (mxGroup (tgrant * moveBytes vt) grant a.toNat).isSome))

end Sys2Proof.Machine
end

