-- ==== Sys2Proof/Machine/Mv.lean ====
section
/-!
DEFINITION. Multivector operations: the blade arithmetic (11 R343), the grade inference (10 R326), the destination
policies (10 R328), and the effects of MVM, MVS, MVP and MVU but for the exponential and the logarithm (MvExp.lean).
-/
namespace Sys2Proof.Machine

/-! ## Blades (R318, R343) -/

/-- gens(k). -/
def gens (k : Nat) : List Nat :=
  [[], [0], [1], [2], [3], [0, 1], [0, 2], [0, 3], [1, 2], [3, 1], [2, 3], [0, 2, 1], [0, 1, 3], [0, 3, 2], [1, 2, 3],
    [0, 1, 2, 3]].getD k []

/-- The grade of component k. -/
def gradeOf (k : Nat) : Nat := (gens k).length

/-- set(k), as bits. -/
def genSet (k : Nat) : Nat := (gens k).foldl (fun a g => a ||| 2 ^ g) 0

/-- inv(x). -/
def inversions : List Nat → Nat
  | [] => 0
  | a :: r => (r.filter (fun b => decide (b < a))).length + inversions r

/-- The index with a given set. -/
def bladeIndex (set : Nat) : Nat := ((List.range 16).find? (fun k => genSet k == set)).getD 0

/-- blade_mul(i, j): none where the sign is 0, else whether the sign is negative; and the index. -/
def bladeMul (i j : Nat) : Option Bool × Nat :=
  let k := bladeIndex (genSet i ^^^ genSet j)
  if bitAt (genSet i) 0 && bitAt (genSet j) 0 then (none, k)
  else (some ((inversions (gens i ++ gens j) + inversions (gens k)) % 2 == 1), k)

/-- The components of the grades of a mask, ascending. -/
def comps (m : BitVec 5) : List Nat := (List.range 16).filter (fun k => m.getLsbD (gradeOf k))

/-- The mask with the grades of a list, those of 0 to 4 alone. -/
def maskOf (l : List Nat) : BitVec 5 := l.foldl (fun a g => if g ≤ 4 then a ||| BitVec.ofNat 5 (2 ^ g) else a) 0#5

/-- The grades of a mask. -/
def gradesOf (m : BitVec 5) : List Nat := (List.range 5).filter (fun g => m.getLsbD g)

/-- grade_set over the pairs of two tags (R326). -/
def gradeSet2 (rule : Nat → Nat → List Nat) (ta tb : BitVec 5) : BitVec 5 :=
  maskOf ((gradesOf ta).flatMap (fun a => (gradesOf tb).flatMap (fun b => rule a b)))

/-- |a − b|. -/
def gap (a b : Nat) : Nat := (a - b) + (b - a)

/-- Every second grade of MGP. -/
def ruleMgp (a b : Nat) : List Nat :=
  (List.range 5).filter (fun g => decide (gap a b ≤ g) && decide (g ≤ min (a + b) (8 - a - b)) && (g - gap a b) % 2 == 0)
def ruleMwdg (a b : Nat) : List Nat := [a + b]
def ruleMdot (a b : Nat) : List Nat := [gap a b]
def ruleMlct (a b : Nat) : List Nat := if a ≤ b then [b - a] else []
def ruleMjoin (a b : Nat) : List Nat := if 4 ≤ a + b then [a + b - 4] else []
def ruleB (_ b : Nat) : List Nat := [b]

/-! ## Writing under a policy (R328, R329) -/

/-- The value of a component: its bits, the flags of its computation, and whether its exact value is zero. -/
structure MvVal where
  bits : Nat
  fl : Nat
  zero : Bool

/-- A component moved: its bits unchanged. -/
def MvVal.move (x : Nat) : MvVal := ⟨x, 0, decide (bitsAt x 0 31 = 0)⟩

/-- An exact value rounded to FP32 to nearest. -/
def MvVal.round (x : Fl FV) : MvVal :=
  let r := roundF32 x
  ⟨r.val, r.fl, x.val.isZero⟩

/-- Component k of element i of a register; +0 outside the tag (R322). -/
def MvReg.read (m : MvReg) (i k : Nat) : Nat := if m.tag.getLsbD (gradeOf k) then m.comp i k else 0

/-- The write of mD under its policy: I, and the value of component k of element i. -/
def mvWrite (c : Convoy) (d g : BitVec 5) (p : BitVec 2) (gs : BitVec 5) (val : Nat → Nat → MvVal) (s : State) : Eff :=
  let r := s.vr
  let act := c.activeMv r g.toNat
  if act.isEmpty then .done s
  else
    let m := (r.mreg d.toNat).tag
    let x := gs &&& ~~~m
    let outside := decide (x ≠ 0#5)
    if outside && decide (p = 0#2) then .trap { cause := cMvForbidden, eside := true }
    else if outside && decide (p = 3#2) && act.any (fun i => (comps x).any (fun k => !(val i k).zero)) then
      .trap { cause := cMvNonzero, eside := true }
    else
      let m' := if p = 2#2 then m ||| x else m
      let vals := act.flatMap (fun i => (comps m').map (fun k =>
        (i, k, if gs.getLsbD (gradeOf k) then val i k else MvVal.move 0)))
      let s1 := if m' = m then s else s.onCur (fun t => { t with vr := t.vr.setTag d.toNat m' })
      let s2 := s1.applyRegs (compWrite d.toNat (vals.map (fun e => (e.1, e.2.1, e.2.2.bits))))
      .done ((s2.raise (vals.foldl (fun a e => a ||| e.2.2.fl) 0)).raise
        (if outside && decide (p = 1#2) then fGD else 0))

/-- The traps that a product's operand rule raises before its policy check (R347). -/
def mvVersor (c : Convoy) (g : BitVec 5) (ok : Bool) (e : State → Eff) (s : State) : Eff :=
  if (c.activeMv s.vr g.toNat).isEmpty then .done s
  else if ok then e s
  else .trap { cause := cMvVersor, eside := true }

/-! ## Sums of terms (R344) -/

/-- The FP32 value of a component. -/
def fv32 (x : Nat) : FV := fp32.value x

/-- A term with a sign. -/
def term (neg : Bool) (x : Fl FV) : Fl FV := if neg then ⟨x.val.negate, x.fl⟩ else x

/-- The rounded sum of a component's terms. -/
def sumMv (l : List (Fl FV)) : MvVal := MvVal.round (sumFl 0 l)

/-- A binary product (R348): the terms that sel selects for component k, with the sign of sgn. -/
def mvProduct (rule : Nat → Nat → List Nat) (sel : BitVec 5 → Nat → Nat → Nat → Bool)
    (sgn : Nat → Nat → Option Bool × Nat) (c : Convoy) (d a b g : BitVec 5) (p : BitVec 2) (s : State) : Eff :=
  let x := s.vr.mreg a.toNat
  let y := s.vr.mreg b.toNat
  let gs := gradeSet2 rule x.tag y.tag
  let pairs := (comps x.tag).flatMap (fun i => (comps y.tag).map (fun j => (i, j)))
  let val := fun i k =>
    sumMv (pairs.filterMap (fun e =>
      match sgn e.1 e.2 with
      | (some neg, k') =>
        if k' = k && sel gs e.1 e.2 k then some (term neg ((fv32 (x.comp i e.1)).mul (fv32 (y.comp i e.2)))) else none
      | (none, _) => none))
  mvWrite c d g p gs val s

/-- Number of shared generators. -/
def shared (i j : Nat) : Nat := ((gens i).filter (fun g => (gens j).contains g)).length

def selMgp (gs : BitVec 5) (_ _ k : Nat) : Bool := gs.getLsbD (gradeOf k)
def selMwdg (_ : BitVec 5) (i j _ : Nat) : Bool := shared i j == 0
def selMdot (_ : BitVec 5) (i j k : Nat) : Bool := gradeOf k == gap (gradeOf i) (gradeOf j)
def selMlct (_ : BitVec 5) (i j k : Nat) : Bool :=
  decide (gradeOf i ≤ gradeOf j) && gradeOf k == gradeOf j - gradeOf i
def selMjoin (_ : BitVec 5) (i j _ : Nat) : Bool := shared (15 - i) (15 - j) == 0
def selMcomm (_ : BitVec 5) (i j _ : Nat) : Bool :=
  let n := shared i j
  let gi := gradeOf i
  let gj := gradeOf j
  n % 2 == 1 && ((decide (n < gi) && decide (n < gj)) || gi % 2 != gj % 2)

/-- The dual of blade_mul of the duals (R348, MJOIN). -/
def bladeJoin (i j : Nat) : Option Bool × Nat :=
  let r := bladeMul (15 - i) (15 - j)
  (r.1, 15 - r.2)

def effMgp := mvProduct ruleMgp selMgp bladeMul
def effMwdg := mvProduct ruleMwdg selMwdg bladeMul
def effMdot := mvProduct ruleMdot selMdot bladeMul
def effMlct := mvProduct ruleMlct selMlct bladeMul
def effMjoin := mvProduct ruleMjoin selMjoin bladeJoin

/-- MCOMM: tag(mA) is {2} or empty. -/
def effMcomm (c : Convoy) (d a b g : BitVec 5) (p : BitVec 2) (s : State) : Eff :=
  let ta := (s.vr.mreg a.toNat).tag
  mvVersor c g (decide (ta = 0#5) || decide (ta = 4#5)) (mvProduct ruleB selMcomm bladeMul c d a b g p) s

/-- A subset of a mask? -/
def within (m t : BitVec 5) : Bool := decide (m &&& ~~~t = 0#5)

/-- MSAND (R349). -/
def effMsand (c : Convoy) (d a b g : BitVec 5) (p : BitVec 2) (s : State) : Eff :=
  let x := s.vr.mreg a.toNat
  let y := s.vr.mreg b.toNat
  let gs := gradeSet2 ruleB x.tag y.tag
  let triples := (comps x.tag).flatMap (fun i => (comps y.tag).flatMap (fun j =>
    match bladeMul i j with
    | (none, _) => []
    | (some n1, m) => (comps x.tag).filterMap (fun l =>
      match bladeMul m l with
      | (none, _) => none
      | (some n2, k) =>
        let rv := gradeOf l == 2 || gradeOf l == 3
        some ((n1 != n2) != rv, i, j, l, k))))
  let val := fun e k =>
    sumMv ((triples.filter (fun t => t.2.2.2.2 == k)).map (fun t =>
      let vi := fv32 (x.comp e t.2.1)
      let xj := fv32 (y.comp e t.2.2.1)
      let vl := fv32 (x.comp e t.2.2.2.1)
      term t.1 (prodTerms [vi, xj, vl])))
  mvVersor c g (within x.tag 0b10101#5 || within x.tag 0b01010#5) (mvWrite c d g p gs val) s

/-! ## Moves and sign changes (R333 to R339, R351) -/

/-- A component negated as VFNEG negates (R339). -/
def negComp (neg : Bool) (x : Nat) : MvVal :=
  if (fv32 x).isNan then ⟨0x7FC00000, if (fv32 x).isSig then fNV else 0, false⟩
  else ⟨if neg then x ^^^ 2 ^ 31 else x, 0, decide (bitsAt x 0 31 = 0)⟩

/-- A unary operation whose result grades are gs of the tag and whose component k of element i is f of it. -/
def mvUnary (gs : BitVec 5 → BitVec 5) (f : MvReg → Nat → Nat → MvVal) (c : Convoy) (d a g : BitVec 5) (p : BitVec 2)
    (s : State) : Eff :=
  let x := s.vr.mreg a.toNat
  mvWrite c d g p (gs x.tag) (f x) s

def effMmov := mvUnary id (fun x i k => .move (x.read i k))
def effMconj := mvUnary id (fun x i k => negComp (gradeOf k == 1 || gradeOf k == 2) (x.read i k))
def effMinvol := mvUnary id (fun x i k => negComp (gradeOf k == 1 || gradeOf k == 3) (x.read i k))
def effMrev := mvUnary id (fun x i k => negComp (gradeOf k == 2 || gradeOf k == 3) (x.read i k))
def effMdual := mvUnary (fun t => maskOf ((gradesOf t).map (fun g => 4 - g))) (fun x i k => .move (x.read i (15 - k)))

def effMgrd (c : Convoy) (d a b g : BitVec 5) (p : BitVec 2) (s : State) : Eff :=
  mvUnary (fun t => t &&& b) (fun x i k => .move (x.read i k)) c d a g p s

/-- MSCAL: the low 32 bits of the captured register as FP32. -/
def effMscal (c : Convoy) (m : Member) (d a g : BitVec 5) (p : BitVec 2) (s : State) : Eff :=
  mvUnary id (fun x i k => MvVal.round ((fv32 (x.read i k)).mul (fv32 (bitsAt m.sb.toNat 0 32)))) c d a g p s

/-- MADD and MSUB (R338). -/
def mvSum (neg : Bool) (c : Convoy) (d a b g : BitVec 5) (p : BitVec 2) (s : State) : Eff :=
  let x := s.vr.mreg a.toNat
  let y := s.vr.mreg b.toNat
  mvWrite c d g p (x.tag ||| y.tag) (fun i k =>
    let v := fv32 (y.read i k)
    sumMv [⟨fv32 (x.read i k), 0⟩, ⟨if neg then v.negate else v, 0⟩]) s

def effMadd := mvSum false
def effMsub := mvSum true

/-- Σ a_c² over the components that a norm sums (R352). -/
def normSum (l : List Nat) (x : MvReg) (i : Nat) : Fl FV :=
  sumFl 0 ((l.filter (fun k => x.tag.getLsbD (gradeOf k))).map (fun k => (fv32 (x.comp i k)).mul (fv32 (x.comp i k))))

def euclid : List Nat := [0, 2, 3, 4, 8, 9, 10, 14]
def ideal : List Nat := [1, 5, 6, 7, 11, 12, 13, 15]

def scalarGrade (t : BitVec 5) : BitVec 5 := if t = 0#5 then 0#5 else 1#5

def effMnrm2 := mvUnary scalarGrade (fun x i _ => MvVal.round (normSum euclid x i))
def effMnrmi := mvUnary scalarGrade (fun x i _ => MvVal.round (normSum ideal x i))

/-- round_once of the square root of num/den·2^e with a sign, num and den not zero. -/
def sqrtRatio (neg : Bool) (num den : Nat) (e : Int) : Fl Nat :=
  let odd := (e % 2).toNat
  let k := fp32.fb + 6 + Nat.log2 den
  let n := (num * 2 ^ odd) <<< (2 * k)
  let r := isqrt (n / den) (Nat.log2 n / 2 + 1) 0
  roundMag fp32 0 false neg r ((e - (odd : Int)) / 2 - (k : Int)) (decide (r * r * den ≠ n))

/-- a / sqrt(N), rounded once (R353); an infinite a over N = 0 is a nonzero one (log 30). -/
def overRoot (a : FV) (n : Fl FV) : MvVal :=
  match a, n.val with
  | .inf s, .fin _ 0 _ _ => MvVal.round ⟨.inf s, n.fl ||| fDZ⟩
  | .fin s na da ea, .fin _ nn dn en =>
    if na = 0 || nn = 0 then MvVal.round (let q := a.div n.val; ⟨q.val, q.fl ||| n.fl⟩)
    else
      let r := sqrtRatio s (na * na * dn) (da * da * nn) (2 * ea - en)
      ⟨r.val, r.fl ||| n.fl, false⟩
  | _, v => MvVal.round (let q := a.div v; ⟨q.val, q.fl ||| n.fl⟩)

def effMnormz := mvUnary id (fun x i k => overRoot (fv32 (x.read i k)) (normSum euclid x i))

/-! ## Tags (R334 to R336) and v registers (R337) -/

/-- Every component of the register outside the mask made +0. -/
def MvReg.keep (m : MvReg) (t : BitVec 5) (grant : Nat) : BitVec 32768 :=
  let drop := (List.range 16).filter (fun k => !t.getLsbD (gradeOf k))
  let mask := (List.range (8 * grant)).foldl (fun a i =>
    drop.foldl (fun a k => a ||| maskBits (512 * i + 32 * k) 32) a) 0
  m.bits &&& ~~~(BitVec.ofNat 32768 mask)

/-- An m register written whole, with its tag. -/
def VRegs.putM (r : VRegs) (n grant : Nat) (m : MvReg) : VRegs :=
  { r with m := Table.set r.m MvReg.zero n m }.touch (32 + n) (512 * grant)

def effMsetm (c : Convoy) (d b : BitVec 5) (s : State) : Eff :=
  if c.grant = 0 then .done s
  else .done (s.onCur (fun t =>
    { t with vr := t.vr.putM d.toNat c.grant ⟨(t.vr.mreg d.toNat).keep b c.grant, b⟩ }))

def effMgetm (c : Convoy) (d a : BitVec 5) (s : State) : Eff :=
  pushQ s d.toNat (if c.grant = 0 then 0#64 else w64 (s.vr.mreg a.toNat).tag.toNat)

def effMclean (c : Convoy) (d a : BitVec 5) (s : State) : Eff :=
  if c.grant = 0 then .done s
  else
    let x := s.vr.mreg a.toNat
    let live := (gradesOf x.tag).filter (fun g => (List.range (8 * c.grant)).any (fun i =>
      (List.range 16).any (fun k => gradeOf k == g && decide (bitsAt (x.comp i k) 0 31 ≠ 0))))
    let t := maskOf live
    .done (s.onCur (fun h => { h with vr := h.vr.putM d.toNat c.grant ⟨x.keep t c.grant, t⟩ }))

def effMfromv (c : Convoy) (d a b g : BitVec 5) (p : BitVec 2) (s : State) : Eff :=
  let r := s.vr
  let cs := comps b
  mvWrite c d g p b (fun i k =>
    match findIdxOpt (fun x => x == k) cs 0 with
    | some n => .move (r.elem c.grant 32 ((a.toNat + n) % 32) i)
    | none => .move 0) s

def effMtov (c : Convoy) (d a b g : BitVec 5) (s : State) : Eff :=
  let r := s.vr
  let x := r.mreg a.toNat
  let cs := comps b
  let act := c.activeMv r g.toNat
  .done (s.applyRegs (gatherV (act.flatMap (fun i =>
    ((List.range cs.length).zip cs).map (fun e =>
      (((d.toNat + e.1) % 32), elemPos 32 i, 32, x.read i e.2))))))

end Sys2Proof.Machine
end

