-- ==== Sys2Proof/Machine/MvExp.lean ====
section
/-!
DEFINITION. MEXPB and MLOGM (11 R354 to R356): each component is a real number, rounded once.
-/
namespace Sys2Proof.Machine

noncomputable section

/-- A component: an exact value whose zero has a sign, or a real number that is not zero. -/
inductive RealVal where
  | exact (x : FV)
  | real (x : ℝ)

/-- The component rounded (R354, R355). -/
def RealVal.round (x : RealVal) : MvVal :=
  match x with
  | .exact v => MvVal.round ⟨v, 0⟩
  | .real v =>
    let r := roundReal fp32 0 false v
    ⟨r.val, r.fl, false⟩

/-- A real number as a component, with an exact value that has the sign of its zero (R124). -/
def realOr (x : ℝ) (zero : FV) : RealVal := if x = 0 then .exact (.zero zero.neg) else .real x

/-- The exact product with its sign. -/
def mulX (a b : FV) : FV := (a.mul b).val

/-- An exact sum to nearest. -/
def sumX (l : List FV) : FV := (sumTerms 0 l).val

/-- The dual partner of bivector components 5, 6 and 7. -/
def partner (k : Nat) : Nat := 15 - k

/-! ## MEXPB (R354) -/

/-- λ of R354. -/
def expAngle (b : Nat → ℝ) : ℝ := Real.sqrt (b 8 ^ 2 + b 9 ^ 2 + b 10 ^ 2)

/-- μ of R354. -/
def expIdeal (b : Nat → ℝ) : ℝ := b 5 * b 10 + b 6 * b 9 + b 7 * b 8

/-- σ of R354. -/
def expSigma (b : Nat → ℝ) : ℝ := if expAngle b = 0 then 1 else Real.sin (expAngle b) / expAngle b

/-- κ of R354 without its factor μ. -/
def expSlope (b : Nat → ℝ) : ℝ :=
  if expAngle b = 0 then 0
  else (Real.sin (expAngle b) - expAngle b * Real.cos (expAngle b)) / expAngle b ^ 3

/-- Component k of the exponential as a real number (R354). -/
def expReal (b : Nat → ℝ) (k : Nat) : ℝ :=
  if k = 0 then Real.cos (expAngle b)
  else if k = 15 then expIdeal b * expSigma b
  else if k ≤ 7 then expSigma b * b k - expIdeal b * expSlope b * b (partner k)
  else expSigma b * b k

/-- Component k of the exponential; b gives the components. A zero takes the sign that R124 gives it from the signs of its
factors and terms. -/
def expComp (b : Nat → FV) (k : Nat) : RealVal :=
  let r := fun j => (b j).real
  let mu := sumX [mulX (b 5) (b 10), mulX (b 6) (b 9), mulX (b 7) (b 8)]
  let sigma := FV.fin (decide (expSigma r < 0)) 1 1 0
  let kappa := if expSlope r = 0 then FV.zero false
    else mulX mu (.fin (decide (expSlope r < 0)) 1 1 0)
  realOr (expReal r k)
    (if k = 15 then mulX mu sigma
    else if k ≤ 7 then sumX [mulX sigma (b k), (mulX kappa (b (partner k))).negate]
    else mulX sigma (b k))

/-! ## MLOGM (R355) -/

/-- s of R355. -/
def logSine (c : Nat → ℝ) : ℝ := Real.sqrt (c 8 ^ 2 + c 9 ^ 2 + c 10 ^ 2)

/-- n of R355. -/
def logNorm (c : Nat → ℝ) : ℝ := Real.sqrt (c 0 ^ 2 + logSine c ^ 2)

/-- λ of R355: atan2(s, c0). -/
def logAngle (c : Nat → ℝ) : ℝ := Complex.arg ⟨c 0, logSine c⟩

/-- σ of R355. -/
def logSigma (c : Nat → ℝ) : ℝ := if logAngle c = 0 then 1 else logSine c / (logNorm c * logAngle c)

/-- κ of R355. -/
def logKappa (c : Nat → ℝ) : ℝ :=
  if logAngle c = 0 then 0
  else c 15 / (logNorm c * logSigma c) * (logSine c / logNorm c - logAngle c * c 0 / logNorm c) / logAngle c ^ 3

/-- Component k of the logarithm as a real number (R355). -/
def logReal (c : Nat → ℝ) (k : Nat) : ℝ :=
  let b := fun j => c j / (logNorm c * logSigma c)
  if 8 ≤ k then b k else (c k / logNorm c + logKappa c * b (partner k)) / logSigma c

/-- Component k of the logarithm, none where R355 gives NaN; c gives the components. n, σ and the factor of μ in κ are not
negative, so that a zero takes its sign from the components alone (R124). -/
def logComp (c : Nat → FV) (k : Nat) : Option RealVal :=
  let r := fun j => (c j).real
  let q := c (partner k)
  if logNorm r = 0 ∨ (logSine r = 0 ∧ r 0 < 0) then none
  else some (realOr (logReal r k)
    (if 8 ≤ k then c k
    else if (c k).isZero then
      sumX [c k, FV.zero ((if logAngle r = 0 then false else (c 15).neg) != q.neg)]
    else FV.zero false))

/-! ## Effects -/

/-- Does a component of the register's tag grades make the result NaN (R356)? The NaN with its flag. -/
def badComps (x : MvReg) (i : Nat) : Option MvVal :=
  let vs := (comps x.tag).map (fun k => fv32 (x.comp i k))
  if vs.any (fun v => v.notFinite) then
    some ⟨0x7FC00000, if vs.any (fun v => v.isSig || (v.notFinite && !v.isNan)) then fNV else 0, false⟩
  else none

def effMexpb (c : Convoy) (d a g : BitVec 5) (p : BitVec 2) (s : State) : Eff :=
  let x := s.vr.mreg a.toNat
  let gs := if x.tag = 4#5 then 0b10101#5 else 0#5
  mvVersor c g (decide (x.tag = 0#5) || decide (x.tag = 4#5)) (mvWrite c d g p gs (fun i k =>
    match badComps x i with
    | some v => v
    | none => (expComp (fun j => fv32 (x.read i j)) k).round)) s

def effMlogm (c : Convoy) (d a g : BitVec 5) (p : BitVec 2) (s : State) : Eff :=
  let x := s.vr.mreg a.toNat
  let gs := if x.tag = 0#5 then 0#5 else 4#5
  mvVersor c g (within x.tag 0b10101#5) (mvWrite c d g p gs (fun i k =>
    match badComps x i with
    | some v => v
    | none =>
      match logComp (fun j => fv32 (x.read i j)) k with
      | some v => v.round
      | none => ⟨0x7FC00000, fNV, false⟩)) s

end

end Sys2Proof.Machine
end

