-- ==== Sys2Proof/Machine/Places.lean ====
section
/-!
DEFINITION. The registers that pending work reads and writes: the pieces of each E-side word (02 R45), the element groups of
256 bits that an entry of the pending work holds (01 R16; 05 R159), and the register writes of A-side words, which wait for
them.
-/
namespace Sys2Proof.Machine

noncomputable section

/-- The pieces of state that a word reads, under R45. -/
def eReads (vt : BitVec 32) (grant tgrant : Nat) (i : Instr) : List Nat :=
  match i with
  | .vadd _ _ a b g => vGroup (vtLmul vt) a.toNat ++ vGroup (vtLmul vt) b.toNat ++ pPiece g.toNat
  | .vsub _ _ a b g => vGroup (vtLmul vt) a.toNat ++ vGroup (vtLmul vt) b.toNat ++ pPiece g.toNat
  | .vmul _ _ a b g => vGroup (vtLmul vt) a.toNat ++ vGroup (vtLmul vt) b.toNat ++ pPiece g.toNat
  | .vmulh _ _ a b g => vGroup (vtLmul vt) a.toNat ++ vGroup (vtLmul vt) b.toNat ++ pPiece g.toNat
  | .vmin _ _ a b g => vGroup (vtLmul vt) a.toNat ++ vGroup (vtLmul vt) b.toNat ++ pPiece g.toNat
  | .vmax _ _ a b g => vGroup (vtLmul vt) a.toNat ++ vGroup (vtLmul vt) b.toNat ++ pPiece g.toNat
  | .vminu _ _ a b g => vGroup (vtLmul vt) a.toNat ++ vGroup (vtLmul vt) b.toNat ++ pPiece g.toNat
  | .vmaxu _ _ a b g => vGroup (vtLmul vt) a.toNat ++ vGroup (vtLmul vt) b.toNat ++ pPiece g.toNat
  | .vand _ _ a b g => vGroup (vtLmul vt) a.toNat ++ vGroup (vtLmul vt) b.toNat ++ pPiece g.toNat
  | .vor _ _ a b g => vGroup (vtLmul vt) a.toNat ++ vGroup (vtLmul vt) b.toNat ++ pPiece g.toNat
  | .vxor _ _ a b g => vGroup (vtLmul vt) a.toNat ++ vGroup (vtLmul vt) b.toNat ++ pPiece g.toNat
  | .vsll _ _ a b g => vGroup (vtLmul vt) a.toNat ++ vGroup (vtLmul vt) b.toNat ++ pPiece g.toNat
  | .vsrl _ _ a b g => vGroup (vtLmul vt) a.toNat ++ vGroup (vtLmul vt) b.toNat ++ pPiece g.toNat
  | .vsra _ _ a b g => vGroup (vtLmul vt) a.toNat ++ vGroup (vtLmul vt) b.toNat ++ pPiece g.toNat
  | .vmacc _ d a b g => vGroup (vtLmul vt) a.toNat ++ vGroup (vtLmul vt) b.toNat ++ pPiece g.toNat ++ vGroup (vtLmul vt) d.toNat
  | .vdiv _ _ a b g => vGroup (vtLmul vt) a.toNat ++ vGroup (vtLmul vt) b.toNat ++ pPiece g.toNat
  | .vaddsat _ _ a b g => vGroup (vtLmul vt) a.toNat ++ vGroup (vtLmul vt) b.toNat ++ pPiece g.toNat
  | .vsubsat _ _ a b g => vGroup (vtLmul vt) a.toNat ++ vGroup (vtLmul vt) b.toNat ++ pPiece g.toNat
  | .vintsVadd _ _ a _ g => vGroup (vtLmul vt) a.toNat ++ pPiece g.toNat
  | .vintsVsub _ _ a _ g => vGroup (vtLmul vt) a.toNat ++ pPiece g.toNat
  | .vintsVmul _ _ a _ g => vGroup (vtLmul vt) a.toNat ++ pPiece g.toNat
  | .vintsVmulh _ _ a _ g => vGroup (vtLmul vt) a.toNat ++ pPiece g.toNat
  | .vintsVmin _ _ a _ g => vGroup (vtLmul vt) a.toNat ++ pPiece g.toNat
  | .vintsVmax _ _ a _ g => vGroup (vtLmul vt) a.toNat ++ pPiece g.toNat
  | .vintsVminu _ _ a _ g => vGroup (vtLmul vt) a.toNat ++ pPiece g.toNat
  | .vintsVmaxu _ _ a _ g => vGroup (vtLmul vt) a.toNat ++ pPiece g.toNat
  | .vintsVand _ _ a _ g => vGroup (vtLmul vt) a.toNat ++ pPiece g.toNat
  | .vintsVor _ _ a _ g => vGroup (vtLmul vt) a.toNat ++ pPiece g.toNat
  | .vintsVxor _ _ a _ g => vGroup (vtLmul vt) a.toNat ++ pPiece g.toNat
  | .vintsVsll _ _ a _ g => vGroup (vtLmul vt) a.toNat ++ pPiece g.toNat
  | .vintsVsrl _ _ a _ g => vGroup (vtLmul vt) a.toNat ++ pPiece g.toNat
  | .vintsVsra _ _ a _ g => vGroup (vtLmul vt) a.toNat ++ pPiece g.toNat
  | .vintsVmacc _ d a _ g => vGroup (vtLmul vt) a.toNat ++ pPiece g.toNat ++ vGroup (vtLmul vt) d.toNat
  | .vintsVdiv _ _ a _ g => vGroup (vtLmul vt) a.toNat ++ pPiece g.toNat
  | .vintsVaddsat _ _ a _ g => vGroup (vtLmul vt) a.toNat ++ pPiece g.toNat
  | .vintsVsubsat _ _ a _ g => vGroup (vtLmul vt) a.toNat ++ pPiece g.toNat
  | .vfadd _ _ a b g => vGroup (vtLmul vt) a.toNat ++ vGroup (vtLmul vt) b.toNat ++ pPiece g.toNat
  | .vfsub _ _ a b g => vGroup (vtLmul vt) a.toNat ++ vGroup (vtLmul vt) b.toNat ++ pPiece g.toNat
  | .vfmul _ _ a b g => vGroup (vtLmul vt) a.toNat ++ vGroup (vtLmul vt) b.toNat ++ pPiece g.toNat
  | .vfdiv _ _ a b g => vGroup (vtLmul vt) a.toNat ++ vGroup (vtLmul vt) b.toNat ++ pPiece g.toNat
  | .vfsqrt _ _ a g => vGroup (vtLmul vt) a.toNat ++ pPiece g.toNat
  | .vfma _ d a b g => vGroup (vtLmul vt) a.toNat ++ vGroup (vtLmul vt) b.toNat ++ pPiece g.toNat ++ vGroup (vtLmul vt) d.toNat
  | .vfms _ d a b g => vGroup (vtLmul vt) a.toNat ++ vGroup (vtLmul vt) b.toNat ++ pPiece g.toNat ++ vGroup (vtLmul vt) d.toNat
  | .vfmin _ _ a b g => vGroup (vtLmul vt) a.toNat ++ vGroup (vtLmul vt) b.toNat ++ pPiece g.toNat
  | .vfmax _ _ a b g => vGroup (vtLmul vt) a.toNat ++ vGroup (vtLmul vt) b.toNat ++ pPiece g.toNat
  | .vfabs _ _ a g => vGroup (vtLmul vt) a.toNat ++ pPiece g.toNat
  | .vfneg _ _ a g => vGroup (vtLmul vt) a.toNat ++ pPiece g.toNat
  | .vfpsVfadd _ _ a _ g => vGroup (vtLmul vt) a.toNat ++ pPiece g.toNat
  | .vfpsVfsub _ _ a _ g => vGroup (vtLmul vt) a.toNat ++ pPiece g.toNat
  | .vfpsVfmul _ _ a _ g => vGroup (vtLmul vt) a.toNat ++ pPiece g.toNat
  | .vfpsVfdiv _ _ a _ g => vGroup (vtLmul vt) a.toNat ++ pPiece g.toNat
  | .vfpsVfma _ d a _ g => vGroup (vtLmul vt) a.toNat ++ pPiece g.toNat ++ vGroup (vtLmul vt) d.toNat
  | .vfpsVfms _ d a _ g => vGroup (vtLmul vt) a.toNat ++ pPiece g.toNat ++ vGroup (vtLmul vt) d.toNat
  | .vfpsVfmin _ _ a _ g => vGroup (vtLmul vt) a.toNat ++ pPiece g.toNat
  | .vfpsVfmax _ _ a _ g => vGroup (vtLmul vt) a.toNat ++ pPiece g.toNat
  | .vcmpEq _ _ a b g _ => vGroup (vtLmul vt) a.toNat ++ vGroup (vtLmul vt) b.toNat ++ pPiece g.toNat
  | .vcmpNe _ _ a b g _ => vGroup (vtLmul vt) a.toNat ++ vGroup (vtLmul vt) b.toNat ++ pPiece g.toNat
  | .vcmpLt _ _ a b g _ => vGroup (vtLmul vt) a.toNat ++ vGroup (vtLmul vt) b.toNat ++ pPiece g.toNat
  | .vcmpGe _ _ a b g _ => vGroup (vtLmul vt) a.toNat ++ vGroup (vtLmul vt) b.toNat ++ pPiece g.toNat
  | .vcmpLe _ _ a b g _ => vGroup (vtLmul vt) a.toNat ++ vGroup (vtLmul vt) b.toNat ++ pPiece g.toNat
  | .vcmpGt _ _ a b g _ => vGroup (vtLmul vt) a.toNat ++ vGroup (vtLmul vt) b.toNat ++ pPiece g.toNat
  | .vcmpUn _ _ a b g => vGroup (vtLmul vt) a.toNat ++ vGroup (vtLmul vt) b.toNat ++ pPiece g.toNat
  | .pand _ _ a b g => pPiece g.toNat ++ pPiece a.toNat ++ pPiece b.toNat
  | .por _ _ a b g => pPiece g.toNat ++ pPiece a.toNat ++ pPiece b.toNat
  | .pxor _ _ a b g => pPiece g.toNat ++ pPiece a.toNat ++ pPiece b.toNat
  | .pandn _ _ a b g => pPiece g.toNat ++ pPiece a.toNat ++ pPiece b.toNat
  | .pnot _ _ a g => pPiece g.toNat ++ pPiece a.toNat
  | .plead _ _ a g => pPiece g.toNat ++ pPiece a.toNat
  | .pthru _ _ a g => pPiece g.toNat ++ pPiece a.toNat
  | .ppre _ _ a g => pPiece g.toNat ++ pPiece a.toNat
  | .pcnt _ d a g => pPiece g.toNat ++ pPiece a.toNat ++ qPiece d.toNat
  | .pany _ d a g => pPiece g.toNat ++ pPiece a.toNat ++ qPiece d.toNat
  | .pset _ _ g => pPiece g.toNat
  | .pclr _ _ g => pPiece g.toNat
  | .pgetf _ _ g => pPiece g.toNat
  | .vslup _ _ a _ g => vGroup (vtLmul vt) a.toNat ++ pPiece g.toNat
  | .vsldn _ _ a _ g => vGroup (vtLmul vt) a.toNat ++ pPiece g.toNat
  | .vslupi _ _ a _ g => vGroup (vtLmul vt) a.toNat ++ pPiece g.toNat
  | .vsldni _ _ a _ g => vGroup (vtLmul vt) a.toNat ++ pPiece g.toNat
  | .vperm _ _ a b g => vGroup (vtLmul vt) a.toNat ++ vGroup (vtLmul vt) b.toNat ++ pPiece g.toNat
  | .vcomp _ _ a b => vGroup (vtLmul vt) a.toNat ++ pPiece b.toNat
  | .vexpd _ _ a b => vGroup (vtLmul vt) a.toNat ++ pPiece b.toNat
  | .vmerge _ _ a b g => vGroup (vtLmul vt) a.toNat ++ vGroup (vtLmul vt) b.toNat ++ pPiece g.toNat
  | .vbcast _ _ _ g => pPiece g.toNat
  | .vextr _ d a _ => vGroup (vtLmul vt) a.toNat ++ qPiece d.toNat
  | .vins _ _ _ _ => []
  | .viota _ _ a g => pPiece a.toNat ++ pPiece g.toNat
  | .vid _ _ g => pPiece g.toNat
  | .vredsum _ d a g => vGroup (vtLmul vt) a.toNat ++ pPiece g.toNat ++ qPiece d.toNat
  | .vredmin _ d a g => vGroup (vtLmul vt) a.toNat ++ pPiece g.toNat ++ qPiece d.toNat
  | .vredmax _ d a g => vGroup (vtLmul vt) a.toNat ++ pPiece g.toNat ++ qPiece d.toNat
  | .vfredo _ d a g => vGroup (vtLmul vt) a.toNat ++ pPiece g.toNat ++ qPiece d.toNat
  | .vfredt _ d a g => vGroup (vtLmul vt) a.toNat ++ pPiece g.toNat ++ qPiece d.toNat
  | .vfredmin _ d a g => vGroup (vtLmul vt) a.toNat ++ pPiece g.toNat ++ qPiece d.toNat
  | .vfredmax _ d a g => vGroup (vtLmul vt) a.toNat ++ pPiece g.toNat ++ qPiece d.toNat
  | .vcmul _ _ a b g => vGroup (vtLmul vt) a.toNat ++ vGroup (vtLmul vt) b.toNat ++ pPiece g.toNat
  | .vcmac _ d a b g => vGroup (vtLmul vt) a.toNat ++ vGroup (vtLmul vt) b.toNat ++ pPiece g.toNat ++ vGroup (vtLmul vt) d.toNat
  | .vcmulc _ _ a b g => vGroup (vtLmul vt) a.toNat ++ vGroup (vtLmul vt) b.toNat ++ pPiece g.toNat
  | .vcabs2 _ _ a g => vGroup (vtLmul vt) a.toNat ++ pPiece g.toNat
  | .vcvt _ _ a e g _ => vGroup ((vcvtLs vt e).getD 1) a.toNat ++ pPiece g.toNat ++ (if vtScl vt then scaleRegs vt else [])
  | .vscale _ _ a _ g => vGroup (vtLmul vt) a.toNat ++ pPiece g.toNat
  | .vqmax _ _ a g => vGroup (vtLmul vt) a.toNat ++ pPiece g.toNat
  | .mgp _ _ a b g _ => mPiece a.toNat ++ mPiece b.toNat ++ pPiece g.toNat
  | .mwdg _ _ a b g _ => mPiece a.toNat ++ mPiece b.toNat ++ pPiece g.toNat
  | .mdot _ _ a b g _ => mPiece a.toNat ++ mPiece b.toNat ++ pPiece g.toNat
  | .mlct _ _ a b g _ => mPiece a.toNat ++ mPiece b.toNat ++ pPiece g.toNat
  | .mjoin _ _ a b g _ => mPiece a.toNat ++ mPiece b.toNat ++ pPiece g.toNat
  | .msand _ _ a b g _ => mPiece a.toNat ++ mPiece b.toNat ++ pPiece g.toNat
  | .mcomm _ _ a b g _ => mPiece a.toNat ++ mPiece b.toNat ++ pPiece g.toNat
  | .mrev _ _ a g _ => mPiece a.toNat ++ pPiece g.toNat
  | .mdual _ _ a g _ => mPiece a.toNat ++ pPiece g.toNat
  | .mgrd _ _ a _ g _ => mPiece a.toNat ++ pPiece g.toNat
  | .mnrm2 _ _ a g _ => mPiece a.toNat ++ pPiece g.toNat
  | .mnrmi _ _ a g _ => mPiece a.toNat ++ pPiece g.toNat
  | .mnormz _ _ a g _ => mPiece a.toNat ++ pPiece g.toNat
  | .mexpb _ _ a g _ => mPiece a.toNat ++ pPiece g.toNat
  | .mlogm _ _ a g _ => mPiece a.toNat ++ pPiece g.toNat
  | .mmov _ _ a g _ => mPiece a.toNat ++ pPiece g.toNat
  | .msetm _ _ _ => []
  | .mgetm _ d a => mPiece a.toNat ++ qPiece d.toNat
  | .mclean _ _ a => mPiece a.toNat
  | .mfromv _ _ a b g _ => vGroup (comps b).length a.toNat ++ pPiece g.toNat
  | .mtov _ _ a _ g => mPiece a.toNat ++ pPiece g.toNat
  | .madd _ _ a b g _ => mPiece a.toNat ++ pPiece g.toNat ++ mPiece b.toNat
  | .msub _ _ a b g _ => mPiece a.toNat ++ pPiece g.toNat ++ mPiece b.toNat
  | .mscal _ _ a _ g _ => mPiece a.toNat ++ pPiece g.toNat
  | .mconj _ _ a g _ => mPiece a.toNat ++ pPiece g.toNat
  | .minvol _ _ a g _ => mPiece a.toNat ++ pPiece g.toNat
  | .mxac _ d a _ _ _ _ => tilePieces vt d.toNat ++ (mxGroup (256 * tgrant) grant a.toNat).getD []
  | .mxacs _ d a _ _ _ _ => tilePieces vt d.toNat ++ (mxGroup (256 * tgrant) grant a.toNat).getD [] ++ scaleRegs vt
  | .mzero _ _ _ _ => []
  | .acld _ _ a _ _ => (mxGroup (tgrant * moveBytes vt) grant a.toNat).getD []
  | .acst _ d _ _ _ => tilePieces vt d.toNat
  | .mchk _ d _ _ _ => qPiece d.toNat
  | .vtok _ _ _ => []
  | _ => []

/-- The pieces of state that a word writes. -/
def eWrites (vt : BitVec 32) (grant tgrant : Nat) (i : Instr) : List Nat :=
  match i with
  | .vadd _ d _ _ _ => vGroup (vtLmul vt) d.toNat
  | .vsub _ d _ _ _ => vGroup (vtLmul vt) d.toNat
  | .vmul _ d _ _ _ => vGroup (vtLmul vt) d.toNat
  | .vmulh _ d _ _ _ => vGroup (vtLmul vt) d.toNat
  | .vmin _ d _ _ _ => vGroup (vtLmul vt) d.toNat
  | .vmax _ d _ _ _ => vGroup (vtLmul vt) d.toNat
  | .vminu _ d _ _ _ => vGroup (vtLmul vt) d.toNat
  | .vmaxu _ d _ _ _ => vGroup (vtLmul vt) d.toNat
  | .vand _ d _ _ _ => vGroup (vtLmul vt) d.toNat
  | .vor _ d _ _ _ => vGroup (vtLmul vt) d.toNat
  | .vxor _ d _ _ _ => vGroup (vtLmul vt) d.toNat
  | .vsll _ d _ _ _ => vGroup (vtLmul vt) d.toNat
  | .vsrl _ d _ _ _ => vGroup (vtLmul vt) d.toNat
  | .vsra _ d _ _ _ => vGroup (vtLmul vt) d.toNat
  | .vmacc _ d _ _ _ => vGroup (vtLmul vt) d.toNat
  | .vdiv _ d _ _ _ => vGroup (vtLmul vt) d.toNat
  | .vaddsat _ d _ _ _ => vGroup (vtLmul vt) d.toNat
  | .vsubsat _ d _ _ _ => vGroup (vtLmul vt) d.toNat
  | .vintsVadd _ d _ _ _ => vGroup (vtLmul vt) d.toNat
  | .vintsVsub _ d _ _ _ => vGroup (vtLmul vt) d.toNat
  | .vintsVmul _ d _ _ _ => vGroup (vtLmul vt) d.toNat
  | .vintsVmulh _ d _ _ _ => vGroup (vtLmul vt) d.toNat
  | .vintsVmin _ d _ _ _ => vGroup (vtLmul vt) d.toNat
  | .vintsVmax _ d _ _ _ => vGroup (vtLmul vt) d.toNat
  | .vintsVminu _ d _ _ _ => vGroup (vtLmul vt) d.toNat
  | .vintsVmaxu _ d _ _ _ => vGroup (vtLmul vt) d.toNat
  | .vintsVand _ d _ _ _ => vGroup (vtLmul vt) d.toNat
  | .vintsVor _ d _ _ _ => vGroup (vtLmul vt) d.toNat
  | .vintsVxor _ d _ _ _ => vGroup (vtLmul vt) d.toNat
  | .vintsVsll _ d _ _ _ => vGroup (vtLmul vt) d.toNat
  | .vintsVsrl _ d _ _ _ => vGroup (vtLmul vt) d.toNat
  | .vintsVsra _ d _ _ _ => vGroup (vtLmul vt) d.toNat
  | .vintsVmacc _ d _ _ _ => vGroup (vtLmul vt) d.toNat
  | .vintsVdiv _ d _ _ _ => vGroup (vtLmul vt) d.toNat
  | .vintsVaddsat _ d _ _ _ => vGroup (vtLmul vt) d.toNat
  | .vintsVsubsat _ d _ _ _ => vGroup (vtLmul vt) d.toNat
  | .vfadd _ d _ _ _ => vGroup (vtLmul vt) d.toNat
  | .vfsub _ d _ _ _ => vGroup (vtLmul vt) d.toNat
  | .vfmul _ d _ _ _ => vGroup (vtLmul vt) d.toNat
  | .vfdiv _ d _ _ _ => vGroup (vtLmul vt) d.toNat
  | .vfsqrt _ d _ _ => vGroup (vtLmul vt) d.toNat
  | .vfma _ d _ _ _ => vGroup (vtLmul vt) d.toNat
  | .vfms _ d _ _ _ => vGroup (vtLmul vt) d.toNat
  | .vfmin _ d _ _ _ => vGroup (vtLmul vt) d.toNat
  | .vfmax _ d _ _ _ => vGroup (vtLmul vt) d.toNat
  | .vfabs _ d _ _ => vGroup (vtLmul vt) d.toNat
  | .vfneg _ d _ _ => vGroup (vtLmul vt) d.toNat
  | .vfpsVfadd _ d _ _ _ => vGroup (vtLmul vt) d.toNat
  | .vfpsVfsub _ d _ _ _ => vGroup (vtLmul vt) d.toNat
  | .vfpsVfmul _ d _ _ _ => vGroup (vtLmul vt) d.toNat
  | .vfpsVfdiv _ d _ _ _ => vGroup (vtLmul vt) d.toNat
  | .vfpsVfma _ d _ _ _ => vGroup (vtLmul vt) d.toNat
  | .vfpsVfms _ d _ _ _ => vGroup (vtLmul vt) d.toNat
  | .vfpsVfmin _ d _ _ _ => vGroup (vtLmul vt) d.toNat
  | .vfpsVfmax _ d _ _ _ => vGroup (vtLmul vt) d.toNat
  | .vcmpEq _ d _ _ _ _ => pPiece d.toNat
  | .vcmpNe _ d _ _ _ _ => pPiece d.toNat
  | .vcmpLt _ d _ _ _ _ => pPiece d.toNat
  | .vcmpGe _ d _ _ _ _ => pPiece d.toNat
  | .vcmpLe _ d _ _ _ _ => pPiece d.toNat
  | .vcmpGt _ d _ _ _ _ => pPiece d.toNat
  | .vcmpUn _ d _ _ _ => pPiece d.toNat
  | .pand _ d _ _ _ => pPiece d.toNat
  | .por _ d _ _ _ => pPiece d.toNat
  | .pxor _ d _ _ _ => pPiece d.toNat
  | .pandn _ d _ _ _ => pPiece d.toNat
  | .pnot _ d _ _ => pPiece d.toNat
  | .plead _ d _ _ => pPiece d.toNat
  | .pthru _ d _ _ => pPiece d.toNat
  | .ppre _ d _ _ => pPiece d.toNat
  | .pcnt _ d _ _ => qPiece d.toNat
  | .pany _ d _ _ => qPiece d.toNat
  | .pset _ d _ => pPiece d.toNat
  | .pclr _ d _ => pPiece d.toNat
  | .pgetf _ d _ => pPiece d.toNat
  | .vslup _ d _ _ _ => vGroup (vtLmul vt) d.toNat
  | .vsldn _ d _ _ _ => vGroup (vtLmul vt) d.toNat
  | .vslupi _ d _ _ _ => vGroup (vtLmul vt) d.toNat
  | .vsldni _ d _ _ _ => vGroup (vtLmul vt) d.toNat
  | .vperm _ d _ _ _ => vGroup (vtLmul vt) d.toNat
  | .vcomp _ d _ _ => vGroup (vtLmul vt) d.toNat
  | .vexpd _ d _ _ => vGroup (vtLmul vt) d.toNat
  | .vmerge _ d _ _ _ => vGroup (vtLmul vt) d.toNat
  | .vbcast _ d _ _ => vGroup (vtLmul vt) d.toNat
  | .vextr _ d _ _ => qPiece d.toNat
  | .vins _ d _ _ => vGroup (vtLmul vt) d.toNat
  | .viota _ d _ _ => vGroup (vtLmul vt) d.toNat
  | .vid _ d _ => vGroup (vtLmul vt) d.toNat
  | .vredsum _ d _ _ => qPiece d.toNat
  | .vredmin _ d _ _ => qPiece d.toNat
  | .vredmax _ d _ _ => qPiece d.toNat
  | .vfredo _ d _ _ => qPiece d.toNat
  | .vfredt _ d _ _ => qPiece d.toNat
  | .vfredmin _ d _ _ => qPiece d.toNat
  | .vfredmax _ d _ _ => qPiece d.toNat
  | .vcmul _ d _ _ _ => vGroup (vtLmul vt) d.toNat
  | .vcmac _ d _ _ _ => vGroup (vtLmul vt) d.toNat
  | .vcmulc _ d _ _ _ => vGroup (vtLmul vt) d.toNat
  | .vcabs2 _ d _ _ => vGroup (vtLmul vt) d.toNat
  | .vcvt _ d _ _ _ _ => vGroup (vtLmul vt) d.toNat
  | .vscale _ d _ _ _ => vGroup (vtLmul vt) d.toNat
  | .vqmax _ d _ _ => [d.toNat]
  | .mgp _ d _ _ _ _ => mPiece d.toNat
  | .mwdg _ d _ _ _ _ => mPiece d.toNat
  | .mdot _ d _ _ _ _ => mPiece d.toNat
  | .mlct _ d _ _ _ _ => mPiece d.toNat
  | .mjoin _ d _ _ _ _ => mPiece d.toNat
  | .msand _ d _ _ _ _ => mPiece d.toNat
  | .mcomm _ d _ _ _ _ => mPiece d.toNat
  | .mrev _ d _ _ _ => mPiece d.toNat
  | .mdual _ d _ _ _ => mPiece d.toNat
  | .mgrd _ d _ _ _ _ => mPiece d.toNat
  | .mnrm2 _ d _ _ _ => mPiece d.toNat
  | .mnrmi _ d _ _ _ => mPiece d.toNat
  | .mnormz _ d _ _ _ => mPiece d.toNat
  | .mexpb _ d _ _ _ => mPiece d.toNat
  | .mlogm _ d _ _ _ => mPiece d.toNat
  | .mmov _ d _ _ _ => mPiece d.toNat
  | .msetm _ d _ => mPiece d.toNat
  | .mgetm _ d _ => qPiece d.toNat
  | .mclean _ d _ => mPiece d.toNat
  | .mfromv _ d _ _ _ _ => mPiece d.toNat
  | .mtov _ d _ b _ => vGroup (comps b).length d.toNat
  | .madd _ d _ _ _ _ => mPiece d.toNat
  | .msub _ d _ _ _ _ => mPiece d.toNat
  | .mscal _ d _ _ _ _ => mPiece d.toNat
  | .mconj _ d _ _ _ => mPiece d.toNat
  | .minvol _ d _ _ _ => mPiece d.toNat
  | .mxac _ d _ _ _ _ _ => tilePieces vt d.toNat
  | .mxacs _ d _ _ _ _ _ => tilePieces vt d.toNat
  | .mzero _ d _ _ => tilePieces vt d.toNat
  | .acld _ d _ _ _ => tilePieces vt d.toNat
  | .acst _ _ a _ _ => (mxGroup (tgrant * moveBytes vt) grant a.toNat).getD []
  | .mchk _ d _ _ _ => qPiece d.toNat
  | .vtok _ _ _ => []
  | _ => []

/-! ## Element groups (R159)

A set of places is a number: bit 64·n + g stands for group g of register vN, bit 2,048 + n for mN and 2,080 + n for pN. -/

/-- The place of group g of vN. -/
def groupPlace (n g : Nat) : Nat := 2 ^ (64 * n + g)

/-- The places of a piece (R45): all groups of a v register, an m or a p register, and none for what has no place. -/
def piecePlaces (x : Nat) : Nat :=
  if x < 32 then (2 ^ 64 - 1) <<< (64 * x) else if x < 96 then 2 ^ (2048 + (x - 32)) else 0

/-- The union of sets of places. -/
def unite (l : List Nat) : Nat := l.foldl (fun a b => a ||| b) 0

/-- The places of pieces. -/
def placesOf (l : List Nat) : Nat := unite (l.map piecePlaces)

/-- Do two sets of places meet? -/
def placesMeet (a b : Nat) : Bool := decide (a &&& b ≠ 0)

/-- The places of elements is, of width w, of the group at a base; a 6-bit element stands for its whole slice, whose unused bits
go with it (R120). -/
def elemPlaces (grant w base : Nat) (is : List Nat) : Nat :=
  unite (is.map (fun i =>
    let l := groupLoc grant w base i
    if w = 6 then (2 ^ 8 - 1) <<< (64 * l.1 + 8 * (l.2 / 2048)) else groupPlace l.1 (l.2 / 256)))

/-- The groups that a mask of bits of vN touches. -/
def maskPlaces (n mask : Nat) : Nat :=
  unite ((List.range 64).map (fun g => if bitsAt mask (256 * g) 256 = 0 then 0 else groupPlace n g))

/-- How a word uses the elements of its v groups under its predicate: the groups it reads, where it reads only the elements that
it writes, and those it writes. -/
structure ElemUse where
  g : BitVec 5
  reads : Option (List (BitVec 5))
  writes : List (BitVec 5)

/-- The words whose element i, where active, is computed into element i. -/
def elemUse (i : Instr) : Option ElemUse :=
  match i with
  | .vadd _ d a b g => some ⟨g, some [a, b], [d]⟩
  | .vsub _ d a b g => some ⟨g, some [a, b], [d]⟩
  | .vmul _ d a b g => some ⟨g, some [a, b], [d]⟩
  | .vmulh _ d a b g => some ⟨g, some [a, b], [d]⟩
  | .vmin _ d a b g => some ⟨g, some [a, b], [d]⟩
  | .vmax _ d a b g => some ⟨g, some [a, b], [d]⟩
  | .vminu _ d a b g => some ⟨g, some [a, b], [d]⟩
  | .vmaxu _ d a b g => some ⟨g, some [a, b], [d]⟩
  | .vand _ d a b g => some ⟨g, some [a, b], [d]⟩
  | .vor _ d a b g => some ⟨g, some [a, b], [d]⟩
  | .vxor _ d a b g => some ⟨g, some [a, b], [d]⟩
  | .vsll _ d a b g => some ⟨g, some [a, b], [d]⟩
  | .vsrl _ d a b g => some ⟨g, some [a, b], [d]⟩
  | .vsra _ d a b g => some ⟨g, some [a, b], [d]⟩
  | .vmacc _ d a b g => some ⟨g, some [a, b, d], [d]⟩
  | .vdiv _ d a b g => some ⟨g, some [a, b], [d]⟩
  | .vaddsat _ d a b g => some ⟨g, some [a, b], [d]⟩
  | .vsubsat _ d a b g => some ⟨g, some [a, b], [d]⟩
  | .vintsVadd _ d a _ g => some ⟨g, some [a], [d]⟩
  | .vintsVsub _ d a _ g => some ⟨g, some [a], [d]⟩
  | .vintsVmul _ d a _ g => some ⟨g, some [a], [d]⟩
  | .vintsVmulh _ d a _ g => some ⟨g, some [a], [d]⟩
  | .vintsVmin _ d a _ g => some ⟨g, some [a], [d]⟩
  | .vintsVmax _ d a _ g => some ⟨g, some [a], [d]⟩
  | .vintsVminu _ d a _ g => some ⟨g, some [a], [d]⟩
  | .vintsVmaxu _ d a _ g => some ⟨g, some [a], [d]⟩
  | .vintsVand _ d a _ g => some ⟨g, some [a], [d]⟩
  | .vintsVor _ d a _ g => some ⟨g, some [a], [d]⟩
  | .vintsVxor _ d a _ g => some ⟨g, some [a], [d]⟩
  | .vintsVsll _ d a _ g => some ⟨g, some [a], [d]⟩
  | .vintsVsrl _ d a _ g => some ⟨g, some [a], [d]⟩
  | .vintsVsra _ d a _ g => some ⟨g, some [a], [d]⟩
  | .vintsVmacc _ d a _ g => some ⟨g, some [a, d], [d]⟩
  | .vintsVdiv _ d a _ g => some ⟨g, some [a], [d]⟩
  | .vintsVaddsat _ d a _ g => some ⟨g, some [a], [d]⟩
  | .vintsVsubsat _ d a _ g => some ⟨g, some [a], [d]⟩
  | .vfadd _ d a b g => some ⟨g, some [a, b], [d]⟩
  | .vfsub _ d a b g => some ⟨g, some [a, b], [d]⟩
  | .vfmul _ d a b g => some ⟨g, some [a, b], [d]⟩
  | .vfdiv _ d a b g => some ⟨g, some [a, b], [d]⟩
  | .vfsqrt _ d a g => some ⟨g, some [a], [d]⟩
  | .vfma _ d a b g => some ⟨g, some [a, b, d], [d]⟩
  | .vfms _ d a b g => some ⟨g, some [a, b, d], [d]⟩
  | .vfmin _ d a b g => some ⟨g, some [a, b], [d]⟩
  | .vfmax _ d a b g => some ⟨g, some [a, b], [d]⟩
  | .vfabs _ d a g => some ⟨g, some [a], [d]⟩
  | .vfneg _ d a g => some ⟨g, some [a], [d]⟩
  | .vfpsVfadd _ d a _ g => some ⟨g, some [a], [d]⟩
  | .vfpsVfsub _ d a _ g => some ⟨g, some [a], [d]⟩
  | .vfpsVfmul _ d a _ g => some ⟨g, some [a], [d]⟩
  | .vfpsVfdiv _ d a _ g => some ⟨g, some [a], [d]⟩
  | .vfpsVfma _ d a _ g => some ⟨g, some [a, d], [d]⟩
  | .vfpsVfms _ d a _ g => some ⟨g, some [a, d], [d]⟩
  | .vfpsVfmin _ d a _ g => some ⟨g, some [a], [d]⟩
  | .vfpsVfmax _ d a _ g => some ⟨g, some [a], [d]⟩
  | .vcmpEq _ _ a b g _ => some ⟨g, some [a, b], []⟩
  | .vcmpNe _ _ a b g _ => some ⟨g, some [a, b], []⟩
  | .vcmpLt _ _ a b g _ => some ⟨g, some [a, b], []⟩
  | .vcmpGe _ _ a b g _ => some ⟨g, some [a, b], []⟩
  | .vcmpLe _ _ a b g _ => some ⟨g, some [a, b], []⟩
  | .vcmpGt _ _ a b g _ => some ⟨g, some [a, b], []⟩
  | .vcmpUn _ _ a b g => some ⟨g, some [a, b], []⟩
  | .vperm _ d _ _ g => some ⟨g, none, [d]⟩
  | .vmerge _ d a b _ => some ⟨0, some [a, b], [d]⟩
  | .vbcast _ d _ g => some ⟨g, some [], [d]⟩
  | .viota _ d _ g => some ⟨g, some [], [d]⟩
  | .vid _ d g => some ⟨g, some [], [d]⟩
  | .vcmul _ d a b g => some ⟨g, some [a, b], [d]⟩
  | .vcmac _ d a b g => some ⟨g, some [a, b, d], [d]⟩
  | .vcmulc _ d a b g => some ⟨g, some [a, b], [d]⟩
  | .vcabs2 _ d a g => some ⟨g, some [a], [d]⟩
  | .vscale _ d a _ g => some ⟨g, some [a], [d]⟩
  | .vredsum _ _ a g => some ⟨g, some [a], []⟩
  | .vredmin _ _ a g => some ⟨g, some [a], []⟩
  | .vredmax _ _ a g => some ⟨g, some [a], []⟩
  | .vfredo _ _ a g => some ⟨g, some [a], []⟩
  | .vfredt _ _ a g => some ⟨g, some [a], []⟩
  | .vfredmin _ _ a g => some ⟨g, some [a], []⟩
  | .vfredmax _ _ a g => some ⟨g, some [a], []⟩
  | _ => none

/-- The elements below n that a predicate picks, or all of them where earlier work, whose places stand in open_, still writes it. -/
def pickedBy (r : VRegs) (open_ n : Nat) (g : BitVec 5) : List Nat :=
  if placesMeet open_ (placesOf (pPiece g.toNat)) then List.range n else activeOf (r.preg g.toNat) n

/-- The elements that the words read and write whose element i is not computed into element i alone: the reads of v registers where
they are fewer than the groups named, and the writes (R135, R139, R176, R337, R406). -/
def ownPlaces (c : Convoy) (r : VRegs) (open_ : Nat) (m : Member) : Option (Option Nat × Nat) :=
  let at_ := fun (w : Nat) (b : BitVec 5) (is : List Nat) => elemPlaces c.grant w b.toNat is
  let picked := pickedBy r open_ c.vl
  let up := fun (off : Nat) (g : BitVec 5) => (picked g).filter (fun i => decide (off ≤ i))
  let down := fun (off : Nat) (g : BitVec 5) => (picked g).filter (fun i => decide (i + off < c.vl))
  let slide := fun (d a : BitVec 5) (f : Nat → Nat) (is : List Nat) => some (some (at_ c.sew a (is.map f)), at_ c.sew d is)
  let columns := fun (x b g : BitVec 5) =>
    let act := pickedBy r open_ (min c.vl (8 * c.grant)) g
    unite ((List.range (comps b).length).map (fun n =>
      unite (act.map (fun i => groupPlace ((x.toNat + n) % 32) (elemPos 32 i / 256)))))
  let rows := fun (a : BitVec 5) =>
    let slice := 256 * c.grant
    unite ((List.range (c.tgrant * (if fp64View c.vtype then 8 else 4))).map (fun k =>
      groupPlace ((a.toNat + 32 * k / slice) % 32) (32 * k % slice / 32)))
  match m.instr with
  | .vslup _ d a _ g => slide d a (fun i => i - m.sb.toNat) (up m.sb.toNat g)
  | .vsldn _ d a _ g => slide d a (fun i => i + m.sb.toNat) (down m.sb.toNat g)
  | .vslupi _ d a k g => slide d a (fun i => i - k.toNat) (up k.toNat g)
  | .vsldni _ d a k g => slide d a (fun i => i + k.toNat) (down k.toNat g)
  | .vcvt _ d a e g _ =>
    let scale := if vtScl c.vtype then placesOf (scaleRegs c.vtype) else 0
    some (some (at_ (sewBits e.toNat) a (picked g) ||| scale), at_ c.sew d (picked g))
  | .vqmax _ d a g => some (some (at_ c.sew a (picked g)), at_ 32 d (List.range (cdiv c.vl 128)))
  | .vextr _ _ a _ => some (some (if m.sb.toNat < c.vlmax then at_ c.sew a [m.sb.toNat] else 0), 0)
  | .vins _ d _ _ => some (some 0, if m.sb.toNat < c.vl then at_ c.sew d [m.sb.toNat] else 0)
  | .vcomp _ d a b => some (some (at_ c.sew a (picked b)), at_ c.sew d (List.range (picked b).length))
  | .vexpd _ d a b => some (some (at_ c.sew a (List.range (picked b).length)), at_ c.sew d (picked b))
  | .mfromv _ _ a b g _ => some (some (columns a b g), 0)
  | .mtov _ d _ b g => some (none, columns d b g)
  | .acld _ _ a _ _ => some (some (rows a), 0)
  | .acst _ _ a _ _ => some (none, rows a)
  | _ => none

/-- The places that a member of a convoy reads and writes: of v registers those of the elements that it reads or writes by what
it captured and by its predicate, or by all elements below vl where earlier work, whose places stand in open_, still writes the
predicate; of other words, and of other registers, all that they name (R159; log 12). -/
def memberPlaces (c : Convoy) (r : VRegs) (open_ : Nat) (m : Member) : Nat × Nat :=
  let rs := eReads c.vtype c.grant c.tgrant m.instr
  let ws := eWrites c.vtype c.grant c.tgrant m.instr
  let other := fun (l : List Nat) => placesOf (l.filter (fun x => decide (32 ≤ x)))
  let reads := fun (x : Option Nat) => (x.map (fun p => p ||| other rs)).getD (placesOf rs)
  match ownPlaces c r open_ m, elemUse m.instr with
  | some x, _ => (reads x.1, x.2 ||| other ws)
  | none, some u =>
    let at_ := fun (l : List (BitVec 5)) =>
      unite (l.map (fun b => elemPlaces c.grant c.sew b.toNat (pickedBy r open_ c.vl u.g)))
    (reads (u.reads.map at_), at_ u.writes ||| other ws)
  | none, none => (placesOf rs, placesOf ws)

/-- The places of a register write. -/
def RegWrite.places (w : RegWrite) : Nat :=
  match w with
  | .v n k _ => maskPlaces n k.toNat
  | .p n _ _ => placesOf (pPiece n)
  | .m n _ _ => placesOf (mPiece n)

/-- The places that a run of an access moves, which may lie in two groups. -/
def StoreRun.places (mv : Bool) (r : StoreRun) : Nat :=
  if mv then placesOf (mPiece r.reg) else groupPlace r.reg (r.src / 256) ||| groupPlace r.reg ((r.src + r.len - 1) / 256)

/-- The places that an entry keeps from later writers, and those that it has still to write: a member that has executed holds what
it read and wrote until its convoy retires, since the convoy may be abandoned and execute again (R46, R159). -/
def VEntry.places (r : VRegs) (open_ : Nat) (e : VEntry) : Nat × Nat :=
  match e with
  | .convoy c => c.members.zipIdx.foldl (fun (a : Nat × Nat) e =>
      let x := memberPlaces c r (open_ ||| a.2) e.1
      if e.2 < c.done then (a.1 ||| x.1 ||| x.2, a.2) else (a.1 ||| x.1, a.2 ||| x.2)) (0, 0)
  | .write ws => (0, unite (ws.map RegWrite.places))
  | .access _ load mv runs =>
    let x := unite (runs.map (StoreRun.places mv))
    if load then (0, x) else (x, 0)
  | .tile _ _ _ runs => (0, unite (runs.map (StoreRun.places false)))
  | .vamo _ _ _ es => (unite (es.map (fun x => groupPlace x.2.1 (x.2.2.1 / 256))), 0)
  | .scalar _ _ _ => (0, 0)
  | .reply _ regs => (0, placesOf regs)

/-- The places that entries in order keep from later writers, and those that they have still to write. -/
def busyPlaces (r : VRegs) (l : List VEntry) : Nat × Nat :=
  l.foldl (fun (a : Nat × Nat) e =>
    let x := e.places r a.2
    (a.1 ||| x.1, a.2 ||| x.2)) (0, 0)

/-- Those of the pending work of a thread. -/
def Thread.busy (t : Thread) : Nat × Nat := busyPlaces t.vr t.viq

/-- Does work of the given places stand before work that reads or writes some of them: a writer before any, a reader before a
writer (R159)? -/
def placesBefore (a b : Nat × Nat) : Bool := placesMeet a.2 (b.1 ||| b.2) || placesMeet a.1 b.2

/-! ## Register writes of A-side words (R159) -/

/-- The bits of vN that lie in places. -/
def placeBits (p n : Nat) : BitVec 16384 :=
  BitVec.ofNat 16384 (unite ((List.range 64).map (fun g =>
    if p.testBit (64 * n + g) then maskBits (256 * g) 256 else 0)))

/-- A register write parted into what is free to go and what lies in places that earlier work holds. -/
def RegWrite.part (held : Nat) (w : RegWrite) : List RegWrite × List RegWrite :=
  match w with
  | .v n k x =>
    let late := k &&& placeBits held n
    let now := k &&& ~~~placeBits held n
    (if now = 0 then [] else [.v n now x], if late = 0 then [] else [.v n late x])
  | w => if placesMeet held w.places then ([], [w]) else ([w], [])

/-- Register writes parted so. -/
def partWrites (held : Nat) (l : List RegWrite) : List RegWrite × List RegWrite :=
  (l.flatMap (fun w => (w.part held).1), l.flatMap (fun w => (w.part held).2))

/-- A write with the components of an m register that lie outside its tag as +0 (R322). -/
def RegWrite.tagged (r : VRegs) (w : RegWrite) : RegWrite :=
  match w with
  | .m n k x => .m n k (MvReg.keep ⟨x, (r.mreg n).tag⟩ (r.mreg n).tag 8)
  | w => w

/-- Register writes of an A-side word: those whose groups no earlier work reads or writes at once, and the others in their place
in program order (R159). -/
def State.writeRegs (s : State) (l : List RegWrite) : State :=
  if l.isEmpty then s
  else if s.cur.viq.isEmpty then s.applyRegs l
  else
    let b := s.cur.busy
    let x := partWrites (b.1 ||| b.2) l
    let s1 := s.applyRegs x.1
    if x.2.isEmpty then s1 else s1.onCur (fun t => { t with viq := t.viq ++ [.write x.2] })

end

end Sys2Proof.Machine
end

