-- ==== Sys2Proof/Machine/Pending.lean ====
section
/-!
DEFINITION. The accesses of a thread to memory: the updates of atomics (07 R239, R246), what each access does when it is
performed, and the accesses whose turn has not come, which wait among the pending work (01 R16; 05 R159; 06 R191; 07 R229,
R237; 03 R111).
-/
namespace Sys2Proof.Machine

noncomputable section

/-! ## Atomic updates -/

/-- The new value with flags, none where no write is made, of an atomic of n bytes: from the old value, the operand and the
expected value (R239). -/
def amoResult (op : AmoOp) (n old x e : Nat) : Option (Fl Nat) :=
  let less := fun (a b : Nat) => decide (sgnN (8 * n) a < sgnN (8 * n) b)
  match op with
  | .swap => some ⟨x, 0⟩
  | .add => some ⟨(old + x) % 2 ^ (8 * n), 0⟩
  | .and => some ⟨old &&& x, 0⟩
  | .or => some ⟨old ||| x, 0⟩
  | .xor => some ⟨old ^^^ x, 0⟩
  | .min => some ⟨if less x old then x else old, 0⟩
  | .max => some ⟨if less old x then x else old, 0⟩
  | .minu => some ⟨min old x, 0⟩
  | .maxu => some ⟨max old x, 0⟩
  | .cas => if old = e then some ⟨x, 0⟩ else none
  | .fadd =>
    let f := if n = 8 then fp64 else fp32
    some (roundFl f 0 (sumTerms 0 [f.value old, f.value x]))

/-- The old value as a register takes it: sign-extended, and zero-extended by AMOFADD. -/
def amoExtend (op : AmoOp) (n old : Nat) : Word :=
  match op with
  | .fadd => w64 old
  | _ => w64 (wrapN 64 (sgnN (8 * n) old))

/-- The lesser, or where isMax the greater, under the format of vtype. -/
def vamoCmp (isMax : Bool) (vt : BitVec 32) (x y : Nat) : Fl Nat :=
  let w := vtSew vt
  let less := if vtFmt vt = 0 then decide (sgnN w y < sgnN w x) else decide (y < x)
  let same := x == y
  ⟨if isMax then (if less || same then x else y) else (if less then y else x), 0⟩

/-- One update of VAMO under a vtype (R246). -/
def VamoOp.result (op : VamoOp) (vt : BitVec 32) (x y : Nat) : Fl Nat :=
  match op with
  | .add => ⟨(x + y) % 2 ^ vtSew vt, 0⟩
  | .min => vamoCmp false vt x y
  | .max => vamoCmp true vt x y
  | .fadd =>
    let f := if vtSew vt = 64 then fp64 else fp32
    roundFl f 0 (sumTerms 0 [f.value x, f.value y])

/-! ## Performing an access -/

/-- Bytes of an access that reads memory: a load or an atomic consumes the poison of its bytes (R493). -/
def State.consumes (s : State) (reads : Bool) (pas : List Nat) : Bool := reads && s.poisoned pas

/-- The stream fields of an entry changed, where it is an access. -/
def VEntry.onHeld (f : Held → Held) (e : VEntry) : VEntry :=
  match e with
  | .access h load mv runs => .access (f h) load mv runs
  | .tile h w fences runs => .tile (f h) w fences runs
  | .vamo h op vt es => .vamo (f h) op vt es
  | .scalar h pas op => .scalar (f h) pas op
  | e => e

/-- What an entry keeps of its past changed: of a convoy by f, of an access to a peer by g (R469). -/
def VEntry.onPast (f : Convoy → Convoy) (g : Undo → Undo) (e : VEntry) : VEntry :=
  match e with
  | .convoy c => .convoy (f c)
  | e => e.onHeld (fun h => { h with undo := h.undo.map g })

/-- The pasts that the pending work of the current thread keeps changed. -/
def State.onPast (s : State) (f : Convoy → Convoy) (g : Undo → Undo) : State :=
  s.onCur (fun t => { t with viq := t.viq.map (fun e => e.onPast f g) })

/-- A value written to register sN by an access that waited: the work dispatched since sees it as its own past. -/
def State.writeLate (s : State) (d : BitVec 5) (v : Word) : State :=
  let set := fun (x : Table Word) => if d = 0#5 then x else Table.set x 0#64 d.toNat v
  (s.writeS d v).onPast (fun c => { c with sregs := set c.sregs }) (fun u => { u with s := set u.s })

/-- The load extension of n bytes. -/
def loadExtend (sx : Bool) (n v : Nat) : Word := if sx then BitVec.ofInt 64 (sgnN (8 * n) v) else w64 v

/-- A scalar access performed on its bytes (R75, R239). LDK reads on the constant path, which may return older writes and which
no access on the general path orders (R78, R215, R216; log 7). -/
def State.doScalar (s : State) (pas : List Nat) (op : ScalarOp) : State :=
  match op with
  | .ldk d =>
    s.writeLate d (w64 (ofBytes (s.readPath .const s.cur.prog.fences s.cur.id (pas.headD 0) pas)))
  | .load d n sx => s.writeLate d (loadExtend sx n (ofBytes (pas.map s.mem.byte)))
  | .store bs _ => s.putBytes pas bs
  | .amo op d n v e =>
    let old := ofBytes (pas.map s.mem.byte)
    let s1 := match amoResult op n old v e with
      | some r => (s.putBytes pas (bytesOf n r.val)).raise r.fl
      | none => s
    s1.writeLate d (amoExtend op n old)

/-- One bit run of a store performed (R194); a component of a grade outside an m register's tag is +0 (R213). -/
def storeRun (v : VRegs) (mv : Bool) (who : Writer) (m : Mem) (r : StoreRun) : Mem :=
  let x := if mv then
      (if (v.mreg r.reg).tag.getLsbD (gradeOf (r.src % 512 / 32)) then bitsAt (v.mreg r.reg).bits.toNat r.src r.len else 0)
    else bitsAt (v.vreg r.reg).toNat r.src r.len
  let old := (m.byte r.pa).toNat
  let mask := maskBits r.bit r.len
  m.write who r.pa (BitVec.ofNat 8 ((old ^^^ (old &&& mask)) ||| (x <<< r.bit)))

/-- The bit runs of a load as register writes, val giving the bits of a run; components of grades outside an m register's
tag take +0 (R212, R322). -/
def runWrites (v : VRegs) (mv : Bool) (val : StoreRun → Nat) (runs : List StoreRun) : List RegWrite :=
  if mv then
    ((runs.map (fun r => r.reg)).eraseDups).map (fun n =>
      let own := fun (r : StoreRun) => (v.mreg n).tag.getLsbD (gradeOf (r.src % 512 / 32))
      let mx := (runs.filter (fun r => r.reg == n)).foldl (fun (a : Nat × Nat) r =>
        (a.1 ||| maskBits r.src r.len, a.2 ||| (if own r then val r <<< r.src else 0))) (0, 0)
      .m n (BitVec.ofNat 32768 mx.1) (BitVec.ofNat 32768 mx.2))
  else gatherV (runs.map (fun r => (r.reg, r.src, r.len, val r)))

/-- The bits of a run in memory. -/
def Mem.runBits (m : Mem) (r : StoreRun) : Nat := bitsAt (m.byte r.pa).toNat r.bit r.len

/-- The bit runs of an access, in order; put writes the registers of a load. -/
def State.doRuns (s : State) (put : List RegWrite → State) (load mv : Bool) (runs : List StoreRun) : State :=
  if load then put (runWrites s.cur.vr mv s.mem.runBits runs)
  else { s with mem := runs.foldl (storeRun s.cur.vr mv s.writer) s.mem }

/-- The bits of a run of element width w as the tile path returns them: the bytes of one element come from one point
(R215, R216; log 7). -/
def State.tileBits (s : State) (fences : Table Nat) (w : Nat) (runs : List StoreRun) (r : StoreRun) : Nat :=
  let elem := fun (r : StoreRun) => (r.reg * 16384 + r.src) / w
  let mine := runs.filter (fun x => elem x == elem r)
  let bytes := s.readPath .tile fences s.cur.id (2 ^ 55 + elem r) (mine.map (fun x => x.pa))
  let b := ((mine.zip bytes).find? (fun e => e.1 == r)).map (fun e => e.2)
  bitsAt (b.getD 0#8).toNat r.bit r.len

/-- The register writes of a tile-path load. -/
def State.tileWrites (s : State) (fences : Table Nat) (w : Nat) (runs : List StoreRun) : List RegWrite :=
  runWrites s.cur.vr false (s.tileBits fences w runs) runs

/-- The updates of VAMO at the distinct addresses in ascending order: each adds up its elements, in their order, and then
memory (R246). An element is its address, its register, its bit there and its bytes. -/
def State.doVamo (s : State) (op : VamoOp) (vt : BitVec 32) (l : List (Nat × Nat × Nat × List Nat)) : State :=
  let w := vtSew vt
  let v := fun (e : Nat × Nat × Nat × List Nat) => bitsAt (s.cur.vr.vreg e.2.1).toNat e.2.2.1 w
  let eas := ((l.map (fun e => e.1)).eraseDups).mergeSort (fun a b => decide (a ≤ b))
  eas.foldl (fun s ea =>
    match l.filter (fun e => e.1 == ea) with
    | [] => s
    | e :: r =>
      let t := r.foldl (fun (t : Fl Nat) x =>
        let y := op.result vt t.val (v x)
        ⟨y.val, t.fl ||| y.fl⟩) ⟨v e, 0⟩
      let z := op.result vt (ofBytes (e.2.2.2.map s.mem.byte)) t.val
      (s.putBytes e.2.2.2 (bytesOf (w / 8) z.val)).raise (t.fl ||| z.fl)) s

/-! ## Accesses that wait -/

/-- What an access does on its bytes; put writes the registers of a vector load. -/
def State.doEntry (s : State) (put : List RegWrite → State) (e : VEntry) : State :=
  match e with
  | .write ws => put ws
  | .access _ load mv runs => s.doRuns put load mv runs
  | .tile _ w fences runs => put (s.tileWrites fences w runs)
  | .vamo _ op vt es => s.doVamo op vt es
  | .scalar _ pas op => s.doScalar pas op
  | .convoy _ => s
  | .reply _ _ => s

/-- The address that an access names, and its stream. -/
def VEntry.held (e : VEntry) : Held := e.holds.getD ⟨0, 0#8, 0#64, 0, none⟩

/-- The current thread's past at its word, for an access to a peer that waits (R260, R467). -/
def State.undoNow (s : State) : Undo :=
  let t := s.cur
  ⟨s.peerTag, t.pc, t.s, t.conf, t.dims, t.loops, t.user.vfirst, t.mat.chk, t.prog.instret, t.prog.last, [], 0⟩

/-- An access put last among the pending work, with when it was dispatched, and for a peer with its past. -/
def State.enqueue (s : State) (e : VEntry) : State :=
  let peer := e.bytes.2.any (fun a => targetOf a == 2)
  let e1 := e.onHeld (fun h => { h with stamp := s.fresh, undo := if peer then some s.undoNow else none })
  s.onCur (fun t => { t with viq := t.viq ++ [e1] })

/-- Does an access of the current thread wait for its turn: behind an access that waits, behind a writer of the registers it
reads, or for an engine (R23, R191, R199, R374)? -/
def State.mustWait (s : State) (e : VEntry) : Bool :=
  s.cur.accessPending e.held.ag e.shared || placesMeet s.cur.busy.2 (e.places s.cur.vr 0).1 || e.bytes.2.any s.owned

/-- An access of the current thread: performed at once, or left to wait. One to a peer that no port reaches waits at its word,
if it need not wait before that (R260, R504). -/
def State.performNow (s : State) (e : VEntry) : Except Stop State :=
  let pas := e.bytes.2
  if s.mustWait e then .ok (s.enqueue e)
  else if pas.any s.cutOff then .error (.wait (.peer s.peerTag))
  else if s.consumes e.bytes.1 pas then .error (.trap { cause := cMachine, addr := e.held.ea })
  else .ok (s.doEntry s.writeRegs e)

/-- The places of a scalar access of the current thread to n bytes at ea (R76). -/
def State.scalarPlace (s : State) (k : Acc) (ea : Word) (n : Nat) : Except Stop (List Nat) :=
  match s.walkReady n n ea with
  | .error e => .error e
  | .ok _ =>
    match s.scalar s.cp s.needU k n ea n with
    | .error c => .error (accessTrap c ea)
    | .ok pas => .ok pas

/-- Every access on the general path that waits stands before a later one of the streams of hold (R237, R255). -/
def holdAll (hold : BitVec 8) (l : List VEntry) : List VEntry :=
  l.map (fun e => if e.general then e.onHeld (fun h => { h with held := h.held ||| hold }) else e)

/-- A scalar access on AG0 (R75, R239): it goes, or waits, at once. acquire: every later access waits behind it (R255);
release: it waits behind every access that waits. -/
def State.scalarAccess (s : State) (k : Acc) (ea : Word) (n : Nat) (acquire release : Bool) (op : ScalarOp) :
    Except Stop State :=
  match s.scalarPlace k ea n with
  | .error e => .error e
  | .ok pas =>
    (if release then s.onCur (fun t => { t with viq := holdAll 1#8 t.viq }) else s).performNow
      (.scalar ⟨0, if acquire then 255#8 else 0#8, ea, 0, none⟩ pas op)

/-- Is a register sN still to be written by a load or an atomic that waits (R111)? -/
def Thread.registerPending (t : Thread) (n : BitVec 5) : Bool :=
  decide (n ≠ 0#5) && t.viq.any (fun e =>
    match e with
    | .scalar _ _ (.load d _ _) => d == n
    | .scalar _ _ (.ldk d) => d == n
    | .scalar _ _ (.amo _ d _ _ _) => d == n
    | _ => false)

/-! ## The registers that a word waits for (R111) -/

/-- The scalar registers that a word reads or writes, but for the writes of QPOP, QCNT and QDRAIN, which supersede older ones: a
word waits until the accesses that wait have written them (R111; log 31). Words that name none of them have none here. -/
def scalarRegs (i : Instr) : List (BitVec 5) :=
  match i with
  | .add d a b _ => [d, a, b]
  | .sub d a b _ => [d, a, b]
  | .and d a b _ => [d, a, b]
  | .or d a b _ => [d, a, b]
  | .xor d a b _ => [d, a, b]
  | .sll d a b _ => [d, a, b]
  | .srl d a b _ => [d, a, b]
  | .sra d a b _ => [d, a, b]
  | .mul d a b _ => [d, a, b]
  | .mulh d a b _ => [d, a, b]
  | .mulhu d a b _ => [d, a, b]
  | .div d a b _ => [d, a, b]
  | .divu d a b _ => [d, a, b]
  | .rem d a b _ => [d, a, b]
  | .remu d a b _ => [d, a, b]
  | .min d a b _ => [d, a, b]
  | .max d a b _ => [d, a, b]
  | .minu d a b _ => [d, a, b]
  | .maxu d a b _ => [d, a, b]
  | .slt d a b _ => [d, a, b]
  | .sltu d a b _ => [d, a, b]
  | .addv d a b _ => [d, a, b]
  | .subv d a b _ => [d, a, b]
  | .clz d a _ => [d, a]
  | .popc d a _ => [d, a]
  | .addi d a _ => [d, a]
  | .andi d a _ => [d, a]
  | .ori d a _ => [d, a]
  | .xori d a _ => [d, a]
  | .slti d a _ => [d, a]
  | .sltiu d a _ => [d, a]
  | .slli d a _ => [d, a]
  | .srli d a _ => [d, a]
  | .srai d a _ => [d, a]
  | .hi d _ => [d]
  | .pcadd d _ => [d]
  | .lb d a _ => [d, a]
  | .lh d a _ => [d, a]
  | .lw d a _ => [d, a]
  | .ld d a _ => [d, a]
  | .lbu d a _ => [d, a]
  | .lhu d a _ => [d, a]
  | .lwu d a _ => [d, a]
  | .ldk d a _ => [d, a]
  | .sb d a _ => [d, a]
  | .sh d a _ => [d, a]
  | .sw d a _ => [d, a]
  | .sd d a _ => [d, a]
  | .beq a b _ => [a, b]
  | .bne a b _ => [a, b]
  | .blt a b _ => [a, b]
  | .bge a b _ => [a, b]
  | .bltu a b _ => [a, b]
  | .bgeu a b _ => [a, b]
  | .jal _ => [31#5]
  | .jalr d a _ => [d, a]
  | .loop0 a _ => [a]
  | .loop1 a _ => [a]
  | .fadd d a b _ _ => [d, a, b]
  | .fsub d a b _ _ => [d, a, b]
  | .fmul d a b _ _ => [d, a, b]
  | .fdiv d a b _ _ => [d, a, b]
  | .fsqrt d a _ _ => [d, a]
  | .fmin d a b _ => [d, a, b]
  | .fmax d a b _ => [d, a, b]
  | .feq d a b _ => [d, a, b]
  | .flt d a b _ => [d, a, b]
  | .fle d a b _ => [d, a, b]
  | .fcvtfi d a _ _ _ => [d, a]
  | .fcvtif d a _ _ _ => [d, a]
  | .fcvtff d a _ _ => [d, a]
  | .fclass d a _ => [d, a]
  | .fma d a b _ _ => [d, a, b]
  | .amoswap d a b _ _ _ => [d, a, b]
  | .amoadd d a b _ _ _ => [d, a, b]
  | .amoand d a b _ _ _ => [d, a, b]
  | .amoor d a b _ _ _ => [d, a, b]
  | .amoxor d a b _ _ _ => [d, a, b]
  | .amomin d a b _ _ _ => [d, a, b]
  | .amomax d a b _ _ _ => [d, a, b]
  | .amominu d a b _ _ _ => [d, a, b]
  | .amomaxu d a b _ _ _ => [d, a, b]
  | .amocas d a b _ _ _ => [d, a, b]
  | .lda d a _ _ => [d, a]
  | .stl a b _ _ => [a, b]
  | .amofadd d a b _ _ _ => [d, a, b]
  | .srr d _ => [d]
  | .srw a _ => [a]
  | .srs d a _ => [d, a]
  | .src d a _ => [d, a]
  | .wfe d a => [d, a]
  | .vtinv a b => [a, b]
  | .ptinv a b => [a, b]
  | .ctxsave d a => [d, a]
  | .ctxload d a => [d, a]
  | .launch d a => [d, a]
  | .launchc d a b => [d, a, b]
  | .lwait d a => [d, a]
  | .lstat d a => [d, a]
  | .hclaim d a => [d, a]
  | .hstat d _ => [d]
  | .hdrain d a _ => [d, a]
  | .ldt _ d a _ => [d, a]
  | .stt _ d a _ => [d, a]
  | .txn _ d a => [d, a]
  | .stqry d a => [d, a]
  | .stload d a b => [d, a, b]
  | .stbind d a => [d, a]
  | .stunbind d _ => [d]
  | .cpy d a b _ _ _ => [d, a, b]
  | .ecwait d a => [d, a]
  | .wbld d a _ _ _ _ _ => [d, a]
  | .acstm d a b _ _ _ => [d, a, b]
  | .acldm d a b _ _ _ => [d, a, b]
  | .attach d a => [d, a]
  | .vld _ a _ _ => [a]
  | .vldStrided _ a b _ _ => [a, b]
  | .vldIndexed _ a _ _ _ => [a]
  | .vldOrd _ a _ _ _ => [a]
  | .vst _ a _ _ => [a]
  | .vstStrided _ a b _ _ => [a, b]
  | .vstIndexed _ a _ _ _ => [a]
  | .vstOrd _ a _ _ _ => [a]
  | .vldff _ a _ _ => [a]
  | .vldm _ a _ _ => [a]
  | .vldb _ a b _ _ => [a, b]
  | .vstm _ a _ _ => [a]
  | .vamoadd _ a _ _ _ => [a]
  | .vamomin _ a _ _ _ => [a]
  | .vamomax _ a _ _ _ => [a]
  | .vamofadd _ a _ _ _ => [a]
  | .spld _ a _ _ => [a]
  | .spst _ a _ _ => [a]
  | .spldu _ a _ => [a]
  | .spstu _ a _ => [a]
  | .vtxn _ a _ _ => [a]
  | .mlcfg d a => [d, a]
  | .mld _ a b _ _ => [a, b]
  | .mldp _ a b _ _ => [a, b]
  | .mst _ a b _ _ => [a, b]
  | .mstp _ a b _ _ => [a, b]
  | .setvl d a b => [d, a, b]
  | .settype d a => [d, a]
  | .vintsVadd _ _ _ b _ => [b]
  | .vintsVsub _ _ _ b _ => [b]
  | .vintsVmul _ _ _ b _ => [b]
  | .vintsVmulh _ _ _ b _ => [b]
  | .vintsVmin _ _ _ b _ => [b]
  | .vintsVmax _ _ _ b _ => [b]
  | .vintsVminu _ _ _ b _ => [b]
  | .vintsVmaxu _ _ _ b _ => [b]
  | .vintsVand _ _ _ b _ => [b]
  | .vintsVor _ _ _ b _ => [b]
  | .vintsVxor _ _ _ b _ => [b]
  | .vintsVsll _ _ _ b _ => [b]
  | .vintsVsrl _ _ _ b _ => [b]
  | .vintsVsra _ _ _ b _ => [b]
  | .vintsVmacc _ _ _ b _ => [b]
  | .vintsVdiv _ _ _ b _ => [b]
  | .vintsVaddsat _ _ _ b _ => [b]
  | .vintsVsubsat _ _ _ b _ => [b]
  | .vfpsVfadd _ _ _ b _ => [b]
  | .vfpsVfsub _ _ _ b _ => [b]
  | .vfpsVfmul _ _ _ b _ => [b]
  | .vfpsVfdiv _ _ _ b _ => [b]
  | .vfpsVfma _ _ _ b _ => [b]
  | .vfpsVfms _ _ _ b _ => [b]
  | .vfpsVfmin _ _ _ b _ => [b]
  | .vfpsVfmax _ _ _ b _ => [b]
  | .vslup _ _ _ b _ => [b]
  | .vsldn _ _ _ b _ => [b]
  | .vbcast _ _ a _ => [a]
  | .vextr _ _ _ b => [b]
  | .vins _ _ a b => [a, b]
  | .mscal _ _ _ b _ _ => [b]
  | _ => []

/-- Does an access that waits still write a register of the word? -/
def Thread.scoreboard (t : Thread) (i : Instr) : Bool := (scalarRegs i).any t.registerPending

/-- The accesses that wait no longer write register sN, since a later word has. -/
def State.supersede (s : State) (n : BitVec 5) : State :=
  s.onCur (fun t => { t with viq := t.viq.map (fun e =>
    match e with
    | .scalar h pas (.load d k sx) => .scalar h pas (.load (if d = n then 0#5 else d) k sx)
    | .scalar h pas (.ldk d) => .scalar h pas (.ldk (if d = n then 0#5 else d))
    | .scalar h pas (.amo op d k v x) => .scalar h pas (.amo op (if d = n then 0#5 else d) k v x)
    | e => e) })

end

end Sys2Proof.Machine
end

