-- ==== Sys2Proof/Machine/Vfp.lean ====
section
/-!
DEFINITION. The effects of VFP and VFPS (05 R170, R171), VCMP (R172 to R174) and VCPX (R182).
-/
namespace Sys2Proof.Machine

/-- What a floating operation reads: the format, vtype.RM, and the encodings of the old destination and operands. -/
structure FpArgs where
  f : Fmt
  rm : Nat
  c : Nat
  a : Nat
  b : Nat

def FpArgs.va (x : FpArgs) : FV := x.f.value x.a
def FpArgs.vb (x : FpArgs) : FV := x.f.value x.b
def FpArgs.vc (x : FpArgs) : FV := x.f.value x.c

def vFadd (x : FpArgs) : Fl Nat := roundFl x.f x.rm (sumTerms x.rm [x.va, x.vb])
def vFsub (x : FpArgs) : Fl Nat := roundFl x.f x.rm (sumTerms x.rm [x.va, x.vb.negate])
def vFmul (x : FpArgs) : Fl Nat := roundFl x.f x.rm (x.va.mul x.vb)
def vFdiv (x : FpArgs) : Fl Nat := roundFl x.f x.rm (x.va.div x.vb)
def vFsqrt (x : FpArgs) : Fl Nat := sqrtOnce x.f x.rm x.va
def vFma (x : FpArgs) : Fl Nat := roundFl x.f x.rm (sumFl x.rm [x.va.mul x.vb, ⟨x.vc, 0⟩])
def vFms (x : FpArgs) : Fl Nat := roundFl x.f x.rm (sumFl x.rm [x.va.mul x.vb, ⟨x.vc.negate, 0⟩])
def vFmin (x : FpArgs) : Fl Nat := fminmax x.f false x.a x.b
def vFmax (x : FpArgs) : Fl Nat := fminmax x.f true x.a x.b

/-- An encoding with its sign bit set as given; a NaN gives the canonical NaN, NV only when signalling (R170). -/
def signedEnc (f : Fmt) (x : Nat) (neg : Bool) : Fl Nat :=
  if (f.value x).isNan then ⟨f.nan, if (f.value x).isSig then fNV else 0⟩
  else ⟨f.signed neg (bitsAt x 0 (f.eb + f.fb)), 0⟩

def vFabs (x : FpArgs) : Fl Nat := signedEnc x.f x.a false
def vFneg (x : FpArgs) : Fl Nat := signedEnc x.f x.a (!bitAt x.a (x.f.eb + x.f.fb))

/-- A floating operation on the active elements (R170). -/
def vfpEff (f : FpArgs → Fl Nat) (c : Convoy) (d a : Nat) (bOf : Nat → Nat) (g : Nat) (s : State) : Eff :=
  let r := s.vr
  let fm := fmtOf (vtFmt c.vtype) c.sew
  let l := (c.active r g).map (fun i => (i, f ⟨fm, vtRm c.vtype, c.elem r d i, c.elem r a i, bOf i⟩))
  .done (c.putFl s d l)

/-- The vector form. -/
def vfpVV (f : FpArgs → Fl Nat) (c : Convoy) (d a b g : BitVec 5) (s : State) : Eff :=
  vfpEff f c d.toNat a.toNat (fun i => c.elem s.vr b.toNat i) g.toNat s

/-- The scalar form: b is the low SEW bits of the captured register, as an encoding (R41). -/
def vfpVS (f : FpArgs → Fl Nat) (c : Convoy) (m : Member) (d a g : BitVec 5) (s : State) : Eff :=
  vfpEff f c d.toNat a.toNat (fun _ => bitsAt m.sb.toNat 0 c.sew) g.toNat s

/-! ## VCMP -/

/-- The conditions of VCMP on an order: less, equal (R40, R172). -/
def condHolds (cond : Nat) (lt eq : Bool) : Bool :=
  match cond with
  | 0 => eq
  | 1 => !eq
  | 2 => lt
  | 3 => !lt
  | 4 => lt || eq
  | _ => !lt && !eq

/-- A floating compare with its NaN cases and flag (R174). -/
def fpCompare (f : Fmt) (cond a b : Nat) : Fl Bool :=
  let x := f.value a
  let y := f.value b
  let nan := x.isNan || y.isNan
  let sig := x.isSig || y.isSig
  let quiet := decide (cond = 0) || decide (cond = 1) || decide (cond = 6)
  let fl := if sig || (nan && !quiet) then fNV else 0
  if cond = 6 then ⟨nan, fl⟩
  else if nan then ⟨decide (cond = 1), fl⟩
  else ⟨condHolds cond (FV.lt x y) (FV.eq x y), 0⟩

/-- VCMP on the active elements (R172). -/
def vcmpEff (cond : Nat) (c : Convoy) (k : BitVec 2) (d a b g : BitVec 5) (s : State) : Eff :=
  let r := s.vr
  let w := c.sew
  let one := fun (i : Nat) =>
    let x := c.elem r a.toNat i
    let y := c.elem r b.toNat i
    match k.toNat with
    | 0 => Fl.mk (condHolds cond (decide (sgnN w x < sgnN w y)) (decide (x = y))) 0
    | 1 => Fl.mk (condHolds cond (decide (x < y)) (decide (x = y))) 0
    | _ => fpCompare (fmtOf (vtFmt c.vtype) w) cond x y
  let l := (c.active r g.toNat).map (fun i => (i, one i))
  .done ((s.applyRegs (predWrite d.toNat (l.map (fun e => (e.1, e.2.val))))).raise (flagsOf (l.map (fun e => e.2))))

/-! ## VCPX -/

/-- A CF32 element as its real and imaginary parts (R119). -/
structure Cx where
  re : FV
  im : FV

def cxOf (x : Nat) : Cx := ⟨fp32.value (bitsAt x 0 32), fp32.value (bitsAt x 32 32)⟩

/-- A part: an exact sum of products, rounded once (R182). -/
def cxPart (rm : Nat) (l : List (Fl FV)) : Fl Nat := roundFl fp32 rm (sumFl rm l)

/-- A product with its sign inverted. -/
def minus (x : Fl FV) : Fl FV := ⟨x.val.negate, x.fl⟩

/-- A complex element from its parts. -/
def cxJoin (re im : Fl Nat) : Fl Nat := ⟨re.val + im.val * 2 ^ 32, re.fl ||| im.fl⟩

def vCmul (rm : Nat) (_ a b : Cx) : Fl Nat :=
  cxJoin (cxPart rm [a.re.mul b.re, minus (a.im.mul b.im)]) (cxPart rm [a.re.mul b.im, a.im.mul b.re])
def vCmac (rm : Nat) (c a b : Cx) : Fl Nat :=
  cxJoin (cxPart rm [⟨c.re, 0⟩, a.re.mul b.re, minus (a.im.mul b.im)])
    (cxPart rm [⟨c.im, 0⟩, a.re.mul b.im, a.im.mul b.re])
def vCmulc (rm : Nat) (_ a b : Cx) : Fl Nat :=
  cxJoin (cxPart rm [a.re.mul b.re, a.im.mul b.im]) (cxPart rm [a.im.mul b.re, minus (a.re.mul b.im)])
def vCabs2 (rm : Nat) (_ a _ : Cx) : Fl Nat := cxJoin (cxPart rm [a.re.mul a.re, a.im.mul a.im]) ⟨0, 0⟩

/-- A complex operation on the active elements (R182). -/
def vcpxEff (f : Nat → Cx → Cx → Cx → Fl Nat) (c : Convoy) (d a b g : BitVec 5) (s : State) : Eff :=
  let r := s.vr
  let l := (c.active r g.toNat).map (fun i =>
    (i, f (vtRm c.vtype) (cxOf (c.elem r d.toNat i)) (cxOf (c.elem r a.toNat i)) (cxOf (c.elem r b.toNat i))))
  .done (c.putFl s d.toNat l)

end Sys2Proof.Machine
end

