-- ==== Sys2Proof/Machine/Vint.lean ====
section
/-!
DEFINITION. The effects of VINT and VINTS (05 R167 to R169): one value per operation, applied element by element.
-/
namespace Sys2Proof.Machine

/-- What an integer operation reads: the element width, whether FMT is INT, vtype.SAT, and the patterns of the old
destination and the two operands. -/
structure IntArgs where
  w : Nat
  int : Bool
  sat : Bool
  c : Nat
  a : Nat
  b : Nat

/-- val() of R167. -/
def IntArgs.val (x : IntArgs) (n : Nat) : Int := if x.int then sgnN x.w n else (bitsAt n 0 x.w : Int)

/-- The range of FMT at w bits. -/
def clampInt (int : Bool) (w : Nat) (v : Int) : Nat :=
  wrapN w (if v < intMin int w then intMin int w else if intMax int w < v then intMax int w else v)

/-- "fit" of R167. -/
def IntArgs.fit (x : IntArgs) (v : Int) : Nat := if x.sat then clampInt x.int x.w v else wrapN x.w v

/-- The shift amount. -/
def IntArgs.sh (x : IntArgs) : Nat := bitsAt x.b 0 x.w % x.w

def vAdd (x : IntArgs) : Nat := x.fit (x.val x.a + x.val x.b)
def vSub (x : IntArgs) : Nat := x.fit (x.val x.a - x.val x.b)
def vMul (x : IntArgs) : Nat := x.fit (x.val x.a * x.val x.b)
def vMulh (x : IntArgs) : Nat := wrapN x.w ((x.val x.a * x.val x.b) / 2 ^ x.w)
def vMin (x : IntArgs) : Nat := if sgnN x.w x.b < sgnN x.w x.a then x.b else x.a
def vMax (x : IntArgs) : Nat := if sgnN x.w x.a < sgnN x.w x.b then x.b else x.a
def vMinu (x : IntArgs) : Nat := min x.a x.b
def vMaxu (x : IntArgs) : Nat := max x.a x.b
def vAnd (x : IntArgs) : Nat := x.a &&& x.b
def vOr (x : IntArgs) : Nat := x.a ||| x.b
def vXor (x : IntArgs) : Nat := x.a ^^^ x.b
def vSll (x : IntArgs) : Nat := (x.a <<< x.sh) % 2 ^ x.w
def vSrl (x : IntArgs) : Nat := x.a >>> x.sh
def vSra (x : IntArgs) : Nat := wrapN x.w (sgnN x.w x.a / 2 ^ x.sh)
def vMacc (x : IntArgs) : Nat := x.fit (x.val x.c + x.val x.a * x.val x.b)
/-- VDIV with its corners (R168). -/
def vDiv (x : IntArgs) : Nat :=
  if x.val x.b = 0 then 2 ^ x.w - 1
  else
    let q := Int.tdiv (x.val x.a) (x.val x.b)
    if x.int && decide (intMax true x.w < q) then (if x.sat then wrapN x.w (intMax true x.w) else wrapN x.w q)
    else wrapN x.w q
def vAddsat (x : IntArgs) : Nat := clampInt x.int x.w (x.val x.a + x.val x.b)
def vSubsat (x : IntArgs) : Nat := clampInt x.int x.w (x.val x.a - x.val x.b)

/-- An integer operation on the active elements (R165, R167); bOf gives operand b of element i. -/
def vintEff (f : IntArgs → Nat) (c : Convoy) (d a : Nat) (bOf : Nat → Nat) (g : Nat) (s : State) : Eff :=
  let r := s.vr
  let l := (c.active r g).map (fun i =>
    (i, f ⟨c.sew, decide (vtFmt c.vtype = 0), vtSat c.vtype, c.elem r d i, c.elem r a i, bOf i⟩))
  .done (c.put s d l)

/-- The vector form: operand b is a group. -/
def vintVV (f : IntArgs → Nat) (c : Convoy) (d a b g : BitVec 5) (s : State) : Eff :=
  vintEff f c d.toNat a.toNat (fun i => c.elem s.vr b.toNat i) g.toNat s

/-- The scalar form: operand b is the low SEW bits of the captured register (R41). -/
def vintVS (f : IntArgs → Nat) (c : Convoy) (m : Member) (d a g : BitVec 5) (s : State) : Eff :=
  vintEff f c d.toNat a.toNat (fun _ => bitsAt m.sb.toNat 0 c.sew) g.toNat s

end Sys2Proof.Machine
end

