-- ==== Sys2Proof/Machine/Vperm.lean ====
section
/-!
DEFINITION. The effects of PRED (05 R175), PERM (R176) and VRED (R178 to R181).
-/
namespace Sys2Proof.Machine

/-! ## PRED -/

/-- A predicate operation: the bit of each active element from its place and the source predicates; f is the lowest
active element with pA set. -/
def predEff (bit : Nat → BitVec 4096 → BitVec 4096 → Option Nat → Bool) (c : Convoy) (d a b g : BitVec 5)
    (s : State) : Eff :=
  let r := s.vr
  let act := c.active r g.toNat
  let pa := r.preg a.toNat
  let pb := r.preg b.toNat
  let f := act.find? (fun i => pa.getLsbD i)
  .done (s.applyRegs (predWrite d.toNat (act.map (fun i => (i, bit i pa pb f)))))

def pAnd (i : Nat) (pa pb : BitVec 4096) (_ : Option Nat) : Bool := pa.getLsbD i && pb.getLsbD i
def pOr (i : Nat) (pa pb : BitVec 4096) (_ : Option Nat) : Bool := pa.getLsbD i || pb.getLsbD i
def pXor (i : Nat) (pa pb : BitVec 4096) (_ : Option Nat) : Bool := pa.getLsbD i != pb.getLsbD i
def pAndn (i : Nat) (pa pb : BitVec 4096) (_ : Option Nat) : Bool := pa.getLsbD i && !pb.getLsbD i
def pNot (i : Nat) (pa _ : BitVec 4096) (_ : Option Nat) : Bool := !pa.getLsbD i
def pLead (i : Nat) (_ _ : BitVec 4096) (f : Option Nat) : Bool := f == some i
def pThru (i : Nat) (_ _ : BitVec 4096) (f : Option Nat) : Bool :=
  match f with
  | none => true
  | some k => decide (i ≤ k)
def pPre (i : Nat) (_ _ : BitVec 4096) (f : Option Nat) : Bool :=
  match f with
  | none => true
  | some k => decide (i < k)
def pSet (_ : Nat) (_ _ : BitVec 4096) (_ : Option Nat) : Bool := true
def pClr (_ : Nat) (_ _ : BitVec 4096) (_ : Option Nat) : Bool := false

/-- PGETF: the fmask captured at dispatch (R205). -/
def pGetf (m : Member) (i : Nat) (_ _ : BitVec 4096) (_ : Option Nat) : Bool := m.fmask.getLsbD i

/-- PCNT: the count of active elements with pA set, appended to queue d. -/
def effPcnt (c : Convoy) (d a g : BitVec 5) (s : State) : Eff :=
  let pa := s.vr.preg a.toNat
  pushQ s d.toNat (w64 ((c.active s.vr g.toNat).filter (fun i => pa.getLsbD i)).length)

/-- PANY: 1 where some active element has pA set. -/
def effPany (c : Convoy) (d a g : BitVec 5) (s : State) : Eff :=
  let pa := s.vr.preg a.toNat
  pushQ s d.toNat (w64 (b2n ((c.active s.vr g.toNat).any (fun i => pa.getLsbD i))))

/-! ## PERM -/

/-- The active elements below vl written from a choice of value, none leaving the element undisturbed. -/
def permEff (f : VRegs → Nat → Option Nat) (c : Convoy) (d g : BitVec 5) (s : State) : Eff :=
  let r := s.vr
  .done (c.put s d.toNat ((c.active r g.toNat).filterMap (fun i => (f r i).map (fun v => (i, v)))))

/-- A slide up by off (R176). -/
def slideUp (c : Convoy) (a : BitVec 5) (off : Nat) (r : VRegs) (i : Nat) : Option Nat :=
  if off ≤ i then some (c.elem r a.toNat (i - off)) else none

/-- A slide down by off. -/
def slideDown (c : Convoy) (a : BitVec 5) (off : Nat) (r : VRegs) (i : Nat) : Option Nat :=
  if i + off < c.vl then some (c.elem r a.toNat (i + off)) else none

def effVslup (c : Convoy) (m : Member) (d a g : BitVec 5) (s : State) : Eff :=
  permEff (slideUp c a m.sb.toNat) c d g s
def effVsldn (c : Convoy) (m : Member) (d a g : BitVec 5) (s : State) : Eff :=
  permEff (slideDown c a m.sb.toNat) c d g s
def effVslupi (c : Convoy) (d a k g : BitVec 5) (s : State) : Eff := permEff (slideUp c a k.toNat) c d g s
def effVsldni (c : Convoy) (d a k g : BitVec 5) (s : State) : Eff := permEff (slideDown c a k.toNat) c d g s

def effVperm (c : Convoy) (d a b g : BitVec 5) (s : State) : Eff :=
  permEff (fun r i =>
    let x := c.elem r b.toNat i
    some (if x < c.vlmax then c.elem r a.toNat x else 0)) c d g s

/-- The elements below vl that a predicate selects, ascending. -/
def selected (c : Convoy) (r : VRegs) (b : BitVec 5) : List Nat := activeOf (r.preg b.toNat) c.vl

def effVcomp (c : Convoy) (d a b : BitVec 5) (s : State) : Eff :=
  let r := s.vr
  let sel := selected c r b
  .done (c.put s d.toNat ((List.range sel.length).zip (sel.map (fun i => c.elem r a.toNat i))))

def effVexpd (c : Convoy) (d a b : BitVec 5) (s : State) : Eff :=
  let r := s.vr
  let sel := selected c r b
  .done (c.put s d.toNat (sel.zip ((List.range sel.length).map (fun j => c.elem r a.toNat j))))

def effVmerge (c : Convoy) (d a b g : BitVec 5) (s : State) : Eff :=
  let r := s.vr
  let p := r.preg g.toNat
  .done (c.put s d.toNat ((List.range c.vl).map (fun i =>
    (i, if p.getLsbD i then c.elem r a.toNat i else c.elem r b.toNat i))))

def effVbcast (c : Convoy) (m : Member) (d g : BitVec 5) (s : State) : Eff :=
  permEff (fun _ _ => some (bitsAt m.sa.toNat 0 c.sew)) c d g s

/-- VEXTR: sign-extended under FMT INT, zero-extended otherwise; 0 beyond VLMAX (R176). -/
def effVextr (c : Convoy) (m : Member) (d a : BitVec 5) (s : State) : Eff :=
  let x := m.sb.toNat
  let v := if x < c.vlmax then
      let e := c.elem s.vr a.toNat x
      if vtFmt c.vtype = 0 then w64 (wrapN 64 (sgnN c.sew e)) else w64 e
    else 0#64
  pushQ s d.toNat v

def effVins (c : Convoy) (m : Member) (d : BitVec 5) (s : State) : Eff :=
  if m.sb.toNat < c.vl then .done (c.put s d.toNat [(m.sb.toNat, bitsAt m.sa.toNat 0 c.sew)]) else .done s

def effViota (c : Convoy) (d a g : BitVec 5) (s : State) : Eff :=
  let pa := s.vr.preg a.toNat
  let act := c.active s.vr g.toNat
  permEff (fun _ i => some ((act.filter (fun j => decide (j < i) && pa.getLsbD j)).length % 2 ^ c.sew)) c d g s

def effVid (c : Convoy) (d g : BitVec 5) (s : State) : Eff := permEff (fun _ i => some (i % 2 ^ c.sew)) c d g s

/-! ## VRED -/

/-- The values of the active elements of a group. -/
def redElems (c : Convoy) (a g : BitVec 5) (s : State) : List Nat :=
  (c.active s.vr g.toNat).map (fun i => c.elem s.vr a.toNat i)

/-- val() of an element under FMT. -/
def redVal (c : Convoy) (x : Nat) : Int := if vtFmt c.vtype = 0 then sgnN c.sew x else (x : Int)

def effVredsum (c : Convoy) (d a g : BitVec 5) (s : State) : Eff :=
  pushQ s d.toNat (w64 (wrapN 64 ((redElems c a g s).foldl (fun t x => t + redVal c x) 0)))

def effVredmin (c : Convoy) (d a g : BitVec 5) (s : State) : Eff :=
  let top := intMax (decide (vtFmt c.vtype = 0)) c.sew
  pushQ s d.toNat (w64 (wrapN 64 ((redElems c a g s).foldl (fun t x => min t (redVal c x)) top)))

def effVredmax (c : Convoy) (d a g : BitVec 5) (s : State) : Eff :=
  let bot := intMin (decide (vtFmt c.vtype = 0)) c.sew
  pushQ s d.toNat (w64 (wrapN 64 ((redElems c a g s).foldl (fun t x => max t (redVal c x)) bot)))

/-- A queue entry with the flags of its computation; neither where the queue is full. -/
def pushFl (s : State) (k : Nat) (v : Fl Nat) : Eff :=
  match pushQ s k (w64 v.val) with
  | .done s' => .done (s'.raise v.fl)
  | e => e

/-- A NaN made canonical (R180). -/
def canonical (f : Fmt) (x : Fl Nat) : Fl Nat :=
  if (f.value x.val).isNan then ⟨f.nan, x.fl ||| (if (f.value x.val).isSig then fNV else 0)⟩ else x

/-- One rounded addition of a reduction (R128). -/
def addOnce (f : Fmt) (rm : Nat) (a b : Fl Nat) : Fl Nat :=
  let r := roundFl f rm (sumTerms rm [f.value a.val, f.value b.val])
  ⟨r.val, a.fl ||| b.fl ||| r.fl⟩

/-- The ascending chain (R128). -/
def chainSum (f : Fmt) (rm : Nat) (l : List Nat) : Fl Nat :=
  match l with
  | [] => ⟨0, 0⟩
  | x :: r => r.foldl (fun t y => addOnce f rm t ⟨y, 0⟩) ⟨x, 0⟩

/-- One level of the pairwise tree (R129): an empty place passes its partner through. -/
def treeLevel (f : Fmt) (rm : Nat) : List (Option (Fl Nat)) → List (Option (Fl Nat))
  | none :: b :: r => b :: treeLevel f rm r
  | some a :: none :: r => some a :: treeLevel f rm r
  | some a :: some b :: r => some (addOnce f rm a b) :: treeLevel f rm r
  | l => l

/-- The tree over 2^n places. -/
def treeSum (f : Fmt) (rm : Nat) : Nat → List (Option (Fl Nat)) → Option (Fl Nat)
  | 0, l => l.headD none
  | n + 1, l => treeSum f rm n (treeLevel f rm l)

/-- The smallest n with vl ≤ 2^n. -/
def log2Up (n : Nat) : Nat := if n ≤ 1 then 0 else Nat.log2 (n - 1) + 1

def effVfredo (c : Convoy) (d a g : BitVec 5) (s : State) : Eff :=
  let f := fmtOf (vtFmt c.vtype) c.sew
  pushFl s d.toNat (canonical f (chainSum f (vtRm c.vtype) (redElems c a g s)))

def effVfredt (c : Convoy) (d a g : BitVec 5) (s : State) : Eff :=
  let f := fmtOf (vtFmt c.vtype) c.sew
  let p := s.vr.preg g.toNat
  let n := log2Up c.vl
  let leaf := fun i => if decide (i < c.vl) && p.getLsbD i then some (Fl.mk (c.elem s.vr a.toNat i) 0) else none
  let r := (treeSum f (vtRm c.vtype) n ((List.range (2 ^ n)).map leaf)).getD ⟨0, 0⟩
  pushFl s d.toNat (canonical f r)

/-- fmin or fmax over the active elements (R179, R180). -/
def redMinMax (f : Fmt) (isMax : Bool) (l : List Nat) : Fl Nat :=
  match l with
  | [] => ⟨f.signed isMax f.infEnc, 0⟩
  | x :: r => r.foldl (fun t y =>
      let v := fminmax f isMax t.val y
      Fl.mk v.val (t.fl ||| v.fl)) ⟨x, 0⟩

def effVfredmin (c : Convoy) (d a g : BitVec 5) (s : State) : Eff :=
  let f := fmtOf (vtFmt c.vtype) c.sew
  pushFl s d.toNat (canonical f (redMinMax f false (redElems c a g s)))

def effVfredmax (c : Convoy) (d a g : BitVec 5) (s : State) : Eff :=
  let f := fmtOf (vtFmt c.vtype) c.sew
  pushFl s d.toNat (canonical f (redMinMax f true (redElems c a g s)))

end Sys2Proof.Machine
end

