-- ==== Sys2Proof/Machine/Eside.lean ====
section
/-!
DEFINITION. The E-side: the effect of each E-side word, the framing and dispatch of convoys
(02 R43 to R46), and the turns of the pending work (01 R14 to R16; 05 R159).
-/
namespace Sys2Proof.Machine

noncomputable section

/-- The effect of an E-side word as member m of convoy v. -/
def effect (i : Instr) (v : Convoy) (m : Member) (s : State) : Eff :=
  match i with
  | .vadd _ d a b g => vintVV vAdd v d a b g s
  | .vsub _ d a b g => vintVV vSub v d a b g s
  | .vmul _ d a b g => vintVV vMul v d a b g s
  | .vmulh _ d a b g => vintVV vMulh v d a b g s
  | .vmin _ d a b g => vintVV vMin v d a b g s
  | .vmax _ d a b g => vintVV vMax v d a b g s
  | .vminu _ d a b g => vintVV vMinu v d a b g s
  | .vmaxu _ d a b g => vintVV vMaxu v d a b g s
  | .vand _ d a b g => vintVV vAnd v d a b g s
  | .vor _ d a b g => vintVV vOr v d a b g s
  | .vxor _ d a b g => vintVV vXor v d a b g s
  | .vsll _ d a b g => vintVV vSll v d a b g s
  | .vsrl _ d a b g => vintVV vSrl v d a b g s
  | .vsra _ d a b g => vintVV vSra v d a b g s
  | .vmacc _ d a b g => vintVV vMacc v d a b g s
  | .vdiv _ d a b g => vintVV vDiv v d a b g s
  | .vaddsat _ d a b g => vintVV vAddsat v d a b g s
  | .vsubsat _ d a b g => vintVV vSubsat v d a b g s
  | .vintsVadd _ d a _ g => vintVS vAdd v m d a g s
  | .vintsVsub _ d a _ g => vintVS vSub v m d a g s
  | .vintsVmul _ d a _ g => vintVS vMul v m d a g s
  | .vintsVmulh _ d a _ g => vintVS vMulh v m d a g s
  | .vintsVmin _ d a _ g => vintVS vMin v m d a g s
  | .vintsVmax _ d a _ g => vintVS vMax v m d a g s
  | .vintsVminu _ d a _ g => vintVS vMinu v m d a g s
  | .vintsVmaxu _ d a _ g => vintVS vMaxu v m d a g s
  | .vintsVand _ d a _ g => vintVS vAnd v m d a g s
  | .vintsVor _ d a _ g => vintVS vOr v m d a g s
  | .vintsVxor _ d a _ g => vintVS vXor v m d a g s
  | .vintsVsll _ d a _ g => vintVS vSll v m d a g s
  | .vintsVsrl _ d a _ g => vintVS vSrl v m d a g s
  | .vintsVsra _ d a _ g => vintVS vSra v m d a g s
  | .vintsVmacc _ d a _ g => vintVS vMacc v m d a g s
  | .vintsVdiv _ d a _ g => vintVS vDiv v m d a g s
  | .vintsVaddsat _ d a _ g => vintVS vAddsat v m d a g s
  | .vintsVsubsat _ d a _ g => vintVS vSubsat v m d a g s
  | .vfadd _ d a b g => vfpVV vFadd v d a b g s
  | .vfsub _ d a b g => vfpVV vFsub v d a b g s
  | .vfmul _ d a b g => vfpVV vFmul v d a b g s
  | .vfdiv _ d a b g => vfpVV vFdiv v d a b g s
  | .vfsqrt _ d a g => vfpVV vFsqrt v d a a g s
  | .vfma _ d a b g => vfpVV vFma v d a b g s
  | .vfms _ d a b g => vfpVV vFms v d a b g s
  | .vfmin _ d a b g => vfpVV vFmin v d a b g s
  | .vfmax _ d a b g => vfpVV vFmax v d a b g s
  | .vfabs _ d a g => vfpVV vFabs v d a a g s
  | .vfneg _ d a g => vfpVV vFneg v d a a g s
  | .vfpsVfadd _ d a _ g => vfpVS vFadd v m d a g s
  | .vfpsVfsub _ d a _ g => vfpVS vFsub v m d a g s
  | .vfpsVfmul _ d a _ g => vfpVS vFmul v m d a g s
  | .vfpsVfdiv _ d a _ g => vfpVS vFdiv v m d a g s
  | .vfpsVfma _ d a _ g => vfpVS vFma v m d a g s
  | .vfpsVfms _ d a _ g => vfpVS vFms v m d a g s
  | .vfpsVfmin _ d a _ g => vfpVS vFmin v m d a g s
  | .vfpsVfmax _ d a _ g => vfpVS vFmax v m d a g s
  | .vcmpEq _ d a b g k => vcmpEff 0 v k d a b g s
  | .vcmpNe _ d a b g k => vcmpEff 1 v k d a b g s
  | .vcmpLt _ d a b g k => vcmpEff 2 v k d a b g s
  | .vcmpGe _ d a b g k => vcmpEff 3 v k d a b g s
  | .vcmpLe _ d a b g k => vcmpEff 4 v k d a b g s
  | .vcmpGt _ d a b g k => vcmpEff 5 v k d a b g s
  | .vcmpUn _ d a b g => vcmpEff 6 v 2#2 d a b g s
  | .pand _ d a b g => predEff pAnd v d a b g s
  | .por _ d a b g => predEff pOr v d a b g s
  | .pxor _ d a b g => predEff pXor v d a b g s
  | .pandn _ d a b g => predEff pAndn v d a b g s
  | .pnot _ d a g => predEff pNot v d a 0#5 g s
  | .plead _ d a g => predEff pLead v d a 0#5 g s
  | .pthru _ d a g => predEff pThru v d a 0#5 g s
  | .ppre _ d a g => predEff pPre v d a 0#5 g s
  | .pcnt _ d a g => effPcnt v d a g s
  | .pany _ d a g => effPany v d a g s
  | .pset _ d g => predEff pSet v d 0#5 0#5 g s
  | .pclr _ d g => predEff pClr v d 0#5 0#5 g s
  | .pgetf _ d g => predEff (pGetf m) v d 0#5 0#5 g s
  | .vslup _ d a _ g => effVslup v m d a g s
  | .vsldn _ d a _ g => effVsldn v m d a g s
  | .vslupi _ d a b g => effVslupi v d a b g s
  | .vsldni _ d a b g => effVsldni v d a b g s
  | .vperm _ d a b g => effVperm v d a b g s
  | .vcomp _ d a b => effVcomp v d a b s
  | .vexpd _ d a b => effVexpd v d a b s
  | .vmerge _ d a b g => effVmerge v d a b g s
  | .vbcast _ d _ g => effVbcast v m d g s
  | .vextr _ d a _ => effVextr v m d a s
  | .vins _ d _ _ => effVins v m d s
  | .viota _ d a g => effViota v d a g s
  | .vid _ d g => effVid v d g s
  | .vredsum _ d a g => effVredsum v d a g s
  | .vredmin _ d a g => effVredmin v d a g s
  | .vredmax _ d a g => effVredmax v d a g s
  | .vfredo _ d a g => effVfredo v d a g s
  | .vfredt _ d a g => effVfredt v d a g s
  | .vfredmin _ d a g => effVfredmin v d a g s
  | .vfredmax _ d a g => effVfredmax v d a g s
  | .vcmul _ d a b g => vcpxEff vCmul v d a b g s
  | .vcmac _ d a b g => vcpxEff vCmac v d a b g s
  | .vcmulc _ d a b g => vcpxEff vCmulc v d a b g s
  | .vcabs2 _ d a g => vcpxEff vCabs2 v d a a g s
  | .vcvt _ d a e g f => effVcvt v d a e g f s
  | .vscale _ d a b g => effVscale v d a b g s
  | .vqmax _ d a g => effVqmax v d a g s
  | .mgp _ d a b g p => effMgp v d a b g p s
  | .mwdg _ d a b g p => effMwdg v d a b g p s
  | .mdot _ d a b g p => effMdot v d a b g p s
  | .mlct _ d a b g p => effMlct v d a b g p s
  | .mjoin _ d a b g p => effMjoin v d a b g p s
  | .msand _ d a b g p => effMsand v d a b g p s
  | .mcomm _ d a b g p => effMcomm v d a b g p s
  | .mrev _ d a g p => effMrev v d a g p s
  | .mdual _ d a g p => effMdual v d a g p s
  | .mgrd _ d a b g p => effMgrd v d a b g p s
  | .mnrm2 _ d a g p => effMnrm2 v d a g p s
  | .mnrmi _ d a g p => effMnrmi v d a g p s
  | .mnormz _ d a g p => effMnormz v d a g p s
  | .mexpb _ d a g p => effMexpb v d a g p s
  | .mlogm _ d a g p => effMlogm v d a g p s
  | .mmov _ d a g p => effMmov v d a g p s
  | .msetm _ d b => effMsetm v d b s
  | .mgetm _ d a => effMgetm v d a s
  | .mclean _ d a => effMclean v d a s
  | .mfromv _ d a b g p => effMfromv v d a b g p s
  | .mtov _ d a b g => effMtov v d a b g s
  | .madd _ d a b g p => effMadd v d a b g p s
  | .msub _ d a b g p => effMsub v d a b g p s
  | .mscal _ d a _ g p => effMscal v m d a g p s
  | .mconj _ d a g p => effMconj v d a g p s
  | .minvol _ d a g p => effMinvol v d a g p s
  | .mxac _ d a l h _ _ => mxacEff false v m d a l h s
  | .mxacs _ d a l h _ _ => mxacEff true v m d a l h s
  | .mzero _ d _ _ => effMzero v d s
  | .acld _ d a _ _ => effAcld v d a s
  | .acst _ d a _ _ => effAcst v d a s
  | .mchk _ d _ _ _ => effMchk d s
  | .vtok _ _ _ => .done s
  | _ => .done s

/-! ## Checks at dispatch (R164, R173) -/

/-- The current thread's vtype. -/
def State.vt (s : State) : BitVec 32 := s.cur.conf.vtype

/-- INT or UINT. -/
def vintLegal (vt : BitVec 32) : Bool := isInt (vtFmt vt)
/-- FP or BF16. -/
def vfpLegal (vt : BitVec 32) : Bool := wide (vtFmt vt)
/-- CF32 alone. -/
def vcpxLegal (vt : BitVec 32) : Bool := decide (vtFmt vt = 8) && decide (vtSew vt = 64)
/-- VCMP by its kind. -/
def vcmpLegal (vt : BitVec 32) (k : BitVec 2) : Bool := if k = 2#2 then wide (vtFmt vt) else isInt (vtFmt vt)

/-- The MX words that need rows (R395). -/
def needsRows (i : Instr) : Bool :=
  match i with
  | .mxac _ _ _ _ _ _ _ => true
  | .mxacs _ _ _ _ _ _ _ => true
  | .mzero _ _ _ _ => true
  | .acld _ _ _ _ _ => true
  | .acst _ _ _ _ _ => true
  | _ => false

/-- The idempotence rule over the (reads, writes) of the members in order (R45); seen is what earlier members read. -/
def idempotent (seen : List Nat) : List (List Nat × List Nat) → Bool
  | [] => true
  | (r, w) :: rest => !meet w seen && (rest.isEmpty || !meet w r) && idempotent (seen ++ r) rest

/-! ## Tokens (R375, R376, R378) -/

/-- Tokens present in a FIFO. -/
def Tokens.get (t : Tokens) (f : Fifo) : Nat :=
  match f with
  | .lsvx => t.lsvx
  | .vxls => t.vxls
  | .lsmx => t.lsmx
  | .mxls => t.mxls

/-- A FIFO with a count. -/
def Tokens.put (t : Tokens) (f : Fifo) (n : Nat) : Tokens :=
  match f with
  | .lsvx => { t with lsvx := n }
  | .vxls => { t with vxls := n }
  | .lsmx => { t with lsmx := n }
  | .mxls => { t with mxls := n }

/-- W and S of a word with tokens, and the FIFOs they pop and push. -/
def tokensOf (i : Instr) : Bool × Bool × Fifo × Fifo :=
  let mx := fun (w s : BitVec 1) => (w == 1#1, s == 1#1, Fifo.lsmx, Fifo.mxls)
  match i with
  | .vtok _ w s => (w == 1#1, s == 1#1, .lsvx, .vxls)
  | .mxac _ _ _ _ _ w s => mx w s
  | .mxacs _ _ _ _ _ w s => mx w s
  | .mzero _ _ w s => mx w s
  | .acld _ _ _ w s => mx w s
  | .acst _ _ _ w s => mx w s
  | .mchk _ _ _ w s => mx w s
  | _ => (false, false, .lsvx, .vxls)

/-- The tokens of a member whose other conditions hold: the pop, unless an earlier execution popped (R46), and the
reservation. None while it waits. -/
def takeTokens (v : Convoy) (i : Instr) (s : State) : Option (Convoy × State) :=
  let k := tokensOf i
  let need := k.1 && !v.popped.contains v.done
  let have_ := s.cur.tok.get k.2.2.1
  let full := k.2.1 && decide (16 ≤ s.cur.tok.get k.2.2.2 + v.pushes.count k.2.2.2)
  if (need && decide (have_ = 0)) || full then none
  else
    some ({ v with
        popped := if need then v.popped ++ [v.done] else v.popped
        pushes := if k.2.1 then v.pushes ++ [k.2.2.2] else v.pushes },
      if need then s.onCur (fun t => { t with tok := t.tok.put k.2.2.1 (have_ - 1) }) else s)

/-! ## Running a convoy (R46, R468) -/

/-- Queue entries that were removed put back at their heads. -/
def unpop (l : List (Nat × Word)) (q : Table (List Word)) : Table (List Word) :=
  l.foldr (fun e q => Table.set q [] e.1 (e.2 :: Table.get q [] e.1)) q

/-- A trap in a convoy: later words leave no trace, and the trap is taken at the convoy's first word. Queue entries that later
words removed come back to the head; where an earlier convoy has filled the queue meanwhile it then holds more than the 16 of R99
(DESIGN CHOICE, log 12). -/
def eTrap (v : Convoy) (x : Trap) (s : State) : State :=
  let q := unpop v.pops s.cur.q
  let s1 := s.onCur (fun t =>
    { t with
      pc := v.pc
      s := v.sregs
      q := q
      loops := v.loops
      conf := { t.conf with vl := v.vl, vtype := v.vtype }
      mat := { t.mat with chk := v.chk }
      viq := []
      framing := none
      prog := { t.prog with
        instret := v.instret
        last := v.last
        wpops := Table.set t.prog.wpops none t.level (if v.popped.isEmpty then none else some (v.pc, v.popped)) } })
  takeTrap s1 { x with eside := true, epc := some v.pc }

/-- What running the rest of a convoy comes to. -/
inductive Run where
  | retired (v : Convoy) (s : State)
  | blocked (v : Convoy) (s : State)
  | trapped (s : State)

/-- The members of a convoy from the first that has not executed. A member waits for its tokens before it issues, and pops
them once its checks have passed (R376, R403). -/
def runMembers : List Member → Convoy → State → Run
  | [], v, s => .retired v s
  | m :: r, v, s =>
    if (takeTokens v m.instr s).isNone then .blocked v s
    else
      match effect m.instr v m s with
      | .block => .blocked v s
      | .trap x => .trapped (eTrap v x s)
      | .done s' =>
        match takeTokens v m.instr s' with
        | none => .blocked v s
        | some (v1, s1) => runMembers r { v1 with done := v1.done + 1 } s1
      | .after x s' =>
        match takeTokens v m.instr s' with
        | none => .blocked v s
        | some (v1, s1) => .trapped (eTrap v1 x s1)

/-- Entry k of the pending work leaves it: commands dispatched after it have one entry fewer before them (R410). -/
def State.leaveViq (k : Nat) (s : State) : State :=
  { s with
    cur := { s.cur with viq := s.cur.viq.eraseIdx k }
    cmds := s.cmds.map (fun c =>
      if c.thread = s.cur.id ∧ k < c.ahead then { c with ahead := c.ahead - 1 } else c) }

/-- Entry k of the pending work replaced. -/
def State.setEntry (k : Nat) (e : VEntry) (s : State) : State := s.onCur (fun t => { t with viq := t.viq.set k e })

/-- A convoy, entry k, retires: its tokens are pushed and its words counted (R376). -/
def retire (k : Nat) (v : Convoy) (s : State) : State :=
  let n := v.members.length
  (((s.leaveViq k).raise v.late).onPast (fun c => { c with instret := c.instret + w64 n })
      (fun u => { u with instret := u.instret + w64 n })).onCur (fun t =>
    { t with
      tok := v.pushes.foldl (fun k f => k.put f (k.get f + 1)) t.tok
      place := { t.place with ran := true }
      prog := { t.prog with instret := t.prog.instret + w64 n } })

/-- What the turn of an entry of the pending work comes to: it stays and later ones may go, it has left, or nothing goes on. -/
inductive Took where
  | stays (s : State)
  | leaves (s : State)
  | ends (s : State)

/-- Can an entry of the pending work take back what later words do: a convoy, or an access to a peer? -/
def VEntry.keeps (e : VEntry) : Bool :=
  match e with
  | .convoy _ => true
  | e => e.undo.isSome

/-- Does a convoy wait behind earlier work: convoys, which issue in order; an access to a peer that may fail (R467); or work on
groups that it reads or writes (R159)? -/
def convoyHeld (r : VRegs) (before : List VEntry) (v : Convoy) : Bool :=
  before.any VEntry.keeps ||
  (let b := busyPlaces r before
   placesBefore b ((VEntry.convoy v).places r b.2))

/-- Does an access wait for its turn: behind earlier accesses (R229, R230, R237), for the registers that it sends (R159), or for an
engine whose command came before it (R374)? -/
def State.accessHeld (s : State) (before : List VEntry) (e : VEntry) : Bool :=
  before.any (fun x => x.precedes e.held.ag e.shared) ||
    placesMeet (busyPlaces s.cur.vr before).2 (e.places s.cur.vr 0).1 ||
    e.bytes.2.any (s.ownedAt e.held.stamp)

/-- The request tags of the accesses of the current thread whose turn has come but that no port serves (R260, R504). -/
def State.cutTags (s : State) : List Nat :=
  s.cur.viq.zipIdx.flatMap (fun x =>
    match x.1.undo with
    | some u => if x.1.bytes.2.any s.cutOff && !s.accessHeld (s.cur.viq.take x.2) x.1 then [u.tag] else []
    | none => [])

/-- Register writes, entry k, apply where no earlier work holds their groups (R159). -/
def takeWrite (k : Nat) (before : List VEntry) (ws : List RegWrite) (s : State) : Took :=
  let b := busyPlaces s.cur.vr before
  let x := partWrites (b.1 ||| b.2) (ws.map (RegWrite.tagged s.cur.vr))
  let s1 := s.applyRegs x.1
  if x.2.isEmpty then .leaves (s1.leaveViq k) else .stays (s1.setEntry k (.write x.2))

/-- An access, entry k, is performed. A read of poison leaves its destination and raises MACHINE_CHECK (R493); the data of a load
then waits as register writes do. -/
def performEntry (k : Nat) (before : List VEntry) (e : VEntry) (s : State) : Took :=
  let s0 := s.raise ((e.undo.map (fun u => u.late)).getD 0)
  if s.consumes e.bytes.1 e.bytes.2 then
    .leaves ((s0.asyncTrap s.cur.id e.held.ea s.cur.place.core s.synd).leaveViq k)
  else
    match e with
    | .access _ true mv runs => takeWrite k before (runWrites s.cur.vr mv s.mem.runBits runs) s0
    | .tile _ w fences runs => takeWrite k before (s.tileWrites fences w runs) s0
    | e =>
      let s1 := s0.leaveViq k
      .leaves (s1.doEntry s1.applyRegs e)

/-- The turn of entry k of the pending work, before being the entries that stand before it. A convoy that traps waits until they
have gone (R468). -/
def takeEntry (k : Nat) (before : List VEntry) (e : VEntry) (s : State) : Took :=
  match e with
  | .reply _ _ => .stays s
  | .write ws => takeWrite k before ws s
  | .convoy v =>
    if convoyHeld s.cur.vr before v then .stays s
    else
      match runMembers (v.members.drop v.done) v s with
      | .retired v' s' => .leaves (retire k v' s')
      | .blocked v' s' => .stays (s'.setEntry k (.convoy v'))
      | .trapped s' => if before.isEmpty then .ends s' else .stays s
  | e => if s.accessHeld before e || e.bytes.2.any s.cutOff then .stays s else performEntry k before e s

/-- The pending work of the current thread from entry k on, n entries at most: each that can go goes, and the others stay. -/
def drain : Nat → Nat → State → State
  | 0, _, s => s
  | n + 1, k, s =>
    match s.cur.viq[k]? with
    | none => s
    | some e =>
      match takeEntry k (s.cur.viq.take k) e s with
      | .stays s' => drain n (k + 1) s'
      | .leaves s' => drain n k s'
      | .ends s' => s'

/-- The pending work of the current thread goes as far as it can (R14, R16). -/
def State.drainAll (s : State) : State := drain s.cur.viq.length 0 s

/-! ## Framing and dispatch (R43, R44) -/

/-- A convoy before its first member. -/
def Convoy.open (t : Thread) : Convoy :=
  ⟨t.pc, [], t.loops, 0, 0, 0, 0, 0, [], [], [], [], 0, t.prog.last, false, 0, false⟩

/-- The members with what they capture at dispatch, and the checksum-mode bit after them (R412). -/
def capture (fmask : BitVec 4096) : Bool → List Member → List Member × Bool
  | chk, [] => ([], chk)
  | chk, m :: r =>
    let chk' := match m.instr with
      | .mchk _ _ e _ _ => e == 1#1
      | _ => chk
    let rest := capture fmask chk' r
    ({ m with fmask := fmask, chk := chk } :: rest.1, rest.2)

/-- A convoy is dispatched: it is checked, enters the VIQ, and the E-side runs. last is the PC of its last word, and go moves
the thread past it. Of a convoy that breaks R44 or R45 and holds an MX word with tgrant = 0 too, CONVOY_ILLEGAL comes before
MATRIX_NOT_ATTACHED: R395 does not order them (DESIGN CHOICE, log 21). -/
def dispatchAs (last : Word) (go : Thread → Thread) (v : Convoy) (s : State) : Out :=
  let c := s.cur.conf
  let pieces := v.members.map (fun m =>
    (eReads c.vtype c.grant c.tgrant m.instr, eWrites c.vtype c.grant c.tgrant m.instr))
  if v.bad || !idempotent [] pieces then trapWhen { cause := cConvoy, eside := true, epc := some v.pc } s s
  else if decide (c.tgrant = 0) && v.members.any (fun m => needsRows m.instr) then
    trapWhen { cause := cMatAttach, eside := true, epc := some v.pc } s s
  else
    let cap := capture c.fmask s.cur.mat.chk v.members
    let popped := match Table.get s.cur.prog.wpops none s.cur.level with
      | some (pc, l) => if pc = v.pc then l else []
      | none => []
    let v' := { v with
      members := cap.1, vl := c.vl, vtype := c.vtype, grant := c.grant, tgrant := c.tgrant, popped := popped
      sregs := s.cur.s, instret := s.cur.prog.instret, chk := s.cur.mat.chk }
    let s1 := s.onCur (fun t =>
      { go t with
        framing := none
        viq := t.viq ++ [.convoy v']
        mat := { t.mat with chk := cap.2 }
        prog := { t.prog with
          wait := .none, last := some last, reissue := false, wpops := Table.set t.prog.wpops none t.level none } })
    .next s1.drainAll

/-- A whole convoy is dispatched. -/
def dispatch (v : Convoy) (s : State) : Out := dispatchAs s.cur.pc Thread.advance v s

/-- The fetch of a convoy's next word fails: the members before it go as a convoy of their own, so that the trap is taken
with every earlier word completed (R89, R467; log 15). -/
def dispatchPart (v : Convoy) (s : State) : Out := dispatchAs (s.cur.pc - 4#64) id v s

/-- Flags put with the last entry of the pending work that takes back what later words do. -/
def lateFlags (fl : Nat) : List VEntry → List VEntry
  | [] => []
  | e :: r =>
    if e.keeps && !r.any VEntry.keeps then
      e.onPast (fun v => { v with late := v.late ||| fl }) (fun u => { u with late := u.late ||| fl }) :: r
    else e :: lateFlags fl r

/-- The flags of an A-side word, which wait with a convoy that can still trap (R469). -/
def State.raiseA (s : State) (fl : Nat) : State :=
  if s.cur.trapPending then s.onCur (fun t => { t with viq := lateFlags fl t.viq }) else s.raise fl

/-- Convoys in the VIQ. -/
def Thread.convoys (t : Thread) : Nat :=
  (t.viq.filter (fun e =>
    match e with
    | .convoy _ => true
    | _ => false)).length

/-- An E-side word: it joins the convoy that is being framed, or begins one, unless its checks fail (R36, R44). So ILLEGAL, which is
found here, comes before MATRIX_NOT_ATTACHED, found when the convoy is dispatched: R402 says so of MXAC and MXACS, and of MZERO,
ACLD and ACST it is the model's reading (DEDUCED, log 21). -/
def eside (i : Instr) (c : BitVec 1) (sa sb : Word) (ok : Bool) (s : State) : Out :=
  let v := s.cur.framing.getD (Convoy.open s.cur)
  if v.members.isEmpty && decide (32 ≤ s.cur.convoys) then .next (s.waits .viq)
  else if !ok then trapWhen { cause := cIllegal, eside := true, epc := some v.pc } s s
  else
    let v1 := { v with members := v.members ++ [⟨i, sa, sb, 0, false⟩] }
    if c = 0#1 then dispatch v1 s
    else if 4 ≤ v1.members.length then trapWhen { cause := cConvoy, eside := true, epc := some v.pc } s s
    else
      .next (s.onCur (fun t =>
        { t with
          pc := t.pc + 4#64
          framing := some { v1 with bad := v1.bad || t.atLoopEnd }
          prog := { t.prog with wait := .none, reissue := false } }))

end

end Sys2Proof.Machine
end

