-- ==== Sys2Proof/Machine/Atomics.lean ====
section
/-!
DEFINITION. Scalar atomics (07 R238 to R240), FENCE, PFENCE, SBAR and BAR (07 R234 to R243; 06 R218). The model performs
every access at every scope in one step (log 6), so that an ordering word only waits for the accesses that wait.
-/
namespace Sys2Proof.Machine

noncomputable section

/-! ## AMO -/

/-- Bytes of an AMO. -/
def amoBytes (w : BitVec 1) : Nat := if w = 0#1 then 8 else 4

/-- Does an order acquire (1 acq, 2 rel, 3 acqrel), and does it release? It does where the scope is wider than the thread
(R228, R254, R255). -/
def acquires (o : BitVec 2) (sc : BitVec 3) : Bool := (decide (o = 1#2) || decide (o = 3#2)) && decide (sc ≠ 0#3)
def releases (o : BitVec 2) (sc : BitVec 3) : Bool := (decide (o = 2#2) || decide (o = 3#2)) && decide (sc ≠ 0#3)

/-- An AMO (R239). -/
def amoWord (op : AmoOp) (d a b : BitVec 5) (sc : BitVec 3) (o : BitVec 2) (w : BitVec 1) (s : State) : Out :=
  aside false complete (fun s =>
    let n := amoBytes w
    s.scalarAccess .atomic (s.readS a) n (acquires o sc) (releases o sc)
      (.amo op d n (bitsAt (s.readS b).toNat 0 (8 * n)) (bitsAt (s.readS d).toNat 0 (8 * n)))) s

def execAmoswap (d a b : BitVec 5) (sc : BitVec 3) (o : BitVec 2) (w : BitVec 1) (s : State) : Out :=
  amoWord .swap d a b sc o w s
def execAmoadd (d a b : BitVec 5) (sc : BitVec 3) (o : BitVec 2) (w : BitVec 1) (s : State) : Out :=
  amoWord .add d a b sc o w s
def execAmoand (d a b : BitVec 5) (sc : BitVec 3) (o : BitVec 2) (w : BitVec 1) (s : State) : Out :=
  amoWord .and d a b sc o w s
def execAmoor (d a b : BitVec 5) (sc : BitVec 3) (o : BitVec 2) (w : BitVec 1) (s : State) : Out :=
  amoWord .or d a b sc o w s
def execAmoxor (d a b : BitVec 5) (sc : BitVec 3) (o : BitVec 2) (w : BitVec 1) (s : State) : Out :=
  amoWord .xor d a b sc o w s
def execAmomin (d a b : BitVec 5) (sc : BitVec 3) (o : BitVec 2) (w : BitVec 1) (s : State) : Out :=
  amoWord .min d a b sc o w s
def execAmomax (d a b : BitVec 5) (sc : BitVec 3) (o : BitVec 2) (w : BitVec 1) (s : State) : Out :=
  amoWord .max d a b sc o w s
def execAmominu (d a b : BitVec 5) (sc : BitVec 3) (o : BitVec 2) (w : BitVec 1) (s : State) : Out :=
  amoWord .minu d a b sc o w s
def execAmomaxu (d a b : BitVec 5) (sc : BitVec 3) (o : BitVec 2) (w : BitVec 1) (s : State) : Out :=
  amoWord .maxu d a b sc o w s
def execAmocas (d a b : BitVec 5) (sc : BitVec 3) (o : BitVec 2) (w : BitVec 1) (s : State) : Out :=
  amoWord .cas d a b sc o w s
def execAmofadd (d a b : BitVec 5) (sc : BitVec 3) (o : BitVec 2) (w : BitVec 1) (s : State) : Out :=
  amoWord .fadd d a b sc o w s

def execLda (d a : BitVec 5) (sc : BitVec 3) (w : BitVec 1) (s : State) : Out :=
  aside false complete (fun s =>
    let n := amoBytes w
    s.scalarAccess .read (s.readS a) n (decide (sc ≠ 0#3)) false (.load d n true)) s

def execStl (a b : BitVec 5) (sc : BitVec 3) (w : BitVec 1) (s : State) : Out :=
  aside false complete (fun s =>
    let n := amoBytes w
    let rel := decide (sc ≠ 0#3)
    s.scalarAccess .write (s.readS a) n false rel (.store (bytesOf n (s.readS b).toNat) rel)) s

/-! ## FENCE, PFENCE, SBAR -/

/-- A wait for the accesses that wait: all of them, or those that read (R234) and the releases (R255). At thread scope nothing
waits (R235). -/
def fenceReady (all : Bool) (sc : BitVec 3) (s : State) : Except Stop Unit :=
  if decide (sc ≠ 0#3) && (if all then s.cur.anyPending else s.cur.readPending) then .error (.wait .other) else .ok ()

/-- FENCE: the kinds but acquire (1) wait for every earlier access, and acquire for the earlier reads and releases (R234, R255). -/
def execFence (sc : BitVec 3) (k : BitVec 2) (s : State) : Out :=
  aside false complete (fun s => do
    fenceReady (decide (k ≠ 1#2)) sc s
    return s) s

/-- The paths that P names: bit 1 CONST, 2 TILE, 3 LAYER (R217). -/
def pathsOf (p : BitVec 4) : List Path :=
  (if p.getLsbD 1 then [.const] else []) ++ (if p.getLsbD 2 then [.tile] else []) ++ (if p.getLsbD 3 then [.layer] else [])

/-- Does a waiting entry come before what a PFENCE of the paths of P lets later reads see: a write on the general path, which the
thread's own reads see from its dispatch (R230), or an acquire (R255); or is it an access of one of the paths (R218)? -/
def VEntry.beforePfence (p : BitVec 4) (e : VEntry) : Bool :=
  let acquire := e.holds.any (fun h => h.held == 255#8)
  match e with
  | .tile _ _ _ _ => p.getLsbD 2 || acquire
  | .scalar _ _ (.ldk _) => p.getLsbD 1 || acquire
  | .access _ load _ _ => !load || acquire
  | .vamo _ _ _ _ => true
  | .scalar _ _ (.load _ _ _) => acquire
  | .scalar _ _ _ => true
  | _ => false

/-- Does an access wait that comes before a PFENCE, with LAYER an operation on its way to a unit (R218, R464)? -/
def State.pathPending (s : State) (p : BitVec 4) : Bool :=
  (decide (p &&& 14#4 ≠ 0#4) && s.cur.viq.any (fun e => e.beforePfence p)) || (p.getLsbD 3 && s.mlq.any (fun o => decide (o.thread = s.cur.id)))

/-- PFENCE: earlier accesses on the named paths come first, and later reads on them see every write whose writer the scope
covers (R216, R218). -/
def execPfence (sc : BitVec 3) (p : BitVec 4) (s : State) : Out :=
  aside false complete (fun s => do
    if p.getLsbD 0 then fenceReady true sc s else .ok ()
    if s.pathPending p then .error (.wait .other) else .ok ()
    return s.onProg (fun g => { g with
      fences := (pathsOf p).foldl (fun f x => fenced f x s.cur.place.core sc.toNat s.mem.logLen) g.fences })) s

/-- The streams of hold wait behind the waiting accesses of the streams of await (R237). -/
def holdBehind (await hold : BitVec 8) (l : List VEntry) : List VEntry :=
  l.map (fun e => e.onHeld (fun h => if await.getLsbD h.ag then { h with held := h.held ||| hold } else h))

/-- SBAR, which at thread scope orders nothing at any other (R228, R237, R254). -/
def execSbar (sc : BitVec 3) (await hold : BitVec 8) (s : State) : Out :=
  aside false complete (fun s =>
    .ok (if sc = 0#3 then s else s.onCur (fun t => { t with viq := holdBehind await hold t.viq }))) s

/-! ## BAR (R241 to R243) -/

/-- BARs of a scope that a thread has executed. -/
def Bars.count (b : Bars) (sc : Nat) : Nat := if sc = 1 then b.core else if sc = 2 then b.sheet else b.device

/-- One more. -/
def Bars.bump (b : Bars) (sc : Nat) : Bars :=
  if sc = 1 then { b with core := b.core + 1 }
  else if sc = 2 then { b with sheet := b.sheet + 1 }
  else { b with device := b.device + 1 }

/-- Is a record assigned to core c a participant of a BAR of the thread with home core h (R241)? -/
def inScope (sc h c : Nat) : Bool := if sc = 1 then h == c else if sc = 2 then sheetOf h == sheetOf c else true

/-- Has every participant arrived at BAR number k of the scope? Threads that have ended have arrived. -/
def State.allArrived (s : State) (sc k : Nat) : Bool :=
  let me := s.cur
  let same := fun (i : ThreadId) => i.part == me.id.part && i.lid == me.id.lid
  (s.started.all (fun t =>
    !same t.id || t.id == me.id || !inScope sc me.place.home t.place.home ||
      decide (k ≤ t.prog.bars.count sc + b2n (t.prog.bars.arrived == some sc)))) &&
    s.cp.records.all (fun r => !same r.id || !inScope sc me.place.home r.core)

def execBar (sc : BitVec 3) (s : State) : Out :=
  aside false complete (fun s =>
    let n := sc.toNat
    let b := s.cur.prog.bars
    if b.arrived.isNone && s.cur.anyPending then .error (.wait .other)
    else if s.allArrived n (b.count n + 1) then
      .ok (s.onProg (fun p => { p with bars := { b.bump n with arrived := none } }))
    else .error (.waitIn .bar (s.onProg (fun p => { p with bars := { b with arrived := some n } })))) s

end

end Sys2Proof.Machine
end

