-- ==== Sys2Proof/Machine/Branch.lean ====
section
/-!
DEFINITION. Branches, jumps, hardware loops and queues (03 R86 to R102).
-/
namespace Sys2Proof.Machine

noncomputable section

/-- A byte distance of words. -/
def wordOff {n : Nat} (o : BitVec n) : Word := sext o * 4#64

/-! ## BR, JAL, JALR (R86 to R88) -/

/-- A branch taken where cond holds. -/
def branch (cond : Word → Word → Bool) (a b : BitVec 5) (o : BitVec 12) (s : State) : Out :=
  let fin := fun (s : State) =>
    if cond (s.readS a) (s.readS b) then completeJump (s.cur.pc + wordOff o) s else complete s
  aside true fin (fun s => .ok s) s

def execBeq (a b : BitVec 5) (o : BitVec 12) (s : State) : Out := branch (fun x y => x == y) a b o s
def execBne (a b : BitVec 5) (o : BitVec 12) (s : State) : Out := branch (fun x y => x != y) a b o s
def execBlt (a b : BitVec 5) (o : BitVec 12) (s : State) : Out := branch (fun x y => x.slt y) a b o s
def execBge (a b : BitVec 5) (o : BitVec 12) (s : State) : Out := branch (fun x y => !x.slt y) a b o s
def execBltu (a b : BitVec 5) (o : BitVec 12) (s : State) : Out := branch (fun x y => x.ult y) a b o s
def execBgeu (a b : BitVec 5) (o : BitVec 12) (s : State) : Out := branch (fun x y => !x.ult y) a b o s

def execJal (i : BitVec 25) (s : State) : Out :=
  let pc := s.cur.pc
  aside true (completeJump (pc + wordOff i)) (fun s => .ok (s.writeS 31#5 (pc + 4#64))) s

def execJalr (d a : BitVec 5) (i : BitVec 15) (s : State) : Out :=
  let pc := s.cur.pc
  let target := s.readS a + sext i
  aside true (completeJump target) (fun s =>
    if target.toNat % 4 = 0 then .ok (s.writeS d (pc + 4#64))
    else .error (.trap { cause := cMisaligned, addr := target })) s

/-! ## LOOP (R90 to R96, R110) -/

/-- Loop n set up (R92). -/
def Loops.begin (l : Loops) (one : Bool) (count lb le : Word) : Loops :=
  if one then { l with lc1 := count, lb1 := lb, le1 := le } else { l with lc0 := count, lb0 := lb, le0 := le }

/-- LOOPn and LOOPIn: a body, or its skip where the count is 0. -/
def loopWord (one : Bool) (count : Word) (i : BitVec 12) (s : State) : Out :=
  let pc := s.cur.pc
  let le := pc + wordOff i
  let fin := fun (s : State) => if count = 0#64 then completeAt (le + 4#64) s else completeAt (pc + 4#64) s
  aside true fin (fun s =>
    if (0#12).slt i && !s.cur.atLoopEnd then
      .ok (s.onCur (fun t => { t with loops := t.loops.begin one count (pc + 4#64) le }))
    else .error (trapOf cIllegal)) s

def execLoop0 (a : BitVec 5) (i : BitVec 12) (s : State) : Out := loopWord false (s.readS a) i s
def execLoop1 (a : BitVec 5) (i : BitVec 12) (s : State) : Out := loopWord true (s.readS a) i s
def execLoopi0 (l : BitVec 5) (i : BitVec 12) (s : State) : Out := loopWord false (l.setWidth 64) i s
def execLoopi1 (l : BitVec 5) (i : BitVec 12) (s : State) : Out := loopWord true (l.setWidth 64) i s

/-- LEXITn (R95). -/
def loopExit (one : Bool) (s : State) : Out :=
  let l := s.cur.loops
  let le := if one then l.le1 else l.le0
  aside true (completeJump (le + 4#64)) (fun s =>
    if (if one then l.lc1 else l.lc0) ≠ 0#64 && !s.cur.atLoopEnd then
      .ok (s.onCur (fun t => { t with loops := if one then { l with lc1 := 0#64 } else { l with lc0 := 0#64 } }))
    else .error (trapOf cIllegal)) s

def execLexit0 (s : State) : Out := loopExit false s
def execLexit1 (s : State) : Out := loopExit true s

/-! ## QUE (R99 to R101) -/

/-- Does a word append to queue k? -/
def writesQueue (i : Instr) (k : Nat) : Bool := (eWrites vtypeReset 0 0 i).contains (96 + k)

/-- Is a producer of queue k pending (R100)? -/
def Thread.producing (t : Thread) (k : Nat) : Bool :=
  t.viq.any (fun e =>
    match e with
    | .convoy v => v.members.any (fun m => writesQueue m.instr k)
    | _ => false)

/-- n entries removed from the head of queue k, which the pending work that can still trap remembers (R469). -/
def State.popQueue (s : State) (k n : Nat) : State :=
  let l := ((s.cur.queue k).take n).map (fun w => (k, w))
  (s.onCur (fun t => t.setQueue k ((t.queue k).drop n))).onPast (fun c => { c with pops := c.pops ++ l })
    (fun u => { u with pops := u.pops ++ l })

/-- A QUE word completes, and the E-side runs on. -/
def completeQue (s : State) : State := (complete s).drainAll

def execQpop (d a : BitVec 5) (s : State) : Out :=
  aside true completeQue (fun s =>
    match s.cur.queue a.toNat with
    | v :: _ => .ok (((s.popQueue a.toNat 1).supersede d).writeS d v)
    | [] =>
      if s.cur.producing a.toNat then .error (.wait (.qpop a.toNat))
      else .error (.trap { cause := cUnderflow, queue := a.toNat })) s

def execQcnt (d a : BitVec 5) (s : State) : Out :=
  asideReg (fun s => (s.supersede d).writeS d (w64 (s.cur.queue a.toNat).length)) s

def execQdrain (d a : BitVec 5) (s : State) : Out :=
  aside true completeQue (fun s =>
    if s.cur.producing a.toNat then .error (.wait (.qdrain a.toNat))
    else
      let n := (s.cur.queue a.toNat).length
      .ok (((s.popQueue a.toNat n).supersede d).writeS d (w64 n))) s

end

end Sys2Proof.Machine
end

