-- ==== Sys2Proof/WellFormed.lean ====
section
/-!
DEFINITION. Instr.wellFormed: the operand values that a word can hold and the spec refuses from the word alone, each
with its rule. What depends on vtype, the grant, the ring or other state is checked by the meanings.
-/
namespace Sys2Proof

/-- The SEW and FMT pairs of R52 (02), by their codes of R51. -/
def validPair (fmt sew : Nat) : Bool :=
  match fmt with
  | 0 | 1 => sew == 0 || sew == 2 || sew == 3 || sew == 4 || sew == 5
  | 2 => sew == 3 || sew == 4 || sew == 5
  | 3 => sew == 3
  | 4 | 5 => sew == 2
  | 6 => sew == 1
  | 7 => sew == 0
  | 8 => sew == 5
  | _ => false

/-- The rowcaps of R387 (13). -/
def validRowcap (n : Nat) : Bool := n == 16 || n == 32 || n == 48 || n == 64

/-- The paces of R387 (13). -/
def validPace (n : Nat) : Bool := n == 1 || n == 2 || n == 4 || n == 8

/-- Operand values that the word alone makes legal: R79, R82 (FPS), R233, R217, R236, R238, R241 (scopes, paths,
streams), R91 (loop offsets), R101, R178, R332, R411, R175, R177 (queue numbers), R48 (p0 as a destination), R274,
R311, R443, R368 (a predicate that is written), R173 (VCMP kind 3), R137, R138 (VCVT, VSCALE), R332 (masks),
R301 (class numbers), the table number of an HCTL word (08), R25, R387 (what the governor may set), R9 (16 ports). -/
def Instr.wellFormed (i : Instr) : Bool :=
  match i with
  | .add _ _ _ _ => true
  | .sub _ _ _ _ => true
  | .and _ _ _ _ => true
  | .or _ _ _ _ => true
  | .xor _ _ _ _ => true
  | .sll _ _ _ _ => true
  | .srl _ _ _ _ => true
  | .sra _ _ _ _ => true
  | .mul _ _ _ _ => true
  | .mulh _ _ _ _ => true
  | .mulhu _ _ _ _ => true
  | .div _ _ _ _ => true
  | .divu _ _ _ _ => true
  | .rem _ _ _ _ => true
  | .remu _ _ _ _ => true
  | .min _ _ _ _ => true
  | .max _ _ _ _ => true
  | .minu _ _ _ _ => true
  | .maxu _ _ _ _ => true
  | .slt _ _ _ _ => true
  | .sltu _ _ _ _ => true
  | .addv _ _ _ _ => true
  | .subv _ _ _ _ => true
  | .clz _ _ _ => true
  | .popc _ _ _ => true
  | .addi _ _ _ => true
  | .andi _ _ _ => true
  | .ori _ _ _ => true
  | .xori _ _ _ => true
  | .slti _ _ _ => true
  | .sltiu _ _ _ => true
  | .slli _ _ _ => true
  | .srli _ _ _ => true
  | .srai _ _ _ => true
  | .hi _ _ => true
  | .pcadd _ _ => true
  | .lb _ _ _ => true
  | .lh _ _ _ => true
  | .lw _ _ _ => true
  | .ld _ _ _ => true
  | .lbu _ _ _ => true
  | .lhu _ _ _ => true
  | .lwu _ _ _ => true
  | .ldk _ _ _ => true
  | .sb _ _ _ => true
  | .sh _ _ _ => true
  | .sw _ _ _ => true
  | .sd _ _ _ => true
  | .beq _ _ _ => true
  | .bne _ _ _ => true
  | .blt _ _ _ => true
  | .bge _ _ _ => true
  | .bltu _ _ _ => true
  | .bgeu _ _ _ => true
  | .jal _ => true
  | .jalr _ _ _ => true
  | .loop0 _ i => decide (0 < i.toInt)
  | .loop1 _ i => decide (0 < i.toInt)
  | .loopi0 _ i => decide (0 < i.toInt)
  | .loopi1 _ i => decide (0 < i.toInt)
  | .lexit0 => true
  | .lexit1 => true
  | .qpop _ a => decide (a.toNat ≤ 7)
  | .qcnt _ a => decide (a.toNat ≤ 7)
  | .qdrain _ a => decide (a.toNat ≤ 7)
  | .queueDeadlock _ => true
  | .fadd _ _ _ p _ => decide (p.toNat ≤ 1)
  | .fsub _ _ _ p _ => decide (p.toNat ≤ 1)
  | .fmul _ _ _ p _ => decide (p.toNat ≤ 1)
  | .fdiv _ _ _ p _ => decide (p.toNat ≤ 1)
  | .fsqrt _ _ p _ => decide (p.toNat ≤ 1)
  | .fmin _ _ _ p => decide (p.toNat ≤ 1)
  | .fmax _ _ _ p => decide (p.toNat ≤ 1)
  | .feq _ _ _ p => decide (p.toNat ≤ 1)
  | .flt _ _ _ p => decide (p.toNat ≤ 1)
  | .fle _ _ _ p => decide (p.toNat ≤ 1)
  | .fcvtfi _ _ b p _ => decide (p.toNat ≤ 1) && decide (b.toNat ≤ 3)
  | .fcvtif _ _ b p _ => decide (p.toNat ≤ 1) && decide (b.toNat ≤ 3)
  | .fcvtff _ _ p _ => decide (p.toNat ≤ 1)
  | .fclass _ _ p => decide (p.toNat ≤ 1)
  | .fma _ _ _ p _ => decide (p.toNat ≤ 1)
  | .amoswap _ _ _ s _ _ => decide (s.toNat ≤ 4)
  | .amoadd _ _ _ s _ _ => decide (s.toNat ≤ 4)
  | .amoand _ _ _ s _ _ => decide (s.toNat ≤ 4)
  | .amoor _ _ _ s _ _ => decide (s.toNat ≤ 4)
  | .amoxor _ _ _ s _ _ => decide (s.toNat ≤ 4)
  | .amomin _ _ _ s _ _ => decide (s.toNat ≤ 4)
  | .amomax _ _ _ s _ _ => decide (s.toNat ≤ 4)
  | .amominu _ _ _ s _ _ => decide (s.toNat ≤ 4)
  | .amomaxu _ _ _ s _ _ => decide (s.toNat ≤ 4)
  | .amocas _ _ _ s _ _ => decide (s.toNat ≤ 4)
  | .lda _ _ s _ => decide (s.toNat ≤ 4)
  | .stl _ _ s _ => decide (s.toNat ≤ 4)
  | .amofadd _ _ _ s _ _ => decide (s.toNat ≤ 4)
  | .fence s _ => decide (s.toNat ≤ 4)
  | .pfence s p => decide (s.toNat ≤ 4) && decide (p ≠ 0#4)
  | .bar s => decide (1 ≤ s.toNat) && decide (s.toNat ≤ 3)
  | .sbar s w h => decide (s.toNat ≤ 4) && decide (w ≠ 0#8) && decide (h ≠ 0#8)
  | .srr _ _ => true
  | .srw _ _ => true
  | .srs _ _ _ => true
  | .src _ _ _ => true
  | .trap _ => true
  | .breakpoint _ => true
  | .tret => true
  | .uret => true
  | .wfe _ _ => true
  | .wfeTimeout _ => true
  | .vtinv _ _ => true
  | .ptinv _ _ => true
  | .ctxsave _ _ => true
  | .ctxload _ _ => true
  | .launch _ _ => true
  | .launchc _ _ _ => true
  | .lwait _ _ => true
  | .yield => true
  | .lstat _ _ => true
  | .endThread => true
  | .hclaim _ _ => true
  | .hfree b => decide (b.toNat ≤ 3)
  | .hstat _ b => decide (b.toNat ≤ 3)
  | .hdrain _ _ b => decide (b.toNat ≤ 3)
  | .ldt _ _ _ _ => true
  | .stt _ _ _ _ => true
  | .txn _ _ _ => true
  | .stqry _ _ => true
  | .stload _ _ _ => true
  | .stbind _ _ => true
  | .stunbind _ b => decide (b.toNat ≤ 15)
  | .stagedResend _ => true
  | .cpy _ _ _ _ _ _ => true
  | .ecwait _ _ => true
  | .wbld _ _ _ _ _ _ _ => true
  | .acstm _ _ _ _ _ _ => true
  | .acldm _ _ _ _ _ _ => true
  | .engb d _ _ => decide (d ≠ 0#5)
  | .commandComplete _ _ => true
  | .tokenDeadlock _ => true
  | .attach _ _ => true
  | .detach => true
  | .vld _ _ _ _ => true
  | .vldStrided _ _ _ _ _ => true
  | .vldIndexed _ _ _ _ _ => true
  | .vldOrd _ _ _ _ _ => true
  | .vst _ _ _ _ => true
  | .vstStrided _ _ _ _ _ => true
  | .vstIndexed _ _ _ _ _ => true
  | .vstOrd _ _ _ _ _ => true
  | .vldff _ _ _ _ => true
  | .vldm _ _ _ _ => true
  | .vldb _ _ _ _ _ => true
  | .vstm _ _ _ _ => true
  | .vamoadd _ _ _ _ _ => true
  | .vamomin _ _ _ _ _ => true
  | .vamomax _ _ _ _ _ => true
  | .vamofadd _ _ _ _ _ => true
  | .spld _ _ _ _ => true
  | .spst _ _ _ _ => true
  | .spldu _ _ _ => true
  | .spstu _ _ _ => true
  | .hins _ _ g _ => decide (g ≠ 0#5)
  | .hprb _ _ g _ => decide (g ≠ 0#5)
  | .hdel _ g _ => decide (g ≠ 0#5)
  | .hacc _ _ g _ => decide (g ≠ 0#5)
  | .hamin _ _ g _ => decide (g ≠ 0#5)
  | .hamax _ _ g _ => decide (g ≠ 0#5)
  | .hupd _ _ g _ => decide (g ≠ 0#5)
  | .vtxn _ _ _ g => decide (g ≠ 0#5)
  | .boxx _ _ _ g => decide (g ≠ 0#5)
  | .trix _ _ _ g => decide (g ≠ 0#5)
  | .mlins _ _ _ => true
  | .mlins2 _ _ _ => true
  | .mlrslv _ _ _ _ => true
  | .mlclr _ _ => true
  | .mlcfg _ _ => true
  | .mlInsertion _ => true
  | .mlResolveApply _ => true
  | .mlClearApply _ => true
  | .mld _ _ _ _ _ => true
  | .mldp _ _ _ _ _ => true
  | .mst _ _ _ _ _ => true
  | .mstp _ _ _ _ _ => true
  | .setvl _ _ _ => true
  | .setvlReevaluation _ => true
  | .settype _ _ => true
  | .settypei _ => true
  | .vadd _ _ _ _ _ => true
  | .vsub _ _ _ _ _ => true
  | .vmul _ _ _ _ _ => true
  | .vmulh _ _ _ _ _ => true
  | .vmin _ _ _ _ _ => true
  | .vmax _ _ _ _ _ => true
  | .vminu _ _ _ _ _ => true
  | .vmaxu _ _ _ _ _ => true
  | .vand _ _ _ _ _ => true
  | .vor _ _ _ _ _ => true
  | .vxor _ _ _ _ _ => true
  | .vsll _ _ _ _ _ => true
  | .vsrl _ _ _ _ _ => true
  | .vsra _ _ _ _ _ => true
  | .vmacc _ _ _ _ _ => true
  | .vdiv _ _ _ _ _ => true
  | .vaddsat _ _ _ _ _ => true
  | .vsubsat _ _ _ _ _ => true
  | .vintsVadd _ _ _ _ _ => true
  | .vintsVsub _ _ _ _ _ => true
  | .vintsVmul _ _ _ _ _ => true
  | .vintsVmulh _ _ _ _ _ => true
  | .vintsVmin _ _ _ _ _ => true
  | .vintsVmax _ _ _ _ _ => true
  | .vintsVminu _ _ _ _ _ => true
  | .vintsVmaxu _ _ _ _ _ => true
  | .vintsVand _ _ _ _ _ => true
  | .vintsVor _ _ _ _ _ => true
  | .vintsVxor _ _ _ _ _ => true
  | .vintsVsll _ _ _ _ _ => true
  | .vintsVsrl _ _ _ _ _ => true
  | .vintsVsra _ _ _ _ _ => true
  | .vintsVmacc _ _ _ _ _ => true
  | .vintsVdiv _ _ _ _ _ => true
  | .vintsVaddsat _ _ _ _ _ => true
  | .vintsVsubsat _ _ _ _ _ => true
  | .vfadd _ _ _ _ _ => true
  | .vfsub _ _ _ _ _ => true
  | .vfmul _ _ _ _ _ => true
  | .vfdiv _ _ _ _ _ => true
  | .vfsqrt _ _ _ _ => true
  | .vfma _ _ _ _ _ => true
  | .vfms _ _ _ _ _ => true
  | .vfmin _ _ _ _ _ => true
  | .vfmax _ _ _ _ _ => true
  | .vfabs _ _ _ _ => true
  | .vfneg _ _ _ _ => true
  | .vfpsVfadd _ _ _ _ _ => true
  | .vfpsVfsub _ _ _ _ _ => true
  | .vfpsVfmul _ _ _ _ _ => true
  | .vfpsVfdiv _ _ _ _ _ => true
  | .vfpsVfma _ _ _ _ _ => true
  | .vfpsVfms _ _ _ _ _ => true
  | .vfpsVfmin _ _ _ _ _ => true
  | .vfpsVfmax _ _ _ _ _ => true
  | .vcmpEq _ d _ _ _ k => decide (d ≠ 0#5) && decide (k ≠ 3#2)
  | .vcmpNe _ d _ _ _ k => decide (d ≠ 0#5) && decide (k ≠ 3#2)
  | .vcmpLt _ d _ _ _ k => decide (d ≠ 0#5) && decide (k ≠ 3#2)
  | .vcmpGe _ d _ _ _ k => decide (d ≠ 0#5) && decide (k ≠ 3#2)
  | .vcmpLe _ d _ _ _ k => decide (d ≠ 0#5) && decide (k ≠ 3#2)
  | .vcmpGt _ d _ _ _ k => decide (d ≠ 0#5) && decide (k ≠ 3#2)
  | .vcmpUn _ d _ _ _ => decide (d ≠ 0#5)
  | .pand _ d _ _ _ => decide (d ≠ 0#5)
  | .por _ d _ _ _ => decide (d ≠ 0#5)
  | .pxor _ d _ _ _ => decide (d ≠ 0#5)
  | .pandn _ d _ _ _ => decide (d ≠ 0#5)
  | .pnot _ d _ _ => decide (d ≠ 0#5)
  | .plead _ d _ _ => decide (d ≠ 0#5)
  | .pthru _ d _ _ => decide (d ≠ 0#5)
  | .ppre _ d _ _ => decide (d ≠ 0#5)
  | .pcnt _ d _ _ => decide (d.toNat ≤ 7)
  | .pany _ d _ _ => decide (d.toNat ≤ 7)
  | .pset _ d _ => decide (d ≠ 0#5)
  | .pclr _ d _ => decide (d ≠ 0#5)
  | .pgetf _ d _ => decide (d ≠ 0#5)
  | .vslup _ _ _ _ _ => true
  | .vsldn _ _ _ _ _ => true
  | .vslupi _ _ _ _ _ => true
  | .vsldni _ _ _ _ _ => true
  | .vperm _ _ _ _ _ => true
  | .vcomp _ _ _ _ => true
  | .vexpd _ _ _ _ => true
  | .vmerge _ _ _ _ _ => true
  | .vbcast _ _ _ _ => true
  | .vextr _ d _ _ => decide (d.toNat ≤ 7)
  | .vins _ _ _ _ => true
  | .viota _ _ _ _ => true
  | .vid _ _ _ => true
  | .vredsum _ d _ _ => decide (d.toNat ≤ 7)
  | .vredmin _ d _ _ => decide (d.toNat ≤ 7)
  | .vredmax _ d _ _ => decide (d.toNat ≤ 7)
  | .vfredo _ d _ _ => decide (d.toNat ≤ 7)
  | .vfredt _ d _ _ => decide (d.toNat ≤ 7)
  | .vfredmin _ d _ _ => decide (d.toNat ≤ 7)
  | .vfredmax _ d _ _ => decide (d.toNat ≤ 7)
  | .vcmul _ _ _ _ _ => true
  | .vcmac _ _ _ _ _ => true
  | .vcmulc _ _ _ _ _ => true
  | .vcabs2 _ _ _ _ => true
  | .vcvt _ _ _ e _ f => validPair f.toNat e.toNat
  | .vscale _ _ _ b _ => decide (4 ≤ b.toNat) && decide (b.toNat ≤ 7)
  | .vqmax _ _ _ _ => true
  | .mgp _ _ _ _ _ _ => true
  | .mwdg _ _ _ _ _ _ => true
  | .mdot _ _ _ _ _ _ => true
  | .mlct _ _ _ _ _ _ => true
  | .mjoin _ _ _ _ _ _ => true
  | .msand _ _ _ _ _ _ => true
  | .mcomm _ _ _ _ _ _ => true
  | .mrev _ _ _ _ _ => true
  | .mdual _ _ _ _ _ => true
  | .mgrd _ _ _ _ _ _ => true
  | .mnrm2 _ _ _ _ _ => true
  | .mnrmi _ _ _ _ _ => true
  | .mnormz _ _ _ _ _ => true
  | .mexpb _ _ _ _ _ => true
  | .mlogm _ _ _ _ _ => true
  | .mmov _ _ _ _ _ => true
  | .msetm _ _ _ => true
  | .mgetm _ d _ => decide (d.toNat ≤ 7)
  | .mclean _ _ _ => true
  | .mfromv _ _ _ b _ _ => decide (b ≠ 0#5)
  | .mtov _ _ _ b _ => decide (b ≠ 0#5)
  | .madd _ _ _ _ _ _ => true
  | .msub _ _ _ _ _ _ => true
  | .mscal _ _ _ _ _ _ => true
  | .mconj _ _ _ _ _ => true
  | .minvol _ _ _ _ _ => true
  | .mxac _ _ _ _ _ _ _ => true
  | .mxacs _ _ _ _ _ _ _ => true
  | .mzero _ _ _ _ => true
  | .acld _ _ _ _ _ => true
  | .acst _ _ _ _ _ => true
  | .mchk _ d _ _ _ => decide (d.toNat ≤ 7)
  | .vtok _ _ _ => true
  | .bootLaunch _ _ => true
  | .partitionUnitTake _ => true
  | .gateReoffer _ _ => true
  | .threadDispatch _ => true
  | .recordAging _ => true
  | .launchComplete _ _ => true
  | .nodeFlush _ _ => true
  | .laneReclaim _ => true
  | .governorEvaluation _ ceil _ rowcap pace => decide (1 ≤ ceil) && decide (ceil ≤ 8) && validRowcap rowcap && validPace pace
  | .preemption _ => true
  | .resume _ => true
  | .peerRequest q => decide (q.port ≤ 15)
  | .peerResend _ => true
  | .peerRetryReply _ => true
  | .linkError _ => true
  | .flitCrcRetry _ => true
  | .crinikLaneFailure _ => true
  | .crinikPortLoss _ => true
  | .hostRequest _ _ => true
  | .softError _ _ _ => true
  | .eccCorrected _ _ _ => true
  | .uncorrectableError _ _ => true
  | .fatalDeviceError _ => true
  | .heartbeat _ => true
  | .takeoverExpiry => true
  | .ownershipWrite _ _ => true
  | .modidWrite _ _ => true
  | .registerWrite _ _ _ _ => true
  | .create _ => true
  | .destroy _ => true
  | .resize _ => true
  | .addmem _ => true
  | .exportAperture _ => true
  | .peermap _ => true
  | .peerunmap _ => true
  | .fenceq _ => true
  | .readmit _ => true
  | .retiresb _ => true
  | .retirech _ => true
  | .power _ => true
  | .links _ => true
  | .update _ => true
  | .seize => true
  | .handback => true
  | .requestComplete => true
  | .imageSwitch _ _ => true
  | .spdmGetMeasurements => true
  | .spdmChallenge _ => true
  | .spdmKeyExchange _ => true
  | .pldmMonitoring => true
  | .pldmFirmwareUpdate _ _ _ => true
  | .auxPowerUp _ => true
  | .mainPowerUp _ _ => true
  | .illegalWord _ => true
  | .dieToDieLinkRetry _ => true
  | .replyAcknowledgement _ _ _ => true

end Sys2Proof
end

