-- ==== Sys2Proof/Decode.lean ====
section
/-!
DEFINITION. The decoder of the 32-bit words (02 R33 to R40, with the sub-op and reserved fields that each entry gives)
and, after it, the encoder of the instructions. A word that is no instruction is refused by name; the machine raises
ILLEGAL for it (R34, R35). Bit 0 is the least significant bit (R1).

Some definitions are marked noncomputable for one reason only: Lean's compiled code numbers at most 245 constructors
with fields, and Instr has more. They are ordinary structural definitions that the kernel evaluates on any word.
-/
namespace Sys2Proof

/-- Why a word is no instruction. -/
inductive DecodeError where
  /-- The major is reserved: 0x00, 0x24 to 0x27, 0x38 to 0x3F (R34). -/
  | reservedMajor
  /-- An A-side word with C = 1 (R35). -/
  | continuation
  /-- The sub-op code is not listed for the major (R35). -/
  | unlistedSub
  /-- A reserved or unused field is nonzero (R35). -/
  | reservedField
  /-- An operand value that the entry refuses (Instr.wellFormed). -/
  | reservedOperand
  deriving DecidableEq, Repr

/-- The field of len bits whose lowest bit is lo. -/
def fld (w : BitVec 32) (lo len : Nat) : BitVec len := w.extractLsb' lo len

/-- An instruction whose reserved fields hold. -/
def need (ok : Bool) (i : Instr) : Except DecodeError Instr := if ok then .ok i else .error .reservedField

/-- Major 0x01, INT (R39, R40). -/
def decodeInt (w : BitVec 32) : Except DecodeError Instr :=
  match fld w 0 6 with
  | 0#6 => need (fld w 7 3 == 0#3) (.add (fld w 20 5) (fld w 15 5) (fld w 10 5) (fld w 6 1))
  | 1#6 => need (fld w 7 3 == 0#3) (.sub (fld w 20 5) (fld w 15 5) (fld w 10 5) (fld w 6 1))
  | 2#6 => need (fld w 7 3 == 0#3) (.and (fld w 20 5) (fld w 15 5) (fld w 10 5) (fld w 6 1))
  | 3#6 => need (fld w 7 3 == 0#3) (.or (fld w 20 5) (fld w 15 5) (fld w 10 5) (fld w 6 1))
  | 4#6 => need (fld w 7 3 == 0#3) (.xor (fld w 20 5) (fld w 15 5) (fld w 10 5) (fld w 6 1))
  | 5#6 => need (fld w 7 3 == 0#3) (.sll (fld w 20 5) (fld w 15 5) (fld w 10 5) (fld w 6 1))
  | 6#6 => need (fld w 7 3 == 0#3) (.srl (fld w 20 5) (fld w 15 5) (fld w 10 5) (fld w 6 1))
  | 7#6 => need (fld w 7 3 == 0#3) (.sra (fld w 20 5) (fld w 15 5) (fld w 10 5) (fld w 6 1))
  | 8#6 => need (fld w 7 3 == 0#3) (.mul (fld w 20 5) (fld w 15 5) (fld w 10 5) (fld w 6 1))
  | 9#6 => need (fld w 7 3 == 0#3) (.mulh (fld w 20 5) (fld w 15 5) (fld w 10 5) (fld w 6 1))
  | 10#6 => need (fld w 7 3 == 0#3) (.mulhu (fld w 20 5) (fld w 15 5) (fld w 10 5) (fld w 6 1))
  | 11#6 => need (fld w 7 3 == 0#3) (.div (fld w 20 5) (fld w 15 5) (fld w 10 5) (fld w 6 1))
  | 12#6 => need (fld w 7 3 == 0#3) (.divu (fld w 20 5) (fld w 15 5) (fld w 10 5) (fld w 6 1))
  | 13#6 => need (fld w 7 3 == 0#3) (.rem (fld w 20 5) (fld w 15 5) (fld w 10 5) (fld w 6 1))
  | 14#6 => need (fld w 7 3 == 0#3) (.remu (fld w 20 5) (fld w 15 5) (fld w 10 5) (fld w 6 1))
  | 15#6 => need (fld w 7 3 == 0#3) (.min (fld w 20 5) (fld w 15 5) (fld w 10 5) (fld w 6 1))
  | 16#6 => need (fld w 7 3 == 0#3) (.max (fld w 20 5) (fld w 15 5) (fld w 10 5) (fld w 6 1))
  | 17#6 => need (fld w 7 3 == 0#3) (.minu (fld w 20 5) (fld w 15 5) (fld w 10 5) (fld w 6 1))
  | 18#6 => need (fld w 7 3 == 0#3) (.maxu (fld w 20 5) (fld w 15 5) (fld w 10 5) (fld w 6 1))
  | 19#6 => need (fld w 7 3 == 0#3) (.slt (fld w 20 5) (fld w 15 5) (fld w 10 5) (fld w 6 1))
  | 20#6 => need (fld w 7 3 == 0#3) (.sltu (fld w 20 5) (fld w 15 5) (fld w 10 5) (fld w 6 1))
  | 21#6 => need (fld w 7 3 == 0#3) (.addv (fld w 20 5) (fld w 15 5) (fld w 10 5) (fld w 6 1))
  | 22#6 => need (fld w 7 3 == 0#3) (.subv (fld w 20 5) (fld w 15 5) (fld w 10 5) (fld w 6 1))
  | 23#6 => need (fld w 7 8 == 0#8) (.clz (fld w 20 5) (fld w 15 5) (fld w 6 1))
  | 24#6 => need (fld w 7 8 == 0#8) (.popc (fld w 20 5) (fld w 15 5) (fld w 6 1))
  | _ => .error .unlistedSub

/-- Major 0x02, ADDI (R39, R40). -/
def decodeAddi (w : BitVec 32) : Except DecodeError Instr :=
  .ok (.addi (fld w 20 5) (fld w 15 5) (fld w 0 15))

/-- Major 0x03, IMM (R39, R40). -/
def decodeImm (w : BitVec 32) : Except DecodeError Instr :=
  match fld w 12 3 with
  | 0#3 => .ok (.andi (fld w 20 5) (fld w 15 5) (fld w 0 12))
  | 1#3 => .ok (.ori (fld w 20 5) (fld w 15 5) (fld w 0 12))
  | 2#3 => .ok (.xori (fld w 20 5) (fld w 15 5) (fld w 0 12))
  | 3#3 => .ok (.slti (fld w 20 5) (fld w 15 5) (fld w 0 12))
  | 4#3 => .ok (.sltiu (fld w 20 5) (fld w 15 5) (fld w 0 12))
  | 5#3 => need (fld w 6 6 == 0#6) (.slli (fld w 20 5) (fld w 15 5) (fld w 0 6))
  | 6#3 => need (fld w 6 6 == 0#6) (.srli (fld w 20 5) (fld w 15 5) (fld w 0 6))
  | 7#3 => need (fld w 6 6 == 0#6) (.srai (fld w 20 5) (fld w 15 5) (fld w 0 6))

/-- Major 0x04, HI (R39, R40). -/
def decodeHi (w : BitVec 32) : Except DecodeError Instr :=
  .ok (.hi (fld w 20 5) (fld w 0 20))

/-- Major 0x05, PCADD (R39, R40). -/
def decodePcadd (w : BitVec 32) : Except DecodeError Instr :=
  .ok (.pcadd (fld w 20 5) (fld w 0 20))

/-- Major 0x06, LD (R39, R40). -/
def decodeLd (w : BitVec 32) : Except DecodeError Instr :=
  match fld w 12 3 with
  | 0#3 => .ok (.lb (fld w 20 5) (fld w 15 5) (fld w 0 12))
  | 1#3 => .ok (.lh (fld w 20 5) (fld w 15 5) (fld w 0 12))
  | 2#3 => .ok (.lw (fld w 20 5) (fld w 15 5) (fld w 0 12))
  | 3#3 => .ok (.ld (fld w 20 5) (fld w 15 5) (fld w 0 12))
  | 4#3 => .ok (.lbu (fld w 20 5) (fld w 15 5) (fld w 0 12))
  | 5#3 => .ok (.lhu (fld w 20 5) (fld w 15 5) (fld w 0 12))
  | 6#3 => .ok (.lwu (fld w 20 5) (fld w 15 5) (fld w 0 12))
  | 7#3 => .ok (.ldk (fld w 20 5) (fld w 15 5) (fld w 0 12))

/-- Major 0x07, ST (R39, R40). -/
def decodeSt (w : BitVec 32) : Except DecodeError Instr :=
  match fld w 12 3 with
  | 0#3 => .ok (.sb (fld w 20 5) (fld w 15 5) (fld w 0 12))
  | 1#3 => .ok (.sh (fld w 20 5) (fld w 15 5) (fld w 0 12))
  | 2#3 => .ok (.sw (fld w 20 5) (fld w 15 5) (fld w 0 12))
  | 3#3 => .ok (.sd (fld w 20 5) (fld w 15 5) (fld w 0 12))
  | _ => .error .unlistedSub

/-- Major 0x08, BR (R39, R40). -/
def decodeBr (w : BitVec 32) : Except DecodeError Instr :=
  match fld w 12 3 with
  | 0#3 => .ok (.beq (fld w 20 5) (fld w 15 5) (fld w 0 12))
  | 1#3 => .ok (.bne (fld w 20 5) (fld w 15 5) (fld w 0 12))
  | 2#3 => .ok (.blt (fld w 20 5) (fld w 15 5) (fld w 0 12))
  | 3#3 => .ok (.bge (fld w 20 5) (fld w 15 5) (fld w 0 12))
  | 4#3 => .ok (.bltu (fld w 20 5) (fld w 15 5) (fld w 0 12))
  | 5#3 => .ok (.bgeu (fld w 20 5) (fld w 15 5) (fld w 0 12))
  | _ => .error .unlistedSub

/-- Major 0x09, JAL (R39, R40). -/
def decodeJal (w : BitVec 32) : Except DecodeError Instr :=
  .ok (.jal (fld w 0 25))

/-- Major 0x0A, JALR (R39, R40). -/
def decodeJalr (w : BitVec 32) : Except DecodeError Instr :=
  .ok (.jalr (fld w 20 5) (fld w 15 5) (fld w 0 15))

/-- Major 0x0B, LOOP (R39, R40). -/
def decodeLoop (w : BitVec 32) : Except DecodeError Instr :=
  match fld w 12 3 with
  | 0#3 => need (fld w 20 5 == 0#5) (.loop0 (fld w 15 5) (fld w 0 12))
  | 1#3 => need (fld w 20 5 == 0#5) (.loop1 (fld w 15 5) (fld w 0 12))
  | 2#3 => need (fld w 20 5 == 0#5) (.loopi0 (fld w 15 5) (fld w 0 12))
  | 3#3 => need (fld w 20 5 == 0#5) (.loopi1 (fld w 15 5) (fld w 0 12))
  | 4#3 => need (fld w 15 10 == 0#10 && fld w 0 12 == 0#12) (.lexit0)
  | 5#3 => need (fld w 15 10 == 0#10 && fld w 0 12 == 0#12) (.lexit1)
  | _ => .error .unlistedSub

/-- Major 0x0C, QUE (R39, R40). -/
def decodeQue (w : BitVec 32) : Except DecodeError Instr :=
  match fld w 0 4 with
  | 0#4 => need (fld w 4 11 == 0#11) (.qpop (fld w 20 5) (fld w 15 5))
  | 1#4 => need (fld w 4 11 == 0#11) (.qcnt (fld w 20 5) (fld w 15 5))
  | 2#4 => need (fld w 4 11 == 0#11) (.qdrain (fld w 20 5) (fld w 15 5))
  | _ => .error .unlistedSub

/-- Major 0x0D, FPS (R39, R40). -/
def decodeFps (w : BitVec 32) : Except DecodeError Instr :=
  match fld w 0 6 with
  | 0#6 => .ok (.fadd (fld w 20 5) (fld w 15 5) (fld w 10 5) (fld w 8 2) (fld w 6 2))
  | 1#6 => .ok (.fsub (fld w 20 5) (fld w 15 5) (fld w 10 5) (fld w 8 2) (fld w 6 2))
  | 2#6 => .ok (.fmul (fld w 20 5) (fld w 15 5) (fld w 10 5) (fld w 8 2) (fld w 6 2))
  | 3#6 => .ok (.fdiv (fld w 20 5) (fld w 15 5) (fld w 10 5) (fld w 8 2) (fld w 6 2))
  | 4#6 => need (fld w 10 5 == 0#5) (.fsqrt (fld w 20 5) (fld w 15 5) (fld w 8 2) (fld w 6 2))
  | 5#6 => need (fld w 6 2 == 0#2) (.fmin (fld w 20 5) (fld w 15 5) (fld w 10 5) (fld w 8 2))
  | 6#6 => need (fld w 6 2 == 0#2) (.fmax (fld w 20 5) (fld w 15 5) (fld w 10 5) (fld w 8 2))
  | 7#6 => need (fld w 6 2 == 0#2) (.feq (fld w 20 5) (fld w 15 5) (fld w 10 5) (fld w 8 2))
  | 8#6 => need (fld w 6 2 == 0#2) (.flt (fld w 20 5) (fld w 15 5) (fld w 10 5) (fld w 8 2))
  | 9#6 => need (fld w 6 2 == 0#2) (.fle (fld w 20 5) (fld w 15 5) (fld w 10 5) (fld w 8 2))
  | 10#6 => .ok (.fcvtfi (fld w 20 5) (fld w 15 5) (fld w 10 5) (fld w 8 2) (fld w 6 2))
  | 11#6 => .ok (.fcvtif (fld w 20 5) (fld w 15 5) (fld w 10 5) (fld w 8 2) (fld w 6 2))
  | 12#6 => need (fld w 10 5 == 0#5) (.fcvtff (fld w 20 5) (fld w 15 5) (fld w 8 2) (fld w 6 2))
  | 13#6 => need (fld w 10 5 == 0#5 && fld w 6 2 == 0#2) (.fclass (fld w 20 5) (fld w 15 5) (fld w 8 2))
  | 14#6 => .ok (.fma (fld w 20 5) (fld w 15 5) (fld w 10 5) (fld w 8 2) (fld w 6 2))
  | _ => .error .unlistedSub

/-- Major 0x0E, AMO (R39, R40). -/
def decodeAmo (w : BitVec 32) : Except DecodeError Instr :=
  match fld w 0 4 with
  | 0#4 => .ok (.amoswap (fld w 20 5) (fld w 15 5) (fld w 10 5) (fld w 7 3) (fld w 5 2) (fld w 4 1))
  | 1#4 => .ok (.amoadd (fld w 20 5) (fld w 15 5) (fld w 10 5) (fld w 7 3) (fld w 5 2) (fld w 4 1))
  | 2#4 => .ok (.amoand (fld w 20 5) (fld w 15 5) (fld w 10 5) (fld w 7 3) (fld w 5 2) (fld w 4 1))
  | 3#4 => .ok (.amoor (fld w 20 5) (fld w 15 5) (fld w 10 5) (fld w 7 3) (fld w 5 2) (fld w 4 1))
  | 4#4 => .ok (.amoxor (fld w 20 5) (fld w 15 5) (fld w 10 5) (fld w 7 3) (fld w 5 2) (fld w 4 1))
  | 5#4 => .ok (.amomin (fld w 20 5) (fld w 15 5) (fld w 10 5) (fld w 7 3) (fld w 5 2) (fld w 4 1))
  | 6#4 => .ok (.amomax (fld w 20 5) (fld w 15 5) (fld w 10 5) (fld w 7 3) (fld w 5 2) (fld w 4 1))
  | 7#4 => .ok (.amominu (fld w 20 5) (fld w 15 5) (fld w 10 5) (fld w 7 3) (fld w 5 2) (fld w 4 1))
  | 8#4 => .ok (.amomaxu (fld w 20 5) (fld w 15 5) (fld w 10 5) (fld w 7 3) (fld w 5 2) (fld w 4 1))
  | 9#4 => .ok (.amocas (fld w 20 5) (fld w 15 5) (fld w 10 5) (fld w 7 3) (fld w 5 2) (fld w 4 1))
  | 10#4 => need (fld w 10 5 == 0#5 && fld w 5 2 == 0#2) (.lda (fld w 20 5) (fld w 15 5) (fld w 7 3) (fld w 4 1))
  | 11#4 => need (fld w 20 5 == 0#5 && fld w 5 2 == 0#2) (.stl (fld w 15 5) (fld w 10 5) (fld w 7 3) (fld w 4 1))
  | 12#4 => .ok (.amofadd (fld w 20 5) (fld w 15 5) (fld w 10 5) (fld w 7 3) (fld w 5 2) (fld w 4 1))
  | _ => .error .unlistedSub

/-- Major 0x0F, SYNC (R39, R40). -/
def decodeSync (w : BitVec 32) : Except DecodeError Instr :=
  match fld w 12 3 with
  | 0#3 => need (fld w 15 10 == 0#10 && fld w 7 5 == 0#5 && fld w 2 2 == 0#2) (.fence (fld w 4 3) (fld w 0 2))
  | 1#3 => need (fld w 15 10 == 0#10 && fld w 7 5 == 0#5) (.pfence (fld w 4 3) (fld w 0 4))
  | 2#3 => need (fld w 15 10 == 0#10 && fld w 7 5 == 0#5 && fld w 0 4 == 0#4) (.bar (fld w 4 3))
  | _ => .error .unlistedSub

/-- Major 0x10, SBAR (R39, R40). -/
def decodeSbar (w : BitVec 32) : Except DecodeError Instr :=
  need (fld w 19 6 == 0#6) (.sbar (fld w 16 3) (fld w 8 8) (fld w 0 8))

/-- Major 0x11, SYS (R39, R40). -/
def decodeSys (w : BitVec 32) : Except DecodeError Instr :=
  match fld w 12 3 with
  | 0#3 => need (fld w 15 5 == 0#5) (.srr (fld w 20 5) (fld w 0 12))
  | 1#3 => need (fld w 20 5 == 0#5) (.srw (fld w 15 5) (fld w 0 12))
  | 2#3 => .ok (.srs (fld w 20 5) (fld w 15 5) (fld w 0 12))
  | 3#3 => .ok (.src (fld w 20 5) (fld w 15 5) (fld w 0 12))
  | 4#3 => if fld w 11 1 == 0#1 then need (fld w 15 10 == 0#10) (.trap (fld w 0 11)) else need (fld w 15 10 == 0#10) (.breakpoint (fld w 0 11))
  | 5#3 => need (fld w 15 10 == 0#10 && fld w 0 12 == 0#12) (.tret)
  | 6#3 => need (fld w 15 10 == 0#10 && fld w 0 12 == 0#12) (.uret)
  | 7#3 => need (fld w 0 12 == 0#12) (.wfe (fld w 20 5) (fld w 15 5))

/-- Major 0x12, SYSX (R39, R40). -/
def decodeSysx (w : BitVec 32) : Except DecodeError Instr :=
  match fld w 0 4 with
  | 0#4 => need (fld w 20 5 == 0#5 && fld w 4 6 == 0#6) (.vtinv (fld w 15 5) (fld w 10 5))
  | 1#4 => need (fld w 20 5 == 0#5 && fld w 4 6 == 0#6) (.ptinv (fld w 15 5) (fld w 10 5))
  | 2#4 => need (fld w 4 11 == 0#11) (.ctxsave (fld w 20 5) (fld w 15 5))
  | 3#4 => need (fld w 4 11 == 0#11) (.ctxload (fld w 20 5) (fld w 15 5))
  | _ => .error .unlistedSub

/-- Major 0x13, LNCH (R39, R40). -/
def decodeLnch (w : BitVec 32) : Except DecodeError Instr :=
  match fld w 0 4 with
  | 0#4 => need (fld w 4 11 == 0#11) (.launch (fld w 20 5) (fld w 15 5))
  | 1#4 => need (fld w 4 6 == 0#6) (.launchc (fld w 20 5) (fld w 15 5) (fld w 10 5))
  | 2#4 => need (fld w 4 11 == 0#11) (.lwait (fld w 20 5) (fld w 15 5))
  | 3#4 => need (fld w 4 21 == 0#21) (.yield)
  | 4#4 => need (fld w 4 11 == 0#11) (.lstat (fld w 20 5) (fld w 15 5))
  | 5#4 => need (fld w 4 21 == 0#21) (.endThread)
  | _ => .error .unlistedSub

/-- Major 0x14, HCTL (R39, R40). -/
def decodeHctl (w : BitVec 32) : Except DecodeError Instr :=
  match fld w 0 4 with
  | 0#4 => need (fld w 4 11 == 0#11) (.hclaim (fld w 20 5) (fld w 15 5))
  | 1#4 => need (fld w 15 10 == 0#10 && fld w 4 6 == 0#6) (.hfree (fld w 10 5))
  | 2#4 => need (fld w 15 5 == 0#5 && fld w 4 6 == 0#6) (.hstat (fld w 20 5) (fld w 10 5))
  | 3#4 => need (fld w 4 6 == 0#6) (.hdrain (fld w 20 5) (fld w 15 5) (fld w 10 5))
  | _ => .error .unlistedSub

/-- Major 0x15, STG (R39, R40). -/
def decodeStg (w : BitVec 32) : Except DecodeError Instr :=
  match fld w 0 3 with
  | 0#3 => need (fld w 12 3 == 0#3 && fld w 3 3 == 0#3) (.ldt (fld w 6 4) (fld w 20 5) (fld w 15 5) (fld w 10 2))
  | 1#3 => need (fld w 12 3 == 0#3 && fld w 3 3 == 0#3) (.stt (fld w 6 4) (fld w 20 5) (fld w 15 5) (fld w 10 2))
  | 2#3 => need (fld w 10 5 == 0#5 && fld w 3 3 == 0#3) (.txn (fld w 6 4) (fld w 20 5) (fld w 15 5))
  | 3#3 => need (fld w 3 12 == 0#12) (.stqry (fld w 20 5) (fld w 15 5))
  | 4#3 => need (fld w 3 7 == 0#7) (.stload (fld w 20 5) (fld w 15 5) (fld w 10 5))
  | 5#3 => need (fld w 3 12 == 0#12) (.stbind (fld w 20 5) (fld w 15 5))
  | 6#3 => need (fld w 15 5 == 0#5 && fld w 3 7 == 0#7) (.stunbind (fld w 20 5) (fld w 10 5))
  | _ => .error .unlistedSub

/-- Major 0x16, ENG (R39, R40). -/
def decodeEng (w : BitVec 32) : Except DecodeError Instr :=
  match fld w 0 4 with
  | 0#4 => need (fld w 4 3 == 0#3) (.cpy (fld w 20 5) (fld w 15 5) (fld w 10 5) (fld w 9 1) (fld w 8 1) (fld w 7 1))
  | 1#4 => need (fld w 4 11 == 0#11) (.ecwait (fld w 20 5) (fld w 15 5))
  | 2#4 => .ok (.wbld (fld w 20 5) (fld w 15 5) (fld w 10 5) (fld w 9 1) (fld w 8 1) (fld w 7 1) (fld w 4 3))
  | 3#4 => need (fld w 4 3 == 0#3) (.acstm (fld w 20 5) (fld w 15 5) (fld w 10 5) (fld w 9 1) (fld w 8 1) (fld w 7 1))
  | 4#4 => need (fld w 4 3 == 0#3) (.acldm (fld w 20 5) (fld w 15 5) (fld w 10 5) (fld w 9 1) (fld w 8 1) (fld w 7 1))
  | _ => .error .unlistedSub

/-- Major 0x17, ENGB (R39, R40). -/
def decodeEngb (w : BitVec 32) : Except DecodeError Instr :=
  need (fld w 10 5 == 0#5 && fld w 0 5 == 0#5) (.engb (fld w 20 5) (fld w 15 5) (fld w 5 5))

/-- Major 0x18, ATT (R39, R40). -/
def decodeAtt (w : BitVec 32) : Except DecodeError Instr :=
  match fld w 0 4 with
  | 0#4 => need (fld w 4 11 == 0#11) (.attach (fld w 20 5) (fld w 15 5))
  | 1#4 => need (fld w 4 21 == 0#21) (.detach)
  | _ => .error .unlistedSub

/-- Major 0x19, VLD (R39, R40). -/
def decodeVld (w : BitVec 32) : Except DecodeError Instr :=
  match fld w 0 2 with
  | 0#2 => need (fld w 10 5 == 0#5) (.vld (fld w 20 5) (fld w 15 5) (fld w 5 5) (fld w 2 3))
  | 1#2 => .ok (.vldStrided (fld w 20 5) (fld w 15 5) (fld w 10 5) (fld w 5 5) (fld w 2 3))
  | 2#2 => .ok (.vldIndexed (fld w 20 5) (fld w 15 5) (fld w 10 5) (fld w 5 5) (fld w 2 3))
  | 3#2 => .ok (.vldOrd (fld w 20 5) (fld w 15 5) (fld w 10 5) (fld w 5 5) (fld w 2 3))

/-- Major 0x1A, VST (R39, R40). -/
def decodeVst (w : BitVec 32) : Except DecodeError Instr :=
  match fld w 0 2 with
  | 0#2 => need (fld w 10 5 == 0#5) (.vst (fld w 20 5) (fld w 15 5) (fld w 5 5) (fld w 2 3))
  | 1#2 => .ok (.vstStrided (fld w 20 5) (fld w 15 5) (fld w 10 5) (fld w 5 5) (fld w 2 3))
  | 2#2 => .ok (.vstIndexed (fld w 20 5) (fld w 15 5) (fld w 10 5) (fld w 5 5) (fld w 2 3))
  | 3#2 => .ok (.vstOrd (fld w 20 5) (fld w 15 5) (fld w 10 5) (fld w 5 5) (fld w 2 3))

/-- Major 0x1B, VLDS (R39, R40). -/
def decodeVlds (w : BitVec 32) : Except DecodeError Instr :=
  match fld w 0 2 with
  | 0#2 => need (fld w 10 5 == 0#5) (.vldff (fld w 20 5) (fld w 15 5) (fld w 5 5) (fld w 2 3))
  | 1#2 => need (fld w 10 5 == 0#5) (.vldm (fld w 20 5) (fld w 15 5) (fld w 5 5) (fld w 2 3))
  | 2#2 => .ok (.vldb (fld w 20 5) (fld w 15 5) (fld w 10 5) (fld w 5 5) (fld w 2 3))
  | 3#2 => need (fld w 10 5 == 0#5) (.vstm (fld w 20 5) (fld w 15 5) (fld w 5 5) (fld w 2 3))

/-- Major 0x1C, VAMO (R39, R40). -/
def decodeVamo (w : BitVec 32) : Except DecodeError Instr :=
  match fld w 0 2 with
  | 0#2 => .ok (.vamoadd (fld w 20 5) (fld w 15 5) (fld w 10 5) (fld w 5 5) (fld w 2 3))
  | 1#2 => .ok (.vamomin (fld w 20 5) (fld w 15 5) (fld w 10 5) (fld w 5 5) (fld w 2 3))
  | 2#2 => .ok (.vamomax (fld w 20 5) (fld w 15 5) (fld w 10 5) (fld w 5 5) (fld w 2 3))
  | 3#2 => .ok (.vamofadd (fld w 20 5) (fld w 15 5) (fld w 10 5) (fld w 5 5) (fld w 2 3))

/-- Major 0x1D, SPM (R39, R40). -/
def decodeSpm (w : BitVec 32) : Except DecodeError Instr :=
  match fld w 0 2 with
  | 0#2 => need (fld w 2 3 == 0#3) (.spld (fld w 20 5) (fld w 15 5) (fld w 10 5) (fld w 5 5))
  | 1#2 => need (fld w 2 3 == 0#3) (.spst (fld w 20 5) (fld w 15 5) (fld w 10 5) (fld w 5 5))
  | 2#2 => need (fld w 10 5 == 0#5 && fld w 2 3 == 0#3) (.spldu (fld w 20 5) (fld w 15 5) (fld w 5 5))
  | 3#2 => need (fld w 10 5 == 0#5 && fld w 2 3 == 0#3) (.spstu (fld w 20 5) (fld w 15 5) (fld w 5 5))

/-- Major 0x1E, HOP (R39, R40). -/
def decodeHop (w : BitVec 32) : Except DecodeError Instr :=
  match fld w 0 3 with
  | 0#3 => need (fld w 20 5 == 0#5) (.hins (fld w 15 5) (fld w 10 5) (fld w 5 5) (fld w 3 2))
  | 1#3 => need (fld w 10 5 == 0#5) (.hprb (fld w 20 5) (fld w 15 5) (fld w 5 5) (fld w 3 2))
  | 2#3 => need (fld w 20 5 == 0#5 && fld w 10 5 == 0#5) (.hdel (fld w 15 5) (fld w 5 5) (fld w 3 2))
  | 3#3 => need (fld w 20 5 == 0#5) (.hacc (fld w 15 5) (fld w 10 5) (fld w 5 5) (fld w 3 2))
  | 4#3 => need (fld w 20 5 == 0#5) (.hamin (fld w 15 5) (fld w 10 5) (fld w 5 5) (fld w 3 2))
  | 5#3 => need (fld w 20 5 == 0#5) (.hamax (fld w 15 5) (fld w 10 5) (fld w 5 5) (fld w 3 2))
  | 6#3 => need (fld w 20 5 == 0#5) (.hupd (fld w 15 5) (fld w 10 5) (fld w 5 5) (fld w 3 2))
  | _ => .error .unlistedSub

/-- Major 0x1F, VTXN (R39, R40). -/
def decodeVtxn (w : BitVec 32) : Except DecodeError Instr :=
  need (fld w 20 5 == 0#5 && fld w 4 1 == 0#1) (.vtxn (fld w 0 4) (fld w 15 5) (fld w 10 5) (fld w 5 5))

/-- Major 0x20, GEO (R39, R40). -/
def decodeGeo (w : BitVec 32) : Except DecodeError Instr :=
  match fld w 0 5 with
  | 0#5 => .ok (.boxx (fld w 20 5) (fld w 15 5) (fld w 10 5) (fld w 5 5))
  | 1#5 => .ok (.trix (fld w 20 5) (fld w 15 5) (fld w 10 5) (fld w 5 5))
  | 2#5 => need (fld w 20 5 == 0#5) (.mlins (fld w 15 5) (fld w 10 5) (fld w 5 5))
  | 3#5 => need (fld w 20 5 == 0#5) (.mlins2 (fld w 15 5) (fld w 10 5) (fld w 5 5))
  | 4#5 => .ok (.mlrslv (fld w 20 5) (fld w 15 5) (fld w 10 5) (fld w 5 5))
  | 5#5 => need (fld w 15 10 == 0#10) (.mlclr (fld w 10 5) (fld w 5 5))
  | 6#5 => need (fld w 5 10 == 0#10) (.mlcfg (fld w 20 5) (fld w 15 5))
  | _ => .error .unlistedSub

/-- Major 0x21, MVLD (R39, R40). -/
def decodeMvld (w : BitVec 32) : Except DecodeError Instr :=
  match fld w 0 2 with
  | 0#2 => .ok (.mld (fld w 20 5) (fld w 15 5) (fld w 10 5) (fld w 5 5) (fld w 2 3))
  | 1#2 => .ok (.mldp (fld w 20 5) (fld w 15 5) (fld w 10 5) (fld w 5 5) (fld w 2 3))
  | 2#2 => .ok (.mst (fld w 20 5) (fld w 15 5) (fld w 10 5) (fld w 5 5) (fld w 2 3))
  | 3#2 => .ok (.mstp (fld w 20 5) (fld w 15 5) (fld w 10 5) (fld w 5 5) (fld w 2 3))

/-- Major 0x22, VCFG (R39, R40). -/
def decodeVcfg (w : BitVec 32) : Except DecodeError Instr :=
  match fld w 0 4 with
  | 0#4 => need (fld w 4 6 == 0#6) (.setvl (fld w 20 5) (fld w 15 5) (fld w 10 5))
  | 1#4 => need (fld w 4 11 == 0#11) (.settype (fld w 20 5) (fld w 15 5))
  | _ => .error .unlistedSub

/-- Major 0x23, SETTYPEI (R39, R40). -/
def decodeSettypei (w : BitVec 32) : Except DecodeError Instr :=
  need (fld w 20 5 == 0#5) (.settypei (fld w 0 20))

/-- Major 0x28, VINT (R39, R40). -/
noncomputable def decodeVint (w : BitVec 32) : Except DecodeError Instr :=
  match fld w 0 5 with
  | 0#5 => .ok (.vadd (fld w 31 1) (fld w 20 5) (fld w 15 5) (fld w 10 5) (fld w 5 5))
  | 1#5 => .ok (.vsub (fld w 31 1) (fld w 20 5) (fld w 15 5) (fld w 10 5) (fld w 5 5))
  | 2#5 => .ok (.vmul (fld w 31 1) (fld w 20 5) (fld w 15 5) (fld w 10 5) (fld w 5 5))
  | 3#5 => .ok (.vmulh (fld w 31 1) (fld w 20 5) (fld w 15 5) (fld w 10 5) (fld w 5 5))
  | 4#5 => .ok (.vmin (fld w 31 1) (fld w 20 5) (fld w 15 5) (fld w 10 5) (fld w 5 5))
  | 5#5 => .ok (.vmax (fld w 31 1) (fld w 20 5) (fld w 15 5) (fld w 10 5) (fld w 5 5))
  | 6#5 => .ok (.vminu (fld w 31 1) (fld w 20 5) (fld w 15 5) (fld w 10 5) (fld w 5 5))
  | 7#5 => .ok (.vmaxu (fld w 31 1) (fld w 20 5) (fld w 15 5) (fld w 10 5) (fld w 5 5))
  | 8#5 => .ok (.vand (fld w 31 1) (fld w 20 5) (fld w 15 5) (fld w 10 5) (fld w 5 5))
  | 9#5 => .ok (.vor (fld w 31 1) (fld w 20 5) (fld w 15 5) (fld w 10 5) (fld w 5 5))
  | 10#5 => .ok (.vxor (fld w 31 1) (fld w 20 5) (fld w 15 5) (fld w 10 5) (fld w 5 5))
  | 11#5 => .ok (.vsll (fld w 31 1) (fld w 20 5) (fld w 15 5) (fld w 10 5) (fld w 5 5))
  | 12#5 => .ok (.vsrl (fld w 31 1) (fld w 20 5) (fld w 15 5) (fld w 10 5) (fld w 5 5))
  | 13#5 => .ok (.vsra (fld w 31 1) (fld w 20 5) (fld w 15 5) (fld w 10 5) (fld w 5 5))
  | 14#5 => .ok (.vmacc (fld w 31 1) (fld w 20 5) (fld w 15 5) (fld w 10 5) (fld w 5 5))
  | 15#5 => .ok (.vdiv (fld w 31 1) (fld w 20 5) (fld w 15 5) (fld w 10 5) (fld w 5 5))
  | 16#5 => .ok (.vaddsat (fld w 31 1) (fld w 20 5) (fld w 15 5) (fld w 10 5) (fld w 5 5))
  | 17#5 => .ok (.vsubsat (fld w 31 1) (fld w 20 5) (fld w 15 5) (fld w 10 5) (fld w 5 5))
  | _ => .error .unlistedSub

/-- Major 0x29, VINTS (R39, R40). -/
noncomputable def decodeVints (w : BitVec 32) : Except DecodeError Instr :=
  match fld w 0 5 with
  | 0#5 => .ok (.vintsVadd (fld w 31 1) (fld w 20 5) (fld w 15 5) (fld w 10 5) (fld w 5 5))
  | 1#5 => .ok (.vintsVsub (fld w 31 1) (fld w 20 5) (fld w 15 5) (fld w 10 5) (fld w 5 5))
  | 2#5 => .ok (.vintsVmul (fld w 31 1) (fld w 20 5) (fld w 15 5) (fld w 10 5) (fld w 5 5))
  | 3#5 => .ok (.vintsVmulh (fld w 31 1) (fld w 20 5) (fld w 15 5) (fld w 10 5) (fld w 5 5))
  | 4#5 => .ok (.vintsVmin (fld w 31 1) (fld w 20 5) (fld w 15 5) (fld w 10 5) (fld w 5 5))
  | 5#5 => .ok (.vintsVmax (fld w 31 1) (fld w 20 5) (fld w 15 5) (fld w 10 5) (fld w 5 5))
  | 6#5 => .ok (.vintsVminu (fld w 31 1) (fld w 20 5) (fld w 15 5) (fld w 10 5) (fld w 5 5))
  | 7#5 => .ok (.vintsVmaxu (fld w 31 1) (fld w 20 5) (fld w 15 5) (fld w 10 5) (fld w 5 5))
  | 8#5 => .ok (.vintsVand (fld w 31 1) (fld w 20 5) (fld w 15 5) (fld w 10 5) (fld w 5 5))
  | 9#5 => .ok (.vintsVor (fld w 31 1) (fld w 20 5) (fld w 15 5) (fld w 10 5) (fld w 5 5))
  | 10#5 => .ok (.vintsVxor (fld w 31 1) (fld w 20 5) (fld w 15 5) (fld w 10 5) (fld w 5 5))
  | 11#5 => .ok (.vintsVsll (fld w 31 1) (fld w 20 5) (fld w 15 5) (fld w 10 5) (fld w 5 5))
  | 12#5 => .ok (.vintsVsrl (fld w 31 1) (fld w 20 5) (fld w 15 5) (fld w 10 5) (fld w 5 5))
  | 13#5 => .ok (.vintsVsra (fld w 31 1) (fld w 20 5) (fld w 15 5) (fld w 10 5) (fld w 5 5))
  | 14#5 => .ok (.vintsVmacc (fld w 31 1) (fld w 20 5) (fld w 15 5) (fld w 10 5) (fld w 5 5))
  | 15#5 => .ok (.vintsVdiv (fld w 31 1) (fld w 20 5) (fld w 15 5) (fld w 10 5) (fld w 5 5))
  | 16#5 => .ok (.vintsVaddsat (fld w 31 1) (fld w 20 5) (fld w 15 5) (fld w 10 5) (fld w 5 5))
  | 17#5 => .ok (.vintsVsubsat (fld w 31 1) (fld w 20 5) (fld w 15 5) (fld w 10 5) (fld w 5 5))
  | _ => .error .unlistedSub

/-- Major 0x2A, VFP (R39, R40). -/
noncomputable def decodeVfp (w : BitVec 32) : Except DecodeError Instr :=
  match fld w 0 5 with
  | 0#5 => .ok (.vfadd (fld w 31 1) (fld w 20 5) (fld w 15 5) (fld w 10 5) (fld w 5 5))
  | 1#5 => .ok (.vfsub (fld w 31 1) (fld w 20 5) (fld w 15 5) (fld w 10 5) (fld w 5 5))
  | 2#5 => .ok (.vfmul (fld w 31 1) (fld w 20 5) (fld w 15 5) (fld w 10 5) (fld w 5 5))
  | 3#5 => .ok (.vfdiv (fld w 31 1) (fld w 20 5) (fld w 15 5) (fld w 10 5) (fld w 5 5))
  | 4#5 => need (fld w 10 5 == 0#5) (.vfsqrt (fld w 31 1) (fld w 20 5) (fld w 15 5) (fld w 5 5))
  | 5#5 => .ok (.vfma (fld w 31 1) (fld w 20 5) (fld w 15 5) (fld w 10 5) (fld w 5 5))
  | 6#5 => .ok (.vfms (fld w 31 1) (fld w 20 5) (fld w 15 5) (fld w 10 5) (fld w 5 5))
  | 7#5 => .ok (.vfmin (fld w 31 1) (fld w 20 5) (fld w 15 5) (fld w 10 5) (fld w 5 5))
  | 8#5 => .ok (.vfmax (fld w 31 1) (fld w 20 5) (fld w 15 5) (fld w 10 5) (fld w 5 5))
  | 9#5 => need (fld w 10 5 == 0#5) (.vfabs (fld w 31 1) (fld w 20 5) (fld w 15 5) (fld w 5 5))
  | 10#5 => need (fld w 10 5 == 0#5) (.vfneg (fld w 31 1) (fld w 20 5) (fld w 15 5) (fld w 5 5))
  | _ => .error .unlistedSub

/-- Major 0x2B, VFPS (R39, R40). -/
noncomputable def decodeVfps (w : BitVec 32) : Except DecodeError Instr :=
  match fld w 0 5 with
  | 0#5 => .ok (.vfpsVfadd (fld w 31 1) (fld w 20 5) (fld w 15 5) (fld w 10 5) (fld w 5 5))
  | 1#5 => .ok (.vfpsVfsub (fld w 31 1) (fld w 20 5) (fld w 15 5) (fld w 10 5) (fld w 5 5))
  | 2#5 => .ok (.vfpsVfmul (fld w 31 1) (fld w 20 5) (fld w 15 5) (fld w 10 5) (fld w 5 5))
  | 3#5 => .ok (.vfpsVfdiv (fld w 31 1) (fld w 20 5) (fld w 15 5) (fld w 10 5) (fld w 5 5))
  | 5#5 => .ok (.vfpsVfma (fld w 31 1) (fld w 20 5) (fld w 15 5) (fld w 10 5) (fld w 5 5))
  | 6#5 => .ok (.vfpsVfms (fld w 31 1) (fld w 20 5) (fld w 15 5) (fld w 10 5) (fld w 5 5))
  | 7#5 => .ok (.vfpsVfmin (fld w 31 1) (fld w 20 5) (fld w 15 5) (fld w 10 5) (fld w 5 5))
  | 8#5 => .ok (.vfpsVfmax (fld w 31 1) (fld w 20 5) (fld w 15 5) (fld w 10 5) (fld w 5 5))
  | _ => .error .unlistedSub

/-- Major 0x2C, VCMP (R39, R40). -/
noncomputable def decodeVcmp (w : BitVec 32) : Except DecodeError Instr :=
  match fld w 0 3 with
  | 0#3 => .ok (.vcmpEq (fld w 31 1) (fld w 20 5) (fld w 15 5) (fld w 10 5) (fld w 5 5) (fld w 3 2))
  | 1#3 => .ok (.vcmpNe (fld w 31 1) (fld w 20 5) (fld w 15 5) (fld w 10 5) (fld w 5 5) (fld w 3 2))
  | 2#3 => .ok (.vcmpLt (fld w 31 1) (fld w 20 5) (fld w 15 5) (fld w 10 5) (fld w 5 5) (fld w 3 2))
  | 3#3 => .ok (.vcmpGe (fld w 31 1) (fld w 20 5) (fld w 15 5) (fld w 10 5) (fld w 5 5) (fld w 3 2))
  | 4#3 => .ok (.vcmpLe (fld w 31 1) (fld w 20 5) (fld w 15 5) (fld w 10 5) (fld w 5 5) (fld w 3 2))
  | 5#3 => .ok (.vcmpGt (fld w 31 1) (fld w 20 5) (fld w 15 5) (fld w 10 5) (fld w 5 5) (fld w 3 2))
  | 6#3 => need (fld w 3 2 == 2#2) (.vcmpUn (fld w 31 1) (fld w 20 5) (fld w 15 5) (fld w 10 5) (fld w 5 5))
  | _ => .error .unlistedSub

/-- Major 0x2D, PRED (R39, R40). -/
noncomputable def decodePred (w : BitVec 32) : Except DecodeError Instr :=
  match fld w 0 5 with
  | 0#5 => .ok (.pand (fld w 31 1) (fld w 20 5) (fld w 15 5) (fld w 10 5) (fld w 5 5))
  | 1#5 => .ok (.por (fld w 31 1) (fld w 20 5) (fld w 15 5) (fld w 10 5) (fld w 5 5))
  | 2#5 => .ok (.pxor (fld w 31 1) (fld w 20 5) (fld w 15 5) (fld w 10 5) (fld w 5 5))
  | 3#5 => .ok (.pandn (fld w 31 1) (fld w 20 5) (fld w 15 5) (fld w 10 5) (fld w 5 5))
  | 4#5 => need (fld w 10 5 == 0#5) (.pnot (fld w 31 1) (fld w 20 5) (fld w 15 5) (fld w 5 5))
  | 5#5 => need (fld w 10 5 == 0#5) (.plead (fld w 31 1) (fld w 20 5) (fld w 15 5) (fld w 5 5))
  | 6#5 => need (fld w 10 5 == 0#5) (.pthru (fld w 31 1) (fld w 20 5) (fld w 15 5) (fld w 5 5))
  | 7#5 => need (fld w 10 5 == 0#5) (.ppre (fld w 31 1) (fld w 20 5) (fld w 15 5) (fld w 5 5))
  | 8#5 => need (fld w 10 5 == 0#5) (.pcnt (fld w 31 1) (fld w 20 5) (fld w 15 5) (fld w 5 5))
  | 9#5 => need (fld w 10 5 == 0#5) (.pany (fld w 31 1) (fld w 20 5) (fld w 15 5) (fld w 5 5))
  | 10#5 => need (fld w 10 10 == 0#10) (.pset (fld w 31 1) (fld w 20 5) (fld w 5 5))
  | 11#5 => need (fld w 10 10 == 0#10) (.pclr (fld w 31 1) (fld w 20 5) (fld w 5 5))
  | 12#5 => need (fld w 10 10 == 0#10) (.pgetf (fld w 31 1) (fld w 20 5) (fld w 5 5))
  | _ => .error .unlistedSub

/-- Major 0x2E, PERM (R39, R40). -/
noncomputable def decodePerm (w : BitVec 32) : Except DecodeError Instr :=
  match fld w 0 5 with
  | 0#5 => .ok (.vslup (fld w 31 1) (fld w 20 5) (fld w 15 5) (fld w 10 5) (fld w 5 5))
  | 1#5 => .ok (.vsldn (fld w 31 1) (fld w 20 5) (fld w 15 5) (fld w 10 5) (fld w 5 5))
  | 2#5 => .ok (.vslupi (fld w 31 1) (fld w 20 5) (fld w 15 5) (fld w 10 5) (fld w 5 5))
  | 3#5 => .ok (.vsldni (fld w 31 1) (fld w 20 5) (fld w 15 5) (fld w 10 5) (fld w 5 5))
  | 4#5 => .ok (.vperm (fld w 31 1) (fld w 20 5) (fld w 15 5) (fld w 10 5) (fld w 5 5))
  | 5#5 => need (fld w 5 5 == 0#5) (.vcomp (fld w 31 1) (fld w 20 5) (fld w 15 5) (fld w 10 5))
  | 6#5 => need (fld w 5 5 == 0#5) (.vexpd (fld w 31 1) (fld w 20 5) (fld w 15 5) (fld w 10 5))
  | 7#5 => .ok (.vmerge (fld w 31 1) (fld w 20 5) (fld w 15 5) (fld w 10 5) (fld w 5 5))
  | 8#5 => need (fld w 10 5 == 0#5) (.vbcast (fld w 31 1) (fld w 20 5) (fld w 15 5) (fld w 5 5))
  | 9#5 => need (fld w 5 5 == 0#5) (.vextr (fld w 31 1) (fld w 20 5) (fld w 15 5) (fld w 10 5))
  | 10#5 => need (fld w 5 5 == 0#5) (.vins (fld w 31 1) (fld w 20 5) (fld w 15 5) (fld w 10 5))
  | 11#5 => need (fld w 10 5 == 0#5) (.viota (fld w 31 1) (fld w 20 5) (fld w 15 5) (fld w 5 5))
  | 12#5 => need (fld w 10 10 == 0#10) (.vid (fld w 31 1) (fld w 20 5) (fld w 5 5))
  | _ => .error .unlistedSub

/-- Major 0x2F, VRED (R39, R40). -/
noncomputable def decodeVred (w : BitVec 32) : Except DecodeError Instr :=
  match fld w 0 5 with
  | 0#5 => need (fld w 10 5 == 0#5) (.vredsum (fld w 31 1) (fld w 20 5) (fld w 15 5) (fld w 5 5))
  | 1#5 => need (fld w 10 5 == 0#5) (.vredmin (fld w 31 1) (fld w 20 5) (fld w 15 5) (fld w 5 5))
  | 2#5 => need (fld w 10 5 == 0#5) (.vredmax (fld w 31 1) (fld w 20 5) (fld w 15 5) (fld w 5 5))
  | 3#5 => need (fld w 10 5 == 0#5) (.vfredo (fld w 31 1) (fld w 20 5) (fld w 15 5) (fld w 5 5))
  | 4#5 => need (fld w 10 5 == 0#5) (.vfredt (fld w 31 1) (fld w 20 5) (fld w 15 5) (fld w 5 5))
  | 5#5 => need (fld w 10 5 == 0#5) (.vfredmin (fld w 31 1) (fld w 20 5) (fld w 15 5) (fld w 5 5))
  | 6#5 => need (fld w 10 5 == 0#5) (.vfredmax (fld w 31 1) (fld w 20 5) (fld w 15 5) (fld w 5 5))
  | _ => .error .unlistedSub

/-- Major 0x30, VCPX (R39, R40). -/
noncomputable def decodeVcpx (w : BitVec 32) : Except DecodeError Instr :=
  match fld w 0 5 with
  | 0#5 => .ok (.vcmul (fld w 31 1) (fld w 20 5) (fld w 15 5) (fld w 10 5) (fld w 5 5))
  | 1#5 => .ok (.vcmac (fld w 31 1) (fld w 20 5) (fld w 15 5) (fld w 10 5) (fld w 5 5))
  | 2#5 => .ok (.vcmulc (fld w 31 1) (fld w 20 5) (fld w 15 5) (fld w 10 5) (fld w 5 5))
  | 3#5 => need (fld w 10 5 == 0#5) (.vcabs2 (fld w 31 1) (fld w 20 5) (fld w 15 5) (fld w 5 5))
  | _ => .error .unlistedSub

/-- Major 0x31, VCVT (R39, R40). -/
noncomputable def decodeVcvt (w : BitVec 32) : Except DecodeError Instr :=
  match fld w 0 5 with
  | 16#5 => .ok (.vscale (fld w 31 1) (fld w 20 5) (fld w 15 5) (fld w 10 5) (fld w 5 5))
  | 17#5 => need (fld w 10 5 == 0#5) (.vqmax (fld w 31 1) (fld w 20 5) (fld w 15 5) (fld w 5 5))
  | _ => if fld w 4 1 == 0#1 then need (fld w 13 2 == 0#2) (.vcvt (fld w 31 1) (fld w 20 5) (fld w 15 5) (fld w 10 3) (fld w 5 5) (fld w 0 4)) else .error .unlistedSub

/-- Major 0x32, MVP (R39, R40). -/
noncomputable def decodeMvp (w : BitVec 32) : Except DecodeError Instr :=
  match fld w 0 3 with
  | 0#3 => .ok (.mgp (fld w 31 1) (fld w 20 5) (fld w 15 5) (fld w 10 5) (fld w 5 5) (fld w 3 2))
  | 1#3 => .ok (.mwdg (fld w 31 1) (fld w 20 5) (fld w 15 5) (fld w 10 5) (fld w 5 5) (fld w 3 2))
  | 2#3 => .ok (.mdot (fld w 31 1) (fld w 20 5) (fld w 15 5) (fld w 10 5) (fld w 5 5) (fld w 3 2))
  | 3#3 => .ok (.mlct (fld w 31 1) (fld w 20 5) (fld w 15 5) (fld w 10 5) (fld w 5 5) (fld w 3 2))
  | 4#3 => .ok (.mjoin (fld w 31 1) (fld w 20 5) (fld w 15 5) (fld w 10 5) (fld w 5 5) (fld w 3 2))
  | 5#3 => .ok (.msand (fld w 31 1) (fld w 20 5) (fld w 15 5) (fld w 10 5) (fld w 5 5) (fld w 3 2))
  | 6#3 => .ok (.mcomm (fld w 31 1) (fld w 20 5) (fld w 15 5) (fld w 10 5) (fld w 5 5) (fld w 3 2))
  | _ => .error .unlistedSub

/-- Major 0x33, MVU (R39, R40). -/
noncomputable def decodeMvu (w : BitVec 32) : Except DecodeError Instr :=
  match fld w 0 3 with
  | 0#3 => need (fld w 10 5 == 0#5) (.mrev (fld w 31 1) (fld w 20 5) (fld w 15 5) (fld w 5 5) (fld w 3 2))
  | 1#3 => need (fld w 10 5 == 0#5) (.mdual (fld w 31 1) (fld w 20 5) (fld w 15 5) (fld w 5 5) (fld w 3 2))
  | 2#3 => .ok (.mgrd (fld w 31 1) (fld w 20 5) (fld w 15 5) (fld w 10 5) (fld w 5 5) (fld w 3 2))
  | 3#3 => need (fld w 10 5 == 0#5) (.mnrm2 (fld w 31 1) (fld w 20 5) (fld w 15 5) (fld w 5 5) (fld w 3 2))
  | 4#3 => need (fld w 10 5 == 0#5) (.mnrmi (fld w 31 1) (fld w 20 5) (fld w 15 5) (fld w 5 5) (fld w 3 2))
  | 5#3 => need (fld w 10 5 == 0#5) (.mnormz (fld w 31 1) (fld w 20 5) (fld w 15 5) (fld w 5 5) (fld w 3 2))
  | 6#3 => need (fld w 10 5 == 0#5) (.mexpb (fld w 31 1) (fld w 20 5) (fld w 15 5) (fld w 5 5) (fld w 3 2))
  | 7#3 => need (fld w 10 5 == 0#5) (.mlogm (fld w 31 1) (fld w 20 5) (fld w 15 5) (fld w 5 5) (fld w 3 2))

/-- Major 0x34, MVM (R39, R40). -/
noncomputable def decodeMvm (w : BitVec 32) : Except DecodeError Instr :=
  match fld w 0 3 with
  | 0#3 => need (fld w 10 5 == 0#5) (.mmov (fld w 31 1) (fld w 20 5) (fld w 15 5) (fld w 5 5) (fld w 3 2))
  | 1#3 => need (fld w 15 5 == 0#5 && fld w 3 7 == 0#7) (.msetm (fld w 31 1) (fld w 20 5) (fld w 10 5))
  | 2#3 => need (fld w 3 12 == 0#12) (.mgetm (fld w 31 1) (fld w 20 5) (fld w 15 5))
  | 3#3 => need (fld w 3 12 == 0#12) (.mclean (fld w 31 1) (fld w 20 5) (fld w 15 5))
  | 4#3 => .ok (.mfromv (fld w 31 1) (fld w 20 5) (fld w 15 5) (fld w 10 5) (fld w 5 5) (fld w 3 2))
  | 5#3 => need (fld w 3 2 == 0#2) (.mtov (fld w 31 1) (fld w 20 5) (fld w 15 5) (fld w 10 5) (fld w 5 5))
  | 6#3 => .ok (.madd (fld w 31 1) (fld w 20 5) (fld w 15 5) (fld w 10 5) (fld w 5 5) (fld w 3 2))
  | 7#3 => .ok (.msub (fld w 31 1) (fld w 20 5) (fld w 15 5) (fld w 10 5) (fld w 5 5) (fld w 3 2))

/-- Major 0x35, MVS (R39, R40). -/
noncomputable def decodeMvs (w : BitVec 32) : Except DecodeError Instr :=
  match fld w 0 3 with
  | 0#3 => .ok (.mscal (fld w 31 1) (fld w 20 5) (fld w 15 5) (fld w 10 5) (fld w 5 5) (fld w 3 2))
  | 1#3 => need (fld w 10 5 == 0#5) (.mconj (fld w 31 1) (fld w 20 5) (fld w 15 5) (fld w 5 5) (fld w 3 2))
  | 2#3 => need (fld w 10 5 == 0#5) (.minvol (fld w 31 1) (fld w 20 5) (fld w 15 5) (fld w 5 5) (fld w 3 2))
  | _ => .error .unlistedSub

/-- Major 0x36, MAT (R39, R40). -/
noncomputable def decodeMat (w : BitVec 32) : Except DecodeError Instr :=
  match fld w 0 3 with
  | 0#3 => need (fld w 3 2 == 0#2) (.mxac (fld w 31 1) (fld w 20 5) (fld w 15 5) (fld w 10 5) (fld w 7 3) (fld w 6 1) (fld w 5 1))
  | 1#3 => need (fld w 3 2 == 0#2) (.mxacs (fld w 31 1) (fld w 20 5) (fld w 15 5) (fld w 10 5) (fld w 7 3) (fld w 6 1) (fld w 5 1))
  | 2#3 => need (fld w 7 13 == 0#13 && fld w 3 2 == 0#2) (.mzero (fld w 31 1) (fld w 20 5) (fld w 6 1) (fld w 5 1))
  | 3#3 => need (fld w 7 8 == 0#8 && fld w 3 2 == 0#2) (.acld (fld w 31 1) (fld w 20 5) (fld w 15 5) (fld w 6 1) (fld w 5 1))
  | 4#3 => need (fld w 7 8 == 0#8 && fld w 3 2 == 0#2) (.acst (fld w 31 1) (fld w 20 5) (fld w 15 5) (fld w 6 1) (fld w 5 1))
  | 5#3 => need (fld w 11 9 == 0#9 && fld w 7 3 == 0#3 && fld w 3 2 == 0#2) (.mchk (fld w 31 1) (fld w 20 5) (fld w 10 1) (fld w 6 1) (fld w 5 1))
  | _ => .error .unlistedSub

/-- Major 0x37, VTOK (R39, R40). -/
noncomputable def decodeVtok (w : BitVec 32) : Except DecodeError Instr :=
  need (fld w 2 23 == 0#23) (.vtok (fld w 31 1) (fld w 1 1) (fld w 0 1))

/-- The A-side majors 0x01 to 0x23 (R34, R39). -/
def decodeASide (w : BitVec 32) : Except DecodeError Instr :=
  match fld w 25 6 with
  | 1#6 => decodeInt w
  | 2#6 => decodeAddi w
  | 3#6 => decodeImm w
  | 4#6 => decodeHi w
  | 5#6 => decodePcadd w
  | 6#6 => decodeLd w
  | 7#6 => decodeSt w
  | 8#6 => decodeBr w
  | 9#6 => decodeJal w
  | 10#6 => decodeJalr w
  | 11#6 => decodeLoop w
  | 12#6 => decodeQue w
  | 13#6 => decodeFps w
  | 14#6 => decodeAmo w
  | 15#6 => decodeSync w
  | 16#6 => decodeSbar w
  | 17#6 => decodeSys w
  | 18#6 => decodeSysx w
  | 19#6 => decodeLnch w
  | 20#6 => decodeHctl w
  | 21#6 => decodeStg w
  | 22#6 => decodeEng w
  | 23#6 => decodeEngb w
  | 24#6 => decodeAtt w
  | 25#6 => decodeVld w
  | 26#6 => decodeVst w
  | 27#6 => decodeVlds w
  | 28#6 => decodeVamo w
  | 29#6 => decodeSpm w
  | 30#6 => decodeHop w
  | 31#6 => decodeVtxn w
  | 32#6 => decodeGeo w
  | 33#6 => decodeMvld w
  | 34#6 => decodeVcfg w
  | 35#6 => decodeSettypei w
  | _ => .error .reservedMajor

/-- The E-side majors 0x28 to 0x37 (R34, R40). -/
noncomputable def decodeESide (w : BitVec 32) : Except DecodeError Instr :=
  match fld w 25 6 with
  | 40#6 => decodeVint w
  | 41#6 => decodeVints w
  | 42#6 => decodeVfp w
  | 43#6 => decodeVfps w
  | 44#6 => decodeVcmp w
  | 45#6 => decodePred w
  | 46#6 => decodePerm w
  | 47#6 => decodeVred w
  | 48#6 => decodeVcpx w
  | 49#6 => decodeVcvt w
  | 50#6 => decodeMvp w
  | 51#6 => decodeMvu w
  | 52#6 => decodeMvm w
  | 53#6 => decodeMvs w
  | 54#6 => decodeMat w
  | 55#6 => decodeVtok w
  | _ => .error .reservedMajor

/-- Is the word's major an A-side major (R34)? -/
def isASideMajor (w : BitVec 32) : Bool := decide (0x01 ≤ (fld w 25 6).toNat) && decide ((fld w 25 6).toNat ≤ 0x23)

/-- Is the word's major an E-side major (R34)? -/
def isESideMajor (w : BitVec 32) : Bool := decide (0x28 ≤ (fld w 25 6).toNat) && decide ((fld w 25 6).toNat ≤ 0x37)

/-- The word's constructor and fields, with its reserved fields checked (R34, R35). -/
noncomputable def decodeFields (w : BitVec 32) : Except DecodeError Instr :=
  if isASideMajor w then (if fld w 31 1 == 0#1 then decodeASide w else .error .continuation)
  else if isESideMajor w then decodeESide w
  else .error .reservedMajor

/-- The decoder: total on any word, refusing by name (R34, R35). -/
noncomputable def decode (w : BitVec 32) : Except DecodeError Instr :=
  match decodeFields w with
  | .ok i => if i.wellFormed then .ok i else .error .reservedOperand
  | .error e => .error e

/-- The instruction word from its four bytes as memory holds them, lowest address first (R1, R32). -/
def wordOfBytes : List (BitVec 8) → BitVec 32
  | [b0, b1, b2, b3] => b3 ++ b2 ++ b1 ++ b0
  | _ => 0#32

/-- The four bytes of a word as memory holds them, lowest address first (R1, R32). -/
def bytesOfWord (w : BitVec 32) : List (BitVec 8) :=
  [w.extractLsb' 0 8, w.extractLsb' 8 8, w.extractLsb' 16 8, w.extractLsb' 24 8]

/-- What the decoder reads from an instruction whose bits are w (one word of 32 bits). -/
noncomputable def decodeTableWord (nbits w : Nat) : Option Instr :=
  if nbits ≤ 32 then
    match decode (wordOfBytes (bytesOfWord (BitVec.ofNat 32 w))) with
    | .ok i => some i
    | .error _ => none
  else none

/-- Has the instruction a word? The events have none. -/
def Instr.hasWord (i : Instr) : Bool :=
  match i with
  | .queueDeadlock _ => false
  | .wfeTimeout _ => false
  | .stagedResend _ => false
  | .commandComplete _ _ => false
  | .tokenDeadlock _ => false
  | .mlInsertion _ => false
  | .mlResolveApply _ => false
  | .mlClearApply _ => false
  | .setvlReevaluation _ => false
  | .bootLaunch _ _ => false
  | .partitionUnitTake _ => false
  | .gateReoffer _ _ => false
  | .threadDispatch _ => false
  | .recordAging _ => false
  | .launchComplete _ _ => false
  | .nodeFlush _ _ => false
  | .laneReclaim _ => false
  | .governorEvaluation _ _ _ _ _ => false
  | .preemption _ => false
  | .resume _ => false
  | .peerRequest _ => false
  | .peerResend _ => false
  | .peerRetryReply _ => false
  | .linkError _ => false
  | .flitCrcRetry _ => false
  | .crinikLaneFailure _ => false
  | .crinikPortLoss _ => false
  | .hostRequest _ _ => false
  | .softError _ _ _ => false
  | .eccCorrected _ _ _ => false
  | .uncorrectableError _ _ => false
  | .fatalDeviceError _ => false
  | .heartbeat _ => false
  | .takeoverExpiry  => false
  | .ownershipWrite _ _ => false
  | .modidWrite _ _ => false
  | .registerWrite _ _ _ _ => false
  | .create _ => false
  | .destroy _ => false
  | .resize _ => false
  | .addmem _ => false
  | .exportAperture _ => false
  | .peermap _ => false
  | .peerunmap _ => false
  | .fenceq _ => false
  | .readmit _ => false
  | .retiresb _ => false
  | .retirech _ => false
  | .power _ => false
  | .links _ => false
  | .update _ => false
  | .seize  => false
  | .handback  => false
  | .requestComplete  => false
  | .imageSwitch _ _ => false
  | .spdmGetMeasurements  => false
  | .spdmChallenge _ => false
  | .spdmKeyExchange _ => false
  | .pldmMonitoring  => false
  | .pldmFirmwareUpdate _ _ _ => false
  | .auxPowerUp _ => false
  | .mainPowerUp _ _ => false
  | .illegalWord _ => false
  | .dieToDieLinkRetry _ => false
  | .replyAcknowledgement _ _ _ => false
  | _ => true

/-- The word of an instruction (R33, R37, R39, R40); 0 for an event, which has none. -/
def encode (i : Instr) : BitVec 32 :=
  match i with
  | .add d a b w => 0#1 ++ 0x01#6 ++ d ++ a ++ b ++ 0#3 ++ w ++ 0#6
  | .sub d a b w => 0#1 ++ 0x01#6 ++ d ++ a ++ b ++ 0#3 ++ w ++ 1#6
  | .and d a b w => 0#1 ++ 0x01#6 ++ d ++ a ++ b ++ 0#3 ++ w ++ 2#6
  | .or d a b w => 0#1 ++ 0x01#6 ++ d ++ a ++ b ++ 0#3 ++ w ++ 3#6
  | .xor d a b w => 0#1 ++ 0x01#6 ++ d ++ a ++ b ++ 0#3 ++ w ++ 4#6
  | .sll d a b w => 0#1 ++ 0x01#6 ++ d ++ a ++ b ++ 0#3 ++ w ++ 5#6
  | .srl d a b w => 0#1 ++ 0x01#6 ++ d ++ a ++ b ++ 0#3 ++ w ++ 6#6
  | .sra d a b w => 0#1 ++ 0x01#6 ++ d ++ a ++ b ++ 0#3 ++ w ++ 7#6
  | .mul d a b w => 0#1 ++ 0x01#6 ++ d ++ a ++ b ++ 0#3 ++ w ++ 8#6
  | .mulh d a b w => 0#1 ++ 0x01#6 ++ d ++ a ++ b ++ 0#3 ++ w ++ 9#6
  | .mulhu d a b w => 0#1 ++ 0x01#6 ++ d ++ a ++ b ++ 0#3 ++ w ++ 10#6
  | .div d a b w => 0#1 ++ 0x01#6 ++ d ++ a ++ b ++ 0#3 ++ w ++ 11#6
  | .divu d a b w => 0#1 ++ 0x01#6 ++ d ++ a ++ b ++ 0#3 ++ w ++ 12#6
  | .rem d a b w => 0#1 ++ 0x01#6 ++ d ++ a ++ b ++ 0#3 ++ w ++ 13#6
  | .remu d a b w => 0#1 ++ 0x01#6 ++ d ++ a ++ b ++ 0#3 ++ w ++ 14#6
  | .min d a b w => 0#1 ++ 0x01#6 ++ d ++ a ++ b ++ 0#3 ++ w ++ 15#6
  | .max d a b w => 0#1 ++ 0x01#6 ++ d ++ a ++ b ++ 0#3 ++ w ++ 16#6
  | .minu d a b w => 0#1 ++ 0x01#6 ++ d ++ a ++ b ++ 0#3 ++ w ++ 17#6
  | .maxu d a b w => 0#1 ++ 0x01#6 ++ d ++ a ++ b ++ 0#3 ++ w ++ 18#6
  | .slt d a b w => 0#1 ++ 0x01#6 ++ d ++ a ++ b ++ 0#3 ++ w ++ 19#6
  | .sltu d a b w => 0#1 ++ 0x01#6 ++ d ++ a ++ b ++ 0#3 ++ w ++ 20#6
  | .addv d a b w => 0#1 ++ 0x01#6 ++ d ++ a ++ b ++ 0#3 ++ w ++ 21#6
  | .subv d a b w => 0#1 ++ 0x01#6 ++ d ++ a ++ b ++ 0#3 ++ w ++ 22#6
  | .clz d a w => 0#1 ++ 0x01#6 ++ d ++ a ++ 0#8 ++ w ++ 23#6
  | .popc d a w => 0#1 ++ 0x01#6 ++ d ++ a ++ 0#8 ++ w ++ 24#6
  | .addi d a i => 0#1 ++ 0x02#6 ++ d ++ a ++ i
  | .andi d a i => 0#1 ++ 0x03#6 ++ d ++ a ++ 0#3 ++ i
  | .ori d a i => 0#1 ++ 0x03#6 ++ d ++ a ++ 1#3 ++ i
  | .xori d a i => 0#1 ++ 0x03#6 ++ d ++ a ++ 2#3 ++ i
  | .slti d a i => 0#1 ++ 0x03#6 ++ d ++ a ++ 3#3 ++ i
  | .sltiu d a i => 0#1 ++ 0x03#6 ++ d ++ a ++ 4#3 ++ i
  | .slli d a i => 0#1 ++ 0x03#6 ++ d ++ a ++ 5#3 ++ 0#6 ++ i
  | .srli d a i => 0#1 ++ 0x03#6 ++ d ++ a ++ 6#3 ++ 0#6 ++ i
  | .srai d a i => 0#1 ++ 0x03#6 ++ d ++ a ++ 7#3 ++ 0#6 ++ i
  | .hi d i => 0#1 ++ 0x04#6 ++ d ++ i
  | .pcadd d i => 0#1 ++ 0x05#6 ++ d ++ i
  | .lb d a i => 0#1 ++ 0x06#6 ++ d ++ a ++ 0#3 ++ i
  | .lh d a i => 0#1 ++ 0x06#6 ++ d ++ a ++ 1#3 ++ i
  | .lw d a i => 0#1 ++ 0x06#6 ++ d ++ a ++ 2#3 ++ i
  | .ld d a i => 0#1 ++ 0x06#6 ++ d ++ a ++ 3#3 ++ i
  | .lbu d a i => 0#1 ++ 0x06#6 ++ d ++ a ++ 4#3 ++ i
  | .lhu d a i => 0#1 ++ 0x06#6 ++ d ++ a ++ 5#3 ++ i
  | .lwu d a i => 0#1 ++ 0x06#6 ++ d ++ a ++ 6#3 ++ i
  | .ldk d a i => 0#1 ++ 0x06#6 ++ d ++ a ++ 7#3 ++ i
  | .sb d a i => 0#1 ++ 0x07#6 ++ d ++ a ++ 0#3 ++ i
  | .sh d a i => 0#1 ++ 0x07#6 ++ d ++ a ++ 1#3 ++ i
  | .sw d a i => 0#1 ++ 0x07#6 ++ d ++ a ++ 2#3 ++ i
  | .sd d a i => 0#1 ++ 0x07#6 ++ d ++ a ++ 3#3 ++ i
  | .beq a b o => 0#1 ++ 0x08#6 ++ a ++ b ++ 0#3 ++ o
  | .bne a b o => 0#1 ++ 0x08#6 ++ a ++ b ++ 1#3 ++ o
  | .blt a b o => 0#1 ++ 0x08#6 ++ a ++ b ++ 2#3 ++ o
  | .bge a b o => 0#1 ++ 0x08#6 ++ a ++ b ++ 3#3 ++ o
  | .bltu a b o => 0#1 ++ 0x08#6 ++ a ++ b ++ 4#3 ++ o
  | .bgeu a b o => 0#1 ++ 0x08#6 ++ a ++ b ++ 5#3 ++ o
  | .jal i => 0#1 ++ 0x09#6 ++ i
  | .jalr d a i => 0#1 ++ 0x0a#6 ++ d ++ a ++ i
  | .loop0 a i => 0#1 ++ 0x0b#6 ++ 0#5 ++ a ++ 0#3 ++ i
  | .loop1 a i => 0#1 ++ 0x0b#6 ++ 0#5 ++ a ++ 1#3 ++ i
  | .loopi0 l i => 0#1 ++ 0x0b#6 ++ 0#5 ++ l ++ 2#3 ++ i
  | .loopi1 l i => 0#1 ++ 0x0b#6 ++ 0#5 ++ l ++ 3#3 ++ i
  | .lexit0 => 0#1 ++ 0x0b#6 ++ 0#10 ++ 4#3 ++ 0#12
  | .lexit1 => 0#1 ++ 0x0b#6 ++ 0#10 ++ 5#3 ++ 0#12
  | .qpop d a => 0#1 ++ 0x0c#6 ++ d ++ a ++ 0#11 ++ 0#4
  | .qcnt d a => 0#1 ++ 0x0c#6 ++ d ++ a ++ 0#11 ++ 1#4
  | .qdrain d a => 0#1 ++ 0x0c#6 ++ d ++ a ++ 0#11 ++ 2#4
  | .fadd d a b p r => 0#1 ++ 0x0d#6 ++ d ++ a ++ b ++ p ++ r ++ 0#6
  | .fsub d a b p r => 0#1 ++ 0x0d#6 ++ d ++ a ++ b ++ p ++ r ++ 1#6
  | .fmul d a b p r => 0#1 ++ 0x0d#6 ++ d ++ a ++ b ++ p ++ r ++ 2#6
  | .fdiv d a b p r => 0#1 ++ 0x0d#6 ++ d ++ a ++ b ++ p ++ r ++ 3#6
  | .fsqrt d a p r => 0#1 ++ 0x0d#6 ++ d ++ a ++ 0#5 ++ p ++ r ++ 4#6
  | .fmin d a b p => 0#1 ++ 0x0d#6 ++ d ++ a ++ b ++ p ++ 0#2 ++ 5#6
  | .fmax d a b p => 0#1 ++ 0x0d#6 ++ d ++ a ++ b ++ p ++ 0#2 ++ 6#6
  | .feq d a b p => 0#1 ++ 0x0d#6 ++ d ++ a ++ b ++ p ++ 0#2 ++ 7#6
  | .flt d a b p => 0#1 ++ 0x0d#6 ++ d ++ a ++ b ++ p ++ 0#2 ++ 8#6
  | .fle d a b p => 0#1 ++ 0x0d#6 ++ d ++ a ++ b ++ p ++ 0#2 ++ 9#6
  | .fcvtfi d a b p r => 0#1 ++ 0x0d#6 ++ d ++ a ++ b ++ p ++ r ++ 10#6
  | .fcvtif d a b p r => 0#1 ++ 0x0d#6 ++ d ++ a ++ b ++ p ++ r ++ 11#6
  | .fcvtff d a p r => 0#1 ++ 0x0d#6 ++ d ++ a ++ 0#5 ++ p ++ r ++ 12#6
  | .fclass d a p => 0#1 ++ 0x0d#6 ++ d ++ a ++ 0#5 ++ p ++ 0#2 ++ 13#6
  | .fma d a b p r => 0#1 ++ 0x0d#6 ++ d ++ a ++ b ++ p ++ r ++ 14#6
  | .amoswap d a b s o w => 0#1 ++ 0x0e#6 ++ d ++ a ++ b ++ s ++ o ++ w ++ 0#4
  | .amoadd d a b s o w => 0#1 ++ 0x0e#6 ++ d ++ a ++ b ++ s ++ o ++ w ++ 1#4
  | .amoand d a b s o w => 0#1 ++ 0x0e#6 ++ d ++ a ++ b ++ s ++ o ++ w ++ 2#4
  | .amoor d a b s o w => 0#1 ++ 0x0e#6 ++ d ++ a ++ b ++ s ++ o ++ w ++ 3#4
  | .amoxor d a b s o w => 0#1 ++ 0x0e#6 ++ d ++ a ++ b ++ s ++ o ++ w ++ 4#4
  | .amomin d a b s o w => 0#1 ++ 0x0e#6 ++ d ++ a ++ b ++ s ++ o ++ w ++ 5#4
  | .amomax d a b s o w => 0#1 ++ 0x0e#6 ++ d ++ a ++ b ++ s ++ o ++ w ++ 6#4
  | .amominu d a b s o w => 0#1 ++ 0x0e#6 ++ d ++ a ++ b ++ s ++ o ++ w ++ 7#4
  | .amomaxu d a b s o w => 0#1 ++ 0x0e#6 ++ d ++ a ++ b ++ s ++ o ++ w ++ 8#4
  | .amocas d a b s o w => 0#1 ++ 0x0e#6 ++ d ++ a ++ b ++ s ++ o ++ w ++ 9#4
  | .lda d a s w => 0#1 ++ 0x0e#6 ++ d ++ a ++ 0#5 ++ s ++ 0#2 ++ w ++ 10#4
  | .stl a b s w => 0#1 ++ 0x0e#6 ++ 0#5 ++ a ++ b ++ s ++ 0#2 ++ w ++ 11#4
  | .amofadd d a b s o w => 0#1 ++ 0x0e#6 ++ d ++ a ++ b ++ s ++ o ++ w ++ 12#4
  | .fence s k => 0#1 ++ 0x0f#6 ++ 0#10 ++ 0#3 ++ 0#5 ++ s ++ 0#2 ++ k
  | .pfence s p => 0#1 ++ 0x0f#6 ++ 0#10 ++ 1#3 ++ 0#5 ++ s ++ p
  | .bar s => 0#1 ++ 0x0f#6 ++ 0#10 ++ 2#3 ++ 0#5 ++ s ++ 0#4
  | .sbar s w h => 0#1 ++ 0x10#6 ++ 0#6 ++ s ++ w ++ h
  | .srr d n => 0#1 ++ 0x11#6 ++ d ++ 0#5 ++ 0#3 ++ n
  | .srw a n => 0#1 ++ 0x11#6 ++ 0#5 ++ a ++ 1#3 ++ n
  | .srs d a n => 0#1 ++ 0x11#6 ++ d ++ a ++ 2#3 ++ n
  | .src d a n => 0#1 ++ 0x11#6 ++ d ++ a ++ 3#3 ++ n
  | .trap i => 0#1 ++ 0x11#6 ++ 0#10 ++ 4#3 ++ 0#1 ++ i
  | .breakpoint i => 0#1 ++ 0x11#6 ++ 0#10 ++ 4#3 ++ 1#1 ++ i
  | .tret => 0#1 ++ 0x11#6 ++ 0#10 ++ 5#3 ++ 0#12
  | .uret => 0#1 ++ 0x11#6 ++ 0#10 ++ 6#3 ++ 0#12
  | .wfe d a => 0#1 ++ 0x11#6 ++ d ++ a ++ 7#3 ++ 0#12
  | .vtinv a b => 0#1 ++ 0x12#6 ++ 0#5 ++ a ++ b ++ 0#6 ++ 0#4
  | .ptinv a b => 0#1 ++ 0x12#6 ++ 0#5 ++ a ++ b ++ 0#6 ++ 1#4
  | .ctxsave d a => 0#1 ++ 0x12#6 ++ d ++ a ++ 0#11 ++ 2#4
  | .ctxload d a => 0#1 ++ 0x12#6 ++ d ++ a ++ 0#11 ++ 3#4
  | .launch d a => 0#1 ++ 0x13#6 ++ d ++ a ++ 0#11 ++ 0#4
  | .launchc d a b => 0#1 ++ 0x13#6 ++ d ++ a ++ b ++ 0#6 ++ 1#4
  | .lwait d a => 0#1 ++ 0x13#6 ++ d ++ a ++ 0#11 ++ 2#4
  | .yield => 0#1 ++ 0x13#6 ++ 0#21 ++ 3#4
  | .lstat d a => 0#1 ++ 0x13#6 ++ d ++ a ++ 0#11 ++ 4#4
  | .endThread => 0#1 ++ 0x13#6 ++ 0#21 ++ 5#4
  | .hclaim d a => 0#1 ++ 0x14#6 ++ d ++ a ++ 0#11 ++ 0#4
  | .hfree b => 0#1 ++ 0x14#6 ++ 0#10 ++ b ++ 0#6 ++ 1#4
  | .hstat d b => 0#1 ++ 0x14#6 ++ d ++ 0#5 ++ b ++ 0#6 ++ 2#4
  | .hdrain d a b => 0#1 ++ 0x14#6 ++ d ++ a ++ b ++ 0#6 ++ 3#4
  | .ldt c d a z => 0#1 ++ 0x15#6 ++ d ++ a ++ 0#3 ++ z ++ c ++ 0#3 ++ 0#3
  | .stt c d a z => 0#1 ++ 0x15#6 ++ d ++ a ++ 0#3 ++ z ++ c ++ 0#3 ++ 1#3
  | .txn c d a => 0#1 ++ 0x15#6 ++ d ++ a ++ 0#5 ++ c ++ 0#3 ++ 2#3
  | .stqry d a => 0#1 ++ 0x15#6 ++ d ++ a ++ 0#12 ++ 3#3
  | .stload d a b => 0#1 ++ 0x15#6 ++ d ++ a ++ b ++ 0#7 ++ 4#3
  | .stbind d a => 0#1 ++ 0x15#6 ++ d ++ a ++ 0#12 ++ 5#3
  | .stunbind d b => 0#1 ++ 0x15#6 ++ d ++ 0#5 ++ b ++ 0#7 ++ 6#3
  | .cpy d a b w s p => 0#1 ++ 0x16#6 ++ d ++ a ++ b ++ w ++ s ++ p ++ 0#3 ++ 0#4
  | .ecwait d a => 0#1 ++ 0x16#6 ++ d ++ a ++ 0#11 ++ 1#4
  | .wbld d a l w s p h => 0#1 ++ 0x16#6 ++ d ++ a ++ l ++ w ++ s ++ p ++ h ++ 2#4
  | .acstm d a b w s p => 0#1 ++ 0x16#6 ++ d ++ a ++ b ++ w ++ s ++ p ++ 0#3 ++ 3#4
  | .acldm d a b w s p => 0#1 ++ 0x16#6 ++ d ++ a ++ b ++ w ++ s ++ p ++ 0#3 ++ 4#4
  | .engb d a g => 0#1 ++ 0x17#6 ++ d ++ a ++ 0#5 ++ g ++ 0#5
  | .attach d a => 0#1 ++ 0x18#6 ++ d ++ a ++ 0#11 ++ 0#4
  | .detach => 0#1 ++ 0x18#6 ++ 0#21 ++ 1#4
  | .vld d a g n => 0#1 ++ 0x19#6 ++ d ++ a ++ 0#5 ++ g ++ n ++ 0#2
  | .vldStrided d a b g n => 0#1 ++ 0x19#6 ++ d ++ a ++ b ++ g ++ n ++ 1#2
  | .vldIndexed d a b g n => 0#1 ++ 0x19#6 ++ d ++ a ++ b ++ g ++ n ++ 2#2
  | .vldOrd d a b g n => 0#1 ++ 0x19#6 ++ d ++ a ++ b ++ g ++ n ++ 3#2
  | .vst d a g n => 0#1 ++ 0x1a#6 ++ d ++ a ++ 0#5 ++ g ++ n ++ 0#2
  | .vstStrided d a b g n => 0#1 ++ 0x1a#6 ++ d ++ a ++ b ++ g ++ n ++ 1#2
  | .vstIndexed d a b g n => 0#1 ++ 0x1a#6 ++ d ++ a ++ b ++ g ++ n ++ 2#2
  | .vstOrd d a b g n => 0#1 ++ 0x1a#6 ++ d ++ a ++ b ++ g ++ n ++ 3#2
  | .vldff d a g n => 0#1 ++ 0x1b#6 ++ d ++ a ++ 0#5 ++ g ++ n ++ 0#2
  | .vldm d a g n => 0#1 ++ 0x1b#6 ++ d ++ a ++ 0#5 ++ g ++ n ++ 1#2
  | .vldb d a b g n => 0#1 ++ 0x1b#6 ++ d ++ a ++ b ++ g ++ n ++ 2#2
  | .vstm d a g n => 0#1 ++ 0x1b#6 ++ d ++ a ++ 0#5 ++ g ++ n ++ 3#2
  | .vamoadd d a b g n => 0#1 ++ 0x1c#6 ++ d ++ a ++ b ++ g ++ n ++ 0#2
  | .vamomin d a b g n => 0#1 ++ 0x1c#6 ++ d ++ a ++ b ++ g ++ n ++ 1#2
  | .vamomax d a b g n => 0#1 ++ 0x1c#6 ++ d ++ a ++ b ++ g ++ n ++ 2#2
  | .vamofadd d a b g n => 0#1 ++ 0x1c#6 ++ d ++ a ++ b ++ g ++ n ++ 3#2
  | .spld d a b g => 0#1 ++ 0x1d#6 ++ d ++ a ++ b ++ g ++ 0#3 ++ 0#2
  | .spst d a b g => 0#1 ++ 0x1d#6 ++ d ++ a ++ b ++ g ++ 0#3 ++ 1#2
  | .spldu d a g => 0#1 ++ 0x1d#6 ++ d ++ a ++ 0#5 ++ g ++ 0#3 ++ 2#2
  | .spstu d a g => 0#1 ++ 0x1d#6 ++ d ++ a ++ 0#5 ++ g ++ 0#3 ++ 3#2
  | .hins a b g t => 0#1 ++ 0x1e#6 ++ 0#5 ++ a ++ b ++ g ++ t ++ 0#3
  | .hprb d a g t => 0#1 ++ 0x1e#6 ++ d ++ a ++ 0#5 ++ g ++ t ++ 1#3
  | .hdel a g t => 0#1 ++ 0x1e#6 ++ 0#5 ++ a ++ 0#5 ++ g ++ t ++ 2#3
  | .hacc a b g t => 0#1 ++ 0x1e#6 ++ 0#5 ++ a ++ b ++ g ++ t ++ 3#3
  | .hamin a b g t => 0#1 ++ 0x1e#6 ++ 0#5 ++ a ++ b ++ g ++ t ++ 4#3
  | .hamax a b g t => 0#1 ++ 0x1e#6 ++ 0#5 ++ a ++ b ++ g ++ t ++ 5#3
  | .hupd a b g t => 0#1 ++ 0x1e#6 ++ 0#5 ++ a ++ b ++ g ++ t ++ 6#3
  | .vtxn c a b g => 0#1 ++ 0x1f#6 ++ 0#5 ++ a ++ b ++ g ++ 0#1 ++ c
  | .boxx d a b g => 0#1 ++ 0x20#6 ++ d ++ a ++ b ++ g ++ 0#5
  | .trix d a b g => 0#1 ++ 0x20#6 ++ d ++ a ++ b ++ g ++ 1#5
  | .mlins a b g => 0#1 ++ 0x20#6 ++ 0#5 ++ a ++ b ++ g ++ 2#5
  | .mlins2 a b g => 0#1 ++ 0x20#6 ++ 0#5 ++ a ++ b ++ g ++ 3#5
  | .mlrslv d a b g => 0#1 ++ 0x20#6 ++ d ++ a ++ b ++ g ++ 4#5
  | .mlclr b g => 0#1 ++ 0x20#6 ++ 0#10 ++ b ++ g ++ 5#5
  | .mlcfg d a => 0#1 ++ 0x20#6 ++ d ++ a ++ 0#10 ++ 6#5
  | .mld d a b g n => 0#1 ++ 0x21#6 ++ d ++ a ++ b ++ g ++ n ++ 0#2
  | .mldp d a b g n => 0#1 ++ 0x21#6 ++ d ++ a ++ b ++ g ++ n ++ 1#2
  | .mst d a b g n => 0#1 ++ 0x21#6 ++ d ++ a ++ b ++ g ++ n ++ 2#2
  | .mstp d a b g n => 0#1 ++ 0x21#6 ++ d ++ a ++ b ++ g ++ n ++ 3#2
  | .setvl d a b => 0#1 ++ 0x22#6 ++ d ++ a ++ b ++ 0#6 ++ 0#4
  | .settype d a => 0#1 ++ 0x22#6 ++ d ++ a ++ 0#11 ++ 1#4
  | .settypei i => 0#1 ++ 0x23#6 ++ 0#5 ++ i
  | .vadd c d a b g => c ++ 0x28#6 ++ d ++ a ++ b ++ g ++ 0#5
  | .vsub c d a b g => c ++ 0x28#6 ++ d ++ a ++ b ++ g ++ 1#5
  | .vmul c d a b g => c ++ 0x28#6 ++ d ++ a ++ b ++ g ++ 2#5
  | .vmulh c d a b g => c ++ 0x28#6 ++ d ++ a ++ b ++ g ++ 3#5
  | .vmin c d a b g => c ++ 0x28#6 ++ d ++ a ++ b ++ g ++ 4#5
  | .vmax c d a b g => c ++ 0x28#6 ++ d ++ a ++ b ++ g ++ 5#5
  | .vminu c d a b g => c ++ 0x28#6 ++ d ++ a ++ b ++ g ++ 6#5
  | .vmaxu c d a b g => c ++ 0x28#6 ++ d ++ a ++ b ++ g ++ 7#5
  | .vand c d a b g => c ++ 0x28#6 ++ d ++ a ++ b ++ g ++ 8#5
  | .vor c d a b g => c ++ 0x28#6 ++ d ++ a ++ b ++ g ++ 9#5
  | .vxor c d a b g => c ++ 0x28#6 ++ d ++ a ++ b ++ g ++ 10#5
  | .vsll c d a b g => c ++ 0x28#6 ++ d ++ a ++ b ++ g ++ 11#5
  | .vsrl c d a b g => c ++ 0x28#6 ++ d ++ a ++ b ++ g ++ 12#5
  | .vsra c d a b g => c ++ 0x28#6 ++ d ++ a ++ b ++ g ++ 13#5
  | .vmacc c d a b g => c ++ 0x28#6 ++ d ++ a ++ b ++ g ++ 14#5
  | .vdiv c d a b g => c ++ 0x28#6 ++ d ++ a ++ b ++ g ++ 15#5
  | .vaddsat c d a b g => c ++ 0x28#6 ++ d ++ a ++ b ++ g ++ 16#5
  | .vsubsat c d a b g => c ++ 0x28#6 ++ d ++ a ++ b ++ g ++ 17#5
  | .vintsVadd c d a b g => c ++ 0x29#6 ++ d ++ a ++ b ++ g ++ 0#5
  | .vintsVsub c d a b g => c ++ 0x29#6 ++ d ++ a ++ b ++ g ++ 1#5
  | .vintsVmul c d a b g => c ++ 0x29#6 ++ d ++ a ++ b ++ g ++ 2#5
  | .vintsVmulh c d a b g => c ++ 0x29#6 ++ d ++ a ++ b ++ g ++ 3#5
  | .vintsVmin c d a b g => c ++ 0x29#6 ++ d ++ a ++ b ++ g ++ 4#5
  | .vintsVmax c d a b g => c ++ 0x29#6 ++ d ++ a ++ b ++ g ++ 5#5
  | .vintsVminu c d a b g => c ++ 0x29#6 ++ d ++ a ++ b ++ g ++ 6#5
  | .vintsVmaxu c d a b g => c ++ 0x29#6 ++ d ++ a ++ b ++ g ++ 7#5
  | .vintsVand c d a b g => c ++ 0x29#6 ++ d ++ a ++ b ++ g ++ 8#5
  | .vintsVor c d a b g => c ++ 0x29#6 ++ d ++ a ++ b ++ g ++ 9#5
  | .vintsVxor c d a b g => c ++ 0x29#6 ++ d ++ a ++ b ++ g ++ 10#5
  | .vintsVsll c d a b g => c ++ 0x29#6 ++ d ++ a ++ b ++ g ++ 11#5
  | .vintsVsrl c d a b g => c ++ 0x29#6 ++ d ++ a ++ b ++ g ++ 12#5
  | .vintsVsra c d a b g => c ++ 0x29#6 ++ d ++ a ++ b ++ g ++ 13#5
  | .vintsVmacc c d a b g => c ++ 0x29#6 ++ d ++ a ++ b ++ g ++ 14#5
  | .vintsVdiv c d a b g => c ++ 0x29#6 ++ d ++ a ++ b ++ g ++ 15#5
  | .vintsVaddsat c d a b g => c ++ 0x29#6 ++ d ++ a ++ b ++ g ++ 16#5
  | .vintsVsubsat c d a b g => c ++ 0x29#6 ++ d ++ a ++ b ++ g ++ 17#5
  | .vfadd c d a b g => c ++ 0x2a#6 ++ d ++ a ++ b ++ g ++ 0#5
  | .vfsub c d a b g => c ++ 0x2a#6 ++ d ++ a ++ b ++ g ++ 1#5
  | .vfmul c d a b g => c ++ 0x2a#6 ++ d ++ a ++ b ++ g ++ 2#5
  | .vfdiv c d a b g => c ++ 0x2a#6 ++ d ++ a ++ b ++ g ++ 3#5
  | .vfsqrt c d a g => c ++ 0x2a#6 ++ d ++ a ++ 0#5 ++ g ++ 4#5
  | .vfma c d a b g => c ++ 0x2a#6 ++ d ++ a ++ b ++ g ++ 5#5
  | .vfms c d a b g => c ++ 0x2a#6 ++ d ++ a ++ b ++ g ++ 6#5
  | .vfmin c d a b g => c ++ 0x2a#6 ++ d ++ a ++ b ++ g ++ 7#5
  | .vfmax c d a b g => c ++ 0x2a#6 ++ d ++ a ++ b ++ g ++ 8#5
  | .vfabs c d a g => c ++ 0x2a#6 ++ d ++ a ++ 0#5 ++ g ++ 9#5
  | .vfneg c d a g => c ++ 0x2a#6 ++ d ++ a ++ 0#5 ++ g ++ 10#5
  | .vfpsVfadd c d a b g => c ++ 0x2b#6 ++ d ++ a ++ b ++ g ++ 0#5
  | .vfpsVfsub c d a b g => c ++ 0x2b#6 ++ d ++ a ++ b ++ g ++ 1#5
  | .vfpsVfmul c d a b g => c ++ 0x2b#6 ++ d ++ a ++ b ++ g ++ 2#5
  | .vfpsVfdiv c d a b g => c ++ 0x2b#6 ++ d ++ a ++ b ++ g ++ 3#5
  | .vfpsVfma c d a b g => c ++ 0x2b#6 ++ d ++ a ++ b ++ g ++ 5#5
  | .vfpsVfms c d a b g => c ++ 0x2b#6 ++ d ++ a ++ b ++ g ++ 6#5
  | .vfpsVfmin c d a b g => c ++ 0x2b#6 ++ d ++ a ++ b ++ g ++ 7#5
  | .vfpsVfmax c d a b g => c ++ 0x2b#6 ++ d ++ a ++ b ++ g ++ 8#5
  | .vcmpEq c d a b g k => c ++ 0x2c#6 ++ d ++ a ++ b ++ g ++ k ++ 0#3
  | .vcmpNe c d a b g k => c ++ 0x2c#6 ++ d ++ a ++ b ++ g ++ k ++ 1#3
  | .vcmpLt c d a b g k => c ++ 0x2c#6 ++ d ++ a ++ b ++ g ++ k ++ 2#3
  | .vcmpGe c d a b g k => c ++ 0x2c#6 ++ d ++ a ++ b ++ g ++ k ++ 3#3
  | .vcmpLe c d a b g k => c ++ 0x2c#6 ++ d ++ a ++ b ++ g ++ k ++ 4#3
  | .vcmpGt c d a b g k => c ++ 0x2c#6 ++ d ++ a ++ b ++ g ++ k ++ 5#3
  | .vcmpUn c d a b g => c ++ 0x2c#6 ++ d ++ a ++ b ++ g ++ 2#2 ++ 6#3
  | .pand c d a b g => c ++ 0x2d#6 ++ d ++ a ++ b ++ g ++ 0#5
  | .por c d a b g => c ++ 0x2d#6 ++ d ++ a ++ b ++ g ++ 1#5
  | .pxor c d a b g => c ++ 0x2d#6 ++ d ++ a ++ b ++ g ++ 2#5
  | .pandn c d a b g => c ++ 0x2d#6 ++ d ++ a ++ b ++ g ++ 3#5
  | .pnot c d a g => c ++ 0x2d#6 ++ d ++ a ++ 0#5 ++ g ++ 4#5
  | .plead c d a g => c ++ 0x2d#6 ++ d ++ a ++ 0#5 ++ g ++ 5#5
  | .pthru c d a g => c ++ 0x2d#6 ++ d ++ a ++ 0#5 ++ g ++ 6#5
  | .ppre c d a g => c ++ 0x2d#6 ++ d ++ a ++ 0#5 ++ g ++ 7#5
  | .pcnt c d a g => c ++ 0x2d#6 ++ d ++ a ++ 0#5 ++ g ++ 8#5
  | .pany c d a g => c ++ 0x2d#6 ++ d ++ a ++ 0#5 ++ g ++ 9#5
  | .pset c d g => c ++ 0x2d#6 ++ d ++ 0#10 ++ g ++ 10#5
  | .pclr c d g => c ++ 0x2d#6 ++ d ++ 0#10 ++ g ++ 11#5
  | .pgetf c d g => c ++ 0x2d#6 ++ d ++ 0#10 ++ g ++ 12#5
  | .vslup c d a b g => c ++ 0x2e#6 ++ d ++ a ++ b ++ g ++ 0#5
  | .vsldn c d a b g => c ++ 0x2e#6 ++ d ++ a ++ b ++ g ++ 1#5
  | .vslupi c d a b g => c ++ 0x2e#6 ++ d ++ a ++ b ++ g ++ 2#5
  | .vsldni c d a b g => c ++ 0x2e#6 ++ d ++ a ++ b ++ g ++ 3#5
  | .vperm c d a b g => c ++ 0x2e#6 ++ d ++ a ++ b ++ g ++ 4#5
  | .vcomp c d a b => c ++ 0x2e#6 ++ d ++ a ++ b ++ 0#5 ++ 5#5
  | .vexpd c d a b => c ++ 0x2e#6 ++ d ++ a ++ b ++ 0#5 ++ 6#5
  | .vmerge c d a b g => c ++ 0x2e#6 ++ d ++ a ++ b ++ g ++ 7#5
  | .vbcast c d a g => c ++ 0x2e#6 ++ d ++ a ++ 0#5 ++ g ++ 8#5
  | .vextr c d a b => c ++ 0x2e#6 ++ d ++ a ++ b ++ 0#5 ++ 9#5
  | .vins c d a b => c ++ 0x2e#6 ++ d ++ a ++ b ++ 0#5 ++ 10#5
  | .viota c d a g => c ++ 0x2e#6 ++ d ++ a ++ 0#5 ++ g ++ 11#5
  | .vid c d g => c ++ 0x2e#6 ++ d ++ 0#10 ++ g ++ 12#5
  | .vredsum c d a g => c ++ 0x2f#6 ++ d ++ a ++ 0#5 ++ g ++ 0#5
  | .vredmin c d a g => c ++ 0x2f#6 ++ d ++ a ++ 0#5 ++ g ++ 1#5
  | .vredmax c d a g => c ++ 0x2f#6 ++ d ++ a ++ 0#5 ++ g ++ 2#5
  | .vfredo c d a g => c ++ 0x2f#6 ++ d ++ a ++ 0#5 ++ g ++ 3#5
  | .vfredt c d a g => c ++ 0x2f#6 ++ d ++ a ++ 0#5 ++ g ++ 4#5
  | .vfredmin c d a g => c ++ 0x2f#6 ++ d ++ a ++ 0#5 ++ g ++ 5#5
  | .vfredmax c d a g => c ++ 0x2f#6 ++ d ++ a ++ 0#5 ++ g ++ 6#5
  | .vcmul c d a b g => c ++ 0x30#6 ++ d ++ a ++ b ++ g ++ 0#5
  | .vcmac c d a b g => c ++ 0x30#6 ++ d ++ a ++ b ++ g ++ 1#5
  | .vcmulc c d a b g => c ++ 0x30#6 ++ d ++ a ++ b ++ g ++ 2#5
  | .vcabs2 c d a g => c ++ 0x30#6 ++ d ++ a ++ 0#5 ++ g ++ 3#5
  | .vcvt c d a e g f => c ++ 0x31#6 ++ d ++ a ++ 0#2 ++ e ++ g ++ 0#1 ++ f
  | .vscale c d a b g => c ++ 0x31#6 ++ d ++ a ++ b ++ g ++ 16#5
  | .vqmax c d a g => c ++ 0x31#6 ++ d ++ a ++ 0#5 ++ g ++ 17#5
  | .mgp c d a b g p => c ++ 0x32#6 ++ d ++ a ++ b ++ g ++ p ++ 0#3
  | .mwdg c d a b g p => c ++ 0x32#6 ++ d ++ a ++ b ++ g ++ p ++ 1#3
  | .mdot c d a b g p => c ++ 0x32#6 ++ d ++ a ++ b ++ g ++ p ++ 2#3
  | .mlct c d a b g p => c ++ 0x32#6 ++ d ++ a ++ b ++ g ++ p ++ 3#3
  | .mjoin c d a b g p => c ++ 0x32#6 ++ d ++ a ++ b ++ g ++ p ++ 4#3
  | .msand c d a b g p => c ++ 0x32#6 ++ d ++ a ++ b ++ g ++ p ++ 5#3
  | .mcomm c d a b g p => c ++ 0x32#6 ++ d ++ a ++ b ++ g ++ p ++ 6#3
  | .mrev c d a g p => c ++ 0x33#6 ++ d ++ a ++ 0#5 ++ g ++ p ++ 0#3
  | .mdual c d a g p => c ++ 0x33#6 ++ d ++ a ++ 0#5 ++ g ++ p ++ 1#3
  | .mgrd c d a b g p => c ++ 0x33#6 ++ d ++ a ++ b ++ g ++ p ++ 2#3
  | .mnrm2 c d a g p => c ++ 0x33#6 ++ d ++ a ++ 0#5 ++ g ++ p ++ 3#3
  | .mnrmi c d a g p => c ++ 0x33#6 ++ d ++ a ++ 0#5 ++ g ++ p ++ 4#3
  | .mnormz c d a g p => c ++ 0x33#6 ++ d ++ a ++ 0#5 ++ g ++ p ++ 5#3
  | .mexpb c d a g p => c ++ 0x33#6 ++ d ++ a ++ 0#5 ++ g ++ p ++ 6#3
  | .mlogm c d a g p => c ++ 0x33#6 ++ d ++ a ++ 0#5 ++ g ++ p ++ 7#3
  | .mmov c d a g p => c ++ 0x34#6 ++ d ++ a ++ 0#5 ++ g ++ p ++ 0#3
  | .msetm c d b => c ++ 0x34#6 ++ d ++ 0#5 ++ b ++ 0#7 ++ 1#3
  | .mgetm c d a => c ++ 0x34#6 ++ d ++ a ++ 0#12 ++ 2#3
  | .mclean c d a => c ++ 0x34#6 ++ d ++ a ++ 0#12 ++ 3#3
  | .mfromv c d a b g p => c ++ 0x34#6 ++ d ++ a ++ b ++ g ++ p ++ 4#3
  | .mtov c d a b g => c ++ 0x34#6 ++ d ++ a ++ b ++ g ++ 0#2 ++ 5#3
  | .madd c d a b g p => c ++ 0x34#6 ++ d ++ a ++ b ++ g ++ p ++ 6#3
  | .msub c d a b g p => c ++ 0x34#6 ++ d ++ a ++ b ++ g ++ p ++ 7#3
  | .mscal c d a b g p => c ++ 0x35#6 ++ d ++ a ++ b ++ g ++ p ++ 0#3
  | .mconj c d a g p => c ++ 0x35#6 ++ d ++ a ++ 0#5 ++ g ++ p ++ 1#3
  | .minvol c d a g p => c ++ 0x35#6 ++ d ++ a ++ 0#5 ++ g ++ p ++ 2#3
  | .mxac c d a l h w s => c ++ 0x36#6 ++ d ++ a ++ l ++ h ++ w ++ s ++ 0#2 ++ 0#3
  | .mxacs c d a l h w s => c ++ 0x36#6 ++ d ++ a ++ l ++ h ++ w ++ s ++ 0#2 ++ 1#3
  | .mzero c d w s => c ++ 0x36#6 ++ d ++ 0#13 ++ w ++ s ++ 0#2 ++ 2#3
  | .acld c d a w s => c ++ 0x36#6 ++ d ++ a ++ 0#8 ++ w ++ s ++ 0#2 ++ 3#3
  | .acst c d a w s => c ++ 0x36#6 ++ d ++ a ++ 0#8 ++ w ++ s ++ 0#2 ++ 4#3
  | .mchk c d e w s => c ++ 0x36#6 ++ d ++ 0#9 ++ e ++ 0#3 ++ w ++ s ++ 0#2 ++ 5#3
  | .vtok c w s => c ++ 0x37#6 ++ 0#23 ++ w ++ s
  | _ => 0#32

end Sys2Proof
end

