-- ==== Sys2Proof/Machine/VMem.lean ====
section
/-!
DEFINITION. Vector memory (06 R193 to R214): the elements of an access, their checks, faults and reissue, and the
instructions VLD, VST, VLDS and MVLD; VAMO (07 R244 to R247); SPM (06 R219 to R223).
-/
namespace Sys2Proof.Machine

noncomputable section

/-! ## Elements -/

/-- An element of an access: its number, its address, its alignment, its bytes, and the bits that move, each as
(register, bit of the register, bit of the bytes, bits). -/
structure VElem where
  i : Nat
  ea : Word
  al : Nat
  n : Nat
  slots : List (Nat × Nat × Nat × Nat)
  deriving DecidableEq, Repr

/-- The bit runs of one field that lies at bit off of the bytes at pas. -/
def slotRuns (pas : List Nat) (reg src off len : Nat) : List StoreRun :=
  (rangeFrom (off / 8) (cdiv (off + len) 8 - off / 8)).map (fun k =>
    let lo := max off (8 * k)
    let hi := min (off + len) (8 * k + 8)
    ⟨reg, src + (lo - off), pas.getD k 0, lo % 8, hi - lo⟩)

/-- The bit runs of an element. -/
def VElem.runs (e : VElem) (pas : List Nat) : List StoreRun :=
  e.slots.flatMap (fun x => slotRuns pas x.1 x.2.1 x.2.2.1 x.2.2.2)

/-- An element of width w at an address, in a v group. -/
def plainElem (s : State) (d i : Nat) (ea : Word) : VElem :=
  let w := vtSew s.vt
  let l := groupLoc s.cur.conf.grant w d i
  ⟨i, ea, w / 8, w / 8, [(l.1, l.2, 0, w)]⟩

/-- Element i of the stream of elements that starts off bits into the byte at base (R194, R210). -/
def streamElem (s : State) (d off : Nat) (base : Word) (i : Nat) : VElem :=
  let w := vtSew s.vt
  let b := off + w * i
  let l := groupLoc s.cur.conf.grant w d i
  ⟨i, base + w64 (b / 8), if w < 8 then 1 else w / 8, cdiv (b % 8 + w) 8, [(l.1, l.2, b % 8, w)]⟩

/-! ## The governing predicate (R196, R203) -/

/-- Active elements below n, or on a reissue those that fmask marks (R203). -/
def State.actives (s : State) (g n : Nat) : List Nat :=
  let p := s.cur.vr.preg g
  activeOf (if s.cur.prog.reissue then p &&& s.cur.conf.fmask else p) n

/-- Active elements of an ordered access: on a reissue, those from vfirst up (R203). -/
def State.activesOrd (s : State) (g n : Nat) : List Nat :=
  (activeOf (s.cur.vr.preg g) n).filter (fun i => !s.cur.prog.reissue || decide (s.cur.user.vfirst.toNat ≤ i))

/-! ## Earlier work of the thread -/

/-- Does a word change the grade mask tag of mN (R329, R334, R336)? -/
def writesTag (i : Instr) (n : Nat) : Bool :=
  let widens := match i with
    | .msetm _ _ _ => true
    | .mclean _ _ _ => true
    | .mgp _ _ _ _ _ p => p == 2#2
    | .mwdg _ _ _ _ _ p => p == 2#2
    | .mdot _ _ _ _ _ p => p == 2#2
    | .mlct _ _ _ _ _ p => p == 2#2
    | .mjoin _ _ _ _ _ p => p == 2#2
    | .msand _ _ _ _ _ p => p == 2#2
    | .mcomm _ _ _ _ _ p => p == 2#2
    | .mrev _ _ _ _ p => p == 2#2
    | .mdual _ _ _ _ p => p == 2#2
    | .mgrd _ _ _ _ _ p => p == 2#2
    | .mnrm2 _ _ _ _ p => p == 2#2
    | .mnrmi _ _ _ _ p => p == 2#2
    | .mnormz _ _ _ _ p => p == 2#2
    | .mexpb _ _ _ _ p => p == 2#2
    | .mlogm _ _ _ _ p => p == 2#2
    | .mmov _ _ _ _ p => p == 2#2
    | .mfromv _ _ _ _ _ p => p == 2#2
    | .madd _ _ _ _ _ p => p == 2#2
    | .msub _ _ _ _ _ p => p == 2#2
    | .mscal _ _ _ _ _ p => p == 2#2
    | .mconj _ _ _ _ p => p == 2#2
    | .minvol _ _ _ _ p => p == 2#2
    | _ => false
  widens && (eWrites vtypeReset 0 0 i).contains (32 + n)

/-- Waits until the tag of mN stands as the words before this one leave it (R213). -/
def State.tagSettled (s : State) (n : Nat) : Except Stop Unit :=
  if s.cur.viq.any (fun e =>
    match e with
    | .convoy c => (c.members.drop c.done).any (fun m => writesTag m.instr n)
    | _ => false) then .error (.wait .other) else .ok ()

/-- Waits until earlier work no longer writes these places (R159). -/
def State.placesSettled (s : State) (p : Nat) : Except Stop Unit :=
  if placesMeet s.cur.busy.2 p then .error (.wait .other) else .ok ()

/-- Waits until no earlier work writes one of these pieces (R199). -/
def State.settled (s : State) (ps : List Nat) : Except Stop Unit := s.placesSettled (placesOf ps)

/-- Waits until the element groups that hold elements is, of width w, of the group at vN are valid (R159, R199, R275). -/
def State.groupsSettled (s : State) (w n : Nat) (is : List Nat) : Except Stop Unit :=
  s.placesSettled (elemPlaces s.cur.conf.grant w n is)

/-! ## Translation and faults (R186, R188, R200) -/

/-- An element with what translation found. -/
abbrev Found := VElem × Except Nat (List Nat)

/-- Every element translated. -/
def State.translate (s : State) (k : Acc) (es : List VElem) : List Found :=
  es.map (fun e => (e, s.element s.cp k e.al e.ea e.n))

/-- The elements that fault, with their causes. -/
def faulting (l : List Found) : List (VElem × Nat) :=
  l.filterMap (fun f =>
    match f.2 with
    | .error c => some (f.1, c)
    | .ok _ => none)

/-- The elements that pass, with their places. -/
def passing (l : List Found) : List (VElem × List Nat) :=
  l.filterMap (fun f =>
    match f.2 with
    | .error _ => none
    | .ok p => some (f.1, p))

/-- The absent sub-blocks of an element. -/
def State.absent (s : State) (k : Acc) (e : VElem) : List Nat :=
  ((byteAddrs e.ea e.n).filter (fun va => s.winCause s.cp k va == some cResidency)).map
    (fun va => va / 2 ^ 21 * 2 ^ 21)

/-- The batch list of R188. -/
def State.batch (s : State) (k : Acc) (fs : List (VElem × Nat)) : List Nat :=
  (((fs.filter (fun f => f.2 == cResidency)).flatMap (fun f => s.absent k f.1)).eraseDups).take 16

/-- fmask with these elements (R200). -/
def elemMask (is : List Nat) : BitVec 4096 := BitVec.ofNat 4096 (sumBits is)
where
  /-- A number with these bits set. -/
  sumBits : List Nat → Nat
    | [] => 0
    | i :: r => 2 ^ i ||| sumBits r

/-- fmask and vfirst written. -/
def State.marks (s : State) (is : List Nat) (first : Nat) : State :=
  (s.onConf (fun c => { c with fmask := elemMask is })).onUser (fun u => { u with vfirst := w64 first })

/-- The trap of the lowest faulting element (R200), with fmask and vfirst set. MACHINE_CHECK, which is contained, has RI 0 (R474). -/
def State.elemTrap (s : State) (k : Acc) (ri sweep : Bool) (fs : List (VElem × Nat)) : Stop :=
  match fs with
  | [] => trapOf cIllegal
  | (e, c) :: _ =>
    .after { cause := c, addr := e.ea, reissue := ri && c != cMachine, batch := s.batch k fs, elems := true, sweep := sweep }
      (s.marks (fs.map (fun f => f.1.i)) e.i)

/-! ## Performing an access -/

/-- A vector access before it is performed: its stream, whether it loads, whether it moves m registers, and the pieces of
its data group. -/
structure VOp where
  ag : Nat
  load : Bool
  mv : Bool
  data : List Nat

/-- The address that an access names where a byte of it is poisoned: its first poisoned element's. -/
def State.poisonEa (s : State) (ok : List (VElem × List Nat)) : Word :=
  match ok.find? (fun e => s.poisoned e.2), ok with
  | some e, _ => e.1.ea
  | none, e :: _ => e.1.ea
  | none, [] => 0#64

/-- The elements of an access as an entry of the pending work, in ascending order. -/
def State.entryOf (s : State) (o : VOp) (ok : List (VElem × List Nat)) : VEntry :=
  .access ⟨o.ag, 0#8, s.poisonEa ok, 0, none⟩ o.load o.mv (ok.flatMap (fun e => e.1.runs e.2))

/-- The components of other grades than the tag's, which a load sets to +0 (R213). -/
def mvZeros (s : State) (d : Nat) (is : List Nat) : List RegWrite :=
  let tag := (s.cur.vr.mreg d).tag
  compWrite d (is.flatMap (fun i => ((List.range 16).filter (fun k => !tag.getLsbD (gradeOf k))).map (fun k => (i, k, 0))))

/-- What a load writes beside its elements' bits: in an m register the components of other grades (R213), at width 6 the
unused bits of the slices (R120). -/
def State.clears (s : State) (o : VOp) (ok : List (VElem × List Nat)) : List RegWrite :=
  if !o.load then []
  else if o.mv then o.data.flatMap (fun x => mvZeros s (x - 32) (ok.map (fun e => e.1.i)))
  else if vtSew s.vt = 6 then
    gatherV (ok.flatMap (fun e => e.1.slots.map (fun x => (x.1, 2048 * (x.2.1 / 2048) + 2046, 2, 0))))
  else []

/-- The elements performed, or left to wait in their place: behind earlier accesses, and for a store behind the writers of
its data (R16, R159, R191, R199). -/
def State.perform (s : State) (o : VOp) (ok : List (VElem × List Nat)) : Except Stop State :=
  match s.performNow (s.entryOf o ok) with
  | .error e => .error e
  | .ok s1 => .ok (s1.writeRegs (s.clears o ok))

/-- Elements with a fault: the trap comes once every element that is performed before it is performed (R201). -/
def State.faultReady (s : State) (pas : List Nat) : Except Stop Unit :=
  if !s.cur.viq.isEmpty || pas.any s.owned then .error (.wait .other) else .ok ()

/-- An access that completes every element which does not fault (R201), or, where ordered, those below the first that
faults (R202). -/
def State.access (s : State) (o : VOp) (k : Acc) (ordered : Bool) (es : List VElem) : Except Stop State := do
  let found := s.translate k es
  let fs := faulting found
  let first := (fs.head?).map (fun f => f.1.i)
  let ok := (passing found).filter (fun e => !ordered || (first.all (fun i => decide (e.1.i < i))))
  if fs.isEmpty then return (← s.perform o ok).marks [] 0
  else
    s.faultReady (ok.flatMap (fun e => e.2))
    let s1 ← s.perform o ok
    .error (s1.elemTrap k true false fs)

/-! ## VLD and VST -/

/-- The index registers of an indexed access. -/
def indexGroup (s : State) (b : BitVec 5) : Option (List Nat) :=
  (indexRegs s.cur.conf.grant s.vt (vtIw s.vt)).map (fun l => vGroup l b.toNat)

/-- Index i, sign-extended (R194). -/
def State.sindex (s : State) (b : BitVec 5) (i : Nat) : Word :=
  let iw := vtIw s.vt
  BitVec.ofInt 64 (sgnN iw (s.cur.vr.index s.cur.conf.grant iw b.toNat i))

/-- A v group under the thread's vtype. -/
def State.dataGroup (s : State) (d : BitVec 5) : List Nat := vGroup (vtLmul s.vt) d.toNat

/-- A load or a store of v registers. -/
def vOp (load : Bool) (s : State) (d : BitVec 5) (n : BitVec 3) : VOp :=
  ⟨n.toNat, load, false, s.dataGroup d⟩

/-- The access kind of a load or a store. -/
def accOf (load : Bool) : Acc := if load then .read else .write

/-- Mode 0 (R193, R194). -/
def vUnit (load : Bool) (d a g : BitVec 5) (n : BitVec 3) (s : State) : Out :=
  aside false complete (fun s => do
    s.settled (pPiece g.toNat)
    let es := (s.actives g.toNat s.cur.conf.vl).map (streamElem s d.toNat 0 (s.readS a))
    s.access (vOp load s d n) (accOf load) false es) s

/-- Mode 1. -/
def vStrided (load : Bool) (d a b g : BitVec 5) (n : BitVec 3) (s : State) : Out :=
  aside false complete (fun s => do
    legal (decide (8 ≤ vtSew s.vt))
    s.settled (pPiece g.toNat)
    let es := (s.actives g.toNat s.cur.conf.vl).map (fun i =>
      plainElem s d.toNat i (s.readS a + w64 i * s.readS b))
    s.access (vOp load s d n) (accOf load) false es) s

/-- Modes 2 and 3. -/
def vIndexed (load ordered : Bool) (d a b g : BitVec 5) (n : BitVec 3) (s : State) : Out :=
  aside false complete (fun s => do
    legal (decide (8 ≤ vtSew s.vt))
    match indexGroup s b with
    | none => .error (trapOf cIllegal)
    | some ix => do
      legal (!load || !meet (s.dataGroup d) ix)
      s.settled (pPiece g.toNat)
      let vl := s.cur.conf.vl
      let is := if ordered then s.activesOrd g.toNat vl else s.actives g.toNat vl
      s.groupsSettled (vtIw s.vt) b.toNat is
      let es := is.map (fun i => plainElem s d.toNat i (s.readS a + s.sindex b i))
      s.access (vOp load s d n) (accOf load) ordered es) s

def execVld (d a g : BitVec 5) (n : BitVec 3) (s : State) : Out := vUnit true d a g n s
def execVldStrided (d a b g : BitVec 5) (n : BitVec 3) (s : State) : Out := vStrided true d a b g n s
def execVldIndexed (d a b g : BitVec 5) (n : BitVec 3) (s : State) : Out := vIndexed true false d a b g n s
def execVldOrd (d a b g : BitVec 5) (n : BitVec 3) (s : State) : Out := vIndexed true true d a b g n s
def execVst (d a g : BitVec 5) (n : BitVec 3) (s : State) : Out := vUnit false d a g n s
def execVstStrided (d a b g : BitVec 5) (n : BitVec 3) (s : State) : Out := vStrided false d a b g n s
def execVstIndexed (d a b g : BitVec 5) (n : BitVec 3) (s : State) : Out := vIndexed false false d a b g n s
def execVstOrd (d a b g : BitVec 5) (n : BitVec 3) (s : State) : Out := vIndexed false true d a b g n s

/-! ## VLDS -/

def execVldb (d a b g : BitVec 5) (n : BitVec 3) (s : State) : Out :=
  aside false complete (fun s => do
    legal (decide (vtSew s.vt ≤ 8))
    s.settled (pPiece g.toNat)
    let off := bitsAt (s.readS b).toNat 0 3
    let es := (s.actives g.toNat s.cur.conf.vl).map (streamElem s d.toNat off (s.readS a))
    s.access (vOp true s d n) .read false es) s

/-- VLDFF (R206). -/
def execVldff (d a g : BitVec 5) (n : BitVec 3) (s : State) : Out :=
  aside false complete (fun s => do
    s.settled (pPiece g.toNat)
    let es := (s.actives g.toNat s.cur.conf.vl).map (streamElem s d.toNat 0 (s.readS a))
    match (faulting (s.translate .read es)).head?, es with
    | some f, e :: _ =>
      if f.1.i = e.i then s.access (vOp true s d n) .read false es
      else do
        let s1 ← s.access (vOp true s d n) .read false (es.filter (fun x => decide (x.i < f.1.i)))
        return (s1.marks [f.1.i] f.1.i).onConf (fun c => { c with vl := f.1.i })
    | _, _ => s.access (vOp true s d n) .read false es) s

/-- The coordinates of element e of a block (R207). -/
def blockCoord (dl0 dl1 e : Nat) : Nat × Nat × Nat := (e % dl0, e / dl0 % dl1, e / (dl0 * dl1))

/-- The address of element e of the block at base (R207). -/
def blockEa (x : Dims) (base : Word) (e : Nat) : Word :=
  let c := blockCoord x.dl0.toNat x.dl1.toNat e
  base + w64 c.1 * x.ds0 + w64 c.2.1 * x.ds1 + w64 c.2.2 * x.ds2

/-- The elements of lane group j, ascending (R208). -/
def laneElems (grant per vlmax j : Nat) : List Nat :=
  (List.range vlmax).filter (fun e => decide (e % (per * grant) / per = j))

/-- What lane group j does: the elements it performs, its first fault, and its counter after. -/
structure Sweep where
  ok : List (VElem × List Nat)
  fault : Option (VElem × Nat)
  count : Nat

/-- Lane group j passes the elements of its list one by one (R208); act tells which are performed. -/
def State.sweep (s : State) (k : Acc) (el : Nat → VElem) (act : Nat → Bool) : List Nat → Sweep → Sweep
  | [], w => w
  | e :: r, w =>
    if act e then
      let x := el e
      match s.element s.cp k x.al x.ea x.n with
      | .error c => { w with fault := some (x, c) }
      | .ok pas => s.sweep k el act r { w with ok := w.ok ++ [(x, pas)], count := w.count + 1 }
    else s.sweep k el act r { w with count := w.count + 1 }

/-- dx0 to dx2 written. -/
def Thread.putDx (t : Thread) (c : Nat × Nat × Nat) : Thread :=
  { t with dims := { t.dims with dx0 := w64 c.1, dx1 := w64 c.2.1, dx2 := w64 c.2.2 } }

/-- What VLDM and VSTM perform: VLDM reads on the tile path, VSTM writes on the general path (R207). -/
def State.performSweep (s : State) (o : VOp) (ok : List (VElem × List Nat)) : Except Stop State :=
  if o.load then
    s.performNow (.tile ⟨o.ag, 0#8, s.poisonEa ok, 0, none⟩ (vtSew s.vt) s.cur.prog.fences
      (ok.flatMap (fun e => e.1.runs e.2)))
  else s.perform o ok

/-- VLDM and VSTM (R207 to R209). -/
def vSweep (load : Bool) (d a g : BitVec 5) (n : BitVec 3) (s : State) : Out :=
  aside false complete (fun s => do
    legal (decide (8 ≤ vtSew s.vt))
    s.settled (pPiece g.toNat)
    let x := s.cur.dims
    let grant := s.cur.conf.grant
    let per := perSlice (vtSew s.vt)
    let vlmax := grant * perGroup (vtSew s.vt) (vtLmul s.vt)
    let count := x.dl0.toNat * x.dl1.toNat * x.dl2.toNat
    let lim := min count s.cur.conf.vl
    let act := fun (e : Nat) => decide (e < lim) && (s.cur.vr.preg g.toNat).getLsbD e
    let el := fun (e : Nat) => plainElem s d.toNat e (blockEa x (s.readS a) e)
    let start := fun (j : Nat) => if s.cur.prog.reissue then Table.get s.cur.conf.counters 0 j else 0
    let ws := (List.range grant).map (fun j =>
      s.sweep (accOf load) el act ((laneElems grant per vlmax j).drop (start j)) ⟨[], none, start j⟩)
    let ok := (ws.flatMap (fun w => w.ok)).mergeSort (fun a b => decide (a.1.i ≤ b.1.i))
    let fs := (ws.filterMap (fun w => w.fault)).mergeSort (fun a b => decide (a.1.i ≤ b.1.i))
    let o := vOp load s d n
    match fs with
    | [] =>
      let s1 ← s.performSweep o ok
      return (s1.marks [] 0).onCur (fun t =>
        ({ t with conf := { t.conf with counters := [] } } : Thread).putDx (0, 0, 0))
    | f :: _ => do
      s.faultReady (ok.flatMap (fun e => e.2))
      let s0 ← s.performSweep o ok
      let s1 := s0.onCur (fun t =>
        ({ t with conf := { t.conf with
            counters := (ws.zipIdx).foldl (fun c w => Table.set c 0 w.2 w.1.count) [] } } : Thread).putDx
          (blockCoord x.dl0.toNat x.dl1.toNat f.1.i))
      .error (s1.elemTrap (accOf load) true true fs)) s

def execVldm (d a g : BitVec 5) (n : BitVec 3) (s : State) : Out := vSweep true d a g n s
def execVstm (d a g : BitVec 5) (n : BitVec 3) (s : State) : Out := vSweep false d a g n s

/-! ## Multivector loads and stores (R212 to R214) -/

/-- The components that a record moves, with their place in it: dense records hold all 16, packed ones the components
of the grades in the tag. -/
def recordComps (packed : Bool) (tag : BitVec 5) : List (Nat × Nat) :=
  if packed then (comps tag).zipIdx else (List.range 16).map (fun c => (c, c))

/-- Record i of a multivector access, under the tag M of mD at dispatch. A component of a grade outside M is +0 in the
register, and stays so (R213, R322). -/
def mvElem (packed : Bool) (s : State) (d i : Nat) (base stride : Word) : VElem :=
  let cs := recordComps packed (s.cur.vr.mreg d).tag
  let n := 4 * cs.length
  let st := if stride = 0#64 then w64 n else stride
  ⟨i, base + w64 i * st, 4, n, cs.map (fun c => (d, 512 * i + 32 * c.1, 32 * c.2, 32))⟩

/-- MLD, MLDP, MST and MSTP. A base or a stride that is no multiple of 4 makes every active element fault (R214). -/
def mvAccess (load packed : Bool) (d a b g : BitVec 5) (n : BitVec 3) (s : State) : Out :=
  aside false complete (fun s => do
    s.settled (pPiece g.toNat)
    s.tagSettled d.toNat
    let is := s.actives g.toNat (min s.cur.conf.vl (8 * s.cur.conf.grant))
    let es := is.map (fun i => mvElem packed s d.toNat i (s.readS a) (s.readS b))
    if ((s.readS a).toNat % 4 ≠ 0 || (s.readS b).toNat % 4 ≠ 0) && !es.isEmpty then do
      s.faultReady []
      .error (s.elemTrap (accOf load) true false (es.map (fun e => (e, cMisaligned))))
    else s.access ⟨n.toNat, load, true, mPiece d.toNat⟩ (accOf load) false es) s

def execMld (d a b g : BitVec 5) (n : BitVec 3) (s : State) : Out := mvAccess true false d a b g n s
def execMldp (d a b g : BitVec 5) (n : BitVec 3) (s : State) : Out := mvAccess true true d a b g n s
def execMst (d a b g : BitVec 5) (n : BitVec 3) (s : State) : Out := mvAccess false false d a b g n s
def execMstp (d a b g : BitVec 5) (n : BitVec 3) (s : State) : Out := mvAccess false true d a b g n s

/-! ## VAMO (07 R244 to R247) -/

/-- The elements of a VAMO as an entry of the pending work. -/
def State.vamoEntry (s : State) (op : VamoOp) (n : BitVec 3) (ok : List (VElem × List Nat)) : VEntry :=
  .vamo ⟨n.toNat, 0#8, s.poisonEa ok, 0, none⟩ op s.vt (ok.flatMap (fun e =>
    e.1.slots.map (fun x => (e.1.ea.toNat, x.1, x.2.1, e.2))))

/-- A VAMO (R244 to R247). -/
def vamo (op : VamoOp) (d a b g : BitVec 5) (n : BitVec 3) (s : State) : Out :=
  aside false complete (fun s => do
    let w := vtSew s.vt
    legal (decide (w = 32 || w = 64))
    legal (if op = .fadd then decide (vtFmt s.vt = 2) else isInt (vtFmt s.vt))
    match indexGroup s b with
    | none => .error (trapOf cIllegal)
    | some _ => do
      s.settled (pPiece g.toNat)
      let is := s.actives g.toNat s.cur.conf.vl
      s.groupsSettled (vtIw s.vt) b.toNat is
      let es := is.map (fun i => plainElem s d.toNat i (s.readS a + s.sindex b i))
      let found := s.translate .atomic es
      let ok := passing found
      let fs := faulting found
      let go := s.performNow (s.vamoEntry op n ok)
      if fs.isEmpty then return (← go).marks [] 0
      else
        s.faultReady (ok.flatMap (fun e => e.2))
        let s1 ← go
        .error (s1.elemTrap .atomic true false fs)) s

def execVamoadd (d a b g : BitVec 5) (n : BitVec 3) (s : State) : Out := vamo .add d a b g n s
def execVamomin (d a b g : BitVec 5) (n : BitVec 3) (s : State) : Out := vamo .min d a b g n s
def execVamomax (d a b g : BitVec 5) (n : BitVec 3) (s : State) : Out := vamo .max d a b g n s
def execVamofadd (d a b g : BitVec 5) (n : BitVec 3) (s : State) : Out := vamo .fadd d a b g n s

/-! ## SPM (R219 to R223) -/

/-- The physical lane group of the thread's j-th lane group (R219); under protected mirror mode its pair's working
group (R161). -/
def State.laneAt (s : State) (j : Nat) : Nat :=
  let l := (s.core s.cur.place.core).latOf s.cur.place.slot
  let gs := (List.range 8).filter (fun k => l.map.getLsbD k)
  gs.getD (if vtPm s.vt then 2 * j else j) 0

/-- A table's scratchpad charge (08 R267). -/
def chargeOf (b : Nat) : Nat := 64 * max (2 ^ b) 8

/-- The charges of a core's tables that p picks. -/
def Core.charges (c : Core) (p : HTable → Bool) : Nat :=
  c.tables.foldl (fun n e =>
    match e.2 with
    | some t => if p t then n + chargeOf t.b else n
    | none => n) 0

/-- U of R221. -/
def Core.spadSize (c : Core) : Nat := 131072 - c.charges (fun _ => true) / 8

/-- U of R221 on the thread's core. -/
def State.spadSize (s : State) : Nat := (s.core s.cur.place.core).spadSize

/-- The lane group and the local index of element i (R120). -/
def laneLocal (grant w i : Nat) : Nat × Nat :=
  let per := perSlice w
  (i % (per * grant) / per, i / (per * grant) * per + i % per)

/-- An SPM instruction with its offsets. The address and vfirst name the lowest element that fails in either way, and the
cause is MISALIGNED where any element is (R221). A word that completes leaves fmask and vfirst as they stand, R205 being of the
instructions that name a stream (DEDUCED, log 18). ib: the index group, where the form has one. -/
def spm (load : Bool) (ib : Option (BitVec 5)) (off : State → Nat → Word) (d g : BitVec 5) (s : State) : Out :=
  aside false complete (fun s => do
    let w := vtSew s.vt
    legal (decide (8 ≤ w))
    match (match ib with
      | some b => indexGroup s b
      | none => some []) with
    | none => .error (trapOf cIllegal)
    | some ix => do
      legal (!load || !meet (s.dataGroup d) ix)
      s.settled (pPiece g.toNat)
      let grant := s.cur.conf.grant
      let is := activeOf (s.cur.vr.preg g.toNat) s.cur.conf.vl
      match ib with
      | some b => s.groupsSettled (vtIw s.vt) b.toNat is
      | none => .ok ()
      if load then .ok () else s.groupsSettled w d.toNat is
      let bad := is.filterMap (fun i =>
        let o := (off s i).toNat
        if o % (w / 8) ≠ 0 then some (i, cMisaligned)
        else if s.spadSize < o + w / 8 then some (i, cScratch) else none)
      match bad with
      | [] =>
        let core := s.core s.cur.place.core
        let place := fun (i : Nat) => 131072 * s.laneAt (laneLocal grant w i).1 + (off s i).toNat
        if load then
          let v := fun (i : Nat) => ofBytes ((rangeFrom (place i) (w / 8)).map (fun k => Table.get core.spad 0#8 k))
          return s.writeRegs (groupWrites grant w d.toNat (is.map (fun i => (i, v i))))
        else
          let put := fun (m : Table Byte) (i : Nat) =>
            ((rangeFrom (place i) (w / 8)).zip (bytesOf (w / 8) (s.cur.vr.elem grant w d.toNat i))).foldl
              (fun m e => Table.set m 0#8 e.1 e.2) m
          return s.setCore s.cur.place.core { core with spad := is.foldl put core.spad }
      | b0 :: _ =>
        let cause := if bad.any (fun b => b.2 == cMisaligned) then cMisaligned else cScratch
        .error (.after { cause := cause, addr := off s b0.1, elems := true } (s.marks (bad.map (fun b => b.1)) b0.1))) s

/-- The offset of SPLDU and SPSTU (R220). -/
def spadUnit (a : BitVec 5) (s : State) (i : Nat) : Word :=
  let w := vtSew s.vt
  s.readS a + w64 ((laneLocal s.cur.conf.grant w i).2 * (w / 8))

/-- The offset of SPLD and SPST (R220). -/
def spadIndexed (a b : BitVec 5) (s : State) (i : Nat) : Word :=
  s.readS a + w64 (s.cur.vr.index s.cur.conf.grant (vtIw s.vt) b.toNat i)

def execSpld (d a b g : BitVec 5) (s : State) : Out := spm true (some b) (spadIndexed a b) d g s
def execSpst (d a b g : BitVec 5) (s : State) : Out := spm false (some b) (spadIndexed a b) d g s
def execSpldu (d a g : BitVec 5) (s : State) : Out := spm true none (spadUnit a) d g s
def execSpstu (d a g : BitVec 5) (s : State) : Out := spm false none (spadUnit a) d g s

end

end Sys2Proof.Machine
end

