-- ==== Sys2Proof/Machine/Staged.lean ====
section
/-!
DEFINITION. Staged objects (09 R292 to R316): automata, classes, transitions with their waiters, and STG and VTXN.
-/
namespace Sys2Proof.Machine

noncomputable section

/-! ## Launch states that a gate decides (R315, R423) -/

/-- A thread's WFE events with a bit added (R480). -/
def State.wake (s : State) (id : ThreadId) (bit : BitVec 4) : State :=
  s.onThread id (fun t => { t with prog := { t.prog with events := t.prog.events ||| bit } })

/-- A launch changed. -/
def State.onLaunch (s : State) (pn lid : Nat) (f : Launch → Launch) : State :=
  let p := s.part pn
  s.setPart pn { p with launches := p.launches.map (fun e => if e.1 = lid then (e.1, f e.2) else e) }

/-- A launch reaches a final state: the thread that accepted it sees the event of WFE (R480). -/
def State.endLaunch (s : State) (pn lid : Nat) (st : LState) (reason : Nat) : State :=
  let s1 := s.onLaunch pn lid (fun l => { l with state := st, reason := reason })
  match Table.get ((s.part pn).launches.map (fun e => (e.1, e.2.accepter))) none lid with
  | some id => s1.wake id 2#4
  | none => s1

/-- A record of CLASS 6 for a gate or a completion (R490). -/
def State.logHub (s : State) (pn lid : Nat) (addr : Word) (cause : Nat) : State :=
  s.logError pn addr 0x2000 (BitVec.ofNat 32 lid) 6 cause

/-- A launch that has its gate applied rejoins at step 2 of R423, at the head of its queue. -/
def State.passGate (s : State) (pn lid : Nat) : State :=
  let p := s.part pn
  match Table.get (p.launches.map (fun e => (e.1, some e.2.packet.prio))) none lid with
  | none => s
  | some k =>
    let s1 := s.setPart pn { p with queues := Table.set p.queues [] k (lid :: Table.get p.queues [] k) }
    (s1.onLaunch pn lid (fun l => { l with state := .queued, passed := true })).push (.partitionUnitTake pn)

/-! ## Automata (R293, R300) -/

/-- NEXT, LEGAL, ACT, DATA, SIDE and WAKE of an entry. -/
def enNext (e : BitVec 16) : Nat := bitsAt e.toNat 0 4
/-- LEGAL. -/
def enLegal (e : BitVec 16) : Bool := bitAt e.toNat 4
/-- ACT. -/
def enAct (e : BitVec 16) : Nat := bitsAt e.toNat 5 2
/-- DATA. -/
def enData (e : BitVec 16) : Nat := bitsAt e.toNat 7 2
/-- Does SIDE release? -/
def enReleases (e : BitVec 16) : Bool := bitAt e.toNat 10
/-- WAKE. -/
def enWake (e : BitVec 16) : Bool := bitAt e.toNat 11

/-- Is entry (s, c) of an image invalid for a state count (R294)? -/
def entryBad (nst st : Nat) (e : BitVec 16) : Bool :=
  decide (bitsAt e.toNat 12 4 ≠ 0) || decide (enAct e = 3) || (enLegal e && decide (enAct e ≠ 0)) ||
    (!enLegal e && (decide (enNext e ≠ 0) || decide (bitsAt e.toNat 7 5 ≠ 0))) ||
    (decide (st < nst) && enLegal e && decide (nst ≤ enNext e)) || (decide (nst ≤ st) && decide (e ≠ 0#16))

/-- Automaton slot n of a partition's objects. -/
def Objects.automaton (o : Objects) (n : Nat) : Automaton := Table.get o.automata Automaton.empty n

/-- What a transition with code c finds in state st (R303, R300). -/
inductive Try where
  | bad
  | legal (next : Nat) (wake : Bool)
  | fail
  | park
  | fault
  deriving DecidableEq, Repr

/-- Does the kind's access stand in DATA (R303)? -/
def dataOk (k : StKind) (data : Nat) : Bool :=
  match k with
  | .ldt => bitAt data 0
  | .stt => bitAt data 1
  | .txn => true
  | .gate => true

/-- The entry of state st and code c, evaluated for an access of kind k (R303). -/
def Automaton.attempt (a : Automaton) (k : StKind) (st c : Nat) : Try :=
  if a.nst ≤ st then .bad
  else
    let e := Table.get a.table 0#16 (16 * st + c)
    if enLegal e then (if dataOk k (enData e) then .legal (enNext e) (enWake e) else .fault)
    else if enAct e = 0 then .fail
    else if enAct e = 1 then .park
    else .fault

/-! ## Objects (R295, R302) -/

/-- Class n. -/
def Objects.cls (o : Objects) (n : Nat) : Option Class := Table.get o.classes none n

/-- The bound class that holds an address, with its number, and the object. -/
def Objects.find (o : Objects) (va : Nat) : Option (Nat × Class × Nat) :=
  ((List.range 16).filterMap (fun n =>
    match o.cls n with
    | some c =>
      if c.base.toNat ≤ va ∧ va < c.base.toNat + c.count * 2 ^ c.osh then
        some (n, c, (va - c.base.toNat) / 2 ^ c.osh)
      else none
    | none => none)).head?

/-- The place of an object's state byte, or the cause and the address of the read that fails (R302, step 4). -/
def State.stateByte (s : State) (p : Part) (c : Class) (j : Nat) : Except (Nat × Word) Nat :=
  let ea := c.sarr + w64 j
  match s.element p .read 1 ea 1 with
  | .error e => .error (e, ea)
  | .ok pas => .ok (pas.headD 0)

/-- Does an entry release, so that its access waits for every access of its thread that waits (R251, R310), at a class
scope wider than the thread (R228)? -/
def Automaton.releases (a : Automaton) (st c : Nat) : Bool := enReleases (Table.get a.table 0#16 (16 * st + c))

/-- The waiters of an object, in order. -/
def Objects.waitersOf (o : Objects) (cls obj : Nat) : List Waiter :=
  o.waiters.filter (fun w => w.cls == cls && w.obj == obj)

/-- Does the staged unit that is home to the state byte at sb hold 4,096 waiters (R306)? -/
def State.unitFull (s : State) (sb : Nat) : Bool :=
  let all := s.objects.flatMap (fun e => e.2.waiters)
  decide (4096 ≤ all.length) &&
    decide (4096 ≤ (all.filter (fun w => homeOf w.sb == homeOf sb)).length)

/-! ## A transition applied or failed (R303) -/

/-- stst after an access (R308). -/
def ststWord (fail vec : Bool) (st next code cls : Nat) : Word :=
  w64 (b2n fail + 2 * b2n vec + 16 * bitsAt st 0 4 + 256 * next + 4096 * code + 65536 * cls)

/-- A scalar access that failed: stst, and the rest unchanged. -/
def State.failAccess (s : State) (w : Waiter) (st : Nat) : State :=
  s.onThread w.thread (fun t => { t with user := { t.user with stst := ststWord true false st st w.code w.cls } })

/-- A thread as a writer of memory. -/
def State.writerOf (s : State) (id : ThreadId) : Writer :=
  match s.findThread id with
  | some t => .thread id t.place.core
  | none => .unit

/-- The data access and the result of a legal transition, with the new state (R303). -/
def State.applyAccess (s : State) (w : Waiter) (st next : Nat) : State :=
  let pas := rangeFrom w.pa w.size
  let res := match w.kind with
    | .ldt => some (w64 (ofBytes (pas.map s.mem.byte)))
    | .txn => some (w64 st)
    | _ => none
  let s1 := match w.kind with
    | .stt => s.putBy (s.writerOf w.thread) pas (bytesOf w.size w.data.toNat)
    | _ => s
  let s2 := s1.putBy (.sheet (homeOf w.sb)) [w.sb] [BitVec.ofNat 8 next]
  match w.kind with
  | .gate => s2
  | _ =>
    s2.onThread w.thread (fun t =>
      let t1 := { t with user := { t.user with stst := ststWord false false st next w.code w.cls } }
      match res with
      | some v => t1.writeS (BitVec.ofNat 5 w.dest) v
      | none => t1)

/-- A parked access completes as if it had not parked (R305). -/
def State.finishAccess (s : State) (w : Waiter) : State :=
  match w.kind with
  | .gate => s
  | _ => s.onThread w.thread (fun t => t.advance.retired t.pc)

/-- A parked access takes the trap of its fault, once its thread's E-side has finished earlier work (R305, R468). -/
def State.faultAccess (s : State) (w : Waiter) (cause : Nat) (addr : Word) : State :=
  s.onThread w.thread (fun t => { t with prog := { t.prog with wait := .retry (.fault cause addr) } })

/-- The head waiter of an object leaves the queue. -/
def State.unpark (s : State) (pn : Nat) (w : Waiter) : State :=
  let o := s.objs pn
  s.setObjs pn { o with waiters := o.waiters.erase w }

/-- Would a legal LDT read poison (R493)? -/
def State.poisonedLdt (s : State) (w : Waiter) : Bool := decide (w.kind = .ldt) && s.poisoned (rangeFrom w.pa w.size)

/-- The waiters of an object evaluated from the head, n at most (R305). A legal LDT whose data is poisoned makes no transition: its
waiter leaves with MACHINE_CHECK, and the next head is evaluated in the state that stands (DESIGN CHOICE, log 18). So does one
whose data lies on a peer that no port reaches, with LINK_ERROR (R260, R504; log 31). -/
def State.handOff (pn cls obj sb slot : Nat) : Nat → State → State
  | 0, s => s
  | n + 1, s =>
    let o := s.objs pn
    match (o.waitersOf cls obj).head? with
    | none => s
    | some w =>
      let st := (s.mem.byte sb).toNat
      match (o.automaton slot).attempt w.kind st w.code with
      | .park => s
      | .legal next wake =>
        if (rangeFrom w.pa w.size).any s.cutOff then
          State.handOff pn cls obj sb slot n ((s.unpark pn w).linkLost w.thread s.fresh)
        else if s.poisonedLdt w then State.handOff pn cls obj sb slot n ((s.unpark pn w).faultAccess w cMachine w.va)
        else
        let s1 := ((s.unpark pn w).applyAccess w st next).finishAccess w
        let s2 := if w.kind = .gate then s1.passGate pn w.thread.lid else s1
        if wake then State.handOff pn cls obj sb slot n s2 else s2
      | .fail =>
        let s1 := s.unpark pn w
        let s2 := if w.kind = .gate then s1.endLaunch pn w.thread.lid .gateFailed 0
          else (s1.failAccess w st).finishAccess w
        State.handOff pn cls obj sb slot n s2
      | .fault =>
        let s1 := s.unpark pn w
        let s2 := if w.kind = .gate then
            (s1.endLaunch pn w.thread.lid .gateFaulted 0).logHub pn w.thread.lid w.va cStIllegal
          else s1.faultAccess w cStIllegal w.va
        State.handOff pn cls obj sb slot n s2
      | .bad =>
        let s1 := s.unpark pn w
        let s2 := if w.kind = .gate then
            (s1.endLaunch pn w.thread.lid .gateFaulted 0).logHub pn w.thread.lid w.va cStBad
          else s1.faultAccess w cStBad w.va
        State.handOff pn cls obj sb slot n s2

/-- A legal transition, and the hand-off that its WAKE brings (R303, R305). -/
def State.transition (s : State) (pn : Nat) (w : Waiter) (slot st next : Nat) (wake : Bool) : State :=
  let s1 := s.applyAccess w st next
  if wake then State.handOff pn w.cls w.obj w.sb slot ((s1.objs pn).waitersOf w.cls w.obj).length s1 else s1

/-- An access whose action is PARK: it waits in the object's queue, or where the unit is full is sent again (R305, R306). -/
def State.parkAccess (s : State) (pn : Nat) (w : Waiter) : State :=
  let o := s.objs pn
  if s.unitFull w.sb then
    (s.setObjs pn { o with resend := o.resend.filter (fun x => x.thread != w.thread) ++ [w] }).timer
      (.stagedResend w.thread)
  else s.setObjs pn { o with resend := o.resend.filter (fun x => x.thread != w.thread), waiters := o.waiters ++ [w] }

/-! ## LDT, STT and TXN (R302, R303) -/

/-- What arrival of a scalar access comes to: done, parked, a trap, or a wait before it arrives. -/
inductive Arrival where
  | done (s : State)
  | parked (s : State)
  | trap (cause : Nat) (addr : Word)
  | wait (w : WaitOn)

/-- Does an engine own the line of an object's state byte, or of the data of an access that waits on the object (R23,
R374)? -/
def State.objectOwned (s : State) (o : Objects) (cls obj sb : Nat) : Bool :=
  s.owned sb || (o.waitersOf cls obj).any (fun w => (rangeFrom w.pa w.size).any s.owned)

/-- A scalar access arrives at its staged unit (R302 from step 3, R303). quiet: no access of its thread waits; an access that
parks, or whose entry releases, waits for that first (R251, R310), and an access whose own bytes an engine has taken meanwhile
waits for it (R23). A legal LDT whose data is poisoned raises MACHINE_CHECK and makes no transition (DESIGN CHOICE, log 18). -/
def State.arrive (s : State) (pn : Nat) (quiet : Bool) (w : Waiter) : Arrival :=
  let o := s.objs pn
  match o.find w.va.toNat with
  | none => .trap cStIllegal w.va
  | some (n, c, j) =>
    match s.stateByte (s.part pn) c j with
    | .error (e, a) => .trap e a
    | .ok sb =>
      let w := { w with cls := n, obj := j, sb := sb }
      let st := (s.mem.byte sb).toNat
      if (sb :: rangeFrom w.pa w.size).any s.cutOff then .wait (.peer s.peerTag)
      else if s.objectOwned o n j sb || (rangeFrom w.pa w.size).any s.owned then .wait .other
      else if s.poisoned [sb] then .trap cMachine (c.sarr + w64 j)
      else
        match (o.automaton c.slot).attempt w.kind st w.code with
        | .bad => .trap cStBad w.va
        | .fault => .trap cStIllegal w.va
        | .fail => .done (s.failAccess w st)
        | .park => if quiet then .parked (s.parkAccess pn w) else .wait .other
        | .legal next wake =>
          if !quiet && (o.automaton c.slot).releases st w.code && decide (c.scope ≠ 0) then .wait .other
          else if s.poisonedLdt w then .trap cMachine w.va
          else .done (s.transition pn w c.slot st next wake)

/-- LDT, STT and TXN: the access of a word of size bytes at the address in sA, as the thread's own access first (R302, steps
1 and 2). -/
def stagedWord (k : StKind) (acc : Acc) (size : Nat) (code : BitVec 4) (d a : BitVec 5) (s : State) : Out :=
  let go := fun (s : State) => (do
    let ea := s.readS a
    let pas ← s.place acc size ea size
    let w : Waiter := ⟨ea, 0, 0, 0, k, code.toNat, s.cur.id, d.toNat, size, pas.headD 0, s.readS d⟩
    match s.arrive s.pn (!s.cur.anyPending) w with
    | .done s' => return s'
    | .parked s' => .error (.waitIn .other s')
    | .wait x => .error (.wait x)
    | .trap c addr => .error (.trap { cause := c, addr := addr, batch := if c = cResidency then [subBlock addr] else [] })
    : Except Stop State)
  match s.cur.framing, go s with
  | none, .error (.waitIn _ s') =>
    if s.cur.trapPending then .next (s.waits .other)
    else .next (s'.onProg (fun p => { p with wait := .parked }))
  | _, _ => aside false complete go s

/-- Bytes of a size field. -/
def stSize (z : BitVec 2) : Nat := 2 ^ z.toNat

def execLdt (c : BitVec 4) (d a : BitVec 5) (z : BitVec 2) (s : State) : Out := stagedWord .ldt .read (stSize z) c d a s
def execStt (c : BitVec 4) (d a : BitVec 5) (z : BitVec 2) (s : State) : Out := stagedWord .stt .write (stSize z) c d a s
def execTxn (c : BitVec 4) (d a : BitVec 5) (s : State) : Out := stagedWord .txn .read 1 c d a s

/-- An access that a full unit turned away arrives again (R306); where an engine or a peer keeps it from its bytes its word
executes again, and waits for them as at first (R23, R260). -/
def execStagedResend (t : ThreadId) (s : State) : Out :=
  let o := s.objs t.part
  match o.resend.find? (fun w => w.thread == t) with
  | none => .next s
  | some w =>
    let s1 := s.setObjs t.part { o with resend := o.resend.filter (fun x => x.thread != t) }
    match s1.arrive t.part true w with
    | .done s' => .next (s'.finishAccess w)
    | .parked s' => .next s'
    | .trap c a => .next (s1.faultAccess w c a)
    | .wait _ => .next (s1.onThread t (fun h => { h with prog := { h.prog with wait := .retry .other } }))

/-! ## STQRY (R309) -/

def execStqry (d a : BitVec 5) (s : State) : Out :=
  aside false complete (fun s => do
    let ea := s.readS a
    let _ ← s.place .read 1 ea 1
    let o := s.objs s.pn
    match o.find ea.toNat with
    | none => return s.writeS d 0#64
    | some (n, c, j) =>
      match s.stateByte s.cp c j with
      | .error (e, ad) =>
        .error (.trap { cause := e, addr := ad, batch := if e = cResidency then [subBlock ad] else [] })
      | .ok sb =>
        s.reachable [sb]
        let _ ← s.fetchBytes (c.sarr + w64 j) [sb]
        let st := (s.mem.byte sb).toNat
        return s.writeS d (w64 (bitsAt st 0 4 + 16 + 32 * b2n (decide ((o.automaton c.slot).nst ≤ st)) + 256 * n +
          4096 * (o.waitersOf n j).length))) s

/-! ## STLOAD, STBIND and STUNBIND (R297 to R299) -/

/-- A device-scope full fence: earlier accesses that wait come first. -/
def State.fenced (s : State) : Except Stop Unit := if s.cur.anyPending then .error (.wait .other) else .ok ()

/-- The 256 entries of an image, by 16·state + code. -/
def imageEntry (bs : List Byte) (k : Nat) : BitVec 16 := BitVec.ofNat 16 (field bs (2 * k) 2)

def execStload (d a b : BitVec 5) (s : State) : Out :=
  aside false complete (fun s => do
    s.fenced
    let bs ← s.loadBlock 64 (s.readS a) 512
    let x := (s.readS b).toNat
    let slot := bitsAt x 0 3
    let nst := bitsAt x 8 5
    let bad := decide (bitsAt x 3 5 ≠ 0) || decide (bitsAt x 13 51 ≠ 0) || decide (nst = 0) || decide (16 < nst) ||
      (List.range 256).any (fun k => entryBad nst (k / 16) (imageEntry bs k))
    if bad then return s.writeS d 2#64
    else
      let o := s.objs s.pn
      let mine := fun (n : Nat) => match o.cls n with
        | some c => decide (c.slot = slot)
        | none => false
      if o.waiters.any (fun w => mine w.cls) then return s.writeS d 1#64
      else
        let table := (List.range 256).foldl (fun t k => Table.set t 0#16 k (imageEntry bs k)) []
        return (s.setObjs s.pn { o with automata := Table.set o.automata Automaton.empty slot ⟨nst, table⟩ }).writeS d 0#64) s

/-- Do two ranges of (first, length) meet? -/
def rangesMeet (a b : Nat × Nat) : Bool := decide (a.1 < b.1 + b.2) && decide (b.1 < a.1 + a.2)

/-- Does a range lie in the partition's window? -/
def Part.windowHolds (p : Part) (r : Nat × Nat) : Bool :=
  decide (p.regs.vwbaseF.toNat ≤ r.1) && decide (r.1 + r.2 ≤ p.regs.vwbaseF.toNat + p.regs2.gzcount * 2 ^ 28)

/-- The object range and the state array of a class. -/
def Class.ranges (c : Class) : List (Nat × Nat) := [(c.base.toNat, c.count * 2 ^ c.osh), (c.sarr.toNat, c.count)]

/-- A class descriptor, if its fields lie in their ranges (R296), with ISTATE and CNUM. -/
def classParse (bs : List Byte) : Option (Class × Nat × Nat) :=
  let f := field bs
  let osh := f 12 1
  let ok := decide (6 ≤ osh) && decide (osh ≤ 16) && decide (f 0 8 % 2 ^ osh = 0) && decide (1 ≤ f 8 4) &&
    decide (f 8 4 ≤ 16777216) && decide (f 13 1 ≤ 7) && decide (1 ≤ f 15 1) && decide (f 15 1 ≤ 4) &&
    (decide (f 16 1 ≤ 15) || decide (f 16 1 = 255)) && decide (f 17 7 = 0) && decide (f 32 32 = 0)
  if ok then some (⟨w64 (f 0 8), f 8 4, osh, f 13 1, f 15 1, w64 (f 24 8)⟩, f 14 1, f 16 1) else none

/-- The class number that a descriptor gets, unless STBIND refuses it (R297). -/
def State.bindNumber (s : State) (c : Class) (istate cnum : Nat) : Option Nat :=
  let o := s.objs s.pn
  let a := o.automaton c.slot
  let rs := c.ranges
  let others := (List.range 16).filterMap o.cls
  let free := fun (n : Nat) => (o.cls n).isNone
  let n := if cnum = 255 then (List.range 16).find? free else if free cnum then some cnum else none
  let clash := rangesMeet (rs.headD (0, 0)) (rs.getD 1 (0, 0)) ||
    others.any (fun x => x.ranges.any (fun r => rs.any (rangesMeet r)))
  if a.nst ≤ istate || !rs.all s.cp.windowHolds || clash then none else n

/-- One address of each sub-block of n bytes from va. -/
def subBlocks (va : Word) (n : Nat) : List Word :=
  let first := va.toNat / 2 ^ 21
  let last := (va.toNat + n - 1) / 2 ^ 21
  (rangeFrom first (last + 1 - first)).map (fun k => if k = first then va else w64 (k * 2 ^ 21))

/-- Each byte of a state array written with a state by the staged unit of its sheet (R297). -/
def State.putStates (s : State) (pas : List Nat) (x : Nat) : State :=
  pas.foldl (fun s pa => s.putBy (.sheet (homeOf pa)) [pa] [BitVec.ofNat 8 x]) s

/-- STBIND (R297). Of the sub-blocks of the state array that fail the lowest gives the cause and the address (DESIGN CHOICE, log
18). -/
def execStbind (d a : BitVec 5) (s : State) : Out :=
  aside false complete (fun s => do
    s.fenced
    let bs ← s.loadBlock 64 (s.readS a) 64
    match classParse bs with
    | none => return s.writeS d minusOne
    | some (c, istate, cnum) =>
      match s.bindNumber c istate cnum with
      | none => return s.writeS d minusOne
      | some n =>
        match (subBlocks c.sarr c.count).filterMap (fun va =>
          match s.element s.cp .write 1 va 1 with
          | .error e => some (e, va)
          | .ok _ => none) with
        | (e, va) :: _ => .error (accessTrap e va)
        | [] =>
          let pas := (byteAddrs c.sarr c.count).map (fun va => s.cp.tagged (s.winPa s.cp va))
          match s.reachable pas with
          | .error e => .error e
          | .ok _ =>
            let s1 := s.putStates pas istate
            let o := s1.objs s1.pn
            return (s1.setObjs s1.pn { o with classes := Table.set o.classes none n (some c) }).writeS d (w64 n)) s

def execStunbind (d b : BitVec 5) (s : State) : Out :=
  aside false complete (fun s => do
    s.fenced
    let o := s.objs s.pn
    match o.cls b.toNat with
    | none => return s.writeS d minusOne
    | some _ =>
      if o.waiters.any (fun w => w.cls == b.toNat) then return s.writeS d 1#64
      else return (s.setObjs s.pn { o with classes := Table.set o.classes none b.toNat none }).writeS d 0#64) s

/-! ## VTXN (R311 to R313) -/

/-- What VTXN has done so far: the bits of PG, stst of the lowest failed element and of the lowest element, the faults with
their causes and addresses, and what an element has to wait for, so that the word executes again (log 31). -/
structure VtxnRun where
  bits : List (Nat × Bool)
  failed : Option Word
  first : Option Word
  faults : List (Nat × Nat × Word)
  waits : Option WaitOn
  s : State

/-- One element of VTXN (R312, R313). Where the read of its state byte fails, the element faults with that read's cause, and the
record names the address of the state byte (DESIGN CHOICE, log 18). -/
def VtxnRun.elem (r : VtxnRun) (code : Nat) (i : Nat) (ea : Word) : VtxnRun :=
  let s := r.s
  let o := s.objs s.pn
  let fault := fun (c : Nat) (a : Word) => { r with faults := r.faults ++ [(i, c, a)] }
  match s.element s.cp .read 1 ea 1 with
  | .error c => fault c ea
  | .ok _ =>
    match o.find ea.toNat with
    | none => fault cStIllegal ea
    | some (n, c, j) =>
      match s.stateByte s.cp c j with
      | .error (e, a) => fault e a
      | .ok sb =>
        let st := (s.mem.byte sb).toNat
        let aut := o.automaton c.slot
        if s.cutOff sb then { r with waits := some (.peer s.peerTag) }
        else if s.objectOwned o n j sb then { r with waits := r.waits.orElse (fun _ => some .other) }
        else if s.poisoned [sb] then fault cMachine (c.sarr + w64 j)
        else
          match aut.attempt .gate st code with
          | .bad => fault cStBad ea
          | .legal next wake =>
            let w : Waiter := ⟨ea, sb, n, j, .gate, code, s.cur.id, 0, 0, 0, 0⟩
            { r with
              bits := r.bits ++ [(i, true)]
              first := some (r.first.getD (ststWord false true st next code n))
              waits :=
                if s.cur.anyPending && aut.releases st code && decide (c.scope ≠ 0) then r.waits.orElse (fun _ => some .other)
                else r.waits
              s := s.transition s.pn w c.slot st next wake }
          | _ =>
            let word := ststWord true true st st code n
            { r with bits := r.bits ++ [(i, false)], failed := some (r.failed.getD word), first := some (r.first.getD word) }

/-- VTXN (R311 to R313). One that completes without a fault clears fmask and vfirst, as a vector memory instruction does by R205
(DEDUCED, log 18). A poisoned state byte of the lowest element that fails is a MACHINE_CHECK, no fault of R313: RI is 0 (R474). -/
def execVtxn (c : BitVec 4) (a b g : BitVec 5) (s : State) : Out :=
  aside false complete (fun s =>
    match indexGroup s b with
    | none => .error (trapOf cIllegal)
    | some _ => do
      s.settled (pPiece g.toNat)
      let is := s.actives g.toNat s.cur.conf.vl
      s.groupsSettled (vtIw s.vt) b.toNat is
      if s.cur.accessPending 0 [] then .error (.wait .other) else .ok ()
      let r := is.foldl (fun (r : VtxnRun) i => r.elem c.toNat i (s.readS a + s.sindex b i)) ⟨[], none, none, [], none, s⟩
      match r.waits with
      | some w => .error (.wait w)
      | none => .ok ()
      let s1 := r.s.writeRegs (predWrite g.toNat r.bits)
      match r.faults with
      | [] =>
        if is.isEmpty then return s
        else
          let word := (r.failed.orElse (fun _ => r.first)).getD s.cur.user.stst
          return (s1.onUser (fun u => { u with stst := word })).marks [] 0
      | f :: _ =>
        if !s.cur.viq.isEmpty then .error (.wait .other)
        else
          let batch := ((r.faults.filter (fun f => f.2.1 == cResidency)).map (fun f => subBlock f.2.2)).eraseDups.take 16
          if f.2.1 = cMachine then .error (.after { cause := cMachine, addr := f.2.2 } s1)
          else
            .error (.after { cause := f.2.1, addr := f.2.2, reissue := true, batch := batch, elems := true }
              (s1.marks (r.faults.map (fun f => f.1)) f.1))) s

end

end Sys2Proof.Machine
end

