-- ==== Sys2Proof/Machine/Geo.lean ====
section
/-!
DEFINITION. GEO (15 R441 to R464): the ray tests BOXX and TRIX, the multi-layer targets with MLCFG, the words that send
operations to multi-layer units, and what a unit does with one.
-/
namespace Sys2Proof.Machine

noncomputable section

/-! ## Exact arithmetic -/

/-- Sum. -/
def xadd (a b : FV) : FV := (a.add b).val
/-- Difference. -/
def xsub (a b : FV) : FV := (a.add b.negate).val
/-- Product. -/
def xmul (a b : FV) : FV := (a.mul b).val
/-- Quotient. -/
def xdiv (a b : FV) : FV := (a.div b).val
/-- Is a ≤ b? -/
def xle (a b : FV) : Bool := FV.lt a b || FV.eq a b
/-- The greater of two. -/
def xmax (a b : FV) : FV := if FV.lt a b then b else a
/-- The lesser of two. -/
def xmin (a b : FV) : FV := if FV.lt b a then b else a

/-- A sum of exact terms rounded once to a format, with the zero that R124 gives. -/
def roundTerms (f : Fmt) (l : List FV) : FV := f.value (roundOnce f 0 false (sumTerms 0 l).val).val

/-- R(x) of R446. -/
def r32 (x : FV) : FV := fp32.value (roundOnce fp32 0 false x).val

/-! ## Ray tests (R441 to R446) -/

/-- A point, by axis. -/
abbrev Pt := Nat → FV

/-- FP32 number k of the bytes of a primitive. -/
def primVal (bs : List Byte) (k : Nat) : FV := fp32.value (field bs (4 * k) 4)

/-- Is a coordinate of a point NaN or infinite? -/
def badPt (p : Pt) : Bool := (p 0).notFinite || (p 1).notFinite || (p 2).notFinite

/-- Component n of ray i (R441). -/
def State.rayBits (s : State) (a i n : Nat) : Nat := s.cur.vr.elem s.cur.conf.grant 32 ((a + n) % 32) i

/-- The slabs of BOXX from axis a on (R445): the entry and exit so far, and whether a slab has given the entry; none for
a miss. -/
def slabs (o d lo hi : Pt) : List Nat → FV → FV → Bool → Option (FV × FV × Bool)
  | [], tn, tf, e => some (tn, tf, e)
  | a :: r, tn, tf, e =>
    if FV.lt (hi a) (lo a) then none
    else if (d a).isZero then (if FV.lt (o a) (lo a) || FV.lt (hi a) (o a) then none else slabs o d lo hi r tn tf e)
    else
      let n := xdiv (xsub (lo a) (o a)) (d a)
      let f := xdiv (xsub (hi a) (o a)) (d a)
      let m := xmin n f
      slabs o d lo hi r (xmax tn m) (xmin tf (xmax n f)) (e || xle tn m)

/-- The entry that BOXX writes, if the ray hits the box: z stands for the sign of a zero that the slabs gave (log 11). -/
def boxTest (ray box : Nat → FV) (z : Bool) : Option Nat :=
  let o : Pt := ray
  let d : Pt := fun a => ray (3 + a)
  let lo : Pt := box
  let hi : Pt := fun a => box (3 + a)
  let tmin := ray 6
  let tmax := ray 7
  if badPt o || badPt d || badPt lo || badPt hi || tmin.isNan || tmax.isNan || FV.lt tmax tmin then none
  else
    match slabs o d lo hi [0, 1, 2] tmin tmax false with
    | none => none
    | some (tn, tf, e) =>
      if xle tn tf && FV.lt tn tmax then
        let t := if tn.isZero && e then FV.zero z else tn
        some (roundOnce fp32 2 false t).val
      else none

/-- The sheared coordinates of a triangle's point (R446), as (x, y, z). -/
def shear (o s p : Pt) (kx ky kz : Nat) : FV × FV × FV :=
  let r : Pt := fun a => r32 (sumTerms 0 [p a, (o a).negate]).val
  (roundTerms fp32 [r kx, (xmul (s 0) (r kz)).negate], roundTerms fp32 [r ky, (xmul (s 1) (r kz)).negate],
    r32 (xmul (s 2) (r kz)))

/-- p.x·q.y − p.y·q.x as its two terms. -/
def crossTerms (p q : FV × FV × FV) : List FV := [xmul p.1 q.2.1, (xmul p.2.1 q.1).negate]

/-- Does the edge from p to q belong to the triangle (R446)? -/
def ownedEdge (p q : FV × FV × FV) : Bool :=
  FV.lt p.2.1 q.2.1 || (FV.eq p.2.1 q.2.1 && FV.lt q.1 p.1)

/-- The axis of largest magnitude, the lowest on ties. -/
def majorAxis (d : Pt) : Nat :=
  let k := if FV.lt (d 0).abs (d 1).abs then 1 else 0
  if FV.lt (d k).abs (d 2).abs then 2 else k

/-- t, b1 and b2 of a ray that hits a triangle (R446). -/
def triTest (ray tri : Nat → FV) : Option (Nat × Nat × Nat) :=
  let o : Pt := ray
  let d : Pt := fun a => ray (3 + a)
  let p := fun (k : Nat) => (fun a => tri (3 * k + a) : Pt)
  let tmin := ray 6
  let tmax := ray 7
  if badPt o || badPt d || badPt (p 0) || badPt (p 1) || badPt (p 2) || tmin.isNan || tmax.isNan then none
  else if (d 0).isZero && (d 1).isZero && (d 2).isZero then none
  else
    let kz := majorAxis d
    let k1 := (kz + 1) % 3
    let k2 := (kz + 2) % 3
    let back := FV.lt (d kz) (FV.zero false)
    let kx := if back then k2 else k1
    let ky := if back then k1 else k2
    let sx := r32 (xdiv (d kx) (d kz))
    let sy := r32 (xdiv (d ky) (d kz))
    let sz := r32 (xdiv FV.one (d kz))
    let sh : Pt := fun k => if k = 0 then sx else if k = 1 then sy else sz
    let a := shear o sh (p 0) kx ky kz
    let b := shear o sh (p 1) kx ky kz
    let c := shear o sh (p 2) kx ky kz
    let edge := fun (f : Fmt) => (roundTerms f (crossTerms c b), roundTerms f (crossTerms a c), roundTerms f (crossTerms b a))
    let e0 := edge fp32
    let e := if e0.1.isZero || e0.2.1.isZero || e0.2.2.isZero then edge fp64 else e0
    let u := e.1
    let v := e.2.1
    let w := e.2.2
    let det := (sumTerms 0 [u, v, w]).val
    if det.isZero then none
    else
      let bad := fun (x : FV) (p q : FV × FV × FV) =>
        if x.isZero then !(if det.neg then ownedEdge q p else ownedEdge p q) else x.neg != det.neg
      if det.isNan || bad u b c || bad v c a || bad w a b then none
      else
        let t := (sumTerms 0 [xmul u a.2.2, xmul v b.2.2, xmul w c.2.2]).val
        let q := fun (x : FV) => (roundOnce fp32 0 false (xdiv x det)).val
        let tv := fp32.value (q t)
        if xle tmin tv && FV.lt tv tmax then some (q t, q v, q w) else none

/-- The trap or the completion of a ray test, which reads its primitives on AG0 and waits at its word for its turn (R444;
log 31). Poison in the primitive of an element that does not fault raises MACHINE_CHECK before the faults of others, and no
element is written then (DESIGN CHOICE, log 18). test answers the values of the destination registers for a hit. -/
def rayTest (bytes regs : Nat) (test : State → Nat → (Nat → FV) → (Nat → FV) → Option (List Nat))
    (d a b g : BitVec 5) (s : State) : Out :=
  aside false complete (fun s => do
    let dst := vGroup regs d.toNat
    let adr := vGroup 2 b.toNat
    legal (decide (vtSew s.vt = 32) && decide (vtLmul s.vt = 1) && decide (g ≠ 0#5) && !meet dst adr)
    s.settled (pPiece g.toNat)
    let grant := s.cur.conf.grant
    let is := s.actives g.toNat s.cur.conf.vl
    (List.range 8).forM (fun n => s.groupsSettled 32 ((a.toNat + n) % 32) is)
    s.groupsSettled 64 b.toNat is
    let es : List VElem := is.map (fun i =>
      ⟨i, w64 (s.cur.vr.elem grant 64 b.toNat i), 4, bytes, []⟩)
    let found := s.translate .read es
    let ok := passing found
    let fs := faulting found
    let pas := ok.flatMap (fun e => e.2)
    s.ready 0 pas
    if fs.isEmpty then .ok () else s.faultReady pas
    if s.consumes true pas then .error (.trap { cause := cMachine, addr := s.poisonEa ok })
    else
      let hits := ok.map (fun e =>
        (e.1.i, test s e.1.i (fun n => fp32.value (s.rayBits a.toNat e.1.i n)) (primVal (e.2.map s.mem.byte))))
      let vals := hits.flatMap (fun h =>
        match h.2 with
        | some l => (dst.zip l).map (fun x => (x.1, elemPos 32 h.1, 32, x.2))
        | none => [])
      let s1 := s.writeRegs (gatherV vals ++ predWrite g.toNat (hits.map (fun h => (h.1, h.2.isSome))))
      if fs.isEmpty then return s1.marks [] 0
      else .error (s1.elemTrap .read true false fs)) s

def execBoxx (d a b g : BitVec 5) (s : State) : Out :=
  rayTest 24 1 (fun s i ray box =>
    (boxTest ray box (decide (Config.choice s.fresh (2 ^ 59 + i) % 2 = 1))).map (fun t => [t])) d a b g s

def execTrix (d a b g : BitVec 5) (s : State) : Out :=
  rayTest 36 3 (fun _ _ ray tri => (triTest ray tri).map (fun h => [h.1, h.2.1, h.2.2])) d a b g s

/-! ## Targets (R447 to R453) -/

/-- The null node (R451). -/
def nullNode : Nat := 0xFFFFFF

/-- Target n of a partition's objects. -/
def Objects.target (o : Objects) (n : Nat) : Option Target := Table.get o.targets none n

/-- The bytes of a head array (R450). -/
def headSpan (width height : Nat) : Nat := 256 * cdiv width 8 * cdiv height 8

/-- The address of the head entry of pixel (x, y) (R450). -/
def Target.headAt (t : Target) (x y : Nat) : Word :=
  t.head + w64 (256 * (cdiv t.width 8 * (y / 8) + x / 8) + 4 * (8 * (y % 8) + x % 8))

/-- The address of node n (R452). -/
def Target.nodeAt (t : Target) (n : Nat) : Word := t.pool + w64 (16 * n)

/-- The nodes of page p; the null node is never allocated (R453). -/
def pageNodes (p : Nat) : List Nat := (rangeFrom (256 * p) 256).filter (fun n => n != nullNode)

/-- The pixels of an element by their head entries (R456, R459): one pixel, or those of a coarse cell that foot covers. -/
def Target.pixels (t : Target) (coarse : Bool) (pix foot : Nat) : List Word :=
  if coarse then
    let cw := cdiv t.width 2
    (List.range 4).filterMap (fun b =>
      let x := 2 * (pix % cw) + b % 2
      let y := 2 * (pix / cw) + b / 2
      if bitAt foot b && decide (x < t.width) && decide (y < t.height) then some (t.headAt x y) else none)
  else if pix < t.width * t.height then [t.headAt (pix % t.width) (pix / t.width)]
  else []

/-- The free nodes of a target on a core. -/
def Core.free (c : Core) (n : Nat) : List Nat := Table.get c.freeNodes [] n

/-- A node taken for target n on core c, which one of those free the spec leaves open (log 13): from the core's list, or
from a page that the hub's map still has. -/
def State.takeNode (s : State) (c n item : Nat) : Option (Nat × State) :=
  let o := s.objs s.pn
  match o.target n with
  | none => none
  | some t =>
    let core := s.core c
    let pick := fun (k : Nat) (l : List Nat) => l.getD (Config.choice s.fresh (2 ^ 56 + k) % l.length) 0
    match core.free n, t.undrawn with
    | [], [] => none
    | [], u =>
      let page := pick (2 * item + 1) u
      let l := pageNodes page
      let node := pick (2 * item) l
      let s1 := s.setObjs s.pn { o with targets := Table.set o.targets none n (some { t with undrawn := u.erase page }) }
      some (node, s1.setCore c { core with freeNodes := Table.set core.freeNodes [] n (l.erase node) })
    | l, _ =>
      let node := pick (2 * item) l
      some (node, s.setCore c { core with freeNodes := Table.set core.freeNodes [] n (l.erase node) })

/-- Nodes joined to the free list of target n on core c (R453). -/
def State.freeNodes (s : State) (c n : Nat) (l : List Nat) : State :=
  let core := s.core c
  s.setCore c { core with freeNodes := Table.set core.freeNodes [] n (core.free n ++ l) }

/-! ## MLCFG (R449, R454) -/

/-- A descriptor whose fields lie in their ranges (R449), with its target number. -/
def targetParse (bs : List Byte) : Option (Target × Nat) :=
  let f := field bs
  let ok := decide (f 0 2 ≤ 16384) && decide (1 ≤ f 2 2) && decide (f 2 2 ≤ 16384) && decide (1 ≤ f 4 1) &&
    decide (f 4 1 ≤ 16) && decide (f 5 1 ≤ 2) && decide (f 6 1 ≤ 3) && decide (f 7 1 = 0) &&
    decide (f 8 8 % 256 = 0) && decide (f 16 8 % 4096 = 0) && decide (1 ≤ f 24 4) && decide (f 24 4 ≤ 65536) &&
    decide (f 28 36 = 0)
  if ok then some (⟨f 0 2, f 2 2, f 4 1, f 5 1, w64 (f 8 8), w64 (f 16 8), f 24 4, []⟩, f 6 1) else none

/-- Do the head range and the pool range lie in the window? An empty range does. -/
def Target.inside (t : Target) (p : Part) : Bool :=
  let h := headSpan t.width t.height
  (decide (h = 0) || p.windowHolds (t.head.toNat, h)) && p.windowHolds (t.pool.toNat, 4096 * t.pages)

/-- The first sub-block of a range that fails its checks, for reading and writing (R454). -/
def State.rangeBad (s : State) (va : Word) (n : Nat) : Option (Nat × Word) :=
  if n = 0 then none
  else
    ((subBlocks va n).filterMap (fun v =>
      match s.element s.cp .atomic 1 v 1 with
      | .error e => some (e, v)
      | .ok _ => none)).head?

/-- The target of number n replaced. -/
def State.setTarget (s : State) (n : Nat) (t : Option Target) : State :=
  let o := s.objs s.pn
  s.setObjs s.pn { o with targets := Table.set o.targets none n t }

/-- Every core of the partition discards its free nodes of target n. -/
def State.dropFree (s : State) (n : Nat) : State :=
  (s.cores.map (fun e => e.1)).foldl (fun s k =>
    if (s.quad (quadOf k)).owner = some s.pn then
      let c := s.core k
      s.setCore k { c with freeNodes := Table.set c.freeNodes [] n [] }
    else s) s

/-- What MLCFG does with a descriptor that R449 allows (R454). -/
def mlcfgBody (d : BitVec 5) (t : Target) (n : Nat) (s : State) : Except Stop State :=
  let checked := fun (va : Word) (k : Nat) (r : State) =>
    match s.rangeBad va k with
    | some (e, v) => Except.error (accessTrap e v)
    | none => Except.ok r
  if t.width = 0 then
    if s.mlq.any (fun o => decide (o.part = s.pn) && decide (o.target = n)) then .error (.wait .other)
    else .ok (((s.setTarget n none).dropFree n).writeS d 0#64)
  else
    match (s.objs s.pn).target n with
    | none => do
      let r ← checked t.head (headSpan t.width t.height) s
      let r ← checked t.pool (4096 * t.pages) r
      return (r.setTarget n (some { t with undrawn := List.range t.pages })).writeS d 0#64
    | some b =>
      if b.width = t.width ∧ b.height = t.height ∧ b.k = t.k ∧ b.merge = t.merge ∧ b.head = t.head ∧ b.pool = t.pool then
        if t.pages < b.pages then .ok (s.writeS d (0#64 - 3#64))
        else do
          let more := t.pages - b.pages
          let r ← checked (t.pool + w64 (4096 * b.pages)) (4096 * more) s
          return (r.setTarget n (some { b with pages := t.pages, undrawn := b.undrawn ++ rangeFrom b.pages more })).writeS
            d 0#64
      else .ok (s.writeS d (0#64 - 2#64))

/-- MLCFG, which ends as a full fence and a PFENCE of the layer path (R454). -/
def execMlcfg (d a : BitVec 5) (s : State) : Out :=
  aside false complete (fun s => do
    let bs ← s.loadBlock 64 (s.readS a) 64
    s.fenced
    if s.mlq.any (fun o => decide (o.thread = s.cur.id)) then .error (.wait .other) else .ok ()
    let r ← match targetParse bs with
      | none => .ok (s.writeS d minusOne)
      | some (t, n) => if t.inside s.cp then mlcfgBody d t n s else .ok (s.writeS d minusOne)
    return r.onProg (fun p => { p with fences := fenced p.fences .layer r.cur.place.core 3 r.mem.logLen })) s

/-! ## Sending operations (R456, R457, R459) -/

/-- The steps of an element, and the state that has taken their nodes; none where the nodes run out. -/
abbrev Steps := State → Nat → Target → List Word → Option (List MlKind × State)

/-- The operations of an instruction's elements in ascending order, sent as one; none where the nodes run out (R453). -/
def sendAll (b : Nat) (coarse : Bool) (foot : Nat → Nat) (steps : Nat → Nat → Steps)
    (ev : Nat → Instr) : List Nat → State → Option State
  | [], s => some s
  | i :: r, s =>
    let h := s.rayBits b i 0
    let n := bitsAt h 30 2
    match (s.objs s.pn).target n with
    | none => sendAll b coarse foot steps ev r s
    | some t =>
      match t.pixels coarse (bitsAt h 0 28) (foot i) with
      | [] => sendAll b coarse foot steps ev r s
      | px =>
        match steps h i s n t px with
        | none => none
        | some (ks, s1) =>
          let id := 8192 * s.fresh + i
          let op : MlOp := ⟨id, s.pn, n, s.cur.place.core, s.cur.id, s.cur.prog.fences, ks⟩
          sendAll b coarse foot steps ev r ({ s1 with mlq := s1.mlq ++ [op] }.push (ev id))

/-- The mould of the ML words (R456, R457). reads: the registers read, writes: those written. -/
def mlWord (reads writes : List Nat) (coarse : Bool) (foot : State → Nat → Nat) (steps : Nat → Nat → Steps)
    (ev : Nat → Instr) (b g : BitVec 5) (s : State) : Out :=
  aside false complete (fun s => do
    legal (decide (vtSew s.vt = 32) && decide (vtLmul s.vt = 1) && !meet writes [b.toNat])
    s.settled (pPiece g.toNat)
    let is := activeOf (s.cur.vr.preg g.toNat) s.cur.conf.vl
    (reads ++ [b.toNat]).forM (fun n => s.groupsSettled 32 n is)
    match sendAll b.toNat coarse (foot s) steps ev is s with
    | none => .error (trapOf cMlPool)
    | some s1 => return s1) s

/-- A fragment's RGBA from its RG and BA registers (R452, R456). -/
def State.rgbaOf (s : State) (a i k : Nat) : BitVec 64 :=
  BitVec.ofNat 64 (s.rayBits a i k + 2 ^ 32 * s.rayBits a i (k + 1))

/-- An insertion into each pixel, with a node taken for each. -/
def insertSteps (a i : Nat) (s : State) (n : Nat) : Target → List Word → Option (List MlKind × State)
  | _, [] => some ([], s)
  | t, p :: r =>
    match s.takeNode s.cur.place.core n (4 * i + r.length) with
    | none => none
    | some (node, s1) =>
      match insertSteps a i s1 n t r with
      | none => none
      | some (ks, s2) =>
        some (.insert p.toNat node (BitVec.ofNat 32 (s.rayBits a i 0)) (s.rgbaOf a i 1) :: ks, s2)

def execMlins (a b g : BitVec 5) (s : State) : Out :=
  mlWord (vGroup 3 a.toNat) [] false (fun _ _ => 0) (fun _ i s n t px => insertSteps a.toNat i s n t px)
    .mlInsertion b g s

def execMlins2 (a b g : BitVec 5) (s : State) : Out :=
  mlWord (vGroup 4 a.toNat) [] true (fun s i => s.rayBits a.toNat i 3)
    (fun _ i s n t px => insertSteps a.toNat i s n t px) .mlInsertion b g s

def execMlrslv (d a b g : BitVec 5) (s : State) : Out :=
  mlWord (vGroup 2 a.toNat) (vGroup 2 d.toNat) false (fun _ _ => 0)
    (fun h i s _ _ px =>
      some (px.map (fun p => .resolve p.toNat (bitAt h 29) i d.toNat (s.rgbaOf a.toNat i 0)),
        s.onCur (fun t => { t with viq := t.viq ++ [.reply (8192 * s.fresh + i) (vGroup 2 d.toNat)] })))
    .mlResolveApply b g s

def execMlclr (b g : BitVec 5) (s : State) : Out :=
  mlWord [] [] false (fun _ _ => 0) (fun _ _ s _ _ px => some (px.map (fun p => .clear p.toNat), s)) .mlClearApply b g s

/-! ## The multi-layer units (R458 to R462) -/

/-- A node in a list: its number and its fields. -/
structure MlNode where
  n : Nat
  depth : Nat
  rgba : Nat
  flags : Nat
  deriving DecidableEq, Repr

/-- A list at a pixel: MERGED, COUNT and the nodes, front to back. -/
structure MlList where
  merged : Bool
  count : Nat
  nodes : List MlNode
  deriving DecidableEq, Repr

/-- Why a unit's access is not performed: it is one that the unit may not make, at an address (R455), or an engine owns a line of
it (R23). -/
inductive MlStop where
  | fails (va : Word)
  | waits

/-- The bytes of a unit's access for an operation. One on a peer that no port reaches fails (R504; log 31). -/
def State.layerPlace (s : State) (o : MlOp) (k : Acc) (va : Word) (n : Nat) : Except MlStop (List Nat) :=
  match s.element (s.part o.part) k 4 va n with
  | .error _ => .error (.fails va)
  | .ok pas => if pas.any s.owned then .error .waits else if pas.any s.cutOff then .error (.fails va) else .ok pas

/-- n bytes on the layer path for an operation: as old as its thread's PFENCEs and the unit's own last write allow (R216,
R218, R462; log 7). -/
def State.layerRead (s : State) (o : MlOp) (va : Word) (n : Nat) : Except MlStop Nat :=
  match s.layerPlace o .read va n with
  | .error e => .error e
  | .ok pas =>
    if s.poisoned pas then .error (.fails va)
    else
      let t := max (mustSee o.fences .layer o.thread pas s.mem.log s.mem.logLen) (Table.get s.mlLog 0 (pas.headD 0))
      .ok (ofBytes (s.readOld (pas.headD 0) t pas))

/-- The nodes that NODE and NEXT link, 31 at most (R451, R452), each with its NEXT. -/
def State.chain (s : State) (o : MlOp) (t : Target) : Nat → Nat → Except MlStop (List (MlNode × Nat))
  | 0, _ => .ok []
  | k + 1, n =>
    if n = nullNode then .ok []
    else
      match s.layerRead o (t.nodeAt n) 16 with
      | .error e => .error e
      | .ok x =>
        let next := bitsAt x 96 24
        match s.chain o t k next with
        | .error e => .error e
        | .ok r => .ok ((⟨n, bitsAt x 0 32, bitsAt x 32 64, bitsAt x 120 8⟩, next) :: r)

/-- The list at a head entry, and its nodes with their links. -/
def State.listAt (s : State) (o : MlOp) (t : Target) (pix : Nat) : Except MlStop (MlList × List (MlNode × Nat)) :=
  match s.layerRead o (w64 pix) 4 with
  | .error e => .error e
  | .ok h =>
    match s.chain o t 31 (bitsAt h 0 24) with
    | .error e => .error e
    | .ok l => .ok (⟨bitAt h 29, bitsAt h 24 5, l.map (fun x => x.1)⟩, l)

/-- The nodes with their links, the last one ending the list. -/
def linked : List MlNode → List (MlNode × Nat)
  | [] => []
  | [x] => [(x, nullNode)]
  | x :: y :: r => (x, y.n) :: linked (y :: r)

/-- The home of a pixel: the sheet of its head entry, whose unit applies every operation on it (R450). -/
def State.pixelHome (s : State) (o : MlOp) (pix : Nat) : Nat :=
  match s.element (s.part o.part) .write 4 (w64 pix) 4 with
  | .ok pas => homeOf (pas.headD 0)
  | .error _ => 0

/-- One write of the multi-layer unit of a sheet (R27). -/
def State.layerWrite (s : State) (o : MlOp) (home : Nat) (va : Word) (n v : Nat) : Except MlStop State :=
  match s.layerPlace o .write va n with
  | .error e => .error e
  | .ok pas =>
    let s1 := s.putBy (.sheet home) pas (bytesOf n v)
    .ok { s1 with mlLog := Table.set s1.mlLog 0 (pas.headD 0) s1.mem.logLen }

/-- A list written back: its head, and the nodes that differ from those before (R458). -/
def State.putList (s : State) (o : MlOp) (t : Target) (pix : Nat) (old : List (MlNode × Nat)) (l : MlList) :
    Except MlStop State :=
  let home := s.pixelHome o pix
  let front := match l.nodes with
    | [] => nullNode
    | x :: _ => x.n
  let changed := (linked l.nodes).filter (fun x => !old.contains x)
  let nodes := changed.foldl (fun (r : Except MlStop State) x =>
    match r with
    | .error e => .error e
    | .ok s =>
      s.layerWrite o home (t.nodeAt x.1.n) 16
        (x.1.depth + 2 ^ 32 * x.1.rgba + 2 ^ 96 * x.2 + 2 ^ 120 * bitsAt x.1.flags 0 1)) (.ok s)
  match nodes with
  | .error e => .error e
  | .ok s1 => s1.layerWrite o home (w64 pix) 4 (front + 2 ^ 24 * bitsAt l.count 0 5 + 2 ^ 29 * b2n l.merged)

/-- Places that the new node passes: up to the last node whose depth is no greater (R458). -/
def insertPlace (z : FV) (l : List MlNode) : Nat :=
  (l.zipIdx).foldl (fun k x => if xle (fp32.value x.1.depth) z then x.2 + 1 else k) 0

/-- The gap of an adjacent pair; the gap of two equal infinities is open (log 13). -/
def gapOf (s : State) (k : Nat) (f b : MlNode) : FV :=
  let g := xsub (fp32.value b.depth) (fp32.value f.depth)
  if g.isNan then
    if Config.choice s.fresh (2 ^ 57 + 3 * k) % 2 = 0 then .inf false
    else .fin false (Config.choice s.fresh (2 ^ 57 + 3 * k + 1)) (Config.choice s.fresh (2 ^ 57 + 3 * k + 2) + 1) 0
  else g

/-- The front of the adjacent pair with the least gap, the frontmost of equal ones. -/
def leastPair (s : State) : Nat → List MlNode → Option (Nat × FV)
  | k, f :: b :: r =>
    let g := gapOf s k f b
    match leastPair s (k + 1) (b :: r) with
    | some (j, x) => if FV.lt x g then some (j, x) else some (k, g)
    | none => some (k, g)
  | _, _ => none

/-- FP16 component x of an RGBA. -/
def rgbaAt (v x : Nat) : FV := fp16.value (bitsAt v (16 * x) 16)

/-- An RGBA from its components. -/
def mkRgba (f : Nat → Nat) : Nat := f 0 + 2 ^ 16 * f 1 + 2 ^ 32 * f 2 + 2 ^ 48 * f 3

/-- 1 − x, exact. -/
def oneLess (x : FV) : FV := (sumTerms 0 [FV.one, x.negate]).val

/-- merge(f, b) (R458). -/
def mergeNodes (kind : Nat) (f b : MlNode) : MlNode :=
  let rnd := fun (l : List FV) => (roundOnce fp16 0 false (sumTerms 0 l).val).val
  let c := match kind with
    | 0 => mkRgba (fun x => rnd [rgbaAt f.rgba x, xmul (oneLess (rgbaAt f.rgba 3)) (rgbaAt b.rgba x)])
    | 1 => f.rgba
    | _ => mkRgba (fun x => rnd [rgbaAt f.rgba x, rgbaAt b.rgba x])
  ⟨f.n, f.depth, c, f.flags ||| 1⟩

/-- A list over its bound merges its closest pair: the list and the node freed. -/
def overflowList (s : State) (t : Target) (l : MlList) : MlList × List Nat :=
  if l.count ≤ t.k then (l, [])
  else
    match leastPair s 0 l.nodes with
    | none => ({ l with count := t.k, merged := true }, [])
    | some (k, _) =>
      match l.nodes.drop k with
      | f :: b :: r => (⟨true, t.k, l.nodes.take k ++ mergeNodes t.merge f b :: r⟩, [b.n])
      | _ => (l, [])

/-- An insertion at a pixel (R458). -/
def State.unitInsert (s : State) (o : MlOp) (t : Target) (pix node : Nat) (z : BitVec 32) (c : BitVec 64) :
    Except MlStop State :=
  let zv := fp32.value z.toNat
  if zv.isNan then .ok (s.freeNodes o.core o.target [node])
  else
    match s.listAt o t pix with
    | .error e => .error e
    | .ok (l, old) =>
      let k := insertPlace zv l.nodes
      let l1 : MlList := ⟨l.merged, l.count + 1, l.nodes.take k ++ ⟨node, z.toNat, c.toNat, 0⟩ :: l.nodes.drop k⟩
      let r := overflowList s t l1
      match s.putList o t pix old r.1 with
      | .error e => .error e
      | .ok s1 => .ok (s1.freeNodes o.core o.target r.2)

/-- The composite of a list over a background (R460). -/
def composite (l : List MlNode) (bg : Nat) : Nat :=
  let a := l.foldl (fun (a : Nat → FV) n => fun x =>
    (sumTerms 0 [a x, xmul (oneLess (a 3)) (rgbaAt n.rgba x)]).val) (fun _ => FV.zero false)
  mkRgba (fun x => (roundOnce fp16 0 false
    (if l.isEmpty then rgbaAt bg x else (sumTerms 0 [a x, xmul (oneLess (a 3)) (rgbaAt bg x)]).val)).val)

/-- The empty list. -/
def MlList.empty : MlList := ⟨false, 0, []⟩

/-- The entry that waits for a reply becomes the write of its registers, or is dropped (R457). -/
def State.answer (s : State) (o : MlOp) (ws : List RegWrite) : State :=
  s.onThread o.thread (fun t =>
    { t with viq := t.viq.map (fun e =>
        match e with
        | .reply id _ => if id = o.id then .write ws else e
        | e => e) })

/-- One step of an operation. -/
def State.unitStep (s : State) (o : MlOp) (t : Target) (k : MlKind) : Except MlStop State :=
  match k with
  | .insert pix node z c => s.unitInsert o t pix node z c
  | .resolve pix free i d bg =>
    match s.listAt o t pix with
    | .error e => .error e
    | .ok (l, old) =>
      let v := composite l.nodes bg.toNat
      let grant := match s.findThread o.thread with
        | some h => h.conf.grant
        | none => 1
      let s1 := s.answer o (gatherV [((groupLoc grant 32 d i).1, elemPos 32 i, 32, bitsAt v 0 32),
        ((d + 1) % 32, elemPos 32 i, 32, bitsAt v 32 32)])
      if free then
        match s1.putList o t pix old MlList.empty with
        | .error e => .error e
        | .ok s2 => .ok (s2.freeNodes o.core o.target (l.nodes.map (fun n => n.n)))
      else .ok s1
  | .clear pix =>
    match s.listAt o t pix with
    | .error e => .error e
    | .ok (l, old) =>
      match s.putList o t pix old MlList.empty with
      | .error e => .error e
      | .ok s1 => .ok (s1.freeNodes o.core o.target (l.nodes.map (fun n => n.n)))

/-- The head entry that a step works at. -/
def MlKind.pix (k : MlKind) : Nat :=
  match k with
  | .insert p _ _ _ => p
  | .resolve p _ _ _ _ => p
  | .clear p => p

/-- The pixels of an operation. -/
def MlOp.pixels (o : MlOp) : List Nat := o.steps.map MlKind.pix

/-- May operation id be applied: does no earlier one share a pixel with it (R462)? -/
def mlReady : List MlOp → List (Nat × Nat) → Nat → Bool
  | [], _, _ => false
  | o :: r, seen, id =>
    let mine := o.pixels.map (fun p => (o.part, p))
    if o.id = id then !mine.any (fun x => seen.contains x) else mlReady r (seen ++ mine) id

/-- A unit meets a head or node that it may not use: the element is dropped and the issuing thread's partition gets a
MACHINE_CHECK, whose record in the log names the address and the target (R455): the target in SYND and the issuing core in UNIT, by
the model's choice (log 10). -/
def State.mlCheck (s : State) (o : MlOp) (addr : Word) : State :=
  (s.answer o []).asyncTrap o.thread addr o.core (BitVec.ofNat 32 o.target)

/-- An operation that has left its queue, with what its steps come to on its target; none where the target is configured no more. -/
def State.unitRun (s : State) (o : MlOp) : Option (Except MlStop State) :=
  ((s.objs o.part).target o.target).map (fun t => o.steps.foldl (fun (r : Except MlStop State) k =>
    match r with
    | .error e => .error e
    | .ok s => s.unitStep o t k) (.ok s))

/-- A unit applies operation id, or leaves it and its event ev to wait for an engine that owns a line of it (R23). -/
def unitApply (ev : Nat → Instr) (id : Nat) (s : State) : Out :=
  if !mlReady s.mlq [] id then .next s
  else
    match s.mlq.find? (fun o => o.id == id) with
    | none => .next s
    | some o =>
      let s1 := { s with mlq := s.mlq.filter (fun x => x.id != id) }
      match s1.unitRun o with
      | none => .next (s1.answer o [])
      | some (.ok s2) => .next s2
      | some (.error (.fails va)) => .next (s1.mlCheck o va)
      | some (.error .waits) => .next (s.push (ev id))

/-- Can operation id be applied now: does no earlier one share a pixel with it, and no engine own a line of it? -/
def State.mlDue (s : State) (id : Nat) : Bool :=
  s.mlq.all (fun o => o.id != id) ||
    (mlReady s.mlq [] id &&
      (s.mlq.find? (fun o => o.id == id)).all (fun o =>
        match { s with mlq := s.mlq.filter (fun x => x.id != id) }.unitRun o with
        | some (.error .waits) => false
        | _ => true))

def execMlInsertion (id : Nat) (s : State) : Out := unitApply .mlInsertion id s
def execMlResolveApply (id : Nat) (s : State) : Out := unitApply .mlResolveApply id s
def execMlClearApply (id : Nat) (s : State) : Out := unitApply .mlClearApply id s

end

end Sys2Proof.Machine
end

