-- ==== Sys2Proof/Machine/Hash.lean ====
section
/-!
DEFINITION. Hash tables (08 R263 to R290): HCTL and HOP, with the spill log and the drain.
-/
namespace Sys2Proof.Machine

noncomputable section

/-! ## Tables -/

/-- Table n of the current thread's claim group (R263). -/
def State.ownTable (s : State) (n : Nat) : Option HTable :=
  match (s.core s.cur.place.core).table n with
  | some t => if t.part = s.cur.id.part ∧ t.lid = s.cur.id.lid then some t else none
  | none => none

/-- Table n of the thread's core replaced. -/
def State.putTable (s : State) (n : Nat) (t : Option HTable) : State :=
  s.setCore s.cur.place.core ((s.core s.cur.place.core).setTable n t)

/-- Slots of a bucket (R270). -/
def slotsPer (layout : Nat) : Nat := if layout = 0 then 8 else if layout = 1 then 4 else 2

/-- Key and value widths in bits (R266). -/
def keyBits (layout : Nat) : Nat := if layout = 0 then 32 else 64
/-- Value width. -/
def valBits (layout : Nat) : Nat := if layout = 0 then 32 else if layout = 1 then 64 else 128

/-- hash64 (R272). -/
def hash64 (key seed : Word) : Word := (key ^^^ seed) * 0x9E3779B97F4A7C15#64

/-- The home bucket of a key (R272). -/
def HTable.home (t : HTable) (key : Word) : Nat := (hash64 key t.seed).toNat / 2 ^ (64 - t.b)

/-- The slots of a key's window, in order (R272), as 8·bucket + slot. -/
def HTable.window (t : HTable) (key : Word) : List Nat :=
  (List.range 3).flatMap (fun k =>
    (List.range (slotsPer t.layout)).map (fun j => 8 * ((t.home key + k) % 2 ^ t.b) + j))

/-- Slot k of a slot table. -/
def slotAt (m : Table HSlot) (k : Nat) : HSlot := Table.get m .empty k

/-- A slot written. -/
def setSlot (m : Table HSlot) (k : Nat) (v : HSlot) : Table HSlot := Table.set m .empty k v

/-- The slot of a window that holds a key. -/
def findKey (m : Table HSlot) (w : List Nat) (key : Word) : Option Nat :=
  w.find? (fun k =>
    match slotAt m k with
    | .live x _ => x == key
    | _ => false)

/-- The insertion slot of a window (R272). -/
def insertSlot (m : Table HSlot) (w : List Nat) : Option Nat :=
  w.find? (fun k =>
    match slotAt m k with
    | .live _ _ => false
    | _ => true)

/-- The value in a slot. -/
def slotVal (m : Table HSlot) (k : Nat) : BitVec 128 :=
  match slotAt m k with
  | .live _ v => v
  | _ => 0

/-! ## Records (R280) -/

/-- The 32 bytes of a record. -/
def recordBytes (key : Word) (val : BitVec 128) (kind table : Nat) : List Byte :=
  bytesOf 8 key.toNat ++ bytesOf 16 val.toNat ++ bytesOf 1 kind ++ bytesOf 1 table ++ bytesOf 6 0

/-! ## HOP (R273 to R281) -/

/-- What a HOP does with a key: its record kind in the spill log, and whether it inserts, probes, deletes or combines. -/
inductive HKind where
  | ins
  | prb
  | del
  | comb (kind : Nat) (f : BitVec 128 → BitVec 128 → Fl Nat)
  | upd

/-- A HOP while it is applied: the slots, the records, the predicate bits, the values that HPRB writes, flags, and
whether a record found the log full. -/
structure HRun where
  slots : Table HSlot
  recs : List (List Byte)
  bits : List (Nat × Bool)
  vals : List (Nat × BitVec 128)
  fl : Nat
  full : Bool

/-- The predicate bits of E where only its least element succeeds. -/
def firstOnly (es : List Nat) : List (Nat × Bool) := es.zipIdx.map (fun e => (e.1, e.2 == 0))
/-- One bit for all of E. -/
def allBits (b : Bool) (es : List Nat) : List (Nat × Bool) := es.map (fun e => (e, b))

/-- A key whose window is full appends a record where the log has room (R276, R281). The flags of the fold of its duplicates
count in either case (R276; log 18). -/
def HRun.spill (r : HRun) (room : Nat) (rec : List Byte) (bits none_ : List (Nat × Bool)) (fl : Nat) : HRun :=
  if r.recs.length < room then { r with recs := r.recs ++ [rec], bits := r.bits ++ bits, fl := r.fl ||| fl }
  else { r with bits := r.bits ++ none_, fl := r.fl ||| fl, full := true }

/-- One key of a HOP: key k, its elements E in ascending order, the values of the elements, and the records that still
fit (R276). -/
def HRun.key (r : HRun) (t : HTable) (n : Nat) (k : HKind) (val : Nat → BitVec 128) (room : Nat) (key : Word)
    (es : List Nat) : HRun :=
  let w := t.window key
  let found := findKey r.slots w key
  let free := insertSlot r.slots w
  let no := allBits false es
  let put := fun (v : BitVec 128) (bits : List (Nat × Bool)) (kind fl : Nat) =>
    match free with
    | some j => { r with slots := setSlot r.slots j (.live key v), bits := r.bits ++ bits, fl := r.fl ||| fl }
    | none => r.spill room (recordBytes key v kind n) bits no fl
  let v0 := val (es.headD 0)
  match k with
  | .ins =>
    match found with
    | some _ => { r with bits := r.bits ++ no }
    | none => put v0 (firstOnly es) 1 0
  | .prb =>
    match found with
    | some j =>
      let v := slotVal r.slots j
      { r with bits := r.bits ++ allBits true es, vals := r.vals ++ es.map (fun i => (i, v)) }
    | none => { r with bits := r.bits ++ no }
  | .del =>
    match found with
    | some j => { r with slots := setSlot r.slots j .tombstone, bits := r.bits ++ firstOnly es }
    | none =>
      match free with
      | some _ => { r with bits := r.bits ++ no }
      | none => r.spill room (recordBytes key 0 2 n) (firstOnly es) no 0
  | .comb kind f =>
    let x := es.tail.foldl (fun (a : BitVec 128 × Nat) i =>
      let y := f a.1 (val i)
      (BitVec.ofNat 128 y.val, a.2 ||| y.fl)) (v0, 0)
    match found with
    | some j =>
      let y := f (slotVal r.slots j) x.1
      { r with slots := setSlot r.slots j (.live key (BitVec.ofNat 128 y.val)), bits := r.bits ++ allBits true es
               fl := r.fl ||| x.2 ||| y.fl }
    | none => put x.1 (allBits true es) kind x.2
  | .upd =>
    let v := val (es.getLastD 0)
    match found with
    | some j => { r with slots := setSlot r.slots j (.live key v), bits := r.bits ++ allBits true es }
    | none => put v (allBits true es) 6 0

/-- The distinct keys in the order of their lowest elements, each with its elements (R276). -/
def keysOf (key : Nat → Word) (is : List Nat) : List (Word × List Nat) :=
  ((is.map key).eraseDups).map (fun k => (k, is.filter (fun i => key i == k)))

/-- Value i of a group under a layout (R273). -/
def hopValue (s : State) (layout base : Nat) (i : Nat) : BitVec 128 :=
  let w := vtSew s.vt
  let lo := s.cur.vr.elem s.cur.conf.grant w base i
  let hi := if layout = 2 then s.cur.vr.elem s.cur.conf.grant w ((base + vtLmul s.vt) % 32) i else 0
  BitVec.ofNat 128 (lo + 2 ^ 64 * hi)

/-- The registers of a value group under a layout (R273). -/
def hopGroup (s : State) (layout base : Nat) : List Nat :=
  let l := vtLmul s.vt
  vGroup l base ++ (if layout = 2 then vGroup l ((base + l) % 32) else [])

/-- The places of n records from base, each checked as one 32-byte access (R281, R286). -/
def State.recordPlaces (s : State) (k : Acc) (base : Word) (n : Nat) : Except Stop (List Nat) :=
  s.place k 32 base (32 * n)

/-- A HOP on table n. probe: HPRB, whose destination is d. It is an access of no stream (R250, R279); its records are AG0
writes, performed when it retires (R282). -/
def hop (k : HTable → HKind) (arith probe usesB : Bool) (d a b g : BitVec 5) (n : BitVec 2) (s : State) : Out :=
  aside false complete (fun s =>
    match s.ownTable n.toNat with
    | none => .error (trapOf cIllegal)
    | some t => do
      legal (decide (vtSew s.vt = keyBits t.layout))
      legal (!arith || decide (t.vfmt ≠ 2))
      let keys := s.dataGroup a
      let dst := if probe then hopGroup s t.layout d.toNat else []
      legal (!meet dst keys)
      s.settled (pPiece g.toNat)
      let w := vtSew s.vt
      let is := activeOf (s.cur.vr.preg g.toNat) s.cur.conf.vl
      s.groupsSettled w a.toNat is
      if usesB then s.groupsSettled w b.toNat is else .ok ()
      if usesB && t.layout == 2 then s.groupsSettled w ((b.toNat + vtLmul s.vt) % 32) is else .ok ()
      let ks := keysOf (fun i => w64 (s.cur.vr.elem s.cur.conf.grant w a.toNat i)) is
      let run := fun (room : Nat) => ks.foldl
        (fun (r : HRun) e => r.key t n.toNat (k t) (hopValue s t.layout b.toNat) room e.1 e.2)
        ⟨t.slots, [], [], [], 0, false⟩
      let all := run (2 ^ 64)
      let room := t.scap - t.scnt
      if t.action = 1 && decide (room < all.recs.length) then
        .error (.after { cause := cHashFull } (s.putTable n.toNat (some { t with sfull := true })))
      else do
        let r := run room
        let pas ← if r.recs.isEmpty then .ok []
          else s.recordPlaces .write (t.sbase + w64 (32 * t.scnt)) r.recs.length
        let s1 := (s.putBytes pas r.recs.flatten).putTable n.toNat (some { t with
          slots := r.slots
          scnt := t.scnt + r.recs.length
          spilled := t.spilled || decide (0 < r.recs.length)
          sfull := t.sfull || r.full })
        let lo := groupWrites s.cur.conf.grant w d.toNat (r.vals.map (fun e => (e.1, bitsAt e.2.toNat 0 w)))
        let hi := if t.layout = 2 then
            groupWrites s.cur.conf.grant w ((d.toNat + vtLmul s.vt) % 32)
              (r.vals.map (fun e => (e.1, bitsAt e.2.toNat 64 64)))
          else []
        return (s1.writeRegs (predWrite g.toNat r.bits ++ lo ++ hi)).raise r.fl) s

/-- The FP format of a table's values. -/
def hopFmt (t : HTable) : Fmt := if t.layout = 0 then fp32 else fp64

/-- comb of HACC. -/
def combAdd (t : HTable) (x y : BitVec 128) : Fl Nat :=
  let w := valBits t.layout
  if t.vfmt = 0 then ⟨(x.toNat + y.toNat) % 2 ^ w, 0⟩
  else
    let f := hopFmt t
    roundFl f 0 (sumTerms 0 [f.value x.toNat, f.value y.toNat])

/-- comb of HAMIN and HAMAX. -/
def combCmp (isMax : Bool) (t : HTable) (x y : BitVec 128) : Fl Nat :=
  let w := valBits t.layout
  if t.vfmt = 0 then
    let yLess := decide (sgnN w y.toNat < sgnN w x.toNat)
    ⟨if yLess == isMax then x.toNat else y.toNat, 0⟩
  else fminmax (hopFmt t) isMax x.toNat y.toNat

def execHins (a b g : BitVec 5) (t : BitVec 2) (s : State) : Out := hop (fun _ => .ins) false false true 0 a b g t s
def execHprb (d a g : BitVec 5) (t : BitVec 2) (s : State) : Out := hop (fun _ => .prb) false true false d a 0 g t s
def execHdel (a g : BitVec 5) (t : BitVec 2) (s : State) : Out := hop (fun _ => .del) false false false 0 a 0 g t s
def execHacc (a b g : BitVec 5) (t : BitVec 2) (s : State) : Out :=
  hop (fun x => .comb 3 (combAdd x)) true false true 0 a b g t s
def execHamin (a b g : BitVec 5) (t : BitVec 2) (s : State) : Out :=
  hop (fun x => .comb 4 (combCmp false x)) true false true 0 a b g t s
def execHamax (a b g : BitVec 5) (t : BitVec 2) (s : State) : Out :=
  hop (fun x => .comb 5 (combCmp true x)) true false true 0 a b g t s
def execHupd (a b g : BitVec 5) (t : BitVec 2) (s : State) : Out := hop (fun _ => .upd) false false true 0 a b g t s

/-! ## HCLAIM, HFREE, HSTAT (R266 to R269, R283, R284) -/

/-- The scratchpad without the bytes at offset u and above of each slice. -/
def cutSpad (u : Nat) (m : Table Byte) : Table Byte := m.filter (fun e => decide (e.1 % 131072 < u))

/-- Is a claim descriptor valid (R266)? -/
def claimValid (bs : List Byte) : Bool :=
  let f := field bs
  let b := f 0 1
  let tn := f 4 1
  decide (2 ≤ b) && decide (b ≤ 13) && decide (f 1 1 ≤ 2) && decide (f 2 1 ≤ 2) &&
    (decide (f 1 1 ≠ 2) || decide (f 2 1 = 2)) && decide (f 3 1 ≤ 1) && (decide (tn ≤ 3) || decide (tn = 255)) &&
    decide (f 5 3 = 0) && decide (f 28 4 = 0) && decide (f 16 8 % 32 = 0) && decide (f 16 8 < 2 ^ 52) &&
    decide (f 24 4 ≤ 16777215)

/-- HASHKB of the thread's kernel (R65). -/
def State.hashKb (s : State) : Nat := ((s.legendOf s.cur.id).map (fun l => l.hashkb)).getD 0

def execHclaim (d a : BitVec 5) (s : State) : Out :=
  aside false complete (fun s => do
    let bs ← s.loadBlock 32 (s.readS a) 32
    if !claimValid bs then return s.writeS d minusOne
    else
      let core := s.core s.cur.place.core
      let tn := field bs 4 1
      let free := fun (n : Nat) => (core.table n).isNone
      let n := if tn = 255 then (List.range 4).find? free else if free tn then some tn else none
      let c := chargeOf (field bs 0 1)
      let mine := core.charges (fun t => decide (t.part = s.cur.id.part) && decide (t.lid = s.cur.id.lid))
      match n with
      | none => return s.writeS d minusOne
      | some n =>
        if decide (524288 < core.charges (fun _ => true) + c) || decide (1024 * s.hashKb < mine + c) then
          return s.writeS d minusOne
        else
          let t : HTable := ⟨s.cur.id.part, s.cur.id.lid, field bs 0 1, field bs 1 1, field bs 2 1, field bs 3 1,
            w64 (field bs 8 8), w64 (field bs 16 8), field bs 24 4, [], 0, false, false⟩
          let core1 := core.setTable n (some t)
          return (s.setCore s.cur.place.core { core1 with spad := cutSpad core1.spadSize core1.spad }).writeS d (w64 n)) s

def execHfree (b : BitVec 5) (s : State) : Out :=
  aside false complete (fun s =>
    match s.ownTable b.toNat with
    | none => .error (trapOf cIllegal)
    | some _ => .ok ((s.putTable b.toNat none).redispatch s.pn)) s

/-- Live slots of a table. -/
def HTable.live (t : HTable) : List (Nat × Word × BitVec 128) :=
  t.slots.filterMap (fun e =>
    match e.2 with
    | .live k v => some (e.1 / 8, k, v)
    | _ => none)

/-- The status word of a table (R283). -/
def HTable.word (t : HTable) : Word :=
  w64 (1 + 2 * b2n t.spilled + 4 * b2n t.sfull + 8 * t.action + 16 * t.vfmt + 64 * t.layout + 65536 * t.b +
    2 ^ 20 * t.live.length + 2 ^ 40 * t.scnt)

/-- HSTAT of a table that the claim group does not hold, as of one that it has freed, gives 0 (R283), although R284 has an
HCTL operation on a freed table raise ILLEGAL (log 18). -/
def execHstat (d b : BitVec 5) (s : State) : Out :=
  aside false complete (fun s =>
    .ok (s.writeS d (match s.ownTable b.toNat with
      | some t => t.word
      | none => 0#64))) s

/-! ## HDRAIN (R285 to R289) -/

/-- Does entry x come before entry y, by bucket and then key? -/
def entryLe (x y : Nat × Word × BitVec 128) : Bool :=
  decide (x.1 < y.1) || (x.1 == y.1 && decide (x.2.1.toNat ≤ y.2.1.toNat))

/-- A record to drain: an on-chip entry, or a spill record by its index. -/
inductive DrainRec where
  | entry (bucket : Nat) (key : Word) (val : BitVec 128)
  | spill (k : Nat)

/-- The records that a drain has left, in order. -/
def drainList (t : HTable) (phase cbkt : Nat) (ckey : Word) (spos : Nat) : List DrainRec :=
  let live := t.live.mergeSort entryLe
  let on := if phase = 0 then live
    else if phase = 1 then
      live.filter (fun e => decide (cbkt < e.1) || (e.1 == cbkt && decide (ckey.toNat < e.2.1.toNat)))
    else []
  on.map (fun e => .entry e.1 e.2.1 e.2.2) ++ (rangeFrom spos (t.scnt - spos)).map .spill

/-- The bytes of a drained record; a spill record is read from the log. -/
def State.drainBytes (s : State) (t : HTable) (n : Nat) : DrainRec → Except Stop (List Byte)
  | .entry _ k v => .ok (recordBytes k v 0 n)
  | .spill j => s.loadBlock 32 (t.sbase + w64 (32 * j)) 32

/-- The bytes of a list of drained records. -/
def State.drainAllBytes (s : State) (t : HTable) (n : Nat) : List DrainRec → Except Stop (List Byte)
  | [] => .ok []
  | r :: rest => do
    let x ← s.drainBytes t n r
    let xs ← s.drainAllBytes t n rest
    return x ++ xs

def execHdrain (d a b : BitVec 5) (s : State) : Out :=
  aside false complete (fun s =>
    match s.ownTable b.toNat with
    | none => .error (trapOf cIllegal)
    | some t => do
      let ea := s.readS a
      let bs ← s.loadBlock 32 ea 32
      let out := field bs 0 8
      let cap := field bs 8 4
      let st := field bs 12 4
      let phase := bitsAt st 30 2
      let clr := bitAt st 29
      if decide (out % 32 ≠ 0) || decide (cap = 0) || decide (2048 < cap) || decide (bitsAt st 13 16 ≠ 0) then
        return s.writeS d minusOne
      else if phase = 3 then return s.writeS d 0#64
      else
        let l := drainList t phase (bitsAt st 0 13) (w64 (field bs 16 8)) (field bs 24 8)
        let k := min cap l.length
        let pas ← s.recordPlaces .write (w64 out) k
        let data ← s.drainAllBytes t b.toNat (l.take k)
        let dpas ← s.place .write 32 ea 32
        let done := decide (k = l.length)
        let ph := if done then 3
          else match (l.take k).getLast? with
            | some (.spill _) => 2
            | _ => 1
        let cur := match (l.take k).getLast? with
          | some (.entry bk key _) => if done then (0, 0) else (bk, key.toNat)
          | _ => if done then (0, 0) else (bitsAt st 0 13, field bs 16 8)
        let spos := if done then t.scnt
          else match (l.take k).getLast? with
            | some (.spill j) => j + 1
            | _ => field bs 24 8
        let desc := bytesOf 8 (out + 32 * k) ++ bytesOf 4 cap ++
          bytesOf 4 (cur.1 + 2 ^ 29 * b2n clr + 2 ^ 30 * ph) ++ bytesOf 8 cur.2 ++ bytesOf 8 spos
        let s1 := (s.putBytes pas data).putBytes dpas desc
        let s2 := if done && clr then
            s1.putTable b.toNat (some { t with slots := [], scnt := 0, spilled := false, sfull := false })
          else s1
        return s2.writeS d (w64 k)) s

end

end Sys2Proof.Machine
end

