-- ==== Sys2Proof/Machine/Vcfg.lean ====
section
/-!
DEFINITION. VCFG and SETTYPEI (05 R141 to R154): the lane allocation of a core, SETVL with the re-evaluation of its
waiters, SETTYPE and SETTYPEI.
-/
namespace Sys2Proof.Machine

/-! ## Shares (R143) -/

/-- Physical lane groups held (R141). -/
def Lat.held (l : Lat) : Nat := ((List.range 8).filter (fun k => l.map.getLsbD k)).length

/-- The slots that take part in the share of slot t. -/
def Core.sharers (c : Core) (t : Nat) : List Nat :=
  (List.range 4).filter (fun u =>
    let l := c.latOf u
    decide (0 < l.weight) && (decide (0 < l.held) || l.wait || u == t))

/-- The sum of a list. -/
def sumNat (l : List Nat) : Nat := l.foldl (fun a b => a + b) 0

/-- share_of (R143). -/
def Core.shareOf (c : Core) (t : Nat) : Nat :=
  let wt := fun (u : Nat) => (c.latOf u).weight
  if wt t = 0 then 0
  else
    let us := c.sharers t
    let w := sumNat (us.map wt)
    let q := fun u => c.ceil * wt u / w
    let r := fun u => c.ceil * wt u % w
    let extra := c.ceil - sumNat (us.map q)
    let before := (us.filter (fun u => decide (r t < r u) || (r u == r t && decide (u < t)))).length
    q t + b2n (decide (before < extra))

/-- The entitlement of slot t in physical lane groups (R143). -/
def Core.entitle (c : Core) (t : Nat) (pm : Bool) : Nat :=
  let x := c.shareOf t
  if pm then max (x / 2 * 2) 2 else max x 1

/-! ## Lane groups (R145, R146) -/

/-- Lane groups of a core that no slot holds. -/
def Core.freeGroups (c : Core) : List Nat :=
  (List.range 8).filter (fun g => !(List.range 4).any (fun u => (c.latOf u).map.getLsbD g))

/-- A map with the groups of a list set. -/
def mapOf (l : List Nat) : BitVec 8 := BitVec.ofNat 8 (sumNat (l.map (fun g => 2 ^ g)))

/-- The groups of a map, lowest first. -/
def groupsOf (m : BitVec 8) : List Nat := (List.range 8).filter (fun g => m.getLsbD g)

/-- The map of a thread that goes from the groups it holds to n groups, or to as many as are free (R146). -/
def Core.regroup (c : Core) (m : BitVec 8) (pm : Bool) (n : Nat) : BitVec 8 :=
  let own := groupsOf m
  if n ≤ own.length then mapOf (own.take n)
  else
    let free := c.freeGroups
    let more := n - own.length
    let take :=
      if pm then
        ((List.range 4).filter (fun j => free.contains (2 * j) && free.contains (2 * j + 1))).take (more / 2)
          |>.flatMap (fun j => [2 * j, 2 * j + 1])
      else free.take more
    mapOf (own ++ take)

/-- What an evaluation of R145 finds: the map, the new grant and vl, the share, or a wait. -/
structure Grant where
  map : BitVec 8
  grant : Nat
  vl : Nat
  share : Nat
  waits : Bool
  deriving DecidableEq, Repr

/-- The evaluation of R145 for slot t, with avl in sA and the request in sB. -/
def Core.evaluate (c : Core) (t : Nat) (vt : BitVec 32) (avl sb : Nat) : Grant :=
  let pm := vtPm vt
  let k := if pm then 2 else 1
  let l := c.latOf t
  let held := l.held
  let req := if sb = 0 then 8 else min sb 8
  let per := perGroup (vtSew vt) (vtLmul vt)
  let need := if avl = 0 then 0 else cdiv avl per
  let target := min req (min need (c.entitle t pm / k))
  let others := sumNat ((List.range 4).map (fun u => if u = t then 0 else (c.latOf u).held))
  let room := max (min (8 - others) (c.ceil - others)) (min k (8 - others))
  let n := if k * target ≤ held then k * target else max held (min (k * target) (k * (room / k)))
  let m := c.regroup l.map pm n
  let grant := (groupsOf m).length / k
  ⟨m, grant, min avl (grant * per), c.shareOf t, decide (grant = 0) && decide (1 ≤ target)⟩

/-! ## Re-evaluation and reclaim (R147, R151) -/

/-- The re-evaluation of a core's waiters comes next where a lane group is released; the records of its partition that
wait look for a place again. -/
def State.released (s : State) (core : Nat) : State :=
  let s1 := match (s.quad (quadOf core)).owner with
    | some pn => s.redispatch pn
    | none => s
  if (s1.core core).waiters.isEmpty || s1.inputs.contains (Instr.setvlReevaluation core) then s1
  else { s1 with inputs := .setvlReevaluation core :: s1.inputs }

/-- Is the reclaim interval of slot t counted (R151)? -/
def Core.reclaims (c : Core) (t : Nat) : Bool :=
  let l := c.latOf t
  let beyond := decide (c.entitle t l.pm < l.held)
  let held := sumNat ((List.range 4).map (fun u => (c.latOf u).held))
  let holders := ((List.range 4).filter (fun u => decide (0 < (c.latOf u).held))).length
  beyond && ((List.range 4).any (fun u => u != t && (c.latOf u).wait) || decide (max c.ceil holders < held))

/-- The reclaim intervals of a core's threads start where they are counted and stop where they are not. -/
def State.lanes (s : State) (core : Nat) : State :=
  let c := s.core core
  let here := s.onChip.filter (fun t => t.place.core == core)
  let keep := here.filter (fun t => c.reclaims t.place.slot)
  let mine := here.map (fun t => Instr.laneReclaim t.id)
  let want := keep.map (fun t => Instr.laneReclaim t.id)
  let kept := s.timers.filter (fun i => !mine.contains i || want.contains i)
  { s with timers := kept ++ want.filter (fun i => !kept.contains i) }

/-! ## Grant changes (R148) -/

/-- The thread after a grant change: every register of the vector files zero. -/
def Thread.regrant (t : Thread) (g : Nat) : Thread :=
  { t with
    vr := ⟨[], [], [], []⟩
    conf := { t.conf with grant := g, fmask := 0 }
    user := { t.user with vfirst := 0 } }

/-- The current thread's lane allocation table entry written. -/
def State.putLat (s : State) (f : Lat → Lat) : State :=
  let c := s.core s.cur.place.core
  s.setCore s.cur.place.core (c.setLat s.cur.place.slot (f (c.latOf s.cur.place.slot)))

/-- The current thread leaves the core's order of waiters. -/
def State.leaveWait (s : State) : State :=
  let c := s.core s.cur.place.core
  let s1 := s.setCore s.cur.place.core { c with waiters := c.waiters.filter (fun u => u != s.cur.place.slot) }
  s1.putLat (fun l => { l with wait := false })

/-- A SETVL completes with what its evaluation found; its reclaim interval restarts (R151). -/
def State.grantWith (s : State) (d : BitVec 5) (g : Grant) : State :=
  let core := s.cur.place.core
  let fell := decide (g.map.toNat ≠ ((s.core core).latOf s.cur.place.slot).map.toNat) &&
    decide ((groupsOf g.map).length < ((s.core core).latOf s.cur.place.slot).held)
  let s1 := (s.leaveWait).putLat (fun l =>
    { l with map := g.map, share := g.share, pm := vtPm s.cur.conf.vtype && decide (g.grant ≠ 0) })
  let s2 := if g.grant = s.cur.conf.grant then s1 else s1.onCur (fun t => t.regrant g.grant)
  let s3 := (s2.onConf (fun c => { c with vl := g.vl })).writeS d (w64 g.vl)
  let s4 := { s3 with timers := s3.timers.filter (fun i => i != Instr.laneReclaim s.cur.id) }
  (if fell then s4.released core else s4).lanes core

/-- The current thread waits in SETVL, in its place among the core's waiters (R147). -/
def State.waitLanes (s : State) (share : Nat) : State :=
  let core := s.cur.place.core
  let slot := s.cur.place.slot
  let c := s.core core
  let s1 := s.setCore core (if c.waiters.contains slot then c else { c with waiters := c.waiters ++ [slot] })
  (s1.putLat (fun l => { l with wait := true, share := share })).lanes core

/-- SETVL as the A-side executes it. One that first waits for earlier work has computed its share (R141, R148). A SETVL that finds waiters about to be re-evaluated comes after them; one that waits
in its place is completed by the re-evaluation alone. -/
def setvlBody (d a b : BitVec 5) (s : State) : Except Stop State :=
  let core := s.cur.place.core
  let c := s.core core
  if s.inputs.contains (Instr.setvlReevaluation core) || c.waiters.contains s.cur.place.slot then .error (.wait (.setvl d a b))
  else
    let g := c.evaluate s.cur.place.slot s.cur.conf.vtype (s.readS a).toNat (s.readS b).toNat
    if g.waits then .error (.waitIn (.setvl d a b) (s.waitLanes g.share))
    else if g.grant ≠ s.cur.conf.grant && !s.cur.viq.isEmpty then
      .error (.waitIn .other (s.putLat (fun l => { l with share := g.share })))
    else .ok (s.grantWith d g)

def execSetvl (d a b : BitVec 5) (s : State) : Out := aside true complete (setvlBody d a b) s

/-- The re-evaluation of one waiter, as the current thread: it takes its lane groups at once; where earlier work of its
E-side is left, the SETVL completes with them when it executes again (R148). -/
def State.reevaluate (s : State) (d a b : BitVec 5) : State :=
  let c := s.core s.cur.place.core
  let g := c.evaluate s.cur.place.slot s.cur.conf.vtype (s.readS a).toNat (s.readS b).toNat
  if g.waits then s.putLat (fun l => { l with share := g.share })
  else if s.cur.viq.isEmpty then complete (s.grantWith d g)
  else ((s.leaveWait).putLat (fun l => { l with map := g.map, share := g.share, pm := vtPm s.cur.conf.vtype })).waits .other

/-- The thread in a slot of a core. -/
def State.inSlot (s : State) (core slot : Nat) : Option ThreadId :=
  (s.onChip.find? (fun t => t.place.core == core && t.place.slot == slot)).map (fun t => t.id)

def execSetvlReevaluation (core : Nat) (s : State) : Out :=
  let s0 := { s with inputs := s.inputs.filter (fun i => i != Instr.setvlReevaluation core) }
  .next ((s0.core core).waiters.foldl (fun s slot =>
    match s.inSlot core slot with
    | none => s
    | some id => s.asThread id (fun s =>
        match s.cur.prog.wait with
        | .retry (.setvl d a b) => s.reevaluate d a b
        | _ => s)) s0)

/-! ## Waits that a trap or a pre-emption ends -/

/-- A thread's waits on a unit, for a grant or for a time limit end, since a trap comes first; its word executes again
after it (R141, R305, R480). -/
def State.cancelWaits (s : State) (id : ThreadId) : State :=
  let o := s.objs id.part
  let s1 := { s with timers := s.timers.filter (fun i => i != Instr.wfeTimeout id) }.setObjs id.part { o with
    waiters := o.waiters.filter (fun w => w.thread != id || w.kind == StKind.gate)
    resend := o.resend.filter (fun w => w.thread != id) }
  match s1.onChip.find? (fun t => t.id == id) with
  | some t =>
    let c := s1.core t.place.core
    let slot := t.place.slot
    (s1.setCore t.place.core { c.setLat slot { c.latOf slot with wait := false } with
      waiters := c.waiters.filter (fun k => k != slot) }).lanes t.place.core
  | none => s1

/-- The pending MACHINE_CHECK of the current thread is taken. -/
def State.takeCheck (s : State) (addr : Word) : State :=
  let s1 := (s.cancelWaits s.cur.id).onCur (fun t =>
    { t with framing := none, prog := { t.prog with check := none } })
  takeTrap s1 { cause := cMachine, addr := addr, logged := true,
                epc := some ((s.cur.framing.map (fun v => v.pc)).getD s.cur.pc) }

/-! ## SETTYPE and SETTYPEI (R153, R154) -/

/-- May vtype take the value (R51, R52)? -/
def vtypeGood (v : BitVec 32) : Bool :=
  decide (bitsAt v.toNat 22 10 = 0) && validPair (bitsAt v.toNat 3 4) (bitsAt v.toNat 0 3)

/-- vtype written, with vl cut to the new VLMAX. -/
def State.setType (s : State) (v : BitVec 32) : Except Stop State := do
  legal (vtypeGood v)
  let c := s.cur.conf
  legal (vtPm v == vtPm c.vtype || decide (c.grant = 0))
  return s.onConf (fun c => { c with vtype := v, vl := min c.vl (c.grant * perGroup (vtSew v) (vtLmul v)) })

def execSettype (d a : BitVec 5) (s : State) : Out :=
  aside true complete (fun s => do
    legal (decide (bitsAt (s.readS a).toNat 32 32 = 0))
    let s1 ← s.setType ((s.readS a).truncate 32)
    return s1.writeS d (w64 s1.cur.conf.vl)) s

def execSettypei (i : BitVec 20) (s : State) : Out :=
  aside true complete (fun s => s.setType (((s.cur.conf.vtype >>> 20) <<< 20) ||| i.setWidth 32)) s

end Sys2Proof.Machine
end

