-- ==== Sys2Proof/Machine/Engine.lean ====
section
/-!
DEFINITION. Engine commands (12 R360 to R386): CPY, ENGB and ECWAIT, the completion of every command, the token traps, and
the matrix engine's WBLD, ACSTM and ACLDM with ATTACH and DETACH (13 R387 to R391, R396 to R400, R407 to R413).
-/
namespace Sys2Proof.Machine

noncomputable section

/-! ## Bytes of a command -/

/-- The place of one byte at va, or its cause (R186, R496). -/
def State.byteAt (s : State) (k : Acc) (va : Word) : Except Nat Nat :=
  match s.element s.cp k 1 va 1 with
  | .error c => .error c
  | .ok pas => .ok (pas.headD 0)

/-- The bytes of a copy or, without a source, of a fill: from offset o, n at most, up to the first that faults, as
(destination, source) places; a fill pairs the destination with its address. A fault gives its cause and its address
(R366, R369). -/
def State.scan (s : State) (src : Option Word) (dst : Word) : Nat → Nat → List (Nat × Nat) × Option (Nat × Word)
  | 0, _ => ([], none)
  | n + 1, o =>
    let da := dst + w64 o
    match match src with
      | some x => (match s.byteAt .read (x + w64 o) with
        | .error c => Except.error (c, x + w64 o)
        | .ok p => Except.ok p)
      | none => Except.ok da.toNat with
    | .error e => ([], some e)
    | .ok sp =>
      match s.byteAt .write da with
      | .error c => ([], some (c, da))
      | .ok dp =>
        let rest := State.scan s src dst n (o + 1)
        ((dp, sp) :: rest.1, rest.2)

/-- Consecutive pairs joined into (first, second, length). -/
def joinRuns (l : List (Nat × Nat)) : List (Nat × Nat × Nat) :=
  l.foldr (fun e acc =>
    match acc with
    | (a, b, n) :: r => if e.1 + 1 = a ∧ e.2 + 1 = b then (e.1, e.2, n + 1) :: r else (e.1, e.2, 1) :: acc
    | [] => [(e.1, e.2, 1)]) []

/-- The gazetteer entries of a range in the window (R364). -/
def gzOf (p : Part) (va : Word) (n : Nat) : List Nat :=
  if n = 0 then []
  else (((subBlocks va n).filter (fun x => p.inWindow x.toNat)).map (fun x => p.gzIndex x.toNat)).eraseDups

/-- The absent sub-blocks of the bytes of two ranges, in order of first appearance (R188, R366). -/
def State.absentOf (s : State) (vas : List (Acc × Word)) : List Nat :=
  let one := fun (e : Acc × Word) => s.winCause s.cp e.1 e.2.toNat == some cResidency
  (((vas.filter one).map (fun e => subBlock e.2)).eraseDups).take 16

/-- The bytes of source and destination in offset order. -/
def bothRanges (src : Option Word) (dst : Word) (n : Nat) : List (Acc × Word) :=
  (List.range n).flatMap (fun o =>
    (match src with
      | some x => [(Acc.read, x + w64 o)]
      | none => []) ++ [(Acc.write, dst + w64 o)])

/-! ## Tokens (R375 to R377, R383, R384) -/

/-- The FIFOs that an ENG word pops and pushes, by its partner. -/
def engPop (p : BitVec 1) : Fifo := if p = 0#1 then .vxls else .mxls
/-- The FIFO that its completion pushes. -/
def engPush (p : BitVec 1) : Fifo := if p = 0#1 then .lsvx else .lsmx

/-- Present and reserved tokens of a FIFO that engine commands push. -/
def State.reserved (s : State) (f : Fifo) : Nat :=
  s.cur.tok.get f + (s.cmds.filter (fun c => decide (c.thread = s.cur.id) && decide (c.push = some f))).length

/-- The members of the convoys of the VIQ, none of which has retired: one that has executed may execute again (R46). -/
def Thread.unretired (t : Thread) : List Member :=
  t.viq.flatMap (fun e =>
    match e with
    | .convoy c => c.members
    | _ => [])

/-- Does a member of a convoy that has not retired push FIFO f (R383)? -/
def Thread.producer (t : Thread) (f : Fifo) : Bool :=
  t.unretired.any (fun m => (tokensOf m.instr).2.1 && decide ((tokensOf m.instr).2.2.2 = f))

/-- Does one pop FIFO f (R384)? -/
def Thread.consumer (t : Thread) (f : Fifo) : Bool :=
  t.unretired.any (fun m => (tokensOf m.instr).1 && decide ((tokensOf m.instr).2.2.1 = f))

/-- The trap of ENGINE_FAULT with a syndrome (R379). -/
def engTrap (n : Nat) : Trap := { cause := cEngine, synd := n }

/-- The token checks of R383 and R384. -/
def State.tokenCheck (s : State) (w st p : BitVec 1) : Except Stop Unit :=
  if w = 1#1 && decide (s.cur.tok.get (engPop p) = 0) && !s.cur.producer (engPop p) then .error (.trap (engTrap 2))
  else if st = 1#1 && decide (16 ≤ s.reserved (engPush p)) && !s.cur.consumer (engPush p) then
    .error (.trap (engTrap 3))
  else .ok ()

/-- Room for n commands (R360): 64 of the thread, 128 of the core's copy engine. -/
def State.room (s : State) (copy : Bool) (n : Nat) : Bool :=
  decide ((s.cmds.filter (fun c => decide (c.thread = s.cur.id))).length + n ≤ 64) &&
    (!copy || decide ((s.cmds.filter (fun c => c.copyEngine && decide (c.core = s.cur.place.core))).length + n ≤ 128))

/-- The waits before issue (R360, R376). -/
def State.engReady (s : State) (copy : Bool) (n : Nat) (w st p : BitVec 1) : Except Stop Unit :=
  if !s.room copy n then .error (.wait .other)
  else if w = 1#1 && decide (s.cur.tok.get (engPop p) = 0) then .error (.wait .tokenPop)
  else if st = 1#1 && decide (16 ≤ s.reserved (engPush p)) then .error (.wait .tokenPush)
  else .ok ()

/-! ## Issue (R361, R366) -/

/-- The tag after t. -/
def tagAfter (t : Nat) : Nat := if t = 65535 then 1 else t + 1

/-- SCOPE and ORDERED of an ENG word's sD (R365). -/
def engScope (x : Nat) : Nat := bitsAt x 32 3
/-- ORDERED. -/
def engOrdered (x : Nat) : Bool := bitAt x 35

/-- A command leaves the engine: its token is pushed, its thread's events and its error for ECWAIT are recorded (R371,
R375, R480). -/
def State.finishCmd (s : State) (c : Cmd) (bad : Bool) : State :=
  s.onThread c.thread (fun t =>
    { t with
      tok := match c.push with
        | some f => t.tok.put f (t.tok.get f + 1)
        | none => t.tok
      prog := { t.prog with
        events := t.prog.events ||| 1#4
        errors := if bad then t.prog.errors ++ [c.tag] else t.prog.errors } })

/-- The number of the next command: no two commands share one. -/
def State.cmdId (s : State) : Nat := 64 * s.fresh + (s.cmds.filter (fun c => decide (c.id / 64 = s.fresh))).length

/-- A command issued: its W token popped, its S entry reserved, its completion to come; one that moves no byte and is not
ORDERED completes at once (R362, R366). -/
def State.issue (s : State) (copy : Bool) (scope : Nat) (ordered : Bool) (w st p : BitVec 1) (gz : List Nat)
    (body : CmdBody) (bytes : Nat) : State :=
  let t := s.cur
  let c : Cmd := ⟨s.cmdId, t.id, t.place.core, copy, t.prog.nextTag, scope, ordered,
    if st = 1#1 then some (engPush p) else none, gz, t.viq.length, [], body⟩
  let s1 := s.onCur (fun t =>
    { t with
      tok := if w = 1#1 then t.tok.put (engPop p) (t.tok.get (engPop p) - 1) else t.tok
      prog := { t.prog with nextTag := tagAfter t.prog.nextTag } })
  if bytes = 0 && !ordered then s1.finishCmd c false
  else ({ s1 with cmds := s1.cmds ++ [c] }).push (.commandComplete c.id false)

/-- sD with its TAG field replaced. -/
def withTag (x : Word) (tag : Nat) : Word := setBits x 48 16 tag

/-- Is the fault of a stopped command a RESIDENCY fault? It is noticed (R367). -/
def State.noticeFault (s : State) (f : Option (Nat × Word)) : State :=
  match f with
  | some (c, va) => if c = cResidency then s.notice va else s
  | none => s

/-- How an ENG word that waits behind a convoy that can still trap is waiting: for its token or entry, where it would (R385). -/
def State.engWait (s : State) (w st p : BitVec 1) : WaitOn :=
  if w = 1#1 && decide (s.cur.tok.get (engPop p) = 0) then .tokenPop
  else if st = 1#1 && decide (16 ≤ s.reserved (engPush p)) then .tokenPush
  else .other

/-- Does the fault of a command trap: that of its first byte or command, and a physical target that the partition may not
use, wherever it is found at issue (R366, R370, R494)? -/
def faultTraps (first : Bool) (f : Option (Nat × Word)) : Bool :=
  match f with
  | some (c, _) => first || c == cViolation || c == cMachine
  | none => false

/-- The trap of a command whose first byte faults. -/
def State.engAddrTrap (s : State) (e : Nat × Word) (vas : List (Acc × Word)) : Stop :=
  .trap { cause := e.1, addr := e.2, batch := s.absentOf vas }

def execCpy (d a b : BitVec 5) (w st p : BitVec 1) (s : State) : Out :=
  asideAs (s.engWait w st p) false complete (fun s => do
    let x := (s.readS d).toNat
    let n := bitsAt x 0 32
    legal (decide (bitsAt x 36 12 = 0) && decide (1 ≤ engScope x) && decide (engScope x ≤ 4) && decide (n ≤ 16777216))
    s.tokenCheck w st p
    let src := s.readS b
    let dst := s.readS a
    let r := s.scan (some src) dst n 0
    let f := r.1.length
    match r.2 with
    | some e =>
      if faultTraps (f == 0) r.2 then .error (s.engAddrTrap e (bothRanges (some src) dst n)) else .ok ()
    | none => .ok ()
    s.engReady true 1 w st p
    let tag := s.cur.prog.nextTag
    let s1 := s.issue true (engScope x) (engOrdered x) w st p ((gzOf s.cp src f ++ gzOf s.cp dst f).eraseDups)
      (.copy (joinRuns r.1)) f
    let s2 := s1.writeS d (w64 (tag * 2 ^ 48 + bitsAt x 32 16 * 2 ^ 32 + f))
    return s2.noticeFault r.2) s

/-! ## ENGB (R368 to R370) -/

/-- The register and the element group of command k of the group at register a (R368). -/
def State.engbPlace (s : State) (a k : Nat) : Nat × Nat :=
  let g := s.cur.conf.grant
  ((a + k / (8 * g)) % 32, 8 * (k % (8 * g) / 8) + k % 8)

/-- The 256 bits of command k (R368). -/
def State.engbBits (s : State) (a k : Nat) : Nat :=
  let l := s.engbPlace a k
  bitsAt (s.cur.vr.vreg l.1).toNat (256 * l.2) 256

/-- Is a command valid (R369)? -/
def engbValid (x : Nat) : Bool :=
  decide (bitsAt x 128 32 ≤ 16777216) && decide (bitsAt x 160 8 ≤ 1) && decide (1 ≤ bitsAt x 168 8) &&
    decide (bitsAt x 168 8 ≤ 4) && decide (bitsAt x 177 7 = 0) && decide (bitsAt x 184 72 = 0)

/-- The source address of a COPY command, none for FILL. -/
def engbSrc (x : Nat) : Option Word := if bitsAt x 160 8 = 0 then some (w64 (bitsAt x 64 64)) else none

/-- What a command comes to. -/
structure EngbPlan where
  k : Nat
  bits : Nat
  bytes : List (Nat × Nat)
  fault : Option (Nat × Word)

/-- The plan of command k. -/
def State.engbPlan (s : State) (a k : Nat) : EngbPlan :=
  let x := s.engbBits a k
  let r := s.scan (engbSrc x) (w64 (bitsAt x 0 64)) (bitsAt x 128 32) 0
  ⟨k, x, r.1, r.2⟩

/-- The body of a planned command. -/
def EngbPlan.body (e : EngbPlan) : CmdBody :=
  match engbSrc e.bits with
  | some _ => .copy (joinRuns e.bytes)
  | none => .fill ((joinRuns e.bytes).map (fun r => (r.1, r.2.2, r.2.1 % 8))) (w64 (bitsAt e.bits 64 64))

/-- The entries of the gazetteer that a planned command uses. -/
def EngbPlan.gz (e : EngbPlan) (p : Part) : List Nat :=
  let n := e.bytes.length
  (gzOf p (w64 (bitsAt e.bits 0 64)) n ++
    match engbSrc e.bits with
    | some x => gzOf p x n
    | none => []).eraseDups

def execEngb (d a g : BitVec 5) (s : State) : Out :=
  aside false complete (fun s => do
    let grant := s.cur.conf.grant
    let l := vtLmul s.vt
    s.settled (pPiece g.toNat)
    let ks := activeOf (s.cur.vr.preg g.toNat) (min s.cur.conf.vl (8 * grant * l))
    s.placesSettled (unite (ks.map (fun k => groupPlace (s.engbPlace a.toNat k).1 (s.engbPlace a.toNat k).2)))
    if ks.any (fun k => !engbValid (s.engbBits a.toNat k)) then .error (.trap (engTrap 5))
    else
      let plans := ks.map (s.engbPlan a.toNat)
      let good := plans.takeWhile (fun e => e.fault.isNone)
      match (plans.drop good.length).head? with
      | some e =>
        match e.fault with
        | some f =>
          if faultTraps good.isEmpty e.fault then .error (s.engAddrTrap f
            (bothRanges (engbSrc e.bits) (w64 (bitsAt e.bits 0 64)) (bitsAt e.bits 128 32)))
          else .ok ()
        | none => .ok ()
      | none => .ok ()
      s.engReady true good.length 0#1 0#1 0#1
      let s1 := good.foldl (fun s e =>
        s.issue true (bitsAt e.bits 168 8) (bitAt e.bits 176) 0#1 0#1 0#1 (e.gz s.cp) e.body e.bytes.length) s
      let s2 := s1.noticeFault ((plans.drop good.length).head?.bind (fun e => e.fault))
      return s2.writeRegs (predWrite d.toNat (plans.zipIdx.map (fun e => (e.1.k, decide (e.2 < good.length)))))) s

/-! ## ECWAIT (R371) -/

def execEcwait (d a : BitVec 5) (s : State) : Out :=
  aside false complete (fun s =>
    let t := bitsAt (s.readS a).toNat 48 16
    let mine := s.cmds.filter (fun c => decide (c.thread = s.cur.id))
    if mine.any (fun c => t == 0 || c.tag == t) then .error (.wait .other)
    else
      match s.cur.prog.errors with
      | _ :: r => .error (.after (engTrap 1) (s.onProg (fun p => { p with errors := r })))
      | [] => .ok (s.writeS d (w64 mine.length))) s

/-! ## Completion (R362, R372, R373, R410) -/

/-- The runs of source bytes of a command, as (first byte, length). -/
def CmdBody.sources (b : CmdBody) : List (Nat × Nat) :=
  match b with
  | .copy runs => runs.map (fun r => (r.2.1, r.2.2))
  | .fill _ _ => []
  | .wbld _ _ runs _ _ => runs
  | .acstm _ _ _ => []
  | .acldm _ _ runs => runs.map (fun r => (r.1, r.2.2))

/-- Do two ranges of bytes share a line? -/
def linesMeet (a b : Nat × Nat) : Bool :=
  decide (0 < a.2) && decide (0 < b.2) && decide (a.1 / 64 ≤ (b.1 + b.2 - 1) / 64) &&
    decide (b.1 / 64 ≤ (a.1 + a.2 - 1) / 64)

/-- The commands issued before a command. -/
def State.earlier (s : State) (id : Nat) : List Cmd := s.cmds.takeWhile (fun c => c.id != id)

/-- Does an entry of the pending work hold up a command that was issued after it: a word that uses its tile (R410), a write, an
atomic or an acquire, or a read of one of its destination lines (R249, R255)? -/
def holdsUp (b : CmdBody) (e : VEntry) : Bool :=
  let tile := fun (w : Bool) (t : Nat) => (tileList w t).map (fun k => 128 + k)
  let acquire := e.holds.any (fun h => h.held == 255#8)
  let onLine := e.bytes.2.any (fun a => b.dests.any (linesMeet (a, 1)))
  match e with
  | .convoy c =>
    let touch := c.members.flatMap (fun m =>
      eReads c.vtype c.grant c.tgrant m.instr ++ eWrites c.vtype c.grant c.tgrant m.instr)
    match b with
    | .acstm t w _ => meet touch (tile w t)
    | .acldm t w _ => meet touch (tile w t)
    | _ => false
  | .access _ load _ _ => !load || acquire || onLine
  | .tile _ _ _ _ => acquire || onLine
  | .vamo _ _ _ _ => true
  | .scalar _ _ (.load _ _ _) => acquire || onLine
  | .scalar _ _ (.ldk _) => acquire || onLine
  | .scalar _ _ _ => true
  | .write _ => false
  | .reply _ _ => false

/-- Do two commands run on the same engine: the copy engine of a core, or the matrix engine of a quad (R17, R362)? -/
def Cmd.sameEngine (c x : Cmd) : Bool :=
  x.copyEngine == c.copyEngine && (if c.copyEngine then x.core == c.core else quadOf x.core == quadOf c.core)

/-- The engine of a command as a writer of memory (R27). -/
def Cmd.engine (c : Cmd) : Writer := if c.copyEngine then .copier c.core else .matrix (quadOf c.core)

/-- Bytes of the ranges of a list of runs. -/
def runBytes (l : List (Nat × Nat)) : List Nat := l.flatMap (fun r => rangeFrom r.1 r.2)

/-- May a command complete now? An error completes it whatever its peers do, and one that moves no byte waits for earlier commands
alone (R366). -/
def State.cmdReady (s : State) (c : Cmd) (err : Bool) : Bool :=
  let before := s.earlier c.id
  let mine := c.body.sources ++ c.body.dests
  let viq := ((s.findThread c.thread).map (fun t => t.viq)).getD []
  (!c.ordered || !before.any (fun x => decide (x.thread = c.thread) && c.sameEngine x)) &&
    !before.any (fun x => x.body.dests.any (fun r => mine.any (linesMeet r))) &&
    (mine.all (fun r => r.2 == 0) || !(viq.take c.ahead).any (holdsUp c.body)) &&
    (err || !(runBytes mine).any s.cutOff)

/-- Bytes written to places, but where skip says that a place keeps its value, which is the model's choice of what R372
leaves open for the lines of an error (log 13); a byte that comes from poison is written as poison (R372, R493). -/
def State.engWrite (s : State) (who : Writer) (skip : Nat → Bool) (l : List (Nat × Byte × Bool)) : State :=
  { s with mem := l.foldl (fun m e =>
      if skip e.1 then m
      else
        let m1 := m.write who e.1 e.2.1
        if e.2.2 then { m1 with poison := m1.poison ++ [e.1] } else m1) s.mem }

/-- The line whose request a peer refuses, which the spec leaves open (R372; log 13). -/
def State.errLine (s : State) (peers : List Nat) : Nat := (peers.getD (Config.choice s.fresh 0 % peers.length) 0) / 64

/-- The fflags of a thread with bits added. -/
def State.raiseOn (s : State) (id : ThreadId) (fl : Nat) : State :=
  s.onThread id (fun t => { t with user := { t.user with fflags := t.user.fflags ||| w64 fl } })

/-- What a WBLD writes to its slot, or that the slot goes back to EMPTY (R396, R400). A slot that another WBLD has made EMPTY or its
own meanwhile, as a one-page WBLD to the slot after it does to a two-page one that still loads, stays as that WBLD left it, and no
checksum flag is raised (DESIGN CHOICE, log 13). The data is read on the tile path under
the fences of its issue: R22 calls weight-buffer loads coherent and R215 the memory reads of WBLD not coherent, and the
model follows R215 (log 7). The rounding of the checksum column sets flags of the issuing thread (R127, R413). -/
def State.fillSlot (s : State) (c : Cmd) (slot : Nat) (h : BitVec 512) (runs : List (Nat × Nat)) (chk bad : Bool)
    (fences : Table Nat) : State :=
  let qn := quadOf c.core
  let q := s.quad qn
  let w := Table.get q.slots WSlot.empty slot
  if w.state ≠ .loading c.id then s
  else if bad then s.setQuad qn { q with slots := Table.set q.slots WSlot.empty slot WSlot.empty }
  else
    let data := ofBytes (s.readPath .tile fences c.thread (2 ^ 54 + slot) ((runBytes runs).drop 64))
    let f := bitsAt h.toNat 0 8
    let w1 : WSlot := ⟨.ready, f, bitsAt h.toNat 8 8, BitVec.ofNat 32 (bitsAt h.toNat 64 32),
      BitVec.ofNat 32 (bitsAt h.toNat 96 32), BitVec.ofNat 65536 data, chk, [], []⟩
    let col := fun (a : Bool) => if chk then (List.range (wK f)).map (w1.column a) else []
    let words := fun (l : List (Fl Nat)) => l.map (fun x => w64 x.val)
    let w2 : WSlot := { w1 with cks := words (col false), dks := words (col true) }
    let slots := Table.set q.slots WSlot.empty slot w2
    (s.setQuad qn { q with slots := slots }).raiseOn c.thread (flagsOf (col false ++ col true))

/-- The place of byte x of a tile among its thread's accumulator words: the key of its word, 1,024·row + word, and its byte. -/
def tileByte (t : Nat) (w64view : Bool) (x : Nat) : Nat × Nat :=
  let e := if w64view then 256 else 128
  (1024 * (x / e) + (if w64view then 64 * t else 32 * t) + x % e / 4, x % 4)

/-- An accumulator word of a thread's own rows: in its quad while it holds them, else in the state that the save engine
keeps for it (R363, R391). -/
def State.accWord (s : State) (id : ThreadId) (k : Nat) : BitVec 32 :=
  match s.onChip.find? (fun t => t.id == id) with
  | some t => Table.get (s.quad (quadOf t.place.core)).acc 0#32 (1024 * t.place.rowBase + k)
  | none =>
    match s.saved.find? (fun e => e.1.id == id) with
    | some e => Table.get e.2.2 0#32 k
    | none => 0#32

/-- The word written. -/
def State.putAccWord (s : State) (id : ThreadId) (k : Nat) (v : BitVec 32) : State :=
  match s.onChip.find? (fun t => t.id == id) with
  | some t =>
    let qn := quadOf t.place.core
    let q := s.quad qn
    s.setQuad qn { q with acc := Table.set q.acc 0#32 (1024 * t.place.rowBase + k) v }
  | none =>
    { s with saved := s.saved.map (fun e => if e.1.id = id then (e.1, e.2.1, Table.set e.2.2 0#32 k v) else e) }

/-- A byte of an accumulator word replaced. -/
def State.putAccByte (s : State) (id : ThreadId) (k : Nat × Nat) (b : Byte) : State :=
  let old := (s.accWord id k.1).toNat
  s.putAccWord id k.1 (BitVec.ofNat 32 (old - bitsAt old (8 * k.2) 8 * 2 ^ (8 * k.2) + b.toNat * 2 ^ (8 * k.2)))

/-- The bytes of accumulator transfers, as (memory place, byte of the tile). -/
def tilePairs (runs : List (Nat × Nat × Nat)) : List (Nat × Nat) :=
  runs.flatMap (fun r => (List.range r.2.2).map (fun i => (r.1 + i, r.2.1 + i)))

/-- The bytes of peer modules that a command reads or writes. -/
def CmdBody.peers (b : CmdBody) : List Nat := (runBytes (b.sources ++ b.dests)).filter (fun a => targetOf a == 2)

/-- The places whose request fails when a command completes: those that no port reaches, those of the line that a peer
refuses, and those of its lines that have suffered an uncorrectable error (R372). -/
def State.cmdFails (s : State) (c : Cmd) (err : Bool) (pa : Nat) : Bool :=
  let peers := c.body.peers
  s.cutOff pa || (err && !peers.any s.cutOff && !peers.isEmpty && pa / 64 == s.errLine peers) || c.lost.contains (pa / 64)

/-- An engine that consumes poison, by loading it into a weight slot or a tile: a record of CLASS 2 and a MACHINE_CHECK (R491,
R493; log 26). -/
def State.consumed (s : State) (c : Cmd) (l : List (Nat × Nat)) : State :=
  match (runBytes l).find? (fun a => s.poisoned [a]) with
  | some a => s.asyncTrap c.thread (w64 a) c.core s.synd
  | none => s

/-- What a command does when it completes, and whether it completes with an error (R372). -/
def State.doBody (s : State) (c : Cmd) (err : Bool) : State × Bool :=
  let skip := s.cmdFails c err
  let bad := (err && !c.body.peers.isEmpty) || !c.lost.isEmpty || s.poisoned (runBytes c.body.sources)
  match c.body with
  | .copy runs =>
    let l := runs.flatMap (fun r => (List.range r.2.2).map (fun i =>
      (r.1 + i, s.mem.byte (r.2.1 + i), s.mem.poison.contains (r.2.1 + i))))
    let cut := fun (pa : Nat) => skip pa || runs.any (fun r =>
      decide (r.1 ≤ pa) && decide (pa < r.1 + r.2.2) && skip (r.2.1 + (pa - r.1)))
    (s.engWrite c.engine cut l, bad)
  | .fill runs pat =>
    let l := runs.flatMap (fun r => (List.range r.2.1).map (fun i =>
      (r.1 + i, BitVec.ofNat 8 (bitsAt pat.toNat (8 * ((r.2.2 + i) % 8)) 8), false)))
    (s.engWrite c.engine skip l, bad)
  | .wbld slot h runs chk fences => ((s.consumed c runs).fillSlot c slot h runs chk bad fences, bad)
  | .acstm t w runs =>
    let l := (tilePairs runs).map (fun e =>
      let k := tileByte t w e.2
      (e.1, BitVec.ofNat 8 (bitsAt (s.accWord c.thread k.1).toNat (8 * k.2) 8), false))
    (s.engWrite c.engine skip l, bad)
  | .acldm t w runs =>
    let s1 := ((tilePairs runs).filter (fun e => !skip e.1 && !s.poisoned [e.1])).foldl
      (fun r e => r.putAccByte c.thread (tileByte t w e.2) (s.mem.byte e.1)) (s.consumed c c.body.sources)
    (s1.onThread c.thread (fun h => { h with mat := h.mat.wrote (tileList w t) }), bad)

/-- A command completes: its effect, its token, its thread's events, its error for ECWAIT. -/
def execCommandComplete (id : Nat) (err : Bool) (s : State) : Out :=
  match s.cmds.find? (fun c => c.id == id) with
  | none => .next s
  | some c =>
    if !s.cmdReady c err then .next s
    else
      let r := s.doBody c err
      let late := Instr.commandComplete id true
      .next ({ r.1 with
        cmds := r.1.cmds.filter (fun x => x.id != id)
        timers := r.1.timers.filter (fun i => i != late) }.finishCmd c r.2)

/-! ## WBLD (13 R399, R400) -/

/-- The bytes of a range on the vector path, each checked; the first fault gives its cause and address. -/
def State.range (s : State) (k : Acc) (base : Word) : Nat → Nat → List Nat × Option (Nat × Word)
  | 0, _ => ([], none)
  | n + 1, o =>
    match s.byteAt k (base + w64 o) with
    | .error c => ([], some (c, base + w64 o))
    | .ok p =>
      let r := State.range s k base n (o + 1)
      (p :: r.1, r.2)

/-- Places joined into (first, length). -/
def joinPlaces (l : List Nat) : List (Nat × Nat) :=
  l.foldr (fun p acc =>
    match acc with
    | (a, n) :: r => if p + 1 = a then (p, n + 1) :: r else (p, 1) :: acc
    | [] => [(p, 1)]) []

/-- Is a weight header valid (R397)? -/
def headerValid (h : BitVec 512) : Bool :=
  decide (bitsAt h.toNat 0 8 ≤ 8) && decide (bitsAt h.toNat 8 8 ≤ 3) && decide (bitsAt h.toNat 16 48 = 0) &&
    decide (bitsAt h.toNat 128 384 = 0)

/-- MATRIX_LAYOUT with a syndrome. -/
def layoutStop (n : Nat) : Stop := .trap { cause := cMatLayout, synd := n }

/-- The slots of a quad after a WBLD of format f to slot n issues (R396). -/
def loadSlot (m : Table WSlot) (n f id : Nat) : Table WSlot :=
  let m1 := Table.set m WSlot.empty n { WSlot.empty with state := .loading id, format := f }
  if wPages f = 2 then Table.set m1 WSlot.empty (n + 1) WSlot.empty
  else if n % 2 = 1 then
    let lower := Table.get m WSlot.empty (n - 1)
    if lower.state ≠ .empty ∧ wPages lower.format = 2 then Table.set m1 WSlot.empty (n - 1) WSlot.empty else m1
  else m1

def execWbld (d a l : BitVec 5) (w st p : BitVec 1) (h : BitVec 3) (s : State) : Out :=
  asideAs (s.engWait w st p) false complete (fun s => do
    let x := (s.readS d).toNat
    legal (decide (bitsAt x 36 12 = 0) && decide (1 ≤ engScope x) && decide (engScope x ≤ 4) && decide (bitsAt x 0 32 = 0))
    s.tokenCheck w st p
    let ea := s.readS a
    if ea.toNat % 64 ≠ 0 then .error (.trap { cause := cMisaligned, addr := ea })
    else
      let hd := s.range .read ea 64 0
      match hd.2 with
      | some e => .error (accessTrap e.1 e.2)
      | none => .ok ()
      s.reachable hd.1
      let _ ← s.fetchBytes ea hd.1
      let hdr := BitVec.ofNat 512
        (ofBytes (s.readPath .tile s.cur.prog.fences s.cur.id (2 ^ 54) hd.1))
      if !headerValid hdr then .error (layoutStop 3)
      else
        let slot := 32 * h.toNat + l.toNat
        let f := bitsAt hdr.toNat 0 8
        if wPages f = 2 ∧ slot % 2 = 1 then .error (layoutStop 4)
        else
          let data := s.range .read (ea + 64#64) (wBytes f) 0
          match data.2 with
          | some e => .error (accessTrap e.1 e.2)
          | none => .ok ()
          s.engReady false 1 w st p
          let tag := s.cur.prog.nextTag
          let s1 := s.issue false (engScope x) (engOrdered x) w st p (gzOf s.cp ea (64 + wBytes f))
            (.wbld slot hdr (joinPlaces (hd.1 ++ data.1)) s.cur.mat.chk s.cur.prog.fences) (64 + wBytes f)
          let id := s.cmdId
          let qn := quadOf s.cur.place.core
          let s2 := s1.setQuad qn { s1.quad qn with slots := loadSlot (s1.quad qn).slots slot f id }
          return s2.writeS d (withTag (s.readS d) tag)) s

/-! ## ACSTM and ACLDM (13 R407, R408) -/

/-- The bytes of the rows of a transfer, from row r, as (place, byte of the tile). -/
def State.tileRows (s : State) (k : Acc) (base stride : Word) (e : Nat) :
    Nat → Nat → List (Nat × Nat) × Option (Nat × Word)
  | 0, _ => ([], none)
  | n + 1, r =>
    let row := s.range k (base + w64 r * stride) e 0
    match row.2 with
    | some f => ([], some f)
    | none =>
      let rest := State.tileRows s k base stride e n (r + 1)
      (row.1.zipIdx.map (fun x => (x.1, e * r + x.2)) ++ rest.1, rest.2)

/-- ACSTM, or ACLDM where load (R407, R408). A MISALIGNED names sA as its address, also where the stride alone is misaligned
(DESIGN CHOICE, log 26). -/
def accTransfer (load : Bool) (d a b : BitVec 5) (w st p : BitVec 1) (s : State) : Out :=
  asideAs (s.engWait w st p) false complete (fun s => do
    let x := (s.readS d).toNat
    let view := bitAt x 5
    let tile := bitsAt x 0 5
    legal (decide (bitsAt x 36 12 = 0) && decide (1 ≤ engScope x) && decide (engScope x ≤ 4) &&
      decide (bitsAt x 6 26 = 0) && (!view || decide (tile < 16)))
    check (decide (s.cur.conf.tgrant ≠ 0)) cMatAttach
    s.tokenCheck w st p
    let ea := s.readS a
    let al := if view then 8 else 4
    if ea.toNat % al ≠ 0 ∨ (s.readS b).toNat % al ≠ 0 then .error (.trap { cause := cMisaligned, addr := ea })
    else
      let e := if view then 256 else 128
      let rows := s.tileRows (if load then .read else .write) ea (s.readS b) e s.cur.conf.tgrant 0
      match rows.2 with
      | some f => .error (accessTrap f.1 f.2)
      | none => .ok ()
      s.engReady false 1 w st p
      let tag := s.cur.prog.nextTag
      let gz := ((List.range s.cur.conf.tgrant).flatMap (fun r => gzOf s.cp (ea + w64 r * s.readS b) e)).eraseDups
      let runs := joinRuns rows.1
      let s1 := s.issue false (engScope x) (engOrdered x) w st p gz 
        (if load then .acldm tile view runs else .acstm tile view runs) rows.1.length
      return s1.writeS d (withTag (s.readS d) tag)) s

def execAcstm (d a b : BitVec 5) (w st p : BitVec 1) (s : State) : Out := accTransfer false d a b w st p s
def execAcldm (d a b : BitVec 5) (w st p : BitVec 1) (s : State) : Out := accTransfer true d a b w st p s

/-! ## ATTACH and DETACH (13 R387 to R389) -/

/-- The row ranges (first, count) that other threads on the quad hold. -/
def State.otherRows (s : State) : List (Nat × Nat) :=
  (s.others.filter (fun t => quadOf t.place.core == quadOf s.cur.place.core && decide (0 < t.conf.tgrant))).map
    (fun t => (t.place.rowBase, t.conf.tgrant))

/-- The lowest first row of n rows that are not in the given ranges. -/
def rowsAt (held : List (Nat × Nat)) (n : Nat) : Option Nat :=
  (List.range 65).find? (fun r => decide (r + n ≤ 64) && !held.any (fun h => rangesMeet h (r, n)))

/-- The rows of a quad from a range set to +0. -/
def clearRows (first n : Nat) (acc : Table (BitVec 32)) : Table (BitVec 32) :=
  acc.filter (fun e => !(decide (1024 * first ≤ e.1) && decide (e.1 < 1024 * (first + n))))

/-- Does a MAT word or an accumulator transfer of the thread still run (R388)? -/
def State.matBusy (s : State) : Bool :=
  s.cur.unretired.any (fun m =>
    match m.instr with
    | .mchk _ _ _ _ _ => true
    | i => needsRows i) ||
  s.cmds.any (fun c => decide (c.thread = s.cur.id) &&
    match c.body with
    | .acstm _ _ _ => true
    | .acldm _ _ _ => true
    | _ => false)

/-- The rows that a thread holds are released: they hold no data of it (R389). -/
def State.releaseRows (s : State) (t : Thread) : State :=
  let qn := quadOf t.place.core
  let q := s.quad qn
  s.setQuad qn { q with acc := clearRows t.place.rowBase t.conf.tgrant q.acc }

/-- The thread's rows changed to n from a first row: the old range is given up, and the new one is set to +0 (R388). -/
def State.takeRows (s : State) (first n : Nat) : State :=
  let s1 := s.releaseRows s.cur
  let qn := quadOf s.cur.place.core
  let q := s1.quad qn
  ((s1.setQuad qn { q with acc := clearRows first n q.acc }).onCur (fun t =>
    { t with place := { t.place with rowBase := first }, conf := { t.conf with tgrant := n }
             mat := { t.mat with tiles := [] } })).redispatch s.pn

def execAttach (d a : BitVec 5) (s : State) : Out :=
  aside false complete (fun s =>
    let rows := ((s.legendOf s.cur.id).map (fun l => l.rows)).getD 0
    let req := min (16 * ((s.readS a).toNat / 16)) (min 64 rows)
    let tg := s.cur.conf.tgrant
    if req = tg then .ok (s.writeS d (w64 tg))
    else if s.matBusy then .error (.wait .other)
    else
      let held := s.otherRows
      let others := sumNat (held.map (fun r => r.2))
      let cap := min req ((s.quad (quadOf s.cur.place.core)).rowcap - others)
      let m := (([64, 48, 32, 16].filter (fun n => decide (n ≤ cap))).find? (fun n => (rowsAt held n).isSome)).getD 0
      let new := if req < tg then req else max tg m
      if new = tg then .ok (s.writeS d (w64 new))
      else .ok ((s.takeRows ((rowsAt held new).getD 0) new).writeS d (w64 new))) s

def execDetach (s : State) : Out :=
  aside false complete (fun s =>
    if s.cur.conf.tgrant = 0 then .ok s
    else if s.matBusy then .error (.wait .other)
    else .ok (s.takeRows 0 0)) s

/-! ## Deadlocks (03 R102; 12 R385) -/

/-- The member that the E-side of a thread executes next, and its convoy: that of the first convoy, unless earlier work holds it. -/
def Thread.nextMember (t : Thread) : Option (Convoy × Member) :=
  let k := t.viq.findIdx VEntry.isConvoy
  match t.viq[k]? with
  | some (.convoy c) => if convoyHeld t.vr (t.viq.take k) c then none else (c.members[c.done]?).map (fun m => (c, m))
  | _ => none

/-- The queue on which the E-side waits, because it is full. -/
def Thread.fullQueue (t : Thread) : Option Nat :=
  match t.nextMember with
  | some (_, m) =>
    (List.range 8).find? (fun k => writesQueue m.instr k && decide (16 ≤ (t.queue k).length))
  | none => none

/-- Does an outstanding command of the thread push FIFO f? -/
def State.willPush (s : State) (t : Thread) (f : Fifo) : Bool :=
  s.cmds.any (fun c => decide (c.thread = t.id) && decide (c.push = some f))

/-- Does the E-side wait on a token: to pop one that no command will push, or to reserve an entry (R385)? -/
def State.tokenStuck (s : State) (t : Thread) : Bool :=
  match t.nextMember with
  | some (c, m) =>
    let k := tokensOf m.instr
    let pop := k.1 && !c.popped.contains c.done && decide (t.tok.get k.2.2.1 = 0) && !s.willPush t k.2.2.1
    let res := k.2.1 && decide (16 ≤ t.tok.get k.2.2.2 + c.pushes.count k.2.2.2)
    pop || res
  | none => false

/-- The A-side's wait, as R102 and R385 count it, against a full queue of the E-side. -/
def Thread.waitsBehind (t : Thread) (full : Option Nat) : Bool :=
  match t.prog.wait with
  | .retry .viq => true
  | .retry (.qpop j) => decide (some j ≠ full) && decide ((t.queue j).length = 0)
  | .retry (.qdrain _) => true
  | _ => false

/-- The condition of R102, with the queue. -/
def Thread.queueStuck (t : Thread) : Option Nat :=
  match t.fullQueue with
  | some k => if t.waitsBehind (some k) then some k else none
  | none => none

/-- The condition of R385. -/
def State.tokenDead (s : State) (t : Thread) : Bool :=
  let full := t.fullQueue
  let aWait := t.waitsBehind full || (match t.prog.wait with
    | .retry .tokenPop => true
    | .retry .tokenPush => true
    | _ => false)
  t.queueStuck.isNone && aWait && (s.tokenStuck t || full.isSome)

/-- QUEUE_DEADLOCK, where its condition still holds: the trap is taken at the waiting word and the VIQ stays (R102). -/
def execQueueDeadlock (t : ThreadId) (s : State) : Out :=
  .next (s.asThread t (fun s =>
    match s.cur.queueStuck with
    | some k => takeTrap s { cause := cQDeadlock, queue := k, eside := decide (s.cur.prog.wait = .retry .viq) }
    | none => s))

/-- ENGINE_FAULT with syndrome 4, where its condition still holds (R385). -/
def execTokenDeadlock (t : ThreadId) (s : State) : Out :=
  .next (s.asThread t (fun s =>
    if s.tokenDead s.cur then takeTrap s { engTrap 4 with eside := decide (s.cur.prog.wait = .retry .viq) } else s))

end

end Sys2Proof.Machine
end

