-- ==== Sys2Proof/Machine/System.lean ====
section
/-!
DEFINITION. SYS and SYSX but for the context words (16 R470 to R482; 03 R108): status registers, TRAP and BREAKPOINT,
the returns from a trap, WFE, VTINV and PTINV.
-/
namespace Sys2Proof.Machine

noncomputable section

/-! ## Status registers (R53, R54, R470) -/

/-- An access that needs ring k. -/
def needRing (s : State) (k : Nat) : Except Stop Unit := legal (decide (k ≤ s.cur.ring.toNat))

/-- A lane allocation table entry as its word (R141). -/
def Lat.word (l : Lat) : Word :=
  w64 (l.weight + 16 * b2n l.pm + 256 * ((List.range 8).filter (fun k => l.map.getLsbD k)).length + 4096 * l.share +
    65536 * l.map.toNat + 2 ^ 24 * b2n l.wait)

/-- Register o of the six handler registers of a ring. -/
def RingRegs.read (r : RingRegs) (o : Nat) : Word :=
  match o with
  | 0 => r.status
  | 1 => r.handler
  | 2 => r.epc
  | 3 => r.cause
  | 4 => r.record
  | _ => r.scratch

/-- A handler register written. -/
def RingRegs.write (r : RingRegs) (o : Nat) (v : Word) : RingRegs :=
  match o with
  | 0 => { r with status := v }
  | 1 => { r with handler := v }
  | 2 => { r with epc := v }
  | 3 => { r with cause := v }
  | 4 => { r with record := v }
  | _ => { r with scratch := v }

/-- kdefh and kdefr of ring k. -/
def PartRegs2.defs (r : PartRegs2) (k o : Nat) : Word :=
  match k, o with
  | 1, 6 => r.ddefh
  | 1, _ => r.ddefr
  | 2, 6 => r.hdefh
  | 2, _ => r.hdefr
  | _, 6 => r.mdefh
  | _, _ => r.mdefr

/-- kdefh or kdefr of ring k written. -/
def PartRegs2.setDefs (r : PartRegs2) (k o : Nat) (v : Word) : PartRegs2 :=
  match k, o with
  | 1, 6 => { r with ddefh := v }
  | 1, _ => { r with ddefr := v }
  | 2, 6 => { r with hdefh := v }
  | 2, _ => { r with hdefr := v }
  | _, 6 => { r with mdefh := v }
  | _, _ => { r with mdefr := v }

/-- The user status registers (R53); none for a number that names no register. -/
def userReg (s : State) (n : Nat) : Option Word :=
  let t := s.cur
  match n with
  | 0x000 => some t.user.ustatus
  | 0x001 => some t.user.uhandler
  | 0x002 => some t.user.uepc
  | 0x003 => some t.user.ucause
  | 0x004 => some t.user.fflags
  | 0x010 => some (w64 t.conf.vl)
  | 0x011 => some (t.conf.vtype.setWidth 64)
  | 0x012 => some (w64 t.conf.grant)
  | 0x013 => some t.user.vfirst
  | 0x014 => some t.loops.lc0
  | 0x015 => some t.loops.lb0
  | 0x016 => some t.loops.le0
  | 0x017 => some t.loops.lc1
  | 0x018 => some t.loops.lb1
  | 0x019 => some t.loops.le1
  | 0x01A => some t.dims.dl0
  | 0x01B => some t.dims.dl1
  | 0x01C => some t.dims.dl2
  | 0x01D => some t.dims.ds0
  | 0x01E => some t.dims.ds1
  | 0x01F => some t.dims.ds2
  | 0x020 => some t.dims.dx0
  | 0x021 => some t.dims.dx1
  | 0x022 => some t.dims.dx2
  | 0x028 => some (w64 t.conf.tgrant)
  | 0x029 => some 64#64
  | 0x02A => some 32#64
  | 0x02B => some 256#64
  | 0x030 => some t.user.stst
  | 0x040 => some s.cycle
  | 0x041 => some t.prog.instret
  | _ => none

/-- The registers of the partition, the core and the quad (R470). -/
def sharedReg (s : State) (n : Nat) : Option Word :=
  let c := s.core s.cur.place.core
  let q := s.quad (quadOf s.cur.place.core)
  let r := s.cp.regs
  let r2 := s.cp.regs2
  match n with
  | 0x110 => some (c.latOf 0).word
  | 0x111 => some (c.latOf 1).word
  | 0x112 => some (c.latOf 2).word
  | 0x113 => some (c.latOf 3).word
  | 0x114 => some (w64 c.ceil)
  | 0x115 => some r.reclaim
  | 0x116 => some (w64 (q.rowcap + 256 * q.pace))
  | 0x118 => some r.vwbase
  | 0x119 => some r.gzimage
  | 0x11A => some r.ptroot
  | 0x120 => some r.nqbase
  | 0x121 => some r.nqcap
  | 0x122 => some r.nqhead
  | 0x123 => some r.nqtail
  | 0x124 => some r.ctxbase
  | 0x125 => some r.ctxcount
  | 0x126 => some r.stkbase
  | 0x127 => some r.stkslot
  | 0x128 => some r.stkcount
  | 0x210 => some (w64 r2.gzfirst)
  | 0x211 => some (w64 r2.gzcount)
  | 0x212 => some r2.logbase
  | 0x213 => some r2.logcap
  | 0x214 => some r2.loghead
  | 0x215 => some r2.logtail
  | _ => none

/-- Status register n, or ILLEGAL (R54). A read of fflags waits for the E-side (R127). -/
def sysRead (s : State) (n : Nat) : Except Stop Word :=
  let ring := n / 256
  if ring = 0 then
    match userReg s n with
    | none => .error (trapOf cIllegal)
    | some v => if n = 4 && !s.cur.viq.isEmpty then .error (.wait .other) else .ok v
  else if 4 ≤ ring then .error (trapOf cIllegal)
  else
    let o := n % 256
    let v := if o < 6 then some ((s.cur.rings.get ring).read o)
      else if o < 8 then some (s.cp.regs2.defs ring o)
      else sharedReg s n
    match v with
    | none => .error (trapOf cIllegal)
    | some v => if ring ≤ s.cur.ring.toNat then .ok v else .error (trapOf cIllegal)

/-- The registers that a word may not write (R53, R470). -/
def readOnly (n : Nat) : Bool :=
  [0x010, 0x011, 0x012, 0x028, 0x029, 0x02A, 0x02B, 0x040, 0x041, 0x114, 0x116, 0x123, 0x210, 0x211, 0x215].contains n

/-- The bits of a register that are not reserved; all ones where none are. -/
def writable (n : Nat) : Word :=
  match n with
  | 0x000 => 0xF#64
  | 0x003 => 0x0F000FFF#64
  | 0x004 => 0x3F#64
  | 0x030 => 0xFFFF3#64
  | _ => if n % 256 = 0 then 0x17#64
    else if n % 256 = 3 then 0x0F3FFFFF#64
    else if 0x110 ≤ n && n ≤ 0x113 then 0x01FFFF1F#64
    else BitVec.allOnes 64

/-- The alignment and range of a register (R470, R476). -/
def inRange (n : Nat) (v : Word) : Bool :=
  let al := fun k => v.toNat % k == 0
  let ring := n / 256
  let o := n % 256
  if n = 1 || n = 2 then al 4
  else if 1 ≤ ring && (o = 1 || o = 2 || o = 6) then al 4
  else if 1 ≤ ring && o = 4 then al 1024
  else if 1 ≤ ring && o = 7 then al (2 ^ 20)
  else
    match n with
    | 0x115 => decide (10 ≤ v.toNat) && decide (v.toNat ≤ 10000)
    | 0x118 => al (2 ^ 28)
    | 0x119 => al 64
    | 0x11A => al 65536
    | 0x120 => al 16
    | 0x121 => decide (v.toNat ≤ 65536)
    | 0x124 => al (2 ^ 20)
    | 0x126 => al 4096
    | 0x127 => al 16 && decide (v.toNat ≤ 16777216)
    | 0x128 => decide (v.toNat ≤ 65536)
    | 0x212 => al 32
    | 0x213 => decide (v.toNat ≤ 65536)
    | _ => true

/-- A user status register written. -/
def setUserReg (t : Thread) (n : Nat) (v : Word) : Thread :=
  match n with
  | 0x000 => { t with user := { t.user with ustatus := v } }
  | 0x001 => { t with user := { t.user with uhandler := v } }
  | 0x002 => { t with user := { t.user with uepc := v } }
  | 0x003 => { t with user := { t.user with ucause := v } }
  | 0x004 => { t with user := { t.user with fflags := v } }
  | 0x013 => { t with user := { t.user with vfirst := v } }
  | 0x014 => { t with loops := { t.loops with lc0 := v } }
  | 0x015 => { t with loops := { t.loops with lb0 := v } }
  | 0x016 => { t with loops := { t.loops with le0 := v } }
  | 0x017 => { t with loops := { t.loops with lc1 := v } }
  | 0x018 => { t with loops := { t.loops with lb1 := v } }
  | 0x019 => { t with loops := { t.loops with le1 := v } }
  | 0x01A => { t with dims := { t.dims with dl0 := v } }
  | 0x01B => { t with dims := { t.dims with dl1 := v } }
  | 0x01C => { t with dims := { t.dims with dl2 := v } }
  | 0x01D => { t with dims := { t.dims with ds0 := v } }
  | 0x01E => { t with dims := { t.dims with ds1 := v } }
  | 0x01F => { t with dims := { t.dims with ds2 := v } }
  | 0x020 => { t with dims := { t.dims with dx0 := v } }
  | 0x021 => { t with dims := { t.dims with dx1 := v } }
  | 0x022 => { t with dims := { t.dims with dx2 := v } }
  | 0x030 => { t with user := { t.user with stst := v } }
  | _ => t

/-- The weight of the lane allocation table entry of a slot of the current core written: the shares change, and with them
the reclaim intervals that are counted (R141, R144, R151). -/
def State.setWeight (s : State) (slot : Nat) (v : Word) : State :=
  let c := s.core s.cur.place.core
  (s.setCore s.cur.place.core (c.setLat slot { c.latOf slot with weight := bitsAt v.toNat 0 4 })).lanes s.cur.place.core

/-- The partition's registers changed. -/
def State.onRegs (s : State) (f : PartRegs → PartRegs) : State := s.setPart s.pn { s.cp with regs := f s.cp.regs }
/-- The rest of the partition's registers changed. -/
def State.onRegs2 (s : State) (f : PartRegs2 → PartRegs2) : State := s.setPart s.pn { s.cp with regs2 := f s.cp.regs2 }

/-- A register of the partition or the core written. -/
def setSharedReg (s : State) (n : Nat) (v : Word) : State :=
  match n with
  | 0x110 => s.setWeight 0 v
  | 0x111 => s.setWeight 1 v
  | 0x112 => s.setWeight 2 v
  | 0x113 => s.setWeight 3 v
  | 0x115 => s.onRegs (fun r => { r with reclaim := v })
  | 0x118 => s.onRegs (fun r => { r with vwbase := v })
  | 0x119 => s.onRegs (fun r => { r with gzimage := v })
  | 0x11A => s.onRegs (fun r => { r with ptroot := v })
  | 0x120 => s.onRegs (fun r => { r with nqbase := v })
  | 0x121 => s.onRegs (fun r => { r with nqcap := v })
  | 0x122 => s.onRegs (fun r => { r with nqhead := v })
  | 0x124 => s.onRegs (fun r => { r with ctxbase := v })
  | 0x125 => s.onRegs (fun r => { r with ctxcount := v })
  | 0x126 => s.onRegs (fun r => { r with stkbase := v })
  | 0x127 => s.onRegs (fun r => { r with stkslot := v })
  | 0x128 => (s.onRegs (fun r => { r with stkcount := v })).redispatch s.pn
  | 0x212 => s.onRegs2 (fun r => { r with logbase := v })
  | 0x213 => s.onRegs2 (fun r => { r with logcap := v })
  | 0x214 => s.onRegs2 (fun r => { r with loghead := v })
  | _ => s

/-- Status register n written, with no check. -/
def setReg (s : State) (n : Nat) (v : Word) : State :=
  let ring := n / 256
  let o := n % 256
  if ring = 0 then s.onCur (fun t => setUserReg t n v)
  else if o < 6 then
    s.onCur (fun t => { t with rings := t.rings.put ring ((t.rings.get ring).write o v) })
  else if o < 8 then s.onRegs2 (fun r => r.setDefs ring o v)
  else setSharedReg s n v

/-- A write to status register n, or ILLEGAL (R54, R476). -/
def sysWrite (s : State) (n : Nat) (v : Word) : Except Stop State := do
  let _ ← sysRead s n
  legal (!readOnly n)
  legal (decide (v &&& ~~~(writable n) = 0#64) && inRange n v)
  return setReg s n v

def execSrr (d : BitVec 5) (n : BitVec 12) (s : State) : Out :=
  aside false complete (fun s => do
    let v ← sysRead s n.toNat
    return s.writeS d v) s

def execSrw (a : BitVec 5) (n : BitVec 12) (s : State) : Out :=
  aside false complete (fun s => sysWrite s n.toNat (s.readS a)) s

/-- SRS and SRC: the old value to sD, and a new one from it and sA. -/
def changeReg (f : Word → Word → Word) (d a : BitVec 5) (n : BitVec 12) (s : State) : Out :=
  aside false complete (fun s => do
    let old ← sysRead s n.toNat
    let s1 ← sysWrite s n.toNat (f old (s.readS a))
    return s1.writeS d old) s

def execSrs (d a : BitVec 5) (n : BitVec 12) (s : State) : Out := changeReg (fun x y => x ||| y) d a n s
def execSrc (d a : BitVec 5) (n : BitVec 12) (s : State) : Out := changeReg (fun x y => x &&& ~~~y) d a n s

/-! ## TRAP, BREAKPOINT and the returns (R477, R478, R108) -/

/-- TRAP completes and traps with the next word's PC. -/
def execTrap (i : BitVec 11) (s : State) : Out :=
  aside false complete (fun s =>
    .error (.after { cause := cTrap, addr := i.setWidth 64, epc := some (s.cur.pc + 4#64) }
      (s.onCur (fun t => t.retired t.pc)))) s

def execBreakpoint (i : BitVec 11) (s : State) : Out :=
  aside false complete (fun _ => .error (.trap { cause := cBreak, addr := i.setWidth 64 })) s

/-- A return to target, which reissues the word there where ri (R203). Recorded W pops of another convoy are dropped
(R46). -/
def completeReturn (target : Word) (ri : Bool) (s : State) : State :=
  (completeAt target s).onProg (fun p =>
    { p with
      reissue := ri
      wpops := match Table.get p.wpops none s.cur.level with
        | some e => if e.1 = target then p.wpops else Table.set p.wpops none s.cur.level none
        | none => p.wpops })

def execTret (s : State) : Out :=
  let c := s.cur.ring.toNat
  let k := s.cur.rings.get c
  let pr := bitsAt k.status.toNat 0 2
  let ri := bitAt k.status.toNat 2
  aside false (completeReturn k.epc ri) (fun s =>
    if c = 0 || c ≤ pr then .error (trapOf cIllegal)
    else
      .ok (s.onCur (fun t =>
        { t with
          ring := BitVec.ofNat 2 pr
          user := { t.user with ustatus := mkUstatus t.user.ih (bitAt k.status.toNat 4) t.user.pls t.user.uri }
          rings := t.rings.put c { k with status := setBits k.status 2 1 0 } }))) s

def execUret (s : State) : Out :=
  let u := s.cur.user
  aside false (completeReturn u.uepc u.uri) (fun s =>
    if s.cur.ring ≠ 0#2 || !u.ih then .error (trapOf cIllegal)
    else .ok (s.onUser (fun u => { u with ustatus := mkUstatus false u.pls false false }))) s

/-! ## WFE (R480) -/

def execWfe (d a : BitVec 5) (s : State) : Out :=
  aside false complete (fun s =>
    let e := s.cur.prog.events
    let late := Instr.wfeTimeout s.cur.id
    if e ≠ 0#4 then
      .ok ({ s.writeS d (e.setWidth 64) with timers := s.timers.filter (fun i => i != late) }.onProg
        (fun p => { p with events := 0#4 }))
    else if s.readS a = 0#64 || s.timers.contains late then .error (.wait .wfe)
    else .error (.waitIn .wfe (s.timer late))) s

/-- The time limit of the current thread's WFE goes, since a trap ends the wait (R480). -/
def State.endLimit (s : State) : State :=
  { s with timers := s.timers.filter (fun i => i != Instr.wfeTimeout s.cur.id) }

/-- The time limit of a waiting WFE passes. -/
def execWfeTimeout (t : ThreadId) (s : State) : Out :=
  .next (s.onThread t (fun h =>
    if h.prog.wait = .retry .wfe then { h with prog := { h.prog with events := h.prog.events ||| 8#4 } } else h))

/-! ## VTINV and PTINV (R481, R482, R484) -/

/-- Does an access that a thread of the current partition has made still wait (R481, R482)? -/
def State.partPending (s : State) : Bool := s.started.any (fun t => decide (t.id.part = s.pn) && t.accessWaits)

/-- A gazetteer image entry (R484). -/
def gzParse (bs : List Byte) : GzEntry :=
  ⟨field bs 0 8, field bs 8 8, BitVec.ofNat 3 (field bs 16 4), BitVec.ofNat 128 (field bs 32 16),
    BitVec.ofNat 128 (field bs 48 16)⟩

/-- Does a staged access or a gate that waits lie in a package gazetteer entry that used picks, with its object or with its
state byte (R305, R481)? -/
def State.stagedUses (s : State) (used : Nat → Bool) : Bool :=
  let o := s.objs s.pn
  let entry := fun (va : Nat) => s.cp.inWindow va && used (s.cp.gzIndex va)
  (o.waiters ++ o.resend).any (fun w =>
    entry w.va.toNat ||
      match o.cls w.cls with
      | some c => entry (c.sarr + w64 w.obj).toNat
      | none => false)

/-- Does the 256 MiB page at a base lie in the partition's memory: its own, the host's, or an aperture that it has mapped
(R484, R496)? -/
def Part.ownsPage (p : Part) (base : Nat) : Bool := p.owns base && p.owns (base + 2 ^ 28 - 1)

/-- Is a copied entry without fault (R484)? -/
def gzGood (p : Part) (bs : List Byte) : Bool :=
  let e := gzParse bs
  decide (field bs 16 16 < 8) &&
    (!bitAt e.perm.toNat 2 ||
      (e.t0base % 2 ^ 28 == 0 && e.t1base % 2 ^ 28 == 0 && p.ownsPage e.t0base && p.ownsPage e.t1base))

/-- The images of n entries from k. -/
def gzRead (s : State) (image : Word) : Nat → Nat → Except Stop (List (Nat × List Byte))
  | _, 0 => .ok []
  | k, n + 1 => do
    let bs ← s.loadBlock 64 (image + w64 (64 * k)) 64
    let rest ← gzRead s image (k + 1) n
    return (k, bs) :: rest

/-- VTINV (R481, R484). Where an entry of the range is bad, the good ones are copied all the same, and vwbase and gzimage are
taken up (DESIGN CHOICE, log 18). -/
def execVtinv (a b : BitVec 5) (s : State) : Out :=
  aside false complete (fun s => do
    needRing s 1
    let r2 := s.cp.regs2
    let all := decide (s.readS b = 0#64)
    let first := if all then 0 else (s.readS a).toNat
    let n := if all then r2.gzcount else (s.readS b).toNat
    legal (decide (first + n ≤ r2.gzcount))
    let used := fun (k : Nat) => decide (r2.gzfirst + first ≤ k) && decide (k < r2.gzfirst + first + n)
    if s.cmds.any (fun c => decide (c.thread.part = s.pn) && c.gz.any used) || s.partPending ||
        s.stagedUses used then
      .error (.wait .other)
    else
      let image := s.cp.regs.gzimage
      let es ← gzRead s image first n
      let good := es.filter (fun e => gzGood s.cp e.2)
      let gz := good.foldl (fun g e => Table.set g GzEntry.zero (r2.gzfirst + e.1) (gzParse e.2)) s.gz
      let s1 := { s with gz := gz }.onRegs (fun r => { r with vwbaseF := r.vwbase, gzimageF := r.gzimage })
      match es.find? (fun e => !gzGood s.cp e.2) with
      | some e => .error (.after { cause := cMachine, addr := image + w64 (64 * e.1) } s1)
      | none => return s1) s

def execPtinv (a b : BitVec 5) (s : State) : Out :=
  aside false complete (fun s => do
    needRing s 1
    if s.partPending then .error (.wait .other)
    else
      let pages := (s.readS b).toNat
      let p := s.cp
      let s1 := s.setPart s.pn { p with
        ptinv := if pages = 0 then [(0, 0, s.mem.logLen)] else p.ptinv ++ [((s.readS a).toNat, pages, s.mem.logLen)] }
      return (if pages = 0 then s1.onRegs (fun r => { r with ptrootF := r.ptroot }) else s1)) s

end

end Sys2Proof.Machine
end

