-- ==== Sys2Proof/Machine/Launch.lean ====
section
/-!
DEFINITION. Launches (14 R416 to R437): the packet and the legend, LAUNCH, LAUNCHC, LWAIT, LSTAT and END, the boot launch,
the partition unit with its gates and splits, thread start, completion, and coalescing nodes.
-/
namespace Sys2Proof.Machine

noncomputable section

/-! ## Packets and acceptance (R416 to R418, R420) -/

/-- A packet whose fields lie in their ranges (R416). -/
def packetParse (addr : Word) (bs : List Byte) : Option Packet :=
  let f := field bs
  let ok := decide (f 0 8 % 64 = 0) && decide (f 32 1 ≤ 7) && decide (f 33 1 ≤ 4) && decide (f 34 2 < 4) &&
    decide (f 36 1 ≤ 15) && decide (f 37 1 ≤ 15) && decide (f 38 2 = 0) && decide (f 56 8 = 0) && decide (f 112 16 = 0)
  if ok then
    some ⟨addr, w64 (f 0 8), w64 (f 8 8), w64 (f 16 8), w64 (f 24 8), f 32 1, f 33 1, bitAt (f 34 2) 0, bitAt (f 34 2) 1,
      f 36 1, f 37 1, w64 (f 40 8), w64 (f 48 8), (List.range 6).map (fun k => w64 (f (64 + 8 * k) 8))⟩
  else none

/-- Is a state of a launch final (R421)? -/
def LState.final (x : LState) : Bool :=
  match x with
  | .queued => false
  | .parked => false
  | .running => false
  | .complete => true
  | .rejected => true
  | .gateFailed => true
  | .gateFaulted => true

/-- STATE (R421). -/
def LState.code (x : LState) : Nat :=
  match x with
  | .queued => 1
  | .parked => 2
  | .running => 3
  | .complete => 4
  | .rejected => 5
  | .gateFailed => 6
  | .gateFaulted => 7

/-- Launch lid of a partition. -/
def Part.launch (p : Part) (lid : Nat) : Option Launch := (p.launches.find? (fun e => e.1 == lid)).map (fun e => e.2)

/-- Is there room for one more launch of priority k (R418, R420)? -/
def Part.hasRoom (p : Part) (k : Nat) : Bool :=
  decide ((Table.get p.queues [] k).length < 256) &&
    decide ((p.launches.filter (fun e => !e.2.state.final)).length < 4096)

/-- A packet accepted with the next launch id (R418, R420); final launches that R418 no longer keeps are forgotten, but for one
whose completion is still owed (R429). -/
def State.accept (s : State) (pn : Nat) (by_ : Option ThreadId) (k : Packet) : State :=
  let p := s.part pn
  let lid := p.nextLid
  let l : Launch := ⟨by_, k, none, .queued, 0, false, false, false, 0, 0, []⟩
  let kept := p.launches.filter (fun e => !e.2.state.final || e.2.owes || decide (lid < e.1 + 65536))
  (s.setPart pn { p with
    nextLid := lid + 1
    launches := kept ++ [(lid, l)]
    queues := Table.set p.queues [] k.prio (Table.get p.queues [] k.prio ++ [lid]) }).push (.partitionUnitTake pn)

def execLaunch (d a : BitVec 5) (s : State) : Out :=
  aside false complete (fun s => do
    let ea := s.readS a
    let bs ← s.loadBlock 64 ea 128
    match packetParse ea bs with
    | none => return s.writeS d minusOne
    | some k => do
      s.fenced
      if s.cp.hasRoom k.prio then return (s.accept s.pn (some s.cur.id) k).writeS d (w64 s.cp.nextLid)
      else .error (.wait .other)) s

/-! ## Status (R421, R422) -/

/-- The status word of a launch, 0 where the hub keeps none (R418). -/
def Part.status (p : Part) (lid : Nat) : Word :=
  match p.launch lid with
  | some l =>
    if lid + 65536 < p.nextLid then 0#64
    else w64 (l.state.code + 32 * b2n l.cfail + 256 * l.reason + 65536 * bitsAt l.ended 0 32)
  | none => 0#64

/-- The status word of the boot launch in the control window (R419). -/
def Part.bootStatus (p : Part) : Word := if p.bootBad then w64 (5 + 256 * 6) else p.status 1

def execLstat (d a : BitVec 5) (s : State) : Out :=
  aside false complete (fun s => .ok (s.writeS d (s.cp.status (s.readS a).toNat))) s

def execLwait (d a : BitVec 5) (s : State) : Out :=
  aside false complete (fun s =>
    let lid := (s.readS a).toNat
    let st := s.cp.status lid
    let open_ := decide (st ≠ 0#64) && decide (bitsAt st.toNat 0 4 < 4)
    if open_ && decide (lid ≠ s.cur.id.lid) then .error (.wait .other) else .ok (s.writeS d st)) s

/-! ## The boot launch (R419) -/

/-- The hub takes the packet that the host has completed in the launch window of a virtual function. -/
def State.bootPacket (s : State) (part : Nat) (packet : BitVec 1024) : State :=
  let p := s.part part
  if p.state ≠ .running || p.bootClosed then s
  else
    match packetParse 0#64 (bytesOf 128 packet.toNat) with
    | none => s.setPart part { p with boot := packet, bootBad := true }
    | some k => (s.setPart part { p with boot := 0, bootBad := false, bootClosed := true }).accept part none k

/-- A whole packet in the launch window of a virtual function. -/
def execBootLaunch (part : Nat) (packet : BitVec 1024) (s : State) : Out := .next (s.bootPacket part packet)

/-! ## Legends (R62 to R64) -/

/-- A loop entry of a legend, if its bytes allow it. -/
def entryParse (bs : List Byte) (o : Nat) : Option LoopEntry :=
  let f := field bs
  let e : LoopEntry := ⟨f o 1, f (o + 1) 1, f (o + 2) 1⟩
  if e.kind ≤ 2 ∧ e.ext ≤ 8 ∧ (e.bal = 0 ∨ (3 ≤ e.bal ∧ e.bal ≤ 8 ∧ e.kind ≠ 0)) ∧ f (o + 3) 13 = 0 then some e else none

/-- Entries that satisfy a condition. -/
def countOf (p : LoopEntry → Bool) (l : List LoopEntry) : Nat := (l.filter p).length

/-- A valid legend at an address (R62 to R64). -/
def legendParse (addr : Word) (bs : List Byte) : Option Legend :=
  let f := field bs
  let n := f 10 1
  let es := (List.range 3).map (fun k => entryParse bs (16 + 16 * k))
  let used := (es.take n).filterMap id
  let ok := decide (f 0 4 % 4 = 0) && decide (f 4 4 % 16 = 0) && decide (f 8 1 = 1) && decide (1 ≤ f 9 1) &&
    decide (f 9 1 ≤ 4) && decide (1 ≤ n) && decide (n ≤ 3) && decide (f 11 1 = 0) && decide (f 12 2 ≤ 512) &&
    [0, 16, 32, 48, 64].contains (f 14 1) && decide (f 15 1 = 0) && decide (used.length = n) &&
    (List.range 3).all (fun k => decide (k < n) || decide (f (16 + 16 * k) 16 = 0)) &&
    decide (countOf (fun e => e.kind == 1) used ≤ 1) && decide (countOf (fun e => e.kind == 2) used ≤ 1) &&
    decide (countOf (fun e => e.bal != 0) used ≤ 1)
  if ok then some ⟨addr + sext (BitVec.ofNat 32 (f 0 4)), f 4 4, f 9 1, f 12 2, f 14 1, used⟩ else none

/-! ## Gates (R315, R423, R516) -/

/-- What a hub transition comes to: it applied, it parked or waits to be offered again, it waits for an engine that owns a
line of the object (R23) or for a peer that no port reaches, it failed, or it faulted with the cause to log. -/
inductive HubTry where
  | legal (s : State)
  | park (w : Waiter) (s : State)
  | wait
  | fail
  | fault (cause : Nat)

/-- A transition that the hub applies on a launch's behalf at an address (R315, R516); a poisoned state byte counts as FAULT, and
an entry of the walk on a line that an engine owns, or on a peer that no port reaches, makes it wait (log 19). -/
def State.hubTransition (s : State) (pn lid : Nat) (va : Word) (code : Nat) : HubTry :=
  let p := s.part pn
  let o := s.objs pn
  if (s.walkBytes p va).any (fun a => s.owned a || s.cutOff a) then .wait
  else match s.scalar p true .read 1 va 1 with
  | .error c => .fault c
  | .ok _ =>
    match o.find va.toNat with
    | none => .fault cStIllegal
    | some (n, c, j) =>
      match s.stateByte p c j with
      | .error (e, _) => .fault e
      | .ok sb =>
        let w : Waiter := ⟨va, sb, n, j, .gate, code, ⟨pn, lid, 0⟩, 0, 0, 0, 0⟩
        let st := (s.mem.byte sb).toNat
        if s.objectOwned o n j sb || s.cutOff sb then .wait
        else if s.poisoned [sb] then .fault cMachine
        else
          match (o.automaton c.slot).attempt .gate st code with
          | .bad => .fault cStBad
          | .fault => .fault cStIllegal
          | .fail => .fail
          | .park => .park w s
          | .legal next wake => .legal (s.transition pn w c.slot st next wake)

/-- A parked gate: the launch waits in the object's queue, or is offered again where the unit is full (R315). -/
def State.parkGate (s : State) (pn lid : Nat) (w : Waiter) : State :=
  let s1 := s.onLaunch pn lid (fun l => { l with state := .parked })
  if s1.unitFull w.sb then s1.timer (.gateReoffer pn lid)
  else
    let o := s1.objs pn
    s1.setObjs pn { o with waiters := o.waiters ++ [w] }

/-- A gate that fails or faults ends the launch (R423); a violation has a record of its own beside it (R494). -/
def State.gateEnds (s : State) (pn lid : Nat) (k : Packet) (r : HubTry) : State :=
  match r with
  | .fault c => ((s.logViolation pn c k.gate).endLaunch pn lid .gateFaulted 0).logHub pn lid k.gate c
  | _ => s.endLaunch pn lid .gateFailed 0

/-! ## Splitting (R424 to R428) -/

/-- The cores of a partition, ascending. -/
def Part.cores (p : Part) : List Nat :=
  (List.range 64).flatMap (fun q => if p.quads.getLsbD q then rangeFrom (4 * q) 4 else [])

/-- The sheets of a partition, ascending (R28). -/
def Part.sheets (p : Part) : List Nat := (p.cores.map sheetOf).eraseDups

/-- The argument or extent that a source names (R63). -/
def Packet.source (k : Packet) (x : Nat) : Word :=
  match x with
  | 0 => k.ext0
  | 1 => k.ext1
  | 2 => k.ext2
  | n => k.args.getD (n - 3) 0#64

/-- A part of a spatial level: its pair and its entry range (R424, R428). -/
structure Piece where
  pair : Word × Word
  entries : Word × Word
  deriving DecidableEq, Repr

/-- A value that the hub reads for a split, or the cause and address of the read that failed (R516). -/
abbrev HubRead (α : Type) := Except (Nat × Word) α

/-- An entry of the offsets array (R428, R516). The hub reads it and the legend as they stand, on a line that an engine owns too,
and on a peer that no port reaches the read fails at once (DESIGN CHOICE, log 19). -/
def State.offAt (s : State) (p : Part) (base : Word) (i : Nat) : HubRead Nat :=
  let va := base + w64 (8 * i)
  match s.deviceRange p true .read 8 1 va with
  | .error e => .error e
  | .ok pas => if s.poisoned pas then .error (cMachine, va) else .ok (ofBytes (pas.map s.mem.byte))

/-- The search of R428 between lo and hi for the first place whose offset is at least a. -/
def offSearch (off : Nat → HubRead Nat) (a : Nat) : Nat → Nat → Nat → HubRead Nat
  | 0, lo, _ => .ok lo
  | f + 1, lo, hi =>
    if lo < hi then
      let mid := (lo + hi) / 2
      match off mid with
      | .error e => .error e
      | .ok v => if a ≤ v then offSearch off a f lo mid else offSearch off a f (mid + 1) hi
    else .ok lo

/-- r_k of R428, for k from the given one to P − 1, after r_(k−1). -/
def rowBounds (off : Nat → HubRead Nat) (start : Nat → Nat) (n : Nat) : Nat → Nat → Nat → HubRead (List Nat)
  | 0, _, _ => .ok []
  | m + 1, k, prev =>
    match offSearch off (start k) 65 prev n with
    | .error e => .error e
    | .ok r =>
      match rowBounds off start n m (k + 1) r with
      | .error e => .error e
      | .ok l => .ok (r :: l)

/-- The balanced split of n rows into P parts (R428). -/
def balanced (off : Nat → HubRead Nat) (n parts : Nat) : HubRead (List Piece) :=
  match off 0, off n with
  | .error e, _ => .error e
  | _, .error e => .error e
  | .ok o0, .ok on =>
    let t := if o0 ≤ on then on - o0 else 0
    let start := fun (k : Nat) => o0 + k * t / parts
    match rowBounds off start n (parts - 1) 1 0 with
    | .error e => .error e
    | .ok l =>
      let r := 0 :: l ++ [n]
      .ok ((List.range parts).map (fun k =>
        ⟨(w64 (r.getD k 0), w64 (r.getD (k + 1) 0)), (w64 (start k), w64 (start (k + 1)))⟩))

/-- The parts of a level of extent n in P parts (R424). -/
def State.pieces (s : State) (p : Part) (k : Packet) (e : LoopEntry) (parts : Nat) : HubRead (List Piece) :=
  let n := (k.source e.ext).toNat
  if parts = 0 then .ok []
  else if e.bal = 0 then
    .ok ((List.range parts).map (fun i => ⟨(w64 (i * n / parts), w64 ((i + 1) * n / parts)), (0#64, 0#64)⟩))
  else balanced (s.offAt p (k.source e.bal)) n parts

/-- A part of the whole split before its core is chosen: its sheet and core where a level fixes them, and its parts. -/
structure Cut where
  sheet : Option Nat
  core : Option Nat
  sheetPiece : Option Piece
  corePiece : Option Piece
  deriving DecidableEq, Repr

/-- The parts of a cores level over given cores. -/
def State.coreCuts (s : State) (p : Part) (k : Packet) (tpc : Nat) (e : LoopEntry) (cs : List Nat)
    (sheet : Option Nat) (sp : Option Piece) : HubRead (List Cut) :=
  let parts := min (cs.length * tpc) (k.source e.ext).toNat
  (s.pieces p k e parts).map (fun l => l.zipIdx.map (fun x => ⟨sheet, some (cs.getD (x.2 / tpc) 0), sp, some x.1⟩))

/-- Answers joined; the first that failed where one did. -/
def joinAll {α : Type} : List (HubRead (List α)) → HubRead (List α)
  | [] => .ok []
  | .error e :: _ => .error e
  | .ok a :: r => (joinAll r).map (fun b => a ++ b)

/-- The parts of a launch in the order of their ranks (R424, R425). -/
def State.cuts (s : State) (p : Part) (k : Packet) (g : Legend) (tpc : Nat) : HubRead (List Cut) :=
  let sheetL := g.levels.find? (fun e => e.kind == 2)
  let coreL := g.levels.find? (fun e => e.kind == 1)
  match sheetL with
  | some e =>
    let w := p.sheets
    let parts := min w.length (k.source e.ext).toNat
    match s.pieces p k e parts with
    | .error f => .error f
    | .ok l =>
      joinAll (l.zipIdx.map (fun x =>
        let sheet := w.getD x.2 0
        match coreL with
        | some c => s.coreCuts p k tpc c (p.cores.filter (fun n => sheetOf n == sheet)) (some sheet) (some x.1)
        | none => .ok [⟨some sheet, none, some x.1, none⟩]))
  | none =>
    match coreL with
    | some c => s.coreCuts p k tpc c p.cores none none
    | none => .ok [⟨none, none, none, none⟩]

/-- The pair of a level in a part (R66). -/
def levelPair (k : Packet) (c : Cut) (e : LoopEntry) : Word × Word :=
  match e.kind with
  | 0 => (0#64, k.source e.ext)
  | 1 => (c.corePiece.map (fun x => x.pair)).getD (0#64, 0#64)
  | _ => (c.sheetPiece.map (fun x => x.pair)).getD (0#64, 0#64)

/-- The entry range of a part (R66). -/
def cutEntries (g : Legend) (c : Cut) : Word × Word :=
  match g.levels.find? (fun e => e.bal != 0) with
  | some e => ((if e.kind = 1 then c.corePiece else c.sheetPiece).map (fun x => x.entries)).getD (0#64, 0#64)
  | none => (0#64, 0#64)

/-- Threads of a partition that run on a core or are assigned to it (R426). -/
def State.loadOf (s : State) (pn core : Nat) : Nat :=
  (s.started.filter (fun t => t.id.part == pn && t.place.core == core)).length +
    ((s.part pn).records.filter (fun r => r.core == core)).length

/-- Records and threads of a launch on a core. -/
def State.launchOn (s : State) (pn lid core : Nat) : Nat :=
  (s.started.filter (fun t => t.id.part == pn && t.id.lid == lid && t.place.core == core)).length +
    ((s.part pn).records.filter (fun r => r.id.lid == lid && r.core == core)).length

/-- The candidate with the least load, the lowest core number on equal ones. -/
def leastLoaded (load : Nat → Nat) : List Nat → Option Nat
  | [] => none
  | c :: r =>
    match leastLoaded load r with
    | some d => if load d < load c then some d else some c
    | none => some c

/-- The core of a part (R426). -/
def State.chooseCore (s : State) (pn lid tpc : Nat) (c : Cut) : Nat :=
  match c.core with
  | some n => n
  | none =>
    let cs := (s.part pn).cores.filter (fun n => match c.sheet with
      | some w => sheetOf n == w
      | none => true)
    let ok := cs.filter (fun n => decide (s.launchOn pn lid n < tpc))
    (leastLoaded (s.loadOf pn) ok).getD 0

/-- The records of the parts from rank r on. -/
def State.putRecords (s : State) (pn lid tpc : Nat) (k : Packet) (g : Legend) : Nat → List Cut → State
  | _, [] => s
  | r, c :: rest =>
    let id : ThreadId := ⟨pn, lid, r⟩
    let pairs := (List.range 3).map (fun i => ((g.levels[i]?).map (levelPair k c)).getD (0#64, 0#64))
    let rec_ : Record := ⟨id, s.chooseCore pn lid tpc c, k.prio, false, pairs, cutEntries g c⟩
    let p := s.part pn
    State.putRecords ((s.setPart pn { p with records := p.records ++ [rec_] }).timer (.recordAging id)) pn lid tpc k g
      (r + 1) rest

/-- Does nothing of a launch still run (R429)? -/
def State.launchDone (s : State) (pn lid : Nat) : Bool :=
  match (s.part pn).launch lid with
  | some l =>
    decide (l.state = .running) && decide (l.ended = l.total) &&
      !s.cmds.any (fun c => c.thread.part == pn && c.thread.lid == lid) &&
      !s.mlq.any (fun o => o.thread.part == pn && o.thread.lid == lid)
  | none => false

/-- Threads per core of a launch (R416, R423). -/
def tpcOf (k : Packet) (g : Legend) : Nat := if k.tpc = 0 then g.threads else k.tpc

/-- Steps 2 and 3 of R423; a violation by the hub's reads is logged (R30, R494, R516). -/
def State.split (s : State) (pn lid : Nat) (k : Packet) : State :=
  let p := s.part pn
  let reject := fun (r : Nat) => s.endLaunch pn lid .rejected r
  match s.deviceRange p true .read 64 1 k.legend with
  | .error (c, a) => (s.logViolation pn c a).endLaunch pn lid .rejected 2
  | .ok pas =>
    if s.poisoned pas then reject 2
    else
      match legendParse k.legend (pas.map s.mem.byte) with
      | none => reject 1
      | some g =>
        let tpc := tpcOf k g
        if g.threads < tpc then reject 4
        else if p.regs.stkslot.toNat < g.stack then reject 5
        else
          match s.cuts p k g tpc with
          | .error (c, a) => (s.logViolation pn c a).endLaunch pn lid .rejected 3
          | .ok cs =>
            let s1 := s.onLaunch pn lid (fun l => { l with state := .running, legend := some g, total := cs.length })
            let s2 := s1.putRecords pn lid tpc k g 0 cs
            if cs.isEmpty then s2.push (.launchComplete pn lid) else s2.redispatch pn

/-- The launch at the head of the lowest-numbered queue that holds one (R423). -/
def Part.nextTaken (p : Part) : Option (Nat × Launch) :=
  match (List.range 8).find? (fun q => !(Table.get p.queues [] q).isEmpty) with
  | none => none
  | some q => (Table.get p.queues [] q).head?.bind (fun lid => (p.launch lid).map (fun l => (lid, l)))

/-- The partition unit takes the head of the lowest-numbered queue that holds a launch (R423). -/
def execPartitionUnitTake (pn : Nat) (s : State) : Out :=
  let p := s.part pn
  match (List.range 8).find? (fun q => !(Table.get p.queues [] q).isEmpty) with
  | none => .next s
  | some q =>
    match Table.get p.queues [] q with
    | [] => .next s
    | lid :: rest =>
      let s1 := s.setPart pn { p with queues := Table.set p.queues [] q rest }
      match p.launch lid with
      | none => .next s1
      | some l =>
        let k := l.packet
        if k.gated && !l.passed then
          match s1.hubTransition pn lid k.gate k.gcode with
          | .legal s2 => .next (s2.split pn lid k)
          | .park w s2 => .next (s2.parkGate pn lid w)
          | .wait => .next (s.push (.partitionUnitTake pn))
          | r => .next (s1.gateEnds pn lid k r)
        else .next (s1.split pn lid k)

/-- A gate that found its unit full is offered again (R315). -/
def execGateReoffer (pn lid : Nat) (s : State) : Out :=
  match (s.part pn).launch lid with
  | none => .next s
  | some l =>
    if l.state ≠ .parked || (s.objs pn).waiters.any (fun w => w.kind == .gate && w.thread.lid == lid) then .next s
    else
      match s.hubTransition pn lid l.packet.gate l.packet.gcode with
      | .legal s2 => .next (s2.passGate pn lid)
      | .park w s2 => .next (s2.parkGate pn lid w)
      | .wait => .next (s.timer (.gateReoffer pn lid))
      | r => .next (s.gateEnds pn lid l.packet r)

/-! ## Starting a thread (R66, R67, R427, R432, R470) -/

/-- The thread slots of a core that no thread holds. -/
def State.freeSlots (s : State) (core : Nat) : List Nat :=
  (List.range 4).filter (fun k => !s.onChip.any (fun t => t.place.core == core && t.place.slot == k))

/-- Threads of a launch in the slots of a core (R432). -/
def State.running (s : State) (pn lid core : Nat) : Nat :=
  (s.onChip.filter (fun t => t.id.part == pn && t.id.lid == lid && t.place.core == core)).length

/-- May a thread of a launch take one of the core's slots? -/
def State.slotFor (s : State) (id : ThreadId) (core : Nat) : Bool :=
  match (s.part id.part).launch id.lid with
  | some l =>
    match l.legend with
    | some g => decide (s.running id.part id.lid core < tpcOf l.packet g) && !(s.freeSlots core).isEmpty
    | none => false
  | none => false

/-- The slot that a thread takes on a core; which of the free ones the spec leaves open (log 13). -/
def State.takeSlot (s : State) (core : Nat) : Nat :=
  let l := s.freeSlots core
  l.getD (Config.choice s.fresh (2 ^ 58 + core) % l.length) 0

/-- The lowest-numbered free stack (R427). -/
def Part.freeStack (p : Part) : Option Nat :=
  (List.range p.regs.stkcount.toNat).find? (fun k => !p.stackSlots.contains k)

/-- The handler registers of ring k at a start: khandler from kdefh and krec from kdefr (R470). -/
def PartRegs2.startRing (r : PartRegs2) (k core slot : Nat) : RingRegs :=
  let area := r.defs k 7
  ⟨0#64, r.defs k 6, 0#64, 0#64, if area = 0#64 then 0#64 else area + w64 (1024 * (4 * core + slot)), 0#64⟩

/-- The registers of R66. -/
def startRegs (rec_ : Record) (k : Packet) (total : Nat) (sp : Word) : Table Word :=
  let pr := fun (i : Nat) => rec_.pairs.getD i (0#64, 0#64)
  let args := (List.range 6).map (fun i => k.args.getD i 0#64)
  let vals := [(pr 0).1, (pr 0).2, (pr 1).1, (pr 1).2, (pr 2).1, (pr 2).2, w64 rec_.id.rank, w64 total, w64 rec_.id.lid,
    if rec_.id.lid = 1 then 0#64 else k.addr + 64#64] ++ args ++ [rec_.entries.1, rec_.entries.2]
  Table.set ((vals.zipIdx).foldl (fun t v => Table.set t 0#64 (v.2 + 1) v.1) []) 0#64 30 sp

/-- A record starts in a slot of its core (R66, R67, R144). -/
def State.start (s : State) (r : Record) (l : Launch) (g : Legend) (stack : Option Nat) : State :=
  let pn := r.id.part
  let p := s.part pn
  let slot := s.takeSlot r.core
  let sp := match stack with
    | some k => p.regs.stkbase + w64 k * p.regs.stkslot + w64 g.stack
    | none => 0#64
  let ring := fun (k : Nat) => p.regs2.startRing k r.core slot
  let t : Thread := { Thread.reset with
    id := r.id
    place := ⟨r.core, r.core, slot, l.packet.prio, stack, none, 0, 0, 0, false, none, true⟩
    pc := g.entry
    s := startRegs r l.packet l.total sp
    rings := ⟨ring 1, ring 2, ring 3⟩ }
  let c := s.core r.core
  let aging := Instr.recordAging r.id
  let s1 := (s.setCore r.core (c.setLat slot { Lat.zero with weight := 8 - l.packet.prio })).setPart pn
    { p with
      records := p.records.filter (fun x => x.id != r.id)
      stackSlots := match stack with
        | some k => p.stackSlots ++ [k]
        | none => p.stackSlots }
  { s1 with others := s1.others ++ [t], timers := s1.timers.filter (fun i => i != aging) }

/-- A record starts, if its core has a slot and it has a stack (R432). -/
def State.tryStart (s : State) (r : Record) : Option State :=
  let p := s.part r.id.part
  match p.launch r.id.lid with
  | some l =>
    match l.legend with
    | some g =>
      if !s.slotFor r.id r.core || !p.cores.contains r.core then none
      else if g.stack = 0 then some (s.start r l g none)
      else
        match p.freeStack with
        | some k => some (s.start r l g (some k))
        | none => none
    | none => none
  | none => none

/-! ## END (R430) -/

/-- A thread leaves its core: its lane groups, its rows, its slot and its place among the waiters are free (R389, R486). -/
def State.vacate (s : State) (t : Thread) : State :=
  let s := s.releaseRows t
  let c := s.core t.place.core
  let drop := fun (x : List Thread) => x.filter (fun u => u.id != t.id)
  let mine := [Instr.laneReclaim t.id, .wfeTimeout t.id, .stagedResend t.id]
  let s1 := s.setCore t.place.core { c.setLat t.place.slot Lat.zero with waiters := c.waiters.filter (fun k => k != t.place.slot) }
  let here := s.active && s.cur.id == t.id
  let s2 := { s1 with
    cur := if here then Thread.reset else s1.cur
    active := s1.active && !here
    others := drop s1.others
    timers := s1.timers.filter (fun i => !mine.contains i) }
  ((s2.released t.place.core).lanes t.place.core).redispatch t.id.part

/-- Is a thread the last of its claim group on its core (R263, R264)? -/
def State.lastOfGroup (s : State) (t : Thread) : Bool :=
  !s.onChip.any (fun u => u.id != t.id && u.id.part == t.id.part && u.id.lid == t.id.lid && u.place.core == t.place.core)

/-- The tables of a claim group on a core. -/
def Core.groupTables (c : Core) (pn lid : Nat) : List (Nat × HTable) :=
  c.tables.filterMap (fun e =>
    match e.2 with
    | some t => if t.part = pn ∧ t.lid = lid then some (e.1, t) else none
    | none => none)

/-- The tables of a claim group leave a core. -/
def State.dropTables (s : State) (core pn lid : Nat) : State :=
  let c := s.core core
  s.setCore core ((c.groupTables pn lid).foldl (fun c e => c.setTable e.1 none) c)

/-- The current thread ends. -/
def State.endCurrent (s : State) : State :=
  let t := s.cur
  let pn := t.id.part
  let s1 := if s.lastOfGroup t then s.dropTables t.place.core pn t.id.lid else s
  let p := s1.part pn
  let s2 := s1.setPart pn { p with stackSlots := match t.place.stack with
    | some k => p.stackSlots.filter (fun x => x != k)
    | none => p.stackSlots }
  let s3 := s2.onLaunch pn t.id.lid (fun l => { l with ended := l.ended + 1, ranksEnded := l.ranksEnded ++ [t.id.rank] })
  let s4 := s3.vacate t
  match (s4.part pn).launch t.id.lid with
  | some l => if l.ended = l.total then s4.push (.launchComplete pn t.id.lid) else s4
  | none => s4

def execEndThread (s : State) : Out :=
  aside false id (fun s =>
    if !s.cur.viq.isEmpty || (decide (0 < s.cur.conf.tgrant) && s.matBusy) then .error (.wait .other)
    else .ok s.endCurrent) s

/-! ## Coalescing nodes (R434 to R437) -/

/-- Has a batch's launch reached a final state? The open batch has none. -/
def Part.batchFinal (p : Part) (b : Batch) : Bool :=
  match b.lid with
  | none => false
  | some l =>
    match p.launch l with
    | some x => x.state.final
    | none => true

/-- Is a node active (R435)? -/
def Part.nodeActive (p : Part) (n : Node) : Bool := n.batches.any (fun b => !p.batchFinal b)

/-- The active nodes of a partition. -/
def State.nodesOf (s : State) (pn : Nat) : List Node := (s.objs pn).nodes.filter (s.part pn).nodeActive

/-- The nodes of a partition with one put in place of that of its descriptor; inactive ones are forgotten. -/
def State.putNode (s : State) (pn : Nat) (n : Node) : State :=
  let o := s.objs pn
  let rest := (s.nodesOf pn).filter (fun x => x.desc != n.desc)
  s.setObjs pn { o with nodes := rest ++ [n] }

/-- The open batch of a node. -/
def Node.openBatch (n : Node) : Option Batch := n.batches.find? (fun b => b.lid.isNone)

/-- The node whose open batch launch lid is. -/
def Node.launched (n : Node) (lid : Nat) : Node :=
  { n with batches := n.batches.map (fun x => if x.lid.isNone then { x with lid := some lid } else x) }

/-- The open batch is launched (R436). -/
def State.launchBatch (s : State) (pn : Nat) (n : Node) : State :=
  match n.openBatch with
  | none => s
  | some b =>
    let k := { n.packet with ext0 := w64 b.count, args := (n.buf + w64 (8 * b.start)) :: n.packet.args.tail }
    let lid := (s.part pn).nextLid
    let s1 := s.accept pn none k
    let s2 := s1.putNode pn (n.launched lid)
    let flush := Instr.nodeFlush pn n.desc.toNat
    { s2 with timers := s2.timers.filter (fun i => i != flush), inputs := s2.inputs.filter (fun i => i != flush) }

/-- A node whose descriptor and template are valid, as its first LAUNCHC activates it (R434, R435). -/
def nodeParse (desc : Word) (bs : List Byte) (pkt : Packet) : Option Node :=
  let f := field bs
  let ok := decide (f 8 8 % 8 = 0) && decide (1 ≤ f 16 4) && decide (f 16 4 ≤ 65536) && decide (1 ≤ f 20 4) &&
    decide (f 20 4 ≤ f 16 4) && decide (4096 ≤ f 24 4) && decide (f 24 4 ≤ 1048576) && decide (f 28 36 = 0)
  if ok then some ⟨desc, pkt, w64 (f 8 8), f 16 4, f 20 4, f 24 4, 0, [], 0⟩ else none

/-- The record joins the open batch at slot i (R436). -/
def Node.join (n : Node) (i lid : Nat) : Node :=
  match n.openBatch with
  | some _ =>
    { n with next := i + 1, batches := n.batches.map (fun x => if x.lid.isNone then { x with count := x.count + 1 } else x) }
  | none => { n with next := i + 1, batches := n.batches ++ [⟨i, 1, none⟩], parent := lid }

/-- LAUNCHC at an active node, or at one that it activates. -/
def launchcBody (d b : BitVec 5) (n : Node) (s : State) : Except Stop State := do
  let pn := s.pn
  let i := if n.next = n.cap then 0 else n.next
  let busy := n.batches.any (fun x => decide (x.start ≤ i) && decide (i < x.start + x.count) && !s.cp.batchFinal x)
  if busy then return s.writeS d minusOne
  else do
    let wrap := decide (i = 0) && n.openBatch.isSome
    let sofar := if wrap then 0 else (n.openBatch.map (fun x => x.count)).getD 0
    let full := decide (n.thresh ≤ sofar + 1)
    let due := b2n wrap + b2n full
    let p := s.cp
    if decide (0 < due) && !(p.hasRoom n.packet.prio && (decide (due < 2) ||
        (decide ((Table.get p.queues [] n.packet.prio).length < 255) &&
          decide ((p.launches.filter (fun e => !e.2.state.final)).length < 4095)))) then .error (.wait .other)
    else do
      let s1 ← s.store (n.buf + w64 (8 * i)) 8 (s.readS b).toNat
      let s2 := if wrap then s1.launchBatch pn n else s1
      let n1 := if wrap then n.launched p.nextLid else n
      let n2 := n1.join i s.cur.id.lid
      let s3 := s2.putNode pn n2
      let s4 := if n1.openBatch.isNone then s3.timer (.nodeFlush pn n.desc.toNat) else s3
      return (if full then s4.launchBatch pn n2 else s4).writeS d (w64 i)

def execLaunchc (d a b : BitVec 5) (s : State) : Out :=
  aside false complete (fun s => do
    s.fenced
    let ea := s.readS a
    match (s.nodesOf s.pn).find? (fun n => n.desc == ea) with
    | some n => launchcBody d b n s
    | none => do
      let bs ← s.loadBlock 64 ea 64
      let tp := w64 (field bs 0 8)
      let ts ← s.loadBlock 64 tp 128
      match (packetParse tp ts).bind (nodeParse ea bs) with
      | none => return s.writeS d (0#64 - 3#64)
      | some n => if 64 ≤ (s.nodesOf s.pn).length then return s.writeS d (0#64 - 2#64) else launchcBody d b n s) s

/-- The flush of a node's open batch, when its queue has room (R436, R437). -/
def execNodeFlush (pn node : Nat) (s : State) : Out :=
  match (s.nodesOf pn).find? (fun n => n.desc.toNat == node) with
  | none => .next s
  | some n => if (s.part pn).hasRoom n.packet.prio then .next (s.launchBatch pn n) else .next (s.push (.nodeFlush pn node))

/-! ## Completion (R429) -/

/-- The open batches whose first record a launch's thread appended are due (R436). -/
def State.flushOf (s : State) (pn lid : Nat) : State :=
  (s.nodesOf pn).foldl (fun s n =>
    if n.parent = lid && n.openBatch.isSome then
      let f := Instr.nodeFlush pn n.desc.toNat
      { s with timers := s.timers.filter (fun i => i != f) }.push f
    else s) s

/-- CFAIL of a launch, with its record (R429, R490). -/
def State.completionFails (s : State) (pn lid : Nat) (va : Word) (cause : Nat) : State :=
  ((s.logViolation pn cause va).onLaunch pn lid (fun l => { l with cfail := true })).logHub pn lid va cause

/-- The completion transition of a complete launch, which waits where the object does (R429). -/
def State.completion (s : State) (pn lid : Nat) (k : Packet) : State :=
  let s1 := s.onLaunch pn lid (fun l => { l with owes := false })
  match s1.hubTransition pn lid k.compl k.ccode with
  | .legal s2 => s2
  | .fault c => s1.completionFails pn lid k.compl c
  | .wait => (s.onLaunch pn lid (fun l => { l with owes := true })).push (.launchComplete pn lid)
  | _ => s1.completionFails pn lid k.compl 0

/-- Would a launch's transition at an address wait? -/
def State.hubWaits (s : State) (pn lid : Nat) (va : Word) (code : Nat) : Bool :=
  match s.hubTransition pn lid va code with
  | .wait => true
  | _ => false

/-- Can the completion transition that a launch owes come now? -/
def State.completionDue (s : State) (pn lid : Nat) : Bool :=
  match (s.part pn).launch lid with
  | some l => l.owes && !s.hubWaits pn lid l.packet.compl l.packet.ccode
  | none => true

/-- Does the launch that the partition unit takes next wait at its gate? -/
def State.takeWaits (s : State) (pn : Nat) : Bool :=
  match (s.part pn).nextTaken with
  | some (lid, l) => l.packet.gated && !l.passed && s.hubWaits pn lid l.packet.gate l.packet.gcode
  | none => false

/-- A launch completes: STATE is 4 first, and its completion transition follows (R429). -/
def execLaunchComplete (pn lid : Nat) (s : State) : Out :=
  match (s.part pn).launch lid with
  | none => .next s
  | some l =>
    if s.launchDone pn lid then
      let s1 := (s.endLaunch pn lid .complete 0).flushOf pn lid
      .next (if l.packet.completes then s1.completion pn lid l.packet else s1)
    else if l.owes then .next (s.completion pn lid l.packet)
    else .next s

/-- A record that has waited 1 ms is served as priority 0 (R432). -/
def execRecordAging (t : ThreadId) (s : State) : Out :=
  let p := s.part t.part
  let s1 := s.setPart t.part { p with records := p.records.map (fun r => if r.id = t then { r with aged := true } else r) }
  let mark := fun (h : Thread) => if h.id = t then { h with place := { h.place with aged := true } } else h
  let s2 : State := { s1 with saved := s1.saved.map (fun e => (mark e.1, e.2)) }
  .next (s2.redispatch t.part)

end

end Sys2Proof.Machine
end

