-- ==== Sys2Proof/Machine/Context.lean ====
section
/-!
DEFINITION. The context image, CTXSAVE and CTXLOAD (16 R483, R487, R488; log 9), pre-emption and resumption (16 R486 to
R489; 13 R391; 08 R265), YIELD (14 R431), lane reclaim (05 R151) and the dispatch of records (14 R432).
-/
namespace Sys2Proof.Machine

noncomputable section

/-! ## Words of an image (log 9)

An image is a list of 64-bit words, as numbers. -/

/-- A number as n words. -/
def wordsOf : Nat → Nat → List Nat
  | 0, _ => []
  | n + 1, x => x % 2 ^ 64 :: wordsOf n (x / 2 ^ 64)

/-- The number that words hold. -/
def ofWords : List Nat → Nat
  | [] => 0
  | a :: r => a + 2 ^ 64 * ofWords r

/-- A list with its length first. -/
def putList {α : Type} (f : α → List Nat) (l : List α) : List Nat := l.length :: l.flatMap f

/-- The code of a token FIFO. -/
def Fifo.code (f : Fifo) : Nat :=
  match f with
  | .lsvx => 0
  | .vxls => 1
  | .lsmx => 2
  | .mxls => 3

/-- The six loop registers. -/
def putLoops (l : Loops) : List Nat := [l.lc0, l.lb0, l.le0, l.lc1, l.lb1, l.le1].map BitVec.toNat

/-- A pair of a key and a word. -/
def putKey (e : Nat × Word) : List Nat := [e.1, e.2.toNat]

/-- A member of a convoy, by its instruction word. -/
def putMember (m : Member) : List Nat := [(encode m.instr).toNat, m.sa.toNat, m.sb.toNat, b2n m.chk]

/-- The fmask that the members of a convoy captured together, where it is not 0. -/
def putFmask (l : List Member) : List Nat :=
  let x := (l.head?.map (fun m => m.fmask.toNat)).getD 0
  if x = 0 then [0] else 1 :: wordsOf 64 x

/-- A convoy. -/
def putConvoy (c : Convoy) : List Nat :=
  [c.pc.toNat, c.vl, c.vtype.toNat, c.grant, c.tgrant, c.done, c.instret.toNat, b2n c.last.isSome, (c.last.getD 0#64).toNat,
    b2n c.chk, c.late, b2n c.bad] ++
    putLoops c.loops ++ putList putMember c.members ++ putFmask c.members ++ putList (fun n => [n]) c.popped ++
    putList (fun f => [f.code]) c.pushes ++ (rangeFrom 1 31).map (fun k => (Table.get c.sregs 0#64 k).toNat) ++
    putList putKey c.pops

/-- A pending register write. -/
def putWrite (w : RegWrite) : List Nat :=
  match w with
  | .v n m x => [0, n] ++ wordsOf 256 m.toNat ++ wordsOf 256 x.toNat
  | .p n m x => [1, n] ++ wordsOf 64 m.toNat ++ wordsOf 64 x.toNat
  | .m n m x => [2, n] ++ wordsOf 512 m.toNat ++ wordsOf 512 x.toNat

/-- A run of an access. -/
def putRun (r : StoreRun) : List Nat := [r.reg, r.src, r.pa, r.bit, r.len]

/-- The stream fields of an access that waits, and whether it is one to a peer. -/
def putHeld (h : Held) : List Nat := [h.ag, h.held.toNat, h.ea.toNat, h.stamp, b2n h.undo.isSome]

/-- A number of a list. -/
def putNat (n : Nat) : List Nat := [n]

/-- The code of an atomic update. -/
def amoCode (op : AmoOp) : Nat :=
  match op with
  | .swap => 0
  | .add => 1
  | .and => 2
  | .or => 3
  | .xor => 4
  | .min => 5
  | .max => 6
  | .minu => 7
  | .maxu => 8
  | .cas => 9
  | .fadd => 10

/-- The code of an update of VAMO. -/
def VamoOp.code (op : VamoOp) : Nat :=
  match op with
  | .add => 0
  | .min => 1
  | .max => 2
  | .fadd => 3

/-- A scalar access. -/
def putScalarOp (op : ScalarOp) : List Nat :=
  match op with
  | .load d n sx => [0, d.toNat, n, b2n sx]
  | .store bs rel => 1 :: b2n rel :: putList (fun (b : Byte) => [b.toNat]) bs
  | .amo op d n v e => [2, amoCode op, d.toNat, n, v, e]
  | .ldk d => [3, d.toNat]

/-- An entry of the pending work. -/
def putEntry (e : VEntry) : List Nat :=
  match e with
  | .convoy c => 0 :: putConvoy c
  | .write ws => 1 :: putList putWrite ws
  | .access h load mv runs => 2 :: putHeld h ++ [b2n load, b2n mv] ++ putList putRun runs
  | .reply id regs => [3, id] ++ putList putNat regs
  | .tile h w fences runs =>
    4 :: putHeld h ++ [w] ++ putList (fun (e : Nat × Nat) => [e.1, e.2]) fences ++ putList putRun runs
  | .vamo h op vt es => 5 :: putHeld h ++ [op.code, vt.toNat] ++
      putList (fun (e : Nat × Nat × Nat × List Nat) => [e.1, e.2.1, e.2.2.1] ++ putList putNat e.2.2.2) es
  | .scalar h pas op => 6 :: putHeld h ++ putList putNat pas ++ putScalarOp op

/-- The number of a register with its grade mask tag, and its bits: v, m and p registers by their code. -/
def VRegs.coded (r : VRegs) (k : Nat) : Nat × Nat :=
  match k / 32 with
  | 0 => (0, (r.vreg (k % 32)).toNat)
  | 1 => ((r.mreg (k % 32)).tag.toNat, (r.mreg (k % 32)).bits.toNat)
  | _ => (0, (r.preg (k % 32)).toNat)

/-- The registers of an image of CTXSAVE, which writes every one that is not ZERO, below its high-water mark (R487, R488; log
9). -/
def putRegs (r : VRegs) : List Nat :=
  putList (fun (e : Nat × SaveTag) =>
    [e.1, e.2.high, (r.coded e.1).1] ++ wordsOf (cdiv e.2.high 8) (r.coded e.1).2) r.tags

/-- The valid and tombstone bits of a slot. -/
def HSlot.mark (x : HSlot) : Nat :=
  match x with
  | .empty => 0
  | .tombstone => 1
  | .live _ _ => 2

/-- The words of a slot under a layout (08 R270). -/
def HSlot.words (layout : Nat) (x : HSlot) : List Nat :=
  let kv := match x with
    | .live k v => (k.toNat, v.toNat)
    | _ => (0, 0)
  match layout with
  | 0 => [kv.1 % 2 ^ 32 + 2 ^ 32 * (kv.2 % 2 ^ 32)]
  | 1 => [kv.1, kv.2 % 2 ^ 64]
  | _ => [kv.1, kv.2 % 2 ^ 64, kv.2 / 2 ^ 64, 0]

/-- A hash table: its descriptor and status, two bits for each slot, 16 for each bucket, and its buckets as they lie on chip
(08 R265, R270). -/
def putTable (e : Nat × HTable) : List Nat :=
  let t := e.2
  let slot := fun (k j : Nat) => Table.get t.slots HSlot.empty (8 * k + j)
  let marks := fun (k : Nat) => (List.range 8).foldl (fun a j => a + (slot k j).mark * 4 ^ j) 0
  [e.1, t.part, t.lid, t.b, t.layout, t.vfmt, t.action, t.seed.toNat, t.sbase.toNat, t.scap, t.scnt, b2n t.spilled,
    b2n t.sfull] ++
    (List.range (2 ^ t.b / 4)).map (fun w => (List.range 4).foldl (fun a k => a + marks (4 * w + k) * 2 ^ (16 * k)) 0) ++
    (List.range (2 ^ t.b)).flatMap (fun k => (List.range (8 / 2 ^ t.layout)).flatMap (fun j => (slot k j).words t.layout))

/-- The scalar section: s1 to s31, the status registers, the loop and dimension registers, vtype, vl and vfirst; the save
engine adds the ring registers and the PC. -/
def putScalar (t : Thread) (engine : Bool) : List Nat :=
  let u := t.user
  let x := t.dims
  let ring := fun (r : RingRegs) => [r.status, r.handler, r.epc, r.cause, r.record, r.scratch].map BitVec.toNat
  putList putKey t.s ++ [u.ustatus, u.uhandler, u.uepc, u.ucause, u.fflags, u.vfirst, u.stst].map BitVec.toNat ++
    putLoops t.loops ++ [x.dl0, x.dl1, x.dl2, x.ds0, x.ds1, x.ds2, x.dx0, x.dx1, x.dx2].map BitVec.toNat ++
    [t.conf.vtype.toNat, t.conf.vl] ++
    (if engine then t.pc.toNat :: ring t.rings.d ++ ring t.rings.h ++ ring t.rings.m else List.replicate 19 0)

/-- The sections of an image between its header and its registers (R487). -/
def putFront (t : Thread) (tags : List Nat) (engine : Bool) : List Nat :=
  putScalar t engine ++
    putList (fun (e : Nat × Nat) => [e.1, e.2]) t.conf.counters ++ wordsOf 64 t.conf.fmask.toNat ++
    putList (fun n => [n]) tags ++ [b2n t.mat.chk, t.mat.unchk.toNat, t.mat.redo.toNat] ++
    (List.range 8).flatMap (fun k => putList (fun w => [w.toNat]) (t.queue k)) ++
    [t.tok.lsvx, t.tok.vxls, t.tok.lsmx, t.tok.mxls] ++ putList putEntry t.viq

/-- The places of the accumulator words of tiles, each in n rows, two to a word of an image. -/
def accPlaces (n : Nat) (tiles : List Nat) : List Nat :=
  tiles.flatMap (fun k => (List.range n).flatMap (fun r => (List.range 16).map (fun j => 1024 * r + 32 * k + 2 * j)))

/-- The sections after the registers: the tables, and the tiles written, with their words in all n rows of the thread. -/
def putBack (n : Nat) (tiles : List Nat) (acc : Table (BitVec 32)) (tables : List (Nat × HTable)) : List Nat :=
  let word := fun (k : Nat) => (Table.get acc 0#32 k).toNat
  putList putTable tables ++ putList (fun n => [n]) tiles ++
    (accPlaces n tiles).map (fun k => word k + 2 ^ 32 * word (k + 1))

/-- The words of an image of CTXSAVE after its header. -/
def putBody (t : Thread) (tags : List Nat) (acc : Table (BitVec 32)) : List Nat :=
  putFront t tags false ++ putRegs t.vr ++ putBack t.conf.tgrant t.mat.tiles acc []

/-- The tag of R488 as two bits. -/
def Dirt.code (d : Dirt) : Nat :=
  match d with
  | .zero => 0
  | .clean => 1
  | .dirty => 2

/-- The header of an image of n bytes; regs is the place of its registers where each has one of its own, 0 where they are
packed (log 9). -/
def putHeader (t : Thread) (n regs : Nat) : List Nat :=
  let marks := (List.range 96).foldl (fun a k => a + (Table.get t.vr.tags SaveTag.zero k).dirt.code * 4 ^ k) 0
  [Config.format.toNat + 2 ^ 8 * t.conf.grant + 2 ^ 16 * t.conf.tgrant + 2 ^ 24 * t.ring.toNat, t.id.lid,
    t.id.rank + 2 ^ 32 * n] ++ wordsOf 4 marks ++ [regs]

/-- Words as bytes. -/
def wordBytes (l : List Nat) : List Byte := l.flatMap (bytesOf 8)

/-- The bytes of an image of CTXSAVE. -/
def imageBytes (t : Thread) (tags : List Nat) (acc : Table (BitVec 32)) : List Byte :=
  let body := putBody t tags acc
  wordBytes (putHeader t (8 * (8 + body.length)) 0 ++ body)

/-- The place of a register among the registers of an image of the save engine, after a word for each register. -/
def regPlace (k : Nat) : Nat :=
  768 + (if k < 32 then 2048 * k else if k < 64 then 65536 + 4096 * (k - 32) else 196608 + 512 * (k - 64))

/-- The bytes of the registers of an image of the save engine. -/
def regSection : Nat := 213760

/-- The place of the registers in an image of the save engine, so that a register keeps its place from one save to the next. The
sections behind them, at their longest, end within the 1 MiB of R487. -/
def regsAt : Nat := 30720

/-- What the save engine writes, each piece at its place in the area: the sections before the registers, of which the end of the
pending work is left out where it would reach the registers; for each register its high-water mark and its grade mask tag; each
DIRTY register's elements below the mark, a CLEAN one keeping the copy that the area has, whichever area that is (R488); and the
sections after them (DESIGN CHOICE, log 9). -/
def imagePieces (t : Thread) (tags : List Nat) (acc : Table (BitVec 32)) (tables : List (Nat × HTable)) :
    List (Nat × List Byte) :=
  let back := putBack t.conf.tgrant t.mat.tiles acc tables
  let tag := fun (k : Nat) => Table.get t.vr.tags SaveTag.zero k
  let dirty := (List.range 96).filter (fun k => decide ((tag k).dirt = .dirty))
  (0, wordBytes ((putHeader t (regsAt + regSection + 8 * back.length) regsAt ++ putFront t tags true).take (regsAt / 8))) ::
    (regsAt, wordBytes ((List.range 96).map (fun k => (tag k).high + 2 ^ 32 * (t.vr.coded k).1))) ::
    dirty.map (fun k => (regsAt + regPlace k, wordBytes (wordsOf (cdiv (tag k).high 8) (t.vr.coded k).2))) ++
    [(regsAt + regSection, wordBytes back)]

/-! ## Reading an image -/

/-- A reader of words; it fails where the words end early or make no image. -/
abbrev Rd (α : Type) := StateT (List Nat) Option α

/-- The next word. -/
def rdWord : Rd Nat := fun l =>
  match l with
  | [] => none
  | a :: r => some (a, r)

/-- The next n words as one number. -/
def rdBig : Nat → Rd Nat
  | 0 => pure 0
  | n + 1 => do
    let a ← rdWord
    let b ← rdBig n
    return a + 2 ^ 64 * b

/-- n items. -/
def rdMany {α : Type} (f : Rd α) : Nat → Rd (List α)
  | 0 => pure []
  | n + 1 => do
    let a ← f
    let r ← rdMany f n
    return a :: r

/-- A list with its length first. -/
def rdList {α : Type} (f : Rd α) : Rd (List α) := do
  let n ← rdWord
  rdMany f n

/-- A 64-bit register. -/
def rdReg : Rd Word := do
  let x ← rdWord
  return w64 x

/-- A token FIFO. -/
def rdFifo : Rd Fifo := do
  let x ← rdWord
  return match x with
    | 0 => .lsvx
    | 1 => .vxls
    | 2 => .lsmx
    | _ => .mxls

/-- The six loop registers. -/
def rdLoops : Rd Loops := do
  let a ← rdReg
  let b ← rdReg
  let c ← rdReg
  let d ← rdReg
  let e ← rdReg
  let f ← rdReg
  return ⟨a, b, c, d, e, f⟩

/-- A pair of a key and a word. -/
def rdKey : Rd (Nat × Word) := do
  let k ← rdWord
  let v ← rdReg
  return (k, v)

/-- A table of words; its entries are set one by one, so that the table has its canonical form. -/
def rdTable : Rd (Table Word) := do
  let l ← rdList rdKey
  return l.foldl (fun t e => Table.set t 0#64 e.1 e.2) []

/-- A member of a convoy. -/
def rdMember : Rd Member := do
  let w ← rdWord
  let a ← rdReg
  let b ← rdReg
  let k ← rdWord
  match decode (BitVec.ofNat 32 w) with
  | .ok i => return ⟨i, a, b, 0, decide (k ≠ 0)⟩
  | .error _ => failure

/-- The fmask of a convoy's members. -/
def rdFmask : Rd (BitVec 4096) := do
  let k ← rdWord
  if k = 0 then return 0
  else
    let x ← rdBig 64
    return BitVec.ofNat 4096 x

/-- A convoy. -/
def rdConvoy : Rd Convoy := do
  let pc ← rdReg
  let vl ← rdWord
  let vt ← rdWord
  let g ← rdWord
  let tg ← rdWord
  let dn ← rdWord
  let ir ← rdReg
  let hl ← rdWord
  let la ← rdReg
  let chk ← rdWord
  let late ← rdWord
  let bad ← rdWord
  let lp ← rdLoops
  let ms ← rdList rdMember
  let fm ← rdFmask
  let po ← rdList rdWord
  let pu ← rdList rdFifo
  let rs ← rdMany rdReg 31
  let ps ← rdList rdKey
  let sr : Table Word := rs.zipIdx.foldl (fun t e => Table.set t 0#64 (e.2 + 1) e.1) []
  return ⟨pc, ms.map (fun m => { m with fmask := fm }), lp, vl, BitVec.ofNat 32 vt, g, tg, dn, po, pu, sr, ps, ir,
    if hl = 0 then none else some la, decide (chk ≠ 0), late, decide (bad ≠ 0)⟩

/-- A pending register write. -/
def rdWrite : Rd RegWrite := do
  let k ← rdWord
  let n ← rdWord
  match k with
  | 0 => do
    let m ← rdBig 256
    let x ← rdBig 256
    return .v n (BitVec.ofNat 16384 m) (BitVec.ofNat 16384 x)
  | 1 => do
    let m ← rdBig 64
    let x ← rdBig 64
    return .p n (BitVec.ofNat 4096 m) (BitVec.ofNat 4096 x)
  | _ => do
    let m ← rdBig 512
    let x ← rdBig 512
    return .m n (BitVec.ofNat 32768 m) (BitVec.ofNat 32768 x)

/-- A run of an access. -/
def rdRun : Rd StoreRun := do
  let r ← rdWord
  let s ← rdWord
  let p ← rdWord
  let b ← rdWord
  let l ← rdWord
  return ⟨r, s, p, b, l⟩

/-- The stream fields of an access that waits; one to a peer, which only an image of the save engine holds, is not read (log 9). -/
def rdHeld : Rd Held := do
  let ag ← rdWord
  let held ← rdWord
  let ea ← rdReg
  let stamp ← rdWord
  let peer ← rdWord
  if peer ≠ 0 then failure
  return ⟨ag, BitVec.ofNat 8 held, ea, stamp, none⟩

/-- An atomic update by its code. -/
def amoOfCode (n : Nat) : AmoOp :=
  match n with
  | 0 => .swap
  | 1 => .add
  | 2 => .and
  | 3 => .or
  | 4 => .xor
  | 5 => .min
  | 6 => .max
  | 7 => .minu
  | 8 => .maxu
  | 9 => .cas
  | _ => .fadd

/-- An update of VAMO by its code. -/
def vamoOfCode (n : Nat) : VamoOp :=
  match n with
  | 0 => .add
  | 1 => .min
  | 2 => .max
  | _ => .fadd

/-- A scalar access. -/
def rdScalarOp : Rd ScalarOp := do
  let k ← rdWord
  match k with
  | 0 => do
    let d ← rdWord
    let n ← rdWord
    let sx ← rdWord
    return .load (BitVec.ofNat 5 d) n (decide (sx ≠ 0))
  | 1 => do
    let rel ← rdWord
    let bs ← rdList rdWord
    return .store (bs.map (BitVec.ofNat 8)) (decide (rel ≠ 0))
  | 3 => do
    let d ← rdWord
    return .ldk (BitVec.ofNat 5 d)
  | _ => do
    let op ← rdWord
    let d ← rdWord
    let n ← rdWord
    let v ← rdWord
    let e ← rdWord
    return .amo (amoOfCode op) (BitVec.ofNat 5 d) n v e

/-- An element of VAMO. -/
def rdVamoElem : Rd (Nat × Nat × Nat × List Nat) := do
  let a ← rdWord
  let r ← rdWord
  let b ← rdWord
  let l ← rdList rdWord
  return (a, r, b, l)

/-- A pair of numbers. -/
def rdPair : Rd (Nat × Nat) := do
  let a ← rdWord
  let b ← rdWord
  return (a, b)

/-- An entry of the pending work. -/
def rdEntry : Rd VEntry := do
  let k ← rdWord
  match k with
  | 0 => do
    let c ← rdConvoy
    return .convoy c
  | 1 => do
    let l ← rdList rdWrite
    return .write l
  | 2 => do
    let h ← rdHeld
    let ld ← rdWord
    let mv ← rdWord
    let l ← rdList rdRun
    return .access h (decide (ld ≠ 0)) (decide (mv ≠ 0)) l
  | 3 => do
    let id ← rdWord
    let l ← rdList rdWord
    return .reply id l
  | 4 => do
    let h ← rdHeld
    let w ← rdWord
    let f ← rdList rdPair
    let l ← rdList rdRun
    return .tile h w (f.foldl (fun t e => Table.set t 0 e.1 e.2) []) l
  | 5 => do
    let h ← rdHeld
    let op ← rdWord
    let vt ← rdWord
    let l ← rdList rdVamoElem
    return .vamo h (vamoOfCode op) (BitVec.ofNat 32 vt) l
  | _ => do
    let h ← rdHeld
    let l ← rdList rdWord
    let op ← rdScalarOp
    return .scalar h l op

/-- An m register of an image. -/
def imageMv (x tag : Nat) : MvReg :=
  let g := BitVec.ofNat 5 tag
  ⟨MvReg.keep ⟨BitVec.ofNat 32768 x, g⟩ g 8, g⟩

/-- Register k of an image, with its high-water mark, its grade mask tag and its bits, put among those read before; components
outside an m register's tag are +0 (R322). -/
def VRegs.putCoded (r : VRegs) (k h tag x : Nat) : VRegs :=
  let n := k % 32
  let r1 := match k / 32 with
    | 0 => { r with v := Table.set r.v 0#16384 n (BitVec.ofNat 16384 x) }
    | 1 => { r with m := Table.set r.m MvReg.zero n (imageMv x tag) }
    | _ => if n = 0 then r else { r with p := Table.set r.p 0#4096 n (BitVec.ofNat 4096 x) }
  { r1 with tags := Table.set r1.tags SaveTag.zero k ⟨.dirty, h⟩ }

/-- One register of the vector files, put among those read before. -/
def rdReg1 (r : VRegs) : Rd VRegs := do
  let k ← rdWord
  let h ← rdWord
  let tag ← rdWord
  let x ← rdBig (cdiv h 8)
  return r.putCoded k h tag x

/-- n registers. -/
def rdRegs : Nat → VRegs → Rd VRegs
  | 0, r => pure r
  | n + 1, r => do
    let r1 ← rdReg1 r
    rdRegs n r1

/-- What an image puts into a thread. -/
structure ImageIn where
  s : Table Word
  user : UserRegs
  loops : Loops
  dims : Dims
  vtype : BitVec 32
  vl : Nat
  counters : Table Nat
  fmask : BitVec 4096
  mat : MatState
  q : Table (List Word)
  tok : Tokens
  viq : List VEntry
  vr : VRegs
  acc : Table (BitVec 32)

/-- The user status registers. -/
def rdUser : Rd UserRegs := do
  let a ← rdReg
  let b ← rdReg
  let c ← rdReg
  let d ← rdReg
  let e ← rdReg
  let f ← rdReg
  let g ← rdReg
  return ⟨a, b, c, d, e, f, g⟩

/-- The dimension registers. -/
def rdDims : Rd Dims := do
  let a ← rdReg
  let b ← rdReg
  let c ← rdReg
  let d ← rdReg
  let e ← rdReg
  let f ← rdReg
  let g ← rdReg
  let h ← rdReg
  let i ← rdReg
  return ⟨a, b, c, d, e, f, g, h, i⟩

/-- The sections before the registers, as what they make of an image with those after them: the registers, the tiles and the
accumulator words. -/
def rdFront : Rd (VRegs → List Nat × Table (BitVec 32) → ImageIn) := do
  let s ← rdTable
  let u ← rdUser
  let lp ← rdLoops
  let x ← rdDims
  let vt ← rdWord
  let vl ← rdWord
  let _ ← rdMany rdWord 19
  let cs ← rdList rdKey
  let fm ← rdBig 64
  let _ ← rdList rdWord
  let chk ← rdWord
  let un ← rdWord
  let re ← rdWord
  let qs ← rdMany (rdList rdReg) 8
  let t0 ← rdWord
  let t1 ← rdWord
  let t2 ← rdWord
  let t3 ← rdWord
  let viq ← rdList rdEntry
  return fun vr back => ⟨Table.set s 0#64 0 0#64, u, lp, x, BitVec.ofNat 32 vt, vl,
    cs.foldl (fun t e => Table.set t 0 e.1 e.2.toNat) [], BitVec.ofNat 4096 fm,
    ⟨decide (chk ≠ 0), BitVec.ofNat 32 un, BitVec.ofNat 32 re, back.1⟩,
    (qs.zipIdx).foldl (fun t e => Table.set t [] e.2 e.1) [], ⟨t0, t1, t2, t3⟩, viq, vr, back.2⟩

/-- The sections after the registers, for n rows; an image with tables is not read. -/
def rdBack (n : Nat) : Rd (List Nat × Table (BitVec 32)) := do
  let tabs ← rdWord
  if tabs ≠ 0 then failure
  let tiles ← rdList rdWord
  let places := accPlaces n tiles
  let words ← rdMany rdWord places.length
  return (tiles, (places.zip words).foldl (fun t e =>
    Table.set (Table.set t 0#32 e.1 (BitVec.ofNat 32 e.2)) 0#32 (e.1 + 1) (BitVec.ofNat 32 (e.2 / 2 ^ 32))) [])

/-- The words of an image of CTXSAVE after its header, for n rows. -/
def rdBody (rows : Nat) : Rd ImageIn := do
  let f ← rdFront
  let n ← rdWord
  let vr ← rdRegs n ⟨[], [], [], []⟩
  let b ← rdBack rows
  return f vr b

/-- The registers that stand at word at_ of an image of the save engine: those whose tag is not ZERO. -/
def placedRegs (ws : List Nat) (at_ : Nat) : VRegs :=
  let marks := ofWords ((ws.drop 3).take 4)
  ((List.range 96).filter (fun k => decide (bitsAt marks (2 * k) 2 ≠ 0))).foldl (fun r k =>
    let e := ws.getD (at_ + k) 0
    let h := e % 2 ^ 32
    r.putCoded k h (e / 2 ^ 32) (ofWords ((ws.drop (at_ + regPlace k / 8)).take (cdiv h 8)))) ⟨[], [], [], []⟩

/-- The words of an image read, in whichever way its header says that its registers stand. -/
def readImage (ws : List Nat) : Option ImageIn :=
  let at_ := ws.getD 7 0 / 8
  let rows := bitsAt (ws.getD 0 0) 16 8
  if at_ = 0 then (rdBody rows (ws.drop 8)).map (fun e => e.1)
  else
    match rdFront (ws.drop 8), rdBack rows (ws.drop (at_ + regSection / 8)) with
    | some f, some b => some (f.1 (placedRegs ws at_) b.1)
    | _, _ => none

/-! ## CTXSAVE and CTXLOAD (R483) -/

/-- The accumulator words of the tile positions that a thread has written, by 1,024·row + word of its own rows (R391). -/
def State.accOf (s : State) (t : Thread) : Table (BitVec 32) :=
  let q := s.quad (quadOf t.place.core)
  let base := 1024 * t.place.rowBase
  (q.acc.filter (fun e => decide (base ≤ e.1) && decide (e.1 < base + 1024 * t.conf.tgrant) &&
    t.mat.tiles.contains (e.1 % 1024 / 32))).map (fun e => (e.1 - base, e.2))

/-- The tags of a thread's outstanding commands. -/
def State.tagsOf (s : State) (t : Thread) : List Nat := (s.cmds.filter (fun c => c.thread == t.id)).map (fun c => c.tag)

/-- Does the thread wait for a reply of a multi-layer unit? -/
def Thread.replyPending (t : Thread) : Bool :=
  t.viq.any (fun e =>
    match e with
    | .reply _ _ => true
    | _ => false)

/-- Alignment of an image's address; that another one raises MISALIGNED is the model's reading of R483, which names no cause (log
9). -/
def imageAligned (ea : Word) : Except Stop Unit :=
  if ea.toNat % 1024 ≠ 0 then .error (.trap { cause := cMisaligned, addr := ea }) else .ok ()

/-- CTXSAVE (R483). It waits until no access of the thread is pending, so that a CTXLOAD of the image performs none again (log 9). -/
def execCtxsave (d a : BitVec 5) (s : State) : Out :=
  aside false complete (fun s => do
    needRing s 1
    let ea := s.readS a
    imageAligned ea
    if s.cur.replyPending || s.matBusy || s.cur.accessWaits then .error (.wait .other) else .ok ()
    let bs := imageBytes s.cur (s.tagsOf s.cur) (s.accOf s.cur)
    let pas ← s.place .write 8 ea bs.length
    return (s.putBytes pas bs).writeS d (w64 bs.length)) s

/-- May status register n hold a value (R476)? -/
def mayHold (n : Nat) (v : Word) : Bool := decide (v &&& ~~~(writable n) = 0#64) && inRange n v

/-- Do the status registers of an image hold what a write may leave (R483)? -/
def ImageIn.good (i : ImageIn) (grant : Nat) (pm : Bool) : Bool :=
  let u := i.user
  mayHold 0 u.ustatus && mayHold 1 u.uhandler && mayHold 2 u.uepc && mayHold 3 u.ucause && mayHold 4 u.fflags &&
    mayHold 0x13 u.vfirst && mayHold 0x30 u.stst && vtypeGood i.vtype && (vtPm i.vtype == pm || decide (grant = 0)) &&
    decide (i.vl ≤ grant * perGroup (vtSew i.vtype) (vtLmul i.vtype))

/-- The thread's ring-0 state replaced by an image. -/
def State.install (s : State) (i : ImageIn) : State :=
  let t := s.cur
  let qn := quadOf t.place.core
  let q := s.quad qn
  let base := 1024 * t.place.rowBase
  let acc := i.acc.foldl (fun m e =>
    if e.1 < 1024 * t.conf.tgrant then Table.set m 0#32 (base + e.1) e.2 else m) (clearRows t.place.rowBase t.conf.tgrant q.acc)
  let s1 := s.setQuad qn { q with acc := acc }
  { s1 with
    cur := { t with
      s := i.s, user := i.user, loops := i.loops, dims := i.dims, mat := i.mat, q := i.q, tok := i.tok
      viq := i.viq.map (fun e => e.onHeld (fun h => { h with stamp := s.fresh })), vr := i.vr
      conf := { t.conf with vtype := i.vtype, vl := i.vl, counters := i.counters, fmask := i.fmask } }
    cmds := s1.cmds.map (fun c => if c.thread = t.id then { c with ahead := 0 } else c) }

/-- The words of a list of bytes. -/
def imageWords (bs : List Byte) : List Nat :=
  (List.range (bs.length / 8)).map (fun k => field bs (8 * k) 8)

def execCtxload (d a : BitVec 5) (s : State) : Out :=
  aside false complete (fun s => do
    needRing s 1
    let ea := s.readS a
    imageAligned ea
    if s.matBusy || s.cur.accessWaits then .error (.wait .other) else .ok ()
    let hd ← s.loadBlock 8 ea 64
    if field hd 1 1 ≠ s.cur.conf.grant || field hd 2 1 ≠ s.cur.conf.tgrant then return s.writeS d minusOne
    else if field hd 0 1 ≠ Config.format.toNat then return s.writeS d (0#64 - 2#64)
    else
      let bs ← s.loadBlock 8 ea (field hd 20 4)
      match readImage (imageWords bs) with
      | some i =>
        if i.good s.cur.conf.grant (vtPm s.cur.conf.vtype) then return (s.install i).writeS d 0#64
        else return s.writeS d (0#64 - 2#64)
      | none => return s.writeS d (0#64 - 2#64)) s

/-! ## Pre-emption (R486, R487) -/

/-- The lowest-numbered free area of the context pool. -/
def Part.freeArea (p : Part) : Option Nat :=
  (List.range p.regs.ctxcount.toNat).find? (fun k => !p.areas.contains k)

/-- May a thread be pre-empted now: it stands on a core, an area is free, and no trap that has arisen waits to be taken
(R486, R487)? -/
def State.mayPreempt (s : State) (id : ThreadId) : Bool :=
  match s.onChip.find? (fun t => t.id == id) with
  | none => false
  | some t =>
    (s.part id.part).freeArea.isSome && t.prog.check.isNone &&
      match t.prog.wait with
      | .retry (.fault _ _) => false
      | .retry (.trap _) => false
      | _ => true

/-- The tags of R488 after a save. -/
def cleaned (tags : Table SaveTag) : Table SaveTag := tags.map (fun e => (e.1, ({ e.2 with dirt := .clean } : SaveTag)))

/-- The pieces of the image of a pre-empted thread of partition pn written to its area; one whose pages do not translate is not
written, and a violation is logged (R494); nor is one that would pass the end of the area (log 9). -/
def State.saveImage (s : State) (pn area : Nat) (l : List (Nat × List Byte)) : State :=
  let p := s.part pn
  (l.filter (fun e => decide (e.1 + e.2.length ≤ 2 ^ 20))).foldl (fun s e =>
    match s.deviceRange p false .write 8 (e.2.length / 8) (p.regs.ctxbase + w64 (2 ^ 20 * area + e.1)) with
    | .ok pas => s.putBy .unit pas e.2
    | .error (c, a) => s.logViolation pn c a) s

/-- A convoy in issue is abandoned: on resumption it executes again from its first word, with its record of W pops (R46,
R486, R489). -/
def abandoned (l : List VEntry) : List VEntry :=
  l.map (fun e => e.onPast (fun c => { c with done := 0, pushes := [] }) id)

/-- A thread that gives up its wait: a word that waits for a peer keeps its request tag (R260, R486). -/
def Thread.stopWait (t : Thread) : Thread :=
  match t.prog.wait with
  | .retry (.peer k) => t.keepTag k .none
  | _ => { t with prog := { t.prog with wait := .none } }

/-- A thread pre-empted into a free area of the context pool (R486, R487); tail puts its record last among those of its
priority (R431). -/
def State.preempt (s : State) (id : ThreadId) (tail : Option Nat) : State :=
  let s0 := s.cancelWaits id
  match s0.onChip.find? (fun t => t.id == id), (s0.part id.part).freeArea with
  | some t, some area =>
    let core := s0.core t.place.core
    let tables := if s0.lastOfGroup t then core.groupTables id.part id.lid else []
    let acc := s0.accOf t
    let lat := core.latOf t.place.slot
    let pc := (t.framing.map (fun v => v.pc)).getD t.pc
    let t := { t with viq := abandoned t.viq }
    let s1 := s0.saveImage id.part area (imagePieces { t with pc := pc } (s0.tagsOf t) acc tables)
    let t1 : Thread := { t.stopWait with
      place := { t.place with area := some area, weight := lat.weight, share := lat.share, aged := false, tail := tail }
      vr := { t.vr with tags := cleaned t.vr.tags } }
    let s2 := if tables.isEmpty then s1 else s1.dropTables t.place.core id.part id.lid
    let s3 := s2.setPart id.part { s2.part id.part with areas := (s2.part id.part).areas ++ [area] }
    let s4 := s3.vacate t
    (({ s4 with saved := s4.saved ++ [(t1, tables, acc)] } : State).timer (.recordAging id)).redispatch id.part
  | _, _ => s

/-- A pre-emption that the driver requests (R486, R487): the step takes it when it can start. -/
def execPreemption (t : ThreadId) (s : State) : Out := if s.mayPreempt t then .next (s.preempt t none) else .next s

/-- The lane-reclaim interval of a thread passes (R151): it is pre-empted; where no area is free or no convoy has retired
since it resumed, the reclaim is deferred (R486, R487). -/
def execLaneReclaim (t : ThreadId) (s : State) : Out :=
  match s.onChip.find? (fun h => h.id == t) with
  | none => .next s
  | some h =>
    if !(s.core h.place.core).reclaims h.place.slot then .next s
    else if s.mayPreempt t && h.place.ran then .next (s.preempt t none)
    else .next (s.timer (.laneReclaim t))

/-! ## YIELD (R431) -/

/-- Does a record of the same or a higher priority wait for the current thread's core? -/
def State.waiterHere (s : State) : Bool :=
  let t := s.cur
  let eff := fun (aged : Bool) (p : Nat) => if aged then 0 else p
  s.cp.records.any (fun r => r.core == t.place.core && decide (eff r.aged r.prio ≤ t.place.prio)) ||
    s.saved.any (fun e => e.1.id.part == t.id.part && e.1.place.core == t.place.core &&
      decide (eff e.1.place.aged e.1.place.prio ≤ t.place.prio))

def execYield (s : State) : Out :=
  aside false (fun s1 =>
    if s.waiterHere && s1.mayPreempt s.cur.id then (complete s1).preempt s.cur.id (some s.cp.nextLid) else complete s1)
    (fun s => .ok s) s

/-! ## Resumption (R489) -/

/-- The row ranges that threads on a quad hold. -/
def State.heldRows (s : State) (q : Nat) : List (Nat × Nat) :=
  (s.onChip.filter (fun t => quadOf t.place.core == q && decide (0 < t.conf.tgrant))).map
    (fun t => (t.place.rowBase, t.conf.tgrant))

/-- Was the thread re-queued by a partition change (R439, R489)? Its slot is then none of the four. -/
def Thread.moved (t : Thread) : Bool := decide (4 ≤ t.place.slot)

/-- The core on which a saved thread's claim group ran (R265). -/
def Thread.groupCore (t : Thread) : Nat := if t.moved then t.place.slot - 4 else t.place.core

/-- Is a saved thread of the same claim group? Two groups of one launch that a partition change re-queues onto one core keep their
tables apart while these are saved, and are one group by R263 once threads of both run there (DEDUCED, log 14). -/
def sameGroup (t u : Thread) : Bool :=
  u.id.part == t.id.part && u.id.lid == t.id.lid && u.place.core == t.place.core && u.groupCore == t.groupCore

/-- The saved tables of a thread's claim group (R265). -/
def State.savedTables (s : State) (t : Thread) : List (Nat × HTable) :=
  s.saved.flatMap (fun e => if sameGroup t e.1 then e.2.1 else [])

/-- May the saved tables stand on a core: are their numbers unclaimed and is there room for their charges (R265)? -/
def Core.takesTables (c : Core) (l : List (Nat × HTable)) : Bool :=
  l.all (fun e => (c.table e.1).isNone) &&
    decide (c.charges (fun _ => true) + sumNat (l.map (fun e => chargeOf e.2.b)) ≤ 524288)

/-- Must a thread resume in the slot it left: is kdefr set for a ring it has entered (R470, R489)? -/
def State.slotBound (s : State) (t : Thread) : Bool :=
  (List.range t.ring.toNat).any (fun k => (s.part t.id.part).regs2.defs (k + 1) 7 ≠ 0#64)

/-- May a saved thread resume on a core? -/
def State.fits (s : State) (t : Thread) (core : Nat) : Bool :=
  let c := s.core core
  let p := s.part t.id.part
  let pm := vtPm t.conf.vtype
  let n := if pm then 2 * t.conf.grant else t.conf.grant
  let bound := s.slotBound t && !t.moved
  p.cores.contains core && s.slotFor t.id core && (!bound || (decide (core = t.place.core) && (s.freeSlots core).contains t.place.slot)) &&
    decide ((groupsOf (c.regroup 0 pm n)).length = n) &&
    (decide (t.conf.tgrant = 0) || (rowsAt (s.heldRows (quadOf core)) t.conf.tgrant).isSome) &&
    c.takesTables (s.savedTables t)

/-- The cores on which a saved thread may resume, its own first: with tables to restore, any of the partition; else the core of
its group's tables; after a partition change the one it was re-queued to; else those of its sheet. One with rows stays on its
quad (R265, R391, R489). -/
def State.homes (s : State) (t : Thread) : List Nat :=
  let p := s.part t.id.part
  let own := t.place.core
  let near := fun (c : Nat) => t.moved || decide (t.conf.tgrant = 0) || quadOf c == quadOf own
  let rest := p.cores.filter (fun c => c != own && near c)
  if !(s.savedTables t).isEmpty then own :: rest
  else if !((s.core own).groupTables t.id.part t.id.lid).isEmpty then [own]
  else if t.moved then [own]
  else own :: rest.filter (fun c => sheetOf c == sheetOf own)

/-- The core on which a saved thread resumes: its own where it fits, else one that the spec leaves open (log 13). -/
def State.homeFor (s : State) (t : Thread) : Option Nat :=
  let l := (s.homes t).filter (s.fits t)
  match l with
  | [] => none
  | c :: r => if c = t.place.core then some c else some ((c :: r).getD (Config.choice s.fresh (2 ^ 59) % (r.length + 1)) c)

/-- krec of a ring at a resumption: set again at ring 0, and moved with its record after a partition change (R470). -/
def PartRegs2.resumeRing (r2 : PartRegs2) (t : Thread) (k core slot : Nat) : RingRegs :=
  let r := t.rings.get k
  let area := r2.defs k 7
  let mine := area + w64 (1024 * (4 * core + slot))
  if area ≠ 0#64 && (decide (t.ring = 0#2) || (t.moved && decide (k ≤ t.ring.toNat))) then { r with record := mine } else r

/-- The records of a moved thread copied to those of its new slot; a violation is logged (R470, R494). -/
def State.copyRecords (s : State) (t : Thread) (core slot : Nat) : State :=
  if !t.moved then s
  else
    let p := s.part t.id.part
    (rangeFrom 1 t.ring.toNat).foldl (fun s k =>
      let old := (t.rings.get k).record
      let new := (p.regs2.resumeRing t k core slot).record
      if old = new || old = 0#64 then s
      else
        match s.deviceRange p false .read 64 16 old, s.deviceRange p false .write 64 16 new with
        | .ok a, .ok b => s.putBy .unit b (a.map s.mem.byte)
        | .error (c, a), _ => s.logViolation t.id.part c a
        | _, .error (c, a) => s.logViolation t.id.part c a) s

/-- A saved thread resumes on a core (R489). -/
def State.resumeOn (s : State) (t : Thread) (acc : Table (BitVec 32)) (core : Nat) : State :=
  let pn := t.id.part
  let p := s.part pn
  let slot := if s.slotBound t && !t.moved then t.place.slot else s.takeSlot core
  let pm := vtPm t.conf.vtype
  let n := if pm then 2 * t.conf.grant else t.conf.grant
  let rows := if t.conf.tgrant = 0 then 0 else (rowsAt (s.heldRows (quadOf core)) t.conf.tgrant).getD 0
  let tables := s.savedTables t
  let s0 := s.copyRecords t core slot
  let c0 := tables.foldl (fun c e => c.setTable e.1 (some e.2)) (s0.core core)
  let c1 := c0.setLat slot ⟨t.place.weight, c0.regroup 0 pm n, t.place.share, pm && decide (t.conf.grant ≠ 0), false⟩
  let c2 := { c1 with spad := if tables.isEmpty then c1.spad else cutSpad c1.spadSize c1.spad }
  let s1 := s0.setCore core c2
  let qn := quadOf core
  let q := s1.quad qn
  let put := acc.foldl (fun m e => Table.set m 0#32 (1024 * rows + e.1) e.2) (clearRows rows t.conf.tgrant q.acc)
  let s2 := if t.conf.tgrant = 0 then s1
    else s1.setQuad qn { q with acc := put, slots := if t.moved then [] else q.slots }
  let ring := fun (k : Nat) => p.regs2.resumeRing t k core slot
  let t1 : Thread := { t with
    place := { t.place with core := core, slot := slot, area := none, rowBase := rows, aged := false, tail := none, ran := false }
    rings := ⟨ring 1, ring 2, ring 3⟩ }
  let s3 := s2.setPart pn { s2.part pn with areas := match t.place.area with
    | some k => p.areas.filter (fun x => x != k)
    | none => p.areas }
  let aging := Instr.recordAging t.id
  let group := fun (e : Thread × List (Nat × HTable) × Table (BitVec 32)) =>
    if sameGroup t e.1 && !tables.isEmpty then
      ({ e.1 with place := { e.1.place with core := core } }, ([], e.2.2)) else e
  ({ s3 with
    others := s3.others ++ [t1]
    saved := (s3.saved.filter (fun e => e.1.id != t.id)).map group
    timers := s3.timers.filter (fun i => i != aging) } : State).lanes core

/-- A saved thread resumes, if a core can take it. -/
def State.tryResume (s : State) (id : ThreadId) : Option State :=
  match s.saved.find? (fun e => e.1.id == id) with
  | none => none
  | some e => (s.homeFor e.1).map (s.resumeOn e.1 e.2.2)

def execResume (t : ThreadId) (s : State) : Out := .next ((s.tryResume t).getD s)

/-! ## Dispatch of records (R432) -/

/-- What waits for a slot: a record that has not started, or a saved thread. -/
inductive Waiting where
  | rec_ (r : Record)
  | thr (id : ThreadId)

/-- The place of a record in its order: those that have aged, then priority (R432). -/
def classKey (aged : Bool) (prio : Nat) : List Nat := if aged then [0, 0] else [1, prio]

/-- The records of a partition with their order: class, launch acceptance, rank; one that YIELD put at the tail of its
priority comes after the launches accepted before that YIELD, by the order of the YIELDs (R431, R432). -/
def State.waitingRecords (s : State) (pn : Nat) : List (List Nat × Waiting) :=
  let new := (s.part pn).records.map (fun r => (classKey r.aged r.prio ++ [r.id.lid, 0, r.id.rank], Waiting.rec_ r))
  let old := (s.saved.zipIdx.filter (fun e => e.1.1.id.part == pn)).map (fun e =>
    let t := e.1.1
    let at_ := match t.place.tail with
      | some l => [l - 1, 1, e.2]
      | none => [t.id.lid, 0, t.id.rank]
    (classKey t.place.aged t.place.prio ++ at_, Waiting.thr t.id))
  new ++ old

/-- Lexicographic order. -/
def lexLe : List Nat → List Nat → Bool
  | [], _ => true
  | _ :: _, [] => false
  | a :: r, b :: t => decide (a < b) || (a == b && lexLe r t)

/-- The records in their order; each starts if it can. A saved thread that can resume does so next. -/
def dispatchFrom (pn : Nat) : List Waiting → State → State
  | [], s => s
  | .rec_ r :: rest, s =>
    match s.tryStart r with
    | some s1 => dispatchFrom pn rest s1
    | none => dispatchFrom pn rest s
  | .thr id :: rest, s =>
    match s.tryResume id with
    | some _ => { s with inputs := .resume id :: .threadDispatch pn :: s.inputs }
    | none => dispatchFrom pn rest s

def execThreadDispatch (part : Nat) (s : State) : Out :=
  .next (dispatchFrom part (((s.waitingRecords part).mergeSort (fun a b => lexLe a.1 b.1)).map (fun e => e.2)) s)

end

end Sys2Proof.Machine
end

