-- ==== Sys2Proof/Machine/EsideWords.lean ====
section
/-!
DEFINITION. The meanings of the 135 E-side words (02 R40): each joins its convoy, with the checks that its entry makes
at dispatch and the scalar values that it captures there (01 R14). What it does when the convoy runs is effect
(Eside.lean).
-/
namespace Sys2Proof.Machine

/-- VADD (R167). -/
noncomputable def execVadd (c : BitVec 1) (d : BitVec 5) (a : BitVec 5) (b : BitVec 5) (g : BitVec 5) (s : State) : Out :=
  eside (.vadd c d a b g) c 0#64 0#64 (vintLegal s.vt) s

/-- VSUB (R167). -/
noncomputable def execVsub (c : BitVec 1) (d : BitVec 5) (a : BitVec 5) (b : BitVec 5) (g : BitVec 5) (s : State) : Out :=
  eside (.vsub c d a b g) c 0#64 0#64 (vintLegal s.vt) s

/-- VMUL (R167). -/
noncomputable def execVmul (c : BitVec 1) (d : BitVec 5) (a : BitVec 5) (b : BitVec 5) (g : BitVec 5) (s : State) : Out :=
  eside (.vmul c d a b g) c 0#64 0#64 (vintLegal s.vt) s

/-- VMULH (R167). -/
noncomputable def execVmulh (c : BitVec 1) (d : BitVec 5) (a : BitVec 5) (b : BitVec 5) (g : BitVec 5) (s : State) : Out :=
  eside (.vmulh c d a b g) c 0#64 0#64 (vintLegal s.vt) s

/-- VMIN (R167). -/
noncomputable def execVmin (c : BitVec 1) (d : BitVec 5) (a : BitVec 5) (b : BitVec 5) (g : BitVec 5) (s : State) : Out :=
  eside (.vmin c d a b g) c 0#64 0#64 (vintLegal s.vt) s

/-- VMAX (R167). -/
noncomputable def execVmax (c : BitVec 1) (d : BitVec 5) (a : BitVec 5) (b : BitVec 5) (g : BitVec 5) (s : State) : Out :=
  eside (.vmax c d a b g) c 0#64 0#64 (vintLegal s.vt) s

/-- VMINU (R167). -/
noncomputable def execVminu (c : BitVec 1) (d : BitVec 5) (a : BitVec 5) (b : BitVec 5) (g : BitVec 5) (s : State) : Out :=
  eside (.vminu c d a b g) c 0#64 0#64 (vintLegal s.vt) s

/-- VMAXU (R167). -/
noncomputable def execVmaxu (c : BitVec 1) (d : BitVec 5) (a : BitVec 5) (b : BitVec 5) (g : BitVec 5) (s : State) : Out :=
  eside (.vmaxu c d a b g) c 0#64 0#64 (vintLegal s.vt) s

/-- VAND (R167). -/
noncomputable def execVand (c : BitVec 1) (d : BitVec 5) (a : BitVec 5) (b : BitVec 5) (g : BitVec 5) (s : State) : Out :=
  eside (.vand c d a b g) c 0#64 0#64 (vintLegal s.vt) s

/-- VOR (R167). -/
noncomputable def execVor (c : BitVec 1) (d : BitVec 5) (a : BitVec 5) (b : BitVec 5) (g : BitVec 5) (s : State) : Out :=
  eside (.vor c d a b g) c 0#64 0#64 (vintLegal s.vt) s

/-- VXOR (R167). -/
noncomputable def execVxor (c : BitVec 1) (d : BitVec 5) (a : BitVec 5) (b : BitVec 5) (g : BitVec 5) (s : State) : Out :=
  eside (.vxor c d a b g) c 0#64 0#64 (vintLegal s.vt) s

/-- VSLL (R167). -/
noncomputable def execVsll (c : BitVec 1) (d : BitVec 5) (a : BitVec 5) (b : BitVec 5) (g : BitVec 5) (s : State) : Out :=
  eside (.vsll c d a b g) c 0#64 0#64 (vintLegal s.vt) s

/-- VSRL (R167). -/
noncomputable def execVsrl (c : BitVec 1) (d : BitVec 5) (a : BitVec 5) (b : BitVec 5) (g : BitVec 5) (s : State) : Out :=
  eside (.vsrl c d a b g) c 0#64 0#64 (vintLegal s.vt) s

/-- VSRA (R167). -/
noncomputable def execVsra (c : BitVec 1) (d : BitVec 5) (a : BitVec 5) (b : BitVec 5) (g : BitVec 5) (s : State) : Out :=
  eside (.vsra c d a b g) c 0#64 0#64 (vintLegal s.vt) s

/-- VMACC (R167). -/
noncomputable def execVmacc (c : BitVec 1) (d : BitVec 5) (a : BitVec 5) (b : BitVec 5) (g : BitVec 5) (s : State) : Out :=
  eside (.vmacc c d a b g) c 0#64 0#64 (vintLegal s.vt) s

/-- VDIV (R168). -/
noncomputable def execVdiv (c : BitVec 1) (d : BitVec 5) (a : BitVec 5) (b : BitVec 5) (g : BitVec 5) (s : State) : Out :=
  eside (.vdiv c d a b g) c 0#64 0#64 (vintLegal s.vt) s

/-- VADDSAT (R167). -/
noncomputable def execVaddsat (c : BitVec 1) (d : BitVec 5) (a : BitVec 5) (b : BitVec 5) (g : BitVec 5) (s : State) : Out :=
  eside (.vaddsat c d a b g) c 0#64 0#64 (vintLegal s.vt) s

/-- VSUBSAT (R167). -/
noncomputable def execVsubsat (c : BitVec 1) (d : BitVec 5) (a : BitVec 5) (b : BitVec 5) (g : BitVec 5) (s : State) : Out :=
  eside (.vsubsat c d a b g) c 0#64 0#64 (vintLegal s.vt) s

/-- VINTS_VADD (R41). -/
noncomputable def execVintsVadd (c : BitVec 1) (d : BitVec 5) (a : BitVec 5) (b : BitVec 5) (g : BitVec 5) (s : State) : Out :=
  eside (.vintsVadd c d a b g) c 0#64 (s.readS b) (vintLegal s.vt) s

/-- VINTS_VSUB (R41). -/
noncomputable def execVintsVsub (c : BitVec 1) (d : BitVec 5) (a : BitVec 5) (b : BitVec 5) (g : BitVec 5) (s : State) : Out :=
  eside (.vintsVsub c d a b g) c 0#64 (s.readS b) (vintLegal s.vt) s

/-- VINTS_VMUL (R41). -/
noncomputable def execVintsVmul (c : BitVec 1) (d : BitVec 5) (a : BitVec 5) (b : BitVec 5) (g : BitVec 5) (s : State) : Out :=
  eside (.vintsVmul c d a b g) c 0#64 (s.readS b) (vintLegal s.vt) s

/-- VINTS_VMULH (R41). -/
noncomputable def execVintsVmulh (c : BitVec 1) (d : BitVec 5) (a : BitVec 5) (b : BitVec 5) (g : BitVec 5) (s : State) : Out :=
  eside (.vintsVmulh c d a b g) c 0#64 (s.readS b) (vintLegal s.vt) s

/-- VINTS_VMIN (R41). -/
noncomputable def execVintsVmin (c : BitVec 1) (d : BitVec 5) (a : BitVec 5) (b : BitVec 5) (g : BitVec 5) (s : State) : Out :=
  eside (.vintsVmin c d a b g) c 0#64 (s.readS b) (vintLegal s.vt) s

/-- VINTS_VMAX (R41). -/
noncomputable def execVintsVmax (c : BitVec 1) (d : BitVec 5) (a : BitVec 5) (b : BitVec 5) (g : BitVec 5) (s : State) : Out :=
  eside (.vintsVmax c d a b g) c 0#64 (s.readS b) (vintLegal s.vt) s

/-- VINTS_VMINU (R41). -/
noncomputable def execVintsVminu (c : BitVec 1) (d : BitVec 5) (a : BitVec 5) (b : BitVec 5) (g : BitVec 5) (s : State) : Out :=
  eside (.vintsVminu c d a b g) c 0#64 (s.readS b) (vintLegal s.vt) s

/-- VINTS_VMAXU (R41). -/
noncomputable def execVintsVmaxu (c : BitVec 1) (d : BitVec 5) (a : BitVec 5) (b : BitVec 5) (g : BitVec 5) (s : State) : Out :=
  eside (.vintsVmaxu c d a b g) c 0#64 (s.readS b) (vintLegal s.vt) s

/-- VINTS_VAND (R41). -/
noncomputable def execVintsVand (c : BitVec 1) (d : BitVec 5) (a : BitVec 5) (b : BitVec 5) (g : BitVec 5) (s : State) : Out :=
  eside (.vintsVand c d a b g) c 0#64 (s.readS b) (vintLegal s.vt) s

/-- VINTS_VOR (R41). -/
noncomputable def execVintsVor (c : BitVec 1) (d : BitVec 5) (a : BitVec 5) (b : BitVec 5) (g : BitVec 5) (s : State) : Out :=
  eside (.vintsVor c d a b g) c 0#64 (s.readS b) (vintLegal s.vt) s

/-- VINTS_VXOR (R41). -/
noncomputable def execVintsVxor (c : BitVec 1) (d : BitVec 5) (a : BitVec 5) (b : BitVec 5) (g : BitVec 5) (s : State) : Out :=
  eside (.vintsVxor c d a b g) c 0#64 (s.readS b) (vintLegal s.vt) s

/-- VINTS_VSLL (R41). -/
noncomputable def execVintsVsll (c : BitVec 1) (d : BitVec 5) (a : BitVec 5) (b : BitVec 5) (g : BitVec 5) (s : State) : Out :=
  eside (.vintsVsll c d a b g) c 0#64 (s.readS b) (vintLegal s.vt) s

/-- VINTS_VSRL (R41). -/
noncomputable def execVintsVsrl (c : BitVec 1) (d : BitVec 5) (a : BitVec 5) (b : BitVec 5) (g : BitVec 5) (s : State) : Out :=
  eside (.vintsVsrl c d a b g) c 0#64 (s.readS b) (vintLegal s.vt) s

/-- VINTS_VSRA (R41). -/
noncomputable def execVintsVsra (c : BitVec 1) (d : BitVec 5) (a : BitVec 5) (b : BitVec 5) (g : BitVec 5) (s : State) : Out :=
  eside (.vintsVsra c d a b g) c 0#64 (s.readS b) (vintLegal s.vt) s

/-- VINTS_VMACC (R41). -/
noncomputable def execVintsVmacc (c : BitVec 1) (d : BitVec 5) (a : BitVec 5) (b : BitVec 5) (g : BitVec 5) (s : State) : Out :=
  eside (.vintsVmacc c d a b g) c 0#64 (s.readS b) (vintLegal s.vt) s

/-- VINTS_VDIV (R41). -/
noncomputable def execVintsVdiv (c : BitVec 1) (d : BitVec 5) (a : BitVec 5) (b : BitVec 5) (g : BitVec 5) (s : State) : Out :=
  eside (.vintsVdiv c d a b g) c 0#64 (s.readS b) (vintLegal s.vt) s

/-- VINTS_VADDSAT (R41). -/
noncomputable def execVintsVaddsat (c : BitVec 1) (d : BitVec 5) (a : BitVec 5) (b : BitVec 5) (g : BitVec 5) (s : State) : Out :=
  eside (.vintsVaddsat c d a b g) c 0#64 (s.readS b) (vintLegal s.vt) s

/-- VINTS_VSUBSAT (R41). -/
noncomputable def execVintsVsubsat (c : BitVec 1) (d : BitVec 5) (a : BitVec 5) (b : BitVec 5) (g : BitVec 5) (s : State) : Out :=
  eside (.vintsVsubsat c d a b g) c 0#64 (s.readS b) (vintLegal s.vt) s

/-- VFADD (R170). -/
noncomputable def execVfadd (c : BitVec 1) (d : BitVec 5) (a : BitVec 5) (b : BitVec 5) (g : BitVec 5) (s : State) : Out :=
  eside (.vfadd c d a b g) c 0#64 0#64 (vfpLegal s.vt) s

/-- VFSUB (R170). -/
noncomputable def execVfsub (c : BitVec 1) (d : BitVec 5) (a : BitVec 5) (b : BitVec 5) (g : BitVec 5) (s : State) : Out :=
  eside (.vfsub c d a b g) c 0#64 0#64 (vfpLegal s.vt) s

/-- VFMUL (R170). -/
noncomputable def execVfmul (c : BitVec 1) (d : BitVec 5) (a : BitVec 5) (b : BitVec 5) (g : BitVec 5) (s : State) : Out :=
  eside (.vfmul c d a b g) c 0#64 0#64 (vfpLegal s.vt) s

/-- VFDIV (R170). -/
noncomputable def execVfdiv (c : BitVec 1) (d : BitVec 5) (a : BitVec 5) (b : BitVec 5) (g : BitVec 5) (s : State) : Out :=
  eside (.vfdiv c d a b g) c 0#64 0#64 (vfpLegal s.vt) s

/-- VFSQRT (R170). -/
noncomputable def execVfsqrt (c : BitVec 1) (d : BitVec 5) (a : BitVec 5) (g : BitVec 5) (s : State) : Out :=
  eside (.vfsqrt c d a g) c 0#64 0#64 (vfpLegal s.vt) s

/-- VFMA (R170). -/
noncomputable def execVfma (c : BitVec 1) (d : BitVec 5) (a : BitVec 5) (b : BitVec 5) (g : BitVec 5) (s : State) : Out :=
  eside (.vfma c d a b g) c 0#64 0#64 (vfpLegal s.vt) s

/-- VFMS (R170). -/
noncomputable def execVfms (c : BitVec 1) (d : BitVec 5) (a : BitVec 5) (b : BitVec 5) (g : BitVec 5) (s : State) : Out :=
  eside (.vfms c d a b g) c 0#64 0#64 (vfpLegal s.vt) s

/-- VFMIN (R170). -/
noncomputable def execVfmin (c : BitVec 1) (d : BitVec 5) (a : BitVec 5) (b : BitVec 5) (g : BitVec 5) (s : State) : Out :=
  eside (.vfmin c d a b g) c 0#64 0#64 (vfpLegal s.vt) s

/-- VFMAX (R170). -/
noncomputable def execVfmax (c : BitVec 1) (d : BitVec 5) (a : BitVec 5) (b : BitVec 5) (g : BitVec 5) (s : State) : Out :=
  eside (.vfmax c d a b g) c 0#64 0#64 (vfpLegal s.vt) s

/-- VFABS (R170). -/
noncomputable def execVfabs (c : BitVec 1) (d : BitVec 5) (a : BitVec 5) (g : BitVec 5) (s : State) : Out :=
  eside (.vfabs c d a g) c 0#64 0#64 (vfpLegal s.vt) s

/-- VFNEG (R170). -/
noncomputable def execVfneg (c : BitVec 1) (d : BitVec 5) (a : BitVec 5) (g : BitVec 5) (s : State) : Out :=
  eside (.vfneg c d a g) c 0#64 0#64 (vfpLegal s.vt) s

/-- VFPS_VFADD (R41). -/
noncomputable def execVfpsVfadd (c : BitVec 1) (d : BitVec 5) (a : BitVec 5) (b : BitVec 5) (g : BitVec 5) (s : State) : Out :=
  eside (.vfpsVfadd c d a b g) c 0#64 (s.readS b) (vfpLegal s.vt) s

/-- VFPS_VFSUB (R41). -/
noncomputable def execVfpsVfsub (c : BitVec 1) (d : BitVec 5) (a : BitVec 5) (b : BitVec 5) (g : BitVec 5) (s : State) : Out :=
  eside (.vfpsVfsub c d a b g) c 0#64 (s.readS b) (vfpLegal s.vt) s

/-- VFPS_VFMUL (R41). -/
noncomputable def execVfpsVfmul (c : BitVec 1) (d : BitVec 5) (a : BitVec 5) (b : BitVec 5) (g : BitVec 5) (s : State) : Out :=
  eside (.vfpsVfmul c d a b g) c 0#64 (s.readS b) (vfpLegal s.vt) s

/-- VFPS_VFDIV (R41). -/
noncomputable def execVfpsVfdiv (c : BitVec 1) (d : BitVec 5) (a : BitVec 5) (b : BitVec 5) (g : BitVec 5) (s : State) : Out :=
  eside (.vfpsVfdiv c d a b g) c 0#64 (s.readS b) (vfpLegal s.vt) s

/-- VFPS_VFMA (R41). -/
noncomputable def execVfpsVfma (c : BitVec 1) (d : BitVec 5) (a : BitVec 5) (b : BitVec 5) (g : BitVec 5) (s : State) : Out :=
  eside (.vfpsVfma c d a b g) c 0#64 (s.readS b) (vfpLegal s.vt) s

/-- VFPS_VFMS (R41). -/
noncomputable def execVfpsVfms (c : BitVec 1) (d : BitVec 5) (a : BitVec 5) (b : BitVec 5) (g : BitVec 5) (s : State) : Out :=
  eside (.vfpsVfms c d a b g) c 0#64 (s.readS b) (vfpLegal s.vt) s

/-- VFPS_VFMIN (R41). -/
noncomputable def execVfpsVfmin (c : BitVec 1) (d : BitVec 5) (a : BitVec 5) (b : BitVec 5) (g : BitVec 5) (s : State) : Out :=
  eside (.vfpsVfmin c d a b g) c 0#64 (s.readS b) (vfpLegal s.vt) s

/-- VFPS_VFMAX (R41). -/
noncomputable def execVfpsVfmax (c : BitVec 1) (d : BitVec 5) (a : BitVec 5) (b : BitVec 5) (g : BitVec 5) (s : State) : Out :=
  eside (.vfpsVfmax c d a b g) c 0#64 (s.readS b) (vfpLegal s.vt) s

/-- VCMP_EQ (R172). -/
noncomputable def execVcmpEq (c : BitVec 1) (d : BitVec 5) (a : BitVec 5) (b : BitVec 5) (g : BitVec 5) (k : BitVec 2) (s : State) : Out :=
  eside (.vcmpEq c d a b g k) c 0#64 0#64 (vcmpLegal s.vt k) s

/-- VCMP_NE (R172). -/
noncomputable def execVcmpNe (c : BitVec 1) (d : BitVec 5) (a : BitVec 5) (b : BitVec 5) (g : BitVec 5) (k : BitVec 2) (s : State) : Out :=
  eside (.vcmpNe c d a b g k) c 0#64 0#64 (vcmpLegal s.vt k) s

/-- VCMP_LT (R172). -/
noncomputable def execVcmpLt (c : BitVec 1) (d : BitVec 5) (a : BitVec 5) (b : BitVec 5) (g : BitVec 5) (k : BitVec 2) (s : State) : Out :=
  eside (.vcmpLt c d a b g k) c 0#64 0#64 (vcmpLegal s.vt k) s

/-- VCMP_GE (R172). -/
noncomputable def execVcmpGe (c : BitVec 1) (d : BitVec 5) (a : BitVec 5) (b : BitVec 5) (g : BitVec 5) (k : BitVec 2) (s : State) : Out :=
  eside (.vcmpGe c d a b g k) c 0#64 0#64 (vcmpLegal s.vt k) s

/-- VCMP_LE (R172). -/
noncomputable def execVcmpLe (c : BitVec 1) (d : BitVec 5) (a : BitVec 5) (b : BitVec 5) (g : BitVec 5) (k : BitVec 2) (s : State) : Out :=
  eside (.vcmpLe c d a b g k) c 0#64 0#64 (vcmpLegal s.vt k) s

/-- VCMP_GT (R172). -/
noncomputable def execVcmpGt (c : BitVec 1) (d : BitVec 5) (a : BitVec 5) (b : BitVec 5) (g : BitVec 5) (k : BitVec 2) (s : State) : Out :=
  eside (.vcmpGt c d a b g k) c 0#64 0#64 (vcmpLegal s.vt k) s

/-- VCMP_UN (R174). -/
noncomputable def execVcmpUn (c : BitVec 1) (d : BitVec 5) (a : BitVec 5) (b : BitVec 5) (g : BitVec 5) (s : State) : Out :=
  eside (.vcmpUn c d a b g) c 0#64 0#64 (vcmpLegal s.vt 2#2) s

/-- PAND (R175). -/
noncomputable def execPand (c : BitVec 1) (d : BitVec 5) (a : BitVec 5) (b : BitVec 5) (g : BitVec 5) (s : State) : Out :=
  eside (.pand c d a b g) c 0#64 0#64 (true) s

/-- POR (R175). -/
noncomputable def execPor (c : BitVec 1) (d : BitVec 5) (a : BitVec 5) (b : BitVec 5) (g : BitVec 5) (s : State) : Out :=
  eside (.por c d a b g) c 0#64 0#64 (true) s

/-- PXOR (R175). -/
noncomputable def execPxor (c : BitVec 1) (d : BitVec 5) (a : BitVec 5) (b : BitVec 5) (g : BitVec 5) (s : State) : Out :=
  eside (.pxor c d a b g) c 0#64 0#64 (true) s

/-- PANDN (R175). -/
noncomputable def execPandn (c : BitVec 1) (d : BitVec 5) (a : BitVec 5) (b : BitVec 5) (g : BitVec 5) (s : State) : Out :=
  eside (.pandn c d a b g) c 0#64 0#64 (true) s

/-- PNOT (R175). -/
noncomputable def execPnot (c : BitVec 1) (d : BitVec 5) (a : BitVec 5) (g : BitVec 5) (s : State) : Out :=
  eside (.pnot c d a g) c 0#64 0#64 (true) s

/-- PLEAD (R175). -/
noncomputable def execPlead (c : BitVec 1) (d : BitVec 5) (a : BitVec 5) (g : BitVec 5) (s : State) : Out :=
  eside (.plead c d a g) c 0#64 0#64 (true) s

/-- PTHRU (R175). -/
noncomputable def execPthru (c : BitVec 1) (d : BitVec 5) (a : BitVec 5) (g : BitVec 5) (s : State) : Out :=
  eside (.pthru c d a g) c 0#64 0#64 (true) s

/-- PPRE (R175). -/
noncomputable def execPpre (c : BitVec 1) (d : BitVec 5) (a : BitVec 5) (g : BitVec 5) (s : State) : Out :=
  eside (.ppre c d a g) c 0#64 0#64 (true) s

/-- PCNT (R175). -/
noncomputable def execPcnt (c : BitVec 1) (d : BitVec 5) (a : BitVec 5) (g : BitVec 5) (s : State) : Out :=
  eside (.pcnt c d a g) c 0#64 0#64 (true) s

/-- PANY (R175). -/
noncomputable def execPany (c : BitVec 1) (d : BitVec 5) (a : BitVec 5) (g : BitVec 5) (s : State) : Out :=
  eside (.pany c d a g) c 0#64 0#64 (true) s

/-- PSET (R175). -/
noncomputable def execPset (c : BitVec 1) (d : BitVec 5) (g : BitVec 5) (s : State) : Out :=
  eside (.pset c d g) c 0#64 0#64 (true) s

/-- PCLR (R175). -/
noncomputable def execPclr (c : BitVec 1) (d : BitVec 5) (g : BitVec 5) (s : State) : Out :=
  eside (.pclr c d g) c 0#64 0#64 (true) s

/-- PGETF (R175). -/
noncomputable def execPgetf (c : BitVec 1) (d : BitVec 5) (g : BitVec 5) (s : State) : Out :=
  eside (.pgetf c d g) c 0#64 0#64 (true) s

/-- VSLUP (R176). -/
noncomputable def execVslup (c : BitVec 1) (d : BitVec 5) (a : BitVec 5) (b : BitVec 5) (g : BitVec 5) (s : State) : Out :=
  eside (.vslup c d a b g) c 0#64 (s.readS b) (true) s

/-- VSLDN (R176). -/
noncomputable def execVsldn (c : BitVec 1) (d : BitVec 5) (a : BitVec 5) (b : BitVec 5) (g : BitVec 5) (s : State) : Out :=
  eside (.vsldn c d a b g) c 0#64 (s.readS b) (true) s

/-- VSLUPI (R176). -/
noncomputable def execVslupi (c : BitVec 1) (d : BitVec 5) (a : BitVec 5) (b : BitVec 5) (g : BitVec 5) (s : State) : Out :=
  eside (.vslupi c d a b g) c 0#64 0#64 (true) s

/-- VSLDNI (R176). -/
noncomputable def execVsldni (c : BitVec 1) (d : BitVec 5) (a : BitVec 5) (b : BitVec 5) (g : BitVec 5) (s : State) : Out :=
  eside (.vsldni c d a b g) c 0#64 0#64 (true) s

/-- VPERM (R176). -/
noncomputable def execVperm (c : BitVec 1) (d : BitVec 5) (a : BitVec 5) (b : BitVec 5) (g : BitVec 5) (s : State) : Out :=
  eside (.vperm c d a b g) c 0#64 0#64 (true) s

/-- VCOMP (R176). -/
noncomputable def execVcomp (c : BitVec 1) (d : BitVec 5) (a : BitVec 5) (b : BitVec 5) (s : State) : Out :=
  eside (.vcomp c d a b) c 0#64 0#64 (true) s

/-- VEXPD (R176). -/
noncomputable def execVexpd (c : BitVec 1) (d : BitVec 5) (a : BitVec 5) (b : BitVec 5) (s : State) : Out :=
  eside (.vexpd c d a b) c 0#64 0#64 (true) s

/-- VMERGE (R176). -/
noncomputable def execVmerge (c : BitVec 1) (d : BitVec 5) (a : BitVec 5) (b : BitVec 5) (g : BitVec 5) (s : State) : Out :=
  eside (.vmerge c d a b g) c 0#64 0#64 (true) s

/-- VBCAST (R176). -/
noncomputable def execVbcast (c : BitVec 1) (d : BitVec 5) (a : BitVec 5) (g : BitVec 5) (s : State) : Out :=
  eside (.vbcast c d a g) c (s.readS a) 0#64 (true) s

/-- VEXTR (R176). -/
noncomputable def execVextr (c : BitVec 1) (d : BitVec 5) (a : BitVec 5) (b : BitVec 5) (s : State) : Out :=
  eside (.vextr c d a b) c 0#64 (s.readS b) (true) s

/-- VINS (R176). -/
noncomputable def execVins (c : BitVec 1) (d : BitVec 5) (a : BitVec 5) (b : BitVec 5) (s : State) : Out :=
  eside (.vins c d a b) c (s.readS a) (s.readS b) (true) s

/-- VIOTA (R176). -/
noncomputable def execViota (c : BitVec 1) (d : BitVec 5) (a : BitVec 5) (g : BitVec 5) (s : State) : Out :=
  eside (.viota c d a g) c 0#64 0#64 (true) s

/-- VID (R176). -/
noncomputable def execVid (c : BitVec 1) (d : BitVec 5) (g : BitVec 5) (s : State) : Out :=
  eside (.vid c d g) c 0#64 0#64 (true) s

/-- VREDSUM (R179). -/
noncomputable def execVredsum (c : BitVec 1) (d : BitVec 5) (a : BitVec 5) (g : BitVec 5) (s : State) : Out :=
  eside (.vredsum c d a g) c 0#64 0#64 (vintLegal s.vt) s

/-- VREDMIN (R179). -/
noncomputable def execVredmin (c : BitVec 1) (d : BitVec 5) (a : BitVec 5) (g : BitVec 5) (s : State) : Out :=
  eside (.vredmin c d a g) c 0#64 0#64 (vintLegal s.vt) s

/-- VREDMAX (R179). -/
noncomputable def execVredmax (c : BitVec 1) (d : BitVec 5) (a : BitVec 5) (g : BitVec 5) (s : State) : Out :=
  eside (.vredmax c d a g) c 0#64 0#64 (vintLegal s.vt) s

/-- VFREDO (R179). -/
noncomputable def execVfredo (c : BitVec 1) (d : BitVec 5) (a : BitVec 5) (g : BitVec 5) (s : State) : Out :=
  eside (.vfredo c d a g) c 0#64 0#64 (vfpLegal s.vt) s

/-- VFREDT (R129). -/
noncomputable def execVfredt (c : BitVec 1) (d : BitVec 5) (a : BitVec 5) (g : BitVec 5) (s : State) : Out :=
  eside (.vfredt c d a g) c 0#64 0#64 (vfpLegal s.vt) s

/-- VFREDMIN (R179). -/
noncomputable def execVfredmin (c : BitVec 1) (d : BitVec 5) (a : BitVec 5) (g : BitVec 5) (s : State) : Out :=
  eside (.vfredmin c d a g) c 0#64 0#64 (vfpLegal s.vt) s

/-- VFREDMAX (R179). -/
noncomputable def execVfredmax (c : BitVec 1) (d : BitVec 5) (a : BitVec 5) (g : BitVec 5) (s : State) : Out :=
  eside (.vfredmax c d a g) c 0#64 0#64 (vfpLegal s.vt) s

/-- VCMUL (R182). -/
noncomputable def execVcmul (c : BitVec 1) (d : BitVec 5) (a : BitVec 5) (b : BitVec 5) (g : BitVec 5) (s : State) : Out :=
  eside (.vcmul c d a b g) c 0#64 0#64 (vcpxLegal s.vt) s

/-- VCMAC (R182). -/
noncomputable def execVcmac (c : BitVec 1) (d : BitVec 5) (a : BitVec 5) (b : BitVec 5) (g : BitVec 5) (s : State) : Out :=
  eside (.vcmac c d a b g) c 0#64 0#64 (vcpxLegal s.vt) s

/-- VCMULC (R182). -/
noncomputable def execVcmulc (c : BitVec 1) (d : BitVec 5) (a : BitVec 5) (b : BitVec 5) (g : BitVec 5) (s : State) : Out :=
  eside (.vcmulc c d a b g) c 0#64 0#64 (vcpxLegal s.vt) s

/-- VCABS2 (R182). -/
noncomputable def execVcabs2 (c : BitVec 1) (d : BitVec 5) (a : BitVec 5) (g : BitVec 5) (s : State) : Out :=
  eside (.vcabs2 c d a g) c 0#64 0#64 (vcpxLegal s.vt) s

/-- VCVT (R135). -/
noncomputable def execVcvt (c : BitVec 1) (d : BitVec 5) (a : BitVec 5) (e : BitVec 3) (g : BitVec 5) (f : BitVec 4) (s : State) : Out :=
  eside (.vcvt c d a e g f) c 0#64 0#64 (vcvtLegal s.vt d a e f) s

/-- VSCALE (R138). -/
noncomputable def execVscale (c : BitVec 1) (d : BitVec 5) (a : BitVec 5) (b : BitVec 5) (g : BitVec 5) (s : State) : Out :=
  eside (.vscale c d a b g) c 0#64 0#64 (vscaleLegal s.vt d a) s

/-- VQMAX (R139). -/
noncomputable def execVqmax (c : BitVec 1) (d : BitVec 5) (a : BitVec 5) (g : BitVec 5) (s : State) : Out :=
  eside (.vqmax c d a g) c 0#64 0#64 (vqmaxLegal s.vt d a) s

/-- MGP (R348). -/
noncomputable def execMgp (c : BitVec 1) (d : BitVec 5) (a : BitVec 5) (b : BitVec 5) (g : BitVec 5) (p : BitVec 2) (s : State) : Out :=
  eside (.mgp c d a b g p) c 0#64 0#64 (true) s

/-- MWDG (R348). -/
noncomputable def execMwdg (c : BitVec 1) (d : BitVec 5) (a : BitVec 5) (b : BitVec 5) (g : BitVec 5) (p : BitVec 2) (s : State) : Out :=
  eside (.mwdg c d a b g p) c 0#64 0#64 (true) s

/-- MDOT (R348). -/
noncomputable def execMdot (c : BitVec 1) (d : BitVec 5) (a : BitVec 5) (b : BitVec 5) (g : BitVec 5) (p : BitVec 2) (s : State) : Out :=
  eside (.mdot c d a b g p) c 0#64 0#64 (true) s

/-- MLCT (R348). -/
noncomputable def execMlct (c : BitVec 1) (d : BitVec 5) (a : BitVec 5) (b : BitVec 5) (g : BitVec 5) (p : BitVec 2) (s : State) : Out :=
  eside (.mlct c d a b g p) c 0#64 0#64 (true) s

/-- MJOIN (R348). -/
noncomputable def execMjoin (c : BitVec 1) (d : BitVec 5) (a : BitVec 5) (b : BitVec 5) (g : BitVec 5) (p : BitVec 2) (s : State) : Out :=
  eside (.mjoin c d a b g p) c 0#64 0#64 (true) s

/-- MSAND (R349). -/
noncomputable def execMsand (c : BitVec 1) (d : BitVec 5) (a : BitVec 5) (b : BitVec 5) (g : BitVec 5) (p : BitVec 2) (s : State) : Out :=
  eside (.msand c d a b g p) c 0#64 0#64 (true) s

/-- MCOMM (R348). -/
noncomputable def execMcomm (c : BitVec 1) (d : BitVec 5) (a : BitVec 5) (b : BitVec 5) (g : BitVec 5) (p : BitVec 2) (s : State) : Out :=
  eside (.mcomm c d a b g p) c 0#64 0#64 (true) s

/-- MREV (R351). -/
noncomputable def execMrev (c : BitVec 1) (d : BitVec 5) (a : BitVec 5) (g : BitVec 5) (p : BitVec 2) (s : State) : Out :=
  eside (.mrev c d a g p) c 0#64 0#64 (true) s

/-- MDUAL (R351). -/
noncomputable def execMdual (c : BitVec 1) (d : BitVec 5) (a : BitVec 5) (g : BitVec 5) (p : BitVec 2) (s : State) : Out :=
  eside (.mdual c d a g p) c 0#64 0#64 (true) s

/-- MGRD (R351). -/
noncomputable def execMgrd (c : BitVec 1) (d : BitVec 5) (a : BitVec 5) (b : BitVec 5) (g : BitVec 5) (p : BitVec 2) (s : State) : Out :=
  eside (.mgrd c d a b g p) c 0#64 0#64 (true) s

/-- MNRM2 (R352). -/
noncomputable def execMnrm2 (c : BitVec 1) (d : BitVec 5) (a : BitVec 5) (g : BitVec 5) (p : BitVec 2) (s : State) : Out :=
  eside (.mnrm2 c d a g p) c 0#64 0#64 (true) s

/-- MNRMI (R352). -/
noncomputable def execMnrmi (c : BitVec 1) (d : BitVec 5) (a : BitVec 5) (g : BitVec 5) (p : BitVec 2) (s : State) : Out :=
  eside (.mnrmi c d a g p) c 0#64 0#64 (true) s

/-- MNORMZ (R353). -/
noncomputable def execMnormz (c : BitVec 1) (d : BitVec 5) (a : BitVec 5) (g : BitVec 5) (p : BitVec 2) (s : State) : Out :=
  eside (.mnormz c d a g p) c 0#64 0#64 (true) s

/-- MEXPB (R354). -/
noncomputable def execMexpb (c : BitVec 1) (d : BitVec 5) (a : BitVec 5) (g : BitVec 5) (p : BitVec 2) (s : State) : Out :=
  eside (.mexpb c d a g p) c 0#64 0#64 (true) s

/-- MLOGM (R355). -/
noncomputable def execMlogm (c : BitVec 1) (d : BitVec 5) (a : BitVec 5) (g : BitVec 5) (p : BitVec 2) (s : State) : Out :=
  eside (.mlogm c d a g p) c 0#64 0#64 (true) s

/-- MMOV (R333). -/
noncomputable def execMmov (c : BitVec 1) (d : BitVec 5) (a : BitVec 5) (g : BitVec 5) (p : BitVec 2) (s : State) : Out :=
  eside (.mmov c d a g p) c 0#64 0#64 (true) s

/-- MSETM (R334). -/
noncomputable def execMsetm (c : BitVec 1) (d : BitVec 5) (b : BitVec 5) (s : State) : Out :=
  eside (.msetm c d b) c 0#64 0#64 (true) s

/-- MGETM (R335). -/
noncomputable def execMgetm (c : BitVec 1) (d : BitVec 5) (a : BitVec 5) (s : State) : Out :=
  eside (.mgetm c d a) c 0#64 0#64 (true) s

/-- MCLEAN (R336). -/
noncomputable def execMclean (c : BitVec 1) (d : BitVec 5) (a : BitVec 5) (s : State) : Out :=
  eside (.mclean c d a) c 0#64 0#64 (true) s

/-- MFROMV (R337). -/
noncomputable def execMfromv (c : BitVec 1) (d : BitVec 5) (a : BitVec 5) (b : BitVec 5) (g : BitVec 5) (p : BitVec 2) (s : State) : Out :=
  eside (.mfromv c d a b g p) c 0#64 0#64 (true) s

/-- MTOV (R337). -/
noncomputable def execMtov (c : BitVec 1) (d : BitVec 5) (a : BitVec 5) (b : BitVec 5) (g : BitVec 5) (s : State) : Out :=
  eside (.mtov c d a b g) c 0#64 0#64 (true) s

/-- MADD (R338). -/
noncomputable def execMadd (c : BitVec 1) (d : BitVec 5) (a : BitVec 5) (b : BitVec 5) (g : BitVec 5) (p : BitVec 2) (s : State) : Out :=
  eside (.madd c d a b g p) c 0#64 0#64 (true) s

/-- MSUB (R338). -/
noncomputable def execMsub (c : BitVec 1) (d : BitVec 5) (a : BitVec 5) (b : BitVec 5) (g : BitVec 5) (p : BitVec 2) (s : State) : Out :=
  eside (.msub c d a b g p) c 0#64 0#64 (true) s

/-- MSCAL (R339). -/
noncomputable def execMscal (c : BitVec 1) (d : BitVec 5) (a : BitVec 5) (b : BitVec 5) (g : BitVec 5) (p : BitVec 2) (s : State) : Out :=
  eside (.mscal c d a b g p) c 0#64 (s.readS b) (true) s

/-- MCONJ (R339). -/
noncomputable def execMconj (c : BitVec 1) (d : BitVec 5) (a : BitVec 5) (g : BitVec 5) (p : BitVec 2) (s : State) : Out :=
  eside (.mconj c d a g p) c 0#64 0#64 (true) s

/-- MINVOL (R339). -/
noncomputable def execMinvol (c : BitVec 1) (d : BitVec 5) (a : BitVec 5) (g : BitVec 5) (p : BitVec 2) (s : State) : Out :=
  eside (.minvol c d a g p) c 0#64 0#64 (true) s

/-- MXAC (R404). -/
noncomputable def execMxac (c : BitVec 1) (d : BitVec 5) (a : BitVec 5) (l : BitVec 5) (h : BitVec 3) (w : BitVec 1) (tk : BitVec 1) (s : State) : Out :=
  eside (.mxac c d a l h w tk) c 0#64 0#64 (mxacLegal false s.vt s.cur.conf.grant s.cur.conf.tgrant d) s

/-- MXACS (R404). -/
noncomputable def execMxacs (c : BitVec 1) (d : BitVec 5) (a : BitVec 5) (l : BitVec 5) (h : BitVec 3) (w : BitVec 1) (tk : BitVec 1) (s : State) : Out :=
  eside (.mxacs c d a l h w tk) c 0#64 0#64 (mxacLegal true s.vt s.cur.conf.grant s.cur.conf.tgrant d) s

/-- MZERO (R406). -/
noncomputable def execMzero (c : BitVec 1) (d : BitVec 5) (w : BitVec 1) (tk : BitVec 1) (s : State) : Out :=
  eside (.mzero c d w tk) c 0#64 0#64 (tileOk s.vt d) s

/-- ACLD (R406). -/
noncomputable def execAcld (c : BitVec 1) (d : BitVec 5) (a : BitVec 5) (w : BitVec 1) (tk : BitVec 1) (s : State) : Out :=
  eside (.acld c d a w tk) c 0#64 0#64 (moveLegal s.vt s.cur.conf.grant s.cur.conf.tgrant d a) s

/-- ACST (R406). -/
noncomputable def execAcst (c : BitVec 1) (d : BitVec 5) (a : BitVec 5) (w : BitVec 1) (tk : BitVec 1) (s : State) : Out :=
  eside (.acst c d a w tk) c 0#64 0#64 (moveLegal s.vt s.cur.conf.grant s.cur.conf.tgrant d a) s

/-- MCHK (R412). -/
noncomputable def execMchk (c : BitVec 1) (d : BitVec 5) (e : BitVec 1) (w : BitVec 1) (tk : BitVec 1) (s : State) : Out :=
  eside (.mchk c d e w tk) c 0#64 0#64 (true) s

/-- VTOK (R378). -/
noncomputable def execVtok (c : BitVec 1) (w : BitVec 1) (tk : BitVec 1) (s : State) : Out :=
  eside (.vtok c w tk) c 0#64 0#64 (true) s

end Sys2Proof.Machine
end

