-- ==== Sys2Proof/Machine/Hub.lean ====
section
/-!
DEFINITION. What reaches the module from outside its threads: the governor (01 R25, R26), peers and their links (07 R259,
R260; 17 R504 to R506), and errors (16 R491 to R494).
-/
namespace Sys2Proof.Machine

noncomputable section

/-! ## The governor (R26) -/

/-- The governor sets a core's CEIL and a quad's ROWCAP and PACE (R142, R387). -/
def execGovernorEvaluation (core ceil quad rowcap pace : Nat) (s : State) : Out :=
  let s1 := s.setCore core { s.core core with ceil := ceil }
  let s2 := s1.setQuad quad { s1.quad quad with rowcap := rowcap, pace := pace }
  .next (s2.lanes core)

/-! ## Peers (R259, R505, R506) -/

/-- The hub state with a change. -/
def State.onHub (s : State) (f : Hub → Hub) : State := { s with hub := f s.hub }

/-- A violation from outside the partitions, in the physical function's log with CLASS 5 (R490, R494). -/
def State.logOutside (s : State) (addr unit : Nat) : State := s.logPf (w64 addr) 0xFFFF unit s.synd 5 0

/-- Bytes that a peer's request touches. -/
def peerSize (o : PeerOp) : Nat :=
  match o with
  | .read n => n
  | .write bs => bs.length
  | .atomic _ half _ _ => if half then 4 else 8

/-- Does a request write? -/
def peerWrites (o : PeerOp) : Bool :=
  match o with
  | .read _ => false
  | _ => true

/-- The exported aperture of a request, if the request may be made (R494, R503). -/
def State.apertureFor (s : State) (q : PeerReq) : Option Aperture :=
  s.hub.apertures.find? (fun a => a.num == q.aperture && decide (q.offset + peerSize q.op ≤ a.size) &&
    (a.writable || !peerWrites q.op))

/-- The physical bytes of a request. -/
def peerPlaces (a : Aperture) (q : PeerReq) : List Nat := rangeFrom (a.base + q.offset) (peerSize q.op)

/-- The sharers that an aperture's home tracks, changed. -/
def State.setSharers (s : State) (num : Nat) (l : List Nat) : State :=
  s.onHub (fun h => { h with apertures := h.apertures.map (fun x => if x.num = num then { x with sharers := l } else x) })

/-- A read of a read-shared aperture makes its requester a sharer, of which the home tracks 8 (R506). -/
def State.shareLine (s : State) (a : Aperture) (q : PeerReq) : State :=
  if !a.shared || peerWrites q.op || a.sharers.contains q.requester || decide (8 ≤ a.sharers.length) then s
  else s.setSharers a.num (a.sharers ++ [q.requester])

/-- Does the aperture hold the byte? -/
def Aperture.holds (a : Aperture) (pa : Nat) : Bool := decide (a.base ≤ pa) && decide (pa < a.base + a.size)

/-- The sharers of the apertures that writes have touched are invalidated, whoever wrote (R506). Their acknowledgements come
within the step that writes, so no write is seen before them (log 6). -/
def State.invalidate (s : State) (writes : List OldByte) : State :=
  s.hub.apertures.foldl (fun s a =>
    if a.shared && !a.sharers.isEmpty && writes.any (fun w => a.holds w.pa) then
      (s.setSharers a.num []).emit (.invalidate a.num a.sharers)
    else s) s

/-- A request performed at its home line, with its reply (R505). An atomic acts as its scalar instruction does (R239). -/
def State.peerApply (s : State) (a : Aperture) (q : PeerReq) : State × List Byte :=
  let pas := peerPlaces a q
  let old := pas.map s.mem.byte
  let s1 := s.shareLine a q
  match q.op with
  | .read _ => (s1, old)
  | .write bs => (s1.putBy .outside pas bs, [])
  | .atomic op _ v e =>
    let n := peerSize q.op
    let low := fun (x : Word) => bitsAt x.toNat 0 (8 * n)
    (match amoResult op n (ofBytes old) (low v) (low e) with
     | some r => s1.putBy .outside pas (bytesOf n r.val)
     | none => s1, old)

/-- A request from a peer module at a trained port, through the replay filter (R259, R260, R504, R505): one that is sent again is
known by its requester and tag, over whatever port it comes. -/
def execPeerRequest (q : PeerReq) (s : State) : Out :=
  let mine := s.hub.replay.filter (fun r => r.port == q.port)
  if !(Table.get s.hub.ports Port.reset q.port).trained then .next s
  else match s.hub.replay.find? (fun r => r.requester == q.requester && r.tag == q.tag) with
  | some r => .next (s.emit (.peerReply q.port q.requester q.tag r.reply))
  | none =>
    match s.apertureFor q with
    | none => .next ((s.logOutside q.offset 0x2000).emit (.peerError q.port q.requester q.tag))
    | some a =>
      if 4096 ≤ mine.length then .next (s.emit (.peerRetry q.port q.requester q.tag))
      else
        let r := s.peerApply a q
        let s1 := r.1.onHub (fun h => { h with replay := h.replay ++ [⟨q.port, q.requester, q.tag, r.2⟩] })
        .next (s1.emit (.peerReply q.port q.requester q.tag r.2))

/-- The acknowledgement of a reply, over whatever port, removes its entry from the filter (R259). -/
def execReplyAcknowledgement (_ requester tag : Nat) (s : State) : Out :=
  .next (s.onHub (fun h => { h with replay := h.replay.filter (fun r => !(r.requester == requester && r.tag == tag)) }))

/-- A request resent over a die-to-die link carries its tag, so its home applies it once (R259). -/
def execDieToDieLinkRetry (_ : Nat) (s : State) : Out := .next s

/-! ## Requests to peers (R260) -/

/-- The thread that waits for the reply to a request tag. -/
def State.awaits (s : State) (tag : Nat) : Option Thread :=
  s.onChip.find? (fun t => decide (t.prog.wait = .retry (.peer tag)))

/-- A thread that waits for a reply sends its request again under the same tag: its word executes again. -/
def execPeerResend (tag : Nat) (s : State) : Out :=
  match s.awaits tag with
  | none => .next s
  | some t => .next (s.onThread t.id (fun t => t.keepTag tag (.retry .other)))

/-- A full replay filter answers with a retry, which is honoured after 1 µs. -/
def execPeerRetryReply (tag : Nat) (s : State) : Out :=
  match s.awaits tag with
  | none => .next s
  | some _ => .next (if s.timers.contains (.peerResend tag) then s else s.timer (.peerResend tag))

/-- The thread with a pending access under a request tag, the place of the access among its work, and its past. -/
def State.awaitsEntry (s : State) (tag : Nat) : Option (Thread × Nat × Undo) :=
  (s.onChip.filterMap (fun t =>
    let k := t.viq.findIdx (fun e => e.undo.any (fun u => u.tag == tag))
    ((t.viq[k]?).bind VEntry.undo).map (fun u => (t, k, u)))).head?

/-- A thread as it stood at the word of an access to a peer that fails, entry k of its work: the word and those after it leave no
trace (R467). -/
def Thread.takeBack (t : Thread) (k : Nat) (u : Undo) : Thread :=
  { t with
    pc := u.pc, s := u.s, q := unpop u.pops t.q, conf := u.conf, dims := u.dims, loops := u.loops
    user := { t.user with vfirst := u.vfirst }
    mat := { t.mat with chk := u.chk }
    viq := t.viq.take k
    framing := none
    prog := { t.prog with instret := u.instret, last := u.last } }

/-- After 2 ms without a reply the thread traps LINK_ERROR with the tag, at the word whose access it was; a return resends under
it (R260). -/
def execLinkError (tag : Nat) (s : State) : Out :=
  match s.awaits tag, s.awaitsEntry tag with
  | some t, _ => .next ({ s with timers := s.timers.filter (fun i => i != Instr.wfeTimeout t.id) }.linkLost t.id tag)
  | none, some (t, k, u) => .next (((s.cancelWaits t.id).onThread t.id (fun t => t.takeBack k u)).linkLost t.id tag)
  | none, none => .next s

/-! ## Crinik ports (R504) -/

/-- A port. -/
def Hub.port (h : Hub) (k : Nat) : Port := Table.get h.ports Port.reset k

/-- A port changed. -/
def State.onPort (s : State) (k : Nat) (f : Port → Port) : State :=
  s.onHub (fun h => { h with ports := Table.set h.ports Port.reset k (f (h.port k)) })

/-- A flit with a bad CRC is sent again; nothing else changes. -/
def execFlitCrcRetry (_ : Nat) (s : State) : Out := .next s

/-- A failed lane is replaced by the spare; with the spare in use the port drops to 4 lanes. -/
def execCrinikLaneFailure (port : Nat) (s : State) : Out :=
  .next (s.onPort port (fun p =>
    if !p.trained then p else if p.spareUsed then { p with lanes := 4 } else { p with spareUsed := true }))

/-- A lost port carries nothing; its traffic moves to the other ports. -/
def execCrinikPortLoss (port : Nat) (s : State) : Out := .next (s.onPort port (fun _ => Port.reset))

/-! ## Errors (R491 to R494) -/

/-- A host request that its function may not make: nothing is performed, the host gets Unsupported Request, and the
violation is logged (R494). -/
def execHostRequest (part addr : Nat) (s : State) : Out :=
  let s1 := if part < 32 then s.logError part (w64 addr) 0x2000 s.synd 5 0 else s.logOutside addr 0x2000
  .next (s1.emit .unsupportedRequest)

/-- The partition that owns a core's quad, or 0xFFFF. -/
def State.ownerOf (s : State) (core : Nat) : Nat := ((s.quad (quadOf core)).owner).getD 0xFFFF

/-- A record in the log of a partition, or in the physical function's (R490). -/
def State.record (s : State) (part : Nat) (addr : Word) (unit cls cause : Nat) : State :=
  if part < 32 then s.logError part addr unit s.synd cls cause else s.logPf addr part unit s.synd cls cause

/-- The thread that holds a lane group of a core. -/
def State.holder (s : State) (core group : Nat) : Option Thread :=
  s.onChip.find? (fun t => t.place.core == core && ((s.core core).latOf t.place.slot).map.getLsbD group)

/-- The syndrome of a lane group's second failure in a thread: the numbers of the mirror pair's groups under protected mirror
mode, the lower in the low byte (R162), else one that the spec leaves open (log 10). -/
def State.laneSynd (s : State) (t : Thread) (core group : Nat) : BitVec 32 :=
  if ((s.core core).latOf t.place.slot).pm then BitVec.ofNat 32 (group / 2 * 2 + 256 * (group / 2 * 2 + 1)) else s.synd

/-- Have lane groups still something to compute or send for an entry of the pending work: every entry but those of the A-side? -/
def VEntry.lanes (e : VEntry) : Bool :=
  match e with
  | .scalar _ _ _ => false
  | .reply _ _ => false
  | _ => true

/-- The oldest entry of a thread's pending work that its lane groups have still to compute or send (log 10). -/
def Thread.computing (t : Thread) : Option (Nat × VEntry) :=
  (findIdxOpt VEntry.lanes t.viq 0).bind (fun k => (t.viq[k]?).map (fun e => (k, e)))

/-- Has all work before the oldest convoy of a lane group's thread gone, where that convoy is what the group computes? Its failure
comes no sooner, since a convoy that traps waits for earlier work (R468). -/
def State.laneReady (s : State) (core group : Nat) : Bool :=
  match (s.holder core group).bind Thread.computing with
  | some (_ + 1, .convoy _) => false
  | _ => true

/-- The second failure in a lane group of a thread: no result of it is written or sent (R162). A convoy traps at its first word
with the member at hand not executed, other work leaves undone, and where nothing waits the check comes before the thread's
next word. -/
def State.laneFails (s : State) (t : Thread) (core group : Nat) : State :=
  let synd := s.laneSynd t core group
  match t.computing with
  | some (0, .convoy v) => s.asThread t.id (eTrap v { cause := cMachine, logSynd := some synd })
  | some (_, .convoy _) => { s with inputs := s.inputs ++ [.softError core group true] }
  | some (k, _) => (s.asThread t.id (State.leaveViq k)).asyncTrap t.id 0#64 core synd
  | none => s.asyncTrap t.id 0#64 core synd

/-- A soft error in a lane group: the element group is executed again, with a record of CLASS 1; a second one in the same
element group is a MACHINE_CHECK in the thread that holds the group (R162, R491, R492). -/
def execSoftError (core group : Nat) (again : Bool) (s : State) : Out :=
  if !again then .next ((s.record (s.ownerOf core) 0#64 core 1 0).emit .aerCorrectable)
  else
    match s.holder core group with
    | some t => .next (s.laneFails t core group)
    | none => .next ((s.record (s.ownerOf core) 0#64 core 2 cMachine).emit .aerNonFatal)

/-- A corrected ECC error (R491). -/
def execEccCorrected (part addr unit : Nat) (s : State) : Out :=
  .next ((s.record part (w64 addr) unit 1 0).emit .aerCorrectable)

/-- The partition to which a physical byte of local memory was granted, or 0xFFFF. -/
def State.grantee (s : State) (pa : Nat) : Nat :=
  ((s.parts.find? (fun e => e.2.ranges.any (fun r => decide (r.1 ≤ pa) && decide (pa < r.1 + r.2)))).map (fun e => e.1)).getD
    0xFFFF

/-- Uncorrectable data is marked poison where it lies, with a record of CLASS 2 and a non-fatal AER message. R491 names a
MACHINE_CHECK beside them and R493 has nothing raised until the data is consumed; the model follows R493 (log 32). A command
that writes one of the lines completes with an error (R372). -/
def execUncorrectableError (addr len : Nat) (s : State) : Out :=
  let pas := rangeFrom addr len
  let s1 := (s.record (s.grantee addr) (w64 addr) (0x1000 + homeOf addr) 2 0).emit .aerNonFatal
  let hit := fun (c : Cmd) => ((pas.map (fun a => a / 64)).eraseDups).filter (fun l =>
    c.body.dests.any (fun r => decide (0 < r.2) && decide (r.1 / 64 ≤ l) && decide (l ≤ (r.1 + r.2 - 1) / 64)))
  .next { s1 with
    mem := { s1.mem with poison := s1.mem.poison ++ pas.filter (fun a => !s1.mem.poison.contains a) }
    cmds := s1.cmds.map (fun c => { c with lost := c.lost ++ hit c }) }

/-- Loss of state that all partitions share: every partition halts, and ERR_FATAL is signalled (R491). -/
def execFatalDeviceError (unit : Nat) (s : State) : Out :=
  let s1 := (s.logPf 0#64 0xFFFF unit s.synd 4 0).emit .aerFatal
  let halt := fun (p : Part) => if p.state = .absent then p else { p with state := .halted }
  .next (({ s1 with parts := s1.parts.map (fun e => (e.1, halt e.2)) } : State).onHub (fun h => { h with fatal := true }))

end

end Sys2Proof.Machine
end

