-- ==== Sys2Proof/Machine/Illegal.lean ====
section
/-!
DEFINITION. Words that are no instruction (02 R34 to R36, R44).
-/
namespace Sys2Proof.Machine

/-- The major opcode of a word (R33). -/
def majorOf (w : BitVec 32) : Nat := bitsAt w.toNat 25 6

/-- Is a major A-side (R34)? -/
def asideMajor (op : Nat) : Bool := decide (1 ≤ op) && decide (op ≤ 0x23)

/-- Is a major E-side (R34)? -/
def esideMajor (op : Nat) : Bool := decide (0x28 ≤ op) && decide (op ≤ 0x37)

/-- A word that the decoder refuses: ILLEGAL, or, after a member with C = 1, ILLEGAL or CONVOY_ILLEGAL of the convoy (R44),
which names the convoy's first word (R36). -/
def execIllegalWord (w : BitVec 32) (s : State) : Out :=
  match s.cur.framing with
  | some v =>
    trapWhen { cause := if asideMajor (majorOf w) then cConvoy else cIllegal, eside := true, epc := some v.pc } s s
  | none => trapWhen { cause := cIllegal, eside := esideMajor (majorOf w) } s s

end Sys2Proof.Machine
end

