-- ==== Sys2Proof/Machine/LoadFps.lean ====
section
/-!
DEFINITION. Scalar loads and stores (03 R75 to R78) and scalar floating point (03 R79 to R85).
-/
namespace Sys2Proof.Machine

noncomputable section

/-! ## LD and ST -/

/-- The address of a scalar access (R75). -/
def scalarEa (a : BitVec 5) (i : BitVec 12) (s : State) : Word := s.readS a + sext i

/-- A load of n bytes, sign-extended where sx holds. -/
def loadWord (n : Nat) (sx : Bool) (d a : BitVec 5) (i : BitVec 12) (s : State) : Out :=
  aside false complete (fun s => s.scalarAccess .read (scalarEa a i s) n false false (.load d n sx)) s

def execLb (d a : BitVec 5) (i : BitVec 12) (s : State) : Out := loadWord 1 true d a i s
def execLh (d a : BitVec 5) (i : BitVec 12) (s : State) : Out := loadWord 2 true d a i s
def execLw (d a : BitVec 5) (i : BitVec 12) (s : State) : Out := loadWord 4 true d a i s
def execLd (d a : BitVec 5) (i : BitVec 12) (s : State) : Out := loadWord 8 false d a i s
def execLbu (d a : BitVec 5) (i : BitVec 12) (s : State) : Out := loadWord 1 false d a i s
def execLhu (d a : BitVec 5) (i : BitVec 12) (s : State) : Out := loadWord 2 false d a i s
def execLwu (d a : BitVec 5) (i : BitVec 12) (s : State) : Out := loadWord 4 false d a i s

/-- LDK is an access of AG0 (R77) that reads on the constant path. -/
def execLdk (d a : BitVec 5) (i : BitVec 12) (s : State) : Out :=
  aside false complete (fun s => s.scalarAccess .read (scalarEa a i s) 8 false false (.ldk d)) s

/-- A store of the low n bytes of sD. -/
def storeWord (n : Nat) (d a : BitVec 5) (i : BitVec 12) (s : State) : Out :=
  aside false complete (fun s =>
    s.scalarAccess .write (scalarEa a i s) n false false (.store (bytesOf n (s.readS d).toNat) false)) s

def execSb (d a : BitVec 5) (i : BitVec 12) (s : State) : Out := storeWord 1 d a i s
def execSh (d a : BitVec 5) (i : BitVec 12) (s : State) : Out := storeWord 2 d a i s
def execSw (d a : BitVec 5) (i : BitVec 12) (s : State) : Out := storeWord 4 d a i s
def execSd (d a : BitVec 5) (i : BitVec 12) (s : State) : Out := storeWord 8 d a i s

/-! ## FPS -/

/-- The format of a precision code (R79). -/
def fpsFmt (p : BitVec 2) : Fmt := if p = 1#2 then fp64 else fp32

/-- An operand's encoding. -/
def fpsEnc (p : BitVec 2) (x : Word) : Nat := bitsAt x.toNat 0 (fpsFmt p).width

/-- An FPS word that writes a value with flags. -/
def fpsWord (f : State → Fl Nat) (d : BitVec 5) (s : State) : Out :=
  asideReg (fun s =>
    let r := f s
    (s.writeS d (w64 r.val)).raiseA r.fl) s

/-- A two-operand operation on the exact values, rounded. -/
def fpsArith (f : Nat → FV → FV → Fl FV) (d a b : BitVec 5) (p r : BitVec 2) (s : State) : Out :=
  fpsWord (fun s =>
    let m := fpsFmt p
    roundFl m r.toNat (f r.toNat (m.value (fpsEnc p (s.readS a))) (m.value (fpsEnc p (s.readS b))))) d s

def execFadd (d a b : BitVec 5) (p r : BitVec 2) (s : State) : Out :=
  fpsArith (fun rm x y => sumTerms rm [x, y]) d a b p r s
def execFsub (d a b : BitVec 5) (p r : BitVec 2) (s : State) : Out :=
  fpsArith (fun rm x y => sumTerms rm [x, y.negate]) d a b p r s
def execFmul (d a b : BitVec 5) (p r : BitVec 2) (s : State) : Out := fpsArith (fun _ x y => x.mul y) d a b p r s
def execFdiv (d a b : BitVec 5) (p r : BitVec 2) (s : State) : Out := fpsArith (fun _ x y => x.div y) d a b p r s
def execFsqrt (d a : BitVec 5) (p r : BitVec 2) (s : State) : Out :=
  fpsWord (fun s => sqrtOnce (fpsFmt p) r.toNat ((fpsFmt p).value (fpsEnc p (s.readS a)))) d s
def execFma (d a b : BitVec 5) (p r : BitVec 2) (s : State) : Out :=
  fpsWord (fun s =>
    let m := fpsFmt p
    let v := fun x => m.value (fpsEnc p (s.readS x))
    roundFl m r.toNat (sumFl r.toNat [(v a).mul (v b), ⟨v d, 0⟩])) d s

/-- FMIN and FMAX. -/
def fpsMinMax (isMax : Bool) (d a b : BitVec 5) (p : BitVec 2) (s : State) : Out :=
  fpsWord (fun s => fminmax (fpsFmt p) isMax (fpsEnc p (s.readS a)) (fpsEnc p (s.readS b))) d s

def execFmin (d a b : BitVec 5) (p : BitVec 2) (s : State) : Out := fpsMinMax false d a b p s
def execFmax (d a b : BitVec 5) (p : BitVec 2) (s : State) : Out := fpsMinMax true d a b p s

/-- A comparison (R81): 0 where an operand is NaN; NV for a signalling NaN, and where loud for any NaN. -/
def fpsCompare (loud : Bool) (f : FV → FV → Bool) (d a b : BitVec 5) (p : BitVec 2) (s : State) : Out :=
  fpsWord (fun s =>
    let x := (fpsFmt p).value (fpsEnc p (s.readS a))
    let y := (fpsFmt p).value (fpsEnc p (s.readS b))
    let nan := x.isNan || y.isNan
    ⟨if nan then 0 else b2n (f x y), if x.isSig || y.isSig || (loud && nan) then fNV else 0⟩) d s

def execFeq (d a b : BitVec 5) (p : BitVec 2) (s : State) : Out := fpsCompare false FV.eq d a b p s
def execFlt (d a b : BitVec 5) (p : BitVec 2) (s : State) : Out := fpsCompare true FV.lt d a b p s
def execFle (d a b : BitVec 5) (p : BitVec 2) (s : State) : Out :=
  fpsCompare true (fun x y => FV.lt x y || FV.eq x y) d a b p s

/-- The integer type of B: signed, and its width (R82). -/
def fpsInt (b : BitVec 5) : Bool × Nat :=
  match b.toNat with
  | 0 => (true, 64)
  | 1 => (false, 64)
  | 2 => (true, 32)
  | _ => (false, 32)

def execFcvtfi (d a b : BitVec 5) (p r : BitVec 2) (s : State) : Out :=
  fpsWord (fun s =>
    let t := fpsInt b
    let v := toInt t.1 t.2 r.toNat ((fpsFmt p).value (fpsEnc p (s.readS a)))
    ⟨wrapN 64 v.val, v.fl⟩) d s

def execFcvtif (d a b : BitVec 5) (p r : BitVec 2) (s : State) : Out :=
  fpsWord (fun s =>
    let t := fpsInt b
    let x := bitsAt (s.readS a).toNat 0 t.2
    roundOnce (fpsFmt p) r.toNat false (FV.ofInt (if t.1 then sgnN t.2 x else (x : Int)))) d s

def execFcvtff (d a : BitVec 5) (p r : BitVec 2) (s : State) : Out :=
  fpsWord (fun s =>
    let from_ := if p = 1#2 then fp32 else fp64
    let x := from_.value (bitsAt (s.readS a).toNat 0 from_.width)
    let v := roundOnce (fpsFmt p) r.toNat false x
    ⟨v.val, v.fl ||| (if x.isSig then fNV else 0)⟩) d s

/-- FCLASS reads a signalling NaN as any operation does (R81). -/
def execFclass (d a : BitVec 5) (p : BitVec 2) (s : State) : Out :=
  fpsWord (fun s =>
    let x := fpsEnc p (s.readS a)
    ⟨classMask (fpsFmt p) x, if ((fpsFmt p).value x).isSig then fNV else 0⟩) d s

end

end Sys2Proof.Machine
end

