-- ==== Sys2Proof/Machine/Manage.lean ====
section
/-!
DEFINITION. The physical function and the configuration requests (17 R497 to R503, R508, R509), partition changes (14 R439),
service (R512, R513), power states (R514), measurements and telemetry (R507, R510) and bring-up (R515).
-/
namespace Sys2Proof.Machine

noncomputable section

/-! ## Ownership (R500, R509) -/

/-- The physical function's registers changed. -/
def State.onPf (s : State) (f : PfRegs → PfRegs) : State := s.onHub (fun h => { h with pf := f h.pf })

/-- Does a master reach the physical function? The host does once the PCIe link is trained, until power state P3; the Buloth
port while auxiliary power is up, also with the main rails down (R507, R508, R514, R515). -/
def State.hubUp (s : State) (m : Master) : Bool :=
  match m with
  | .host => decide (5 ≤ s.hub.stage) && decide (s.hub.power ≠ 3)
  | .port => decide (1 ≤ s.hub.stage)

/-- Is a master the owner? -/
def Hub.owns (h : Hub) (m : Master) : Bool :=
  match m with
  | .host => h.pf.owner == 0#1
  | .port => h.pf.owner == 1#1

/-- A configuration write or request of the master that is not the owner (R509). Where a request is being carried out, REQSTAT
stays that request's, STATE 1, and only the answer tells of the refusal: the model's reading of R509 beside R502 (log 33). -/
def State.turnAway (s : State) (m : Master) : State :=
  let s1 := if s.hub.pf.reqState = .busy then s else s.onPf (fun p => { p with reqState := .refused, reason := 1 })
  match m with
  | .host => s1.emit .unsupportedRequest
  | .port => s1.emit .mctpNotReady

/-- A write that only the owner may make. -/
def State.asOwner (s : State) (m : Master) (f : State → State) : State :=
  if !s.hubUp m then s else if s.hub.owns m then f s else s.turnAway m

/-- The takeover timer starts anew. -/
def State.restartTimer (s : State) : State :=
  { s with timers := s.timers.filter (fun i => i != Instr.takeoverExpiry) ++ [.takeoverExpiry] }

/-- The takeover timer stops. -/
def State.stopTimer (s : State) : State := { s with timers := s.timers.filter (fun i => i != Instr.takeoverExpiry) }

/-- A host write to HEARTBEAT restarts the takeover timer, while the host is the owner, and clears EXPIRED. -/
def State.heartbeat (s : State) (m : Master) : State :=
  if m = .port || !s.hubUp .host then s
  else
    let s1 := s.onPf (fun p => { p with expired := false })
    if s.hub.owns .host then s1.restartTimer else s1

def execHeartbeat (m : Master) (s : State) : Out := .next (s.heartbeat m)

/-- The takeover timer runs only while the host is the owner. -/
def execTakeoverExpiry (s : State) : Out :=
  .next (if s.hub.owns .host then s.onPf (fun p => { p with expired := true }) else s)

/-- A write to OWNERSHIP: TAKEOVER in its range, and OWNER = 1 from the host, which releases ownership at once. -/
def State.writeOwnership (s : State) (m : Master) (v : Word) : State :=
  s.asOwner m (fun s =>
    let k := bitsAt v.toNat 8 16
    let s1 := if 1 ≤ k ∧ k ≤ 600 then s.onPf (fun p => { p with takeover := k }) else s
    if m = .host && v.getLsbD 0 then (s1.onPf (fun p => { p with owner := 1#1 })).stopTimer else s1)

def execOwnershipWrite (m : Master) (v : BitVec 64) (s : State) : Out := .next (s.writeOwnership m v)

/-- LOCK (R501). -/
def State.modLocked (s : State) : Bool :=
  !s.hub.apertures.isEmpty || s.parts.any (fun e => !e.2.peers.isEmpty)

/-- Bring-up step 6 has two parts, the module id and the ports, in either order: with the PF ready (5), 6 says that the id is
assigned, 7 that ports are trained, and 8 both, after which partitions are created (R515; log 3). -/
def Hub.assigned (h : Hub) : Nat := if h.stage = 5 then 6 else if h.stage = 7 then 8 else h.stage
def Hub.linked (h : Hub) : Nat := if h.stage = 5 then 7 else if h.stage = 6 then 8 else h.stage

/-- A write to MODID: ignored and logged while LOCK is 1. -/
def State.writeModid (s : State) (m : Master) (v : Word) : State :=
  s.asOwner m (fun s =>
    if s.modLocked then s.logOutside 0x18 0x2000
    else s.onHub (fun h => { h with stage := h.assigned, pf := { h.pf with modid := bitsAt v.toNat 0 10 } }))

def execModidWrite (m : Master) (v : BitVec 64) (s : State) : Out := .next (s.writeModid m v)

/-! ## Requests (R502, R503) -/

/-- The event of an OPCODE from a master; SEIZE and HANDBACK are the port's own (R508). -/
def requestOf (m : Master) (op : Nat) : Option Instr :=
  match op with
  | 1 => some (.create m)
  | 2 => some (.destroy m)
  | 3 => some (.resize m)
  | 4 => some (.addmem m)
  | 5 => some (.exportAperture m)
  | 6 => some (.peermap m)
  | 7 => some (.peerunmap m)
  | 8 => some (.fenceq m)
  | 9 => some (.readmit m)
  | 10 => some (.retiresb m)
  | 11 => some (.retirech m)
  | 12 => some (.power m)
  | 13 => some (.links m)
  | 14 => some (.update m)
  | 15 => if m = .port then some .seize else none
  | 16 => if m = .port then some .handback else none
  | _ => none

/-- The end of a request: its REASON, 0 where it is done, and its result; REQUEST_COMPLETE sets the status. -/
def State.conclude (s : State) (reason : Nat) (res : Word) : State :=
  (s.onPf (fun p => { p with reason := reason, reqRes := if reason = 0 then res else 0#64 })).push .requestComplete

/-- Can a request be carried out with the main rails down: those of the port itself, and POWER (R507, R514)? -/
def portable (op : Nat) : Bool := op == 12 || op == 15 || op == 16

/-- A request starts, with the arguments as they stand (R502). One that needs the main rails while they are down fails for
the hardware's want of power (log 3). -/
def State.startRequest (s : State) (m : Master) (op : Nat) : State :=
  if s.hub.pf.reqState = .busy then s
  else
    let s1 := s.onPf (fun p => { p with reqState := .busy, reason := 0, seq := p.seq + 1#32, held := p.args })
    match requestOf m op with
    | some i => if s.hubUp .host || portable op then s1.push i else s1.conclude 7 0#64
    | none => s1.conclude 2 0#64

/-- Does a SEIZE wait to be carried out? -/
def State.seizing (s : State) : Bool := decide (s.hub.pf.reqState = .busy) && s.inputs.contains .seize

/-- A write to OPCODE. SEIZE comes from a port that is not the owner (R508). As the example of R509 has it, a SEIZE behind a request
that is carried out waits for its end, and so does a request of the host behind a SEIZE, to be judged by the owner whom it leaves;
any other OPCODE is ignored while a request is carried out (R502; log 10). -/
def State.writeOpcode (s : State) (m : Master) (v : Word) : State :=
  let seize := m = .port && decide (v.toNat = 15)
  if !s.hubUp m then s
  else if if seize then decide (s.hub.pf.reqState = .busy) else m = .host && s.seizing then
    s.onPf (fun p => { p with waits := p.waits <|> some (m, v) })
  else if seize then s.startRequest m 15
  else s.asOwner m (fun s => s.startRequest m v.toNat)

/-- The status of a request that finishes: REASON 6 and 7 are failures (R502). What waited behind it then arrives. -/
def execRequestComplete (s : State) : Out :=
  let r := s.hub.pf.reason
  .next (if s.hub.pf.reqState ≠ .busy then s
    else
      let s1 := s.onPf (fun p => { p with
        reqState := if r = 0 then .done else if r < 6 then .refused else .failed, waits := none })
      match s.hub.pf.waits with
      | some (m, v) => s1.writeOpcode m v
      | none => s1)

/-- A request event acts only while a request is carried out. -/
def whenBusy (s : State) (f : State → State) : Out := .next (if s.hub.pf.reqState = .busy then f s else s)

/-- A request that passes its checks is carried out, unless the hardware fails: then it has no effect and REASON is 7 (R502;
log 29). -/
def State.carryOut (s : State) (f : State → State) : State :=
  match s.flaw with
  | (true, s1) => s1.conclude 7 0#64
  | (false, s1) => f s1

/-- A step of bring-up that fails is logged in the PF log, as a hub action that failed, or where that is disabled on the Buloth port
(R515; log 3). -/
def State.stepFails (s : State) (n : Nat) : State :=
  if s.hub.pf.logCap = 0#32 then s.emit (.bringUpFailed n) else s.logPf 0#64 0xFFFF 0x2000 s.synd 6 0

/-- A request that is step n of bring-up is carried out, and its failure logged (R515). -/
def State.carryOutStep (s : State) (n : Nat) (f : State → State) : State :=
  match s.flaw with
  | (true, s1) => (s1.stepFails n).conclude 7 0#64
  | (false, s1) => f s1

/-- ARG k of the request that is carried out, as it stood when OPCODE was written (R502). -/
def State.arg (s : State) (k : Nat) : Word := Table.get s.hub.pf.held 0#64 k

/-! ## Register writes (R498, R499) -/

/-- A write to the launch window of a virtual function: the packet's bytes, and at its end the hub takes the packet (R419). The
window of a partition that does not run ignores writes (DESIGN CHOICE, log 19). -/
def State.writeWindow (s : State) (vf off : Nat) (v : Word) : State :=
  let p := s.part vf
  if p.bootClosed || p.state ≠ .running || 0x80 ≤ off then s
  else
    let k := off / 8
    let old := bitsAt p.boot.toNat (64 * k) 64
    let boot := BitVec.ofNat 1024 (p.boot.toNat - old * 2 ^ (64 * k) + v.toNat * 2 ^ (64 * k))
    let s1 := s.setPart vf { p with boot := boot }
    if k = 15 then s1.bootPacket vf boot else s1

/-- A write to a register of the physical function. PFLOGBASE takes multiples of 32 only. -/
def State.writePf (s : State) (m : Master) (off : Nat) (v : Word) : State :=
  if !s.hubUp m then s
  else if off = 0x8 then s.writeOwnership m v
  else if off = 0x10 then s.heartbeat m
  else if off = 0x18 then s.writeModid m v
  else if 0x100 ≤ off ∧ off < 0x138 then
    s.asOwner m (fun s => s.onPf (fun p => { p with args := Table.set p.args 0#64 ((off - 0x100) / 8) v }))
  else if off = 0x138 then s.writeOpcode m v
  else if off = 0x1000 then (if v.toNat % 32 = 0 then s.onPf (fun p => { p with logBase := v }) else s)
  else if off = 0x1008 then s.onPf (fun p => { p with logCap := v.setWidth 32 })
  else if off = 0x1010 then s.onPf (fun p => { p with logHead := v.setWidth 32 })
  else s

/-- A write of 8 bytes to a register of the physical function or of a virtual function. -/
def execRegisterWrite (m : Master) (vf : Option Nat) (off : Nat) (v : BitVec 64) (s : State) : Out :=
  .next (match vf with
    | some n => if m = .host && s.hubUp .host && decide (n < 32) then s.writeWindow n off v else s
    | none => s.writePf m off v)

/-! ## Register reads (R498 to R502)

A read changes nothing, so it is no event; these are what the host and the port see. -/

/-- The partition state word of a virtual function, and PSTATE of the physical function (R498, R499). In P2 every partition
is quiesced (R514). A fenced quad has left its partition (R439, R513). -/
def State.pstate (s : State) (pn : Nat) : Word :=
  let st := match (s.part pn).state with
    | .absent => 0
    | .running => if s.hub.power = 2 then 3 else 1
    | .halted => if s.hub.power = 2 then 3 else 2
    | .quiescing => 3
  w64 (st + 256 * (List.range 64).countP (fun q => (s.quad q).owner == some pn && !(s.quad q).fenced))

/-- A read of 8 bytes of a virtual function's control window (R498). The launch window reads as zero, before its launch is accepted
too, for which R419 and R498 give no value (DESIGN CHOICE, log 19). -/
def State.readWindow (s : State) (vf off : Nat) : Word :=
  if off = 0x80 then (s.part vf).bootStatus
  else if off = 0x88 then s.pstate vf
  else if off = 0x90 then (s.part vf).regs2.logtail
  else 0#64

/-- The version of the image that a unit runs (R512). -/
def Image.running (i : Image) : Nat := if i.active then i.versionB else i.versionA

/-- IDENT (R499); that the hub's image is unit 0 is the model's choice (log 10). -/
def Hub.ident (h : Hub) : Word :=
  w64 (0x4F4C + 2 ^ 16 * Config.stepping.toNat + 2 ^ 24 * Config.format.toNat + 2 ^ 32 * (Table.get h.images Image.reset 0).running)

/-- OWNERSHIP (R500). -/
def PfRegs.ownership (p : PfRegs) : Word :=
  w64 (p.owner.toNat + 2 ^ 8 * p.takeover + 2 ^ 24 * p.seized.toNat + 2 ^ 25 * p.expired.toNat)

/-- REQSTAT (R502). -/
def PfRegs.reqstat (p : PfRegs) : Word :=
  let st := match p.reqState with
    | .idle => 0
    | .busy => 1
    | .done => 2
    | .refused => 3
    | .failed => 4
  w64 (st + 2 ^ 8 * (if 3 ≤ st then p.reason else 0) + 2 ^ 32 * p.seq.toNat)

/-- A read of 8 bytes of the physical function's registers (R499). -/
def State.readPf (s : State) (off : Nat) : Word :=
  let p := s.hub.pf
  if off = 0x0 then s.hub.ident
  else if off = 0x8 then p.ownership
  else if off = 0x18 then w64 (p.modid + 2 ^ 16 * s.modLocked.toNat)
  else if 0x100 ≤ off ∧ off < 0x138 then Table.get p.args 0#64 ((off - 0x100) / 8)
  else if off = 0x140 then p.reqstat
  else if off = 0x148 then p.reqRes
  else if off = 0x1000 then p.logBase
  else if off = 0x1008 then p.logCap.setWidth 64
  else if off = 0x1010 then p.logHead.setWidth 64
  else if off = 0x1018 then p.logTail.setWidth 64
  else if 0x2000 ≤ off ∧ off < 0x2100 then s.pstate ((off - 0x2000) / 8)
  else 0#64

/-! ## Quads (R224, R396, R439) -/

/-- A quad comes to a partition, its scratchpads zeroed and its weight slots EMPTY. -/
def State.takeIn (s : State) (pn q : Nat) : State :=
  let s1 := (rangeFrom (4 * q) 4).foldl (fun s c => s.setCore c { Core.reset with ceil := (s.core c).ceil }) s
  s1.setQuad q { s1.quad q with owner := some pn, fenced := false, acc := [], slots := [] }

/-- The quads of a mask. -/
def quadsOf (m : BitVec 64) : List Nat := (List.range 64).filter (fun q => m.getLsbD q)

/-- Is a quad free to be granted? -/
def State.quadFree (s : State) (q : Nat) : Bool := (s.quad q).owner.isNone && !(s.quad q).fenced

/-- The threads on the cores of quads. -/
def State.onQuads (s : State) (qs : List Nat) : List Thread := s.onChip.filter (fun t => qs.contains (quadOf t.place.core))

/-- Do engine commands of the cores of quads still run (R363)? -/
def State.enginesBusy (s : State) (qs : List Nat) : Bool := s.cmds.any (fun c => qs.contains (quadOf c.core))

/-- The core to which the records of a core that leaves its partition go (R439): on the same sheet where the partition has
one there, else on its lowest-numbered sheet; the least loaded of those that can take the tables of the claim group, or of all
where none can (R265, R426; log 14). -/
def State.newCore (s : State) (pn core lid : Nat) : Nat :=
  let cs := (s.part pn).cores
  let same := cs.filter (fun c => sheetOf c == sheetOf core)
  let first := cs.filter (fun c => sheetOf c == sheetOf (cs.headD 0))
  let near := if same.isEmpty then first else same
  let tables := s.saved.flatMap (fun e =>
    if e.1.id.part == pn && e.1.id.lid == lid && e.1.place.core == core then e.2.1 else [])
  let takes := near.filter (fun c => (s.core c).takesTables tables)
  (leastLoaded (s.loadOf pn) (if takes.isEmpty then near else takes)).getD 0

/-- The records of one launch on a core re-queued together onto a new one, with their places as BAR participants (R241,
R439). A saved thread keeps the core of its claim group in its slot number (R265). -/
def State.requeue (s : State) (pn core lid : Nat) : State :=
  let new := s.newCore pn core lid
  let p := s.part pn
  let mine := fun (id : ThreadId) (c : Nat) => id.part == pn && id.lid == lid && c == core
  let s1 := s.setPart pn { p with records := p.records.map (fun r => if mine r.id r.core then { r with core := new } else r) }
  let rehome := fun (t : Thread) => if mine t.id t.place.home then { t with place := { t.place with home := new } } else t
  let move := fun (t : Thread) =>
    let u := rehome t
    if mine t.id t.place.core then { u with place := { u.place with core := new, slot := 4 + t.groupCore } } else u
  { s1 with
    cur := rehome s1.cur
    others := s1.others.map rehome
    saved := s1.saved.map (fun e => (move e.1, e.2)) }

/-- The launches with records or saved threads on a core. -/
def State.lidsOn (s : State) (pn core : Nat) : List Nat :=
  (((s.part pn).records.filter (fun r => r.core == core)).map (fun r => r.id.lid) ++
    (s.saved.filter (fun e => e.1.id.part == pn && e.1.place.core == core)).map (fun e => e.1.id.lid)).eraseDups

/-- The last steps of a removal: every record of the quads is re-queued (R439). -/
def State.requeueAll (s : State) (pn : Nat) (qs : List Nat) : State :=
  let cores := qs.flatMap (fun q => rangeFrom (4 * q) 4)
  (cores.foldl (fun s c => (s.lidsOn pn c).foldl (fun s l => s.requeue pn c l) s) s).redispatch pn

/-- The quads that the partition's mask no longer holds though they are its own and not fenced. -/
def State.leaving (s : State) (pn : Nat) : List Nat :=
  (List.range 64).filter (fun q => (s.quad q).owner == some pn && !(s.part pn).quads.getLsbD q && !(s.quad q).fenced)

/-- One step of a removal of quads: a thread is pre-empted, or the removal ends with what done does. The request goes on
while neither can be (R439, R487). -/
def State.removeStep (s : State) (pn : Nat) (qs : List Nat) (again : Instr) (done : State → State) : State :=
  match (s.onQuads qs).find? (fun t => s.mayPreempt t.id) with
  | some t => (s.preempt t.id none).push again
  | none =>
    if !(s.onQuads qs).isEmpty || s.enginesBusy qs then s.push again
    else done (s.requeueAll pn qs)

/-- Can a removal of quads take a step? -/
def State.removeReady (s : State) (qs : List Nat) : Bool :=
  let ts := s.onQuads qs
  ts.any (fun t => s.mayPreempt t.id) || (ts.isEmpty && !s.enginesBusy qs)

/-! ## CREATE, DESTROY, RESIZE (R503, R511) -/

/-- The first entries of free ranges of n gazetteer entries; the replica holds 16,384 (06 R184). -/
def State.freeGz (s : State) (n : Nat) : List Nat :=
  let used := s.parts.map (fun e => (e.2.regs2.gzfirst, e.2.regs2.gzcount))
  (List.range (16384 - n + 1)).filter (fun k => !used.any (fun u => rangesMeet u (k, n)))

/-- The gazetteer without the entries of a range. -/
def clearGz (g : Table GzEntry) (first n : Nat) : Table GzEntry :=
  g.filter (fun e => !(decide (first ≤ e.1) && decide (e.1 < first + n)))

/-- CREATE, step 7 of bring-up: before step 6 has succeeded it is refused (R515; log 3). -/
def execCreate (_ : Master) (s : State) : Out :=
  whenBusy s (fun s =>
    let pn := (s.arg 0).toNat
    let mask := s.arg 1
    let n := (s.arg 2).toNat
    if s.hub.stage < 8 ∨ 32 ≤ pn ∨ mask = 0#64 ∨ 16384 < n ∨ 2 ^ 20 ≤ (s.arg 3).toNat then s.conclude 2 0#64
    else if (s.part pn).state ≠ .absent then s.conclude 4 0#64
    else if !(quadsOf mask).all s.quadFree then s.conclude 3 0#64
    else
      match s.freeGz n with
      | [] => s.conclude 3 0#64
      | k :: r => s.carryOutStep 7 (fun s =>
        let first := (k :: r).getD (Config.choice s.fresh 0 % (r.length + 1)) k
        let p := { Part.reset with
          state := .running, quads := mask, pasid := (s.arg 3).toNat, key := s.hub.nextKey,
          regs2 := { PartRegs2.reset with gzfirst := first, gzcount := n },
          ptinv := [(0, 0, s.mem.logLen)] }
        let s1 := { s with gz := clearGz s.gz first n }.setPart pn p
        let s2 := (quadsOf mask).foldl (fun s q => s.takeIn pn q) (s1.setObjs pn Objects.reset)
        (s2.onHub (fun h => { h with nextKey := h.nextKey + 1 })).conclude 0 (w64 first)))

/-- Every byte of a partition's ranges overwritten with zero (R511). -/
def State.zeroRanges (s : State) (p : Part) : State :=
  let mine := (s.mem.cells.filter (fun e => p.owns e.1 && targetOf e.1 == 0)).map (fun e => e.1)
  { s with mem := { (mine.foldl (fun m a => m.write .unit a 0#8) s.mem) with
    poison := s.mem.poison.filter (fun a => !(p.owns a && targetOf a == 0)) } }

/-- What is left of a partition goes: threads, objects, operations, apertures, entries, quads and key. -/
def State.eraseParts (s : State) (pn : Nat) : State :=
  let p := s.part pn
  let own := (List.range 64).filter (fun q => (s.quad q).owner == some pn)
  let other := fun (t : Thread) => t.id.part != pn
  let s1 := s.zeroRanges p
  let s2 := { s1 with
    cur := if other s1.cur then s1.cur else Thread.reset
    active := s1.active && other s1.cur
    others := s1.others.filter other
    saved := s1.saved.filter (fun e => other e.1)
    mlq := s1.mlq.filter (fun o => o.part != pn)
    gz := clearGz s1.gz p.regs2.gzfirst p.regs2.gzcount }
  let s3 := own.foldl (fun s q => (s.takeIn pn q).setQuad q { (s.takeIn pn q).quad q with
    owner := none, fenced := (s1.quad q).fenced }) s2
  ((s3.setPart pn Part.reset).setObjs pn Objects.reset).onHub (fun h =>
    { h with apertures := h.apertures.filter (fun a => a.part != pn) })

/-- Commands of a partition. -/
def State.partCmds (s : State) (pn : Nat) : Bool := s.cmds.any (fun c => c.thread.part == pn)

def execDestroy (m : Master) (s : State) : Out :=
  whenBusy s (fun s =>
    let pn := (s.arg 0).toNat
    if 32 ≤ pn then s.conclude 2 0#64
    else if (s.part pn).state = .absent then s.conclude 4 0#64
    else
      let go := fun (s : State) =>
        let s1 := s.setPart pn { s.part pn with state := .quiescing }
        if s1.partCmds pn then s1.push (.destroy m) else (s1.eraseParts pn).conclude 0 0#64
      if (s.part pn).state = .quiescing then go s else s.carryOut go)

def execResize (m : Master) (s : State) : Out :=
  whenBusy s (fun s =>
    let pn := (s.arg 0).toNat
    let mask := s.arg 1
    let p := s.part pn
    if 32 ≤ pn ∨ mask = 0#64 then s.conclude 2 0#64
    else if p.state = .absent then s.conclude 4 0#64
    else
      let new := (quadsOf mask).filter (fun q => (s.quad q).owner != some pn || (s.quad q).fenced)
      if !new.all s.quadFree then s.conclude 3 0#64
      else
        let go := fun (s : State) =>
          let s1 := new.foldl (fun s q => s.takeIn pn q) (s.setPart pn { p with quads := mask })
          let gone := s1.leaving pn
          s1.removeStep pn gone (.resize m) (fun s =>
            let s2 := gone.foldl (fun s q => s.setQuad q { s.quad q with owner := none }) s
            s2.conclude 0 0#64)
        if p.quads = mask then go s else s.carryOut go)

/-! ## Memory and apertures (R503) -/

/-- The 2^28-byte granules of memory at base, n bytes. -/
def granulesOf (base n : Nat) : List Nat := rangeFrom (base / 2 ^ 28) (n / 2 ^ 28)

/-- The 2 MiB sub-blocks of a tier that lie on a sheet and in a list of ranges (R20). -/
def tierCount (t : Fin 2) (sheet : Nat) (l : List (Nat × Nat)) : Nat :=
  (l.flatMap (fun r => rangeFrom (r.1 / 2 ^ 21) (r.2 / 2 ^ 21))).countP (fun b =>
    Config.tierAt (b / 128) == some t && (Config.homeSheet b).val == sheet)

/-- The sub-blocks of a tier that a sheet may grant: 12 devices of 6 GB in tier 0 and 4 packages of 96 GB in tier 1 (R24, R495),
less those of its retired channels (R513); a GB is 2^30 bytes (log 8). -/
def Hub.tierRoom (h : Hub) (t : Fin 2) (sheet : Nat) : Nat :=
  let gone := h.retiredCh.countP (fun c => c.1 == sheet && c.2.1 == t.val)
  if t = 0 then 512 * (72 - 6 * gone) else 512 * (384 - 96 * gone)

/-- May the range be granted: memory at each granule, and room in each tier of each sheet? The spec gives the capacities and no
address map, so which granules a tier and which sub-blocks a sheet holds is free (R24; log 8). -/
def State.grantable (s : State) (base n : Nat) : Bool :=
  let held := s.parts.flatMap (fun e => e.2.ranges)
  (granulesOf base n).all (fun g => (Config.tierAt g).isSome) &&
    ([0, 1] : List (Fin 2)).all (fun t => (List.range 4).all (fun k =>
      decide (tierCount t k ((base, n) :: held) ≤ s.hub.tierRoom t k)))

def execAddmem (_ : Master) (s : State) : Out :=
  whenBusy s (fun s =>
    let pn := (s.arg 0).toNat
    let base := (s.arg 1).toNat
    let n := (s.arg 2).toNat
    let p := s.part pn
    if 32 ≤ pn ∨ base % 2 ^ 28 ≠ 0 ∨ n % 2 ^ 28 ≠ 0 ∨ n = 0 ∨ 2 ^ 50 < base + n then s.conclude 2 0#64
    else if p.state = .absent then s.conclude 4 0#64
    else if s.parts.any (fun e => e.2.ranges.any (fun r => rangesMeet r (base, n))) ||
        s.hub.retiredSb.any (fun a => rangesMeet (a, 2 ^ 21) (base, n)) || !s.grantable base n then s.conclude 5 0#64
    else s.carryOut (fun s => (s.setPart pn { p with ranges := p.ranges ++ [(base, n)] }).conclude 0 0#64))

/-- Does a request of a peer to an aperture still wait? -/
def State.requestsTo (s : State) (num : Nat) : Bool :=
  s.inputs.any (fun i =>
    match i with
    | .peerRequest q => q.aperture == num
    | _ => false)

/-- Is every granule of a range local memory of the partition (R503)? -/
def Part.covers (p : Part) (base n : Nat) : Bool :=
  (granulesOf base n).all (fun g => p.ranges.any (fun r => decide (r.1 ≤ g * 2 ^ 28) && decide (g * 2 ^ 28 < r.1 + r.2)))

/-- EXPORT; with size 0 it withdraws the aperture once the requests of peers to it have completed. -/
def execExportAperture (m : Master) (s : State) : Out :=
  whenBusy s (fun s =>
    let pn := (s.arg 0).toNat
    let num := (s.arg 1).toNat
    let base := (s.arg 2).toNat
    let n := (s.arg 3).toNat
    let fl := (s.arg 4).toNat
    let p := s.part pn
    let there := s.hub.apertures.find? (fun a => a.num == num)
    if 32 ≤ pn ∨ 16 ≤ num then s.conclude 2 0#64
    else if p.state = .absent then s.conclude 4 0#64
    else if n = 0 then
      match there with
      | some a =>
        if a.part ≠ pn then s.conclude 2 0#64
        else if s.requestsTo num then s.push (.exportAperture m)
        else s.carryOut (fun s =>
          (s.onHub (fun h => { h with apertures := h.apertures.filter (fun a => a.num != num) })).conclude 0 0#64)
      | none => s.conclude 2 0#64
    else if base % 2 ^ 28 ≠ 0 ∨ n % 2 ^ 28 ≠ 0 ∨ 2 ^ 36 < n ∨ 4 ≤ fl then s.conclude 2 0#64
    else if !p.covers base n then s.conclude 5 0#64
    else if there.isSome then s.conclude 3 0#64
    else s.carryOut (fun s =>
      (s.onHub (fun h => { h with
        apertures := h.apertures ++ [⟨num, pn, base, n, bitAt fl 0, bitAt fl 1, []⟩] })).conclude 0 0#64))

def execPeermap (_ : Master) (s : State) : Out :=
  whenBusy s (fun s =>
    let pn := (s.arg 0).toNat
    let e := ((s.arg 1).toNat, (s.arg 2).toNat)
    let p := s.part pn
    if 32 ≤ pn ∨ 1024 ≤ e.1 ∨ 16 ≤ e.2 then s.conclude 2 0#64
    else if p.state = .absent then s.conclude 4 0#64
    else if p.peers.contains e then s.conclude 3 0#64
    else s.carryOut (fun s => (s.setPart pn { p with peers := p.peers ++ [e] }).conclude 0 0#64))

/-- Does an access of a partition to a peer aperture still run: a command, an access that waits, a staged access at its unit,
or a word that waits for a peer's reply? The aperture's 2^36 bytes stand in the physical addresses as R496 lays them out. -/
def State.peerBusy (s : State) (pn : Nat) (e : Nat × Nat) : Bool :=
  let hit := fun (r : Nat × Nat) => decide (0 < r.2) && rangesMeet r (2 ^ 51 + 2 ^ 40 * e.1 + 2 ^ 36 * e.2, 2 ^ 36)
  let byte := fun (pa : Nat) => hit (pa, 1)
  s.cmds.any (fun c => c.thread.part == pn && (c.body.dests ++ c.body.sources).any hit) ||
    s.started.any (fun t => t.id.part == pn &&
      ((match t.prog.wait with
        | .retry (.peer _) => true
        | _ => false) || t.viq.any (fun v => v.bytes.2.any byte))) ||
    ((s.objs pn).waiters ++ (s.objs pn).resend).any (fun w => byte w.sb || byte w.pa)

def execPeerunmap (m : Master) (s : State) : Out :=
  whenBusy s (fun s =>
    let pn := (s.arg 0).toNat
    let e := ((s.arg 1).toNat, (s.arg 2).toNat)
    let p := s.part pn
    if 32 ≤ pn ∨ 1024 ≤ e.1 ∨ 16 ≤ e.2 then s.conclude 2 0#64
    else if p.state = .absent then s.conclude 4 0#64
    else if !p.peers.contains e then s.conclude 2 0#64
    else if s.peerBusy pn e then s.push (.peerunmap m)
    else s.carryOut (fun s => (s.setPart pn { p with peers := p.peers.filter (fun x => x != e) }).conclude 0 0#64))

/-! ## Service (R503, R513) -/

def execFenceq (m : Master) (s : State) : Out :=
  whenBusy s (fun s =>
    let q := (s.arg 0).toNat
    let fence := fun (s : State) => (s.setQuad q { s.quad q with fenced := true }).conclude 0 0#64
    if 64 ≤ q then s.conclude 2 0#64
    else
      match (s.quad q).owner with
      | none => s.carryOut fence
      | some pn =>
        let p := s.part pn
        if (s.quad q).fenced then s.carryOut fence
        else if quadsOf p.quads == [q] then s.conclude 3 0#64
        else
          let go := fun (s : State) =>
            let s1 := s.setPart pn { p with quads := p.quads &&& ~~~(1#64 <<< q) }
            s1.removeStep pn [q] (.fenceq m) fence
          if p.quads.getLsbD q then s.carryOut go else go s)

/-- A fenced quad comes back, to the partition that it left if it left one (R513). -/
def execReadmit (_ : Master) (s : State) : Out :=
  whenBusy s (fun s =>
    let q := (s.arg 0).toNat
    if 64 ≤ q ∨ !(s.quad q).fenced then s.conclude 2 0#64
    else s.carryOut (fun s =>
      match (s.quad q).owner with
      | some pn =>
        let s1 := s.takeIn pn q
        (s1.setPart pn { s1.part pn with quads := (s1.part pn).quads ||| (1#64 <<< q) }).conclude 0 0#64
      | none =>
        let s1 := s.takeIn 0 q
        (s1.setQuad q { s1.quad q with owner := none }).conclude 0 0#64))

/-- The physical address of sub-block b of a gazetteer entry. -/
def GzEntry.subPa (e : GzEntry) (b : Nat) : Nat := (if e.tier.getLsbD b then e.t1base else e.t0base) + b * 2 ^ 21

/-- Does a valid entry mark a sub-block resident for which p holds, given its tier and its address? -/
def State.residentAny (s : State) (p : Bool → Nat → Bool) : Bool :=
  s.gz.any (fun e => e.2.perm.getLsbD 2 && (List.range 128).any (fun b =>
    e.2.resid.getLsbD b && p (e.2.tier.getLsbD b) (e.2.subPa b)))

def execRetiresb (_ : Master) (s : State) : Out :=
  whenBusy s (fun s =>
    let a := (s.arg 0).toNat
    if a % 2 ^ 21 ≠ 0 ∨ 2 ^ 50 ≤ a then s.conclude 2 0#64
    else if s.residentAny (fun _ x => x == a) then s.conclude 3 0#64
    else s.carryOut (fun s => (s.onHub (fun h => { h with
      retiredSb := if h.retiredSb.contains a then h.retiredSb else h.retiredSb ++ [a] })).conclude 0 0#64))

/-- RETIRECH: a sub-block of a tier and a sheet lies on every channel of that tier and sheet (R20); one of the host or of a peer
lies on none. -/
def execRetirech (_ : Master) (s : State) : Out :=
  whenBusy s (fun s =>
    let sheet := (s.arg 0).toNat
    let kind := bitsAt (s.arg 1).toNat 0 8
    let ctl := bitsAt (s.arg 1).toNat 8 8
    if 4 ≤ sheet ∨ 2 ≤ kind ∨ (if kind = 0 then 12 else 4) ≤ ctl ∨ 2 ^ 16 ≤ (s.arg 1).toNat then s.conclude 2 0#64
    else if s.residentAny (fun t1 a => targetOf a == 0 && t1 == decide (kind = 1) && homeOf a == sheet) then
      s.conclude 3 0#64
    else
      let c := (sheet, kind, ctl)
      s.carryOut (fun s => (s.onHub (fun h => { h with
        retiredCh := if h.retiredCh.contains c then h.retiredCh else h.retiredCh ++ [c] })).conclude 0 0#64))

/-- A port trained: a lane that fails is replaced by the spare, and a second one leaves 4 lanes (R504; log 29). -/
def State.trainPort (s : State) (k : Nat) : State :=
  match s.flaw with
  | (false, s1) => s1.onPort k (fun _ => ⟨true, 8, false⟩)
  | (true, s1) =>
    match s1.flaw with
    | (false, s2) => s2.onPort k (fun _ => ⟨true, 8, true⟩)
    | (true, s2) => s2.onPort k (fun _ => ⟨true, 4, true⟩)

def execLinks (_ : Master) (s : State) : Out :=
  whenBusy s (fun s =>
    let m := (s.arg 0).toNat
    if 2 ^ 16 ≤ m then s.conclude 2 0#64
    else s.carryOutStep 6 (fun s =>
      let s1 := (List.range 16).foldl (fun s k => if bitAt m k then s.trainPort k else s) s
      (s1.onHub (fun h => { h with stage := h.linked })).conclude 0 0#64))

/-! ## Power and bring-up (R514, R515) -/

/-- Does an event come from outside the module, or belong to the physical function, so that it outlives P3? -/
def outlives (i : Instr) : Bool :=
  match i with
  | .heartbeat _ => true
  | .ownershipWrite _ _ => true
  | .modidWrite _ _ => true
  | .registerWrite _ _ _ _ => true
  | .requestComplete => true
  | .takeoverExpiry => true
  | .imageSwitch _ _ => true
  | .spdmGetMeasurements => true
  | .spdmChallenge _ => true
  | .spdmKeyExchange _ => true
  | .pldmMonitoring => true
  | .pldmFirmwareUpdate _ _ _ => true
  | .auxPowerUp _ => true
  | .mainPowerUp _ _ => true
  | _ => false

/-- Power state P3: only auxiliary power is left. What is behind it keeps its values: the physical function's registers and
the images, which the Buloth port reaches (R507, R508); the memories of the host and of peers are not the module's. -/
def State.powerOff (s : State) : State :=
  let away := fun (k : Nat) => targetOf k == 1 || targetOf k == 2
  { State.reset with
    mem := { State.reset.mem with cells := s.mem.cells.filter (fun c => away c.1), poison := s.mem.poison.filter away }
    hub := { Hub.reset with pf := s.hub.pf, stage := 1, images := s.hub.images }
    cycle := s.cycle, fresh := s.fresh, sched := s.sched, outbox := s.outbox, flaws := s.flaws
    inputs := s.inputs.filter outlives
    timers := s.timers.filter outlives }

/-- A failed channel as RETIRECH names it, by 16·sheet + number, the GDDR-7 channels first (R20). -/
def channelOf (k : Nat) : Nat × Nat × Nat := if k % 16 < 12 then (k / 16, 0, k % 16) else (k / 16, 1, k % 16 - 12)

/-- Bring-up steps 2 to 5 (R515): the images are verified; the links and then the memory trained, with the bad channels
retired; the replicas and scratchpads zeroed and the slots EMPTY; the PCIe link trained. ok2, ok3 and ok5 tell which steps
succeed; a failure stops the sequence and is logged on the Buloth port, since no PF log can be reached yet. -/
def State.bringUp (s : State) (ok2 ok3 ok5 : Bool) (bad : List Nat) : State :=
  let at_ := fun (s : State) (n : Nat) => s.onHub (fun h => { h with stage := n })
  if !ok2 then (at_ s 1).emit (.bringUpFailed 2)
  else if !ok3 then (at_ s 2).emit (.bringUpFailed 3)
  else
    let s1 := s.onHub (fun h => { h with stage := 4, retiredCh := bad.map channelOf })
    let s2 := (Table.keys s1.cores).foldl (fun s k => s.setCore k { s.core k with spad := [] }) { s1 with gz := [] }
    let s3 := (Table.keys s2.quads).foldl (fun s k => s.setQuad k { s.quad k with slots := [] }) s2
    if !ok5 then s3.emit (.bringUpFailed 5) else s3.onHub (fun h => { h with stage := 5, power := 0 })

/-- Main power comes up after auxiliary power; whether steps 3 and 5 succeed, the flaws tell (log 29). -/
def execMainPowerUp (ok : Bool) (bad : List Nat) (s : State) : Out :=
  if s.hub.stage = 0 ∨ s.hub.power ≠ 3 then .next s
  else
    let f3 := s.flaw
    let f5 := f3.2.flaw
    .next (f5.2.bringUp ok (!f3.1) (!f5.1) bad)

/-- The channels that fail when memory is trained, as the flaws tell (R515; log 29). -/
def State.badChannels (s : State) : List Nat × State :=
  (List.range 64).foldl (fun a k =>
    let f := a.2.flaw
    (if f.1 then a.1 ++ [k] else a.1, f.2)) ([], s)

/-- A transition out of P3 at the owner's request brings main power up through the same steps (R514, R515); where one fails
the request fails, and the module stays in P3. -/
def State.powerUp (s : State) (k : Nat) : State :=
  let f2 := s.flaw
  let f3 := f2.2.flaw
  let f5 := f3.2.flaw
  let b := f5.2.badChannels
  let s1 := b.2.bringUp (!f2.1) (!f3.1) (!f5.1) b.1
  if s1.hub.power = 3 then s1.conclude 7 0#64
  else (s1.onHub (fun h => { h with power := k })).conclude 0 0#64

/-- POWER (R514). -/
def execPower (_ : Master) (s : State) : Out :=
  whenBusy s (fun s =>
    let k := (s.arg 0).toNat
    if 4 ≤ k then s.conclude 2 0#64
    else if k = 3 then (if s.hub.power = 3 then s else s.powerOff).conclude 0 0#64
    else if s.hub.power = 3 then s.powerUp k
    else s.carryOut (fun s => (s.onHub (fun h => { h with power := k })).conclude 0 0#64))

/-- Auxiliary power comes up, and with it the hub; the takeover timer runs from then on while the host is the owner (R500). -/
def execAuxPowerUp (ok : Bool) (s : State) : Out :=
  if s.hub.stage ≠ 0 then .next s
  else if ok then
    let s1 := s.onHub (fun h => { h with stage := 1 })
    .next (if s1.hub.owns .host then s1.restartTimer else s1)
  else .next (s.emit (.bringUpFailed 1))

/-! ## Images, measurements and telemetry (R507, R508, R510, R512) -/

/-- An image slot pair. -/
def Hub.image (h : Hub) (u : Nat) : Image := Table.get h.images Image.reset u

/-- A verified image in a unit's inactive slot; the unit switches at its next idle point. -/
def State.install_ (s : State) (u version : Nat) : State :=
  let i := s.hub.image u
  let i1 := if i.active then { i with versionA := version, pending := true } else { i with versionB := version, pending := true }
  (s.onHub (fun h => { h with images := Table.set h.images Image.reset u i1 })).timer
    (.imageSwitch u (decide (Config.choice s.fresh 1 % 2 = 0)))

/-- UPDATE: whether the image verifies and which version it names, the spec leaves open (log 10). -/
def execUpdate (_ : Master) (s : State) : Out :=
  whenBusy s (fun s =>
    let u := (s.arg 0).toNat
    let v := Config.digest s.fresh
    if Config.choice s.fresh 0 % 2 = 0 then s.carryOut (fun s => (s.install_ u v.toNat).conclude 0 v)
    else s.conclude 6 0#64)

/-- The switch to an updated image; one that fails its first start gives way to the previous one. -/
def execImageSwitch (unit : Nat) (ok : Bool) (s : State) : Out :=
  let i := s.hub.image unit
  let i1 : Image := { i with active := if i.pending && ok then !i.active else i.active, pending := false }
  .next (s.onHub (fun h => { h with images := Table.set h.images Image.reset unit i1 }))

/-- An image that PLDM for Firmware Update brings is installed only if it verifies. -/
def execPldmFirmwareUpdate (unit version : Nat) (ok : Bool) (s : State) : Out :=
  .next (if ok && decide (1 ≤ s.hub.stage) then s.install_ unit version else s)

def execSpdmGetMeasurements (s : State) : Out :=
  .next (if 1 ≤ s.hub.stage then s.emit (.spdm 0 (Config.digest (3 * s.fresh))) else s)
def execSpdmChallenge (_ : BitVec 256) (s : State) : Out :=
  .next (if 1 ≤ s.hub.stage then s.emit (.spdm 1 (Config.digest (3 * s.fresh + 1))) else s)
def execSpdmKeyExchange (_ : BitVec 256) (s : State) : Out :=
  .next (if 1 ≤ s.hub.stage then s.emit (.spdm 2 (Config.digest (3 * s.fresh + 2))) else s)

/-- Telemetry: the count of records bound for the PF log (R499), and board values. -/
def execPldmMonitoring (s : State) : Out :=
  .next (if 1 ≤ s.hub.stage then s.emit (.pldm [s.hub.pf.logCount, Config.telemetry s.fresh]) else s)

/-! ## SEIZE and HANDBACK (R508) -/

def execSeize (s : State) : Out :=
  whenBusy s (fun s =>
    if s.hub.owns .host && !s.hub.pf.expired then s.conclude 1 0#64
    else ((s.onPf (fun p => { p with owner := 1#1, seized := p.seized || p.expired })).stopTimer).conclude 0 0#64)

def execHandback (s : State) : Out :=
  whenBusy s (fun s =>
    if s.hub.owns .host then s.conclude 1 0#64
    else
      ((s.onPf (fun p => { p with owner := 0#1, seized := false, expired := false })).restartTimer).conclude 0 0#64)

end

end Sys2Proof.Machine
end

