-- ==== Sys2Proof/Machine/Scalar.lean ====
section
/-!
DEFINITION. INT, ADDI, IMM, HI and PCADD (03 R68 to R74): register operations of the A-side.
-/
namespace Sys2Proof.Machine

/-- An INT operation at 64 bits, or at 32 bits with its result sign-extended (R68). -/
def intOp (f : (n : Nat) → BitVec n → BitVec n → BitVec n) (w : BitVec 1) (x y : Word) : Word :=
  if w = 0#1 then f 64 x y else (f 32 (x.truncate 32) (y.truncate 32)).signExtend 64

/-- An INT word that writes a result and completes. -/
def intWord (f : (n : Nat) → BitVec n → BitVec n → BitVec n) (d a b : BitVec 5) (w : BitVec 1) (s : State) : Out :=
  asideReg (fun s => s.writeS d (intOp f w (s.readS a) (s.readS b))) s

/-! ## The operations (R68, R69, R71) -/

def iAdd (n : Nat) (x y : BitVec n) : BitVec n := x + y
def iSub (n : Nat) (x y : BitVec n) : BitVec n := x - y
def iAnd (n : Nat) (x y : BitVec n) : BitVec n := x &&& y
def iOr (n : Nat) (x y : BitVec n) : BitVec n := x ||| y
def iXor (n : Nat) (x y : BitVec n) : BitVec n := x ^^^ y
def iSll (n : Nat) (x y : BitVec n) : BitVec n := x <<< (y.toNat % n)
def iSrl (n : Nat) (x y : BitVec n) : BitVec n := x >>> (y.toNat % n)
def iSra (n : Nat) (x y : BitVec n) : BitVec n := x.sshiftRight (y.toNat % n)
def iMul (n : Nat) (x y : BitVec n) : BitVec n := x * y
def iMulh (n : Nat) (x y : BitVec n) : BitVec n := BitVec.ofInt n (x.toInt * y.toInt / 2 ^ n)
def iMulhu (n : Nat) (x y : BitVec n) : BitVec n := BitVec.ofNat n (x.toNat * y.toNat / 2 ^ n)
def iDiv (n : Nat) (x y : BitVec n) : BitVec n := if y = 0 then BitVec.allOnes n else x.sdiv y
def iDivu (n : Nat) (x y : BitVec n) : BitVec n := if y = 0 then BitVec.allOnes n else x / y
def iRem (n : Nat) (x y : BitVec n) : BitVec n := if y = 0 then x else x.srem y
def iRemu (n : Nat) (x y : BitVec n) : BitVec n := if y = 0 then x else x % y
def iMin (n : Nat) (x y : BitVec n) : BitVec n := if y.slt x then y else x
def iMax (n : Nat) (x y : BitVec n) : BitVec n := if x.slt y then y else x
def iMinu (n : Nat) (x y : BitVec n) : BitVec n := if y.ult x then y else x
def iMaxu (n : Nat) (x y : BitVec n) : BitVec n := if x.ult y then y else x
def iSlt (n : Nat) (x y : BitVec n) : BitVec n := BitVec.ofNat n (b2n (x.slt y))
def iSltu (n : Nat) (x y : BitVec n) : BitVec n := BitVec.ofNat n (b2n (x.ult y))

/-- Leading zero bits. -/
def iClz (n : Nat) (x _ : BitVec n) : BitVec n :=
  BitVec.ofNat n (if x = 0 then n else n - 1 - Nat.log2 x.toNat)

/-- One bits. -/
def iPopc (n : Nat) (x _ : BitVec n) : BitVec n :=
  BitVec.ofNat n ((List.range n).filter (fun k => x.getLsbD k)).length

/-! ## INT -/

def execAdd (d a b : BitVec 5) (w : BitVec 1) (s : State) : Out := intWord iAdd d a b w s
def execSub (d a b : BitVec 5) (w : BitVec 1) (s : State) : Out := intWord iSub d a b w s
def execAnd (d a b : BitVec 5) (w : BitVec 1) (s : State) : Out := intWord iAnd d a b w s
def execOr (d a b : BitVec 5) (w : BitVec 1) (s : State) : Out := intWord iOr d a b w s
def execXor (d a b : BitVec 5) (w : BitVec 1) (s : State) : Out := intWord iXor d a b w s
def execSll (d a b : BitVec 5) (w : BitVec 1) (s : State) : Out := intWord iSll d a b w s
def execSrl (d a b : BitVec 5) (w : BitVec 1) (s : State) : Out := intWord iSrl d a b w s
def execSra (d a b : BitVec 5) (w : BitVec 1) (s : State) : Out := intWord iSra d a b w s
def execMul (d a b : BitVec 5) (w : BitVec 1) (s : State) : Out := intWord iMul d a b w s
def execMulh (d a b : BitVec 5) (w : BitVec 1) (s : State) : Out := intWord iMulh d a b w s
def execMulhu (d a b : BitVec 5) (w : BitVec 1) (s : State) : Out := intWord iMulhu d a b w s
def execDiv (d a b : BitVec 5) (w : BitVec 1) (s : State) : Out := intWord iDiv d a b w s
def execDivu (d a b : BitVec 5) (w : BitVec 1) (s : State) : Out := intWord iDivu d a b w s
def execRem (d a b : BitVec 5) (w : BitVec 1) (s : State) : Out := intWord iRem d a b w s
def execRemu (d a b : BitVec 5) (w : BitVec 1) (s : State) : Out := intWord iRemu d a b w s
def execMin (d a b : BitVec 5) (w : BitVec 1) (s : State) : Out := intWord iMin d a b w s
def execMax (d a b : BitVec 5) (w : BitVec 1) (s : State) : Out := intWord iMax d a b w s
def execMinu (d a b : BitVec 5) (w : BitVec 1) (s : State) : Out := intWord iMinu d a b w s
def execMaxu (d a b : BitVec 5) (w : BitVec 1) (s : State) : Out := intWord iMaxu d a b w s
def execSlt (d a b : BitVec 5) (w : BitVec 1) (s : State) : Out := intWord iSlt d a b w s
def execSltu (d a b : BitVec 5) (w : BitVec 1) (s : State) : Out := intWord iSltu d a b w s

def execClz (d a : BitVec 5) (w : BitVec 1) (s : State) : Out := intWord iClz d a 0#5 w s
def execPopc (d a : BitVec 5) (w : BitVec 1) (s : State) : Out := intWord iPopc d a 0#5 w s

/-- ADDV and SUBV (R70): the exact signed result, or ARITH_OVERFLOW. -/
def overflowWord (f : Int → Int → Int) (d a b : BitVec 5) (w : BitVec 1) (s : State) : Out :=
  aside true complete (fun s =>
    let n := if w = 0#1 then 64 else 32
    let r := f (sgnN n (s.readS a).toNat) (sgnN n (s.readS b).toNat)
    if intMin true n ≤ r && r ≤ intMax true n then .ok (s.writeS d (BitVec.ofInt 64 r))
    else .error (trapOf cOverflow)) s

def execAddv (d a b : BitVec 5) (w : BitVec 1) (s : State) : Out := overflowWord (· + ·) d a b w s
def execSubv (d a b : BitVec 5) (w : BitVec 1) (s : State) : Out := overflowWord (· - ·) d a b w s

/-! ## ADDI and IMM (R72, R73) -/

/-- A word that computes sD from sA and an immediate. -/
def immWord (f : Word → Word) (d a : BitVec 5) (s : State) : Out :=
  asideReg (fun s => s.writeS d (f (s.readS a))) s

def execAddi (d a : BitVec 5) (i : BitVec 15) (s : State) : Out := immWord (fun x => x + sext i) d a s
def execAndi (d a : BitVec 5) (i : BitVec 12) (s : State) : Out := immWord (fun x => x &&& sext i) d a s
def execOri (d a : BitVec 5) (i : BitVec 12) (s : State) : Out := immWord (fun x => x ||| sext i) d a s
def execXori (d a : BitVec 5) (i : BitVec 12) (s : State) : Out := immWord (fun x => x ^^^ sext i) d a s
def execSlti (d a : BitVec 5) (i : BitVec 12) (s : State) : Out := immWord (fun x => w64 (b2n (x.slt (sext i)))) d a s
def execSltiu (d a : BitVec 5) (i : BitVec 12) (s : State) : Out := immWord (fun x => w64 (b2n (x.ult (sext i)))) d a s
def execSlli (d a : BitVec 5) (i : BitVec 6) (s : State) : Out := immWord (fun x => x <<< i.toNat) d a s
def execSrli (d a : BitVec 5) (i : BitVec 6) (s : State) : Out := immWord (fun x => x >>> i.toNat) d a s
def execSrai (d a : BitVec 5) (i : BitVec 6) (s : State) : Out := immWord (fun x => x.sshiftRight i.toNat) d a s

/-! ## HI and PCADD (R74) -/

def execHi (d : BitVec 5) (i : BitVec 20) (s : State) : Out := asideReg (fun s => s.writeS d (sext i <<< 12)) s
def execPcadd (d : BitVec 5) (i : BitVec 20) (s : State) : Out :=
  asideReg (fun s => s.writeS d (s.cur.pc + (sext i <<< 12))) s

end Sys2Proof.Machine
end

