-- ==== Sys2Proof/Machine/Dispatch.lean ====
section
/-!
DEFINITION. exec: one arm for each constructor of Instr, each a direct call of its meaning.
-/
namespace Sys2Proof.Machine

open Sys2Proof in noncomputable
def exec (i : Instr) (s : State) : Host.Outcome State Fault Refusal :=
  match i with
  | .add d a b w => Sys2Proof.Machine.execAdd d a b w s
  | .sub d a b w => Sys2Proof.Machine.execSub d a b w s
  | .and d a b w => Sys2Proof.Machine.execAnd d a b w s
  | .or d a b w => Sys2Proof.Machine.execOr d a b w s
  | .xor d a b w => Sys2Proof.Machine.execXor d a b w s
  | .sll d a b w => Sys2Proof.Machine.execSll d a b w s
  | .srl d a b w => Sys2Proof.Machine.execSrl d a b w s
  | .sra d a b w => Sys2Proof.Machine.execSra d a b w s
  | .mul d a b w => Sys2Proof.Machine.execMul d a b w s
  | .mulh d a b w => Sys2Proof.Machine.execMulh d a b w s
  | .mulhu d a b w => Sys2Proof.Machine.execMulhu d a b w s
  | .div d a b w => Sys2Proof.Machine.execDiv d a b w s
  | .divu d a b w => Sys2Proof.Machine.execDivu d a b w s
  | .rem d a b w => Sys2Proof.Machine.execRem d a b w s
  | .remu d a b w => Sys2Proof.Machine.execRemu d a b w s
  | .min d a b w => Sys2Proof.Machine.execMin d a b w s
  | .max d a b w => Sys2Proof.Machine.execMax d a b w s
  | .minu d a b w => Sys2Proof.Machine.execMinu d a b w s
  | .maxu d a b w => Sys2Proof.Machine.execMaxu d a b w s
  | .slt d a b w => Sys2Proof.Machine.execSlt d a b w s
  | .sltu d a b w => Sys2Proof.Machine.execSltu d a b w s
  | .addv d a b w => Sys2Proof.Machine.execAddv d a b w s
  | .subv d a b w => Sys2Proof.Machine.execSubv d a b w s
  | .clz d a w => Sys2Proof.Machine.execClz d a w s
  | .popc d a w => Sys2Proof.Machine.execPopc d a w s
  | .addi d a im => Sys2Proof.Machine.execAddi d a im s
  | .andi d a im => Sys2Proof.Machine.execAndi d a im s
  | .ori d a im => Sys2Proof.Machine.execOri d a im s
  | .xori d a im => Sys2Proof.Machine.execXori d a im s
  | .slti d a im => Sys2Proof.Machine.execSlti d a im s
  | .sltiu d a im => Sys2Proof.Machine.execSltiu d a im s
  | .slli d a im => Sys2Proof.Machine.execSlli d a im s
  | .srli d a im => Sys2Proof.Machine.execSrli d a im s
  | .srai d a im => Sys2Proof.Machine.execSrai d a im s
  | .hi d im => Sys2Proof.Machine.execHi d im s
  | .pcadd d im => Sys2Proof.Machine.execPcadd d im s
  | .lb d a im => Sys2Proof.Machine.execLb d a im s
  | .lh d a im => Sys2Proof.Machine.execLh d a im s
  | .lw d a im => Sys2Proof.Machine.execLw d a im s
  | .ld d a im => Sys2Proof.Machine.execLd d a im s
  | .lbu d a im => Sys2Proof.Machine.execLbu d a im s
  | .lhu d a im => Sys2Proof.Machine.execLhu d a im s
  | .lwu d a im => Sys2Proof.Machine.execLwu d a im s
  | .ldk d a im => Sys2Proof.Machine.execLdk d a im s
  | .sb d a im => Sys2Proof.Machine.execSb d a im s
  | .sh d a im => Sys2Proof.Machine.execSh d a im s
  | .sw d a im => Sys2Proof.Machine.execSw d a im s
  | .sd d a im => Sys2Proof.Machine.execSd d a im s
  | .beq a b o => Sys2Proof.Machine.execBeq a b o s
  | .bne a b o => Sys2Proof.Machine.execBne a b o s
  | .blt a b o => Sys2Proof.Machine.execBlt a b o s
  | .bge a b o => Sys2Proof.Machine.execBge a b o s
  | .bltu a b o => Sys2Proof.Machine.execBltu a b o s
  | .bgeu a b o => Sys2Proof.Machine.execBgeu a b o s
  | .jal im => Sys2Proof.Machine.execJal im s
  | .jalr d a im => Sys2Proof.Machine.execJalr d a im s
  | .loop0 a im => Sys2Proof.Machine.execLoop0 a im s
  | .loop1 a im => Sys2Proof.Machine.execLoop1 a im s
  | .loopi0 l im => Sys2Proof.Machine.execLoopi0 l im s
  | .loopi1 l im => Sys2Proof.Machine.execLoopi1 l im s
  | .lexit0 => Sys2Proof.Machine.execLexit0 s
  | .lexit1 => Sys2Proof.Machine.execLexit1 s
  | .qpop d a => Sys2Proof.Machine.execQpop d a s
  | .qcnt d a => Sys2Proof.Machine.execQcnt d a s
  | .qdrain d a => Sys2Proof.Machine.execQdrain d a s
  | .fadd d a b p r => Sys2Proof.Machine.execFadd d a b p r s
  | .fsub d a b p r => Sys2Proof.Machine.execFsub d a b p r s
  | .fmul d a b p r => Sys2Proof.Machine.execFmul d a b p r s
  | .fdiv d a b p r => Sys2Proof.Machine.execFdiv d a b p r s
  | .fsqrt d a p r => Sys2Proof.Machine.execFsqrt d a p r s
  | .fmin d a b p => Sys2Proof.Machine.execFmin d a b p s
  | .fmax d a b p => Sys2Proof.Machine.execFmax d a b p s
  | .feq d a b p => Sys2Proof.Machine.execFeq d a b p s
  | .flt d a b p => Sys2Proof.Machine.execFlt d a b p s
  | .fle d a b p => Sys2Proof.Machine.execFle d a b p s
  | .fcvtfi d a b p r => Sys2Proof.Machine.execFcvtfi d a b p r s
  | .fcvtif d a b p r => Sys2Proof.Machine.execFcvtif d a b p r s
  | .fcvtff d a p r => Sys2Proof.Machine.execFcvtff d a p r s
  | .fclass d a p => Sys2Proof.Machine.execFclass d a p s
  | .fma d a b p r => Sys2Proof.Machine.execFma d a b p r s
  | .amoswap d a b tk o w => Sys2Proof.Machine.execAmoswap d a b tk o w s
  | .amoadd d a b tk o w => Sys2Proof.Machine.execAmoadd d a b tk o w s
  | .amoand d a b tk o w => Sys2Proof.Machine.execAmoand d a b tk o w s
  | .amoor d a b tk o w => Sys2Proof.Machine.execAmoor d a b tk o w s
  | .amoxor d a b tk o w => Sys2Proof.Machine.execAmoxor d a b tk o w s
  | .amomin d a b tk o w => Sys2Proof.Machine.execAmomin d a b tk o w s
  | .amomax d a b tk o w => Sys2Proof.Machine.execAmomax d a b tk o w s
  | .amominu d a b tk o w => Sys2Proof.Machine.execAmominu d a b tk o w s
  | .amomaxu d a b tk o w => Sys2Proof.Machine.execAmomaxu d a b tk o w s
  | .amocas d a b tk o w => Sys2Proof.Machine.execAmocas d a b tk o w s
  | .lda d a tk w => Sys2Proof.Machine.execLda d a tk w s
  | .stl a b tk w => Sys2Proof.Machine.execStl a b tk w s
  | .amofadd d a b tk o w => Sys2Proof.Machine.execAmofadd d a b tk o w s
  | .fence tk k => Sys2Proof.Machine.execFence tk k s
  | .pfence tk p => Sys2Proof.Machine.execPfence tk p s
  | .bar tk => Sys2Proof.Machine.execBar tk s
  | .sbar tk w h => Sys2Proof.Machine.execSbar tk w h s
  | .srr d n => Sys2Proof.Machine.execSrr d n s
  | .srw a n => Sys2Proof.Machine.execSrw a n s
  | .srs d a n => Sys2Proof.Machine.execSrs d a n s
  | .src d a n => Sys2Proof.Machine.execSrc d a n s
  | .trap im => Sys2Proof.Machine.execTrap im s
  | .breakpoint im => Sys2Proof.Machine.execBreakpoint im s
  | .tret => Sys2Proof.Machine.execTret s
  | .uret => Sys2Proof.Machine.execUret s
  | .wfe d a => Sys2Proof.Machine.execWfe d a s
  | .vtinv a b => Sys2Proof.Machine.execVtinv a b s
  | .ptinv a b => Sys2Proof.Machine.execPtinv a b s
  | .ctxsave d a => Sys2Proof.Machine.execCtxsave d a s
  | .ctxload d a => Sys2Proof.Machine.execCtxload d a s
  | .launch d a => Sys2Proof.Machine.execLaunch d a s
  | .launchc d a b => Sys2Proof.Machine.execLaunchc d a b s
  | .lwait d a => Sys2Proof.Machine.execLwait d a s
  | .yield => Sys2Proof.Machine.execYield s
  | .lstat d a => Sys2Proof.Machine.execLstat d a s
  | .endThread => Sys2Proof.Machine.execEndThread s
  | .hclaim d a => Sys2Proof.Machine.execHclaim d a s
  | .hfree b => Sys2Proof.Machine.execHfree b s
  | .hstat d b => Sys2Proof.Machine.execHstat d b s
  | .hdrain d a b => Sys2Proof.Machine.execHdrain d a b s
  | .ldt c d a z => Sys2Proof.Machine.execLdt c d a z s
  | .stt c d a z => Sys2Proof.Machine.execStt c d a z s
  | .txn c d a => Sys2Proof.Machine.execTxn c d a s
  | .stqry d a => Sys2Proof.Machine.execStqry d a s
  | .stload d a b => Sys2Proof.Machine.execStload d a b s
  | .stbind d a => Sys2Proof.Machine.execStbind d a s
  | .stunbind d b => Sys2Proof.Machine.execStunbind d b s
  | .cpy d a b w tk p => Sys2Proof.Machine.execCpy d a b w tk p s
  | .ecwait d a => Sys2Proof.Machine.execEcwait d a s
  | .wbld d a l w tk p h => Sys2Proof.Machine.execWbld d a l w tk p h s
  | .acstm d a b w tk p => Sys2Proof.Machine.execAcstm d a b w tk p s
  | .acldm d a b w tk p => Sys2Proof.Machine.execAcldm d a b w tk p s
  | .engb d a g => Sys2Proof.Machine.execEngb d a g s
  | .attach d a => Sys2Proof.Machine.execAttach d a s
  | .detach => Sys2Proof.Machine.execDetach s
  | .vld d a g n => Sys2Proof.Machine.execVld d a g n s
  | .vldStrided d a b g n => Sys2Proof.Machine.execVldStrided d a b g n s
  | .vldIndexed d a b g n => Sys2Proof.Machine.execVldIndexed d a b g n s
  | .vldOrd d a b g n => Sys2Proof.Machine.execVldOrd d a b g n s
  | .vst d a g n => Sys2Proof.Machine.execVst d a g n s
  | .vstStrided d a b g n => Sys2Proof.Machine.execVstStrided d a b g n s
  | .vstIndexed d a b g n => Sys2Proof.Machine.execVstIndexed d a b g n s
  | .vstOrd d a b g n => Sys2Proof.Machine.execVstOrd d a b g n s
  | .vldff d a g n => Sys2Proof.Machine.execVldff d a g n s
  | .vldm d a g n => Sys2Proof.Machine.execVldm d a g n s
  | .vldb d a b g n => Sys2Proof.Machine.execVldb d a b g n s
  | .vstm d a g n => Sys2Proof.Machine.execVstm d a g n s
  | .vamoadd d a b g n => Sys2Proof.Machine.execVamoadd d a b g n s
  | .vamomin d a b g n => Sys2Proof.Machine.execVamomin d a b g n s
  | .vamomax d a b g n => Sys2Proof.Machine.execVamomax d a b g n s
  | .vamofadd d a b g n => Sys2Proof.Machine.execVamofadd d a b g n s
  | .spld d a b g => Sys2Proof.Machine.execSpld d a b g s
  | .spst d a b g => Sys2Proof.Machine.execSpst d a b g s
  | .spldu d a g => Sys2Proof.Machine.execSpldu d a g s
  | .spstu d a g => Sys2Proof.Machine.execSpstu d a g s
  | .hins a b g t => Sys2Proof.Machine.execHins a b g t s
  | .hprb d a g t => Sys2Proof.Machine.execHprb d a g t s
  | .hdel a g t => Sys2Proof.Machine.execHdel a g t s
  | .hacc a b g t => Sys2Proof.Machine.execHacc a b g t s
  | .hamin a b g t => Sys2Proof.Machine.execHamin a b g t s
  | .hamax a b g t => Sys2Proof.Machine.execHamax a b g t s
  | .hupd a b g t => Sys2Proof.Machine.execHupd a b g t s
  | .vtxn c a b g => Sys2Proof.Machine.execVtxn c a b g s
  | .boxx d a b g => Sys2Proof.Machine.execBoxx d a b g s
  | .trix d a b g => Sys2Proof.Machine.execTrix d a b g s
  | .mlins a b g => Sys2Proof.Machine.execMlins a b g s
  | .mlins2 a b g => Sys2Proof.Machine.execMlins2 a b g s
  | .mlrslv d a b g => Sys2Proof.Machine.execMlrslv d a b g s
  | .mlclr b g => Sys2Proof.Machine.execMlclr b g s
  | .mlcfg d a => Sys2Proof.Machine.execMlcfg d a s
  | .mld d a b g n => Sys2Proof.Machine.execMld d a b g n s
  | .mldp d a b g n => Sys2Proof.Machine.execMldp d a b g n s
  | .mst d a b g n => Sys2Proof.Machine.execMst d a b g n s
  | .mstp d a b g n => Sys2Proof.Machine.execMstp d a b g n s
  | .setvl d a b => Sys2Proof.Machine.execSetvl d a b s
  | .settype d a => Sys2Proof.Machine.execSettype d a s
  | .settypei im => Sys2Proof.Machine.execSettypei im s
  | .queueDeadlock t => Sys2Proof.Machine.execQueueDeadlock t s
  | .wfeTimeout t => Sys2Proof.Machine.execWfeTimeout t s
  | .stagedResend t => Sys2Proof.Machine.execStagedResend t s
  | .commandComplete id err => Sys2Proof.Machine.execCommandComplete id err s
  | .tokenDeadlock t => Sys2Proof.Machine.execTokenDeadlock t s
  | .mlInsertion id => Sys2Proof.Machine.execMlInsertion id s
  | .mlResolveApply id => Sys2Proof.Machine.execMlResolveApply id s
  | .mlClearApply id => Sys2Proof.Machine.execMlClearApply id s
  | .setvlReevaluation core => Sys2Proof.Machine.execSetvlReevaluation core s
  | .bootLaunch part packet => Sys2Proof.Machine.execBootLaunch part packet s
  | .partitionUnitTake part => Sys2Proof.Machine.execPartitionUnitTake part s
  | .gateReoffer part lid => Sys2Proof.Machine.execGateReoffer part lid s
  | .threadDispatch part => Sys2Proof.Machine.execThreadDispatch part s
  | .recordAging t => Sys2Proof.Machine.execRecordAging t s
  | .launchComplete part lid => Sys2Proof.Machine.execLaunchComplete part lid s
  | .nodeFlush part node => Sys2Proof.Machine.execNodeFlush part node s
  | .laneReclaim t => Sys2Proof.Machine.execLaneReclaim t s
  | .governorEvaluation core ceil quad rowcap pace => Sys2Proof.Machine.execGovernorEvaluation core ceil quad rowcap pace s
  | .preemption t => Sys2Proof.Machine.execPreemption t s
  | .resume t => Sys2Proof.Machine.execResume t s
  | .peerRequest q => Sys2Proof.Machine.execPeerRequest q s
  | .peerResend tag => Sys2Proof.Machine.execPeerResend tag s
  | .peerRetryReply tag => Sys2Proof.Machine.execPeerRetryReply tag s
  | .linkError tag => Sys2Proof.Machine.execLinkError tag s
  | .flitCrcRetry port => Sys2Proof.Machine.execFlitCrcRetry port s
  | .crinikLaneFailure port => Sys2Proof.Machine.execCrinikLaneFailure port s
  | .crinikPortLoss port => Sys2Proof.Machine.execCrinikPortLoss port s
  | .hostRequest part addr => Sys2Proof.Machine.execHostRequest part addr s
  | .softError core group again => Sys2Proof.Machine.execSoftError core group again s
  | .eccCorrected part addr unit => Sys2Proof.Machine.execEccCorrected part addr unit s
  | .uncorrectableError addr len => Sys2Proof.Machine.execUncorrectableError addr len s
  | .fatalDeviceError unit => Sys2Proof.Machine.execFatalDeviceError unit s
  | .heartbeat m => Sys2Proof.Machine.execHeartbeat m s
  | .takeoverExpiry => Sys2Proof.Machine.execTakeoverExpiry s
  | .ownershipWrite m v => Sys2Proof.Machine.execOwnershipWrite m v s
  | .modidWrite m v => Sys2Proof.Machine.execModidWrite m v s
  | .registerWrite m vf off v => Sys2Proof.Machine.execRegisterWrite m vf off v s
  | .create m => Sys2Proof.Machine.execCreate m s
  | .destroy m => Sys2Proof.Machine.execDestroy m s
  | .resize m => Sys2Proof.Machine.execResize m s
  | .addmem m => Sys2Proof.Machine.execAddmem m s
  | .exportAperture m => Sys2Proof.Machine.execExportAperture m s
  | .peermap m => Sys2Proof.Machine.execPeermap m s
  | .peerunmap m => Sys2Proof.Machine.execPeerunmap m s
  | .fenceq m => Sys2Proof.Machine.execFenceq m s
  | .readmit m => Sys2Proof.Machine.execReadmit m s
  | .retiresb m => Sys2Proof.Machine.execRetiresb m s
  | .retirech m => Sys2Proof.Machine.execRetirech m s
  | .power m => Sys2Proof.Machine.execPower m s
  | .links m => Sys2Proof.Machine.execLinks m s
  | .update m => Sys2Proof.Machine.execUpdate m s
  | .seize => Sys2Proof.Machine.execSeize s
  | .handback => Sys2Proof.Machine.execHandback s
  | .requestComplete => Sys2Proof.Machine.execRequestComplete s
  | .imageSwitch unit ok => Sys2Proof.Machine.execImageSwitch unit ok s
  | .spdmGetMeasurements => Sys2Proof.Machine.execSpdmGetMeasurements s
  | .spdmChallenge nonce => Sys2Proof.Machine.execSpdmChallenge nonce s
  | .spdmKeyExchange nonce => Sys2Proof.Machine.execSpdmKeyExchange nonce s
  | .pldmMonitoring => Sys2Proof.Machine.execPldmMonitoring s
  | .pldmFirmwareUpdate unit version ok => Sys2Proof.Machine.execPldmFirmwareUpdate unit version ok s
  | .auxPowerUp ok => Sys2Proof.Machine.execAuxPowerUp ok s
  | .mainPowerUp ok badChannels => Sys2Proof.Machine.execMainPowerUp ok badChannels s
  | .illegalWord w => Sys2Proof.Machine.execIllegalWord w s
  | .dieToDieLinkRetry tag => Sys2Proof.Machine.execDieToDieLinkRetry tag s
  | .replyAcknowledgement port requester tag => Sys2Proof.Machine.execReplyAcknowledgement port requester tag s
  | .vadd c d a b g => Sys2Proof.Machine.execVadd c d a b g s
  | .vsub c d a b g => Sys2Proof.Machine.execVsub c d a b g s
  | .vmul c d a b g => Sys2Proof.Machine.execVmul c d a b g s
  | .vmulh c d a b g => Sys2Proof.Machine.execVmulh c d a b g s
  | .vmin c d a b g => Sys2Proof.Machine.execVmin c d a b g s
  | .vmax c d a b g => Sys2Proof.Machine.execVmax c d a b g s
  | .vminu c d a b g => Sys2Proof.Machine.execVminu c d a b g s
  | .vmaxu c d a b g => Sys2Proof.Machine.execVmaxu c d a b g s
  | .vand c d a b g => Sys2Proof.Machine.execVand c d a b g s
  | .vor c d a b g => Sys2Proof.Machine.execVor c d a b g s
  | .vxor c d a b g => Sys2Proof.Machine.execVxor c d a b g s
  | .vsll c d a b g => Sys2Proof.Machine.execVsll c d a b g s
  | .vsrl c d a b g => Sys2Proof.Machine.execVsrl c d a b g s
  | .vsra c d a b g => Sys2Proof.Machine.execVsra c d a b g s
  | .vmacc c d a b g => Sys2Proof.Machine.execVmacc c d a b g s
  | .vdiv c d a b g => Sys2Proof.Machine.execVdiv c d a b g s
  | .vaddsat c d a b g => Sys2Proof.Machine.execVaddsat c d a b g s
  | .vsubsat c d a b g => Sys2Proof.Machine.execVsubsat c d a b g s
  | .vintsVadd c d a b g => Sys2Proof.Machine.execVintsVadd c d a b g s
  | .vintsVsub c d a b g => Sys2Proof.Machine.execVintsVsub c d a b g s
  | .vintsVmul c d a b g => Sys2Proof.Machine.execVintsVmul c d a b g s
  | .vintsVmulh c d a b g => Sys2Proof.Machine.execVintsVmulh c d a b g s
  | .vintsVmin c d a b g => Sys2Proof.Machine.execVintsVmin c d a b g s
  | .vintsVmax c d a b g => Sys2Proof.Machine.execVintsVmax c d a b g s
  | .vintsVminu c d a b g => Sys2Proof.Machine.execVintsVminu c d a b g s
  | .vintsVmaxu c d a b g => Sys2Proof.Machine.execVintsVmaxu c d a b g s
  | .vintsVand c d a b g => Sys2Proof.Machine.execVintsVand c d a b g s
  | .vintsVor c d a b g => Sys2Proof.Machine.execVintsVor c d a b g s
  | .vintsVxor c d a b g => Sys2Proof.Machine.execVintsVxor c d a b g s
  | .vintsVsll c d a b g => Sys2Proof.Machine.execVintsVsll c d a b g s
  | .vintsVsrl c d a b g => Sys2Proof.Machine.execVintsVsrl c d a b g s
  | .vintsVsra c d a b g => Sys2Proof.Machine.execVintsVsra c d a b g s
  | .vintsVmacc c d a b g => Sys2Proof.Machine.execVintsVmacc c d a b g s
  | .vintsVdiv c d a b g => Sys2Proof.Machine.execVintsVdiv c d a b g s
  | .vintsVaddsat c d a b g => Sys2Proof.Machine.execVintsVaddsat c d a b g s
  | .vintsVsubsat c d a b g => Sys2Proof.Machine.execVintsVsubsat c d a b g s
  | .vfadd c d a b g => Sys2Proof.Machine.execVfadd c d a b g s
  | .vfsub c d a b g => Sys2Proof.Machine.execVfsub c d a b g s
  | .vfmul c d a b g => Sys2Proof.Machine.execVfmul c d a b g s
  | .vfdiv c d a b g => Sys2Proof.Machine.execVfdiv c d a b g s
  | .vfsqrt c d a g => Sys2Proof.Machine.execVfsqrt c d a g s
  | .vfma c d a b g => Sys2Proof.Machine.execVfma c d a b g s
  | .vfms c d a b g => Sys2Proof.Machine.execVfms c d a b g s
  | .vfmin c d a b g => Sys2Proof.Machine.execVfmin c d a b g s
  | .vfmax c d a b g => Sys2Proof.Machine.execVfmax c d a b g s
  | .vfabs c d a g => Sys2Proof.Machine.execVfabs c d a g s
  | .vfneg c d a g => Sys2Proof.Machine.execVfneg c d a g s
  | .vfpsVfadd c d a b g => Sys2Proof.Machine.execVfpsVfadd c d a b g s
  | .vfpsVfsub c d a b g => Sys2Proof.Machine.execVfpsVfsub c d a b g s
  | .vfpsVfmul c d a b g => Sys2Proof.Machine.execVfpsVfmul c d a b g s
  | .vfpsVfdiv c d a b g => Sys2Proof.Machine.execVfpsVfdiv c d a b g s
  | .vfpsVfma c d a b g => Sys2Proof.Machine.execVfpsVfma c d a b g s
  | .vfpsVfms c d a b g => Sys2Proof.Machine.execVfpsVfms c d a b g s
  | .vfpsVfmin c d a b g => Sys2Proof.Machine.execVfpsVfmin c d a b g s
  | .vfpsVfmax c d a b g => Sys2Proof.Machine.execVfpsVfmax c d a b g s
  | .vcmpEq c d a b g k => Sys2Proof.Machine.execVcmpEq c d a b g k s
  | .vcmpNe c d a b g k => Sys2Proof.Machine.execVcmpNe c d a b g k s
  | .vcmpLt c d a b g k => Sys2Proof.Machine.execVcmpLt c d a b g k s
  | .vcmpGe c d a b g k => Sys2Proof.Machine.execVcmpGe c d a b g k s
  | .vcmpLe c d a b g k => Sys2Proof.Machine.execVcmpLe c d a b g k s
  | .vcmpGt c d a b g k => Sys2Proof.Machine.execVcmpGt c d a b g k s
  | .vcmpUn c d a b g => Sys2Proof.Machine.execVcmpUn c d a b g s
  | .pand c d a b g => Sys2Proof.Machine.execPand c d a b g s
  | .por c d a b g => Sys2Proof.Machine.execPor c d a b g s
  | .pxor c d a b g => Sys2Proof.Machine.execPxor c d a b g s
  | .pandn c d a b g => Sys2Proof.Machine.execPandn c d a b g s
  | .pnot c d a g => Sys2Proof.Machine.execPnot c d a g s
  | .plead c d a g => Sys2Proof.Machine.execPlead c d a g s
  | .pthru c d a g => Sys2Proof.Machine.execPthru c d a g s
  | .ppre c d a g => Sys2Proof.Machine.execPpre c d a g s
  | .pcnt c d a g => Sys2Proof.Machine.execPcnt c d a g s
  | .pany c d a g => Sys2Proof.Machine.execPany c d a g s
  | .pset c d g => Sys2Proof.Machine.execPset c d g s
  | .pclr c d g => Sys2Proof.Machine.execPclr c d g s
  | .pgetf c d g => Sys2Proof.Machine.execPgetf c d g s
  | .vslup c d a b g => Sys2Proof.Machine.execVslup c d a b g s
  | .vsldn c d a b g => Sys2Proof.Machine.execVsldn c d a b g s
  | .vslupi c d a b g => Sys2Proof.Machine.execVslupi c d a b g s
  | .vsldni c d a b g => Sys2Proof.Machine.execVsldni c d a b g s
  | .vperm c d a b g => Sys2Proof.Machine.execVperm c d a b g s
  | .vcomp c d a b => Sys2Proof.Machine.execVcomp c d a b s
  | .vexpd c d a b => Sys2Proof.Machine.execVexpd c d a b s
  | .vmerge c d a b g => Sys2Proof.Machine.execVmerge c d a b g s
  | .vbcast c d a g => Sys2Proof.Machine.execVbcast c d a g s
  | .vextr c d a b => Sys2Proof.Machine.execVextr c d a b s
  | .vins c d a b => Sys2Proof.Machine.execVins c d a b s
  | .viota c d a g => Sys2Proof.Machine.execViota c d a g s
  | .vid c d g => Sys2Proof.Machine.execVid c d g s
  | .vredsum c d a g => Sys2Proof.Machine.execVredsum c d a g s
  | .vredmin c d a g => Sys2Proof.Machine.execVredmin c d a g s
  | .vredmax c d a g => Sys2Proof.Machine.execVredmax c d a g s
  | .vfredo c d a g => Sys2Proof.Machine.execVfredo c d a g s
  | .vfredt c d a g => Sys2Proof.Machine.execVfredt c d a g s
  | .vfredmin c d a g => Sys2Proof.Machine.execVfredmin c d a g s
  | .vfredmax c d a g => Sys2Proof.Machine.execVfredmax c d a g s
  | .vcmul c d a b g => Sys2Proof.Machine.execVcmul c d a b g s
  | .vcmac c d a b g => Sys2Proof.Machine.execVcmac c d a b g s
  | .vcmulc c d a b g => Sys2Proof.Machine.execVcmulc c d a b g s
  | .vcabs2 c d a g => Sys2Proof.Machine.execVcabs2 c d a g s
  | .vcvt c d a e g f => Sys2Proof.Machine.execVcvt c d a e g f s
  | .vscale c d a b g => Sys2Proof.Machine.execVscale c d a b g s
  | .vqmax c d a g => Sys2Proof.Machine.execVqmax c d a g s
  | .mgp c d a b g p => Sys2Proof.Machine.execMgp c d a b g p s
  | .mwdg c d a b g p => Sys2Proof.Machine.execMwdg c d a b g p s
  | .mdot c d a b g p => Sys2Proof.Machine.execMdot c d a b g p s
  | .mlct c d a b g p => Sys2Proof.Machine.execMlct c d a b g p s
  | .mjoin c d a b g p => Sys2Proof.Machine.execMjoin c d a b g p s
  | .msand c d a b g p => Sys2Proof.Machine.execMsand c d a b g p s
  | .mcomm c d a b g p => Sys2Proof.Machine.execMcomm c d a b g p s
  | .mrev c d a g p => Sys2Proof.Machine.execMrev c d a g p s
  | .mdual c d a g p => Sys2Proof.Machine.execMdual c d a g p s
  | .mgrd c d a b g p => Sys2Proof.Machine.execMgrd c d a b g p s
  | .mnrm2 c d a g p => Sys2Proof.Machine.execMnrm2 c d a g p s
  | .mnrmi c d a g p => Sys2Proof.Machine.execMnrmi c d a g p s
  | .mnormz c d a g p => Sys2Proof.Machine.execMnormz c d a g p s
  | .mexpb c d a g p => Sys2Proof.Machine.execMexpb c d a g p s
  | .mlogm c d a g p => Sys2Proof.Machine.execMlogm c d a g p s
  | .mmov c d a g p => Sys2Proof.Machine.execMmov c d a g p s
  | .msetm c d b => Sys2Proof.Machine.execMsetm c d b s
  | .mgetm c d a => Sys2Proof.Machine.execMgetm c d a s
  | .mclean c d a => Sys2Proof.Machine.execMclean c d a s
  | .mfromv c d a b g p => Sys2Proof.Machine.execMfromv c d a b g p s
  | .mtov c d a b g => Sys2Proof.Machine.execMtov c d a b g s
  | .madd c d a b g p => Sys2Proof.Machine.execMadd c d a b g p s
  | .msub c d a b g p => Sys2Proof.Machine.execMsub c d a b g p s
  | .mscal c d a b g p => Sys2Proof.Machine.execMscal c d a b g p s
  | .mconj c d a g p => Sys2Proof.Machine.execMconj c d a g p s
  | .minvol c d a g p => Sys2Proof.Machine.execMinvol c d a g p s
  | .mxac c d a l h w tk => Sys2Proof.Machine.execMxac c d a l h w tk s
  | .mxacs c d a l h w tk => Sys2Proof.Machine.execMxacs c d a l h w tk s
  | .mzero c d w tk => Sys2Proof.Machine.execMzero c d w tk s
  | .acld c d a w tk => Sys2Proof.Machine.execAcld c d a w tk s
  | .acst c d a w tk => Sys2Proof.Machine.execAcst c d a w tk s
  | .mchk c d e w tk => Sys2Proof.Machine.execMchk c d e w tk s
  | .vtok c w tk => Sys2Proof.Machine.execVtok c w tk s

end Sys2Proof.Machine
end

