-- ==== Sys2Proof/Machine/Sched.lean ====
section
/-!
DEFINITION. One step of the module: the fetch of a word (03 R89), a thread's turn, when an event of a unit is due, and
whose turn it is. The order of turns is data of the state: sched names the next turns, and where it is empty the module
takes the first event that is due, then the threads one after another, and a time limit now and then (14 R433; log 5).
-/
namespace Sys2Proof.Machine

noncomputable section

/-! ## Time -/

/-- Do threads run in this power state (R514)? -/
def State.powered (s : State) : Bool := decide (s.hub.power ≤ 1)

/-- A step takes some cycles of the arithmetic clock (R53; log 4), which stops in P2 and is off in P3 (R514). -/
def State.tick (s : State) : State :=
  { s with cycle := if s.powered then s.cycle + Config.cycles s.fresh else s.cycle, fresh := s.fresh + 1 }

/-! ## Fetch (R89) -/

/-- The word at the current thread's PC, or what its fetch comes to. A fetch is no access of a stream: it waits for no
access that waits, only for an engine that owns its line (R23) or a peer (R504). -/
def State.fetch (s : State) : Except Stop (BitVec 32) :=
  let t := s.cur
  match s.walkReady 4 4 t.pc with
  | .error e => .error e
  | .ok _ =>
  match s.scalar s.cp s.needU .fetch 4 t.pc 4 with
  | .error c => .error (accessTrap c t.pc)
  | .ok pas =>
    match s.reachable pas with
    | .error e => .error e
    | .ok _ =>
      if s.poisoned pas then .error (.trap { cause := cMachine, addr := t.pc })
      else .ok (BitVec.ofNat 32 (ofBytes (pas.map s.mem.byte)))

/-! ## A thread's turn -/

/-- The instruction of a word: one that the decoder refuses is ILLEGAL_WORD. -/
def instrOf (w : BitVec 32) : Instr :=
  match decode w with
  | .ok i => i
  | .error _ => .illegalWord w

/-- A thread that waits behind a full queue or a token has its deadlock counted (R102, R385); one that waits for a peer is
given up after a time (R260), and so is a command that no port serves (R372). -/
def State.settle (s : State) : State :=
  let add := fun (s : State) (i : Instr) => if s.timers.contains i then s else s.timer i
  let cut := s.cmds.filter (fun c => (runBytes (c.body.sources ++ c.body.dests)).any s.cutOff)
  let s0 := cut.foldl (fun s c => add s (.commandComplete c.id true)) s
  let s1 := if s0.active then s0.cutTags.foldl (fun s k => add (add s (.peerResend k)) (.linkError k)) s0 else s0
  match s1.active, s1.cur.prog.wait with
  | true, .retry w =>
    let s2 := match w with
      | .peer k => add (add s1 (.peerResend k)) (.linkError k)
      | _ => s1
    if s2.cur.queueStuck.isSome then add s2 (.queueDeadlock s2.cur.id)
    else if s2.tokenDead s2.cur then add s2 (.tokenDeadlock s2.cur.id) else s2
  | _, _ => s1

/-- What a thread's word leaves is settled. -/
def settled (o : Out) : Out :=
  match o with
  | .next s => .next s.settle
  | .fault r => .fault r
  | .refused r => .refused r

/-- A fetched word: it waits until the accesses that wait have written its registers (R111), and runs. -/
def runFetched (w : BitVec 32) (s : State) : Out :=
  let i := instrOf w
  if s.cur.scoreboard i then .next (s.waits .other) else exec i s

/-- A fetch that fails: the convoy being framed goes with the words before it, and the trap is the failing word's (R89; log
15), which ends the time limit of a WFE that waited there (R480). -/
def fetchTrap (x : Trap) (s : State) : Out :=
  match s.cur.framing with
  | some v => dispatchPart v s
  | none => trapWhen x s.endLimit s

/-- The word at the current thread's PC. -/
def runNext (s : State) : Out :=
  match s.fetch with
  | .ok w => runFetched w s
  | .error (.trap x) => fetchTrap x s
  | .error (.after x _) => fetchTrap x s
  | .error (.wait w) => .next (s.waits w)
  | .error (.waitIn w s') => .next (s'.waits w)

/-- A trap that a unit has found; it waits for earlier convoys in its place (R468). -/
def trapIfDrained (x : Trap) (s : State) : Out := if s.cur.viq.isEmpty then .next (takeTrap s x) else .next s

/-- The current thread's A-side: a trap whose record waits for an engine, a MACHINE_CHECK from outside its words once its earlier
work is done, a trap that a unit has found, or the word at its PC. A reissue that is pending ends with such a trap: the record of a cause that is no vector
memory or VTXN fault has RI 0 (R474), so the returned-to word runs whole after it (R108; log 17). -/
def runWord (s : State) : Out :=
  match s.cur.prog.wait, s.cur.prog.check, s.cur.viq.isEmpty with
  | .retry (.trap x), _, _ => .next (takeTrap s x)
  | _, some a, true => .next (s.takeCheck a)
  | w, _, _ =>
    match w with
    | .parked => .next s
    | .retry (.fault c a) =>
      trapIfDrained { cause := c, addr := a, batch := if c = cResidency then [subBlock a] else [] } s
    | _ => runNext s

/-- The current thread's turn: its E-side goes as far as it can, and its A-side takes one word. -/
def runCur (s : State) : Out := settled (runWord s.drainAll)

/-! ## Which threads run -/

/-- Does a partition run? -/
def State.partRuns (s : State) (pn : Nat) : Bool := s.powered && decide ((s.part pn).state = .running)

/-- May a thread take a turn? A parked one may, for its E-side or a MACHINE_CHECK: only its A-side waits (R305). -/
def State.canRun (s : State) (t : Thread) : Bool :=
  s.partRuns t.id.part && (decide (t.prog.wait ≠ .parked) || !t.viq.isEmpty || t.prog.check.isSome)

/-- Does a thread take a turn without waiting? -/
def State.eager (s : State) (t : Thread) : Bool := s.canRun t && decide (t.prog.wait = .none)

/-- Thread k of the others becomes the current one, and the current one the last of the others. -/
def State.bring (s : State) (k : Nat) : State :=
  match s.others[k]? with
  | none => s
  | some t =>
    { s with
      cur := t
      active := true
      others := (s.others.take k ++ s.others.drop (k + 1)) ++ (if s.active then [s.cur] else []) }

/-! ## Events that are due -/

/-- Can a unit's event happen now? An event whose object is gone happens and does nothing. -/
def State.due (s : State) (i : Instr) : Bool :=
  match i with
  | .commandComplete id err => s.powered && ((s.cmds.find? (fun c => c.id == id)).all (fun c => s.cmdReady c err))
  | .mlInsertion id => s.powered && s.mlDue id
  | .mlResolveApply id => s.powered && s.mlDue id
  | .mlClearApply id => s.powered && s.mlDue id
  | .partitionUnitTake pn => s.partRuns pn && !s.takeWaits pn
  | .gateReoffer pn _ => s.partRuns pn
  | .threadDispatch pn => s.partRuns pn
  | .resume t => s.partRuns t.part
  | .launchComplete pn lid => s.powered && (s.launchDone pn lid || s.completionDue pn lid)
  | .nodeFlush pn n =>
    s.partRuns pn && ((s.nodesOf pn).find? (fun x => x.desc.toNat == n)).all (fun x => (s.part pn).hasRoom x.packet.prio)
  | .preemption t => s.mayPreempt t || s.onChip.all (fun h => h.id != t)
  | .destroy _ =>
    let pn := (s.arg 0).toNat
    decide ((s.part pn).state ≠ .quiescing) || !s.partCmds pn
  | .resize _ =>
    let pn := (s.arg 0).toNat
    decide ((s.part pn).quads ≠ s.arg 1) || s.removeReady (s.leaving pn)
  | .fenceq _ =>
    let q := (s.arg 0).toNat
    match (s.quad q).owner with
    | some pn => (s.part pn).quads.getLsbD q || s.removeReady [q]
    | none => true
  | .exportAperture _ => decide (s.arg 3 ≠ 0#64) || !s.requestsTo (s.arg 1).toNat
  | .peerunmap _ => !s.peerBusy (s.arg 0).toNat ((s.arg 1).toNat, (s.arg 2).toNat)
  | .softError core group again => !again || s.laneReady core group
  | .peerRequest q => (s.apertureFor q).all (fun a => !(peerPlaces a q).any s.owned)
  | _ => true

/-- The list without item k. -/
def dropAt {α : Type} (l : List α) (k : Nat) : List α := l.take k ++ l.drop (k + 1)

/-- Event k happens, if it can. -/
def takeEvent (k : Nat) (s : State) : Out :=
  match s.inputs[k]? with
  | none => .next s
  | some i => if s.due i then exec i { s with inputs := dropAt s.inputs k } else .next s

/-- Does a time limit run? Times scale with the arithmetic clock, and stop with it; those of the hub do not (R514). -/
def State.runs (s : State) (i : Instr) : Bool :=
  s.powered ||
    match i with
    | .takeoverExpiry => true
    | .imageSwitch _ _ => true
    | _ => false

/-- Time limit k passes, if it runs. -/
def takeTimer (k : Nat) (s : State) : Out :=
  match s.timers[k]? with
  | none => .next s
  | some i => if s.runs i then exec i { s with timers := dropAt s.timers k } else .next s

/-- The first time limit that runs passes. -/
def takeLimit (s : State) : Out :=
  match findIdxOpt s.runs s.timers 0 with
  | some k => takeTimer k s
  | none => .next s

/-! ## Whose turn it is (log 5) -/

/-- The current thread's turn, if it may take one. -/
def takeCur (s : State) : Out := if s.active && s.canRun s.cur then runCur s else .next s

/-- The turn of another thread. -/
def takeOther (k : Nat) (s : State) : Out := takeCur (s.bring k)

/-- A turn that sched names. -/
def takeTurn (t : Turn) (s : State) : Out :=
  match t with
  | .cur => takeCur s
  | .switch k => takeOther k s
  | .event k => takeEvent k s
  | .timer k => takeTimer k s

/-- Does a time limit pass: at every 1,024th step, and oftener while every thread waits? -/
def State.limitPasses (s : State) : Bool :=
  s.timers.any s.runs &&
    (decide (s.fresh % 1024 = 0) ||
      (s.onChip.all (fun t => !s.eager t) && decide (s.fresh % (s.others.length + 2) = 0)))

/-- The turn where sched names none: a due event first, then a time limit that passes, then the threads one after
another. -/
def takeDefault (s : State) : Out :=
  match findIdxOpt s.due s.inputs 0 with
  | some k => takeEvent k s
  | none =>
    if s.limitPasses then takeLimit s
    else
      match findIdxOpt s.canRun s.others 0 with
      | some k => takeOther k s
      | none =>
        if s.active && s.canRun s.cur then runCur s
        else if s.timers.any s.runs then takeLimit s
        else if s.hub.fatal then .fault .deviceFatal
        else .next s

/-- A turn's writes to read-shared apertures invalidate the copies of their sharers, whoever wrote (R506). -/
def invalidated (s : State) (o : Out) : Out :=
  match o with
  | .next t => .next (t.invalidate (t.mem.since s.mem.logLen))
  | .fault r => .fault r
  | .refused r => .refused r

/-- A whole step. -/
def oneStep (s : State) : Out :=
  invalidated s (match s.sched with
    | t :: r => takeTurn t { s.tick with sched := r }
    | [] => takeDefault s.tick)

/-! ## A program's first word (log 16) -/

/-- A partition that runs on quad 0 with the memory below 2^28 as its one window page. -/
def placePart : Part :=
  { Part.reset with
    state := .running, quads := 1#64, ranges := [(0, 2 ^ 28)], key := 1, nextLid := 2, bootClosed := true,
    regs2 := { PartRegs2.reset with gzcount := 1 } }

/-- The thread of its boot launch, at PC 0. -/
def placeThread : Thread :=
  { Thread.reset with id := ⟨0, 1, 0⟩, place := { Thread.reset.place with prio := 0 } }

/-- The state with the given bytes at address 0, where the thread of partition 0 fetches next. -/
def State.placeWord (s : State) (bs : List Byte) : State :=
  { s with
    mem := s.mem.writeAll .unit ((List.range 4).zip bs)
    gz := Table.set s.gz GzEntry.zero 0 ⟨0, 0, 7#3, BitVec.allOnes 128, 0⟩
    cur := placeThread
    active := true
    quads := Table.set s.quads Quad.reset 0 { Quad.reset with owner := some 0 }
    parts := Table.set s.parts Part.reset 0 placePart
    hub := { s.hub with power := 0, stage := 8 } }

end

end Sys2Proof.Machine
end

