-- ==== Sys2Proof/Machine/Step.lean ====
section
/-!
DEFINITION. step, and the state in which the next step runs a given word.
-/
namespace Sys2Proof.Machine

/-- One step of the module. -/
noncomputable def step (s : State) : Host.Outcome State Fault Refusal := oneStep s

/-- s with a word as the next that step fetches: partition 0 runs at power state P0 on quad 0 with the first 256 MiB of
memory as its window at address 0, its thread of launch 1 stands on core 0 at PC 0, and the word's four bytes lie there
(log 16: this stands for bring-up, CREATE, the driver's VTINV and a boot launch). -/
def State.withFetchWord (s : State) (_nbits w : Nat) : State := State.placeWord s (bytesOf 4 w)

end Sys2Proof.Machine
end

