-- ==== Sys2Proof/Safety.lean ====
section
/-!
DEFINITION. What counts as a safe run, and the terms that the statements use: the conditions under which a word of each
side completes, and what a completed word changes and leaves alone.
-/
namespace Sys2Proof.Machine

/-- A step that goes on. -/
def State.goesOn (s : State) : Prop := ∃ t, step s = .next t

/-- The meaning of i at s answers a next state, and P holds of it. -/
def Completes (i : Instr) (s : State) (P : State → Prop) : Prop := ∃ t, exec i s = .next t ∧ P t

/-! ## When a word completes -/

/-- No convoy is being framed: an A-side word may stand at pc (R43, R44). -/
def State.unframed (s : State) : Prop := s.cur.framing = none

/-- Nothing holds an A-side word back: no convoy is being framed and none that can still trap waits (R44, R469). -/
def State.free (s : State) : Prop := s.cur.framing = none ∧ s.cur.trapPending = false

/-- Nor does an access wait that later ones of the thread might have to follow (R229, R237). -/
def State.quiet (s : State) : Prop := s.free ∧ s.cur.accessWaits = false

/-- The E-side of the current thread has nothing to do: a trap is taken at once, and a word of the E-side runs at once. -/
def State.idle (s : State) : Prop := s.cur.framing = none ∧ s.cur.viq = []

/-! ## What a word leaves -/

/-- The thread after one word that does not transfer control, but for its effect: pc, loops and the open request tag as
R93 and R260 leave them, one word more retired (R53), the last one to complete (R467), no reissue pending and no wait. -/
def Thread.past (t : Thread) : Thread :=
  { t with
    pc := t.advance.pc
    loops := t.advance.loops
    prog := { t.prog with
      instret := t.prog.instret + 1#64, last := some t.pc, resend := t.advance.prog.resend, reissue := false
      wait := .none } }

/-- A word that writes v to sD and nothing else: sD holds v (0 where D is s0), every other scalar register and every byte
of memory reads as before, and every other part of the state is as before but for the thread's progress past the word. -/
structure Wrote (d : BitVec 5) (v : Word) (s t : State) : Prop where
  result : t.readS d = if d = 0#5 then 0#64 else v
  others : ∀ r, r ≠ d → t.readS r = s.readS r
  memory : ∀ a, t.mem.byte a = s.mem.byte a
  rest : t = { s with cur := { s.cur.past with s := t.cur.s } }

/-- A word that writes v to sD and joins flags to fflags (R79, R127), and changes nothing else. -/
structure WroteFl (d : BitVec 5) (v : Word) (fl : Nat) (s t : State) : Prop where
  result : t.readS d = if d = 0#5 then 0#64 else v
  others : ∀ r, r ≠ d → t.readS r = s.readS r
  memory : ∀ a, t.mem.byte a = s.mem.byte a
  rest : t = { s with cur := { s.cur.past with
    s := t.cur.s, user := { s.cur.user with fflags := s.cur.user.fflags ||| BitVec.ofNat 64 fl } } }

/-- A word that writes the bytes bs to the places pas and v to sD: the bytes are there (where no place comes twice), every
other byte of memory and every other register reads as before, and nothing else changes but the thread's progress, the
flags that fl names, the older values that memory keeps of the bytes, and the registers that waiting convoys have captured. -/
structure Stored (pas : List Nat) (bs : List Byte) (d : BitVec 5) (v : Word) (fl : Nat) (s t : State) : Prop where
  bytes : pas.Nodup → pas.map t.mem.byte = bs
  frame : ∀ a, a ∉ pas → t.mem.byte a = s.mem.byte a
  result : t.readS d = if d = 0#5 then 0#64 else v
  others : ∀ r, r ≠ d → t.readS r = s.readS r
  order : t.cur.viq = (s.writeLate d v).cur.viq
  rest : t = { s with
    mem := t.mem
    cur := { s.cur.past with
      s := t.cur.s, viq := t.cur.viq, user := { s.cur.user with fflags := s.cur.user.fflags ||| BitVec.ofNat 64 fl } } }

/-- A word that loads v into sD, as Wrote has it; the convoys that wait take the register as their own past. -/
structure Loaded (d : BitVec 5) (v : Word) (s t : State) : Prop where
  result : t.readS d = if d = 0#5 then 0#64 else v
  others : ∀ r, r ≠ d → t.readS r = s.readS r
  memory : ∀ a, t.mem.byte a = s.mem.byte a
  order : t.cur.viq = (s.writeLate d v).cur.viq
  rest : t = { s with cur := { s.cur.past with s := t.cur.s, viq := t.cur.viq } }

/-- A word whose access waits: it stands last in the thread's pending work, which was l, with the time of its dispatch, and the
thread goes on past the word (R16, R111, R237). An access to a peer keeps the thread as it stood at the word (R260, R467). -/
def Queued (l : List VEntry) (e : VEntry) (s t : State) : Prop :=
  ∃ u : Option Undo,
    ((∀ a ∈ e.bytes.2, targetOf a ≠ 2) → u = none) ∧
    ((∃ a ∈ e.bytes.2, targetOf a = 2) → u = some {
      tag := s.peerTag, pc := s.cur.pc, s := s.cur.s, conf := s.cur.conf, dims := s.cur.dims, loops := s.cur.loops
      vfirst := s.cur.user.vfirst, chk := s.cur.mat.chk, instret := s.cur.prog.instret, last := s.cur.prog.last
      pops := [], late := 0 }) ∧
    t = { s with cur := { s.cur.past with
      viq := l ++ [e.onHeld (fun h => { h with stamp := s.fresh, undo := u })] } }

/-- A word that changes nothing but the thread's progress. -/
def Passed (s t : State) : Prop := t = { s with cur := s.cur.past }

/-- A word that transfers control to target: loops whose body does not hold target end, where loops act (R94); nothing else
changes but the scalar registers, of which the caller speaks. -/
structure Jumped (target : Word) (s t : State) : Prop where
  pc : t.cur.pc = target
  loops : t.cur.loops = if s.cur.loopsOn then loopLeave s.cur.loops target else s.cur.loops
  rest : t = { s with cur := { s.cur with
    s := t.cur.s, pc := t.cur.pc, loops := t.cur.loops
    prog := { s.cur.prog with
      instret := s.cur.prog.instret + 1#64, last := some s.cur.pc, reissue := false, wait := .none } } }

/-! ## Vector memory -/

/-- The state past the current word: its thread's progress alone. -/
def State.past (s : State) : State := { s with cur := s.cur.past }

/-- The causes and places of the bytes of an element (R186, R194). -/
def State.at (s : State) (load : Bool) (e : VElem) : Except Nat (List Nat) :=
  s.element s.cp (if load then .read else .write) e.al e.ea e.n

/-- The places of an element that does not fault. -/
def State.placesOf (s : State) (load : Bool) (e : VElem) : List Nat :=
  match s.at load e with
  | .ok pas => pas
  | .error _ => []

/-- Does an element fault? -/
def State.faults (s : State) (load : Bool) (e : VElem) : Bool :=
  match s.at load e with
  | .ok _ => false
  | .error _ => true

/-- The elements of an access that are performed: those that do not fault (R201), and of an ordered access those before the
first that does (R202). -/
def State.performed (s : State) (load ordered : Bool) (es : List VElem) : List VElem :=
  let bad := es.filter (s.faults load)
  es.filter (fun e => !s.faults load e && (!ordered || bad.head?.all (fun b => decide (e.i < b.i))))

/-- The state with elements moved between registers and memory, fmask and vfirst naming the elements that faulted, the lowest
first (R194, R200). -/
def State.moved (s : State) (load mv : Bool) (extra : List RegWrite) (es : List VElem) (bad : List Nat) : State :=
  let runs := es.flatMap (fun e => e.runs (s.placesOf load e))
  { s with
    mem := if load then s.mem else runs.foldl (storeRun s.cur.vr mv s.writer) s.mem
    cur := { s.cur with
      vr := if load then (s.cur.vr.applyAll (runWrites s.cur.vr mv s.mem.runBits runs)).applyAll extra else s.cur.vr
      conf := { s.cur.conf with fmask := elemMask bad }
      user := { s.cur.user with vfirst := BitVec.ofNat 64 (bad.headD 0) } } }

/-- Nothing holds these elements back: no engine owns a line of theirs, a port reaches every peer, and no byte to be loaded is
poisoned (R23, R504, R493). -/
def State.open (s : State) (load : Bool) (es : List VElem) : Prop :=
  ∀ e ∈ es, (∀ a ∈ s.placesOf load e, s.owned a = false ∧ s.cutOff a = false) ∧
    (load = true → s.poisoned (s.placesOf load e) = false)

/-- The access i of the elements es (R200 to R203): where none faults it completes; otherwise it performs what it may and traps
for the lowest that faults, to be reissued unless the cause is MACHINE_CHECK (R474). -/
def Accesses (i : Instr) (load mv ordered : Bool) (extra : List VElem → List RegWrite) (es : List VElem) (s : State) : Prop :=
  let bad := es.filter (s.faults load)
  let good := s.performed load ordered es
  let causes := es.filterMap (fun e =>
    match s.at load e with
    | .error c => some (e, c)
    | .ok _ => none)
  s.open load good →
    (bad = [] → Completes i s (fun t => t = (s.moved load mv (extra es) es []).past)) ∧
    (∀ e c r, causes = (e, c) :: r → Completes i s (fun t =>
      t = takeTrap (s.moved load mv (extra good) good (bad.map VElem.i))
        { cause := c, addr := e.ea, reissue := decide (c ≠ 0x30), elems := true
          batch := s.batch (if load then .read else .write) causes }))

/-! ## Words of the E-side -/

/-- The state after a word of the E-side that is a convoy of its own and retires, but for its effect: pc and loops as R93 gives
them, one word more retired, the thread has run (R145), no pops recorded at its level (R46), and one entry fewer before every
command of its (R410). -/
def State.ran (s : State) : State :=
  let t := s.cur
  { s with
    cmds := s.cmds.map (fun c => if c.thread = t.id then { c with ahead := c.ahead - 1 } else c)
    cur := { t with
      pc := t.advance.pc
      loops := t.advance.loops
      place := { t.place with ran := true }
      prog := { t.prog with
        instret := t.prog.instret + 1#64, last := some t.pc, reissue := false, wait := .none
        wpops := Table.set t.prog.wpops none t.level none } } }

/-- The members of the convoy at pc whose W pop is recorded (R46). -/
def Thread.recorded (t : Thread) : List Nat :=
  match Table.get t.prog.wpops none t.level with
  | some (pc, l) => if pc = t.pc then l else []
  | none => []

/-- The state that a trap of the convoy at pc is taken from: the pops of its members are recorded (R46). -/
def State.parted (s : State) (popped : List Nat) : State :=
  { s with cur := { s.cur with prog := { s.cur.prog with
    reissue := false, wait := .none
    wpops := Table.set s.cur.prog.wpops none s.cur.level (if popped = [] then none else some (s.cur.pc, popped)) } } }

/-- The word i of the E-side writes ws to the register files and joins flags to fflags (R127), and changes nothing else. -/
def Computes (i : Instr) (ws : List RegWrite) (fl : Nat) (s : State) : Prop :=
  Completes i s (fun t => t = { s.ran with cur := { s.ran.cur with
    vr := s.cur.vr.applyAll ws
    user := { s.cur.user with fflags := s.cur.user.fflags ||| BitVec.ofNat 64 fl } } })

/-- The word i of the E-side appends v to queue k, where it has room, and joins flags to fflags; while the queue is full the
word waits in the VIQ with nothing done (R99, R127). -/
def Pushes (i : Instr) (k : BitVec 5) (v : Word) (fl : Nat) (s : State) : Prop :=
  let q := s.cur.queue k.toNat
  (q.length < 16 → Completes i s (fun t => t = { s.ran with cur := { s.ran.cur with
    q := Table.set s.cur.q [] k.toNat (q ++ [v])
    user := { s.cur.user with fflags := s.cur.user.fflags ||| BitVec.ofNat 64 fl } } })) ∧
  (16 ≤ q.length → Completes i s (fun t =>
    t.cur.q = s.cur.q ∧ t.cur.vr = s.cur.vr ∧ t.cur.user = s.cur.user ∧ t.mem = s.mem ∧ t.cur.prog.instret = s.cur.prog.instret ∧
    t.cur.pc = s.cur.advance.pc ∧ t.cur.loops = s.cur.advance.loops ∧ t.cur.convoys = 1))

/-- The word i of the E-side raises a cause at its own address, with ESIDE (R36, R44). -/
def Raises (i : Instr) (cause : Nat) (s : State) : Prop :=
  Completes i s (fun t => t = takeTrap s { cause := cause, eside := true, epc := some s.cur.pc })

/-- What a word of the E-side brings to its convoy: C, the scalar values that it takes at dispatch, and whether its checks pass (R14,
R36, R40); none for what is no such word. -/
def State.esideWord (s : State) (i : Instr) : Option (BitVec 1 × Word × Word × Bool) :=
  match i with
  | .vadd c _ _ _ _ | .vsub c _ _ _ _ | .vmul c _ _ _ _ | .vmulh c _ _ _ _ | .vmin c _ _ _ _ | .vmax c _ _ _ _
  | .vminu c _ _ _ _ | .vmaxu c _ _ _ _ | .vand c _ _ _ _ | .vor c _ _ _ _ | .vxor c _ _ _ _ | .vsll c _ _ _ _
  | .vsrl c _ _ _ _ | .vsra c _ _ _ _ | .vmacc c _ _ _ _ | .vdiv c _ _ _ _ | .vaddsat c _ _ _ _ | .vsubsat c _ _ _ _
  | .vredsum c _ _ _ | .vredmin c _ _ _ | .vredmax c _ _ _ => some (c, 0#64, 0#64, vintLegal s.vt)
  | .vintsVadd c _ _ b _ | .vintsVsub c _ _ b _ | .vintsVmul c _ _ b _ | .vintsVmulh c _ _ b _ | .vintsVmin c _ _ b _
  | .vintsVmax c _ _ b _ | .vintsVminu c _ _ b _ | .vintsVmaxu c _ _ b _ | .vintsVand c _ _ b _ | .vintsVor c _ _ b _
  | .vintsVxor c _ _ b _ | .vintsVsll c _ _ b _ | .vintsVsrl c _ _ b _ | .vintsVsra c _ _ b _ | .vintsVmacc c _ _ b _
  | .vintsVdiv c _ _ b _ | .vintsVaddsat c _ _ b _ | .vintsVsubsat c _ _ b _ => some (c, 0#64, s.readS b, vintLegal s.vt)
  | .vfadd c _ _ _ _ | .vfsub c _ _ _ _ | .vfmul c _ _ _ _ | .vfdiv c _ _ _ _ | .vfsqrt c _ _ _ | .vfma c _ _ _ _
  | .vfms c _ _ _ _ | .vfmin c _ _ _ _ | .vfmax c _ _ _ _ | .vfabs c _ _ _ | .vfneg c _ _ _ | .vfredo c _ _ _
  | .vfredt c _ _ _ | .vfredmin c _ _ _ | .vfredmax c _ _ _ => some (c, 0#64, 0#64, vfpLegal s.vt)
  | .vfpsVfadd c _ _ b _ | .vfpsVfsub c _ _ b _ | .vfpsVfmul c _ _ b _ | .vfpsVfdiv c _ _ b _ | .vfpsVfma c _ _ b _
  | .vfpsVfms c _ _ b _ | .vfpsVfmin c _ _ b _ | .vfpsVfmax c _ _ b _ => some (c, 0#64, s.readS b, vfpLegal s.vt)
  | .vcmpEq c _ _ _ _ k | .vcmpNe c _ _ _ _ k | .vcmpLt c _ _ _ _ k | .vcmpGe c _ _ _ _ k | .vcmpLe c _ _ _ _ k
  | .vcmpGt c _ _ _ _ k => some (c, 0#64, 0#64, vcmpLegal s.vt k)
  | .vcmpUn c _ _ _ _ => some (c, 0#64, 0#64, vcmpLegal s.vt 2#2)
  | .pand c _ _ _ _ | .por c _ _ _ _ | .pxor c _ _ _ _ | .pandn c _ _ _ _ | .pnot c _ _ _ | .plead c _ _ _
  | .pthru c _ _ _ | .ppre c _ _ _ | .pcnt c _ _ _ | .pany c _ _ _ | .pset c _ _ | .pclr c _ _ | .pgetf c _ _
  | .vslupi c _ _ _ _ | .vsldni c _ _ _ _ | .vperm c _ _ _ _ | .vcomp c _ _ _ | .vexpd c _ _ _ | .vmerge c _ _ _ _
  | .viota c _ _ _ | .vid c _ _ | .mgp c _ _ _ _ _ | .mwdg c _ _ _ _ _ | .mdot c _ _ _ _ _ | .mlct c _ _ _ _ _
  | .mjoin c _ _ _ _ _ | .msand c _ _ _ _ _ | .mcomm c _ _ _ _ _ | .mrev c _ _ _ _ | .mdual c _ _ _ _
  | .mgrd c _ _ _ _ _ | .mnrm2 c _ _ _ _ | .mnrmi c _ _ _ _ | .mnormz c _ _ _ _ | .mexpb c _ _ _ _ | .mlogm c _ _ _ _
  | .mmov c _ _ _ _ | .msetm c _ _ | .mgetm c _ _ | .mclean c _ _ | .mfromv c _ _ _ _ _ | .mtov c _ _ _ _
  | .madd c _ _ _ _ _ | .msub c _ _ _ _ _ | .mconj c _ _ _ _ | .minvol c _ _ _ _ | .mchk c _ _ _ _ | .vtok c _ _ =>
    some (c, 0#64, 0#64, true)
  | .vslup c _ _ b _ | .vsldn c _ _ b _ | .vextr c _ _ b | .mscal c _ _ b _ _ => some (c, 0#64, s.readS b, true)
  | .vbcast c _ a _ => some (c, s.readS a, 0#64, true)
  | .vins c _ a b => some (c, s.readS a, s.readS b, true)
  | .vcmul c _ _ _ _ | .vcmac c _ _ _ _ | .vcmulc c _ _ _ _ | .vcabs2 c _ _ _ => some (c, 0#64, 0#64, vcpxLegal s.vt)
  | .vcvt c d a e _ f => some (c, 0#64, 0#64, vcvtLegal s.vt d a e f)
  | .vscale c d a _ _ => some (c, 0#64, 0#64, vscaleLegal s.vt d a)
  | .vqmax c d a _ => some (c, 0#64, 0#64, vqmaxLegal s.vt d a)
  | .mxac c d _ _ _ _ _ => some (c, 0#64, 0#64, mxacLegal false s.vt s.cur.conf.grant s.cur.conf.tgrant d)
  | .mxacs c d _ _ _ _ _ => some (c, 0#64, 0#64, mxacLegal true s.vt s.cur.conf.grant s.cur.conf.tgrant d)
  | .mzero c d _ _ => some (c, 0#64, 0#64, tileOk s.vt d)
  | .acld c d a _ _ | .acst c d a _ _ => some (c, 0#64, 0#64, moveLegal s.vt s.cur.conf.grant s.cur.conf.tgrant d a)
  | _ => none

/-- The active elements of a word under predicate g (R4). -/
def State.activeIn (s : State) (g : BitVec 5) (n : Nat) : List Nat :=
  (List.range n).filter (fun i => (s.cur.vr.preg g.toNat).getLsbD i)

/-! ## Contexts -/

/-- A thread whose ring-0 state an image can hold: its E-side has no work, its tables have their canonical form, the save tags
tell which registers are in use and up to which byte, the components of a multivector register outside its tag are +0, and every
number fits its field. acc holds the accumulator words of the tiles that it has written, in its rows (R322, R391, R488). -/
def Thread.saveable (t : Thread) (acc : Table (BitVec 32)) : Prop :=
  let high := fun (k : Nat) => 8 * (Table.get t.vr.tags SaveTag.zero k).high
  t.viq = [] ∧ Table.wf t.s 0#64 = true ∧ (∀ e ∈ t.s, e.1 < 32) ∧
  Table.wf t.conf.counters 0 = true ∧ (∀ e ∈ t.conf.counters, e.1 < 8 ∧ e.2 < 2 ^ 64) ∧
  t.conf.grant < 256 ∧ t.conf.tgrant < 256 ∧ t.conf.vl < 2 ^ 64 ∧ t.id.rank < 2 ^ 32 ∧
  t.tok.lsvx < 2 ^ 64 ∧ t.tok.vxls < 2 ^ 64 ∧ t.tok.lsmx < 2 ^ 64 ∧ t.tok.mxls < 2 ^ 64 ∧ (∀ n ∈ t.mat.tiles, n < 2 ^ 64) ∧
  Table.wf t.vr.tags SaveTag.zero = true ∧ (∀ e ∈ t.vr.tags, e.1 < 96 ∧ e.2.high < 2 ^ 32) ∧
  (∀ n < 32, (t.vr.vreg n).toNat < 2 ^ high n ∧ (t.vr.mreg n).bits.toNat < 2 ^ high (32 + n) ∧
    (n ≠ 0 → (t.vr.preg n).toNat < 2 ^ high (64 + n)) ∧
    (Table.get t.vr.tags SaveTag.zero (32 + n) = SaveTag.zero → t.vr.mreg n = MvReg.zero) ∧
    ∀ i c, i < 64 → c < 16 → (t.vr.mreg n).tag.getLsbD (gradeOf c) = false → (t.vr.mreg n).comp i c = 0) ∧
  Table.wf acc 0#32 = true ∧ ∀ e ∈ acc, e.1 < 1024 * t.conf.tgrant ∧ e.1 % 1024 / 32 ∈ t.mat.tiles

/-! ## Status registers -/

/-- The status registers that SRR reads, as numbers and values (R53, R141, R470). -/
def State.statusTable (s : State) : List (Nat × Word) :=
  let t := s.cur
  let c := s.core t.place.core
  let q := s.quad (t.place.core / 4)
  let p := s.part t.id.part
  let nat := BitVec.ofNat 64
  let lat := fun (k : Nat) =>
    let l := c.latOf k
    let b := fun (x : Bool) => if x then 1 else 0
    nat (l.weight + 16 * b l.pm + 256 * (List.range 8).countP (fun g => l.map.getLsbD g) + 4096 * l.share +
      65536 * l.map.toNat + 2 ^ 24 * b l.wait)
  let ring := fun (k : Nat) (r : RingRegs) (h a : Word) =>
    [(256 * k, r.status), (256 * k + 1, r.handler), (256 * k + 2, r.epc), (256 * k + 3, r.cause),
     (256 * k + 4, r.record), (256 * k + 5, r.scratch), (256 * k + 6, h), (256 * k + 7, a)]
  [(0x000, t.user.ustatus), (0x001, t.user.uhandler), (0x002, t.user.uepc), (0x003, t.user.ucause),
   (0x004, t.user.fflags), (0x010, nat t.conf.vl), (0x011, t.conf.vtype.setWidth 64), (0x012, nat t.conf.grant),
   (0x013, t.user.vfirst), (0x014, t.loops.lc0), (0x015, t.loops.lb0), (0x016, t.loops.le0), (0x017, t.loops.lc1),
   (0x018, t.loops.lb1), (0x019, t.loops.le1), (0x01A, t.dims.dl0), (0x01B, t.dims.dl1), (0x01C, t.dims.dl2),
   (0x01D, t.dims.ds0), (0x01E, t.dims.ds1), (0x01F, t.dims.ds2), (0x020, t.dims.dx0), (0x021, t.dims.dx1),
   (0x022, t.dims.dx2), (0x028, nat t.conf.tgrant), (0x029, 64#64), (0x02A, 32#64), (0x02B, 256#64),
   (0x030, t.user.stst), (0x040, s.cycle), (0x041, t.prog.instret)] ++
  ring 1 t.rings.d p.regs2.ddefh p.regs2.ddefr ++ ring 2 t.rings.h p.regs2.hdefh p.regs2.hdefr ++
  ring 3 t.rings.m p.regs2.mdefh p.regs2.mdefr ++
  [(0x110, lat 0), (0x111, lat 1), (0x112, lat 2), (0x113, lat 3), (0x114, nat c.ceil), (0x115, p.regs.reclaim),
   (0x116, nat (q.rowcap + 256 * q.pace)), (0x118, p.regs.vwbase), (0x119, p.regs.gzimage), (0x11A, p.regs.ptroot),
   (0x120, p.regs.nqbase), (0x121, p.regs.nqcap), (0x122, p.regs.nqhead), (0x123, p.regs.nqtail),
   (0x124, p.regs.ctxbase), (0x125, p.regs.ctxcount), (0x126, p.regs.stkbase), (0x127, p.regs.stkslot),
   (0x128, p.regs.stkcount), (0x210, nat p.regs2.gzfirst), (0x211, nat p.regs2.gzcount), (0x212, p.regs2.logbase),
   (0x213, p.regs2.logcap), (0x214, p.regs2.loghead), (0x215, p.regs2.logtail)]

/-! ## Numbers -/

/-- The width of an INT word's operands (R68). -/
def opBits (w : BitVec 1) : Nat := if w = 0#1 then 64 else 32

/-- The low n bits of a register as a signed number. -/
def sval (n : Nat) (x : Word) : Int := (x.toNat : Int).bmod (2 ^ n)

/-- The low n bits of a register as an unsigned number. -/
def uval (n : Nat) (x : Word) : Nat := x.toNat % 2 ^ n

/-- The register word that an n-bit result r fills, sign-extended from its n bits (R68). -/
def res (n : Nat) (r : Int) : Word := BitVec.ofInt 64 (r.bmod (2 ^ n))

/-- The number that little-endian bytes hold (R1). -/
def leNum (bs : List Byte) : Nat := (bs.zipIdx.map (fun e => e.1.toNat * 256 ^ e.2)).sum

/-- n little-endian bytes of x (R1). -/
def leBytes (n x : Nat) : List Byte := (List.range n).map (fun k => BitVec.ofNat 8 (x / 256 ^ k))

/-- The number that a finite value stands for. -/
def FV.rat (x : FV) : Option Rat :=
  match x with
  | .fin neg n d e => some ((if neg then -1 else 1) * ((n : Rat) / d) * (2 : Rat) ^ e)
  | _ => none

/-- r is the real number x, which is not 0, rounded once to format f in a mode (R121 to R123). Where x does not overflow, r is a
number of the format with the sign of x: the nearest under RNE, an even encoding where two are equally near; the largest not above
|x| in magnitude under RTZ; the largest not above x under RDN; the smallest not below x under RUP. NX tells that it differs from x,
and UF that it differs and |x| lies below the smallest normal number. x overflows where |x| rounded with the spacing u of the
largest number, and no upper limit, is above that number: OF and NX, with the largest number or the infinity (NaN where the format
has no infinity) as R123 and SAT choose. -/
def Rounded (f : Fmt) (rm : Nat) (sat : Bool) (x : ℝ) (r : Fl Nat) : Prop :=
  let top := (f.value f.maxEnc).real
  let u := top - (f.value (f.maxEnc - 1)).real
  let y := (f.value r.val).real
  let up := (rm = 2 ∧ x < 0) ∨ (rm = 3 ∧ 0 < x)
  let big := top < |x| ∧ (up ∨ top + u ≤ |x| ∨
    (rm = 0 ∧ (top + u / 2 < |x| ∨ (|x| = top + u / 2 ∧ f.maxEnc % 2 = 1))))
  let toTop := sat = true ∨ f = e3m2 ∨ f = e2m1 ∨ rm = 1 ∨ (rm = 2 ∧ 0 < x) ∨ (rm = 3 ∧ x < 0)
  (big → r.fl = fOF ||| fNX ∧ ∀ neg : Bool, (neg = true ↔ x < 0) →
    (toTop → r.val = f.signed neg f.maxEnc) ∧
    (¬ toTop → r.val = if f.hasInf then f.signed neg f.infEnc else f.nan)) ∧
  (¬ big → (f.value r.val).notFinite = false ∧ ((f.value r.val).neg = true ↔ x < 0) ∧
    (y = x → r.fl = 0) ∧ (y ≠ x → (2 : ℝ) ^ (1 - (f.bias : Int)) ≤ |x| → r.fl = fNX) ∧
    (y ≠ x → |x| < (2 : ℝ) ^ (1 - (f.bias : Int)) → r.fl = fNX ||| fUF) ∧
    (rm = 1 → |y| ≤ |x|) ∧ (rm = 2 → y ≤ x) ∧ (rm = 3 → x ≤ y) ∧
    ∀ k : Nat, (f.value k).notFinite = false →
      let z := (f.value k).real
      (rm = 0 → |x - y| ≤ |x - z| ∧ (|x - y| = |x - z| → z ≠ y → r.val % 2 = 0)) ∧
      (rm = 1 → |z| ≤ |x| → |z| ≤ |y|) ∧ (rm = 2 → z ≤ x → z ≤ y) ∧ (rm = 3 → x ≤ z → y ≤ z))

/-- i is the real number v rounded to an integer in a mode (R83, R121). -/
def RoundsInt (rm : Nat) (v : ℝ) (i : Int) : Prop :=
  (rm = 0 → |v - i| ≤ 1 / 2 ∧ (|v - i| = 1 / 2 → i % 2 = 0)) ∧
  (rm = 1 → (0 ≤ v → i = ⌊v⌋) ∧ (v < 0 → i = ⌈v⌉)) ∧ (rm = 2 → i = ⌊v⌋) ∧ (rm = 3 → i = ⌈v⌉)

/-- r is the real number v as an integer of w bits, signed where sgn holds: rounded, and saturated with NV where it does not fit
(R83). -/
def IsInt (sgn : Bool) (w rm : Nat) (v : ℝ) (r : Fl Int) : Prop :=
  let lo : Int := if sgn then -2 ^ (w - 1) else 0
  let hi : Int := if sgn then 2 ^ (w - 1) - 1 else 2 ^ w - 1
  ∃ i : Int, RoundsInt rm v i ∧ (i < lo → r = ⟨lo, fNV⟩) ∧ (hi < i → r = ⟨hi, fNV⟩) ∧
    (lo ≤ i → i ≤ hi → r.val = i ∧ ((i : ℝ) = v → r.fl = 0) ∧ ((i : ℝ) ≠ v → r.fl = fNX))

/-- A finite value with a denominator, as every operand and result is. -/
def FV.proper (x : FV) : Prop :=
  match x with
  | .fin _ _ d _ => d ≠ 0
  | _ => False

end Sys2Proof.Machine
end

