-- ==== Sys2Proof/Certificates/Slice0/Obligations.lean ====
section
/-!
DEFINITION. The statements for the provers: what each instruction and event of the spec does, the machine's invariants, and
that encoding and decoding agree. Each docstring cites the rules of spec/ that it formalises.
-/

open Sys2Proof Sys2Proof.Machine

/-! ## The words -/

/-- Words that 02, 03, 05, 10, 12 and 13 print with their fields decode to the instructions they stand for: ten of the A-side,
and eight of the E-side, one of them with C = 1. -/
def Obligations.DecodeSpecWords : Prop :=
  decode 0x02308800#32 = .ok (.add 3 1 2 0) ∧ decode 0x0230884B#32 = .ok (.div 3 1 2 1) ∧
  decode 0x054A0058#32 = .ok (.addi 20 20 0x58) ∧ decode 0x09780000#32 = .ok (.hi 23 0x80000) ∧
  decode 0x0C457008#32 = .ok (.ldk 4 10 8) ∧ decode 0x0FDF3008#32 = .ok (.sd 29 30 8) ∧
  decode 0x1A3089C3#32 = .ok (.fdiv 3 1 2 1 3) ∧ decode 0x117AB003#32 = .ok (.bge 23 21 3) ∧
  decode 0x160B1004#32 = .ok (.loop1 22 4) ∧ decode 0x18510002#32 = .ok (.qdrain 5 2) ∧
  decode 0xD4408802#32 = .ok (.vfmul 1 4 1 2 0) ∧ decode 0x56115405#32 = .ok (.vfpsVfma 0 1 2 21 0) ∧
  decode 0x5830880A#32 = .ok (.vcmpLt 0 3 1 2 0 1) ∧ decode 0x5C408867#32 = .ok (.vmerge 0 4 1 2 3) ∧
  decode 0x6850887E#32 = .ok (.madd 0 5 1 2 3 3) ∧ decode 0x66610076#32 = .ok (.mexpb 0 6 2 3 2) ∧
  decode 0x6C2414A0#32 = .ok (.mxac 0 2 8 5 1 0 1) ∧ decode 0x6E000003#32 = .ok (.vtok 0 1 1)

/-- R32 to R42: the decoder reads every instruction back from the word that its fields make. -/
def Obligations.DecodeInvertsEncode : Prop :=
  ∀ i : Instr, i.hasWord = true → i.wellFormed = true → decode (encode i) = .ok i

/-- R32 to R42: a word has one meaning. What the decoder reads from a word is a well-formed instruction that encodes as that
word and as no other, so that reserved bits are refused. -/
def Obligations.EncodeInvertsDecode : Prop :=
  ∀ (w : BitVec 32) (i : Instr), decode w = .ok i → i.hasWord = true ∧ i.wellFormed = true ∧ encode i = w

/-! ## Integer words -/

/-- R68: ADD, SUB, MUL, MULH and MULHU on 64 bits, or on the low 32 with the result sign-extended.

R68, R69: DIV, DIVU, REM and REMU never trap; a divisor of zero gives a quotient of all ones and the dividend as
remainder, and the one signed quotient that does not fit wraps to the most negative value with remainder 0. -/
def Obligations.IntegerArithmetic : Prop :=
  (∀ (s : State) (d a b : BitVec 5) (w : BitVec 1), s.unframed →
     let n := opBits w
     let x := sval n (s.readS a)
     let y := sval n (s.readS b)
     let u : Int := uval n (s.readS a)
     let v : Int := uval n (s.readS b)
     Completes (.add d a b w) s (Wrote d (res n (x + y)) s) ∧
     Completes (.sub d a b w) s (Wrote d (res n (x - y)) s) ∧
     Completes (.mul d a b w) s (Wrote d (res n (x * y)) s) ∧
     Completes (.mulh d a b w) s (Wrote d (res n (x * y / 2 ^ n)) s) ∧
     Completes (.mulhu d a b w) s (Wrote d (res n (u * v / 2 ^ n)) s)) ∧
  (∀ (s : State) (d a b : BitVec 5) (w : BitVec 1), s.unframed →
     let n := opBits w
     let x := sval n (s.readS a)
     let y := sval n (s.readS b)
     let u : Int := uval n (s.readS a)
     let v : Int := uval n (s.readS b)
     Completes (.div d a b w) s (Wrote d (if y = 0 then BitVec.allOnes 64 else
       if x = -2 ^ (n - 1) ∧ y = -1 then res n x else res n (x.tdiv y)) s) ∧
     Completes (.divu d a b w) s (Wrote d (if v = 0 then BitVec.allOnes 64 else res n (u / v)) s) ∧
     Completes (.rem d a b w) s (Wrote d (if y = 0 then res n x else
       if x = -2 ^ (n - 1) ∧ y = -1 then 0#64 else res n (x.tmod y)) s) ∧
     Completes (.remu d a b w) s (Wrote d (if v = 0 then res n u else res n (u % v)) s))

/-- R68: the logical words and the shifts, whose amount is B modulo the width.

R68, R71: minimum, maximum, comparison, leading zeros and one bits. -/
def Obligations.IntegerLogic : Prop :=
  (∀ (s : State) (d a b : BitVec 5) (w : BitVec 1), s.unframed →
     let n := opBits w
     let x := s.readS a
     let y := s.readS b
     let k := y.toNat % n
     Completes (.and d a b w) s (Wrote d (res n (x &&& y).toNat) s) ∧
     Completes (.or d a b w) s (Wrote d (res n (x ||| y).toNat) s) ∧
     Completes (.xor d a b w) s (Wrote d (res n (x ^^^ y).toNat) s) ∧
     Completes (.sll d a b w) s (Wrote d (res n (uval n x * 2 ^ k : Nat)) s) ∧
     Completes (.srl d a b w) s (Wrote d (res n (uval n x / 2 ^ k : Nat)) s) ∧
     Completes (.sra d a b w) s (Wrote d (res n (sval n x / 2 ^ k)) s)) ∧
  (∀ (s : State) (d a b : BitVec 5) (w : BitVec 1), s.unframed →
     let n := opBits w
     let x := sval n (s.readS a)
     let y := sval n (s.readS b)
     let u := uval n (s.readS a)
     let v := uval n (s.readS b)
     Completes (.min d a b w) s (Wrote d (res n (min x y)) s) ∧
     Completes (.max d a b w) s (Wrote d (res n (max x y)) s) ∧
     Completes (.minu d a b w) s (Wrote d (res n (min u v : Nat)) s) ∧
     Completes (.maxu d a b w) s (Wrote d (res n (max u v : Nat)) s) ∧
     Completes (.slt d a b w) s (Wrote d (if x < y then 1#64 else 0#64) s) ∧
     Completes (.sltu d a b w) s (Wrote d (if u < v then 1#64 else 0#64) s) ∧
     Completes (.clz d a w) s (Wrote d (BitVec.ofNat 64 (n - u.size)) s) ∧
     Completes (.popc d a w) s (Wrote d (BitVec.ofNat 64 ((List.range n).countP (fun k => u.testBit k))) s))

/-- R70: ADDV and SUBV give the exact signed result where it fits, and otherwise raise ARITH_OVERFLOW with every register as
before.

R72 to R74: ADDI, the IMM words, HI and PCADD. -/
def Obligations.OverflowAndImmediates : Prop :=
  (∀ (s : State) (d a b : BitVec 5) (w : BitVec 1), s.idle →
     let n := opBits w
     let x := sval n (s.readS a)
     let y := sval n (s.readS b)
     let fits := fun (r : Int) => -2 ^ (n - 1) ≤ r ∧ r < 2 ^ (n - 1)
     let out := fun (i : Instr) (r : Int) =>
       (fits r → Completes i s (Wrote d (BitVec.ofInt 64 r) s)) ∧
       (¬ fits r → Completes i s (fun t => t = takeTrap s { cause := 0x08 } ∧ ∀ k, t.readS k = s.readS k))
     out (.addv d a b w) (x + y) ∧ out (.subv d a b w) (x - y)) ∧
  (∀ (s : State) (d a : BitVec 5) (i15 : BitVec 15) (i12 : BitVec 12) (i6 : BitVec 6) (i20 : BitVec 20), s.unframed →
     let x := s.readS a
     Completes (.addi d a i15) s (Wrote d (x + BitVec.ofInt 64 i15.toInt) s) ∧
     Completes (.andi d a i12) s (Wrote d (x &&& BitVec.ofInt 64 i12.toInt) s) ∧
     Completes (.ori d a i12) s (Wrote d (x ||| BitVec.ofInt 64 i12.toInt) s) ∧
     Completes (.xori d a i12) s (Wrote d (x ^^^ BitVec.ofInt 64 i12.toInt) s) ∧
     Completes (.slti d a i12) s (Wrote d (if x.toInt < i12.toInt then 1#64 else 0#64) s) ∧
     Completes (.sltiu d a i12) s (Wrote d (if x.toNat < (BitVec.ofInt 64 i12.toInt).toNat then 1#64 else 0#64) s) ∧
     Completes (.slli d a i6) s (Wrote d (BitVec.ofNat 64 (x.toNat * 2 ^ i6.toNat)) s) ∧
     Completes (.srli d a i6) s (Wrote d (BitVec.ofNat 64 (x.toNat / 2 ^ i6.toNat)) s) ∧
     Completes (.srai d a i6) s (Wrote d (BitVec.ofInt 64 (x.toInt / 2 ^ i6.toNat)) s) ∧
     Completes (.hi d i20) s (Wrote d (BitVec.ofInt 64 (i20.toInt * 4096)) s) ∧
     Completes (.pcadd d i20) s (Wrote d (s.cur.pc + BitVec.ofInt 64 (i20.toInt * 4096)) s))

/-! ## Control flow -/

/-- R86: a branch is taken exactly where its condition holds, and writes no register.

R87, R88: JAL and JALR write the link and jump; JALR to a target that is no multiple of 4 raises MISALIGNED with the
target as the address, and leaves sD and PC as they were. -/
def Obligations.BranchesAndJumps : Prop :=
  (∀ (s : State) (a b : BitVec 5) (o : BitVec 12), s.unframed →
     let x := s.readS a
     let y := s.readS b
     let out := fun (i : Instr) (c : Prop) =>
       (c → Completes i s (fun t => Jumped (s.cur.pc + BitVec.ofInt 64 (4 * o.toInt)) s t ∧ t.cur.s = s.cur.s)) ∧
       (¬ c → Completes i s (Passed s))
     out (.beq a b o) (x = y) ∧ out (.bne a b o) (x ≠ y) ∧ out (.blt a b o) (x.toInt < y.toInt) ∧
     out (.bge a b o) (y.toInt ≤ x.toInt) ∧ out (.bltu a b o) (x.toNat < y.toNat) ∧ out (.bgeu a b o) (y.toNat ≤ x.toNat)) ∧
  (∀ (s : State) (d a : BitVec 5) (i25 : BitVec 25) (i15 : BitVec 15),
     let link := s.cur.pc + 4#64
     let target := s.readS a + BitVec.ofInt 64 i15.toInt
     let linked := fun (r : BitVec 5) (t : State) =>
       t.readS r = (if r = 0#5 then 0#64 else link) ∧ ∀ k, k ≠ r → t.readS k = s.readS k
     (s.unframed →
       Completes (.jal i25) s (fun t => Jumped (s.cur.pc + BitVec.ofInt 64 (4 * i25.toInt)) s t ∧ linked 31#5 t) ∧
       (target.toNat % 4 = 0 → Completes (.jalr d a i15) s (fun t => Jumped target s t ∧ linked d t))) ∧
     (s.idle → target.toNat % 4 ≠ 0 →
       Completes (.jalr d a i15) s (fun t => t = takeTrap s { cause := 0x03, addr := target } ∧ ∀ k, t.readS k = s.readS k)))

/-- R90 to R92, R96: LOOPn and LOOPIn set up loop n, and a count of 0 skips the body; an offset that is not positive, or a
word at the end of an active loop, raises ILLEGAL.

R95, R96: LEXITn ends loop n and goes past its end word, ending the other loop where that target lies outside it (R94);
it raises ILLEGAL where loop n is inactive or the word ends an active loop.

R93: the next PC and the loop registers after a word that completes without transferring control, as an ADDI shows
them. Loop 1 is tested first; with LS = 1, or above ring 0 (R473), no loop acts. -/
def Obligations.HardwareLoops : Prop :=
  (∀ (s : State) (a l : BitVec 5) (i : BitVec 12), s.idle →
     let le := s.cur.pc + BitVec.ofInt 64 (4 * i.toInt)
     let lp := s.cur.loops
     let atEnd := (lp.lc0 ≠ 0#64 ∧ lp.le0 = s.cur.pc) ∨ (lp.lc1 ≠ 0#64 ∧ lp.le1 = s.cur.pc)
     let out := fun (j : Instr) (c : Word) (set : Loops) =>
       (0 < i.toInt → ¬ atEnd → Completes j s (fun t => t = { s with cur := { s.cur with
         pc := if c = 0#64 then le + 4#64 else s.cur.pc + 4#64
         loops := set
         prog := { s.cur.prog with instret := s.cur.prog.instret + 1#64, last := some s.cur.pc, reissue := false, wait := .none } } })) ∧
       (i.toInt ≤ 0 ∨ atEnd → Completes j s (fun t => t = takeTrap s { cause := 0x01 }))
     let set0 := fun (c : Word) => { lp with lc0 := c, lb0 := s.cur.pc + 4#64, le0 := le }
     let set1 := fun (c : Word) => { lp with lc1 := c, lb1 := s.cur.pc + 4#64, le1 := le }
     out (.loop0 a i) (s.readS a) (set0 (s.readS a)) ∧ out (.loop1 a i) (s.readS a) (set1 (s.readS a)) ∧
     out (.loopi0 l i) (BitVec.ofNat 64 l.toNat) (set0 (BitVec.ofNat 64 l.toNat)) ∧
     out (.loopi1 l i) (BitVec.ofNat 64 l.toNat) (set1 (BitVec.ofNat 64 l.toNat))) ∧
  (∀ s : State, s.idle →
     let lp := s.cur.loops
     let atEnd := (lp.lc0 ≠ 0#64 ∧ lp.le0 = s.cur.pc) ∨ (lp.lc1 ≠ 0#64 ∧ lp.le1 = s.cur.pc)
     let on := decide (s.cur.ring = 0#2) && !s.cur.user.ls
     let inside := fun (lb le x : Word) => decide (lb.toNat ≤ x.toNat) && decide (x.toNat ≤ le.toNat)
     let x0 := lp.le0 + 4#64
     let x1 := lp.le1 + 4#64
     let out := fun (i : Instr) (active : Prop) (target : Word) (after : Loops) =>
       (active → ¬ atEnd → Completes i s (fun t => t = { s with cur := { s.cur with
         pc := target
         loops := after
         prog := { s.cur.prog with instret := s.cur.prog.instret + 1#64, last := some s.cur.pc, reissue := false, wait := .none } } })) ∧
       (¬ active ∨ atEnd → Completes i s (fun t => t = takeTrap s { cause := 0x01 }))
     out .lexit0 (lp.lc0 ≠ 0#64) x0
       { lp with lc0 := 0#64, lc1 := if on && !inside lp.lb1 lp.le1 x0 then 0#64 else lp.lc1 } ∧
     out .lexit1 (lp.lc1 ≠ 0#64) x1
       { lp with lc1 := 0#64, lc0 := if on && !inside lp.lb0 lp.le0 x1 then 0#64 else lp.lc0 }) ∧
  (∀ (s : State) (d a : BitVec 5) (i : BitVec 15), s.unframed →
     let x := s.cur.pc
     let lp := s.cur.loops
     let on := s.cur.ring = 0#2 ∧ s.cur.user.ls = false
     let ends1 := lp.lc1 ≠ 0#64 ∧ lp.le1 = x
     let ends0 := lp.lc0 ≠ 0#64 ∧ lp.le0 = x
     Completes (.addi d a i) s (fun t =>
       (¬ on → t.cur.pc = x + 4#64 ∧ t.cur.loops = lp) ∧
       (on → ends1 → 1 < lp.lc1.toNat → t.cur.pc = lp.lb1 ∧ t.cur.loops = { lp with lc1 := lp.lc1 - 1#64 }) ∧
       (on → (ends1 → lp.lc1 = 1#64) → ends0 → 1 < lp.lc0.toNat →
         t.cur.pc = lp.lb0 ∧
         t.cur.loops = { lp with lc0 := lp.lc0 - 1#64, lc1 := if lp.le1 = x then 0#64 else lp.lc1 }) ∧
       (on → (ends1 → lp.lc1 = 1#64) → (ends0 → lp.lc0 = 1#64) →
         t.cur.pc = x + 4#64 ∧
         t.cur.loops = { lp with
           lc0 := if lp.le0 = x then 0#64 else lp.lc0, lc1 := if lp.le1 = x then 0#64 else lp.lc1 })))

/-- R101: QPOP takes the oldest entry of its queue, QCNT counts the entries, QDRAIN removes them all. A QPOP of an empty
queue raises QUEUE_UNDERFLOW where no producer is pending, and otherwise waits with nothing changed. A load that waits for sD
does not write it any more (log 31). -/
def Obligations.Queues : Prop :=
  ∀ (s : State) (d a : BitVec 5),
    let k := a.toNat
    let left := fun (v : Word) (l : List Word) (t : State) =>
      t.readS d = (if d = 0#5 then 0#64 else v) ∧ (∀ r, r ≠ d → t.readS r = s.readS r) ∧
      t.cur.queue k = l ∧ (∀ j, j ≠ k → t.cur.queue j = s.cur.queue j) ∧
      t = { s with cur := { s.cur.past with s := t.cur.s, q := t.cur.q, viq := (s.supersede d).cur.viq } }
    (s.unframed → Completes (.qcnt d a) s (left (BitVec.ofNat 64 (s.cur.queue k).length) (s.cur.queue k))) ∧
    (s.idle →
      (∀ v l, s.cur.queue k = v :: l → Completes (.qpop d a) s (left v l)) ∧
      (s.cur.queue k = [] → Completes (.qpop d a) s (fun t => t = takeTrap s { cause := 0x0A, queue := k })) ∧
      Completes (.qdrain d a) s (left (BitVec.ofNat 64 (s.cur.queue k).length) [])) ∧
    (s.unframed → s.cur.queue k = [] → s.cur.producing k = true →
      Completes (.qpop d a) s (fun t => t = s.waits (.qpop k)))

/-! ## Scalar floating point -/

/-- R79 to R85: the FPS words. Each reads its operands in the format of P, computes the exact value, rounds it once, and
writes sD; the flags join fflags, and nothing traps. FCLASS of a signalling NaN sets NV too (R81). -/
def Obligations.ScalarFloatingPoint : Prop :=
  ∀ (s : State) (d a b : BitVec 5) (p r : BitVec 2), s.free →
    let f := if p = 1#2 then fp64 else fp32
    let g := if p = 1#2 then fp32 else fp64
    let enc := fun (k : BitVec 5) => (s.readS k).toNat % 2 ^ f.width
    let x := f.value (enc a)
    let y := f.value (enc b)
    let z := f.value (enc d)
    let rm := r.toNat
    let low := g.value ((s.readS a).toNat % 2 ^ g.width)
    let nan := x.isNan || y.isNan
    let sig := x.isSig || y.isSig
    let cmp := fun (c loud : Bool) => Fl.mk (if !nan && c then 1 else 0) (if sig || (loud && nan) then fNV else 0)
    let toI := fun (sgn : Bool) (w : Nat) => toInt sgn w rm x
    let i64 := FV.ofInt (s.readS a).toInt
    let u64 := FV.ofInt (s.readS a).toNat
    let i32 := FV.ofInt (sval 32 (s.readS a))
    let u32 := FV.ofInt (uval 32 (s.readS a))
    let out := fun (i : Instr) (v : Fl Nat) =>
      i.wellFormed = true → Completes i s (WroteFl d (BitVec.ofNat 64 v.val) v.fl s)
    let outInt := fun (i : Instr) (v : Fl Int) =>
      i.wellFormed = true → Completes i s (WroteFl d (BitVec.ofInt 64 v.val) v.fl s)
    out (.fadd d a b p r) (roundFl f rm (sumTerms rm [x, y])) ∧
    out (.fsub d a b p r) (roundFl f rm (sumTerms rm [x, y.negate])) ∧
    out (.fmul d a b p r) (roundFl f rm (x.mul y)) ∧
    out (.fdiv d a b p r) (roundFl f rm (x.div y)) ∧
    out (.fsqrt d a p r) (sqrtOnce f rm x) ∧
    out (.fma d a b p r) (roundFl f rm (sumFl rm [x.mul y, ⟨z, 0⟩])) ∧
    out (.fmin d a b p) (fminmax f false (enc a) (enc b)) ∧
    out (.fmax d a b p) (fminmax f true (enc a) (enc b)) ∧
    out (.feq d a b p) (cmp (FV.eq x y) false) ∧
    out (.flt d a b p) (cmp (FV.lt x y) true) ∧
    out (.fle d a b p) (cmp (FV.lt x y || FV.eq x y) true) ∧
    out (.fcvtff d a p r)
      ⟨(roundOnce f rm false low).val, (roundOnce f rm false low).fl ||| (if low.isSig then fNV else 0)⟩ ∧
    out (.fclass d a p) ⟨classMask f (enc a), if x.isSig then fNV else 0⟩ ∧
    outInt (.fcvtfi d a 0#5 p r) (toI true 64) ∧ outInt (.fcvtfi d a 1#5 p r) (toI false 64) ∧
    outInt (.fcvtfi d a 2#5 p r) (toI true 32) ∧ outInt (.fcvtfi d a 3#5 p r) (toI false 32) ∧
    out (.fcvtif d a 0#5 p r) (roundOnce f rm false i64) ∧ out (.fcvtif d a 1#5 p r) (roundOnce f rm false u64) ∧
    out (.fcvtif d a 2#5 p r) (roundOnce f rm false i32) ∧ out (.fcvtif d a 3#5 p r) (roundOnce f rm false u32)

/-- R121 to R123: round_once of a number that is not 0 is that number rounded once, in each of the eight formats: the nearest
number of the format, or the next in the direction of the mode; up to the largest number, between it and where overflow begins,
and beyond; with the flags, and with or without SAT. -/
def Obligations.RoundOnce : Prop :=
  ∀ f ∈ [fp64, fp32, fp16, bf16, e4m3, e5m2, e3m2, e2m1], ∀ (rm : Nat) (sat neg : Bool) (num den : Nat) (e : Int),
    rm < 4 → num ≠ 0 → den ≠ 0 →
    Rounded f rm sat (FV.fin neg num den e).real (roundOnce f rm sat (.fin neg num den e))

/-- R80, R124, R125: the exact sum, product, quotient and order of finite values are those of the numbers; a sum that comes to
0 has the sign that its terms share as zeros, and otherwise is −0 under RDN and +0 under every other mode. The same of the sum and
the product of any number of values. A NaN among them, or infinities of both signs in a sum, or a zero and an infinity in a product,
give a NaN; NV is set by a signalling NaN and by such infinities and zeros, whatever the order and whatever quiet NaN stands
beside them (log 30). -/
def Obligations.ExactArithmetic : Prop :=
  (∀ (x y : FV) (a b : Rat) (rm : Nat), x.proper → y.proper → x.rat = some a → y.rat = some b →
    (x.add y).val.rat = some (a + b) ∧ (x.mul y).val.rat = some (a * b) ∧ (x.mul y).val.neg = (x.neg != y.neg) ∧
    (b ≠ 0 → (x.div y).val.rat = some (a / b) ∧ (x.div y).fl = 0) ∧
    (b = 0 → a ≠ 0 → x.div y = ⟨.inf (x.neg != y.neg), fDZ⟩) ∧ (b = 0 → a = 0 → x.div y = ⟨.nan false, fNV⟩) ∧
    (FV.lt x y = true ↔ a < b) ∧ (FV.eq x y = true ↔ a = b) ∧ x.negate.rat = some (-a) ∧
    (sumTerms rm [x, y]).val.rat = some (a + b) ∧ (sumTerms rm [x, y]).fl = 0 ∧
    (a + b ≠ 0 → (sumTerms rm [x, y]).val.neg = decide (a + b < 0)) ∧
    (a + b = 0 → (sumTerms rm [x, y]).val.neg =
      if a = 0 ∧ b = 0 ∧ x.neg = y.neg then x.neg else decide (rm = 2))) ∧
  (∀ (l : List (FV × Rat)) (rm : Nat), (∀ e ∈ l, e.1.proper ∧ e.1.rat = some e.2) →
    let xs := l.map (fun e => e.1)
    let q := (l.map (fun e => e.2)).sum
    let s := sumTerms rm xs
    let p := prodTerms xs
    s.fl = 0 ∧ s.val.rat = some q ∧ (q ≠ 0 → s.val.neg = decide (q < 0)) ∧
    (q = 0 → s.val.neg = decide (xs ≠ [] ∧ ((∀ x ∈ xs, x.isZero = true ∧ x.neg = true) ∨
      (rm = 2 ∧ ¬ ∀ x ∈ xs, x.isZero = true ∧ x.neg = false)))) ∧
    p.fl = 0 ∧ p.val.rat = some (l.map (fun e => e.2)).prod ∧ p.val.neg = decide (xs.countP FV.neg % 2 = 1)) ∧
  ∀ (l : List FV) (rm : Nat),
    let nan := ∃ x ∈ l, x.isNan = true
    let sig := ∃ x ∈ l, x.isSig = true
    let inf := ∃ neg, FV.inf neg ∈ l
    let both := FV.inf true ∈ l ∧ FV.inf false ∈ l
    let off := inf ∧ ∃ x ∈ l, x.isZero = true
    (sig ∨ both → sumTerms rm l = ⟨.nan false, fNV⟩) ∧ (nan → ¬ sig → ¬ both → sumTerms rm l = ⟨.nan false, 0⟩) ∧
    (¬ nan → ¬ both → ∀ neg, FV.inf neg ∈ l → sumTerms rm l = ⟨.inf neg, 0⟩) ∧
    (sig ∨ off → prodTerms l = ⟨.nan false, fNV⟩) ∧ (nan → ¬ sig → ¬ off → prodTerms l = ⟨.nan false, 0⟩) ∧
    (inf → ¬ nan → ¬ off → prodTerms l = ⟨.inf (decide (l.countP FV.neg % 2 = 1)), 0⟩)

/-- R81 to R85, R135, R138, R139: what the other conversions come to. A square root is the real root rounded once. FMIN and FMAX
take the lesser or the greater of two numbers, −0 below +0, and of a number and a NaN the number. A conversion to an integer rounds
in the mode and saturates. FCLASS names one class. VCVT rounds a number once, or converts between integers by clamping or
wrapping; CF32 parts keep their bits but for NaNs. VQMAX rounds the greatest magnitude up to FP32. VSCALE divides by the target's
largest number, rounding up. -/
def Obligations.RootsAndConversions : Prop :=
  (∀ f ∈ [fp64, fp32, fp16, bf16], ∀ (rm num : Nat) (e : Int), rm < 4 → num ≠ 0 →
    Rounded f rm false (Real.sqrt (FV.fin false num 1 e).real) (sqrtOnce f rm (.fin false num 1 e)) ∧
    sqrtOnce f rm (.fin true num 1 e) = ⟨f.nan, fNV⟩ ∧
    (∀ neg : Bool, sqrtOnce f rm (.fin neg 0 1 e) = ⟨f.signed neg 0, 0⟩) ∧
    sqrtOnce f rm (.inf false) = ⟨f.infEnc, 0⟩ ∧ sqrtOnce f rm (.inf true) = ⟨f.nan, fNV⟩ ∧
    ∀ sig : Bool, sqrtOnce f rm (.nan sig) = ⟨f.nan, if sig then fNV else 0⟩) ∧
  (∀ f ∈ [fp64, fp32, fp16, bf16], ∀ (mx : Bool) (a b : Nat), a < 2 ^ f.width → b < 2 ^ f.width →
    let x := f.value a
    let y := f.value b
    let below := fun (u v : FV) => FV.lt u v = true ∨ (FV.eq u v = true ∧ u.neg = true ∧ v.neg = false)
    let r := fminmax f mx a b
    r.fl = (if x.isSig || y.isSig then fNV else 0) ∧
    (x.isNan = true → y.isNan = true → r.val = f.nan) ∧ (x.isNan = true → y.isNan = false → r.val = b) ∧
    (x.isNan = false → y.isNan = true → r.val = a) ∧
    (x.isNan = false → y.isNan = false → (r.val = a ∨ r.val = b) ∧
      ∀ k, k = a ∨ k = b → if mx then ¬ below (f.value r.val) (f.value k) else ¬ below (f.value k) (f.value r.val))) ∧
  (∀ (sgn neg : Bool) (w rm num den : Nat) (e : Int), 0 < w → rm < 4 → den ≠ 0 →
    IsInt sgn w rm (FV.fin neg num den e).real (toInt sgn w rm (.fin neg num den e))) ∧
  (∀ (sgn : Bool) (w rm : Nat), 0 < w →
    let lo : Int := if sgn then -2 ^ (w - 1) else 0
    let hi : Int := if sgn then 2 ^ (w - 1) - 1 else 2 ^ w - 1
    toInt sgn w rm (.inf true) = ⟨lo, fNV⟩ ∧ toInt sgn w rm (.inf false) = ⟨hi, fNV⟩ ∧
    ∀ sig : Bool, toInt sgn w rm (.nan sig) = ⟨hi, fNV⟩) ∧
  (∀ f ∈ [fp64, fp32], ∀ x : Nat,
    let v := (f.value x).real
    let normal := (2 : ℝ) ^ (1 - (f.bias : Int))
    let c := classMask f x
    (f.value x = .inf true → c = 2 ^ 0) ∧ (f.value x = .inf false → c = 2 ^ 7) ∧
    (f.value x = .nan true → c = 2 ^ 8) ∧ (f.value x = .nan false → c = 2 ^ 9) ∧
    ((f.value x).notFinite = false →
      (v ≤ -normal → c = 2 ^ 1) ∧ (-normal < v → v < 0 → c = 2 ^ 2) ∧ (v = 0 → c = if (f.value x).neg then 2 ^ 3 else 2 ^ 4) ∧
      (0 < v → v < normal → c = 2 ^ 5) ∧ (normal ≤ v → c = 2 ^ 6))) ∧
  (∀ (sf : Nat) (vt : BitVec 32) (neg : Bool) (num den : Nat) (e : Int) (fl : Nat), den ≠ 0 →
    let x := FV.fin neg num den e
    let df := vtFmt vt
    let w := vtSew vt
    let f := fmtOf df w
    let i : Int := if neg then -(num : Int) else num
    let lo : Int := if df = 0 then -2 ^ (w - 1) else 0
    let hi : Int := if df = 0 then 2 ^ (w - 1) - 1 else 2 ^ w - 1
    let r := convOne sf vt ⟨x, fl⟩
    (2 ≤ df → df ≤ 7 → num ≠ 0 → ∃ z, Rounded f (vtRm vt) (decide (2 ≤ sf ∧ sf ≤ 7) && vtSat vt) x.real z ∧
      r.val = z.val ∧ r.fl = z.fl ||| fl) ∧
    (2 ≤ df → df ≤ 7 → num = 0 → r.val = f.signed neg 0 ∧ r.fl = fl) ∧
    (df ≤ 1 → 2 ≤ sf → ∃ z, IsInt (decide (df = 0)) w (vtRm vt) x.real z ∧
      r.val = (z.val % 2 ^ w).toNat ∧ r.fl = z.fl ||| fl) ∧
    (df ≤ 1 → sf ≤ 1 → r.fl = 0 ∧
      r.val = ((if vtSat vt ∧ i < lo then lo else if vtSat vt ∧ hi < i then hi else i) % 2 ^ w).toNat)) ∧
  (∀ (sf : Nat) (vt : BitVec 32) (sig : Bool) (fl : Nat), 2 ≤ sf →
    let f := fmtOf (vtFmt vt) (vtSew vt)
    let nv := if sig then fNV else 0
    let r := convOne sf vt ⟨.nan sig, fl⟩
    (2 ≤ vtFmt vt → vtFmt vt ≤ 7 → r = if f.hasNan then ⟨f.nan, fl ||| nv⟩ else ⟨0, fNV ||| fl ||| nv⟩)) ∧
  (∀ (rm x : Nat), rm < 4 →
    let half := fun (k : Nat) => x / 2 ^ (32 * k) % 2 ^ 32
    let part := fun (k : Nat) => if (fp32.value (half k)).isNan then 0x7FC00000 else half k
    convCx rm x = ⟨part 0 + 2 ^ 32 * part 1,
      if (fp32.value (half 0)).isSig || (fp32.value (half 1)).isSig then fNV else 0⟩) ∧
  (∀ f ∈ [fp64, fp32, fp16, bf16], ∀ l : List Nat,
    let v := fun (k : Nat) => f.value k
    let nan := ∃ k ∈ l, (v k).isNan = true
    ((nan ∧ ∃ k ∈ l, (v k).isSig = true) → vqmaxOne f l = ⟨0x7FC00000, fNV⟩) ∧
    ((nan ∧ ∀ k ∈ l, (v k).isSig = false) → vqmaxOne f l = ⟨0x7FC00000, 0⟩) ∧
    (¬ nan → (∃ k ∈ l, (v k).notFinite = true) → vqmaxOne f l = ⟨0x7F800000, 0⟩) ∧
    ((∀ k ∈ l, (v k).isZero = true) → vqmaxOne f l = ⟨0, 0⟩) ∧
    ∀ k ∈ l, (∀ j ∈ l, (v j).notFinite = false ∧ |(v j).real| ≤ |(v k).real|) → (v k).real ≠ 0 →
      Rounded fp32 3 false |(v k).real| (vqmaxOne f l)) ∧
  (∀ (tgt x : Nat), 4 ≤ tgt → tgt ≤ 7 →
    let m := fp32.value x
    let top := ((fmtOf tgt 8).value (fmtOf tgt 8).maxEnc).real
    (m.notFinite = true → vscaleOne tgt x = ⟨0x7FC00000, fNV⟩) ∧ (m.isZero = true → vscaleOne tgt x = ⟨0x3F800000, 0⟩) ∧
    (m.notFinite = false → m.isZero = false → Rounded fp32 3 false (|m.real| / top) (vscaleOne tgt x)))

/-! ## Memory -/

/-- R75 to R78: the loads. Each reads its bytes, the lowest address least significant, at the places of sA + sext(I12), and writes
sD extended as the table says; where an earlier access holds it back, or an engine owns a line, it waits its turn and the thread
goes on (R111, R237, R374). LDK reads its bytes as they stood at one point not before any write that a PFENCE of the constant
path, on whatever core it ran, covers (log 7).

R75, R77: the stores write the low bytes of sD, the lowest address least significant, at the places of sA + sext(I12), and no
other byte; where an earlier access holds one back, it waits its turn with its bytes. -/
def Obligations.LoadsAndStores : Prop :=
  (∀ (s : State) (d a : BitVec 5) (i : BitVec 12),
     let ea := s.readS a + BitVec.ofInt 64 i.toInt
     let out := fun (j : Instr) (n : Nat) (sg : Bool) (ext : Nat → Word) =>
       ∀ pas, s.scalarPlace .read ea n = .ok pas →
         (s.quiet → s.reachable pas = .ok () → s.poisoned pas = false →
           Completes j s (Loaded d (ext (leNum (pas.map s.mem.byte))) s)) ∧
         (s.free → s.cur.accessPending 0 pas = true ∨ (∃ b ∈ pas, s.owned b = true) →
           Completes j s (Queued s.cur.viq (.scalar ⟨0, 0#8, ea, 0, none⟩ pas (.load d n sg)) s))
     let sx := fun (n : Nat) (v : Nat) => BitVec.ofInt 64 ((v : Int).bmod (2 ^ (8 * n)))
     let zx := fun (v : Nat) => BitVec.ofNat 64 v
     out (.lb d a i) 1 true (sx 1) ∧ out (.lh d a i) 2 true (sx 2) ∧ out (.lw d a i) 4 true (sx 4) ∧ out (.ld d a i) 8 false zx ∧
     out (.lbu d a i) 1 false zx ∧ out (.lhu d a i) 2 false zx ∧ out (.lwu d a i) 4 false zx ∧
     ∀ pas, s.scalarPlace .read ea 8 = .ok pas →
       (s.free → s.cur.accessPending 0 [] = false → s.reachable pas = .ok () → s.poisoned pas = false →
         Completes (.ldk d a i) s (fun t => ∃ k, k ≤ s.mem.logLen ∧
           (∀ (j : Nat) (w : OldByte) (c sc : Nat), s.mem.log[j]? = some w → w.pa ∈ pas → sc < 5 →
             w.who.covered sc s.cur.id c = true → s.mem.logLen - j ≤ Table.get s.cur.prog.fences 0 (32 * c + sc) →
             s.mem.logLen - j ≤ k) ∧
           Loaded d (BitVec.ofNat 64 (leNum (pas.map (s.mem.byteAt k)))) s t)) ∧
       (s.free → s.cur.accessPending 0 [] = true ∨ (∃ b ∈ pas, s.owned b = true) →
         Completes (.ldk d a i) s (Queued s.cur.viq (.scalar ⟨0, 0#8, ea, 0, none⟩ pas (.ldk d)) s))) ∧
  (∀ (s : State) (d a : BitVec 5) (i : BitVec 12),
     let ea := s.readS a + BitVec.ofInt 64 i.toInt
     let out := fun (j : Instr) (n : Nat) =>
       let bs := leBytes n (s.readS d).toNat
       ∀ pas, s.scalarPlace .write ea n = .ok pas →
         (s.quiet → s.reachable pas = .ok () → Completes j s (Stored pas bs 0#5 0#64 0 s)) ∧
         (s.free → s.cur.accessPending 0 pas = true ∨ (∃ b ∈ pas, s.owned b = true) →
           Completes j s (Queued s.cur.viq (.scalar ⟨0, 0#8, ea, 0, none⟩ pas (.store bs false)) s))
     out (.sb d a i) 1 ∧ out (.sh d a i) 2 ∧ out (.sw d a i) 4 ∧ out (.sd d a i) 8)

/-- R76, R485, R493: a scalar access that fails its checks traps, with the address in the record and no register written. A
misaligned address comes first, then the address bits above 51, then the checks of the window or, outside it, of the walk and its
permissions (Translation states them); a load of a poisoned byte raises MACHINE_CHECK. That the batch list of a RESIDENCY
fault names the access's own sub-block is the model's reading (log 20). -/
def Obligations.ScalarFaults : Prop :=
  ∀ (s : State) (d a : BitVec 5) (i : BitVec 12), s.idle →
    let ea := s.readS a + BitVec.ofInt 64 i.toInt
    let traps := fun (j : Instr) (x : Trap) => Completes j s (fun t => t = takeTrap s x ∧ ∀ k, t.readS k = s.readS k)
    let out := fun (j : Instr) (k : Acc) (n : Nat) =>
      (ea.toNat % n ≠ 0 → traps j { cause := 0x03, addr := ea }) ∧
      (ea.toNat % n = 0 → 2 ^ 52 ≤ ea.toNat → traps j { cause := 0x04, addr := ea }) ∧
      (∀ c, s.walkReady n n ea = .ok () → s.scalar s.cp (decide (s.cur.ring = 0#2)) k n ea n = .error c →
        traps j { cause := c, addr := ea, batch := if c = 0x05 then [ea.toNat / 2 ^ 21 * 2 ^ 21] else [] })
    let load := fun (j : Instr) (n : Nat) => out j .read n ∧
      ∀ pas, s.scalarPlace .read ea n = .ok pas → s.reachable pas = .ok () → s.poisoned pas = true →
        traps j { cause := 0x30, addr := ea }
    load (.lb d a i) 1 ∧ load (.lh d a i) 2 ∧ load (.lw d a i) 4 ∧ load (.ld d a i) 8 ∧ load (.lbu d a i) 1 ∧
    load (.lhu d a i) 2 ∧ load (.lwu d a i) 4 ∧ load (.ldk d a i) 8 ∧
    out (.sb d a i) .write 1 ∧ out (.sh d a i) .write 2 ∧ out (.sw d a i) .write 4 ∧ out (.sd d a i) .write 8

/-- R185, R186: an element of a vector access faults for the first cause that applies to one of its bytes, in the order
MISALIGNED, WINDOW, PROTECTION, RESIDENCY, and after these, as the model reads it (log 18), MACHINE_CHECK for the reserved
target and PARTITION_VIOLATION. Where none applies, each byte's place is the base of its entry, in the tier that the map names, and
the low 28 bits of its address; a byte of host memory is one of the PASID's own (R496; log 8).

R76, R485: a walk of the tables in force. Each level's entry is a table, a leaf that the level allows, or a PAGE_FAULT; the leaf
gives a page of 4 KiB, 64 KiB, 2 MiB or 1 GiB with the permissions that every entry grants, and an access that they deny raises
PROTECTION. A walk goes through the tables as they stand, or, as a TLB may, as they stood at a point after every PTINV of its page
(R189, R482; log 7). A walk of the thread waits at its word while an engine owns a line of an entry that it reads, and for a peer
whose entry no port reaches (R23, R504); what the device reads or writes for the partition fails there with LINK_ERROR (log 31). -/
def Obligations.Translation : Prop :=
  (∀ (s : State) (p : Part) (k : Acc) (al : Nat) (ea : Word) (n : Nat),
     let va := fun (i : Nat) => (ea + BitVec.ofNat 64 i).toNat
     let base := p.regs.vwbaseF.toNat
     let e := fun (i : Nat) => s.gzEntry (p.regs2.gzfirst + (va i - base) / 2 ^ 28)
     let sb := fun (i : Nat) => va i / 2 ^ 21 % 128
     let outside := fun (i : Nat) => 2 ^ 52 ≤ va i ∨ va i < base ∨ base + p.regs2.gzcount * 2 ^ 28 ≤ va i ∨
       (e i).perm.getLsbD 2 = false
     let denied := fun (i : Nat) =>
       (k ≠ .write ∧ (e i).perm.getLsbD 0 = false) ∨ ((k = .write ∨ k = .atomic) ∧ (e i).perm.getLsbD 1 = false)
     let absent := fun (i : Nat) => (e i).resid.getLsbD (sb i) = false
     let pa := fun (i : Nat) =>
       (if (e i).tier.getLsbD (sb i) then (e i).t1base else (e i).t0base) + va i % 2 ^ 28
     let target := fun (i : Nat) => pa i / 2 ^ 50 % 4
     let reserved := fun (i : Nat) => target i = 3 ∧ pa i < 2 ^ 52
     (ea.toNat % al ≠ 0 → s.element p k al ea n = .error 0x03) ∧
     (ea.toNat % al = 0 →
       ((∃ i < n, outside i) → s.element p k al ea n = .error 0x06) ∧
       ((∀ i < n, ¬ outside i) → (∃ i < n, denied i) → s.element p k al ea n = .error 0x07) ∧
       ((∀ i < n, ¬ outside i ∧ ¬ denied i) → (∃ i < n, absent i) → s.element p k al ea n = .error 0x05) ∧
       ((∀ i < n, ¬ outside i ∧ ¬ denied i ∧ ¬ absent i) →
         ((∃ i < n, reserved i) → s.element p k al ea n = .error 0x30) ∧
         ((∀ i < n, ¬ reserved i) → (∃ i < n, p.owns (pa i) = false) → s.element p k al ea n = .error 0x20) ∧
         ((∀ i < n, p.owns (pa i) = true) → s.element p k al ea n = .ok ((List.range n).map (fun i =>
           if target i = 1 then pa i + 2 ^ 52 * (p.pasid + 1) else pa i)))))) ∧
  ((∀ (p : Part) (rd : Nat → Byte) (va : Nat),
     let entry := fun (table k : Nat) => leNum ((List.range 8).map (fun i => rd (p.tagged (table + 8 * k + i))))
     let frame := fun (e : Nat) => e / 4096 % 2 ^ 40 * 4096
     let q3 := p.regs.ptrootF.toNat + 8 * (va / 2 ^ 39 % 2 ^ 13)
     let e3 := entry q3 0
     let q2 := frame e3 + 8 * (va / 2 ^ 30 % 512)
     let e2 := entry q2 0
     let q1 := frame e2 + 8 * (va / 2 ^ 21 % 512)
     let e1 := entry q1 0
     let q0 := frame e1 + 8 * (va / 2 ^ 12 % 512)
     let e0 := entry q0 0
     let sound := fun (e : Nat) => e.testBit 0 = true ∧ e / 2 ^ 52 = 0 ∧ e / 2 ^ 7 % 32 = 0
     let table := fun (e : Nat) => sound e ∧ e.testBit 4 = false ∧ e.testBit 6 = false
     let leaf := fun (l e : Nat) => sound e ∧ e.testBit 4 = true ∧ l ≠ 3 ∧ (e.testBit 6 = true → l = 0) ∧
       frame e % (if e.testBit 6 then 65536 else 4096 * 512 ^ l) = 0
     let bad := fun (l e : Nat) => ¬ leaf l e ∧ (l = 0 ∨ ¬ table e)
     let gives := fun (l e : Nat) (es : List Nat) => (p.walk rd va).result = .ok (frame e,
       if e.testBit 6 then 65536 else 4096 * 512 ^ l,
       ⟨es.all (fun x => x.testBit 1), es.all (fun x => x.testBit 2), es.all (fun x => x.testBit 3), es.all (fun x => x.testBit 5)⟩)
     let fails := (p.walk rd va).result = .error 0x04
     let there := fun (q : Nat) => p.targetCause q = none
     there q3 → (bad 3 e3 → fails) ∧ (table e3 →
       (∀ c, p.targetCause q2 = some c → (p.walk rd va).result = .error c) ∧ (there q2 →
         (leaf 2 e2 → gives 2 e2 [e3, e2]) ∧ (bad 2 e2 → fails) ∧ (table e2 → there q1 →
           (leaf 1 e1 → gives 1 e1 [e3, e2, e1]) ∧ (bad 1 e1 → fails) ∧ (table e1 → there q0 →
             (leaf 0 e0 → gives 0 e0 [e3, e2, e1, e0]) ∧ (bad 0 e0 → fails)))))) ∧
   (∀ (s : State) (p : Part) (u : Bool) (k : Acc) (al : Nat) (ea : Word) (n : Nat),
     ea.toNat % al = 0 → ea.toNat < 2 ^ 52 →
     (p.inWindow ea.toNat = true → s.scalar p u k al ea n = s.element p k 1 ea n) ∧
     (p.inWindow ea.toNat = false →
       (∀ c, (s.walkOf p ea.toNat).result = .error c → s.scalar p u k al ea n = .error c) ∧
       ∀ base size pm, (s.walkOf p ea.toNat).result = .ok (base, size, pm) →
         let pass := (u = true → pm.u = true) ∧ (k = .read ∨ k = .atomic → pm.r = true) ∧
           (k = .write ∨ k = .atomic → pm.w = true) ∧ (k = .fetch → pm.x = true)
         let pas := (List.range n).map (fun i => base + ea.toNat % size + i)
         (¬ pass → s.scalar p u k al ea n = .error 0x07) ∧
         (pass → (∀ pa ∈ pas, targetOf pa ≠ 3 ∧ p.owns pa = true) → s.scalar p u k al ea n = .ok (pas.map p.tagged)))) ∧
   (∀ (s : State) (p : Part) (va : Nat), (∀ e ∈ p.ptinv, e.2.2 ≤ s.mem.logLen) →
     s.walkOf p va = p.walk s.mem.byte va ∨
     ∃ k base n pm, k ≤ s.mem.logLen ∧ s.walkOf p va = { p.walk (s.mem.byteAt k) va with touched := [] } ∧
       (s.walkOf p va).result = .ok (base, n, pm) ∧
       ∀ e ∈ p.ptinv, (e.2.1 = 0 ∨ (e.1 < va / n * n + n ∧ va / n * n < e.1 + 4096 * e.2.1)) → e.2.2 ≤ k) ∧
   (∀ (s : State) (al n : Nat) (ea : Word), ea.toNat % al = 0 →
     let read := fun (a : Nat) => ∃ i < n / al, let x := (ea + BitVec.ofNat 64 (al * i)).toNat
       x < 2 ^ 52 ∧ s.cp.inWindow x = false ∧ a ∈ (s.walkOf s.cp x).touched
     ((∃ a, read a ∧ s.owned a = true) → s.walkReady al n ea = .error (.wait .other)) ∧
     ((∀ a, read a → s.owned a = false) → (∃ a, read a ∧ s.cutOff a = true) →
       s.walkReady al n ea = .error (.wait (.peer s.peerTag))) ∧
     ((∀ a, read a → s.owned a = false ∧ s.cutOff a = false) → s.walkReady al n ea = .ok ())) ∧
   (∀ (s : State) (p : Part) (u : Bool) (k : Acc) (al n : Nat) (ea : Word),
     let at_ := fun (i : Nat) => ea + BitVec.ofNat 64 (al * i)
     let cut := fun (i : Nat) => ∃ a ∈ s.walkBytes p (at_ i), s.cutOff a = true
     (∀ i < n, cut i → (∀ j < i, ¬ cut j) → s.deviceRange p u k al n ea = .error (0x21, at_ i)) ∧
     ((∀ i < n, ¬ cut i) → (∀ e, s.scalarRange p u k al n ea = .error e → s.deviceRange p u k al n ea = .error e) ∧
       ∀ pas, s.scalarRange p u k al n ea = .ok pas →
         s.deviceRange p u k al n ea = if ∃ a ∈ pas, s.cutOff a = true then .error (0x21, ea) else .ok pas)))

/-- R30, R496: every byte that a vector or a scalar access reaches lies in what the partition owns, and none at the reserved
target; a byte of host memory is the PASID's own (log 8). -/
def Obligations.PlacesAreOwned : Prop :=
  ∀ (s : State) (p : Part) (u : Bool) (k : Acc) (al : Nat) (ea : Word) (n : Nat) (pas : List Nat),
    (s.element p k al ea n = .ok pas ∨ s.scalar p u k al ea n = .ok pas ∨ s.scalarRange p u k al n ea = .ok pas) →
    ∀ pa ∈ pas, ∃ q, p.owns q = true ∧ q / 2 ^ 50 % 4 ≠ 3 ∧ pa = if q / 2 ^ 50 % 4 = 1 then q + 2 ^ 52 * (p.pasid + 1) else q

/-! ## Atomics and ordering -/

/-- R239, R240: the integer atomics. Each writes its new value to the n bytes at sA and the old one, sign-extended, to sD;
AMOCAS writes only where the old value is that of sD. One that an earlier access holds back, or that releases while an access
waits, waits its turn; one that acquires then holds every later access behind it (R237, R255).

R239, R240: AMOFADD adds in floating point, rounding to nearest, and its flags join fflags; sD takes the old value
zero-extended. LDA reads and STL writes as an atomic. -/
def Obligations.ScalarAtomics : Prop :=
  (∀ (s : State) (d a b : BitVec 5) (sc : BitVec 3) (o : BitVec 2) (w : BitVec 1) (pas : List Nat),
     let n := if w = 0#1 then 8 else 4
     s.scalarPlace .atomic (s.readS a) n = .ok pas →
     let m := 8 * n
     let acq := (o = 1#2 ∨ o = 3#2) ∧ sc ≠ 0#3
     let rel := (o = 2#2 ∨ o = 3#2) ∧ sc ≠ 0#3
     let old := leNum (pas.map s.mem.byte)
     let x := uval m (s.readS b)
     let sg := fun (v : Nat) => (v : Int).bmod (2 ^ m)
     let was := BitVec.ofInt 64 (sg old)
     let out := fun (j : Instr) (v : Nat) => Completes j s (Stored pas (leBytes n v) d was 0 s)
     (s.idle → s.reachable pas = .ok () → s.poisoned pas = false →
       out (.amoswap d a b sc o w) x ∧ out (.amoadd d a b sc o w) (old + x) ∧ out (.amoand d a b sc o w) (old &&& x) ∧
       out (.amoor d a b sc o w) (old ||| x) ∧ out (.amoxor d a b sc o w) (old ^^^ x) ∧
       out (.amomin d a b sc o w) (if sg x < sg old then x else old) ∧
       out (.amomax d a b sc o w) (if sg old < sg x then x else old) ∧
       out (.amominu d a b sc o w) (min old x) ∧ out (.amomaxu d a b sc o w) (max old x) ∧
       (old = uval m (s.readS d) → out (.amocas d a b sc o w) x) ∧
       (old ≠ uval m (s.readS d) → Completes (.amocas d a b sc o w) s (Wrote d was s))) ∧
     (s.free → s.cur.accessPending 0 pas = true ∨ (∃ b ∈ pas, s.owned b = true) ∨ (rel ∧ s.cur.anyPending = true) →
       ∀ e ∈ [(Instr.amoswap d a b sc o w, AmoOp.swap), (.amoadd d a b sc o w, .add), (.amoand d a b sc o w, .and),
           (.amoor d a b sc o w, .or), (.amoxor d a b sc o w, .xor), (.amomin d a b sc o w, .min), (.amomax d a b sc o w, .max),
           (.amominu d a b sc o w, .minu), (.amomaxu d a b sc o w, .maxu), (.amocas d a b sc o w, .cas),
           (.amofadd d a b sc o w, .fadd)],
         Completes e.1 s (fun t => ∃ h l, (h = 255#8 ∧ acq ∨ h = 0#8 ∧ ¬ acq) ∧ (¬ rel → l = s.cur.viq) ∧
           (rel → l = s.cur.viq.map (fun y => if y.general then y.onHeld (fun k => { k with held := k.held ||| 1#8 }) else y)) ∧
           Queued l (.scalar ⟨0, h, s.readS a, 0, none⟩ pas (.amo e.2 d n x (uval m (s.readS d)))) s t))) ∧
  (∀ (s : State) (d a b : BitVec 5) (sc : BitVec 3) (o : BitVec 2) (w : BitVec 1) (pas : List Nat), s.idle →
     let n := if w = 0#1 then 8 else 4
     let f := if w = 0#1 then fp64 else fp32
     let ea := s.readS a
     let old := leNum (pas.map s.mem.byte)
     let sum := roundFl f 0 (sumTerms 0 [f.value old, f.value (uval (8 * n) (s.readS b))])
     (s.scalarPlace .atomic ea n = .ok pas → s.reachable pas = .ok () → s.poisoned pas = false →
       Completes (.amofadd d a b sc o w) s (Stored pas (leBytes n sum.val) d (BitVec.ofNat 64 old) sum.fl s)) ∧
     (s.scalarPlace .read ea n = .ok pas → s.reachable pas = .ok () → s.poisoned pas = false →
       Completes (.lda d a sc w) s (Wrote d (BitVec.ofInt 64 ((old : Int).bmod (2 ^ (8 * n)))) s)) ∧
     (s.scalarPlace .write ea n = .ok pas → s.reachable pas = .ok () →
       Completes (.stl a b sc w) s (Stored pas (leBytes n (s.readS b).toNat) 0#5 0#64 0 s)))

/-- R218, R234 to R237: FENCE, PFENCE and SBAR. A fence wider than the thread waits while an earlier access of the thread waits, an
acquire fence while an earlier read or a store that releases does (R255); PFENCE waits for the accesses of the paths it names and, where it names one but GEN, for
the thread's writes and acquires that wait (R230, R255), and from then on their reads see every write so far whose writer its
scope, as seen from the core it runs on, covers; SBAR wider than the thread holds streams behind the accesses of others that wait.

R241 to R243: BAR completes once every other participant of its launch in its scope has arrived at the BAR of the same
number; until then it waits, its own arrival marked. Threads that have ended count as arrived, those not started do not. -/
def Obligations.OrderingAndBarrier : Prop :=
  (∀ (s : State) (sc : BitVec 3) (k : BitVec 2) (p : BitVec 4) (await hold : BitVec 8), s.free →
     let busy := sc ≠ 0#3 ∧ s.cur.anyPending = true
     let reads := sc ≠ 0#3 ∧ ∃ e ∈ s.cur.viq, (e.general = true ∧ e.bytes.1 = true) ∨ ∃ x pas bs, e = .scalar x pas (.store bs true)
     let waits := (k ≠ 1#2 ∧ busy) ∨ (k = 1#2 ∧ reads)
     let own := ∃ o ∈ s.mlq, o.thread = s.cur.id
     let before := fun (e : VEntry) => (∃ x, e.holds = some x ∧ x.held = 255#8) ∨
       (p.getLsbD 2 = true ∧ ∃ x w f runs, e = .tile x w f runs) ∨ (p.getLsbD 1 = true ∧ ∃ x pas d, e = .scalar x pas (.ldk d)) ∨
       (e.general = true ∧ (∀ x mv runs, e ≠ .access x true mv runs) ∧ ∀ x pas d n sg, e ≠ .scalar x pas (.load d n sg))
     let held := (p.getLsbD 0 = true ∧ busy) ∨ (p &&& 14#4 ≠ 0#4 ∧ ∃ e ∈ s.cur.viq, before e) ∨ (p.getLsbD 3 = true ∧ own)
     let h := fun (x : Held) => if await.getLsbD x.ag then { x with held := x.held ||| hold } else x
     (waits → Completes (.fence sc k) s (fun t => t = s.waits .other)) ∧
     (¬ waits → Completes (.fence sc k) s (Passed s)) ∧
     (held → Completes (.pfence sc p) s (fun t => t = s.waits .other)) ∧
     (¬ held → Completes (.pfence sc p) s (fun t =>
       t = { s with cur := { s.cur.past with prog := { s.cur.past.prog with fences := t.cur.prog.fences } } } ∧
       ∀ c x j, x < 3 → j < 8 → Table.get t.cur.prog.fences 0 (32 * c + 8 * x + j) =
         if c = s.cur.place.core ∧ p.getLsbD (x + 1) = true ∧ j = sc.toNat then s.mem.logLen
         else Table.get s.cur.prog.fences 0 (32 * c + 8 * x + j))) ∧
     (sc = 0#3 → Completes (.sbar sc await hold) s (Passed s)) ∧
     (sc ≠ 0#3 → Completes (.sbar sc await hold) s (fun t => t = { s with cur := { s.cur.past with viq := s.cur.viq.map (fun e =>
       match e with
       | .access x ld mv runs => .access (h x) ld mv runs
       | .tile x w f runs => .tile (h x) w f runs
       | .vamo x op vt es => .vamo (h x) op vt es
       | .scalar x pas op => .scalar (h x) pas op
       | .convoy c => .convoy c
       | .write ws => .write ws
       | .reply id regs => .reply id regs) } }))) ∧
  (∀ (s : State) (sc : BitVec 3), s.idle → sc = 1#3 ∨ sc = 2#3 ∨ sc = 3#3 →
     let me := s.cur
     let n := sc.toNat
     let b := me.prog.bars
     let count := fun (x : Bars) => if sc = 1#3 then x.core else if sc = 2#3 then x.sheet else x.device
     let near := fun (c : Nat) => if sc = 1#3 then c = me.place.home else sc = 2#3 → c / 64 = me.place.home / 64
     let ours := fun (i : ThreadId) => i.part = me.id.part ∧ i.lid = me.id.lid
     let met := (∀ t ∈ s.started, ours t.id → t.id ≠ me.id → near t.place.home →
         count b + 1 ≤ count t.prog.bars + (if t.prog.bars.arrived = some n then 1 else 0)) ∧
       ∀ r ∈ (s.part me.id.part).records, ours r.id → ¬ near r.core
     (met → Completes (.bar sc) s (fun t => t = { s with cur := { me.past with prog := { me.past.prog with bars :=
       { core := if sc = 1#3 then b.core + 1 else b.core
         sheet := if sc = 2#3 then b.sheet + 1 else b.sheet
         device := if sc = 3#3 then b.device + 1 else b.device
         arrived := none } } } })) ∧
     (¬ met → Completes (.bar sc) s (fun t => t =
       (s.onProg (fun g => { g with bars := { b with arrived := some n } })).waits .bar)))

/-! ## Status registers, traps and returns -/

/-- R53, R54, R127, R470, R476: SRR reads every register of the tables (State.statusTable); a number that the tables leave
out, or that a higher ring owns, raises ILLEGAL. A read of fflags waits for the E-side.

R54, R97, R141, R151, R470, R476: SRW, SRS and SRC write every register that software may write, where the value sets no
reserved bit and keeps the register's range and alignment: that register's field takes the value and no other field of the
state changes. Of lat0 to lat3 only WEIGHT is written, and the reclaim intervals that the core then counts run; a write to
stkcount sends the partition's waiting records to look for a slot. Any other write, of these, of the registers that are read
only or of a higher ring's, raises ILLEGAL and changes no register. SRS and SRC put the old value, as SRR reads it, in sD. -/
def Obligations.StatusRegisters : Prop :=
  (∀ (s : State) (d : BitVec 5) (n : BitVec 12),
     (s.idle → (∀ v, (n.toNat, v) ∈ s.statusTable → n.toNat / 256 ≤ s.cur.ring.toNat → Completes (.srr d n) s (Wrote d v s)) ∧
       ((∀ v, (n.toNat, v) ∉ s.statusTable) ∨ s.cur.ring.toNat < n.toNat / 256 →
         Completes (.srr d n) s (fun u => u = takeTrap s { cause := 0x01 }))) ∧
     (s.free → s.cur.viq ≠ [] → n = 4#12 → Completes (.srr d n) s (fun u => u = s.waits .other))) ∧
  (∀ (s : State) (d a : BitVec 5) (n : BitVec 12), s.idle →
     let al := fun (k : Nat) (v : Word) => v.toNat % k = 0
     let only := fun (mask : Word) (v : Word) => v &&& ~~~mask = 0#64
     let upTo := fun (k : Nat) (v : Word) => v.toNat ≤ k
     let any := fun (_ : Word) => True
     let c := s.cur
     let pn := c.id.part
     let core := c.place.core
     let user := fun (f : Word → UserRegs) (v : Word) (u : State) => u = { s with cur := { c with user := f v } }
     let loops := fun (f : Word → Loops) (v : Word) (u : State) => u = { s with cur := { c with loops := f v } }
     let dims := fun (f : Word → Dims) (v : Word) (u : State) => u = { s with cur := { c with dims := f v } }
     let ring := fun (k : Nat) (f : RingRegs → Word → RingRegs) (v : Word) (u : State) =>
       let r := fun (j : Nat) (x : RingRegs) => if k = j then f x v else x
       u = { s with cur := { c with rings := ⟨r 1 c.rings.d, r 2 c.rings.h, r 3 c.rings.m⟩ } }
     let p := s.part pn
     let part := fun (f : Word → Part) (v : Word) (u : State) =>
       u = { s with parts := u.parts } ∧ ∀ q, u.part q = if q = pn then f v else s.part q
     let regs := fun (f : PartRegs → Word → PartRegs) => part (fun v => { p with regs := f p.regs v })
     let regs2 := fun (f : PartRegs2 → Word → PartRegs2) => part (fun v => { p with regs2 := f p.regs2 v })
     let weight := fun (k : Nat) (v : Word) (u : State) =>
       let old := s.core core
       u = { s with cores := u.cores, timers := u.timers } ∧ (∀ q, q ≠ core → u.core q = s.core q) ∧
       u.core core = { old with lat := (u.core core).lat } ∧
       (∀ j, (u.core core).latOf j = if j = k then { (old.latOf k) with weight := v.toNat % 16 } else old.latOf j) ∧
       ∀ i, i ∈ u.timers ↔
         (∃ t ∈ s.onChip, t.place.core = core ∧ i = .laneReclaim t.id ∧ (u.core core).reclaims t.place.slot = true) ∨
         (i ∈ s.timers ∧ ∀ t ∈ s.onChip, t.place.core = core → i ≠ .laneReclaim t.id)
     let stk := fun (v : Word) (u : State) =>
       let waiting := p.records ≠ [] ∨ ∃ e ∈ s.saved, e.1.id.part = pn
       u = { s with
         parts := u.parts
         inputs := if waiting ∧ Instr.threadDispatch pn ∉ s.inputs then s.inputs ++ [.threadDispatch pn] else s.inputs } ∧
       ∀ q, u.part q = if q = pn then { p with regs := { p.regs with stkcount := v } } else s.part q
     let table : List (Nat × (Word → Prop) × (Word → State → Prop)) :=
       [(0x000, only 0xF#64, user (fun v => { c.user with ustatus := v })), (0x001, al 4, user (fun v => { c.user with uhandler := v })),
        (0x002, al 4, user (fun v => { c.user with uepc := v })), (0x003, only 0x0F000FFF#64, user (fun v => { c.user with ucause := v })),
        (0x004, only 0x3F#64, user (fun v => { c.user with fflags := v })), (0x013, any, user (fun v => { c.user with vfirst := v })),
        (0x014, any, loops (fun v => { c.loops with lc0 := v })), (0x015, any, loops (fun v => { c.loops with lb0 := v })),
        (0x016, any, loops (fun v => { c.loops with le0 := v })), (0x017, any, loops (fun v => { c.loops with lc1 := v })),
        (0x018, any, loops (fun v => { c.loops with lb1 := v })), (0x019, any, loops (fun v => { c.loops with le1 := v })),
        (0x01A, any, dims (fun v => { c.dims with dl0 := v })), (0x01B, any, dims (fun v => { c.dims with dl1 := v })),
        (0x01C, any, dims (fun v => { c.dims with dl2 := v })), (0x01D, any, dims (fun v => { c.dims with ds0 := v })),
        (0x01E, any, dims (fun v => { c.dims with ds1 := v })), (0x01F, any, dims (fun v => { c.dims with ds2 := v })),
        (0x020, any, dims (fun v => { c.dims with dx0 := v })), (0x021, any, dims (fun v => { c.dims with dx1 := v })),
        (0x022, any, dims (fun v => { c.dims with dx2 := v })), (0x030, only 0xFFFF3#64, user (fun v => { c.user with stst := v }))] ++
       [1, 2, 3].flatMap (fun k =>
         let own := fun (j : Nat) (v x : Word) => if k = j then v else x
         [(256 * k, only 0x17#64, ring k (fun r v => { r with status := v })),
          (256 * k + 1, al 4, ring k (fun r v => { r with handler := v })),
          (256 * k + 2, al 4, ring k (fun r v => { r with epc := v })),
          (256 * k + 3, only 0x0F3FFFFF#64, ring k (fun r v => { r with cause := v })),
          (256 * k + 4, al 1024, ring k (fun r v => { r with record := v })),
          (256 * k + 5, any, ring k (fun r v => { r with scratch := v })),
          (256 * k + 6, al 4, regs2 (fun r v =>
             { r with ddefh := own 1 v r.ddefh, hdefh := own 2 v r.hdefh, mdefh := own 3 v r.mdefh })),
          (256 * k + 7, al (2 ^ 20), regs2 (fun r v =>
             { r with ddefr := own 1 v r.ddefr, hdefr := own 2 v r.hdefr, mdefr := own 3 v r.mdefr }))]) ++
       [(0x110, only 0x01FFFF1F#64, weight 0), (0x111, only 0x01FFFF1F#64, weight 1), (0x112, only 0x01FFFF1F#64, weight 2),
        (0x113, only 0x01FFFF1F#64, weight 3),
        (0x115, fun v => 10 ≤ v.toNat ∧ v.toNat ≤ 10000, regs (fun r v => { r with reclaim := v })),
        (0x118, al (2 ^ 28), regs (fun r v => { r with vwbase := v })), (0x119, al 64, regs (fun r v => { r with gzimage := v })),
        (0x11A, al 65536, regs (fun r v => { r with ptroot := v })), (0x120, al 16, regs (fun r v => { r with nqbase := v })),
        (0x121, upTo 65536, regs (fun r v => { r with nqcap := v })), (0x122, any, regs (fun r v => { r with nqhead := v })),
        (0x124, al (2 ^ 20), regs (fun r v => { r with ctxbase := v })), (0x125, any, regs (fun r v => { r with ctxcount := v })),
        (0x126, al 4096, regs (fun r v => { r with stkbase := v })),
        (0x127, fun v => al 16 v ∧ upTo 16777216 v, regs (fun r v => { r with stkslot := v })), (0x128, upTo 65536, stk),
        (0x212, al 32, regs2 (fun r v => { r with logbase := v })), (0x213, upTo 65536, regs2 (fun r v => { r with logcap := v })),
        (0x214, any, regs2 (fun r v => { r with loghead := v }))]
     let illegal := fun (j : Instr) => Completes j s (fun t => t = takeTrap s { cause := 0x01 })
     let out := fun (j : Instr) (v old : Word) (r : BitVec 5) =>
       (∀ ok f, (n.toNat, ok, f) ∈ table → ok v → n.toNat / 256 ≤ c.ring.toNat →
         Completes j s (fun t => t.readS r = (if r = 0#5 then 0#64 else old) ∧ (∀ k, k ≠ r → t.readS k = s.readS k) ∧
           ∃ u, f v u ∧ t = { u with cur := { u.cur.past with s := t.cur.s } })) ∧
       (¬ (∃ ok f, (n.toNat, ok, f) ∈ table ∧ ok v ∧ n.toNat / 256 ≤ c.ring.toNat) → illegal j)
     out (.srw a n) (s.readS a) 0#64 0#5 ∧
     ((∀ v, (n.toNat, v) ∉ s.statusTable) → illegal (.srs d a n) ∧ illegal (.src d a n)) ∧
     ∀ old, (n.toNat, old) ∈ s.statusTable →
       out (.srs d a n) (old ||| s.readS a) old d ∧ out (.src d a n) (old &&& ~~~s.readS a) old d)

/-- R105, R107: a trap with a user-routable cause at ring 0, with a handler set and none running, enters the user handler
with uepc, ucause and ustatus as the rule gives; nothing else changes.

R107, R467, R472, R474: a trap that R107 does not keep climbs from the ring its cause routes to, or from the ring above
the current one, to the first ring that has a handler and whose record, if it has one, can be written; it is NESTED, with
the original cause and its ring, unless that is the first ring tried for a cause that routes there. Where no ring takes it,
the partition halts. While an engine owns a line of the record or of its walk, the trap waits with nothing done but the framing
ended (R23; log 31). The model's choices (log 15): the record is written without the user's permission, a violation by it is
logged (R30), a contained trap saves the PC of the last word that completed, and a halt leaves the thread as it was. -/
def Obligations.TrapEntry : Prop :=
  (∀ (s : State) (x : Trap), s.cur.ring = 0#2 →
     x.cause ∈ [0x03, 0x08, 0x09, 0x0A, 0x0B, 0x0C, 0x0D, 0x0E, 0x0F, 0x10, 0x11, 0x13, 0x14] →
     s.cur.user.ustatus.getLsbD 0 = false → s.cur.user.uhandler ≠ 0#64 →
     let u := s.cur.user
     let b := fun (x : Bool) => if x then 1 else 0
     takeTrap s x = { s with cur := { s.cur with
       pc := u.uhandler
       framing := none
       user := { u with
         uepc := x.epc.getD s.cur.pc
         ucause := BitVec.ofNat 64 (x.cause + 256 * x.queue + 2048 * b x.eside + 2 ^ 24 * x.synd)
         ustatus := BitVec.ofNat 64 (1 + 2 + 4 * b (u.ustatus.getLsbD 1) + 8 * b x.reissue) }
       prog := { s.cur.prog with reissue := false, wait := .none } } }) ∧
  (∀ (s : State) (x : Trap),
     let c := s.cur.ring.toNat
     let userCause := x.cause ∈ [0x03, 0x08, 0x09, 0x0A, 0x0B, 0x0C, 0x0D, 0x0E, 0x0F, 0x10, 0x11, 0x13, 0x14]
     let route := if userCause then 0 else if x.cause = 0x20 ∨ x.cause = 0x30 then 2 else if x.cause = 0x31 then 3 else 1
     let ih := s.cur.user.ustatus.getLsbD 0
     let kept := route = 0 ∧ c = 0 ∧ ih = false ∧ s.cur.user.uhandler ≠ 0#64
     let promoted := (route ≤ c ∧ ¬ (route = 0 ∧ c = 0)) ∨ (route = 0 ∧ c = 0 ∧ ih = true)
     let start := if route ≤ c then c + 1 else route
     let u := s.logCause x
     let regs := fun (k : Nat) => if k = 1 then s.cur.rings.d else if k = 2 then s.cur.rings.h else s.cur.rings.m
     let pn := s.cur.id.part
     let places := fun (v : State) (k : Nat) => v.deviceRange (v.part pn) false .write 64 16 (regs k).record
     let tried := fun (v : State) (k : Nat) =>
       if (regs k).handler = 0#64 ∨ (regs k).record = 0#64 then v
       else match places v k with
         | .error (0x20, a) => v.logError pn a 0x2000 v.synd 5 0x20
         | _ => v
     let at_ := fun (k : Nat) =>
       (List.range' start (k - start)).foldl tried { u with cur := { s.cur with framing := none } }
     let open_ := fun (k : Nat) => (regs k).handler ≠ 0#64 ∧ ((regs k).record ≠ 0#64 → ∃ pas, places (at_ k) k = .ok pas)
     let trapped := x.epc.getD s.cur.pc
     let epc := if x.cause = 0x30 ∨ x.cause = 0x31 then s.cur.prog.last.getD trapped else trapped
     let b := fun (x : Bool) => if x then 1 else 0
     let word := fun (k : Nat) =>
       let nested := promoted ∨ k ≠ start
       BitVec.ofNat 64 ((if nested then 0x18 else x.cause) + 256 * x.queue + 2048 * b x.eside +
         (if nested then 4096 * x.cause + 2 ^ 20 * route else 0) + 2 ^ 24 * x.synd)
     let entered := fun (k : Nat) =>
       let r := { regs k with
         status := BitVec.ofNat 64 (c + 4 * b x.reissue + 16 * b (s.cur.user.ustatus.getLsbD 1))
         epc := epc
         cause := word k }
       { s.cur with
         pc := (regs k).handler
         ring := BitVec.ofNat 2 k
         framing := none
         rings := { d := if k = 1 then r else s.cur.rings.d, h := if k = 2 then r else s.cur.rings.h,
                    m := if k = 3 then r else s.cur.rings.m }
         prog := { s.cur.prog with reissue := false, wait := .none } }
     let line := fun (k a : Nat) => s.owned a = true ∧ ((∃ i < 16, a ∈ s.walkBytes s.cp ((regs k).record + BitVec.ofNat 64 (64 * i))) ∨
       ∃ pas, places s k = .ok pas ∧ a ∈ pas)
     let tries := fun (k : Nat) => start ≤ k ∧ k ≤ 3 ∧ (regs k).handler ≠ 0#64 ∧ (regs k).record ≠ 0#64 ∧
       ∀ j, start ≤ j → j < k → (regs j).handler ≠ 0#64 → (regs j).record ≠ 0#64 ∧ ∃ e, places s j = .error e
     (kept → s.recordHeld x = false) ∧
     (¬ kept → (s.recordHeld x = true ↔ ∃ k a, tries k ∧ line k a)) ∧
     (s.recordHeld x = true → takeTrap s x = { s with cur := { s.cur with
       framing := none, prog := { s.cur.prog with wait := .retry (.trap x) } } }) ∧
     (¬ kept → s.recordHeld x = false →
       (∀ k, start ≤ k → k ≤ 3 → open_ k → (∀ j, start ≤ j → j < k → ¬ open_ j) →
         ((regs k).record = 0#64 → takeTrap s x = { at_ k with cur := entered k }) ∧
         (∀ pas, (regs k).record ≠ 0#64 → places (at_ k) k = .ok pas →
           takeTrap s x = { at_ k with
             cur := entered k
             mem := (at_ k).mem.writeAll s.writer (pas.zip (trapRecord (at_ k) x epc (word k) c)) })) ∧
       ((∀ k, start ≤ k → k ≤ 3 → ¬ open_ k) →
         takeTrap s x = (at_ 4).haltPart pn x.addr s.cur.place.core x.cause ∧
         ((takeTrap s x).part pn).state = .halted ∧ (takeTrap s x).cur = { s.cur with framing := none })))

/-- R475: the 1,024 bytes of a trap record; DX and COUNTERS hold values for a sweep alone (the model's reading, log 15).

R107, R474: entering a trap, whatever its cause and wherever it goes, changes no scalar register, no loop register, no
queue, no fflags bit and no vector, predicate or multivector register of the thread, and no other thread. -/
def Obligations.TrapRecordAndFrame : Prop :=
  (∀ (s : State) (x : Trap) (epc cause : Word) (pr : Nat), x.batch.length ≤ 16 →
     let bs := trapRecord s x epc cause pr
     let t := s.cur
     let at_ := fun (o n : Nat) => (bs.drop o).take n
     let w := fun (v : Word) => leBytes 8 v.toNat
     let b := fun (x : Bool) => if x then 1 else 0
     bs.length = 1024 ∧ at_ 0 8 = w epc ∧ at_ 8 8 = w cause ∧
     at_ 16 8 = (if x.synd ≠ 0 then leBytes 8 x.synd else w x.addr) ∧
     at_ 24 8 = leBytes 8 (b x.reissue + 2 * b x.eside + 4 * pr + 256 * x.batch.length +
       (if x.elems then 65536 * (t.user.vfirst.toNat % 65536) else 0)) ∧
     (∀ k < 16, at_ (32 + 8 * k) 8 = leBytes 8 (x.batch.getD k 0)) ∧
     (∀ k < 8, at_ (160 + 2 * k) 2 = if x.sweep then leBytes 2 (Table.get t.conf.counters 0 k) else [0, 0]) ∧
     at_ 176 24 = (if x.sweep then w t.dims.dx0 ++ w t.dims.dx1 ++ w t.dims.dx2 else List.replicate 24 0) ∧
     at_ 200 48 = w t.loops.lc0 ++ w t.loops.lb0 ++ w t.loops.le0 ++ w t.loops.lc1 ++ w t.loops.lb1 ++ w t.loops.le1 ∧
     (∀ k < 8, at_ (248 + k) 1 = leBytes 1 (t.queue k).length) ∧
     at_ 256 512 = (if x.elems then leBytes 512 t.conf.fmask.toNat else List.replicate 512 0) ∧
     at_ 768 256 = List.replicate 256 0) ∧
  (∀ (s : State) (x : Trap),
     let t := takeTrap s x
     (∀ r, t.readS r = s.readS r) ∧ t.cur.loops = s.cur.loops ∧ (∀ k, t.cur.queue k = s.cur.queue k) ∧
     t.cur.user.fflags = s.cur.user.fflags ∧ t.cur.vr = s.cur.vr ∧ t.cur.tok = s.cur.tok ∧ t.cur.conf = s.cur.conf ∧
     t.cur.dims = s.cur.dims ∧ t.cur.mat = s.cur.mat ∧ t.others = s.others ∧ t.saved = s.saved)

/-- R477: TRAP completes and raises TRAP with the next word's PC; BREAKPOINT does not complete and saves its own. ADDR holds
the low eleven bits.

R108, R203, R478: TRET returns to a lower ring and URET from the user handler; each restores LS and goes to the saved PC,
where the word is reissued if the flag says so, and no loop acts. TRET at ring 0 or to a ring that is not lower, and URET
above ring 0 or outside the user handler, raise ILLEGAL. The W pops that the model keeps for a convoy (R46) survive
only where the return goes to that convoy (the model's reading, log 17). -/
def Obligations.TrapsAndReturns : Prop :=
  (∀ (s : State) (i : BitVec 11), s.idle →
     let done := { s with cur := { s.cur with prog := { s.cur.prog with
       instret := s.cur.prog.instret + 1#64, last := some s.cur.pc, reissue := false, wait := .none } } }
     let addr := BitVec.ofNat 64 i.toNat
     Completes (.trap i) s (fun t => t = takeTrap done { cause := 0x16, addr := addr, epc := some (s.cur.pc + 4#64) }) ∧
     Completes (.breakpoint i) s (fun t => t = takeTrap s { cause := 0x17, addr := addr })) ∧
  (∀ s : State, s.idle →
     let c := s.cur.ring.toNat
     let k := if c = 1 then s.cur.rings.d else if c = 2 then s.cur.rings.h else s.cur.rings.m
     let pr := k.status.toNat % 4
     let u := s.cur.user.ustatus
     let b := fun (x : Bool) => if x then 1 else 0
     let bits := fun (ih ls pls uri : Bool) => BitVec.ofNat 64 (b ih + 2 * b ls + 4 * b pls + 8 * b uri)
     let back := fun (target : Word) (ri : Bool) (ring : BitVec 2) (ust : Word) (rings : RingSet) (t : State) =>
       (∀ l, Table.get t.cur.prog.wpops none l =
         match Table.get s.cur.prog.wpops none l with
         | some e => if l = t.cur.level ∧ e.1 ≠ target then none else some e
         | none => none) ∧
       t = { s with cur := { s.cur with
         pc := target
         ring := ring
         user := { s.cur.user with ustatus := ust }
         rings := rings
         prog := { s.cur.prog with
           instret := s.cur.prog.instret + 1#64, last := some s.cur.pc, reissue := ri, wait := .none
           wpops := t.cur.prog.wpops } } }
     let k' := { k with status := k.status &&& ~~~4#64 }
     (0 < c → pr < c → Completes .tret s (back k.epc (k.status.getLsbD 2) (BitVec.ofNat 2 pr)
       (bits (u.getLsbD 0) (k.status.getLsbD 4) (u.getLsbD 2) (u.getLsbD 3))
       { d := if c = 1 then k' else s.cur.rings.d, h := if c = 2 then k' else s.cur.rings.h,
         m := if c = 3 then k' else s.cur.rings.m })) ∧
     (c = 0 ∨ c ≤ pr → Completes .tret s (fun t => t = takeTrap s { cause := 0x01 })) ∧
     (c = 0 → u.getLsbD 0 = true → Completes .uret s (back s.cur.user.uepc (u.getLsbD 3) 0#2
       (bits false (u.getLsbD 2) false false) s.cur.rings)) ∧
     (c ≠ 0 ∨ u.getLsbD 0 = false → Completes .uret s (fun t => t = takeTrap s { cause := 0x01 })))

/-- R480: WFE writes the events that occurred since the last WFE and clears them; with none it waits, and where sA is not 0 a
limit is counted, whose passing is event 3. -/
def Obligations.WaitForEvent : Prop :=
  ∀ (s : State) (d a : BitVec 5) (id : ThreadId), s.free →
    let e := s.cur.prog.events
    let late := Instr.wfeTimeout s.cur.id
    (e ≠ 0#4 → Completes (.wfe d a) s (fun t =>
      t.readS d = (if d = 0#5 then 0#64 else e.setWidth 64) ∧ (∀ r, r ≠ d → t.readS r = s.readS r) ∧
      t = { s with
        timers := s.timers.filter (fun i => i ≠ late)
        cur := { s.cur.past with s := t.cur.s, prog := { s.cur.past.prog with events := 0#4 } } })) ∧
    (e = 0#4 → Completes (.wfe d a) s (fun t => t = ({ s with
      timers := if s.readS a = 0#64 ∨ late ∈ s.timers then s.timers else s.timers ++ [late] } : State).waits .wfe)) ∧
    Completes (.wfeTimeout id) s (fun t => t = s.onThread id (fun h =>
      if h.prog.wait = .retry .wfe then { h with prog := { h.prog with events := h.prog.events ||| 8#4 } } else h))

/-- R470, R481, R484: VTINV at ring 1 or above copies the image entries that sA and sB name, all where sB is 0, and takes up vwbase
and gzimage; it reads them at the gzimage it takes up (the model's reading, log 28). An entry with a reserved bit set, or a valid
one with a base that is misaligned or not the partition's, is not copied, and the first such raises MACHINE_CHECK. VTINV waits while
an engine command, an access that waits or a staged access that is parked uses what it copies; at ring 0, or with a range beyond
gzcount, it raises ILLEGAL.

R470, R482: PTINV at ring 1 or above removes every translation of the pages it names, of all pages where sB is 0, when it also takes
up ptroot: no later walk for an address of such a page may be older than it. It waits while an access waits, and raises ILLEGAL at
ring 0. -/
def Obligations.GazetteerAndTranslationRemoval : Prop :=
  (∀ (s : State) (a b : BitVec 5), s.idle →
     let p := s.part s.cur.id.part
     let all := s.readS b = 0#64
     let first := if all then 0 else (s.readS a).toNat
     let n := if all then p.regs2.gzcount else (s.readS b).toNat
     let image := p.regs.gzimage
     let used := fun (k : Nat) => decide (p.regs2.gzfirst + first ≤ k ∧ k < p.regs2.gzfirst + first + n)
     let o := s.objs s.cur.id.part
     let uses := fun (va : Nat) => p.inWindow va = true ∧ used (p.gzIndex va) = true
     let parked := ∃ w ∈ o.waiters ++ o.resend, uses w.va.toNat ∨
       ∃ c, o.cls w.cls = some c ∧ uses (c.sarr + BitVec.ofNat 64 w.obj).toNat
     let busy := (∃ c ∈ s.cmds, c.thread.part = s.cur.id.part ∧ c.gz.any used = true) ∨ s.partPending = true ∨ parked
     (s.cur.ring = 0#2 ∨ p.regs2.gzcount < first + n →
       Completes (.vtinv a b) s (fun t => t = takeTrap s { cause := 0x01 })) ∧
     (s.cur.ring ≠ 0#2 → first + n ≤ p.regs2.gzcount → busy →
       Completes (.vtinv a b) s (fun t => t = s.waits .other)) ∧
     (s.cur.ring ≠ 0#2 → first + n ≤ p.regs2.gzcount → ¬ busy →
       ∀ bs : Nat → List Byte, (∀ k, first ≤ k → k < first + n →
           s.loadBlock 64 (image + BitVec.ofNat 64 (64 * k)) 64 = .ok (bs k)) →
         let f := fun (k o m : Nat) => leNum (((bs k).drop o).take m)
         let good := fun (k : Nat) => f k 16 16 < 8 ∧ ((f k 16 4).testBit 2 = true →
           f k 0 8 % 2 ^ 28 = 0 ∧ f k 8 8 % 2 ^ 28 = 0 ∧ p.ownsPage (f k 0 8) = true ∧ p.ownsPage (f k 8 8) = true)
         let entry := fun (k : Nat) => GzEntry.mk (f k 0 8) (f k 8 8) (BitVec.ofNat 3 (f k 16 4))
           (BitVec.ofNat 128 (f k 32 16)) (BitVec.ofNat 128 (f k 48 16))
         ∃ u : State, u = { s with gz := u.gz, parts := u.parts } ∧
           (∀ q, u.part q = if q = s.cur.id.part then { p with regs :=
             { p.regs with vwbaseF := p.regs.vwbase, gzimageF := p.regs.gzimage } } else s.part q) ∧
           (∀ k, first ≤ k → k < first + n → good k → u.gzEntry (p.regs2.gzfirst + k) = entry k) ∧
           (∀ j, (∀ k, first ≤ k → k < first + n → good k → j ≠ p.regs2.gzfirst + k) → u.gzEntry j = s.gzEntry j) ∧
           ((∀ k, first ≤ k → k < first + n → good k) → Completes (.vtinv a b) s (Passed u)) ∧
           (∀ k, first ≤ k → k < first + n → ¬ good k → (∀ j, first ≤ j → j < k → good j) →
             Completes (.vtinv a b) s (fun t =>
               t = takeTrap u { cause := 0x30, addr := image + BitVec.ofNat 64 (64 * k) })))) ∧
  (∀ (s : State) (a b : BitVec 5), s.idle →
     let p := s.part s.cur.id.part
     let pages := (s.readS b).toNat
     (s.cur.ring = 0#2 → Completes (.ptinv a b) s (fun t => t = takeTrap s { cause := 0x01 })) ∧
     (s.cur.ring ≠ 0#2 → s.partPending = true → Completes (.ptinv a b) s (fun t => t = s.waits .other)) ∧
     (s.cur.ring ≠ 0#2 → s.partPending = false → Completes (.ptinv a b) s (fun t =>
       t = { s with parts := t.parts, cur := s.cur.past } ∧
       ∃ l, (pages ≠ 0 → ∀ e ∈ p.ptinv, e ∈ l) ∧ (∀ q, t.part q = if q = s.cur.id.part then
           { p with ptinv := l, regs := { p.regs with ptrootF := if pages = 0 then p.regs.ptroot else p.regs.ptrootF } }
         else s.part q) ∧
       ∀ va, pages = 0 ∨ ((s.readS a).toNat ≤ va ∧ va < (s.readS a).toNat + 4096 * pages) →
         s.mem.logLen ≤ (t.part s.cur.id.part).ptinvPos va 4096)))

/-! ## Vector configuration -/

/-- R145 to R150: SETVL takes the lane groups, the grant and the vl that its evaluation finds, writes vl to sD, and where the
grant changes clears the vector, predicate and multivector registers, fmask and vfirst. It waits where the evaluation finds
no lane group for a target of at least one, or, where the grant would change, while the E-side has earlier work; its share is
then the one that the evaluation found (R141, R148). -/
def Obligations.SetvlGrants : Prop :=
  ∀ (s : State) (d a b : BitVec 5), s.unframed →
    let core := s.cur.place.core
    let slot := s.cur.place.slot
    let c := s.core core
    let g := c.evaluate slot s.cur.conf.vtype (s.readS a).toNat (s.readS b).toNat
    Instr.setvlReevaluation core ∉ s.inputs → slot ∉ c.waiters →
    (g.waits = true → Completes (.setvl d a b) s (fun t =>
      ((t.core core).latOf slot).wait = true ∧ slot ∈ (t.core core).waiters ∧
      t.cur = { s.cur with prog := { s.cur.prog with wait := .retry (.setvl d a b) } })) ∧
    (g.waits = false → g.grant ≠ s.cur.conf.grant → s.cur.viq ≠ [] →
      Completes (.setvl d a b) s (fun t =>
        (t.core core).latOf slot = { (c.latOf slot) with share := g.share } ∧ (∀ k, k ≠ slot → (t.core core).latOf k = c.latOf k) ∧
        t.core core = { c with lat := (t.core core).lat } ∧ (∀ k, k ≠ core → t.core k = s.core k) ∧
        t = { s.waits .other with cores := t.cores })) ∧
    (g.waits = false → g.grant = s.cur.conf.grant ∨ s.cur.viq = [] →
      let same := g.grant = s.cur.conf.grant
      Completes (.setvl d a b) s (fun t =>
        t.readS d = (if d = 0#5 then 0#64 else BitVec.ofNat 64 g.vl) ∧ (∀ r, r ≠ d → t.readS r = s.readS r) ∧
        (t.core core).latOf slot = { (c.latOf slot) with
          map := g.map, share := g.share, pm := vtPm s.cur.conf.vtype && decide (g.grant ≠ 0), wait := false } ∧
        (∀ k, k ≠ slot → (t.core core).latOf k = c.latOf k) ∧ (∀ k, k ≠ core → t.core k = s.core k) ∧
        t = { s with
          cores := t.cores, inputs := t.inputs, timers := t.timers
          cur := { s.cur.past with
            s := t.cur.s
            vr := if same then s.cur.vr else ⟨[], [], [], []⟩
            conf := { s.cur.conf with
              vl := g.vl, grant := g.grant, fmask := if same then s.cur.conf.fmask else 0#4096 }
            user := { s.cur.user with vfirst := if same then s.cur.user.vfirst else 0#64 } } }))

/-- R143, R145, R146: what an evaluation of SETVL finds, from the formulas of the rules: the target, how many lane groups the
thread gives up or gains, which (under PM whole pairs of free groups, the lowest first), and the grant and vl that follow.

R143: the shares of the threads that hold or wait for lane groups and have a weight come to CEIL. -/
def Obligations.GrantEvaluation : Prop :=
  (∀ (c : Core) (t : Nat) (vt : BitVec 32) (avl sb : Nat), t < 4 →
     let g := c.evaluate t vt avl sb
     let k := if vtPm vt then 2 else 1
     let count := fun (m : BitVec 8) => (List.range 8).countP (fun i => m.getLsbD i)
     let held := count (c.latOf t).map
     let per := min (2048 / vtSew vt * vtLmul vt) 512
     let req := if sb = 0 then 8 else min sb 8
     let need := if avl = 0 then 0 else (avl + per - 1) / per
     let share := c.shareOf t
     let entitled := if vtPm vt then max (2 * (share / 2)) 2 else max share 1
     let target := min req (min need (entitled / k))
     let others := (((List.range 4).filter (fun u => u ≠ t)).map (fun u => count (c.latOf u).map)).sum
     let room := max (min (8 - others) (c.ceil - others)) (min k (8 - others))
     let wanted := if k * target ≤ held then k * target else max held (min (k * target) (k * (room / k)))
     let free := fun (i : Nat) => (List.range 4).all (fun u => !(c.latOf u).map.getLsbD i)
     (k * target ≤ held → count g.map = k * target ∧ (∀ i, g.map.getLsbD i = true → (c.latOf t).map.getLsbD i = true) ∧
       ∀ i j, (c.latOf t).map.getLsbD i = true → g.map.getLsbD i = false → g.map.getLsbD j = true → j < i) ∧
     (held < k * target → count g.map ≤ max held wanted ∧ (∀ i, (c.latOf t).map.getLsbD i = true → g.map.getLsbD i = true) ∧
       (∀ i, g.map.getLsbD i = true → (c.latOf t).map.getLsbD i = true ∨ free i = true) ∧
       (k = 1 → count g.map = min wanted (held + (List.range 8).countP free) ∧
         ∀ i j, i < 8 → free i = true → g.map.getLsbD i = false → g.map.getLsbD j = true → (c.latOf t).map.getLsbD j = false → j < i) ∧
       (k = 2 → ∀ i, i < 8 → g.map.getLsbD i = ((c.latOf t).map.getLsbD i ||
         (((List.range 4).filter (fun j => free (2 * j) && free (2 * j + 1))).take ((wanted - held) / 2)).contains (i / 2)))) ∧
     g.grant = count g.map / k ∧ g.vl = min avl (g.grant * per) ∧ g.share = share ∧
     (g.waits = true ↔ g.grant = 0 ∧ 1 ≤ target)) ∧
  (∀ c : Core,
     let S := (List.range 4).filter (fun u =>
       decide (0 < (c.latOf u).weight) && (decide (0 < (c.latOf u).held) || (c.latOf u).wait))
     S ≠ [] → (S.map c.shareOf).sum = c.ceil)

/-- R51, R52, R153, R154: SETTYPE and SETTYPEI write vtype and cut vl to the new largest length. A value with a reserved bit,
a pair of SEW and FMT that R52 does not list, or a change of PM with lane groups held raises ILLEGAL. -/
def Obligations.SetType : Prop :=
  ∀ (s : State) (d a : BitVec 5) (i : BitVec 20), s.idle →
    let c := s.cur.conf
    let sew := fun (v : BitVec 32) => match v.toNat % 8 with
      | 0 => 4 | 1 => 6 | 2 => 8 | 3 => 16 | 4 => 32 | _ => 64
    let pairs : List (Nat × Nat) := [(0, 0), (0, 2), (0, 3), (0, 4), (0, 5), (1, 0), (1, 2), (1, 3), (1, 4), (1, 5),
      (2, 3), (2, 4), (2, 5), (3, 3), (4, 2), (5, 2), (6, 1), (7, 0), (8, 5)]
    let good := fun (v : BitVec 32) => v.toNat / 2 ^ 22 = 0 ∧ (v.toNat / 8 % 16, v.toNat % 8) ∈ pairs ∧
      (v.getLsbD 19 = c.vtype.getLsbD 19 ∨ c.grant = 0)
    let cut := fun (v : BitVec 32) =>
      min c.vl (c.grant * min (2048 / sew v * 2 ^ (v.toNat / 2 ^ 7 % 4)) 512)
    let typed := fun (v : BitVec 32) => { c with vtype := v, vl := cut v }
    let v1 := (s.readS a).truncate 32
    let v2 := ((c.vtype >>> 20) <<< 20) ||| i.setWidth 32
    let illegal := fun (t : State) => t = takeTrap s { cause := 0x01 }
    ((s.readS a).toNat < 2 ^ 32 ∧ good v1 → Completes (.settype d a) s (fun t =>
      t.readS d = (if d = 0#5 then 0#64 else BitVec.ofNat 64 (cut v1)) ∧ (∀ r, r ≠ d → t.readS r = s.readS r) ∧
      t = { s with cur := { s.cur.past with s := t.cur.s, conf := typed v1 } })) ∧
    (¬ ((s.readS a).toNat < 2 ^ 32 ∧ good v1) → Completes (.settype d a) s illegal) ∧
    (good v2 → Completes (.settypei i) s (fun t => t = { s with cur := { s.cur.past with conf := typed v2 } })) ∧
    (¬ good v2 → Completes (.settypei i) s illegal)

/-! ## Contexts and launches -/

/-- R483: CTXSAVE writes the image of the thread to sA and its length to sD; CTXLOAD replaces the thread's ring-0 state by
the image at sA and writes 0, or changes nothing else and writes −1 where the grant or tgrant differs and −2 where the format
or a value in it does. Both raise ILLEGAL at ring 0 and MISALIGNED off a multiple of 1,024, and wait for matrix work of the thread;
CTXSAVE waits for its accesses too. The layout of the image, the cause MISALIGNED and these waits are the model's own (log 9). Reading an image back gives the thread that it was made of: every scalar, status, loop, dimension, queue,
token, vector, predicate and multivector register, fmask, the matrix state and the accumulator words. -/
def Obligations.ContextWords : Prop :=
  (∀ (s : State) (d a : BitVec 5), s.idle →
     let ea := s.readS a
     let traps := fun (i : Instr) (x : Trap) => Completes i s (fun t => t = takeTrap s x)
     let f := fun (bs : List Byte) (o n : Nat) => leNum ((bs.drop o).take n)
     let c := s.cur.conf
     let qn := s.cur.place.core / 4
     let row := 1024 * s.cur.place.rowBase
     (s.cur.ring = 0#2 → traps (.ctxsave d a) { cause := 0x01 } ∧ traps (.ctxload d a) { cause := 0x01 }) ∧
     (s.cur.ring ≠ 0#2 → ea.toNat % 1024 ≠ 0 →
       traps (.ctxsave d a) { cause := 0x03, addr := ea } ∧ traps (.ctxload d a) { cause := 0x03, addr := ea }) ∧
     (s.cur.ring ≠ 0#2 → ea.toNat % 1024 = 0 → s.matBusy = true → Completes (.ctxsave d a) s (fun t => t = s.waits .other) ∧
       Completes (.ctxload d a) s (fun t => t = s.waits .other)) ∧
     (s.cur.ring ≠ 0#2 → ea.toNat % 1024 = 0 → s.matBusy = false →
       let bs := imageBytes s.cur (s.tagsOf s.cur) (s.accOf s.cur)
       (∀ pas, s.place .write 8 ea bs.length = .ok pas →
         Completes (.ctxsave d a) s (Stored pas bs d (BitVec.ofNat 64 bs.length) 0 s)) ∧
       ∀ hd, s.loadBlock 8 ea 64 = .ok hd →
         let fits := f hd 1 1 = c.grant ∧ f hd 2 1 = c.tgrant
         let known := f hd 0 1 = Config.format.toNat
         (¬ fits → Completes (.ctxload d a) s (Wrote d (-1#64) s)) ∧
         (fits → ¬ known → Completes (.ctxload d a) s (Wrote d (-2#64) s)) ∧
         (fits → known → ∀ im, s.loadBlock 8 ea (f hd 20 4) = .ok im →
           let body := readImage (imageWords im)
           (body = none → Completes (.ctxload d a) s (Wrote d (-2#64) s)) ∧
           (∀ x, body = some x → x.good c.grant (c.vtype.getLsbD 19) = false →
             Completes (.ctxload d a) s (Wrote d (-2#64) s)) ∧
           (∀ x, body = some x → x.good c.grant (c.vtype.getLsbD 19) = true →
             let h := { s.cur with
               s := x.s, user := x.user, loops := x.loops, dims := x.dims, mat := x.mat, q := x.q, tok := x.tok
               viq := x.viq.map (fun (e : VEntry) => e.onHeld (fun y => { y with stamp := s.fresh }))
               vr := x.vr
               conf := { c with vtype := x.vtype, vl := x.vl, counters := x.counters, fmask := x.fmask } }
             Completes (.ctxload d a) s (fun t =>
               t.readS d = 0#64 ∧ (∀ r, r ≠ d → t.readS r = h.readS r) ∧
               (∀ q, q ≠ qn → t.quad q = s.quad q) ∧ t.quad qn = { s.quad qn with acc := (t.quad qn).acc } ∧
               (∀ j, Table.get (t.quad qn).acc 0#32 j =
                 if row ≤ j ∧ j < row + 1024 * c.tgrant then Table.get x.acc 0#32 (j - row) else Table.get (s.quad qn).acc 0#32 j) ∧
               t = { s with
                 quads := t.quads
                 cmds := s.cmds.map (fun k => if k.thread = s.cur.id then { k with ahead := 0 } else k)
                 cur := { h.past with s := t.cur.s } }))))) ∧
  (∀ (s : State) (d a : BitVec 5), s.free → s.cur.ring ≠ 0#2 → (s.readS a).toNat % 1024 = 0 →
     (∃ e ∈ s.cur.viq, e.holds ≠ none ∨ ∃ id regs, e = .reply id regs) → Completes (.ctxsave d a) s (fun t => t = s.waits .other)) ∧
  ∀ (t : Thread) (tags : List Nat) (acc : Table (BitVec 32)), t.saveable acc →
    let bs := imageBytes t tags acc
    let f := fun (o n : Nat) => leNum ((bs.drop o).take n)
    bs.length < 2 ^ 32 →
    f 0 1 = Config.format.toNat ∧ f 1 1 = t.conf.grant ∧ f 2 1 = t.conf.tgrant ∧ f 20 4 = bs.length ∧
    ∃ x, readImage (imageWords bs) = some x ∧
      (∀ r, 1 ≤ r → Table.get x.s 0#64 r = Table.get t.s 0#64 r) ∧ Table.get x.s 0#64 0 = 0#64 ∧
      x.user = t.user ∧ x.loops = t.loops ∧ x.dims = t.dims ∧ x.vtype = t.conf.vtype ∧ x.vl = t.conf.vl ∧
      (∀ k, Table.get x.counters 0 k = Table.get t.conf.counters 0 k) ∧ x.fmask = t.conf.fmask ∧ x.mat = t.mat ∧
      (∀ k < 8, Table.get x.q [] k = t.queue k) ∧ x.tok = t.tok ∧ x.viq = t.viq ∧
      (∀ n < 32, x.vr.vreg n = t.vr.vreg n ∧ x.vr.preg n = t.vr.preg n ∧ x.vr.mreg n = t.vr.mreg n) ∧
      ∀ k, Table.get x.acc 0#32 k = Table.get acc 0#32 k

/-- R416 to R418, R420: LAUNCH reads the packet at sA and writes −1 where a field is out of range; otherwise it is accepted
under the partition's next launch id, which goes to sD, and joins the queue of its priority; while there is no room it
waits. R421, R422: LSTAT writes the status word of a launch, and LWAIT waits while the launch, not the thread's own, has
no final state.

R263, R264, R427, R430, R431: END frees the thread's slot, its lane groups, its stack and, where it is the last of its
launch on the core, the tables of the claim group, and counts it in its launch; it waits while matrix work of its rows is
left; its accumulator rows hold no data then (R389). YIELD only passes unless a record of the same or a higher priority waits
for the core and the thread can be pre-empted, for which it is, behind the launches accepted so far. -/
def Obligations.LaunchEndYield : Prop :=
  (∀ (s : State) (d a : BitVec 5), s.idle →
     let ea := s.readS a
     let pn := s.cur.id.part
     let p := s.part pn
     let lid := p.nextLid
     (∀ bs, s.loadBlock 64 ea 128 = .ok bs →
       let f := fun (o n : Nat) => leNum ((bs.drop o).take n)
       let w := fun (o : Nat) => BitVec.ofNat 64 (f o 8)
       let good := f 0 8 % 64 = 0 ∧ f 32 1 ≤ 7 ∧ f 33 1 ≤ 4 ∧ f 34 2 < 4 ∧ f 36 1 ≤ 15 ∧ f 37 1 ≤ 15 ∧ f 38 2 = 0 ∧
         f 56 8 = 0 ∧ f 112 16 = 0
       let k := Packet.mk ea (w 0) (w 8) (w 16) (w 24) (f 32 1) (f 33 1) ((f 34 2).testBit 0) ((f 34 2).testBit 1) (f 36 1)
         (f 37 1) (w 40) (w 48) [w 64, w 72, w 80, w 88, w 96, w 104]
       let queue := Table.get p.queues [] k.prio
       let open_ := p.launches.filter (fun e => !e.2.state.final)
       let room := queue.length < 256 ∧ open_.length < 4096
       (¬ good → Completes (.launch d a) s (Wrote d (-1#64) s)) ∧
       (good → ¬ room → Completes (.launch d a) s (fun t => t = s.waits .other)) ∧
       (good → room → Completes (.launch d a) s (fun t =>
         t.readS d = (if d = 0#5 then 0#64 else BitVec.ofNat 64 lid) ∧ (∀ r, r ≠ d → t.readS r = s.readS r) ∧
         (∀ q, q ≠ pn → t.part q = s.part q) ∧
         t.part pn = { p with
           nextLid := lid + 1, launches := (t.part pn).launches, queues := (t.part pn).queues } ∧
         (t.part pn).launches = p.launches.filter (fun e => !e.2.state.final || e.2.owes || decide (lid < e.1 + 65536)) ++
           [(lid, ⟨some s.cur.id, k, none, .queued, 0, false, false, false, 0, 0, []⟩)] ∧
         (∀ q, Table.get (t.part pn).queues [] q = if q = k.prio then queue ++ [lid] else Table.get p.queues [] q) ∧
         t = { s with
           parts := t.parts, inputs := s.inputs ++ [.partitionUnitTake pn], cur := { s.cur.past with s := t.cur.s } }))) ∧
     (let n := (s.readS a).toNat
      let entry := p.launches.find? (fun e => e.1 == n)
      let code := fun (x : LState) =>
        match x with
        | .queued => 1 | .parked => 2 | .running => 3 | .complete => 4 | .rejected => 5 | .gateFailed => 6 | .gateFaulted => 7
      let word := match entry with
        | some e => if n + 65536 < lid then 0#64 else BitVec.ofNat 64 (code e.2.state + (if e.2.cfail then 32 else 0) +
            256 * e.2.reason + 65536 * (e.2.ended % 2 ^ 32))
        | none => 0#64
      let pending := n ≠ s.cur.id.lid ∧ lid ≤ n + 65536 ∧ ∃ e, entry = some e ∧ e.2.state.final = false
      Completes (.lstat d a) s (Wrote d word s) ∧
      (pending → Completes (.lwait d a) s (fun t => t = s.waits .other)) ∧
      (¬ pending → Completes (.lwait d a) s (Wrote d word s)))) ∧
  (∀ s : State, s.idle → s.active = true →
     let id := s.cur.id
     let core := s.cur.place.core
     let slot := s.cur.place.slot
     let busy := 0 < s.cur.conf.tgrant ∧ s.matBusy = true
     let p := s.part id.part
     let last := ∀ u ∈ s.others, u.id ≠ id → ¬ (u.id.part = id.part ∧ u.id.lid = id.lid ∧ u.place.core = core)
     let qn := core / 4
     let row := 1024 * s.cur.place.rowBase
     let mine := fun (j : Nat) => row ≤ j ∧ j < row + 1024 * s.cur.conf.tgrant
     (busy → Completes .endThread s (fun t => t = s.waits .other)) ∧
     (¬ busy → Completes .endThread s (fun t =>
       t.cur = Thread.reset ∧ t.active = false ∧ t.others = s.others.filter (fun u => u.id ≠ id) ∧
       (t.core core).latOf slot = ⟨0, 0, 0, false, false⟩ ∧ slot ∉ (t.core core).waiters ∧
       (∀ k, k ≠ slot → (t.core core).latOf k = (s.core core).latOf k) ∧
       (last → ∀ n x, (t.core core).table n = some x → ¬ (x.part = id.part ∧ x.lid = id.lid)) ∧
       (∀ n x, (s.core core).table n = some x →
         (∀ y, (n, some y) ∈ (s.core core).tables → ¬ (y.part = id.part ∧ y.lid = id.lid)) →
         (t.core core).table n = some x) ∧
       (∀ k, k ≠ core → t.core k = s.core k) ∧
       (∀ q, t.part q = if q = id.part then { p with
           stackSlots := match s.cur.place.stack with
             | some k => p.stackSlots.filter (fun x => x ≠ k)
             | none => p.stackSlots
           launches := p.launches.map (fun e => if e.1 = id.lid then
             (e.1, { e.2 with ended := e.2.ended + 1, ranksEnded := e.2.ranksEnded ++ [id.rank] }) else e) }
         else s.part q) ∧
       (∀ q, q ≠ qn → t.quad q = s.quad q) ∧ t.quad qn = { s.quad qn with acc := (t.quad qn).acc } ∧
       (∀ j, (mine j → Table.get (t.quad qn).acc 0#32 j = 0#32) ∧
         (¬ mine j → Table.get (t.quad qn).acc 0#32 j = Table.get (s.quad qn).acc 0#32 j)) ∧
       t = { s with
         cur := t.cur, active := false, others := t.others, cores := t.cores, quads := t.quads, parts := t.parts
         inputs := t.inputs, timers := t.timers })) ∧
     (s.waiterHere = false → Completes .yield s (Passed s)) ∧
     (s.waiterHere = true → s.mayPreempt id = false → Completes .yield s (Passed s)) ∧
     (s.waiterHere = true → s.mayPreempt id = true →
       Completes .yield s (fun t => ∃ u, Passed s u ∧ t = u.preempt id (some p.nextLid))))

/-- R434 to R437, R420: LAUNCHC at a node that is not active reads its descriptor and its template, and writes −3 where one
of them is not valid and −2 where 64 nodes are active. At an active node it writes −1 where the next slot belongs to a
batch that has not ended; otherwise sB goes to the next slot of the buffer, whose number goes to sD, and the record joins the open
batch, or begins one, whose flush is then timed. The open batch is launched before that where the slots wrap, and after it where
it holds the threshold: the template with EXT0 the number of its records and ARG0 the place of the first, under the partition's next
launch id, in the queue of its priority, with no accepter; its flush is called off. For that LAUNCHC waits for room. -/
def Obligations.CoalescingLaunch : Prop :=
  ∀ (s : State) (d a b : BitVec 5), s.idle →
    let ea := s.readS a
    let pn := s.cur.id.part
    let p := s.part pn
    let nodes := s.nodesOf pn
    let ended := fun (x : Batch) => ∃ l, x.lid = some l ∧ ∀ y, p.launch l = some y → y.state.final = true
    let flush := Instr.nodeFlush pn ea.toNat
    let takes := fun (n : Node) (lid : Nat) =>
      { n with batches := n.batches.map (fun x => if x.lid = none then { x with lid := some lid } else x) }
    let put := fun (v : State) (n : Node) => v.setObjs pn { v.objs pn with
      nodes := (v.nodesOf pn).filter (fun x => x.desc != n.desc) ++ [n] }
    let launched := fun (v : State) (n : Node) =>
      match n.batches.find? (fun x => x.lid.isNone) with
      | none => v
      | some x =>
        let q := v.part pn
        let lid := q.nextLid
        let k := { n.packet with
          ext0 := BitVec.ofNat 64 x.count, args := (n.buf + BitVec.ofNat 64 (8 * x.start)) :: n.packet.args.tail }
        let w := put (v.setPart pn { q with
          nextLid := lid + 1
          launches := q.launches.filter (fun e => !e.2.state.final || e.2.owes || decide (lid < e.1 + 65536)) ++
            [(lid, { accepter := none, packet := k, legend := none, state := .queued, reason := 0, cfail := false,
                     passed := false, owes := false, total := 0, ended := 0, ranksEnded := [] })]
          queues := Table.set q.queues [] k.prio (Table.get q.queues [] k.prio ++ [lid]) }) (takes n lid)
        { w with
          inputs := (v.inputs ++ [Instr.partitionUnitTake pn]).filter (fun e => e ≠ flush)
          timers := w.timers.filter (fun e => e ≠ flush) }
    let at_ := fun (n : Node) =>
      let i := if n.next = n.cap then 0 else n.next
      let held := ∃ x ∈ n.batches, x.start ≤ i ∧ i < x.start + x.count ∧ ¬ ended x
      let opened := n.batches.find? (fun x => x.lid.isNone)
      let wrap := i = 0 ∧ opened.isSome = true
      let sofar := if wrap then 0 else (opened.map (fun x => x.count)).getD 0
      let due := (if wrap then 1 else 0) + (if n.thresh ≤ sofar + 1 then 1 else 0)
      let room := due = 0 ∨ ((Table.get p.queues [] n.packet.prio).length + due ≤ 256 ∧
        (p.launches.filter (fun e => !e.2.state.final)).length + due ≤ 4096)
      (held → Completes (.launchc d a b) s (Wrote d (-1#64) s)) ∧
      (¬ held → ¬ room → Completes (.launchc d a b) s (fun t => t = s.waits .other)) ∧
      (¬ held → room → ∀ pas, s.place .write 8 (n.buf + BitVec.ofNat 64 (8 * i)) 8 = .ok pas →
        Completes (.launchc d a b) s (fun t =>
          let v0 : State := { s with mem := s.mem.writeAll s.writer (pas.zip (leBytes 8 (s.readS b).toNat)) }
          let v1 := if wrap then launched v0 n else v0
          let n1 := if wrap then takes n p.nextLid else n
          let n2 := match n1.batches.find? (fun x => x.lid.isNone) with
            | some _ => { n1 with
                next := i + 1, batches := n1.batches.map (fun x => if x.lid = none then { x with count := x.count + 1 } else x) }
            | none => { n1 with next := i + 1, batches := n1.batches ++ [⟨i, 1, none⟩], parent := s.cur.id.lid }
          let v2 := put v1 n2
          let v3 : State := { v2 with
            timers := if ∃ x ∈ n1.batches, x.lid = none then v2.timers else v2.timers ++ [flush] }
          let v4 := if n.thresh ≤ sofar + 1 then launched v3 n2 else v3
          t.readS d = (if d = 0#5 then 0#64 else BitVec.ofNat 64 i) ∧ (∀ r, r ≠ d → t.readS r = s.readS r) ∧
          t = { v4 with cur := { s.cur.past with s := t.cur.s } }))
    (∀ n, nodes.find? (fun x => x.desc == ea) = some n → at_ n) ∧
    ((∀ n ∈ nodes, n.desc ≠ ea) → ∀ bs, s.loadBlock 64 ea 64 = .ok bs →
      let f := fun (o n : Nat) => leNum ((bs.drop o).take n)
      let tp := BitVec.ofNat 64 (f 0 8)
      ∀ ts, s.loadBlock 64 tp 128 = .ok ts →
        let good := f 8 8 % 8 = 0 ∧ 1 ≤ f 16 4 ∧ f 16 4 ≤ 65536 ∧ 1 ≤ f 20 4 ∧ f 20 4 ≤ f 16 4 ∧ 4096 ≤ f 24 4 ∧
          f 24 4 ≤ 1048576 ∧ f 28 36 = 0
        (¬ good ∨ packetParse tp ts = none → Completes (.launchc d a b) s (Wrote d (-3#64) s)) ∧
        (∀ k, good → packetParse tp ts = some k →
          (64 ≤ nodes.length → Completes (.launchc d a b) s (Wrote d (-2#64) s)) ∧
          (nodes.length < 64 → at_ ⟨ea, k, BitVec.ofNat 64 (f 8 8), f 16 4, f 20 4, f 24 4, 0, [], 0⟩)))

/-! ## Hash tables -/

/-- R266 to R269, R283 to R287: HCLAIM claims the table that its descriptor asks for, or writes −1 where the descriptor is
not valid, no such number is free or the charge has no room; HFREE releases a table of the claim group and HSTAT writes
its status word, 0 where the group does not hold it. HDRAIN writes the next records of the drain to OUT and the new cursor
to the descriptor, and with CLR empties the table at the end. HFREE and HDRAIN of a table that the group does not hold
raise ILLEGAL.

R273 to R277, R280, R281: the HOP words on a table of the claim group. The distinct keys of the active elements are taken
in the order of their lowest elements, each with HRun.key (whose effects are those of HashKeys); the slots, the predicate
PG, the values that HPRB writes to vD, the flags, and the records appended to the spill log are what that leaves. With
ACTION 1 and no room for every record nothing is done and HASH_SPILL_FULL is raised; with ACTION 0 a record without room
is dropped and SFULL is set. A table that the group does not hold, an element width that is not the key's, arithmetic on
plain 128-bit values, or a destination of HPRB that overlaps its keys raises ILLEGAL.

HSTAT of a table that the group does not hold, as after HFREE, gives 0 as R283 says, though the last sentence of R284 has every word
on it raise ILLEGAL, and the flags of a record that is dropped count: both are the model's readings (log 18). -/
def Obligations.HashWords : Prop :=
  (∀ (s : State) (d a b : BitVec 5), s.idle →
     let c := s.core s.cur.place.core
     let id := s.cur.id
     let mine := fun (n : Nat) (x : HTable) => c.table n = some x ∧ x.part = id.part ∧ x.lid = id.lid
     let bit := fun (x : Bool) => if x then 1 else 0
     let nat := BitVec.ofNat 64
     let illegal := fun (i : Instr) => Completes i s (fun t => t = takeTrap s { cause := 0x01 })
     (∀ bs, s.loadBlock 32 (s.readS a) 32 = .ok bs →
       let f := fun (o n : Nat) => leNum ((bs.drop o).take n)
       let valid := 2 ≤ f 0 1 ∧ f 0 1 ≤ 13 ∧ f 1 1 ≤ 2 ∧ f 2 1 ≤ 2 ∧ (f 1 1 = 2 → f 2 1 = 2) ∧ f 3 1 ≤ 1 ∧
         (f 4 1 ≤ 3 ∨ f 4 1 = 255) ∧ f 5 3 = 0 ∧ f 28 4 = 0 ∧ f 16 8 % 32 = 0 ∧ f 16 8 < 2 ^ 52 ∧ f 24 4 ≤ 16777215
       let charge := 64 * max (2 ^ f 0 1) 8
       let fits := c.charges (fun _ => true) + charge ≤ 524288 ∧
         c.charges (fun x => decide (x.part = id.part) && decide (x.lid = id.lid)) + charge ≤ 1024 * s.hashKb
       let takes := fun (n : Nat) => n < 4 ∧ c.table n = none ∧
         (f 4 1 = n ∨ (f 4 1 = 255 ∧ ∀ j < n, c.table j ≠ none))
       (∀ n, valid → fits → takes n → Completes (.hclaim d a) s (fun t =>
         t.readS d = (if d = 0#5 then 0#64 else nat n) ∧ (∀ r, r ≠ d → t.readS r = s.readS r) ∧
         (t.core s.cur.place.core).table n = some ⟨id.part, id.lid, f 0 1, f 1 1, f 2 1, f 3 1, nat (f 8 8), nat (f 16 8),
           f 24 4, [], 0, false, false⟩ ∧
         (∀ j, j ≠ n → (t.core s.cur.place.core).table j = c.table j) ∧
         (∀ k, Table.get (t.core s.cur.place.core).spad 0#8 k =
           if k % 131072 < (t.core s.cur.place.core).spadSize then Table.get c.spad 0#8 k else 0#8) ∧
         t.core s.cur.place.core = { c with
           tables := (t.core s.cur.place.core).tables, spad := (t.core s.cur.place.core).spad } ∧
         (∀ k, k ≠ s.cur.place.core → t.core k = s.core k) ∧
         t = { s with cores := t.cores, cur := { s.cur.past with s := t.cur.s } })) ∧
       ((valid → fits → ∀ n, ¬ takes n) → Completes (.hclaim d a) s (Wrote d (-1#64) s))) ∧
     ((∀ x, ¬ mine b.toNat x) → illegal (.hfree b) ∧ illegal (.hdrain d a b) ∧ Completes (.hstat d b) s (Wrote d 0#64 s)) ∧
     (∀ x, mine b.toNat x →
       let live := x.slots.filterMap (fun e =>
         match e.2 with
         | .live k v => some (e.1 / 8, k, v)
         | _ => none)
       Completes (.hstat d b) s (Wrote d (nat (1 + 2 * bit x.spilled + 4 * bit x.sfull + 8 * x.action + 16 * x.vfmt +
         64 * x.layout + 65536 * x.b + 2 ^ 20 * live.length + 2 ^ 40 * x.scnt)) s) ∧
       Completes (.hfree b) s (fun t =>
         (t.core s.cur.place.core).table b.toNat = none ∧
         (∀ j, j ≠ b.toNat → (t.core s.cur.place.core).table j = c.table j) ∧
         t.core s.cur.place.core = { c with tables := (t.core s.cur.place.core).tables } ∧
         (∀ k, k ≠ s.cur.place.core → t.core k = s.core k) ∧
         t = { s with cores := t.cores, inputs := t.inputs, cur := s.cur.past }) ∧
       ∀ bs, s.loadBlock 32 (s.readS a) 32 = .ok bs →
         let f := fun (o n : Nat) => leNum ((bs.drop o).take n)
         let st := f 12 4
         let phase := st / 2 ^ 30
         let bad := f 0 8 % 32 ≠ 0 ∨ f 8 4 = 0 ∨ 2048 < f 8 4 ∨ st / 2 ^ 13 % 2 ^ 16 ≠ 0
         let l := drainList x phase (st % 2 ^ 13) (nat (f 16 8)) (f 24 8)
         let k := min (f 8 4) l.length
         let done := k = l.length
         let now := l.take k
         (bad → Completes (.hdrain d a b) s (Wrote d (-1#64) s)) ∧
         (¬ bad → phase = 3 → Completes (.hdrain d a b) s (Wrote d 0#64 s)) ∧
         (¬ bad → phase ≠ 3 → ∀ pas data dpas, s.place .write 32 (nat (f 0 8)) (32 * k) = .ok pas →
           s.drainAllBytes x b.toNat now = .ok data → s.place .write 32 (s.readS a) 32 = .ok dpas →
           let cursor := if done then (3, 0, 0, x.scnt) else
             match now.getLast? with
             | some (.spill j) => (2, st % 2 ^ 13, f 16 8, j + 1)
             | some (.entry bk key _) => (1, bk, key.toNat, f 24 8)
             | none => (1, st % 2 ^ 13, f 16 8, f 24 8)
           let desc := leBytes 8 (f 0 8 + 32 * k) ++ leBytes 4 (f 8 4) ++
             leBytes 4 (cursor.2.1 + 2 ^ 29 * bit (st.testBit 29) + 2 ^ 30 * cursor.1) ++ leBytes 8 cursor.2.2.1 ++
             leBytes 8 cursor.2.2.2
           Completes (.hdrain d a b) s (fun t =>
             t.readS d = (if d = 0#5 then 0#64 else nat k) ∧ (∀ r, r ≠ d → t.readS r = s.readS r) ∧
             t.mem = (s.mem.writeAll s.writer (pas.zip data)).writeAll s.writer (dpas.zip desc) ∧
             (t.core s.cur.place.core).table b.toNat = some (if done ∧ st.testBit 29 = true then
               { x with slots := [], scnt := 0, spilled := false, sfull := false } else x) ∧
             (∀ j, j ≠ b.toNat → (t.core s.cur.place.core).table j = c.table j) ∧
             t.core s.cur.place.core = { c with tables := (t.core s.cur.place.core).tables } ∧
             (∀ k, k ≠ s.cur.place.core → t.core k = s.core k) ∧
             t = { s with mem := t.mem, cores := t.cores, cur := { s.cur.past with s := t.cur.s } })))) ∧
  (∀ (s : State) (d a b g : BitVec 5) (n : BitVec 2), s.idle →
     let c := s.core s.cur.place.core
     let id := s.cur.id
     let k := s.cur.conf.grant
     let w := vtSew s.cur.conf.vtype
     let lm := vtLmul s.cur.conf.vtype
     let is := (List.range s.cur.conf.vl).filter (fun i => (s.cur.vr.preg g.toNat).getLsbD i)
     let keys := keysOf (fun i => BitVec.ofNat 64 (s.cur.vr.elem k w a.toNat i)) is
     let illegal := fun (i : Instr) => Completes i s (fun t => t = takeTrap s { cause := 0x01 })
     let out := fun (i : Instr) (kind : HTable → HKind) (arith probe : Bool) (x : HTable) =>
       let val := fun (j : Nat) => BitVec.ofNat 128 (s.cur.vr.elem k w b.toNat j +
         (if x.layout = 2 then 2 ^ 64 * s.cur.vr.elem k w ((b.toNat + lm) % 32) j else 0))
       let regs := fun (r : Nat) => (List.range lm).map (fun j => (r + j) % 32)
       let dst := if probe then regs d.toNat ++ (if x.layout = 2 then regs ((d.toNat + lm) % 32) else []) else []
       let good := w = (if x.layout = 0 then 32 else 64) ∧ (arith = true → x.vfmt ≠ 2) ∧
         (∀ r ∈ dst, r ∉ regs a.toNat)
       let start : HRun := ⟨x.slots, [], [], [], 0, false⟩
       let run := fun (room : Nat) =>
         keys.foldl (fun r e => r.key x n.toNat (kind x) (if probe then fun _ => 0 else val) room e.1 e.2) start
       let room := x.scap - x.scnt
       let r := run room
       (¬ good → illegal i) ∧
       (good → x.action = 1 → room < (run (2 ^ 64)).recs.length →
         Completes i s (fun t => ∃ u, t = takeTrap u { cause := 0x11 } ∧ u = { s with cores := u.cores } ∧
           (∀ j, j ≠ n.toNat → (u.core s.cur.place.core).table j = c.table j) ∧
           (∀ j, j ≠ s.cur.place.core → u.core j = s.core j) ∧ (u.core s.cur.place.core).table n.toNat = some { x with sfull := true })) ∧
       (good → (x.action = 1 → (run (2 ^ 64)).recs.length ≤ room) → ∀ pas,
         s.place .write 32 (x.sbase + BitVec.ofNat 64 (32 * x.scnt)) (32 * r.recs.length) = .ok pas →
         Completes i s (fun t =>
           t.mem = s.mem.writeAll s.writer (pas.zip r.recs.flatten) ∧
           (t.core s.cur.place.core).table n.toNat = some { x with
             slots := r.slots, scnt := x.scnt + r.recs.length
             spilled := x.spilled || decide (0 < r.recs.length), sfull := x.sfull || r.full } ∧
           (∀ j, j ≠ n.toNat → (t.core s.cur.place.core).table j = c.table j) ∧
           t.core s.cur.place.core = { c with tables := (t.core s.cur.place.core).tables } ∧
           (∀ j, j ≠ s.cur.place.core → t.core j = s.core j) ∧
           t = { s with
             mem := t.mem, cores := t.cores
             cur := { s.cur.past with
               user := { s.cur.user with fflags := s.cur.user.fflags ||| BitVec.ofNat 64 r.fl }
               vr := s.cur.vr.applyAll (predWrite g.toNat r.bits ++
                 groupWrites k w d.toNat (if probe then r.vals.map (fun e => (e.1, e.2.toNat % 2 ^ w)) else []) ++
                 groupWrites k w ((d.toNat + lm) % 32)
                   (if probe ∧ x.layout = 2 then r.vals.map (fun e => (e.1, e.2.toNat / 2 ^ 64 % 2 ^ 64)) else [])) } }))
     ((∀ x, c.table n.toNat = some x → ¬ (x.part = id.part ∧ x.lid = id.lid)) →
       illegal (.hins a b g n) ∧ illegal (.hprb d a g n) ∧ illegal (.hdel a g n) ∧ illegal (.hacc a b g n) ∧
       illegal (.hamin a b g n) ∧ illegal (.hamax a b g n) ∧ illegal (.hupd a b g n)) ∧
     (∀ x, c.table n.toNat = some x → x.part = id.part → x.lid = id.lid →
       out (.hins a b g n) (fun _ => .ins) false false x ∧ out (.hprb d a g n) (fun _ => .prb) false true x ∧
       out (.hdel a g n) (fun _ => .del) false false x ∧
       out (.hacc a b g n) (fun y => .comb 3 (combAdd y)) true false x ∧
       out (.hamin a b g n) (fun y => .comb 4 (combCmp false y)) true false x ∧
       out (.hamax a b g n) (fun y => .comb 5 (combCmp true y)) true false x ∧
       out (.hupd a b g n) (fun _ => .upd) false false x))

/-- R272, R276, R277, R280: what one key of a HOP does. window is the key's probe window; a key is on chip in the slot of the
window that holds it, and goes to the first slot of the window that holds none. Where it must go on chip and the window is
full it becomes a record of the spill log, as long as room is left. The combining words fold the values of the key's elements,
the lowest first, and then the value in the table; the flags of the fold count even where its record has no room (the
model's reading, log 18). -/
def Obligations.HashKeys : Prop :=
  ∀ (r : HRun) (t : HTable) (n : Nat) (val : Nat → BitVec 128) (room : Nat) (key : Word) (i : Nat) (es : List Nat),
    let w := t.window key
    let at_ := fun (m : Table HSlot) (j : Nat) => Table.get m HSlot.empty j
    let here := fun (j : Nat) (v : BitVec 128) => j ∈ w ∧ at_ r.slots j = .live key v ∧
      ∀ q ∈ w, (∃ u, at_ r.slots q = .live key u) → w.idxOf j ≤ w.idxOf q
    let absent := ∀ j ∈ w, ∀ v, at_ r.slots j ≠ .live key v
    let vacant := fun (j : Nat) => ∀ k v, at_ r.slots j ≠ .live k v
    let first := fun (j : Nat) => j ∈ w ∧ vacant j ∧ ∀ q ∈ w, vacant q → w.idxOf j ≤ w.idxOf q
    let full := ∀ j ∈ w, ¬ vacant j
    let all := fun (b : Bool) => (i :: es).map (fun e => (e, b))
    let only := (i, true) :: es.map (fun e => (e, false))
    let rec_ := fun (v : BitVec 128) (kind : Nat) =>
      leBytes 8 key.toNat ++ leBytes 16 v.toNat ++ leBytes 1 kind ++ leBytes 1 n ++ leBytes 6 0
    let run := fun (k : HKind) => r.key t n k val room key (i :: es)
    let last := val ((i :: es).getLastD 0)
    let wrote := fun (x : HRun) (j : Nat) (v : HSlot) (bits : List (Nat × Bool)) (fl : Nat) =>
      (∀ q, at_ x.slots q = if q = j then v else at_ r.slots q) ∧
      x = { r with slots := x.slots, bits := r.bits ++ bits, fl := r.fl ||| fl }
    let spilt := fun (x : HRun) (v : BitVec 128) (kind : Nat) (bits : List (Nat × Bool)) (fl : Nat) =>
      x = if r.recs.length < room then
          { r with recs := r.recs ++ [rec_ v kind], bits := r.bits ++ bits, fl := r.fl ||| fl }
        else { r with bits := r.bits ++ all false, fl := r.fl ||| fl, full := true }
    (∀ j v, here j v →
      run .ins = { r with bits := r.bits ++ all false } ∧
      run .prb = { r with bits := r.bits ++ all true, vals := r.vals ++ (i :: es).map (fun e => (e, v)) } ∧
      wrote (run .del) j .tombstone only 0 ∧ wrote (run .upd) j (.live key last) (all true) 0) ∧
    (absent → run .prb = { r with bits := r.bits ++ all false }) ∧
    (∀ j, absent → first j →
      wrote (run .ins) j (.live key (val i)) only 0 ∧ run .del = { r with bits := r.bits ++ all false } ∧
      wrote (run .upd) j (.live key last) (all true) 0) ∧
    (absent → full → spilt (run .ins) (val i) 1 only 0 ∧ spilt (run .del) 0 2 only 0 ∧ spilt (run .upd) last 6 (all true) 0) ∧
    (∀ (kind : Nat) (f : BitVec 128 → BitVec 128 → Fl Nat),
      let x := es.foldl (fun (a : BitVec 128 × Nat) e =>
        (BitVec.ofNat 128 (f a.1 (val e)).val, a.2 ||| (f a.1 (val e)).fl)) (val i, 0)
      (∀ j v, here j v → wrote (run (.comb kind f)) j (.live key (BitVec.ofNat 128 (f v x.1).val)) (all true)
        (x.2 ||| (f v x.1).fl)) ∧
      (∀ j, absent → first j → wrote (run (.comb kind f)) j (.live key x.1) (all true) x.2) ∧
      (absent → full → spilt (run (.comb kind f)) x.1 kind (all true) x.2))

/-! ## Staged objects -/

/-- R300 to R303, R305, R306, R308, R309: LDT, STT, TXN and STQRY on the object of a bound class that holds the address. A state
with no entry raises STAGED_BADSTATE; an access outside every class, one that a legal entry does not allow, or one whose
entry says so raises STAGED_ILLEGAL; a failed one changes stst alone; a parked one waits in the object's queue, or where
the unit is full is sent again; a legal one performs its data access, then writes the next state, its result and stst, and
where its entry has WAKE hands the object on to its waiters (State.handOff, whose effects StagedHandOff gives). While an
engine owns a line of the object or of the data it waits (R23); a poisoned state byte, or poisoned bytes that LDT would read, raise
MACHINE_CHECK (R493), and the object's state stays, in a hand-off too (the model's reading, log 18).

R303, R305, R493: the hand-off of an object to its waiters. The first of them is evaluated against the state as it stands: one
whose entry parks stays, and the hand-off ends; any other leaves the queue. A legal access is performed and its word completes,
and the hand-off goes on only where its entry has WAKE; a failed one completes with FAIL in stst; one that faults waits to
take its trap; and the hand-off goes on. A gate passes, fails or faults instead.

R294, R296 to R299: STLOAD loads an automaton, and writes 2 where the image or its counts are not valid, 1 where an object
of a class of the slot has a waiter, else 0. STBIND binds a class with every state byte set, and writes its number, or −1
where the descriptor is not valid, its state number has no row, a range leaves the window or meets another, or no such
number is free. STUNBIND unbinds a class, and writes −1 where none is bound, 1 while it has a waiter, else 0. -/
def Obligations.StagedAccess : Prop :=
  (∀ (s : State) (c : BitVec 4) (d a : BitVec 5) (z : BitVec 2), s.idle → s.active = true →
     let ea := s.readS a
     let id := s.cur.id
     let o := s.objs id.part
     let traps := fun (i : Instr) (x : Trap) => Completes i s (fun t => t = takeTrap s x)
     let badByte := fun (e : Nat) (ad : Word) =>
       ({ cause := e, addr := ad, batch := if e = 0x05 then [ad.toNat / 2 ^ 21 * 2 ^ 21] else [] } : Trap)
     let elsewhere := fun (t : State) =>
       t.others.filter (fun u => u.id ≠ id) = s.others.filter (fun u => u.id ≠ id) ∧
       t.saved.filter (fun e => e.1.id ≠ id) = s.saved.filter (fun e => e.1.id ≠ id)
     let out := fun (i : Instr) (k : StKind) (acc : Acc) (n : Nat) (may : Nat → Bool) =>
       ∀ pas, s.place acc n ea n = .ok pas →
         (o.find ea.toNat = none → traps i { cause := 0x0F, addr := ea }) ∧
         (∀ m cl j, o.find ea.toNat = some (m, cl, j) →
           (∀ e ad, s.stateByte s.cp cl j = .error (e, ad) → traps i (badByte e ad)) ∧
           ∀ sb, s.stateByte s.cp cl j = .ok sb →
             let st := (s.mem.byte sb).toNat
             let au := o.automaton cl.slot
             let e := (Table.get au.table 0#16 (16 * st + c.toNat)).toNat
             let legal := e.testBit 4 = true
             let act := e / 2 ^ 5 % 4
             let next := e % 16
             let stst := fun (fail after : Nat) =>
               BitVec.ofNat 64 (fail + 16 * (st % 16) + 256 * after + 4096 * c.toNat + 65536 * m)
             let pa := pas.headD 0
             let w : Waiter := ⟨ea, sb, m, j, k, c.toNat, id, d.toNat, n, pa, s.readS d⟩
             let places := (List.range n).map (fun q => pa + q)
             let held := s.objectOwned o m j sb = true ∨ ∃ x ∈ places, s.owned x = true
             (∀ x ∈ sb :: places, s.cutOff x = false) →
             (held → Completes i s (fun t => t = s.waits .other)) ∧
             (¬ held → s.poisoned [sb] = true →
               traps i { cause := 0x30, addr := cl.sarr + BitVec.ofNat 64 j }) ∧
             (¬ held → s.poisoned [sb] = false →
             (au.nst ≤ st → traps i { cause := 0x10, addr := ea }) ∧
             (st < au.nst → (legal ∧ may (e / 2 ^ 7 % 4) = false) ∨ (¬ legal ∧ 2 ≤ act) →
               traps i { cause := 0x0F, addr := ea }) ∧
             (st < au.nst → ¬ legal → act = 0 → Completes i s (fun t => elsewhere t ∧ t = { s with
               cur := { s.cur.past with user := { s.cur.user with stst := stst 1 st } }
               others := t.others, saved := t.saved })) ∧
             (st < au.nst → ¬ legal → act = 1 → Completes i s (fun t =>
               let turned := o.resend.filter (fun x => x.thread ≠ id)
               (∀ q, t.objs q = if q = id.part then
                   (if s.unitFull sb then { o with resend := turned ++ [w] }
                   else { o with resend := turned, waiters := o.waiters ++ [w] })
                 else s.objs q) ∧
               t = { s with
                 objects := t.objects
                 timers := if s.unitFull sb then s.timers ++ [.stagedResend id] else s.timers
                 cur := { s.cur with prog := { s.cur.prog with wait := .parked } } })) ∧
             (st < au.nst → legal → may (e / 2 ^ 7 % 4) = true → k = .ldt → s.poisoned places = true →
               traps i { cause := 0x30, addr := ea }) ∧
             (st < au.nst → legal → may (e / 2 ^ 7 % 4) = true → (k = .ldt → s.poisoned places = false) →
               Completes i s (fun t => ∃ u : State,
                 let r := if k = .ldt then some (BitVec.ofNat 64 (leNum (places.map s.mem.byte)))
                   else if k = .txn then some (BitVec.ofNat 64 st) else none
                 elsewhere u ∧
                 u.mem = (if k = .stt then s.mem.writeAll s.writer (places.zip (leBytes n (s.readS d).toNat)) else s.mem).write
                   (.sheet (Config.homeSheet (sb / 2 ^ 21)).val) sb (BitVec.ofNat 8 next) ∧
                 (∀ q, u.readS q = if q = d ∧ d ≠ 0#5 then r.getD (s.readS d) else s.readS q) ∧
                 u = { s with
                   mem := u.mem
                   cur := { s.cur with s := u.cur.s, user := { s.cur.user with stst := stst 0 next } }
                   others := u.others, saved := u.saved } ∧
                 Passed (if e.testBit 11 = true then State.handOff id.part m j sb cl.slot (o.waitersOf m j).length u else u) t))))
     out (.ldt c d a z) .ldt .read (2 ^ z.toNat) (fun x => x.testBit 0) ∧
     out (.stt c d a z) .stt .write (2 ^ z.toNat) (fun x => x.testBit 1) ∧
     out (.txn c d a) .txn .read 1 (fun _ => true) ∧
     (∀ pas, s.place .read 1 ea 1 = .ok pas →
       (o.find ea.toNat = none → Completes (.stqry d a) s (Wrote d 0#64 s)) ∧
       ∀ m cl j, o.find ea.toNat = some (m, cl, j) →
         (∀ e ad, s.stateByte s.cp cl j = .error (e, ad) → traps (.stqry d a) (badByte e ad)) ∧
         ∀ sb, s.stateByte s.cp cl j = .ok sb → s.reachable [sb] = .ok () →
           let st := (s.mem.byte sb).toNat
           (s.poisoned [sb] = true → traps (.stqry d a) { cause := 0x30, addr := cl.sarr + BitVec.ofNat 64 j }) ∧
           (s.poisoned [sb] = false → Completes (.stqry d a) s (Wrote d (BitVec.ofNat 64 (st % 16 + 16 +
             (if (o.automaton cl.slot).nst ≤ st then 32 else 0) + 256 * m + 4096 * (o.waitersOf m j).length)) s)))) ∧
  (∀ (s : State) (pn cls obj sb slot n : Nat),
     let o := s.objs pn
     let au := o.automaton slot
     let st := (s.mem.byte sb).toNat
     let on := fun (u : State) => State.handOff pn cls obj sb slot n u
     let run := State.handOff pn cls obj sb slot (n + 1) s
     (o.waitersOf cls obj = [] → run = s) ∧
     ∀ w r, o.waitersOf cls obj = w :: r →
       let e := (Table.get au.table 0#16 (16 * st + w.code)).toNat
       let legal := e.testBit 4 = true
       let act := e / 2 ^ 5 % 4
       let next := e % 16
       let may := (w.kind = .ldt → e.testBit 7 = true) ∧ (w.kind = .stt → e.testBit 8 = true)
       let stst := fun (fail after : Nat) =>
         BitVec.ofNat 64 (fail + 16 * (st % 16) + 256 * after + 4096 * w.code + 65536 * w.cls)
       let places := (List.range w.size).map (fun q => w.pa + q)
       let done := fun (u : State) (f : Thread → Thread) => u.onThread w.thread (fun t =>
         let t1 := f t
         { t1 with
           pc := t1.advance.pc
           loops := t1.advance.loops
           prog := { t1.prog with
             instret := t1.prog.instret + 1#64, last := some t1.pc, resend := t1.advance.prog.resend, reissue := false
             wait := .none } })
       let traps := fun (u : State) (c : Nat) => u.onThread w.thread (fun t =>
         { t with prog := { t.prog with wait := .retry (.fault c w.va) } })
       let gate := fun (u : State) (x : LState) (c : Option Nat) =>
         let v := u.endLaunch pn w.thread.lid x 0
         match c with
         | some c => v.logError pn w.va 0x2000 (BitVec.ofNat 32 w.thread.lid) 6 c
         | none => v
       let parks := st < au.nst ∧ ¬ legal ∧ act = 1
       (parks → run = s) ∧
       (¬ parks → ∃ u : State, u = { s with objects := u.objects } ∧
         (∀ q, u.objs q = if q = pn then { o with waiters := o.waiters.erase w } else s.objs q) ∧
         (au.nst ≤ st → run = on (if w.kind = .gate then gate u .gateFaulted (some 0x10) else traps u 0x10)) ∧
         (st < au.nst → (legal ∧ ¬ may) ∨ (¬ legal ∧ 2 ≤ act) →
           run = on (if w.kind = .gate then gate u .gateFaulted (some 0x0F) else traps u 0x0F)) ∧
         (st < au.nst → ¬ legal → act = 0 →
           run = on (if w.kind = .gate then gate u .gateFailed none
             else done u (fun t => { t with user := { t.user with stst := stst 1 st } }))) ∧
         (st < au.nst → legal → may → (∃ x ∈ places, s.cutOff x = true) → run = on (u.onThread w.thread (fun t =>
           { t with prog := { t.prog with
             resend := Table.set t.prog.resend none t.level (some (t.pc, s.fresh))
             wait := .retry (.fault 0x21 (BitVec.ofNat 64 s.fresh)) } }))) ∧
         (st < au.nst → legal → may → (∀ x ∈ places, s.cutOff x = false) → w.kind = .ldt → s.poisoned places = true →
           run = on (traps u 0x30)) ∧
         (st < au.nst → legal → may → (∀ x ∈ places, s.cutOff x = false) → (w.kind = .ldt → s.poisoned places = false) →
           let m := (if w.kind = .stt then s.mem.writeAll (s.writerOf w.thread) (places.zip (leBytes w.size w.data.toNat))
             else s.mem).write (.sheet (Config.homeSheet (sb / 2 ^ 21)).val) sb (BitVec.ofNat 8 next)
           let v := { u with mem := m }
           let result := if w.kind = .ldt then some (BitVec.ofNat 64 (leNum (places.map s.mem.byte)))
             else if w.kind = .txn then some (BitVec.ofNat 64 st) else none
           let x := if w.kind = .gate then v.passGate pn w.thread.lid
             else done v (fun t =>
               let t1 := { t with user := { t.user with stst := stst 0 next } }
               match result with
               | some y => t1.writeS (BitVec.ofNat 5 w.dest) y
               | none => t1)
           w.sb = sb → run = if e.testBit 11 = true then on x else x))) ∧
  (∀ (s : State) (d a b : BitVec 5), s.idle →
     let pn := s.cur.id.part
     let p := s.part pn
     let o := s.objs pn
     let done := fun (v : Word) (o' : Objects) (m : Mem) (t : State) =>
       t.readS d = (if d = 0#5 then 0#64 else v) ∧ (∀ r, r ≠ d → t.readS r = s.readS r) ∧
       (∀ q, t.objs q = if q = pn then o' else s.objs q) ∧
       t = { s with mem := m, objects := t.objects, cur := { s.cur.past with s := t.cur.s } }
     (∀ bs, s.loadBlock 64 (s.readS a) 512 = .ok bs →
       let x := (s.readS b).toNat
       let slot := x % 8
       let nst := x / 2 ^ 8 % 32
       let entry := fun (k : Nat) => leNum ((bs.drop (2 * k)).take 2)
       let wrong := fun (k : Nat) =>
         let e := entry k
         let legal := e.testBit 4
         let act := e / 2 ^ 5 % 4
         e / 2 ^ 12 ≠ 0 ∨ act = 3 ∨ (legal = true ∧ act ≠ 0) ∨ (legal = false ∧ (e % 16 ≠ 0 ∨ e / 2 ^ 7 % 32 ≠ 0)) ∨
           (k / 16 < nst ∧ legal = true ∧ nst ≤ e % 16) ∨ (nst ≤ k / 16 ∧ e ≠ 0)
       let bad := x / 2 ^ 3 % 32 ≠ 0 ∨ x / 2 ^ 13 ≠ 0 ∨ nst = 0 ∨ 16 < nst ∨ ∃ k < 256, wrong k
       let held := ∃ w ∈ o.waiters, ∃ cl, o.cls w.cls = some cl ∧ cl.slot = slot
       (bad → Completes (.stload d a b) s (Wrote d 2#64 s)) ∧
       (¬ bad → held → Completes (.stload d a b) s (Wrote d 1#64 s)) ∧
       (¬ bad → ¬ held → Completes (.stload d a b) s (fun t =>
         ∃ l, done 0#64 { o with automata := l } s.mem t ∧
           ∀ q, Table.get l Automaton.empty q = if q = slot then Table.get l Automaton.empty slot else o.automaton q)) ∧
       (¬ bad → ¬ held → Completes (.stload d a b) s (fun t =>
         ((t.objs pn).automaton slot).nst = nst ∧
         ∀ k < 256, Table.get ((t.objs pn).automaton slot).table 0#16 k = BitVec.ofNat 16 (entry k)))) ∧
     (∀ bs, s.loadBlock 64 (s.readS a) 64 = .ok bs →
       let f := fun (o n : Nat) => leNum ((bs.drop o).take n)
       let osh := f 12 1
       let cl : Machine.Class := ⟨BitVec.ofNat 64 (f 0 8), f 8 4, osh, f 13 1, f 15 1, BitVec.ofNat 64 (f 24 8)⟩
       let valid := 6 ≤ osh ∧ osh ≤ 16 ∧ f 0 8 % 2 ^ osh = 0 ∧ 1 ≤ f 8 4 ∧ f 8 4 ≤ 16777216 ∧ f 13 1 ≤ 7 ∧ 1 ≤ f 15 1 ∧
         f 15 1 ≤ 4 ∧ (f 16 1 ≤ 15 ∨ f 16 1 = 255) ∧ f 17 7 = 0 ∧ f 32 32 = 0
       let ranges := fun (x : Machine.Class) => [(x.base.toNat, x.count * 2 ^ x.osh), (x.sarr.toNat, x.count)]
       let meets := fun (x y : Nat × Nat) => x.1 < y.1 + y.2 ∧ y.1 < x.1 + x.2
       let inside := ∀ r ∈ ranges cl, p.regs.vwbaseF.toNat ≤ r.1 ∧
         r.1 + r.2 ≤ p.regs.vwbaseF.toNat + p.regs2.gzcount * 2 ^ 28
       let clash := meets (cl.base.toNat, cl.count * 2 ^ osh) (cl.sarr.toNat, cl.count) ∨
         ∃ n < 16, ∃ x, o.cls n = some x ∧ ∃ r ∈ ranges x, ∃ r' ∈ ranges cl, meets r r'
       let takes := fun (n : Nat) => n < 16 ∧ o.cls n = none ∧ (f 16 1 = n ∨ (f 16 1 = 255 ∧ ∀ j < n, o.cls j ≠ none))
       let good := valid ∧ f 14 1 < (o.automaton (f 13 1)).nst ∧ inside ∧ ¬ clash
       ((good → ∀ n, ¬ takes n) → Completes (.stbind d a) s (Wrote d (-1#64) s)) ∧
       (∀ (n : Nat) (pas : List Nat), good → takes n → pas.length = cl.count →
         (∀ k < cl.count, s.element p .write 1 (cl.sarr + BitVec.ofNat 64 k) 1 = .ok [pas.getD k 0]) →
         ((∃ q ∈ pas, s.owned q = true) → Completes (.stbind d a) s (fun t => t = s.waits .other)) ∧
         ((∀ q ∈ pas, s.owned q = false) → (∃ q ∈ pas, s.cutOff q = true) →
           Completes (.stbind d a) s (fun t => t = s.waits (.peer s.peerTag))) ∧
         ((∀ q ∈ pas, s.owned q = false ∧ s.cutOff q = false) → Completes (.stbind d a) s (fun t =>
           ∃ l, done (BitVec.ofNat 64 n) { o with classes := l }
               (pas.foldl (fun m q => m.write (.sheet (Config.homeSheet (q / 2 ^ 21)).val) q (BitVec.ofNat 8 (f 14 1))) s.mem) t ∧
             ∀ q, Table.get l none q = if q = n then some cl else o.cls q)))) ∧
     (let n := b.toNat
      let held := ∃ w ∈ o.waiters, w.cls = n
      (o.cls n = none → Completes (.stunbind d b) s (Wrote d (-1#64) s)) ∧
      (o.cls n ≠ none → held → Completes (.stunbind d b) s (Wrote d 1#64 s)) ∧
      (o.cls n ≠ none → ¬ held → Completes (.stunbind d b) s (fun t =>
        ∃ l, done 0#64 { o with classes := l } s.mem t ∧ ∀ q, Table.get l none q = if q = n then none else o.cls q))))

/-! ## Engines -/

/-- R360, R361, R365 to R372, R376, R379, R383, R384: CPY, ENGB and ECWAIT. issue says what an issued command adds: the command
with the thread's next tag, the popped token, and the completion that is to come; one that moves no byte and is not ORDERED
completes at once (R366). CPY issues a copy of the bytes up to the first that faults, and writes their number and the tag;
one whose first byte faults, or that finds a byte the partition may not use (R494), traps. ENGB issues the commands of
its active element groups up to the first that faults. ECWAIT waits while a command it names is outstanding.

R366, R368, R369: what they find. A scan goes through the offsets up to the first whose source byte or destination byte faults, the
source first. The 32 bytes of a command stand in an element group of the group at vA; it is valid where LEN, OP, SCOPE, FLAGS and the
bytes that must be zero are in their ranges, and its plan is the scan of its bytes; its runs hold the pairs that the scan found, and a
FILL writes byte a mod 8 of the pattern at address a. -/
def Obligations.EngineWords : Prop :=
  (∀ (s : State) (src : Option Word) (dst : Word) (n o a k : Nat) (l : List (Nat × Nat)),
    let nat := BitVec.ofNat 64
    let at_ := fun (i : Nat) =>
      let put := s.element s.cp .write 1 (dst + nat i) 1
      match src with
      | some x => match s.element s.cp .read 1 (x + nat i) 1, put with
        | .error c, _ => Except.error (c, x + nat i)
        | .ok _, .error c => .error (c, dst + nat i)
        | .ok q, .ok r => .ok (r.headD 0, q.headD 0)
      | none => match put with
        | .error c => .error (c, dst + nat i)
        | .ok r => .ok (r.headD 0, (dst + nat i).toNat)
    let r := s.scan src dst n o
    let f := r.1.length
    let grant := s.cur.conf.grant
    let bits := (s.cur.vr.vreg ((a + k / (8 * grant)) % 32)).toNat / 2 ^ (256 * (8 * (k % (8 * grant) / 8) + k % 8)) % 2 ^ 256
    let part := fun (o n : Nat) => bits / 2 ^ (8 * o) % 2 ^ (8 * n)
    let source := if part 20 1 = 0 then some (nat (part 8 8)) else none
    let plan := s.engbPlan a k
    f ≤ n ∧ (∀ j < f, ∀ e, r.1[j]? = some e → at_ (o + j) = .ok e) ∧ (f = n → r.2 = none) ∧
    (f < n → ∃ e, r.2 = some e ∧ at_ (o + f) = .error e) ∧
    s.engbBits a k = bits ∧ engbSrc bits = source ∧
    (engbValid bits = true ↔ part 16 4 ≤ 16777216 ∧ part 20 1 ≤ 1 ∧ 1 ≤ part 21 1 ∧ part 21 1 ≤ 4 ∧ part 22 1 / 2 = 0 ∧
      part 23 9 = 0) ∧
    (let found := s.scan source (nat (part 0 8)) (part 16 4) 0
     plan.k = k ∧ plan.bits = bits ∧ plan.bytes = found.1 ∧ plan.fault = found.2) ∧
    (joinRuns l).flatMap (fun r => (List.range r.2.2).map (fun i => (r.1 + i, r.2.1 + i))) = l ∧
    plan.body = if part 20 1 = 0 then .copy (joinRuns plan.bytes)
      else .fill ((joinRuns plan.bytes).map (fun r => (r.1, r.2.2, r.2.1 % 8))) (nat (part 8 8))) ∧
  ∀ (s : State) (d a b g : BitVec 5) (w st p : BitVec 1), s.idle →
    let part := s.part s.cur.id.part
    let x := (s.readS d).toNat
    let scope := x / 2 ^ 32 % 8
    let len := x % 2 ^ 32
    let good := x / 2 ^ 36 % 2 ^ 12 = 0 ∧ 1 ≤ scope ∧ scope ≤ 4 ∧ len ≤ 16777216
    let pops := if p = 0#1 then Fifo.vxls else Fifo.mxls
    let pushes := if p = 0#1 then Fifo.lsvx else Fifo.lsmx
    let traps := fun (i : Instr) (y : Trap) => Completes i s (fun t => t = takeTrap s y)
    let tag := s.cur.prog.nextTag
    (∀ copy sc ord w st gz body bytes,
      let id := 64 * s.fresh + (s.cmds.filter (fun c => c.id / 64 = s.fresh)).length
      let push := if st = 1#1 then some pushes else none
      let v := { s with cur := { s.cur with
          tok := if w = 1#1 then s.cur.tok.put pops (s.cur.tok.get pops - 1) else s.cur.tok
          prog := { s.cur.prog with nextTag := if tag = 65535 then 1 else tag + 1 } } }
      (bytes ≠ 0 ∨ ord = true → s.issue copy sc ord w st p gz body bytes = { v with
        cmds := s.cmds ++ [⟨id, s.cur.id, s.cur.place.core, copy, tag, sc, ord, push, gz, s.cur.viq.length, [], body⟩]
        inputs := s.inputs ++ [.commandComplete id false] }) ∧
      (bytes = 0 → ord = false → s.issue copy sc ord w st p gz body bytes = v.onThread s.cur.id (fun h => { h with
        tok := if st = 1#1 then h.tok.put pushes (h.tok.get pushes + 1) else h.tok
        prog := { h.prog with events := h.prog.events ||| 1#4 } }))) ∧
    (¬ good → traps (.cpy d a b w st p) { cause := 0x01 }) ∧
    (good → w = 1#1 → s.cur.tok.get pops = 0 → traps (.cpy d a b w st p) { cause := 0x15, synd := 2 }) ∧
    (good → ¬ (w = 1#1 ∧ s.cur.tok.get pops = 0) → st = 1#1 → 16 ≤ s.reserved pushes →
      traps (.cpy d a b w st p) { cause := 0x15, synd := 3 }) ∧
    (good → s.tokenCheck w st p = .ok () →
      let r := s.scan (some (s.readS b)) (s.readS a) len 0
      let n := r.1.length
      let stops := fun (e : Nat × Word) => n = 0 ∨ e.1 = 0x20 ∨ e.1 = 0x30
      (∀ e, r.2 = some e → stops e → traps (.cpy d a b w st p)
        { cause := e.1, addr := e.2, batch := s.absentOf (bothRanges (some (s.readS b)) (s.readS a) len) }) ∧
      ((∀ e, r.2 = some e → ¬ stops e) → s.engReady true 1 w st p = .ok () →
        let u := s.issue true scope (x.testBit 35) w st p ((gzOf part (s.readS b) n ++ gzOf part (s.readS a) n).eraseDups)
          (.copy (joinRuns r.1)) n
        let v := BitVec.ofNat 64 (tag * 2 ^ 48 + x / 2 ^ 32 % 2 ^ 16 * 2 ^ 32 + n)
        Completes (.cpy d a b w st p) s (Passed ((u.writeS d v).noticeFault r.2)))) ∧
    (let lm := 2 ^ (s.cur.conf.vtype.toNat / 2 ^ 7 % 4)
     let ks := (List.range (min s.cur.conf.vl (8 * s.cur.conf.grant * lm))).filter (fun k =>
       (s.cur.vr.preg g.toNat).getLsbD k)
     let plans := ks.map (s.engbPlan a.toNat)
     let fine := plans.takeWhile (fun e => e.fault.isNone)
     let stop := (plans.drop fine.length).head?.bind (fun e => e.fault)
     let invalid := ∃ k ∈ ks, engbValid (s.engbBits a.toNat k) = false
     (invalid → traps (.engb d a g) { cause := 0x15, synd := 5 }) ∧
     let stops := fun (f : Nat × Word) => fine = [] ∨ f.1 = 0x20 ∨ f.1 = 0x30
     (∀ e f, ¬ invalid → (plans.drop fine.length).head? = some e → e.fault = some f → stops f → traps (.engb d a g) {
       cause := f.1, addr := f.2
       batch := s.absentOf (bothRanges (engbSrc e.bits) (BitVec.ofNat 64 (e.bits % 2 ^ 64)) (e.bits / 2 ^ 128 % 2 ^ 32)) }) ∧
     (¬ invalid → (∀ f, stop = some f → ¬ stops f) → s.engReady true fine.length 0#1 0#1 0#1 = .ok () →
       let u := fine.foldl (fun s e => s.issue true (e.bits / 2 ^ 168 % 256) (e.bits.testBit 176) 0#1 0#1 0#1
         (e.gz s.cp) e.body e.bytes.length) s
       Completes (.engb d a g) s (Passed ((u.noticeFault stop).applyRegs
         (predWrite d.toNat (plans.zipIdx.map (fun e => (e.1.k, decide (e.2 < fine.length)))))))) ) ∧
    (let named := (s.readS a).toNat / 2 ^ 48
     let mine := s.cmds.filter (fun c => c.thread = s.cur.id)
     let open_ := ∃ c ∈ mine, named = 0 ∨ c.tag = named
     let errs := s.cur.prog.errors
     (open_ → Completes (.ecwait d a) s (fun t => t = s.waits .other)) ∧
     (∀ e l, ¬ open_ → errs = e :: l → Completes (.ecwait d a) s (fun t =>
       t = takeTrap { s with cur := { s.cur with prog := { s.cur.prog with errors := l } } } { cause := 0x15, synd := 1 })) ∧
     (¬ open_ → errs = [] → Completes (.ecwait d a) s (Wrote d (BitVec.ofNat 64 mine.length) s)))

/-- R387 to R389, R396 to R400, R407, R408: WBLD, ACSTM and ACLDM issue a command of the matrix engine and write its tag to the
high bits of sD; WBLD puts its slot to LOADING. Before that they make the checks of their entries, in order; WBLD's header is
read as the tile path reads (R215; the model's choice of the point in time, log 7). ATTACH takes
the rows that R388 computes, and DETACH gives them up; a changed row range starts at +0, and rows given up hold no data. -/
def Obligations.MatrixEngineWords : Prop :=
  ∀ (s : State) (d a b l : BitVec 5) (w st p : BitVec 1) (h : BitVec 3), s.idle →
    let part := s.part s.cur.id.part
    let qn := s.cur.place.core / 4
    let x := (s.readS d).toNat
    let ea := s.readS a
    let scope := x / 2 ^ 32 % 8
    let good := x / 2 ^ 36 % 2 ^ 12 = 0 ∧ 1 ≤ scope ∧ scope ≤ 4
    let traps := fun (i : Instr) (y : Trap) => Completes i s (fun t => t = takeTrap s y)
    let batch := fun (c : Nat) (va : Word) => if c = 0x05 then [va.toNat / 2 ^ 21 * 2 ^ 21] else []
    let tag := BitVec.ofNat 64 (s.cur.prog.nextTag % 2 ^ 16 * 2 ^ 48 + x % 2 ^ 48)
    let tg := s.cur.conf.tgrant
    let slot := 32 * h.toNat + l.toNat
    let head := s.range .read ea 64 0
    let hdr := leNum (s.readPath .tile s.cur.prog.fences s.cur.id (2 ^ 54) head.1)
    let format := hdr % 256
    let data := s.range .read (ea + 64#64) (wBytes format) 0
    (¬ good ∨ x % 2 ^ 32 ≠ 0 → traps (.wbld d a l w st p h) { cause := 0x01 }) ∧
    (good → x % 2 ^ 32 = 0 → s.tokenCheck w st p = .ok () →
      (ea.toNat % 64 ≠ 0 → traps (.wbld d a l w st p h) { cause := 0x03, addr := ea }) ∧
      (ea.toNat % 64 = 0 →
        (∀ e, head.2 = some e → traps (.wbld d a l w st p h) { cause := e.1, addr := e.2, batch := batch e.1 e.2 }) ∧
        (head.2 = none → s.reachable head.1 = .ok () → s.poisoned head.1 = true →
          traps (.wbld d a l w st p h) { cause := 0x30, addr := ea }) ∧
        (head.2 = none → s.reachable head.1 = .ok () → s.poisoned head.1 = false →
          let valid := format ≤ 8 ∧ hdr / 2 ^ 8 % 256 ≤ 3 ∧ hdr / 2 ^ 16 % 2 ^ 48 = 0 ∧ hdr / 2 ^ 128 = 0
          (¬ valid → traps (.wbld d a l w st p h) { cause := 0x14, synd := 3 }) ∧
          (valid → wPages format = 2 → slot % 2 = 1 → traps (.wbld d a l w st p h) { cause := 0x14, synd := 4 }) ∧
          (valid → ¬ (wPages format = 2 ∧ slot % 2 = 1) →
            (∀ e, data.2 = some e → traps (.wbld d a l w st p h)
              { cause := e.1, addr := e.2, batch := batch e.1 e.2 }) ∧
            (data.2 = none → s.engReady false 1 w st p = .ok () →
              let u := s.issue false scope (x.testBit 35) w st p (gzOf part ea (64 + wBytes format))
                (.wbld slot (BitVec.ofNat 512 hdr) (joinPlaces (head.1 ++ data.1)) s.cur.mat.chk s.cur.prog.fences)
                (64 + wBytes format)
              let id := 64 * s.fresh + (s.cmds.filter (fun c => c.id / 64 = s.fresh)).length
              Completes (.wbld d a l w st p h) s (fun t => ∃ v : State, Passed (v.writeS d tag) t ∧
                (∀ q, v.quad q = if q = qn then { s.quad qn with slots := loadSlot (s.quad qn).slots slot format id }
                  else s.quad q) ∧
                v = { u with quads := v.quads })))))) ∧
    (let view := x.testBit 5
     let tile := x % 32
     let fits := good ∧ x / 2 ^ 6 % 2 ^ 26 = 0 ∧ (view = true → tile < 16)
     let al := if view then 8 else 4
     let e := if view then 256 else 128
     let out := fun (i : Instr) (k : Acc) (body : List (Nat × Nat × Nat) → CmdBody) =>
       let rows := s.tileRows k ea (s.readS b) e tg 0
       (¬ fits → traps i { cause := 0x01 }) ∧
       (fits → tg = 0 → traps i { cause := 0x13 }) ∧
       (fits → tg ≠ 0 → s.tokenCheck w st p = .ok () →
         (ea.toNat % al ≠ 0 ∨ (s.readS b).toNat % al ≠ 0 → traps i { cause := 0x03, addr := ea }) ∧
         (ea.toNat % al = 0 → (s.readS b).toNat % al = 0 →
           (∀ f, rows.2 = some f → traps i { cause := f.1, addr := f.2, batch := batch f.1 f.2 }) ∧
           (rows.2 = none → s.engReady false 1 w st p = .ok () →
             let gz := ((List.range tg).flatMap (fun r => gzOf part (ea + BitVec.ofNat 64 r * s.readS b) e)).eraseDups
             let u := s.issue false scope (x.testBit 35) w st p gz (body (joinRuns rows.1)) rows.1.length
             Completes i s (Passed (u.writeS d tag)))))
     out (.acstm d a b w st p) .write (.acstm tile view) ∧ out (.acldm d a b w st p) .read (.acldm tile view)) ∧
    (let rows := ((s.legendOf s.cur.id).map (fun g => g.rows)).getD 0
     let req := min (16 * ((s.readS a).toNat / 16)) (min 64 rows)
     let held := (s.others.filter (fun t => t.place.core / 4 = qn ∧ 0 < t.conf.tgrant)).map (fun t =>
       (t.place.rowBase, t.conf.tgrant))
     let cap := min req ((s.quad qn).rowcap - (held.map (fun r => r.2)).sum)
     let free := fun (r n : Nat) => r + n ≤ 64 ∧ ∀ k ∈ held, ¬ (k.1 < r + n ∧ r < k.1 + k.2)
     let most := fun (m : Nat) => (m = 0 ∨ (m ∈ [16, 32, 48, 64] ∧ m ≤ cap ∧ ∃ r, free r m)) ∧
       ∀ k ∈ [16, 32, 48, 64], k ≤ cap → (∃ r, free r k) → k ≤ m
     let lowest := fun (r n : Nat) => (free r n ∧ ∀ q < r, ¬ free q n) ∨ (r = 0 ∧ ∀ q, ¬ free q n)
     let base := s.cur.place.rowBase
     let moved := fun (r n : Nat) (u : State) =>
       (∀ q, q ≠ qn → u.quad q = s.quad q) ∧ u.quad qn = { s.quad qn with acc := (u.quad qn).acc } ∧
       (∀ k, Table.get (u.quad qn).acc 0#32 k =
         if (1024 * r ≤ k ∧ k < 1024 * (r + n)) ∨ (1024 * base ≤ k ∧ k < 1024 * (base + tg)) then 0#32 else Table.get (s.quad qn).acc 0#32 k) ∧
       u = { s with
         quads := u.quads, inputs := u.inputs
         cur := { s.cur with
           place := { s.cur.place with rowBase := r }, conf := { s.cur.conf with tgrant := n }
           mat := { s.cur.mat with tiles := [] } } }
     (req = tg → Completes (.attach d a) s (Wrote d (BitVec.ofNat 64 tg) s)) ∧
     (req ≠ tg → s.matBusy = true → Completes (.attach d a) s (fun t => t = s.waits .other)) ∧
     (req ≠ tg → s.matBusy = false → ∀ m, most m →
       let new := if req < tg then req else max tg m
       (new = tg → Completes (.attach d a) s (Wrote d (BitVec.ofNat 64 new) s)) ∧
       (new ≠ tg → Completes (.attach d a) s (fun t => ∃ r u, lowest r new ∧ moved r new u ∧
         Passed (u.writeS d (BitVec.ofNat 64 new)) t))) ∧
     (tg = 0 → Completes .detach s (Passed s)) ∧
     (tg ≠ 0 → s.matBusy = true → Completes .detach s (fun t => t = s.waits .other)) ∧
     (tg ≠ 0 → s.matBusy = false → Completes .detach s (fun t => ∃ u, moved 0 0 u ∧ Passed u t)))

/-! ## Vector memory -/

/-- R193 to R206: VLD, VST, VLDFF and VLDB. Element i of a unit-stride access lies SEW·i bits into the stream at sA, of a strided
one at sA + i·sB, of an indexed one at sA plus its index, which is read from a group of its own width; VLDB starts at the bit that
sB names. At width 6 a load also sets the unused bits of the slices it writes to 0 (R120). A strided, indexed or ordered access of
elements of less than a byte, an index group that does not exist or that a load overwrites, and VLDB of more than a byte raise
ILLEGAL. (An index group at grant 0 is log 18's.) A fault of VLDFF above its first active element traps nothing: it cuts vl.

R212 to R214: the multivector loads and stores. Record i lies at sA + i times the stride sB, or where sB is 0 times the length of a
record; a dense record has all 16 components, a packed one those of the grades of mD's tag. A load sets the components outside the
tag to +0. A base or stride that is no multiple of 4 makes every active element fault MISALIGNED, also where its tag is empty (the
model's reading, log 27). -/
def Obligations.VectorTransfers : Prop :=
  (∀ (s : State) (d a b g : BitVec 5) (n : BitVec 3), s.idle →
     let vt := s.cur.conf.vtype
     let x := s.readS a
     let on := s.actives g.toNat s.cur.conf.vl
     let unit := fun (off : Nat) => on.map (streamElem s d.toNat off x)
     let none' := fun (_ : List VElem) => ([] : List RegWrite)
     let tails := fun (es : List VElem) => if vtSew vt = 6 then
         gatherV (es.map (fun e =>
           let l := groupLoc s.cur.conf.grant 6 d.toNat e.i
           (l.1, 2048 * (l.2 / 2048) + 2046, 2, 0)))
       else []
     let illegal := fun (i : Instr) => Completes i s (fun t => t = takeTrap s { cause := 0x01 })
     let sized := fun (i : Instr) (p : Prop) => (vtSew vt < 8 → illegal i) ∧ (8 ≤ vtSew vt → p)
     let strided := on.map (fun i => plainElem s d.toNat i (x + BitVec.ofNat 64 i * s.readS b))
     let byIndex := fun (is : List Nat) => is.map (fun i => plainElem s d.toNat i (x + s.sindex b i))
     let indexed := fun (i : Instr) (load ordered : Bool) (is : List Nat) => sized i (
       (indexGroup s b = none → illegal i) ∧
       ∀ ix, indexGroup s b = some ix →
         (load = true ∧ meet (vGroup (vtLmul vt) d.toNat) ix = true → illegal i) ∧
         (¬ (load = true ∧ meet (vGroup (vtLmul vt) d.toNat) ix = true) →
           Accesses i load false ordered none' (byIndex is) s))
     let ord := s.activesOrd g.toNat s.cur.conf.vl
     Accesses (.vld d a g n) true false false tails (unit 0) s ∧
     Accesses (.vst d a g n) false false false none' (unit 0) s ∧
     sized (.vldStrided d a b g n) (Accesses (.vldStrided d a b g n) true false false none' strided s) ∧
     sized (.vstStrided d a b g n) (Accesses (.vstStrided d a b g n) false false false none' strided s) ∧
     indexed (.vldIndexed d a b g n) true false on ∧ indexed (.vstIndexed d a b g n) false false on ∧
     indexed (.vldOrd d a b g n) true true ord ∧ indexed (.vstOrd d a b g n) false true ord ∧
     (8 < vtSew vt → illegal (.vldb d a b g n)) ∧
     (vtSew vt ≤ 8 →
       Accesses (.vldb d a b g n) true false false tails (unit ((s.readS b).toNat % 8)) s) ∧
     (((unit 0).filter (s.faults true) = [] ∨ ∃ e r, unit 0 = e :: r ∧ s.faults true e = true) →
       Accesses (.vldff d a g n) true false false tails (unit 0) s) ∧
     ∀ e0 r0 e r, unit 0 = e0 :: r0 → s.faults true e0 = false → (unit 0).filter (s.faults true) = e :: r →
       let some' := (unit 0).filter (fun y => decide (y.i < e.i))
       s.open true some' →
       Completes (.vldff d a g n) s (fun t =>
         let u := s.moved true false (tails some') some' [e.i]
         t = ({ u with cur := { u.cur with conf := { u.cur.conf with vl := e.i } } } : State).past)) ∧
  (∀ (s : State) (d a b g : BitVec 5) (n : BitVec 3), s.idle →
     let own := comps (s.cur.vr.mreg d.toNat).tag
     let is := s.actives g.toNat (min s.cur.conf.vl (8 * s.cur.conf.grant))
     let x := s.readS a
     let y := s.readS b
     let zeros := fun (es : List VElem) => compWrite d.toNat (es.flatMap (fun e =>
       ((List.range 16).filter (fun c => !own.contains c)).map (fun c => (e.i, c, 0))))
     let out := fun (i : Instr) (load packed : Bool) =>
       let len := if packed then 4 * own.length else 64
       let place := fun (c : Nat) => if packed then own.idxOf c else c
       let stride := if y = 0#64 then BitVec.ofNat 64 len else y
       let live := if packed then own else List.range 16
       let es := is.map (fun k => VElem.mk k (x + BitVec.ofNat 64 k * stride) 4 len (live.map (fun c =>
         (d.toNat, 512 * k + 32 * c, 32 * place c, 32))))
       let zs := fun (l : List VElem) => if load then zeros l else []
       ((x.toNat % 4 = 0 ∧ y.toNat % 4 = 0) ∨ es = [] → Accesses i load true false zs es s) ∧
       (∀ e r, x.toNat % 4 ≠ 0 ∨ y.toNat % 4 ≠ 0 → es = e :: r → Completes i s (fun t =>
         t = takeTrap (s.moved load true [] [] (es.map VElem.i))
           { cause := 0x03, addr := e.ea, reissue := true, elems := true }))
     out (.mld d a b g n) true false ∧ out (.mldp d a b g n) true true ∧
     out (.mst d a b g n) false false ∧ out (.mstp d a b g n) false true)

/-- R207 to R209: VLDM and VSTM move the active elements below the smaller of vl and DL0·DL1·DL2, element (x, y, z) at
sA + x·DS0 + y·DS1 + z·DS2; a reissue goes on, in each lane group, after the elements that its counter says it has passed. VLDM reads
each element on the tile path as it stood at one point not before the newest write that a PFENCE of the path covers (the point is the
model's choice, log 7). Where an element faults, each lane group has performed its elements below its first that faults; fmask names
these, vfirst and DX0 to DX2 the lowest, and each lane group keeps the number of its elements that it has passed. -/
def Obligations.VectorBlocks : Prop :=
  ∀ (s : State) (d a g : BitVec 5) (n : BitVec 3), s.idle →
    let c := s.cur.conf
    let w := vtSew c.vtype
    let x := s.cur.dims
    let per := 2048 / w
    let vlmax := c.grant * min (per * vtLmul c.vtype) 512
    let count := x.dl0.toNat * x.dl1.toNat * x.dl2.toNat
    let lane := fun (e : Nat) => e % (per * c.grant) / per
    let at' := fun (e : Nat) => (e % x.dl0.toNat, e / x.dl0.toNat % x.dl1.toNat, e / (x.dl0.toNat * x.dl1.toNat))
    let ea := fun (e : Nat) => s.readS a + BitVec.ofNat 64 (at' e).1 * x.ds0 + BitVec.ofNat 64 (at' e).2.1 * x.ds1 +
      BitVec.ofNat 64 (at' e).2.2 * x.ds2
    let place := fun (e : Nat) => ((List.range vlmax).filter (fun y => decide (lane y = lane e ∧ y < e))).length
    let start := fun (j : Nat) => if s.cur.prog.reissue = true then Table.get c.counters 0 j else 0
    let on := (List.range vlmax).filter (fun e =>
      decide (e < min count c.vl ∧ start (lane e) ≤ place e) && (s.cur.vr.preg g.toNat).getLsbD e)
    let es := on.map (fun e => plainElem s d.toNat e (ea e))
    let dx := fun (t : State) (p : Nat × Nat × Nat) => ({ t with cur := { t.cur with dims := { t.cur.dims with
      dx0 := BitVec.ofNat 64 p.1, dx1 := BitVec.ofNat 64 p.2.1, dx2 := BitVec.ofNat 64 p.2.2 } } } : State)
    let counters := fun (t : State) (k : Table Nat) =>
      ({ t with cur := { t.cur with conf := { t.cur.conf with counters := k } } } : State)
    let out := fun (i : Instr) (load : Bool) =>
      let first := fun (e : VElem) => s.faults load e = true ∧
        ∀ y ∈ es, lane y.i = lane e.i → y.i < e.i → s.faults load y = false
      let good := es.filter (fun e => es.all (fun y => lane y.i != lane e.i || decide (e.i < y.i) || !s.faults load y))
      let bad := es.filter (fun e => decide (first e))
      let runs := good.flatMap (fun e => e.runs (s.placesOf load e))
      let loaded := s.cur.vr.applyAll (s.tileWrites s.cur.prog.fences w runs)
      let done := fun (is : List Nat) =>
        if load then { s.moved true false [] [] is with cur := { (s.moved true false [] [] is).cur with vr := loaded } }
        else s.moved false false [] good is
      let passed := fun (j : Nat) =>
        match bad.find? (fun e => lane e.i == j) with
        | some f => place f.i
        | none => max (start j) ((List.range vlmax).filter (fun e => decide (lane e = j))).length
      (8 ≤ w → c.grant ≤ 8 → ∀ e ∈ good, ∃ k ≤ s.mem.logLen,
        mustSee s.cur.prog.fences .tile s.cur.id (s.placesOf true e) s.mem.log s.mem.logLen ≤ k ∧
        (load = true → loaded.elem c.grant w d.toNat e.i = leNum ((s.placesOf true e).map (s.mem.byteAt k)))) ∧
      (w < 8 → Completes i s (fun t => t = takeTrap s { cause := 0x01 })) ∧
      (8 ≤ w → s.open load good →
        (bad = [] → Completes i s (fun t => t = (dx (counters (done []) []) (0, 0, 0)).past)) ∧
        ∀ e r cause, bad = e :: r → s.at load e = .error cause → Completes i s (fun t =>
          t = takeTrap
            (dx (counters (done (bad.map VElem.i))
              ((List.range c.grant).foldl (fun k j => Table.set k 0 j (passed j)) [])) (at' e.i))
            { cause := cause, addr := e.ea, reissue := decide (cause ≠ 0x30), elems := true, sweep := true
              batch := s.batch (if load then .read else .write) (bad.map (fun e =>
                (e, match s.at load e with
                  | .error z => z
                  | .ok _ => 0))) }))
    out (.vldm d a g n) true ∧ out (.vstm d a g n) false

/-- R16, R120, R194, R321: what the register writes and the moves of elements come to. Elements of a group, bits of a predicate and
components of an m register that are written hold the low bits of their values, and every other element, bit and component is as
before; at width 6 the unused bits of the slices written are 0. A load puts into element i the bits that its places hold from its
own first bit on, and a store puts the bits of element i there, every byte that no element covers being as before. -/
def Obligations.ElementsMove : Prop :=
  ∀ (s : State) (grant w base : Nat), 1 ≤ grant → grant ≤ 8 → w ∈ [4, 6, 8, 16, 32, 64] →
    let r := s.cur.vr
    let most := 32 * (grant * (2048 / w))
    (∀ l : List (Nat × Nat), (l.map Prod.fst).Nodup → (∀ e ∈ l, e.1 < most) →
      let q := r.applyAll (groupWrites grant w base l)
      (∀ e ∈ l, q.elem grant w base e.1 = e.2 % 2 ^ w) ∧
      (∀ i < most, i ∉ l.map Prod.fst → q.elem grant w base i = r.elem grant w base i) ∧
      (∀ k, k ∉ l.map (fun e => (base + e.1 / (grant * (2048 / w))) % 32) → q.vreg k = r.vreg k) ∧ q.p = r.p ∧ q.m = r.m ∧
      (w = 6 → ∀ e ∈ l, ∀ k ∈ [2046, 2047],
        (q.vreg ((base + e.1 / (grant * 341)) % 32)).getLsbD (2048 * (e.1 % (grant * 341) / 341) + k) = false)) ∧
    (∀ (n : Nat) (l : List (Nat × Bool)), n ≠ 0 → (l.map Prod.fst).Nodup → (∀ e ∈ l, e.1 < 4096) →
      let q := r.applyAll (predWrite n l)
      (∀ e ∈ l, (q.preg n).getLsbD e.1 = e.2) ∧ (∀ i < 4096, i ∉ l.map Prod.fst → (q.preg n).getLsbD i = (r.preg n).getLsbD i) ∧
      (∀ k, k ≠ n → q.preg k = r.preg k) ∧ q.v = r.v ∧ q.m = r.m) ∧
    (∀ (n : Nat) (l : List (Nat × Nat × Nat)), (l.map (fun e => (e.1, e.2.1))).Nodup → (∀ e ∈ l, e.1 < 64 ∧ e.2.1 < 16) →
      let q := r.applyAll (compWrite n l)
      (∀ e ∈ l, (q.mreg n).comp e.1 e.2.1 = e.2.2 % 2 ^ 32) ∧
      (∀ i c, i < 64 → c < 16 → (i, c) ∉ l.map (fun e => (e.1, e.2.1)) → (q.mreg n).comp i c = (r.mreg n).comp i c) ∧
      (q.mreg n).tag = (r.mreg n).tag ∧ (∀ k, k ≠ n → q.mreg k = r.mreg k) ∧ q.v = r.v ∧ q.p = r.p) ∧
    (vtSew s.cur.conf.vtype = w → s.cur.conf.grant = grant →
      ∀ (off : Nat) (x : Word) (is : List Nat) (pas : Nat → List Nat), off < 8 → is.Nodup → (∀ i ∈ is, i < most) →
        (∀ i ∈ is, (pas i).length = (streamElem s base off x i).n) →
        let bit := fun (m : Mem) (i k : Nat) =>
          let b := (off + w * i) % 8 + k
          (m.byte ((pas i).getD (b / 8) 0)).getLsbD (b % 8)
        let spots := is.flatMap (fun i => (List.range w).map (fun k =>
          let b := (off + w * i) % 8 + k
          ((pas i).getD (b / 8) 0, b % 8)))
        let runs := is.flatMap (fun i => (streamElem s base off x i).runs (pas i))
        (∀ i ∈ is, ∀ k < w,
          ((r.applyAll (runWrites r false s.mem.runBits runs)).elem grant w base i).testBit k = bit s.mem i k) ∧
        (spots.Nodup → ∀ i ∈ is, ∀ k < w,
          bit (runs.foldl (storeRun r false s.writer) s.mem) i k = (r.elem grant w base i).testBit k) ∧
        (∀ p, (∀ i ∈ is, p ∉ pas i) → (runs.foldl (storeRun r false s.writer) s.mem).byte p = s.mem.byte p))

/-! ## Scratchpad and reductions in memory -/

/-- R219 to R223: SPLD, SPST, SPLDU and SPSTU move the active elements between the data group and the scratchpad of the lane group
in which each stands. An offset that is no multiple of the element raises MISALIGNED, and otherwise one beyond the scratchpad raises
SCRATCH_BOUNDS, with nothing moved; the address and vfirst name the lowest offset that fails in either way, and a word that
completes leaves vfirst and fmask (the model's readings, log 18).

R244 to R247: the VAMO words. At each address, in ascending order, the elements that name it are combined from the lowest on and the
result is then combined with what memory holds. Other widths and formats raise ILLEGAL, and elements that fault take no part and
trap. -/
def Obligations.ScratchpadAndVectorAtomics : Prop :=
  (∀ (s : State) (d a b g : BitVec 5), s.idle →
     let c := s.cur.conf
     let w := vtSew c.vtype
     let n := w / 8
     let per := 2048 / w
     let group := vGroup (vtLmul c.vtype) d.toNat
     let lane := fun (i : Nat) => i % (per * c.grant) / per
     let is := (List.range c.vl).filter (fun i => (s.cur.vr.preg g.toNat).getLsbD i)
     let core := s.core s.cur.place.core
     let illegal := fun (i : Instr) => Completes i s (fun t => t = takeTrap s { cause := 0x01 })
     let out := fun (j : Instr) (load : Bool) (off : Nat → Word) =>
       let place := fun (i : Nat) => 131072 * s.laneAt (lane i) + (off i).toNat
       let bytes := fun (i : Nat) => (List.range n).map (fun k => Table.get core.spad 0#8 (place i + k))
       let bad := is.filter (fun i => decide ((off i).toNat % n ≠ 0 ∨ core.spadSize < (off i).toNat + n))
       let skew := is.any (fun i => decide ((off i).toNat % n ≠ 0))
       (bad = [] → load = true → Completes j s (fun t => t = ({ s with cur := { s.cur with
         vr := s.cur.vr.applyAll (groupWrites c.grant w d.toNat (is.map (fun i => (i, leNum (bytes i))))) } } : State).past)) ∧
       (bad = [] → load = false → Completes j s (fun t => t = (s.setCore s.cur.place.core { core with
         spad := is.foldl (fun m i => ((List.range n).zip (leBytes n (s.cur.vr.elem c.grant w d.toNat i))).foldl
           (fun m e => Table.set m 0#8 (place i + e.1) e.2) m) core.spad }).past)) ∧
       ∀ i r, bad = i :: r → Completes j s (fun t =>
         t = takeTrap (s.moved true false [] [] bad)
           { cause := if skew then 0x03 else 0x09, addr := off i, elems := true })
     let unit := fun (i : Nat) => s.readS a + BitVec.ofNat 64 ((i / (per * c.grant) * per + i % per) * n)
     let byIndex := fun (i : Nat) => s.readS a + BitVec.ofNat 64 (s.cur.vr.elem c.grant (vtIw c.vtype) b.toNat i)
     let sized := fun (j : Instr) (p : Prop) => (w < 8 → illegal j) ∧ (8 ≤ w → p)
     let indexed := fun (j : Instr) (load : Bool) => sized j (
       (indexGroup s b = none → illegal j) ∧
       ∀ ix, indexGroup s b = some ix →
         (load = true ∧ meet group ix = true → illegal j) ∧
         (¬ (load = true ∧ meet group ix = true) → out j load byIndex))
     sized (.spldu d a g) (out (.spldu d a g) true unit) ∧ sized (.spstu d a g) (out (.spstu d a g) false unit) ∧
     indexed (.spld d a b g) true ∧ indexed (.spst d a b g) false) ∧
  (∀ (s : State) (d a b g : BitVec 5) (n : BitVec 3), s.idle →
     let c := s.cur.conf
     let w := vtSew c.vtype
     let fmt := vtFmt c.vtype
     let f := if w = 64 then fp64 else fp32
     let illegal := fun (i : Instr) => Completes i s (fun t => t = takeTrap s { cause := 0x01 })
     let es := (s.actives g.toNat c.vl).map (fun i => plainElem s d.toNat i (s.readS a + s.sindex b i))
     let at' := fun (e : VElem) => s.element s.cp .atomic e.al e.ea e.n
     let ok := es.filterMap (fun e =>
       match at' e with
       | .ok p => some (e, p)
       | .error _ => none)
     let causes := es.filterMap (fun e =>
       match at' e with
       | .ok _ => none
       | .error z => some (e, z))
     let eas := ((ok.map (fun e => e.1.ea.toNat)).eraseDups).mergeSort (fun x y => decide (x ≤ y))
     let v := fun (e : VElem × List Nat) => s.cur.vr.elem c.grant w d.toNat e.1.i
     let num := fun (x : Nat) => if fmt = 0 then (x : Int).bmod (2 ^ w) else (x % 2 ^ w : Nat)
     let out := fun (i : Instr) (fp : Bool) (op : Nat → Nat → Fl Nat) =>
       let one := fun (s : State) (ea : Nat) =>
         match ok.filter (fun e => e.1.ea.toNat == ea) with
         | [] => s
         | e :: r =>
           let t := r.foldl (fun (t : Fl Nat) x => Fl.mk (op t.val (v x)).val (t.fl ||| (op t.val (v x)).fl)) ⟨v e, 0⟩
           let z := op (leNum (e.2.map s.mem.byte)) t.val
           { s with
             mem := s.mem.writeAll s.writer (e.2.zip (leBytes (w / 8) z.val))
             cur := { s.cur with user := { s.cur.user with
               fflags := s.cur.user.fflags ||| BitVec.ofNat 64 (t.fl ||| z.fl) } } }
       let u := eas.foldl one s
       let legal := (w = 32 ∨ w = 64) ∧ (if fp then fmt = 2 else fmt = 0 ∨ fmt = 1) ∧ indexGroup s b ≠ none
       (¬ legal → illegal i) ∧
       (legal → (∀ e ∈ ok, (∀ p ∈ e.2, s.owned p = false ∧ s.cutOff p = false) ∧ s.poisoned e.2 = false) →
         (causes = [] → Completes i s (fun t => t = (u.marks [] 0).past)) ∧
         ∀ e z r, causes = (e, z) :: r → Completes i s (fun t =>
           t = takeTrap (u.marks (causes.map (fun x => x.1.i)) e.i)
             { cause := z, addr := e.ea, reissue := decide (z ≠ 0x30), elems := true, batch := s.batch .atomic causes }))
     out (.vamoadd d a b g n) false (fun x y => ⟨(x + y) % 2 ^ w, 0⟩) ∧
     out (.vamomin d a b g n) false (fun x y => ⟨if num y < num x then y else x, 0⟩) ∧
     out (.vamomax d a b g n) false (fun x y => ⟨if num x < num y then y else x, 0⟩) ∧
     out (.vamofadd d a b g n) true (fun x y => roundFl f 0 (sumTerms 0 [f.value x, f.value y])))

/-! ## Rays and layers -/

/-- R311 to R313: VTXN makes the transition of code C at each active element's object, lowest first, as r gives them; PG takes
whether each was legal, and stst is that of the lowest that was not, or of the lowest. Where an element faults the others are made,
and the lowest that faults traps, with vfirst naming it (log 18), and with no mark and RI 0 where its data is poisoned (R474, R493).
A word that completes clears fmask and vfirst (log 18). Where an element has to wait, the word does and none is made (log 31).

R302, R303, R311 to R313, R493: one element of VTXN, after those before it. An address that faults, or lies in no class, or whose
state byte cannot be read or has no entry, is a fault of the element; a byte that an engine owns or no port reaches makes the word
wait (log 31). A legal transition writes the next state, hands the object on where its entry has WAKE, and gives PG a 1; every other
entry gives a 0 and stst its FAIL. -/
def Obligations.VectorTransition : Prop :=
  (∀ (s : State) (c : BitVec 4) (a b g : BitVec 5), s.idle →
     let is := s.actives g.toNat s.cur.conf.vl
     let r := is.foldl (fun (r : VtxnRun) i => r.elem c.toNat i (s.readS a + s.sindex b i)) ⟨[], none, none, [], none, s⟩
     let u := r.s.writeRegs (predWrite g.toNat r.bits)
     (indexGroup s b = none → Completes (.vtxn c a b g) s (fun t => t = takeTrap s { cause := 0x01 })) ∧
     (indexGroup s b ≠ none →
       (is = [] → Completes (.vtxn c a b g) s (Passed s)) ∧
       (∀ x, r.waits = some x → Completes (.vtxn c a b g) s (fun t => t = s.waits x)) ∧
       (is ≠ [] → r.waits = none → r.faults = [] → Completes (.vtxn c a b g) s (fun t =>
         let word := match r.failed with
           | some x => x
           | none => r.first.getD s.cur.user.stst
         let v := u.marks [] 0
         t = ({ v with cur := { v.cur with user := { v.cur.user with stst := word } } } : State).past)) ∧
       (∀ i ad l, r.waits = none → r.faults = (i, 0x30, ad) :: l → Completes (.vtxn c a b g) s (fun t =>
         t = takeTrap u { cause := 0x30, addr := ad })) ∧
       ∀ i cause ad l, r.waits = none → r.faults = (i, cause, ad) :: l → cause ≠ 0x30 → Completes (.vtxn c a b g) s (fun t =>
         t = takeTrap (u.marks (r.faults.map (fun f => f.1)) i)
           { cause := cause, addr := ad, reissue := true, elems := true
             batch := (((r.faults.filter (fun f => f.2.1 == 0x05)).map
               (fun f => f.2.2.toNat / 2 ^ 21 * 2 ^ 21)).eraseDups).take 16 }))) ∧
  (∀ (r : VtxnRun) (code i : Nat) (ea : Word), code < 16 →
     let s := r.s
     let o := s.objs s.cur.id.part
     let fault := fun (c : Nat) (ad : Word) => r.elem code i ea = { r with faults := r.faults ++ [(i, c, ad)] }
     let waits := fun (x : WaitOn) => r.elem code i ea = { r with waits := some x }
     let reads := s.element s.cp .read 1 ea 1
     (∀ c, reads = .error c → fault c ea) ∧
     (∀ pas, reads = .ok pas →
       (o.find ea.toNat = none → fault 0x0F ea) ∧
       ∀ n cl j, o.find ea.toNat = some (n, cl, j) →
         (∀ c ad, s.stateByte s.cp cl j = .error (c, ad) → fault c ad) ∧
         ∀ sb, s.stateByte s.cp cl j = .ok sb →
           let st := (s.mem.byte sb).toNat
           let au := o.automaton cl.slot
           let e := (Table.get au.table 0#16 (16 * st + code)).toNat
           let legal := e.testBit 4 = true
           let next := e % 16
           let stst := fun (fail after : Nat) =>
             BitVec.ofNat 64 (fail + 2 + 16 * (st % 16) + 256 * after + 4096 * code + 65536 * n)
           let free := s.cutOff sb = false ∧ s.objectOwned o n j sb = false
           (s.cutOff sb = true → waits (.peer s.peerTag)) ∧
           (s.cutOff sb = false → s.objectOwned o n j sb = true → waits (r.waits.getD .other)) ∧
           (free → s.poisoned [sb] = true → fault 0x30 (cl.sarr + BitVec.ofNat 64 j)) ∧
           (free → s.poisoned [sb] = false → au.nst ≤ st → fault 0x10 ea) ∧
           (free → s.poisoned [sb] = false → st < au.nst → ¬ legal → r.elem code i ea = { r with
             bits := r.bits ++ [(i, false)]
             failed := some (r.failed.getD (stst 1 st))
             first := some (r.first.getD (stst 1 st)) }) ∧
           (free → s.poisoned [sb] = false → st < au.nst → legal →
             let u := { s with mem := s.mem.write (.sheet (Config.homeSheet (sb / 2 ^ 21)).val) sb (BitVec.ofNat 8 next) }
             r.elem code i ea = { r with
               bits := r.bits ++ [(i, true)]
               first := some (r.first.getD (stst 0 next))
               waits := if s.cur.anyPending = true ∧ e.testBit 10 = true ∧ cl.scope ≠ 0 then some (r.waits.getD .other)
                 else r.waits
               s := if e.testBit 11 = true then State.handOff s.cur.id.part n j sb cl.slot (o.waitersOf n j).length u
                 else u })))

/-- R441 to R446: BOXX and TRIX test each active element's ray against the box or the triangle at its address. PG takes whether
the ray hits, and for a hit BOXX writes the entry and TRIX the distance and two barycentric coordinates; a miss writes no
number. The sign that BOXX gives a zero entry is left open (log 11).

R445: what the box test comes to over the real numbers. The ray meets the box where no slab is inside out, no axis along which the
ray does not move leaves it outside, and the entry, the greatest of tmin and the nearer bounds, is not after the exit, the least of
tmax and the farther ones, and before tmax. It writes the entry rounded down. Nothing is hit where a coordinate is no finite number.

R446: what the triangle test comes to in exact sums, products and quotients, each rounded where the rule has R: the shear along the
axis of the largest direction, the edge functions, computed again at FP64 where one is 0, the sides of the edges or who owns them,
and the distance and weights. -/
def Obligations.RayTests : Prop :=
  (∀ (s : State) (d a b g : BitVec 5), s.idle →
    let c := s.cur.conf
    let es := fun (n : Nat) => (s.actives g.toNat c.vl).map (fun i =>
      VElem.mk i (BitVec.ofNat 64 (s.cur.vr.elem c.grant 64 b.toNat i)) 4 n [])
    let ray := fun (i n : Nat) => fp32.value (s.cur.vr.elem c.grant 32 ((a.toNat + n) % 32) i)
    let prim := fun (e : VElem) (n : Nat) =>
      fp32.value (leNum ((((s.placesOf true e).map s.mem.byte).drop (4 * n)).take 4))
    let out := fun (i : Instr) (bytes regs : Nat) (test : (Nat → Bool) → VElem → Option (List Nat)) =>
      let dst := (List.range regs).map (fun k => (d.toNat + k) % 32)
      let adr := [b.toNat, (b.toNat + 1) % 32]
      let legal := vtSew c.vtype = 32 ∧ vtLmul c.vtype = 1 ∧ g ≠ 0#5 ∧ (∀ k ∈ dst, k ∉ adr)
      let good := (es bytes).filter (fun e => !s.faults true e)
      let bad := (es bytes).filter (s.faults true)
      let result := fun (z : Nat → Bool) (is : List Nat) =>
        let hits := good.map (fun e => (e.i, test z e))
        let vals := hits.flatMap (fun h => (dst.zip (h.2.getD [])).map (fun x => (x.1, elemPos 32 h.1, 32, x.2)))
        let m := s.moved true false [] [] is
        ({ m with cur := { m.cur with
          vr := s.cur.vr.applyAll (gatherV vals ++ predWrite g.toNat (hits.map (fun h => (h.1, h.2.isSome)))) } } : State)
      (¬ legal → Completes i s (fun t => t = takeTrap s { cause := 0x01 })) ∧
      (legal → s.open true good →
        (bad = [] → Completes i s (fun t => ∃ z, t = (result z []).past)) ∧
        ∀ e r x, bad = e :: r → s.at true e = .error x → Completes i s (fun t => ∃ z,
          t = takeTrap (result z (bad.map VElem.i))
            { cause := x, addr := e.ea, reissue := decide (x ≠ 0x30), elems := true
              batch := s.batch .read (bad.map (fun e =>
                (e, match s.at true e with
                  | .error y => y
                  | .ok _ => 0))) }))
    out (.boxx d a b g) 24 1 (fun z e => (boxTest (ray e.i) (prim e) (z e.i)).map (fun t => [t])) ∧
    out (.trix d a b g) 36 3 (fun _ e => (triTest (ray e.i) (prim e)).map (fun h => [h.1, h.2.1, h.2.2]))) ∧
  (∀ (x b : Nat → Nat) (z : Bool),
     let ray := fun (k : Nat) => fp32.value (x k)
     let box := fun (k : Nat) => fp32.value (b k)
     let o := fun (a : Nat) => (ray a).real
     let d := fun (a : Nat) => (ray (3 + a)).real
     let lo := fun (a : Nat) => (box a).real
     let hi := fun (a : Nat) => (box (3 + a)).real
     let lim := fun (v : FV) =>
       match v with
       | .inf neg => if neg then (⊥ : EReal) else ⊤
       | v => (v.real : EReal)
     let near := fun (a : Nat) => ((min ((lo a - o a) / d a) ((hi a - o a) / d a) : ℝ) : EReal)
     let far := fun (a : Nat) => ((max ((lo a - o a) / d a) ((hi a - o a) / d a) : ℝ) : EReal)
     ∀ tn tf : EReal, IsGreatest {v | v = lim (ray 6) ∨ ∃ a < 3, d a ≠ 0 ∧ v = near a} tn →
       IsLeast {v | v = lim (ray 7) ∨ ∃ a < 3, d a ≠ 0 ∧ v = far a} tf →
       let hit := (∀ k < 6, (ray k).notFinite = false ∧ (box k).notFinite = false) ∧
         (ray 6).isNan = false ∧ (ray 7).isNan = false ∧ lim (ray 6) ≤ lim (ray 7) ∧
         (∀ a < 3, lo a ≤ hi a ∧ (d a = 0 → lo a ≤ o a ∧ o a ≤ hi a)) ∧ tn ≤ tf ∧ tn < lim (ray 7)
       (¬ hit → boxTest ray box z = none) ∧
       (hit → ∃ r, boxTest ray box z = some r ∧ (tn = ⊥ → r = fp32.signed true fp32.infEnc) ∧
         (∀ v : ℝ, tn = v → v ≠ 0 → ∃ fl, Rounded fp32 2 false v ⟨r, fl⟩) ∧
         (tn = 0 → (∀ a < 3, d a ≠ 0 → near a < 0) → r = fp32.signed (ray 6).neg 0) ∧
         (tn = 0 → (∃ a < 3, d a ≠ 0 ∧ near a = 0) → r = fp32.signed z 0))) ∧
  (∀ (x y : Nat → Nat),
     let ray := fun (k : Nat) => fp32.value (x k)
     let tri := fun (k : Nat) => fp32.value (y k)
     let size := fun (a : Nat) => |(ray (3 + a)).real|
     let valid := (∀ k < 6, (ray k).notFinite = false) ∧ (∀ k < 9, (tri k).notFinite = false) ∧
       (ray 6).isNan = false ∧ (ray 7).isNan = false ∧ ∃ a < 3, size a ≠ 0
     let round := fun (f : Fmt) (v : FV) => f.value (roundOnce f 0 false v).val
     let sub := fun (u v : FV) => (sumTerms 0 [u, v.negate]).val
     let mul := fun (u v : FV) => (prodTerms [u, v]).val
     (¬ valid → triTest ray tri = none) ∧
     (valid → ∀ kz < 3, (∀ a < 3, size a ≤ size kz ∧ (size a = size kz → kz ≤ a)) →
       let back := (ray (3 + kz)).neg
       let kx := if back then (kz + 2) % 3 else (kz + 1) % 3
       let ky := if back then (kz + 1) % 3 else (kz + 2) % 3
       let slope := fun (v : FV) => round fp32 (v.div (ray (3 + kz))).val
       let rel := fun (k a : Nat) => round fp32 (sub (tri (3 * k + a)) (ray a))
       let px := fun (k : Nat) => round fp32 (sub (rel k kx) (mul (slope (ray (3 + kx))) (rel k kz)))
       let py := fun (k : Nat) => round fp32 (sub (rel k ky) (mul (slope (ray (3 + ky))) (rel k kz)))
       let pz := fun (k : Nat) => round fp32 (mul (slope FV.one) (rel k kz))
       let edge := fun (f : Fmt) (p q : Nat) => round f (sub (mul (px p) (py q)) (mul (py p) (px q)))
       let f := if (edge fp32 2 1).isZero || (edge fp32 0 2).isZero || (edge fp32 1 0).isZero then fp64 else fp32
       let u := edge f 2 1
       let v := edge f 0 2
       let w := edge f 1 0
       let det := (sumTerms 0 [u, v, w]).val
       let owned := fun (p q : Nat) => FV.lt (py p) (py q) = true ∨
         (FV.eq (py p) (py q) = true ∧ FV.lt (px q) (px p) = true)
       let inside := fun (e : FV) (p q : Nat) =>
         (e.isZero = true → det.neg = false → owned p q) ∧ (e.isZero = true → det.neg = true → owned q p) ∧
         (e.isZero = false → e.neg = det.neg)
       let ratio := fun (v : FV) => (roundOnce fp32 0 false (v.div det).val).val
       let t := ratio (sumTerms 0 [mul u (pz 0), mul v (pz 1), mul w (pz 2)]).val
       let hit := det.isZero = false ∧ det.isNan = false ∧ inside u 1 2 ∧ inside v 2 0 ∧ inside w 0 1 ∧
         (FV.lt (ray 6) (fp32.value t) = true ∨ FV.eq (ray 6) (fp32.value t) = true) ∧
         FV.lt (fp32.value t) (ray 7) = true
       (hit → triTest ray tri = some (t, ratio v, ratio w)) ∧ (¬ hit → triTest ray tri = none)))

/-- R453, R456, R457, R459: the ML words send one operation for each active element whose handle names a configured target and a
pixel of it, and its unit applies it later. MLRSLV's registers are written when the unit has answered; MLINS and MLINS2 take a free
node for each pixel, from the core's list and, where that is empty, from a page that the hub has not yet given out, whose other
nodes join the list; they raise ML_POOL with nothing sent where both together hold too few. Which node and page is left open (log
13). The order in which the units apply operations is that of their events (log 22), and an operation takes along what its thread's
PFENCEs have made it see (log 7).

R449, R454: MLCFG configures, extends or removes a multi-layer target from the 64-byte descriptor at sA, and ends as a PFENCE of the
layer path. It writes −1 for a descriptor out of range, −2 where the target is configured otherwise, −3 for fewer pages, and else 0.
A range whose entries let no read and write pass traps. -/
def Obligations.LayersAndTargets : Prop :=
  (∀ (s : State) (d a b g : BitVec 5), s.idle →
     let c := s.cur.conf
     let is := (List.range c.vl).filter (fun i => (s.cur.vr.preg g.toNat).getLsbD i)
     let reg := fun (r i : Nat) => s.cur.vr.elem c.grant 32 (r % 32) i
     let h := fun (i : Nat) => reg b.toNat i
     let target := fun (i : Nat) => Table.get (s.objs s.cur.id.part).targets none (h i / 2 ^ 30 % 4)
     let pixel := fun (t : Target) (x y : Nat) =>
       t.head + BitVec.ofNat 64 (256 * ((t.width + 7) / 8 * (y / 8) + x / 8) + 4 * (8 * (y % 8) + x % 8))
     let one := fun (i : Nat) => (target i).bind (fun t =>
       let p := h i % 2 ^ 28
       if p < t.width * t.height then some (pixel t (p % t.width) (p / t.width)).toNat else none)
     let op := fun (i : Nat) (ks : List MlKind) => MlOp.mk (8192 * s.fresh + i) s.cur.id.part (h i / 2 ^ 30 % 4) s.cur.place.core
       s.cur.id s.cur.prog.fences ks
     let rg := fun (r i : Nat) => BitVec.ofNat 64 (reg r i + 2 ^ 32 * reg (r + 1) i)
     let shaped := vtSew c.vtype = 32 ∧ vtLmul c.vtype = 1
     let dst := [d.toNat, (d.toNat + 1) % 32]
     let sent := fun (ops : List MlOp) (ev : Nat → Instr) (viq : List VEntry) => State.past { s with
       mlq := s.mlq ++ ops, inputs := s.inputs ++ ops.map (fun o => ev o.id), cur := { s.cur with viq := viq } }
     let illegal := fun (i : Instr) => Completes i s (fun t => t = takeTrap s { cause := 0x01 })
     let cell := fun (i : Nat) => match target i with
       | none => []
       | some t => (List.range 4).filterMap (fun k =>
           let x := 2 * (h i % 2 ^ 28 % ((t.width + 1) / 2)) + k % 2
           let y := 2 * (h i % 2 ^ 28 / ((t.width + 1) / 2)) + k / 2
           if (reg (a.toNat + 3) i).testBit k = true ∧ x < t.width ∧ y < t.height then some (pixel t x y).toNat else none)
     let free := fun (u : State) (n : Nat) => Table.get (u.core s.cur.place.core).freeNodes [] n
     let pages := fun (u : State) (n : Nat) => match Table.get (u.objs s.cur.id.part).targets none n with
       | none => []
       | some t => t.undrawn
     let nodes := fun (l : List Nat) =>
       (l.flatMap (fun p => (List.range 256).map (fun k => 256 * p + k))).filter (fun n => decide (n ≠ 0xFFFFFF))
     let inserts := fun (ins : Instr) (px : Nat → List Nat) =>
       let mine := fun (n : Nat) => is.filter (fun i => decide (h i / 2 ^ 30 % 4 = n))
       let short := ∃ n < 4, (free s n).length + (nodes (pages s n)).length < ((mine n).flatMap px).length
       (short → Completes ins s (fun t => t = takeTrap s { cause := 0x12 })) ∧
       (¬ short → Completes ins s (fun t => ∃ node : Nat → Nat → Nat,
         let ops := (is.filter (fun i => decide (px i ≠ []))).map (fun i => op i ((px i).zipIdx.map (fun e =>
           .insert e.1 (node i e.2) (BitVec.ofNat 32 (reg a.toNat i)) (rg (a.toNat + 1) i))))
         t = { s.past with
           mlq := s.mlq ++ ops, inputs := s.inputs ++ ops.map (fun o => .mlInsertion o.id)
           cores := t.cores, objects := t.objects } ∧
         (∀ k, k ≠ s.cur.place.core → t.core k = s.core k) ∧
         t.core s.cur.place.core = { s.core s.cur.place.core with freeNodes := (t.core s.cur.place.core).freeNodes } ∧
         (∀ k, k ≠ s.cur.id.part → t.objs k = s.objs k) ∧
         t.objs s.cur.id.part = { s.objs s.cur.id.part with targets := (t.objs s.cur.id.part).targets } ∧
         ∀ n, Table.get (t.objs s.cur.id.part).targets none n =
             (Table.get (s.objs s.cur.id.part).targets none n).map (fun x => { x with undrawn := pages t n }) ∧
           ∃ drawn, (pages s n).Perm (drawn ++ pages t n) ∧
             ((mine n).flatMap (fun i => (List.range (px i).length).map (node i)) ++ free t n).Perm
               (free s n ++ nodes drawn) ∧
             (((mine n).flatMap px).length ≤ (free s n).length → drawn = []) ∧ (drawn ≠ [] → (free t n).length < 256)))
     (¬ shaped → illegal (.mlclr b g) ∧ illegal (.mlins a b g) ∧ illegal (.mlins2 a b g)) ∧
     (¬ shaped ∨ b.toNat ∈ dst → illegal (.mlrslv d a b g)) ∧
     (shaped →
       Completes (.mlclr b g) s (fun t =>
         t = sent (is.filterMap (fun i => (one i).map (fun p => op i [.clear p]))) .mlClearApply []) ∧
       (b.toNat ∉ dst →
         let ops := is.filterMap (fun i =>
           (one i).map (fun p => op i [.resolve p ((h i).testBit 29) i d.toNat (rg a.toNat i)]))
         Completes (.mlrslv d a b g) s (fun t =>
           t = sent ops .mlResolveApply (ops.map (fun o => .reply o.id dst)))) ∧
       inserts (.mlins a b g) (fun i => (one i).toList) ∧ inserts (.mlins2 a b g) cell)) ∧
  (∀ (s : State) (d a : BitVec 5) (bs : List Byte), s.idle → s.mlq.any (fun o => decide (o.thread = s.cur.id)) = false →
     s.loadBlock 64 (s.readS a) 64 = .ok bs →
     let pn := s.cur.id.part
     let p := s.part pn
     let f := fun (o n : Nat) => leNum ((bs.drop o).take n)
     let width := f 0 2
     let height := f 2 2
     let k := f 4 1
     let head := f 8 8
     let pool := f 16 8
     let pages := f 24 4
     let n := f 6 1
     let valid := width ≤ 16384 ∧ 1 ≤ height ∧ height ≤ 16384 ∧ 1 ≤ k ∧ k ≤ 16 ∧ f 5 1 ≤ 2 ∧ n ≤ 3 ∧ f 7 1 = 0 ∧
       head % 256 = 0 ∧ pool % 4096 = 0 ∧ 1 ≤ pages ∧ pages ≤ 65536 ∧ f 28 36 = 0
     let span := 256 * ((width + 7) / 8) * ((height + 7) / 8)
     let fits := (span = 0 ∨ p.windowHolds (head, span) = true) ∧ p.windowHolds (pool, 4096 * pages) = true
     let new : Target := ⟨width, height, k, f 5 1, BitVec.ofNat 64 head, BitVec.ofNat 64 pool, pages, List.range pages⟩
     let put := fun (x : Option Target) => s.setObjs pn { s.objs pn with targets := Table.set (s.objs pn).targets none n x }
     let ends := fun (v : Int) (u t : State) =>
       t.readS d = (if d = 0#5 then 0#64 else BitVec.ofInt 64 v) ∧ (∀ r, r ≠ d → t.readS r = s.readS r) ∧
       t = { u with cur := { s.cur.past with
         s := t.cur.s, prog := { s.cur.past.prog with fences := t.cur.prog.fences } } } ∧
       Table.get t.cur.prog.fences 0 (8 * 2 + 3) = s.mem.logLen ∧
       ∀ k, k ≠ 8 * 2 + 3 → Table.get t.cur.prog.fences 0 k = Table.get s.cur.prog.fences 0 k
     let out := fun (q : State → Prop) => Completes (.mlcfg d a) s q
     let ranges := fun (l : List (Nat × Nat)) (go : State → Prop) =>
       (∀ e v, (l.findSome? (fun r => s.rangeBad (BitVec.ofNat 64 r.1) r.2)) = some (e, v) → out (fun t =>
         t = takeTrap s { cause := e, addr := v, batch := if e = 0x05 then [v.toNat / 2 ^ 21 * 2 ^ 21] else [] })) ∧
       ((l.findSome? (fun r => s.rangeBad (BitVec.ofNat 64 r.1) r.2)) = none → out go)
     (¬ (valid ∧ fits) → out (ends (-1) s)) ∧
     (valid → fits → width = 0 →
       (s.mlq.any (fun o => decide (o.part = pn) && decide (o.target = n)) = true → out (fun t => t = s.waits .other)) ∧
       (s.mlq.any (fun o => decide (o.part = pn) && decide (o.target = n)) = false → out (ends 0 ((put none).dropFree n)))) ∧
     (valid → fits → width ≠ 0 →
       ((s.objs pn).target n = none → ranges [(head, span), (pool, 4096 * pages)] (ends 0 (put (some new)))) ∧
       ∀ b, (s.objs pn).target n = some b →
         let same := b.width = width ∧ b.height = height ∧ b.k = k ∧ b.merge = f 5 1 ∧ b.head = BitVec.ofNat 64 head ∧
           b.pool = BitVec.ofNat 64 pool
         (¬ same → out (ends (-2) s)) ∧ (same → pages < b.pages → out (ends (-3) s)) ∧
         (same → b.pages ≤ pages → ranges [(pool + 4096 * b.pages, 4096 * (pages - b.pages))]
           (ends 0 (put (some { b with
             pages := pages, undrawn := b.undrawn ++ (List.range (pages - b.pages)).map (fun q => b.pages + q) }))))))

/-! ## Vector words -/

/-- R43 to R46: an E-side word with C = 1 whose checks pass opens a convoy, or joins the one being framed, and has no effect yet; the
one with C = 0 ends it, and its members execute in order, each on what those before it have written, as a convoy of VADD words shows under INT and
UINT; one that waits or traps leaves no effect of its own. A fourth
member with C = 1, any word of the A-side inside a convoy, an end word of an active loop before the last member, and a convoy of any
length in which a member writes a piece of state that an earlier one reads, or, not being the last, one that it reads itself, raise
CONVOY_ILLEGAL with the first word as the address. A word whose checks fail raises ILLEGAL at that address, whatever else holds.
R34 to R36: a word that is no instruction raises ILLEGAL, or CONVOY_ILLEGAL where it is of the A-side inside a convoy. R395: a word
that needs rows where the thread has none raises MATRIX_NOT_ATTACHED. (Which of these count as causes of the E-side is log 15's
reading; that a word which joins a convoy ends a pending reissue is log 17's; that MATRIX_NOT_ATTACHED comes last is log 21's.) -/
def Obligations.ConvoyFraming : Prop :=
  (∀ (vt : BitVec 32) (gr tg : Nat) (c : BitVec 1) (d a b g : BitVec 5) (k : BitVec 5) (f : BitVec 2),
    let group := fun (r : BitVec 5) => (List.range (vtLmul vt)).map (fun k => (r.toNat + k) % 32)
    let pred := fun (r : BitVec 5) => if r = 0#5 then [] else [64 + r.toNat]
    let tiles := if vtFmt vt = 2 ∧ vtSew vt = 64 then [128 + 2 * d.toNat % 32, 128 + (2 * d.toNat + 1) % 32] else [128 + d.toNat]
    let pieces := fun (i : Instr) (reads writes : List Nat) => eReads vt gr tg i = reads ∧ eWrites vt gr tg i = writes
    pieces (.vadd c d a b g) (group a ++ group b ++ pred g) (group d) ∧
    pieces (.vmacc c d a b g) (group a ++ group b ++ pred g ++ group d) (group d) ∧
    pieces (.pand c d a b g) (pred g ++ pred a ++ pred b) (pred d) ∧ pieces (.pcnt c k a g) (pred g ++ pred a ++ [96 + k.toNat]) [96 + k.toNat] ∧
    pieces (.mgp c d a b g f) ([32 + a.toNat] ++ [32 + b.toNat] ++ pred g) [32 + d.toNat] ∧ pieces (.mzero c d 0#1 0#1) [] tiles) ∧
  (∀ s : State, s.cur.viq = [] →
    let t := s.cur
    let c := t.conf
    let raises := fun (i : Instr) (cause : Nat) (pc : Word) =>
      Completes i s (fun u => u = takeTrap s { cause := cause, eside := true, epc := some pc })
    let fresh := Convoy.open t
    (∀ w : BitVec 32, let op := w.toNat / 2 ^ 25 % 64
      Completes (.illegalWord w) s (fun u => u = takeTrap s (match t.framing with
        | none => { cause := 0x01, eside := decide (0x28 ≤ op ∧ op ≤ 0x37) }
        | some v => { cause := if 1 ≤ op ∧ op ≤ 0x23 then 0x02 else 0x01, eside := true, epc := some v.pc }))) ∧
    (∀ i v, t.framing = some v → i.hasWord = true → s.esideWord i = none → (∀ w, i ≠ .illegalWord w) → raises i 0x02 v.pc) ∧
    (fresh.pc = t.pc ∧ fresh.members = [] ∧ fresh.loops = t.loops ∧ fresh.done = 0 ∧ fresh.pushes = [] ∧ fresh.late = 0 ∧
      fresh.bad = false) ∧
    ∀ (i : Instr) (sa sb : Word),
      let v := t.framing.getD fresh
      let all := v.members ++ [Member.mk i sa sb 0#4096 false]
      let atEnd := decide ((t.loops.lc1 ≠ 0#64 ∧ t.loops.le1 = t.pc) ∨ (t.loops.lc0 ≠ 0#64 ∧ t.loops.le0 = t.pc))
      let reads := fun (m : Member) => eReads c.vtype c.grant c.tgrant m.instr
      let writes := fun (m : Member) => eWrites c.vtype c.grant c.tgrant m.instr
      let clash := ∃ pre m post, all = pre ++ m :: post ∧
        ((∃ q ∈ pre, ∃ k ∈ writes m, k ∈ reads q) ∨ (post ≠ [] ∧ ∃ k ∈ writes m, k ∈ reads m))
      let rows := ∃ m ∈ all, needsRows m.instr = true
      (∀ x, s.esideWord i = some (x, sa, sb, false) → raises i 0x01 v.pc) ∧
      (s.esideWord i = some (1#1, sa, sb, true) →
        (all.length ≤ 3 → Completes i s (fun u => u = { s with cur := { t with
          pc := t.pc + 4#64
          framing := some { v with members := all, bad := v.bad || atEnd }
          prog := { t.prog with wait := .none, reissue := false } } })) ∧
        (4 ≤ all.length → raises i 0x02 v.pc)) ∧
      (s.esideWord i = some (0#1, sa, sb, true) →
        (v.bad = true ∨ clash → raises i 0x02 v.pc) ∧
        (v.bad = false → ¬ clash → c.tgrant = 0 → rows → raises i 0x13 v.pc) ∧
        (v.bad = false → ¬ clash → c.tgrant ≠ 0 ∨ ¬ rows → v.done = 0 →
          (∀ m ∈ all, (tokensOf m.instr).1 = false ∧ (tokensOf m.instr).2.1 = false) →
          let seen := capture c.fmask t.mat.chk all
          let popped := match Table.get t.prog.wpops none t.level with
            | some (pc, l) => if pc = v.pc then l else []
            | none => []
          let at_ := fun (k : Nat) => { v with
            members := seen.1, vl := c.vl, vtype := c.vtype, grant := c.grant, tgrant := c.tgrant, popped := popped
            sregs := t.s, instret := t.prog.instret, chk := t.mat.chk, done := k }
          ∀ (n : Nat) (run : Nat → State),
            run 0 = { s with cur := { t with
              pc := t.advance.pc, loops := t.advance.loops, framing := none, viq := [.convoy (at_ 0)]
              mat := { t.mat with chk := seen.2 }
              prog := { t.prog with
                wait := .none, last := some t.pc, reissue := false, wpops := Table.set t.prog.wpops none t.level none } } } →
            (∀ k < n, ∃ m, seen.1[k]? = some m ∧ effect m.instr (at_ k) m (run k) = .done (run (k + 1))) →
            (n = all.length → Completes i s (fun u => u = retire 0 (at_ n) (run n))) ∧
            ∀ m, seen.1[n]? = some m → match effect m.instr (at_ n) m (run n) with
              | .done _ => True
              | .block => Completes i s (fun u => u = (run n).setEntry 0 (.convoy (at_ n)))
              | .trap x => Completes i s (fun u => u = eTrap (at_ n) x (run n))
              | .after x r => Completes i s (fun u => u = eTrap (at_ n) x r)))) ∧
  ∀ (s : State) (d a b g : BitVec 5) (v : Convoy) (regs : List (BitVec 5 × BitVec 5 × BitVec 5 × BitVec 5)),
    s.cur.viq = [] → vtFmt s.cur.conf.vtype ≤ 1 → s.cur.framing = some v → v.members = regs.map (fun r =>
      ⟨.vadd 1#1 r.1 r.2.1 r.2.2.1 r.2.2.2, 0#64, 0#64, 0#4096, false⟩) →
    v.bad = false → v.done = 0 → v.pushes = [] → v.late = 0 → regs.length ≤ 3 →
    let t := s.cur
    let group := fun (r : BitVec 5) => (List.range (vtLmul t.conf.vtype)).map (fun k => (r.toNat + k) % 32)
    let all := regs ++ [(d, a, b, g)]
    let c := t.conf
    let w := vtSew c.vtype
    let num := fun (x : Nat) => if vtFmt c.vtype = 0 then (x : Int).bmod (2 ^ w) else (x : Int)
    let lo : Int := if vtFmt c.vtype = 0 then -2 ^ (w - 1) else 0
    let hi : Int := if vtFmt c.vtype = 0 then 2 ^ (w - 1) - 1 else 2 ^ w - 1
    let fit := fun (x : Int) => ((if vtSat c.vtype then max lo (min hi x) else x) % 2 ^ w).toNat
    let add := fun (vr : VRegs) (r : BitVec 5 × BitVec 5 × BitVec 5 × BitVec 5) =>
      vr.applyAll (groupWrites c.grant w r.1.toNat (((List.range c.vl).filter (fun i =>
        (vr.preg r.2.2.2.toNat).getLsbD i)).map (fun i => (i, fit (num (vr.elem c.grant w r.2.1.toNat i) +
          num (vr.elem c.grant w r.2.2.1.toNat i))))))
    (∀ pre r post, all = pre ++ r :: post →
      (∀ q ∈ pre, ∀ k ∈ group r.1, k ∉ group q.2.1 ∧ k ∉ group q.2.2.1) ∧
      (post ≠ [] → ∀ k ∈ group r.1, k ∉ group r.2.1 ∧ k ∉ group r.2.2.1)) →
    Completes (.vadd 0#1 d a b g) s (fun u => u = { s.ran with cur := { s.ran.cur with
      framing := none
      vr := all.foldl add t.vr
      prog := { s.ran.cur.prog with instret := t.prog.instret + BitVec.ofNat 64 all.length } } })

/-- R167 to R169, R41: the VINT words, and the VINTS words whose second operand is the low bits of sB, on the active elements of the
group. Under SAT what overflows is clamped, and else it wraps; a quotient by zero is all ones. Other formats raise ILLEGAL. -/
def Obligations.VectorInteger : Prop :=
  ∀ (s : State) (d a b g : BitVec 5), s.idle →
    let c := s.cur.conf
    let w := vtSew c.vtype
    let int := decide (vtFmt c.vtype = 0)
    let sg := fun (x : Nat) => (x : Int).bmod (2 ^ w)
    let num := fun (x : Nat) => if int then sg x else (x : Int)
    let lo : Int := if int then -2 ^ (w - 1) else 0
    let hi : Int := if int then 2 ^ (w - 1) - 1 else 2 ^ w - 1
    let clamp := fun (v : Int) => max lo (min hi v)
    let wrap := fun (v : Int) => (v % 2 ^ w).toNat
    let fit := fun (v : Int) => if vtSat c.vtype then wrap (clamp v) else wrap v
    let el := fun (r : BitVec 5) (i : Nat) => s.cur.vr.elem c.grant w r.toNat i
    let out := fun (vv vs : Instr) (f : Nat → Nat → Nat → Nat) =>
      let ws := fun (y : Nat → Nat) =>
        groupWrites c.grant w d.toNat ((s.activeIn g c.vl).map (fun i => (i, f (el d i) (el a i) (y i))))
      (vtFmt c.vtype ≤ 1 → Computes vv (ws (el b)) 0 s ∧ Computes vs (ws (fun _ => (s.readS b).toNat % 2 ^ w)) 0 s) ∧
      (1 < vtFmt c.vtype → Raises vv 0x01 s ∧ Raises vs 0x01 s)
    out (.vadd 0#1 d a b g) (.vintsVadd 0#1 d a b g) (fun _ x y => fit (num x + num y)) ∧
    out (.vsub 0#1 d a b g) (.vintsVsub 0#1 d a b g) (fun _ x y => fit (num x - num y)) ∧
    out (.vmul 0#1 d a b g) (.vintsVmul 0#1 d a b g) (fun _ x y => fit (num x * num y)) ∧
    out (.vmulh 0#1 d a b g) (.vintsVmulh 0#1 d a b g) (fun _ x y => wrap (num x * num y / 2 ^ w)) ∧
    out (.vmin 0#1 d a b g) (.vintsVmin 0#1 d a b g) (fun _ x y => if sg y < sg x then y else x) ∧
    out (.vmax 0#1 d a b g) (.vintsVmax 0#1 d a b g) (fun _ x y => if sg x < sg y then y else x) ∧
    out (.vminu 0#1 d a b g) (.vintsVminu 0#1 d a b g) (fun _ x y => min x y) ∧
    out (.vmaxu 0#1 d a b g) (.vintsVmaxu 0#1 d a b g) (fun _ x y => max x y) ∧
    out (.vand 0#1 d a b g) (.vintsVand 0#1 d a b g) (fun _ x y => x &&& y) ∧
    out (.vor 0#1 d a b g) (.vintsVor 0#1 d a b g) (fun _ x y => x ||| y) ∧
    out (.vxor 0#1 d a b g) (.vintsVxor 0#1 d a b g) (fun _ x y => x ^^^ y) ∧
    out (.vsll 0#1 d a b g) (.vintsVsll 0#1 d a b g) (fun _ x y => x * 2 ^ (y % w) % 2 ^ w) ∧
    out (.vsrl 0#1 d a b g) (.vintsVsrl 0#1 d a b g) (fun _ x y => x / 2 ^ (y % w)) ∧
    out (.vsra 0#1 d a b g) (.vintsVsra 0#1 d a b g) (fun _ x y => wrap (sg x / 2 ^ (y % w))) ∧
    out (.vmacc 0#1 d a b g) (.vintsVmacc 0#1 d a b g) (fun z x y => fit (num z + num x * num y)) ∧
    out (.vdiv 0#1 d a b g) (.vintsVdiv 0#1 d a b g) (fun _ x y => if num y = 0 then 2 ^ w - 1
      else if int = true ∧ hi < (num x).tdiv (num y) then (if vtSat c.vtype then wrap hi else 2 ^ (w - 1))
      else wrap ((num x).tdiv (num y))) ∧
    out (.vaddsat 0#1 d a b g) (.vintsVaddsat 0#1 d a b g) (fun _ x y => wrap (clamp (num x + num y))) ∧
    out (.vsubsat 0#1 d a b g) (.vintsVsubsat 0#1 d a b g) (fun _ x y => wrap (clamp (num x - num y)))

/-- R170, R171, R182, R127: the VFP, VFPS and VCPX words on the active elements, each rounded once under RM; the flags of all join
fflags. The complex words take CF32 elements, a real part below an imaginary one. Other formats raise ILLEGAL. (NV of a sum of more
than two terms is log 30's.)

R132, R135 to R139: VCVT converts the active elements from format F and width E to those of vtype, with a scale of their block where
SCL says so (the length of the source group is log 18's reading); VSCALE writes the scale that brings an element to the largest
number of format B, rounded up; VQMAX writes the largest magnitude of each block of 128 as FP32. Operands that R137 to R139 do not
allow raise ILLEGAL. -/
def Obligations.VectorFloatAndConversion : Prop :=
  (∀ (s : State) (d a b g : BitVec 5), s.idle →
     let c := s.cur.conf
     let w := vtSew c.vtype
     let fmt := vtFmt c.vtype
     let rm := c.vtype.toNat / 2 ^ 10 % 4
     let f := if fmt = 3 then bf16 else if w = 64 then fp64 else if w = 16 then fp16 else fp32
     let v := f.value
     let el := fun (r : BitVec 5) (i : Nat) => s.cur.vr.elem c.grant w r.toNat i
     let y := el
     let k := (s.readS b).toNat % 2 ^ w
     let out' := fun (ok : Prop) (i : Instr) (y : Nat → Nat) (op : Nat → Nat → Nat → Fl Nat) =>
       let rs := (s.activeIn g c.vl).map (fun i => (i, op (el d i) (el a i) (y i)))
       (ok → Computes i (groupWrites c.grant w d.toNat (rs.map (fun e => (e.1, e.2.val)))) (flagsOf (rs.map (fun e => e.2))) s) ∧
       (¬ ok → Raises i 0x01 s)
     let out := out' (fmt = 2 ∨ fmt = 3)
     let cx := out' (fmt = 8 ∧ w = 64)
     let signed := fun (x : Nat) (neg : Bool) =>
       if (v x).isNan then Fl.mk f.nan (if (v x).isSig then fNV else 0) else ⟨f.signed neg (x % 2 ^ (f.eb + f.fb)), 0⟩
     let re := fun (x : Nat) => fp32.value (x % 2 ^ 32)
     let im := fun (x : Nat) => fp32.value (x / 2 ^ 32 % 2 ^ 32)
     let minus := fun (x : Fl FV) => Fl.mk x.val.negate x.fl
     let pair := fun (l m : List (Fl FV)) =>
       let p := roundFl fp32 rm (sumFl rm l)
       let q := roundFl fp32 rm (sumFl rm m)
       Fl.mk (p.val + q.val * 2 ^ 32) (p.fl ||| q.fl)
     out (.vfadd 0#1 d a b g) (y b) (fun _ x y => roundFl f rm (sumTerms rm [v x, v y])) ∧
     out (.vfpsVfadd 0#1 d a b g) (fun _ => k) (fun _ x y => roundFl f rm (sumTerms rm [v x, v y])) ∧
     out (.vfsub 0#1 d a b g) (y b) (fun _ x y => roundFl f rm (sumTerms rm [v x, (v y).negate])) ∧
     out (.vfpsVfsub 0#1 d a b g) (fun _ => k) (fun _ x y => roundFl f rm (sumTerms rm [v x, (v y).negate])) ∧
     out (.vfmul 0#1 d a b g) (y b) (fun _ x y => roundFl f rm ((v x).mul (v y))) ∧
     out (.vfpsVfmul 0#1 d a b g) (fun _ => k) (fun _ x y => roundFl f rm ((v x).mul (v y))) ∧
     out (.vfdiv 0#1 d a b g) (y b) (fun _ x y => roundFl f rm ((v x).div (v y))) ∧
     out (.vfpsVfdiv 0#1 d a b g) (fun _ => k) (fun _ x y => roundFl f rm ((v x).div (v y))) ∧
     out (.vfma 0#1 d a b g) (y b) (fun z x y => roundFl f rm (sumFl rm [(v x).mul (v y), ⟨v z, 0⟩])) ∧
     out (.vfpsVfma 0#1 d a b g) (fun _ => k) (fun z x y => roundFl f rm (sumFl rm [(v x).mul (v y), ⟨v z, 0⟩])) ∧
     out (.vfms 0#1 d a b g) (y b) (fun z x y => roundFl f rm (sumFl rm [(v x).mul (v y), ⟨(v z).negate, 0⟩])) ∧
     out (.vfpsVfms 0#1 d a b g) (fun _ => k) (fun z x y => roundFl f rm (sumFl rm [(v x).mul (v y), ⟨(v z).negate, 0⟩])) ∧
     out (.vfmin 0#1 d a b g) (y b) (fun _ x y => fminmax f false x y) ∧
     out (.vfpsVfmin 0#1 d a b g) (fun _ => k) (fun _ x y => fminmax f false x y) ∧
     out (.vfmax 0#1 d a b g) (y b) (fun _ x y => fminmax f true x y) ∧
     out (.vfpsVfmax 0#1 d a b g) (fun _ => k) (fun _ x y => fminmax f true x y) ∧
     out (.vfsqrt 0#1 d a g) (y a) (fun _ x _ => sqrtOnce f rm (v x)) ∧
     out (.vfabs 0#1 d a g) (y a) (fun _ x _ => signed x false) ∧
     out (.vfneg 0#1 d a g) (y a) (fun _ x _ => signed x (!x.testBit (f.eb + f.fb))) ∧
     cx (.vcmul 0#1 d a b g) (y b) (fun _ x y => pair [(re x).mul (re y), minus ((im x).mul (im y))] [(re x).mul (im y), (im x).mul (re y)]) ∧
     cx (.vcmac 0#1 d a b g) (y b) (fun z x y =>
       pair [⟨re z, 0⟩, (re x).mul (re y), minus ((im x).mul (im y))] [⟨im z, 0⟩, (re x).mul (im y), (im x).mul (re y)]) ∧
     cx (.vcmulc 0#1 d a b g) (y b) (fun _ x y =>
       pair [(re x).mul (re y), (im x).mul (im y)] [(im x).mul (re y), minus ((re x).mul (im y))]) ∧
     cx (.vcabs2 0#1 d a g) (y a) (fun _ x _ => roundFl fp32 rm (sumFl rm [(re x).mul (re x), (im x).mul (im x)]))) ∧
  (∀ (s : State) (d a b g : BitVec 5) (e : BitVec 3) (f : BitVec 4), s.idle →
     let c := s.cur.conf
     let vt := c.vtype
     let w := vtSew vt
     let on := s.activeIn g c.vl
     let sw := sewBits e.toNat
     let sf := f.toNat
     let r := s.cur.vr
     let out := fun (i : Instr) (legal : Bool) (width : Nat) (l : List (Nat × Fl Nat)) =>
       (legal = true → Computes i (groupWrites c.grant width d.toNat (l.map (fun x => (x.1, x.2.val))))
         (flagsOf (l.map (fun x => x.2))) s) ∧
       (legal = false → Raises i 0x01 s)
     let conv := fun (r : VRegs) (i : Nat) =>
       let x := r.elem c.grant sw a.toNat i
       let scale := fp32.value (r.elem c.grant 32 (vt.toNat / 2 ^ 14 % 32) (i / 128))
       if sf = 8 then convCx (vtRm vt) x else convOne sf vt (scaled sf sw vt scale (elemValue sf sw x))
     let toMax := fun (i : Nat) =>
       let x := fp32.value (r.elem c.grant w a.toNat i)
       let top := (fmtOf b.toNat 8).value (fmtOf b.toNat 8).maxEnc
       if x.notFinite then Fl.mk 0x7FC00000 fNV
       else if x.isZero then ⟨0x3F800000, 0⟩ else roundFl fp32 3 (x.abs.div top)
     let blocks := (List.range ((c.vl + 127) / 128)).map (fun j =>
       (j, vqmaxOne (fmtOf (vtFmt vt) w) ((on.filter (fun i => decide (i / 128 = j))).map (fun i => r.elem c.grant w a.toNat i))))
     (vcvtLegal vt d a e f = true → Completes (.vcvt 0#1 d a e g f) s (fun t => ∃ (files : Nat → VRegs) (flags : Nat → Nat),
       files 0 = r ∧ flags 0 = 0 ∧
       (∀ j i, on[j]? = some i → files (j + 1) = (files j).applyAll (groupWrites c.grant w d.toNat [(i, (conv (files j) i).val)]) ∧
         flags (j + 1) = flags j ||| (conv (files j) i).fl) ∧
       t = { s.ran with cur := { s.ran.cur with
         vr := files on.length
         user := { s.cur.user with fflags := s.cur.user.fflags ||| BitVec.ofNat 64 (flags on.length) } } })) ∧
     (vcvtLegal vt d a e f = false → Raises (.vcvt 0#1 d a e g f) 0x01 s) ∧
     out (.vscale 0#1 d a b g) (vscaleLegal vt d a) w (on.map (fun i => (i, toMax i))) ∧
     out (.vqmax 0#1 d a g) (vqmaxLegal vt d a) 32 blocks)

/-- R172 to R175, R205: the VCMP words compare the active elements as signed, unsigned or floating numbers, and the predicate words
combine predicates, into the active bits of pD; PGETF takes fmask. PCNT and PANY append to a queue the count of the active elements
that pA marks, and whether there is one. -/
def Obligations.PredicateWords : Prop :=
  ∀ (s : State) (d a b g : BitVec 5) (k : BitVec 2), s.idle → k ≠ 3#2 →
    let c := s.cur.conf
    let w := vtSew c.vtype
    let fmt := vtFmt c.vtype
    let f := if fmt = 3 then bf16 else if w = 64 then fp64 else if w = 16 then fp16 else fp32
    let on := s.activeIn g c.vl
    let el := fun (r : BitVec 5) (i : Nat) => s.cur.vr.elem c.grant w r.toNat i
    let p := fun (r : BitVec 5) (i : Nat) => (s.cur.vr.preg r.toNat).getLsbD i
    let first := on.find? (p a)
    let num := fun (x : Nat) => if k = 0#2 then (x : Int).bmod (2 ^ w) else x
    let cmp := fun (i : Instr) (loud nanIs : Bool) (fp : Bool) (test : Bool → Bool → Bool) =>
      let one := fun (j : Nat) =>
        let x := el a j
        let y := el b j
        let u := f.value x
        let v := f.value y
        let nan := u.isNan || v.isNan
        if fp then Fl.mk (if nan then nanIs else test (FV.lt u v) (FV.eq u v))
          (if u.isSig || v.isSig || (nan && loud) then fNV else 0)
        else Fl.mk (test (decide (num x < num y)) (decide (x = y))) 0
      let rs := on.map (fun j => (j, one j))
      let ok := if fp then fmt = 2 ∨ fmt = 3 else fmt ≤ 1
      (ok → Computes i (predWrite d.toNat (rs.map (fun e => (e.1, e.2.val)))) (flagsOf (rs.map (fun e => e.2))) s) ∧
      (¬ ok → Raises i 0x01 s)
    let fp := decide (k = 2#2)
    let out := fun (i : Instr) (bit : Nat → Bool) => Computes i (predWrite d.toNat (on.map (fun j => (j, bit j)))) 0 s
    cmp (.vcmpEq 0#1 d a b g k) false false fp (fun _ eq => eq) ∧ cmp (.vcmpNe 0#1 d a b g k) false true fp (fun _ eq => !eq) ∧
    cmp (.vcmpLt 0#1 d a b g k) true false fp (fun lt _ => lt) ∧ cmp (.vcmpGe 0#1 d a b g k) true false fp (fun lt _ => !lt) ∧
    cmp (.vcmpLe 0#1 d a b g k) true false fp (fun lt eq => lt || eq) ∧
    cmp (.vcmpGt 0#1 d a b g k) true false fp (fun lt eq => !lt && !eq) ∧
    cmp (.vcmpUn 0#1 d a b g) false true true (fun _ _ => false) ∧
    out (.pand 0#1 d a b g) (fun i => p a i && p b i) ∧ out (.por 0#1 d a b g) (fun i => p a i || p b i) ∧
    out (.pxor 0#1 d a b g) (fun i => p a i != p b i) ∧ out (.pandn 0#1 d a b g) (fun i => p a i && !p b i) ∧
    out (.pnot 0#1 d a g) (fun i => !p a i) ∧ out (.plead 0#1 d a g) (fun i => decide (first = some i)) ∧
    out (.pthru 0#1 d a g) (fun i => first.all (fun j => decide (i ≤ j))) ∧
    out (.ppre 0#1 d a g) (fun i => first.all (fun j => decide (i < j))) ∧
    out (.pset 0#1 d g) (fun _ => true) ∧ out (.pclr 0#1 d g) (fun _ => false) ∧ out (.pgetf 0#1 d g) (fun i => c.fmask.getLsbD i) ∧
    Pushes (.pcnt 0#1 d a g) d (BitVec.ofNat 64 (on.countP (p a))) 0 s ∧
    Pushes (.pany 0#1 d a g) d (if on.any (p a) then 1#64 else 0#64) 0 s

/-- R176, R177: the PERM words. A slide leaves elements whose source lies outside as they were, and VPERM reads 0 beyond VLMAX; VCOMP
packs the elements that pB selects below vl and VEXPD spreads them; VMERGE takes A where PG is set and B elsewhere; VEXTR appends
one element to a queue, extended by the format.

R178 to R181, R128, R129: the VRED words append to a queue the sum, the least or the greatest of the active elements: an integer sum
modulo 2^64; a floating sum in ascending order, or over the pairwise tree. Over no elements a sum is 0 and the others the bound of
the format. Other formats raise ILLEGAL. -/
def Obligations.PermutesAndReductions : Prop :=
  (∀ (s : State) (d a b g : BitVec 5), s.idle →
     let c := s.cur.conf
     let w := vtSew c.vtype
     let vlmax := c.grant * min (2048 / w * vtLmul c.vtype) 512
     let on := s.activeIn g c.vl
     let el := fun (r : BitVec 5) (i : Nat) => s.cur.vr.elem c.grant w r.toNat i
     let x := (s.readS a).toNat
     let k := (s.readS b).toNat
     let sel := s.activeIn b c.vl
     let writes := fun (i : Instr) (l : List (Nat × Nat)) => Computes i (groupWrites c.grant w d.toNat l) 0 s
     let each := fun (i : Instr) (f : Nat → Nat) => writes i (on.map (fun j => (j, f j)))
     let up := fun (i : Instr) (n : Nat) =>
       writes i ((on.filter (fun j => decide (n ≤ j))).map (fun j => (j, el a (j - n))))
     let down := fun (i : Instr) (n : Nat) =>
       writes i ((on.filter (fun j => decide (j + n < c.vl))).map (fun j => (j, el a (j + n))))
     up (.vslup 0#1 d a b g) k ∧ up (.vslupi 0#1 d a b g) b.toNat ∧
     down (.vsldn 0#1 d a b g) k ∧ down (.vsldni 0#1 d a b g) b.toNat ∧
     each (.vperm 0#1 d a b g) (fun j => if el b j < vlmax then el a (el b j) else 0) ∧
     writes (.vcomp 0#1 d a b) (sel.zipIdx.map (fun e => (e.2, el a e.1))) ∧
     writes (.vexpd 0#1 d a b) (sel.zipIdx.map (fun e => (e.1, el a e.2))) ∧
     writes (.vmerge 0#1 d a b g)
       ((List.range c.vl).map (fun j => (j, if (s.cur.vr.preg g.toNat).getLsbD j then el a j else el b j))) ∧
     each (.vbcast 0#1 d a g) (fun _ => x % 2 ^ w) ∧
     writes (.vins 0#1 d a b) (if k < c.vl then [(k, x % 2 ^ w)] else []) ∧
     each (.viota 0#1 d a g)
       (fun j => (on.filter (fun i => decide (i < j) && (s.cur.vr.preg a.toNat).getLsbD i)).length % 2 ^ w) ∧
     each (.vid 0#1 d g) (fun j => j % 2 ^ w) ∧
     Pushes (.vextr 0#1 d a b) d (if k < vlmax then
       (if vtFmt c.vtype = 0 then BitVec.ofInt 64 ((el a k : Int).bmod (2 ^ w)) else BitVec.ofNat 64 (el a k)) else 0#64) 0 s) ∧
  (∀ (s : State) (d a g : BitVec 5), s.idle →
     let c := s.cur.conf
     let w := vtSew c.vtype
     let fmt := vtFmt c.vtype
     let rm := c.vtype.toNat / 2 ^ 10 % 4
     let f := if fmt = 3 then bf16 else if w = 64 then fp64 else if w = 16 then fp16 else fp32
     let el := fun (i : Nat) => s.cur.vr.elem c.grant w a.toNat i
     let on := s.activeIn g c.vl
     let num := fun (i : Nat) => if fmt = 0 then (el i : Int).bmod (2 ^ w) else (el i : Int)
     let lo : Int := if fmt = 0 then -2 ^ (w - 1) else 0
     let hi : Int := if fmt = 0 then 2 ^ (w - 1) - 1 else 2 ^ w - 1
     let ints := fun (i : Instr) (v : Int) =>
       (fmt ≤ 1 → Pushes i d (BitVec.ofInt 64 v) 0 s) ∧ (1 < fmt → Raises i 0x01 s)
     let add := fun (x y : Fl Nat) =>
       let r := roundFl f rm (sumTerms rm [f.value x.val, f.value y.val])
       Fl.mk r.val (x.fl ||| y.fl ||| r.fl)
     let bound := fun (isMax : Bool) (x y : Fl Nat) =>
       Fl.mk (fminmax f isMax x.val y.val).val (x.fl ||| y.fl ||| (fminmax f isMax x.val y.val).fl)
     let join := fun (op : Fl Nat → Fl Nat → Fl Nat) (x y : Option (Fl Nat)) =>
       match x, y with
       | some p, some q => some (op p q)
       | some p, none => some p
       | none, q => q
     let leaf := fun (i : Nat) => if i ∈ on then some (Fl.mk (el i) 0) else none
     let floats := fun (i : Instr) (r : Option (Fl Nat)) (empty : Nat) =>
       let v := r.getD ⟨empty, 0⟩
       let nan := (f.value v.val).isNan
       let sig := (f.value v.val).isSig
       (fmt = 2 ∨ fmt = 3 →
         Pushes i d (BitVec.ofNat 64 (if nan then f.nan else v.val)) (v.fl ||| (if sig then fNV else 0)) s) ∧
       (¬ (fmt = 2 ∨ fmt = 3) → Raises i 0x01 s)
     let chain := fun (op : Fl Nat → Fl Nat → Fl Nat) => (on.map leaf).foldl (join op) none
     ints (.vredsum 0#1 d a g) ((on.map num).sum) ∧
     ints (.vredmin 0#1 d a g) ((on.map num).foldl min hi) ∧ ints (.vredmax 0#1 d a g) ((on.map num).foldl max lo) ∧
     floats (.vfredo 0#1 d a g) (chain add) 0 ∧
     floats (.vfredmin 0#1 d a g) (chain (bound false)) (f.signed false f.infEnc) ∧
     floats (.vfredmax 0#1 d a g) (chain (bound true)) (f.signed true f.infEnc) ∧
     ∀ tree : Nat → Nat → Option (Fl Nat), (∀ i, tree 0 i = if i < c.vl then leaf i else none) →
       (∀ n i, tree (n + 1) i = join add (tree n (2 * i)) (tree n (2 * i + 1))) →
       ∀ n, c.vl ≤ 2 ^ n → (∀ m, c.vl ≤ 2 ^ m → n ≤ m) → floats (.vfredt 0#1 d a g) (tree n 0) 0)

/-! ## Multivectors and matrices -/

/-- R326 to R356: the multivector words. On the active elements mD takes the result's components of the grades that its policy lets it
write. A result grade outside the tag raises MV_FORBIDDEN under policy 0, is dropped with GD under 1, joins the tag under 2, and
under 3 is dropped where all its components are zero and otherwise raises MV_NONZERO; operands that MCOMM, MSAND, MEXPB
or MLOGM do not take raise MV_VERSOR. A product's component is the exact sum of the products of components whose blades multiply
to it, rounded once to nearest. MNORMZ, MEXPB and MLOGM are MultivectorRoots. (What NV does in a sum or product that holds a quiet
NaN is log 30's.)

R124, R125, R328, R353 to R356: MNORMZ, MEXPB and MLOGM write, under the policy as the other multivector words do, the real
numbers that R353 to R355 give, each rounded once; a number that is 0 has the sign that R124 gives it. A component that is not
finite makes each component NaN; NV is set for an infinity or a signalling NaN. A nonzero component over a norm of 0 sets DZ, an
infinite one too (log 30). The angle of MLOGM is the one with the cosine and the sine that its components give.

R334 to R337: MSETM sets mD's tag and clears the components outside it, MCLEAN copies mA with the grades that hold something other
than zeros as its tag, MGETM appends a tag to a queue, and MTOV writes components of grades B to vector registers. Without lanes
MSETM and MCLEAN do nothing and MGETM gives 0. -/
def Obligations.MultivectorAlgebra : Prop :=
  (∀ (s : State) (d a b g : BitVec 5) (p : BitVec 2), s.idle →
     let r := s.cur.vr
     let c := s.cur.conf
     let on := s.activeIn g (min c.vl (8 * c.grant))
     let X := r.mreg a.toNat
     let Y := r.mreg b.toNat
     let m := (r.mreg d.toNat).tag
     let x := fun (i k : Nat) => fp32.value (X.read i k)
     let y := fun (i k : Nat) => fp32.value (Y.read i k)
     let grades := fun (t : BitVec 5) => (List.range 5).filter (fun j => t.getLsbD j)
     let mask := fun (q : Nat → Bool) => BitVec.ofNat 5 (((List.range 5).filter q).map (fun j => 2 ^ j)).sum
     let pairs := fun (q : Nat → Nat → Nat → Bool) =>
       mask (fun j => (grades X.tag).any (fun u => (grades Y.tag).any (fun v => q u v j)))
     let traps := fun (i : Instr) (cause : Nat) => Completes i s (fun t =>
       t = takeTrap (s.parted s.cur.recorded) { cause := cause, eside := true, epc := some s.cur.pc })
     let out := fun (i : Instr) (gs : BitVec 5) (val : Nat → Nat → MvVal) =>
       let outside := gs &&& ~~~m
       let lost := on.any (fun j => (comps outside).any (fun k => !(val j k).zero))
       let tag := if p = 2#2 then m ||| outside else m
       let parts := on.flatMap (fun j => (comps tag).map (fun k =>
         (j, k, if gs.getLsbD (gradeOf k) then val j k else ⟨0, 0, true⟩)))
       let fl := parts.foldl (fun z e => z ||| e.2.2.fl) 0 ||| (if outside ≠ 0#5 ∧ p = 1#2 then fGD else 0)
       (on = [] → Computes i [] 0 s) ∧
       (on ≠ [] → outside ≠ 0#5 → p = 0#2 → traps i 0x0C) ∧
       (on ≠ [] → outside ≠ 0#5 → p = 3#2 → lost = true → traps i 0x0D) ∧
       (on ≠ [] → outside = 0#5 ∨ p = 1#2 ∨ p = 2#2 ∨ (p = 3#2 ∧ lost = false) → Completes i s (fun t => t = { s.ran with cur :=
         { s.ran.cur with
           vr := (if tag = m then r else r.setTag d.toNat tag).applyAll
             (compWrite d.toNat (parts.map (fun e => (e.1, e.2.1, e.2.2.bits))))
           user := { s.cur.user with fflags := s.cur.user.fflags ||| BitVec.ofNat 64 fl } } }))
     let versor := fun (i : Instr) (ok : Bool) (gs : BitVec 5) (val : Nat → Nat → MvVal) =>
       (ok = true ∨ on = [] → out i gs val) ∧ (ok = false → on ≠ [] → traps i 0x0E)
     let rounded := fun (l : List (Fl FV)) =>
       let z := sumFl 0 l
       MvVal.mk (roundFl fp32 0 z).val (roundFl fp32 0 z).fl z.val.isZero
     let blades := fun (f : Nat → Nat → Option Bool × Nat) (q : Nat → Nat → Nat → Bool) (i k : Nat) =>
       rounded ((comps X.tag).flatMap (fun u => (comps Y.tag).flatMap (fun v =>
         match f u v with
         | (some neg, k') => if k' = k ∧ q u v k = true then
             [let z := (x i u).mul (y i v)
               if neg then ⟨z.val.negate, z.fl⟩ else z] else []
         | (none, _) => [])))
     let common := fun (u v : Nat) => ((gens u).filter (fun j => (gens v).contains j)).length
     let dist := fun (u v : Nat) => (u - v) + (v - u)
     let gpGrades := pairs (fun u v j =>
       decide (dist u v ≤ j) && decide (j ≤ u + v) && decide (j + u + v ≤ 8) && decide ((j + u + v) % 2 = 0))
     let join := fun (u v : Nat) => ((bladeMul (15 - u) (15 - v)).1, 15 - (bladeMul (15 - u) (15 - v)).2)
     let moved := fun (v : Nat) => MvVal.mk v 0 (decide (v % 2 ^ 31 = 0))
     let signed := fun (flip : Nat → Bool) (i k : Nat) =>
       let v := X.read i k
       let u := fp32.value v
       if u.isNan then MvVal.mk 0x7FC00000 (if u.isSig then fNV else 0) false
       else ⟨if flip (gradeOf k) then v ^^^ 2 ^ 31 else v, 0, decide (v % 2 ^ 31 = 0)⟩
     let norm := fun (l : List Nat) (i : Nat) => sumFl 0 ((l.filter (fun k => X.tag.getLsbD (gradeOf k))).map (fun k => (x i k).mul (x i k)))
     let scalar := if X.tag = 0#5 then 0#5 else 1#5
     let sand := (comps X.tag).flatMap (fun u => (comps Y.tag).flatMap (fun v => (comps X.tag).filterMap (fun l =>
       match bladeMul u v with
       | (none, _) => none
       | (some n1, q) =>
         match bladeMul q l with
         | (none, _) => none
         | (some n2, k) => some ((n1 != n2) != (gradeOf l == 2 || gradeOf l == 3), u, v, l, k))))
     let even := X.tag &&& 0b01010#5 = 0#5
     let odd := X.tag &&& 0b10101#5 = 0#5
     let k32 := fp32.value ((s.readS b).toNat % 2 ^ 32)
     out (.mgp 0#1 d a b g p) gpGrades (blades bladeMul (fun _ _ k => gpGrades.getLsbD (gradeOf k))) ∧
     out (.mwdg 0#1 d a b g p) (pairs (fun u v j => decide (j = u + v))) (blades bladeMul (fun u v _ => decide (common u v = 0))) ∧
     out (.mdot 0#1 d a b g p) (pairs (fun u v j => decide (j = dist u v)))
       (blades bladeMul (fun u v k => decide (gradeOf k = dist (gradeOf u) (gradeOf v)))) ∧
     out (.mlct 0#1 d a b g p) (pairs (fun u v j => decide (u + j = v)))
       (blades bladeMul (fun u v k => decide (gradeOf u + gradeOf k = gradeOf v))) ∧
     out (.mjoin 0#1 d a b g p) (pairs (fun u v j => decide (j + 4 = u + v)))
       (blades join (fun u v _ => decide (common (15 - u) (15 - v) = 0))) ∧
     versor (.mcomm 0#1 d a b g p) (decide (X.tag = 0#5 ∨ X.tag = 4#5)) (pairs (fun _ v j => decide (j = v)))
       (blades bladeMul (fun u v _ =>
         let n := common u v
         decide (n % 2 = 1 ∧ ((n < gradeOf u ∧ n < gradeOf v) ∨ gradeOf u % 2 ≠ gradeOf v % 2)))) ∧
     versor (.msand 0#1 d a b g p) (decide (even ∨ odd)) (pairs (fun _ v j => decide (j = v)))
       (fun i k => rounded ((sand.filter (fun e => e.2.2.2.2 == k)).map (fun e =>
         let q := prodTerms [x i e.2.1, y i e.2.2.1, x i e.2.2.2.1]
         if e.1 then ⟨q.val.negate, q.fl⟩ else q))) ∧
     out (.mmov 0#1 d a g p) X.tag (fun i k => moved (X.read i k)) ∧
     out (.mgrd 0#1 d a b g p) (X.tag &&& b) (fun i k => moved (X.read i k)) ∧
     out (.mdual 0#1 d a g p) (mask (fun j => X.tag.getLsbD (4 - j))) (fun i k => moved (X.read i (15 - k))) ∧
     out (.mrev 0#1 d a g p) X.tag (signed (fun j => j == 2 || j == 3)) ∧
     out (.mconj 0#1 d a g p) X.tag (signed (fun j => j == 1 || j == 2)) ∧
     out (.minvol 0#1 d a g p) X.tag (signed (fun j => j == 1 || j == 3)) ∧
     out (.mscal 0#1 d a b g p) X.tag (fun i k =>
       let z := (x i k).mul k32
       ⟨(roundFl fp32 0 z).val, (roundFl fp32 0 z).fl, z.val.isZero⟩) ∧
     out (.madd 0#1 d a b g p) (X.tag ||| Y.tag) (fun i k => rounded [⟨x i k, 0⟩, ⟨y i k, 0⟩]) ∧
     out (.msub 0#1 d a b g p) (X.tag ||| Y.tag) (fun i k => rounded [⟨x i k, 0⟩, ⟨(y i k).negate, 0⟩]) ∧
     out (.mnrm2 0#1 d a g p) scalar (fun i _ =>
       let z := norm [0, 2, 3, 4, 8, 9, 10, 14] i
       ⟨(roundFl fp32 0 z).val, (roundFl fp32 0 z).fl, z.val.isZero⟩) ∧
     out (.mnrmi 0#1 d a g p) scalar (fun i _ =>
       let z := norm [1, 5, 6, 7, 11, 12, 13, 15] i
       ⟨(roundFl fp32 0 z).val, (roundFl fp32 0 z).fl, z.val.isZero⟩) ∧
     out (.mfromv 0#1 d a b g p) b (fun i k =>
       moved (if b.getLsbD (gradeOf k) then r.elem c.grant 32 ((a.toNat + (comps b).idxOf k) % 32) i else 0))) ∧
  (∀ (s : State) (d a g : BitVec 5) (p : BitVec 2), s.idle →
     let r := s.cur.vr
     let c := s.cur.conf
     let on := s.activeIn g (min c.vl (8 * c.grant))
     let X := r.mreg a.toNat
     let m := (r.mreg d.toNat).tag
     let x := fun (i k : Nat) => fp32.value (X.read i k)
     let held := fun (i : Nat) => (comps X.tag).map (x i)
     let traps := fun (i : Instr) (cause : Nat) => Completes i s (fun t =>
       t = takeTrap (s.parted s.cur.recorded) { cause := cause, eside := true, epc := some s.cur.pc })
     let out := fun (i : Instr) (gs : BitVec 5) (val : Nat → Nat → MvVal) =>
       let outside := gs &&& ~~~m
       let lost := on.any (fun j => (comps outside).any (fun k => !(val j k).zero))
       let tag := if p = 2#2 then m ||| outside else m
       let parts := on.flatMap (fun j => (comps tag).map (fun k =>
         (j, k, if gs.getLsbD (gradeOf k) then val j k else ⟨0, 0, true⟩)))
       let fl := parts.foldl (fun z e => z ||| e.2.2.fl) 0 ||| (if outside ≠ 0#5 ∧ p = 1#2 then fGD else 0)
       (on = [] → Computes i [] 0 s) ∧
       (on ≠ [] → outside ≠ 0#5 → p = 0#2 → traps i 0x0C) ∧
       (on ≠ [] → outside ≠ 0#5 → p = 3#2 → lost = true → traps i 0x0D) ∧
       (on ≠ [] → outside = 0#5 ∨ p = 1#2 ∨ p = 2#2 ∨ (p = 3#2 ∧ lost = false) → Completes i s (fun t => t = { s.ran with cur :=
         { s.ran.cur with
           vr := (if tag = m then r else r.setTag d.toNat tag).applyAll
             (compWrite d.toNat (parts.map (fun e => (e.1, e.2.1, e.2.2.bits))))
           user := { s.cur.user with fflags := s.cur.user.fflags ||| BitVec.ofNat 64 fl } } }))
     let nan := fun (nv : Prop) (v : MvVal) => v.bits = 0x7FC00000 ∧ (nv → v.fl = fNV) ∧ (¬ nv → v.fl = 0) ∧ v.zero = false
     let number := fun (e : ℝ) (neg : Prop) (v : MvVal) =>
       (e ≠ 0 → v.zero = false ∧ Rounded fp32 0 false e ⟨v.bits, v.fl⟩) ∧
       (e = 0 → v.zero = true ∧ v.fl = 0 ∧ v.bits % 2 ^ 31 = 0 ∧ (neg → v.bits = 2 ^ 31) ∧ (¬ neg → v.bits = 0))
     let broken := fun (i : Nat) (v : MvVal) =>
       nan (∃ z ∈ held i, z.isSig = true ∨ (z.notFinite = true ∧ z.isNan = false)) v
     (∃ val : Nat → Nat → MvVal, out (.mnormz 0#1 d a g p) X.tag val ∧ ∀ i, ∀ k ∈ comps X.tag,
       let parts := ((comps X.tag).filter (fun j => [0, 2, 3, 4, 8, 9, 10, 14].contains j)).map (x i)
       let n := (parts.map (fun z => z.real ^ 2)).sum
       let z := x i k
       let bad := z.isNan = true ∨ ∃ u ∈ parts, u.isNan = true
       let big := ∃ u ∈ parts, u.notFinite = true
       let v := val i k
       (bad → nan (z.isSig = true ∨ ∃ u ∈ parts, u.isSig = true) v) ∧
       (¬ bad → big → (z.notFinite = true → nan True v) ∧ (z.notFinite = false → number 0 (z.neg = true) v)) ∧
       (¬ bad → ¬ big → z.notFinite = true →
         v = ⟨fp32.signed z.neg fp32.infEnc, if n = 0 then fDZ else 0, false⟩) ∧
       (¬ bad → ¬ big → z.notFinite = false → n ≠ 0 → number (z.real / Real.sqrt n) (z.neg = true) v) ∧
       (¬ bad → ¬ big → z.notFinite = false → n = 0 → z.isZero = true → nan True v) ∧
       (¬ bad → ¬ big → z.notFinite = false → n = 0 → z.isZero = false → v = ⟨fp32.signed z.neg fp32.infEnc, fDZ, false⟩)) ∧
     (∃ val : Nat → Nat → MvVal,
       ((X.tag = 0#5 ∨ X.tag = 4#5 ∨ on = []) → out (.mexpb 0#1 d a g p) (if X.tag = 4#5 then 0b10101#5 else 0#5) val) ∧
       (X.tag ≠ 0#5 → X.tag ≠ 4#5 → on ≠ [] → traps (.mexpb 0#1 d a g p) 0x0E) ∧
       (X.tag = 0#5 ∨ X.tag = 4#5 → ∀ i, ∀ k ∈ comps 0b10101#5,
         let b := fun (j : Nat) => (x i j).real
         let l := Real.sqrt (b 8 ^ 2 + b 9 ^ 2 + b 10 ^ 2)
         let mu := b 5 * b 10 + b 6 * b 9 + b 7 * b 8
         let sg := if l = 0 then 1 else Real.sin l / l
         let ka := if l = 0 then 0 else (Real.sin l - l * Real.cos l) / l ^ 3
         let e := if k = 0 then Real.cos l
           else if k = 15 then mu * sg
           else if k ≤ 7 then sg * b k - mu * ka * b (15 - k)
           else sg * b k
         let muNeg := (sumTerms 0 [((x i 5).mul (x i 10)).val, ((x i 6).mul (x i 9)).val, ((x i 7).mul (x i 8)).val]).val.neg
         let kaNeg := decide (ka ≠ 0) && (muNeg != decide (ka < 0))
         let neg := if k = 15 then muNeg != decide (sg < 0)
           else if k ≤ 7 then (decide (sg < 0) != (x i k).neg) && (kaNeg == (x i (15 - k)).neg)
           else decide (sg < 0) != (x i k).neg
         ((∃ z ∈ held i, z.notFinite = true) → broken i (val i k)) ∧
         ((∀ z ∈ held i, z.notFinite = false) → (5 ≤ k → k ≤ 7 → e = 0 → b k = 0 ∧ mu * ka * b (15 - k) = 0) →
           number e (neg = true) (val i k)))) ∧
     (∃ val : Nat → Nat → MvVal,
       ((X.tag &&& 0b01010#5 = 0#5 ∨ on = []) → out (.mlogm 0#1 d a g p) (if X.tag = 0#5 then 0#5 else 4#5) val) ∧
       (X.tag &&& 0b01010#5 ≠ 0#5 → on ≠ [] → traps (.mlogm 0#1 d a g p) 0x0E) ∧
       (X.tag &&& 0b01010#5 = 0#5 → ∀ i, ∀ k ∈ comps 4#5,
         let f := fun (j : Nat) => (x i j).real
         let q := Real.sqrt (f 8 ^ 2 + f 9 ^ 2 + f 10 ^ 2)
         let n := Real.sqrt (f 0 ^ 2 + q ^ 2)
         let fine := ∀ z ∈ held i, z.notFinite = false
         (¬ fine → broken i (val i k)) ∧
         (fine → n = 0 ∨ (q = 0 ∧ f 0 < 0) → nan True (val i k)) ∧
         ∀ l : ℝ, 0 ≤ l → l < Real.pi → n * Real.cos l = f 0 → n * Real.sin l = q →
           let sg := if l = 0 then 1 else q / (n * l)
           let mu := f 15 / (n * sg)
           let ka := if l = 0 then 0 else mu * (q / n - l * f 0 / n) / l ^ 3
           let b := fun (j : Nat) => f j / (n * sg)
           let e := if 8 ≤ k then b k else (f k / n + ka * b (15 - k)) / sg
           let kaNeg := decide (l ≠ 0) && (x i 15).neg
           let neg := if 8 ≤ k then (x i k).neg else (x i k).isZero && (x i k).neg && (kaNeg != (x i (15 - k)).neg)
           fine → n ≠ 0 → (q = 0 → 0 ≤ f 0) → number e (neg = true) (val i k)))) ∧
  (∀ (s : State) (d a b g : BitVec 5), s.idle →
     let r := s.cur.vr
     let c := s.cur.conf
     let n := 8 * c.grant
     let X := r.mreg a.toNat
     let cs := (List.range 16).filter (fun k => b.getLsbD (gradeOf k))
     let same := fun (u t : State) => t = { u.ran with cur := { u.ran.cur with vr := t.cur.vr } }
     let put := fun (i : Instr) (from' : MvReg) (tag : BitVec 5) => 1 ≤ c.grant → c.grant ≤ 8 → Completes i s (fun t =>
       let q := t.cur.vr
       same s t ∧ (q.mreg d.toNat).tag = tag ∧
       (∀ j < n, ∀ k < 16, (q.mreg d.toNat).comp j k = if tag.getLsbD (gradeOf k) then from'.comp j k else 0) ∧
       (∀ k, k ≠ d.toNat → q.mreg k = r.mreg k) ∧ q.v = r.v ∧ q.p = r.p)
     put (.msetm 0#1 d b) (r.mreg d.toNat) b ∧
     put (.mclean 0#1 d a) X (BitVec.ofNat 5 (((List.range 5).filter (fun j => X.tag.getLsbD j && (List.range n).any (fun i =>
       (List.range 16).any (fun k => gradeOf k == j && decide (X.comp i k % 2 ^ 31 ≠ 0))))).map (fun j => 2 ^ j)).sum) ∧
     (c.grant = 0 → Completes (.msetm 0#1 d b) s (fun t => t = s.ran) ∧ Completes (.mclean 0#1 d a) s (fun t => t = s.ran)) ∧
     Pushes (.mgetm 0#1 d a) d (if c.grant = 0 then 0#64 else X.tag.setWidth 64) 0 s ∧
     Computes (.mtov 0#1 d a b g) (gatherV ((s.activeIn g (min c.vl n)).flatMap (fun i => cs.zipIdx.map (fun e =>
       ((d.toNat + e.2) % 32, elemPos 32 i, 32, if X.tag.getLsbD (gradeOf e.1) then X.comp i e.1 else 0))))) 0 s)

/-- R375 to R378, R46: what words with token bits do: W takes a token of one FIFO, unless an earlier execution of the convoy took it,
and S puts one into the other once the convoy retires. VTOK does nothing else; without a token, or without room, it waits.
R392 to R406, R412: MXAC and MXACS add to each row of the tile the products of the operand row with the weight slot; MZERO, ACLD and
ACST clear, write and read a tile; MCHK appends the counts of unchecked and repeated rows to a queue, clears them and sets the
checksum mode. Operands that vtype does not allow raise ILLEGAL, a thread without rows MATRIX_NOT_ATTACHED, and a slot of another
layout or class, or an empty one, MATRIX_LAYOUT with 1, 2 or 5. R413, R414: in checksum mode an update whose check fails in a row
executes again; one that fails again keeps the row's old values and raises MACHINE_CHECK, the other rows taking their new ones.
R131, R404: each product, each sum of a chunk or block and each scaled block is exact, and each update of the accumulator rounds
once; what sets NV beside a quiet NaN is log 30's reading. R414: a row fails where its checksums differ by more than the bound, and is
unchecked where a value read is no finite number. Whether the hardware errs at an execution, and in which row, is left open (logs 13,
21, 29), as is the layout of the record's SYND (log 21); the pops that a trap has recorded are those of log 17. -/
def Obligations.MatrixWords : Prop :=
  ∀ (s : State) (d a l : BitVec 5) (h : BitVec 3) (w tk e : BitVec 1), s.idle →
    let c := s.cur.conf
    let vt := c.vtype
    let k := s.cur.tok
    let fresh := decide (w = 1#1 ∧ 0 ∉ s.cur.recorded)
    let ready := fun (pop push : Nat) => (fresh = true → 0 < pop) ∧ (tk = 1#1 → push < 16)
    let vx := fun (u : State) => ({ u with cur := { u.cur with tok := { k with
      lsvx := if fresh then k.lsvx - 1 else k.lsvx, vxls := if tk = 1#1 then k.vxls + 1 else k.vxls } } } : State)
    let mx := fun (u : State) => ({ u with cur := { u.cur with tok := { k with
      lsmx := if fresh then k.lsmx - 1 else k.lsmx, mxls := if tk = 1#1 then k.mxls + 1 else k.mxls } } } : State)
    let waits := fun (i : Instr) => Completes i s (fun t =>
      t.cur.tok = k ∧ t.cur.vr = s.cur.vr ∧ t.cur.q = s.cur.q ∧ t.quads = s.quads ∧ t.mem = s.mem ∧ t.cur.convoys = 1)
    let quad := s.quad (s.cur.place.core / 4)
    let base := s.cur.place.rowBase
    let view := decide (vtSew vt = 64 ∧ vtFmt vt = 2)
    let tiles := if view then [2 * d.toNat, 2 * d.toNat + 1] else [d.toNat]
    let old := fun (r j : Nat) => quad.accGet base view d.toNat r j
    let cells := (List.range c.tgrant).flatMap (fun r => (List.range 32).map (fun j => (r, j)))
    let entered := fun (i : Instr) (legal : Bool) (p : Prop) =>
      (legal = false → Raises i 0x01 s) ∧ (legal = true → c.tgrant = 0 → Raises i 0x13 s) ∧
      (legal = true → c.tgrant ≠ 0 → ¬ ready k.lsmx k.mxls → waits i) ∧
      (legal = true → c.tgrant ≠ 0 → s.tileHeld tiles = false → ready k.lsmx k.mxls → p)
    let bytes := if view then 8 else 4
    let place := fun (r j : Nat) => 32 * bytes * r + bytes * j
    let mac := fun (i : Instr) (scaled : Bool) =>
      let sl := Table.get quad.slots WSlot.empty (32 * h.toNat + l.toNat)
      let cls := (aClass vt).getD 8
      let legal := mxacLegal scaled vt c.grant c.tgrant d
      let layout := fun (n : Nat) => Completes i s (fun t => t = takeTrap (s.parted s.cur.recorded)
        { cause := 0x14, synd := n, eside := true, epc := some s.cur.pc })
      let f := fmtOf (vtFmt vt) (vtSew vt)
      let accF := if cls = 64 then fp64 else fp32
      let ks := List.range (wK sl.format)
      let x := fun (r q : Nat) =>
        f.value (s.cur.vr.groupBits c.grant a.toNat (256 * r + q * (vtSew vt / 8)) (vtSew vt))
      let scales := fun (r b : Nat) => if scaled then
          (fp32.value (s.cur.vr.elem c.grant 32 (vt.toNat / 2 ^ 14 % 32) (2 * r + b)),
            fp32.value (if b = 0 then sl.scale0 else sl.scale1).toNat)
        else (FV.one, FV.one)
      let product := fun (r j q : Nat) => prodTerms [x r q, sl.entry q j]
      let total := fun (l : List (Fl FV)) =>
        let z := sumTerms 0 (l.map (fun y => y.val))
        Fl.mk z.val (z.fl ||| flagsOf l)
      let update := fun (z : Fl Nat) (l : List (Fl FV)) =>
        let y := total (⟨accF.value z.val, 0⟩ :: l)
        let v := roundOnce accF 0 false y.val
        Fl.mk v.val (z.fl ||| y.fl ||| v.fl)
      let new := fun (r j : Nat) =>
        if cls = 64 ∨ cls = 32 then ks.foldl (fun z q => update z [product r j q]) ⟨old r j, 0⟩
        else if cls = 16 then
          (List.range 16).foldl (fun z n => update z ((List.range 8).map (fun q => product r j (8 * n + q)))) ⟨old r j, 0⟩
        else (List.range 2).foldl (fun z b =>
          let sum := total ((List.range 128).map (fun q => product r j (128 * b + q)))
          let y := prodTerms [sum.val, (scales r b).1, (scales r b).2]
          update z [⟨y.val, sum.fl ||| y.fl⟩]) ⟨old r j, 0⟩
      let check := fun (r : Nat) =>
        if s.cur.mat.chk = false then RowCheck.pass
        else if sl.flag = false then .unchecked
        else
          let was := fun (j : Nat) => accF.value (old r j)
          let is := fun (j : Nat) => accF.value (new r j).val
          let z := fun (q : Nat) => if cls = 8 then scales r (q / 128) else (FV.one, FV.one)
          let cks := fun (q : Nat) => accF.value (sl.cks.getD q 0#64).toNat
          let dks := fun (q : Nat) => accF.value (sl.dks.getD q 0#64).toNat
          let js := List.range 32
          let s1 := (js.map (fun j => (is j).real - (was j).real)).sum
          let s2 := (ks.map (fun q => (x r q).real * (cks q).real * ((z q).1.real * (z q).2.real))).sum
          let sizes := (js.map (fun j => |(was j).real| + |(is j).real|)).sum +
            (ks.map (fun q => |(x r q).real| * (dks q).real * |(z q).1.real * (z q).2.real|)).sum
          if js.any (fun j => (was j).notFinite || (is j).notFinite) || ks.any (fun q => (x r q).notFinite ||
              (cks q).notFinite || (dks q).notFinite || (z q).1.notFinite || (z q).2.notFinite) then .unchecked
          else if (2 : ℝ) ^ (6 - (if cls = 64 then 53 else 24 : Int)) * sizes < |s1 - s2| then .fail
          else .pass
      let rows := fun (z : RowCheck) => (List.range c.tgrant).filter (fun r => decide (check r = z))
      let fails := rows .fail
      let able := rows .pass
      let un := BitVec.ofNat 32 (rows .unchecked).length
      let on := s.cur.mat.chk = true ∧ sl.flag = true
      let err := fun (n : Nat) => (s.flaws.drop n).headD false = true
      let wins := fun (n : Nat) (again : BitVec 32) => Completes i s (fun t =>
        let u := mx (s.ran.putTile view d.toNat (cells.map (fun e => (e.1, e.2, (new e.1 e.2).val))))
        t = { u with flaws := s.flaws.drop n, cur := { u.cur with
          mat := { u.cur.mat with unchk := u.cur.mat.unchk + un, redo := u.cur.mat.redo + again }
          user := { u.cur.user with
            fflags := u.cur.user.fflags ||| BitVec.ofNat 64 (flagsOf (cells.map (fun e => new e.1 e.2))) } } })
      let loses := fun (bad : List Nat) => Completes i s (fun t =>
        let kept := cells.filter (fun e => decide (e.1 ∉ bad))
        let u := (s.parted (if fresh then s.cur.recorded ++ [0] else s.cur.recorded)).putTile view d.toNat
          (kept.map (fun e => (e.1, e.2, (new e.1 e.2).val)))
        let fk := flagsOf (kept.map (fun e => new e.1 e.2))
        t = takeTrap { u with flaws := s.flaws.drop 2, cur := { u.cur with
            tok := { k with lsmx := if fresh then k.lsmx - 1 else k.lsmx }
            mat := { u.cur.mat with unchk := u.cur.mat.unchk + un, redo := u.cur.mat.redo + 1#32 }
            user := { u.cur.user with fflags := u.cur.user.fflags ||| BitVec.ofNat 64 fk } } }
          { cause := 0x30, eside := true, epc := some s.cur.pc
            logSynd := some (BitVec.ofNat 32 (s.cur.place.core / 4 * 65536 + (base + bad.headD 0) * 256 + d.toNat)) })
      let room := legal = true ∧ c.tgrant ≠ 0 ∧ ready k.lsmx k.mxls
      (room → sl.state = .empty → layout 5) ∧
      (room → sl.state = .ready → sl.layout ≠ vtBl vt → layout 1) ∧
      (room → sl.state = .ready → sl.layout = vtBl vt → wClass sl.format ≠ cls → layout 2) ∧
      entered i legal (sl.state = .ready → sl.layout = vtBl vt → wClass sl.format = cls →
        (¬ on → wins 0 0#32) ∧
        (on → fails = [] → ¬ err 0 ∨ able = [] → wins 1 0#32) ∧
        (on → fails = [] → err 0 → able ≠ [] → ¬ err 1 → wins 2 1#32) ∧
        (on → fails = [] → err 0 → able ≠ [] → err 1 → ∃ r ∈ able, loses [r]) ∧
        (on → fails ≠ [] → loses fails))
    (ready k.lsvx k.vxls → Completes (.vtok 0#1 w tk) s (fun t => t = vx s.ran)) ∧
    (¬ ready k.lsvx k.vxls → waits (.vtok 0#1 w tk)) ∧
    mac (.mxac 0#1 d a l h w tk) false ∧ mac (.mxacs 0#1 d a l h w tk) true ∧
    entered (.mzero 0#1 d w tk) (!view || decide (d.toNat < 16)) (Completes (.mzero 0#1 d w tk) s (fun t =>
      t = mx (s.ran.putTile view d.toNat (cells.map (fun e => (e.1, e.2, 0)))))) ∧
    entered (.acld 0#1 d a w tk) (moveLegal vt c.grant c.tgrant d a) (Completes (.acld 0#1 d a w tk) s (fun t =>
      t = mx (s.ran.putTile view d.toNat (cells.map (fun e =>
        (e.1, e.2, s.cur.vr.groupBits c.grant a.toNat (place e.1 e.2) (8 * bytes))))))) ∧
    entered (.acst 0#1 d a w tk) (moveLegal vt c.grant c.tgrant d a) (Completes (.acst 0#1 d a w tk) s (fun t =>
      let u := mx s.ran
      t = { u with cur := { u.cur with vr := s.cur.vr.applyAll (gatherV (cells.map (fun e =>
        ((a.toNat + place e.1 e.2 / (256 * c.grant)) % 32, 8 * (place e.1 e.2 % (256 * c.grant)), 8 * bytes,
          old e.1 e.2)))) } })) ∧
    (ready k.lsmx k.mxls → (s.cur.queue d.toNat).length < 16 → Completes (.mchk 0#1 d e w tk) s (fun t =>
      let u := mx s.ran
      t = { u with cur := { u.cur with
        q := Table.set s.cur.q [] d.toNat (s.cur.queue d.toNat ++
          [BitVec.ofNat 64 (s.cur.mat.unchk.toNat + 2 ^ 32 * s.cur.mat.redo.toNat)])
        mat := { s.cur.mat with chk := decide (e = 1#1), unchk := 0#32, redo := 0#32 } } })) ∧
    (¬ ready k.lsmx k.mxls → waits (.mchk 0#1 d e w tk)) ∧
    (ready k.lsmx k.mxls → 16 ≤ (s.cur.queue d.toNat).length → waits (.mchk 0#1 d e w tk))

/-! ## Events of threads and units -/

/-- R102, R385: a thread whose E-side waits on a full queue, or for a token or an entry that nothing will bring, while its A-side
waits behind that, takes its trap at the waiting word, unless earlier work holds the convoy; a word that dispatches into a full VIQ
traps as one of the E-side. R147, R148: the threads that wait in SETVL on a core are evaluated again in their order, each as the
current thread: it goes on waiting, or takes its lane groups and completes, or where its E-side has earlier work executes again with
them. R432: a record that waited 1 ms is marked. R306: a staged access that found its unit full arrives again.

R46, R151, R152, R265, R391, R470, R486 to R489: a thread that stands on a core, while a context area is free and no trap that has
arisen waits, is pre-empted where its driver asks or its lanes are reclaimed: its image goes to the lowest free area, a convoy in
issue is abandoned, and its slot, its lane groups, its rows and, if it is the last of its group, its tables leave the core. A
reclaim whose thread may not be pre-empted, or has retired no convoy since it resumed, is put off. A resumption puts the thread on a
core with what it had. (What the image holds is log 9's; which core takes a thread that cannot return to its own is left open, log
13; that a convoy executes again from its first word rests on R46 and R489, log 17.)

R66, R144, R265, R426, R427, R431, R432, R470, R489: the records that wait start in the order of their class, the aged ones first
and then by priority, of their launch and of their rank; one that yielded comes after the launches that had been accepted before it
did. Each starts if it can: on its core, in a free slot, where fewer threads of the launch run there than TPC, and with the lowest
free stack where its legend has one, with the registers of R66. The first saved thread that can resume does so next. (Which free
slot is taken is left open, log 13; what the model reads into these orders is in logs 15 and 19.) -/
def Obligations.ThreadEvents : Prop :=
  (∀ (s : State) (t : ThreadId) (core : Nat),
     let same := fun (i : Instr) => Completes i s (fun u => u = s)
     let here := fun (i : Instr) (x : Option Trap) => s.active = true → s.cur.id = t →
       Completes i s (fun u => u = x.elim s (takeTrap s))
     let onE := decide (s.cur.prog.wait = .retry .viq)
     let first := s.cur.viq.findIdx VEntry.isConvoy
     let next := match s.cur.viq[first]? with
       | some (.convoy c) => if convoyHeld s.cur.vr (s.cur.viq.take first) c then none else
           (c.members[c.done]?).map (fun (m : Member) => (c, m.instr))
       | _ => none
     let full := next.bind (fun n => (List.range 8).find? (fun k => writesQueue n.2 k && decide (16 ≤ (s.cur.queue k).length)))
     let behind := match s.cur.prog.wait with
       | .retry .viq => true
       | .retry (.qpop j) => decide (some j ≠ full) && decide (s.cur.queue j = [])
       | .retry (.qdrain _) => true
       | _ => false
     let forToken := match s.cur.prog.wait with
       | .retry .tokenPop => true
       | .retry .tokenPush => true
       | _ => false
     let stuck := match next with
       | some (c, i) =>
         let k := tokensOf i
         (k.1 && !c.popped.contains c.done && decide (s.cur.tok.get k.2.2.1 = 0) &&
           !s.cmds.any (fun x => decide (x.thread = s.cur.id) && decide (x.push = some k.2.2.1))) ||
         (k.2.1 && decide (16 ≤ s.cur.tok.get k.2.2.2 + c.pushes.count k.2.2.2))
       | none => false
     here (.queueDeadlock t) (if behind = true then full.map (fun k => { cause := 0x0B, queue := k, eside := onE }) else none) ∧
     here (.tokenDeadlock t)
       (if (full.isNone ∨ behind = false) ∧ (behind = true ∨ forToken = true) ∧ (stuck = true ∨ full.isSome = true) then
         some { cause := 0x15, synd := 4, eside := onE } else none) ∧
     Completes (.recordAging t) s (fun u =>
       (∀ q, u.part q = if q = t.part then { s.part q with records := (s.part q).records.map (fun r =>
           { r with aged := r.aged || decide (r.id = t) }) } else s.part q) ∧
       (∀ i, i ∈ s.inputs → i ∈ u.inputs) ∧ (∀ i, i ∈ u.inputs → i ∈ s.inputs ∨ i = .threadDispatch t.part) ∧
       u = { s with
         parts := u.parts, inputs := u.inputs
         saved := s.saved.map (fun e =>
           (if e.1.id = t then { e.1 with place := { e.1.place with aged := true } } else e.1, e.2)) }) ∧
     (let w := { s with inputs := s.inputs.filter (fun i => i != Instr.setvlReevaluation core) }
     ∃ re : State → State,
       (∀ v : State, (∀ d a b, v.cur.prog.wait ≠ .retry (.setvl d a b)) → re v = v) ∧
       (∀ (v : State) d a b, v.cur.prog.wait = .retry (.setvl d a b) →
         let k := v.cur.place.core
         let slot := v.cur.place.slot
         let c := v.core k
         let l := c.latOf slot
         let g := c.evaluate slot v.cur.conf.vtype (v.readS a).toNat (v.readS b).toNat
         let kept := g.grant = v.cur.conf.grant
         let alone := fun (x : Machine.Lat) => ((re v).core k).latOf slot = x ∧ (∀ j, j ≠ slot → ((re v).core k).latOf j = c.latOf j) ∧
           ∀ j, j ≠ k → (re v).core j = v.core j
         (g.waits = true → alone { l with share := g.share } ∧ ((re v).core k).waiters = c.waiters ∧
           re v = { v with cores := (re v).cores }) ∧
         (g.waits = false → ((re v).core k).waiters = c.waiters.filter (fun u => u != slot)) ∧
         (g.waits = false → v.cur.viq ≠ [] → alone { l with
             map := g.map, share := g.share, pm := vtPm v.cur.conf.vtype, wait := false } ∧
           re v = { v with
             cores := (re v).cores, cur := { v.cur with prog := { v.cur.prog with wait := .retry .other } } }) ∧
         (g.waits = false → v.cur.viq = [] → alone { l with
             map := g.map, share := g.share, pm := vtPm v.cur.conf.vtype && decide (g.grant ≠ 0), wait := false } ∧
           (re v).readS d = (if d = 0#5 then 0#64 else BitVec.ofNat 64 g.vl) ∧ (∀ r, r ≠ d → (re v).readS r = v.readS r) ∧
           re v = { v with
             cores := (re v).cores, inputs := (re v).inputs, timers := (re v).timers
             cur := { v.cur.past with
               s := (re v).cur.s
               vr := if kept then v.cur.vr else ⟨[], [], [], []⟩
               conf := { v.cur.conf with vl := g.vl, grant := g.grant, fmask := if kept then v.cur.conf.fmask else 0#4096 }
               user := { v.cur.user with vfirst := if kept then v.cur.user.vfirst else 0#64 } } })) ∧
       Completes (.setvlReevaluation core) s (fun u => u = (s.core core).waiters.foldl (fun v slot =>
         match v.onChip.find? (fun h => h.place.core == core && h.place.slot == slot) with
         | none => v
         | some h => v.asThread h.id re) w)) ∧
     (let o := s.objs t.part
     (o.resend.find? (fun w => w.thread == t) = none → same (.stagedResend t)) ∧
     ∀ w, o.resend.find? (fun w => w.thread == t) = some w →
       let s1 := s.setObjs t.part { o with resend := o.resend.filter (fun x => x.thread != t) }
       Completes (.stagedResend t) s (fun u =>
         match s1.arrive t.part true w with
         | .done s2 => u = s2.finishAccess w
         | .parked s2 => u = s2
         | .wait _ => u = s1.onThread t (fun h => { h with prog := { h.prog with wait := .retry .other } })
         | .trap c a => u = s1.onThread w.thread (fun h => { h with prog := { h.prog with wait := .retry (.fault c a) } })))) ∧
  (∀ (s : State) (t : ThreadId),
     let same := fun (i : Instr) => Completes i s (fun u => u = s)
     let chip := s.onChip.find? (fun h => h.id == t)
     let p := s.part t.part
     let trapped := fun (h : Thread) => h.prog.check ≠ none ∨ (∃ c a, h.prog.wait = .retry (.fault c a)) ∨ ∃ x, h.prog.wait = .retry (.trap x)
     let room := ∃ a, a < p.regs.ctxcount.toNat ∧ a ∉ p.areas
     let may := fun (h : Thread) => ¬ trapped h ∧ room
     let gone := fun (h : Thread) (u : State) => ∃ a w,
       let k := h.place.core
       let slot := h.place.slot
       let c := s.core k
       let q := s.quad (k / 4)
       let base := 1024 * h.place.rowBase
       let last := (s.onChip.filter (fun x => x.id.part == t.part && x.id.lid == t.lid && x.place.core == k)).all (fun x => x.id == t)
       let group := c.tables.filterMap (fun e => match e.2 with
         | some x => if x.part = t.part ∧ x.lid = t.lid then some (e.1, x) else none
         | none => none)
       let tables := if last then group else []
       let acc := (q.acc.filter (fun e => decide (base ≤ e.1) && decide (e.1 < base + 1024 * h.conf.tgrant) &&
         h.mat.tiles.contains (e.1 % 1024 / 32))).map (fun e => (e.1 - base, e.2))
       let viq := h.viq.map (fun e => match e with
         | .convoy v => .convoy { v with done := 0, pushes := [] }
         | e => e)
       let pc := match h.framing with
         | some v => v.pc
         | none => h.pc
       let pieces := (imagePieces { h with viq := viq, pc := pc } ((s.cmds.filter (fun c => c.thread == t)).map (fun c => c.tag)) acc
         tables).filter (fun e => decide (e.1 + e.2.length ≤ 2 ^ 20))
       a < p.regs.ctxcount.toNat ∧ a ∉ p.areas ∧ (∀ b < a, b ∈ p.areas) ∧
       w = pieces.foldl (fun (v : State) e =>
         match v.deviceRange p false .write 8 (e.2.length / 8) (p.regs.ctxbase + BitVec.ofNat 64 (2 ^ 20 * a + e.1)) with
         | .ok pas => { v with mem := v.mem.writeAll .unit (pas.zip e.2) }
         | .error x => if x.1 = 0x20 then v.logError t.part x.2 0x2000 (Config.syndrome s.fresh) 5 0x20 else v) s ∧
       u.saved = s.saved ++ [({ h with
         viq := viq
         vr := { h.vr with tags := h.vr.tags.map (fun e => (e.1, { e.2 with dirt := .clean })) }
         place := { h.place with
           area := some a, weight := (c.latOf slot).weight, share := (c.latOf slot).share, aged := false, tail := none }
         prog := { h.prog with
           resend := match h.prog.wait with
             | .retry (.peer k) => Table.set h.prog.resend none h.level (some (h.pc, k))
             | _ => h.prog.resend
           wait := .none } }, tables, acc)] ∧
       (∀ j, u.core j = if j = k then { c with
           lat := (u.core k).lat, tables := (u.core k).tables, waiters := c.waiters.filter (fun x => x != slot) }
         else w.core j) ∧
       (∀ j, (u.core k).latOf j = if j = slot then Lat.zero else c.latOf j) ∧
       (∀ n, (u.core k).table n = if last = true ∧ group.any (fun e => e.1 == n) = true then none else c.table n) ∧
       (∀ j, u.quad j = if j = k / 4 then { q with acc := q.acc.filter (fun e =>
           !(decide (base ≤ e.1) && decide (e.1 < 1024 * (h.place.rowBase + h.conf.tgrant)))) } else w.quad j) ∧
       (∀ j, u.part j = if j = t.part then { w.part j with areas := (w.part j).areas ++ [a] } else w.part j) ∧
       (∀ j, u.objs j = if j = t.part then { s.objs j with
           waiters := (s.objs j).waiters.filter (fun x => x.thread != t || x.kind == .gate)
           resend := (s.objs j).resend.filter (fun x => x.thread != t) } else s.objs j) ∧
       .recordAging t ∈ u.timers ∧ (∀ i ∈ u.timers, i ∈ s.timers ∨ i = .recordAging t ∨ ∃ x, i = .laneReclaim x) ∧
       (∀ i ∈ s.timers, i ∈ u.timers ∨ i = .wfeTimeout t ∨ i = .stagedResend t ∨ ∃ x, i = .laneReclaim x) ∧
       (∀ i ∈ s.inputs, i ∈ u.inputs) ∧
       (∀ i ∈ u.inputs, i ∈ s.inputs ∨ i = .setvlReevaluation k ∨ ∃ x, i = .threadDispatch x) ∧
       u = { w with
         cores := u.cores, quads := u.quads, parts := u.parts, objects := u.objects, saved := u.saved
         timers := u.timers, inputs := u.inputs
         active := s.active && s.cur.id != t
         cur := if s.active = true ∧ s.cur.id = t then Thread.reset else s.cur
         others := s.others.filter (fun x => x.id != t) }
     (chip = none → same (.preemption t) ∧ same (.laneReclaim t)) ∧
     (∀ h, chip = some h →
       let c := s.core h.place.core
       let l := c.latOf h.place.slot
       let held := fun (k : Nat) => (List.range 8).countP (fun i => (c.latOf k).map.getLsbD i)
       let slots := List.range 4
       let share := c.shareOf h.place.slot
       let due := (if l.pm then max (2 * (share / 2)) 2 else max share 1) < held h.place.slot ∧
         ((∃ k ∈ slots, k ≠ h.place.slot ∧ (c.latOf k).wait = true) ∨
           max c.ceil (slots.countP (fun k => decide (0 < held k))) < (slots.map held).sum)
       (may h → Completes (.preemption t) s (gone h)) ∧ (¬ may h → same (.preemption t)) ∧
       (¬ due → same (.laneReclaim t)) ∧
       (due → may h → h.place.ran = true → Completes (.laneReclaim t) s (gone h)) ∧
       (due → ¬ may h ∨ h.place.ran = false →
         Completes (.laneReclaim t) s (fun u => u = { s with timers := s.timers ++ [.laneReclaim t] }))) ∧
     (s.saved.find? (fun e => e.1.id == t) = none → same (.resume t)) ∧
     ∀ h tb acc, s.saved.find? (fun e => e.1.id == t) = some (h, tb, acc) →
       (s.homeFor h = none → same (.resume t)) ∧
       (s.fits h h.place.core = true → s.homeFor h = some h.place.core) ∧
       ∀ k, s.homeFor h = some k → k ∈ s.homes h ∧ s.fits h k = true ∧ Completes (.resume t) s (fun u => ∃ h',
         let slot := h'.place.slot
         let n := if vtPm h.conf.vtype then 2 * h.conf.grant else h.conf.grant
         u.others = s.others ++ [h'] ∧ slot ∈ s.freeSlots k ∧
         h' = { h with
           place := { h.place with
             core := k, slot := slot, area := none, rowBase := h'.place.rowBase, aged := false, tail := none, ran := false }
           rings := h'.rings } ∧
         (h.place.slot < 4 → h.ring ≠ 0#2 → h'.rings = h.rings) ∧
         ((u.core k).latOf slot).weight = h.place.weight ∧ ((u.core k).latOf slot).share = h.place.share ∧
         ((u.core k).latOf slot).held = n ∧ ((u.core k).latOf slot).pm = (vtPm h.conf.vtype && decide (h.conf.grant ≠ 0)) ∧
         ((u.core k).latOf slot).wait = false ∧ (∀ j, j ≠ slot → (u.core k).latOf j = (s.core k).latOf j) ∧
         (∀ j, j ≠ k → u.core j = s.core j) ∧
         (∀ e, e ∈ s.savedTables h → ∃ x, (u.core k).table e.1 = some x) ∧
         (Table.wf acc 0#32 = true → ∀ j < 1024 * h.conf.tgrant, Table.get (u.quad (k / 4)).acc 0#32 (1024 * h'.place.rowBase + j) = Table.get acc 0#32 j) ∧
         (∀ j, j ≠ k / 4 → u.quad j = s.quad j) ∧ (∀ e ∈ u.saved, e.1.id ≠ t) ∧
         (∀ j, j ≠ t.part → u.part j = s.part j) ∧
         (h.place.slot < 4 → u.part t.part = { p with areas := p.areas.filter (fun x => h.place.area != some x) }) ∧
         u.cur = s.cur ∧ u.active = s.active ∧ u.objects = s.objects ∧ u.cmds = s.cmds ∧ u.mlq = s.mlq ∧ u.gz = s.gz ∧
         (h.place.slot < 4 → u.mem = s.mem ∧ u.hub = s.hub))) ∧
  (∀ (s : State) (pn : Nat),
     let cls := fun (aged : Bool) (prio : Nat) => if aged then [0, 0] else [1, prio]
     let waiting := (s.part pn).records.map (fun r => (cls r.aged r.prio ++ [r.id.lid, 0, r.id.rank], Waiting.rec_ r)) ++
       (s.saved.zipIdx.filter (fun e => e.1.1.id.part == pn)).map (fun e =>
         (cls e.1.1.place.aged e.1.1.place.prio ++ (match e.1.1.place.tail with
           | some l => [l - 1, 1, e.2]
           | none => [e.1.1.id.lid, 0, e.1.1.id.rank]), Waiting.thr e.1.1.id))
     (∃ (order : List (List Nat × Waiting)) (run : List Waiting → State → State),
       order.Perm waiting ∧ order.Pairwise (fun a b => lexLe a.1 b.1 = true) ∧
       (∀ v, run [] v = v) ∧
       (∀ r l v, run (.rec_ r :: l) v = run l ((v.tryStart r).getD v)) ∧
       (∀ id l v, run (.thr id :: l) v = if (v.tryResume id).isSome = true then
         { v with inputs := .resume id :: .threadDispatch pn :: v.inputs } else run l v) ∧
       Completes (.threadDispatch pn) s (fun u => u = run (order.map (fun e => e.2)) s)) ∧
     (∀ a b : List Nat, lexLe a b = true ↔ (∃ c, b = a ++ c) ∨ ∃ c x y d e, a = c ++ x :: d ∧ b = c ++ y :: e ∧ x < y) ∧
     (∀ id, (s.tryResume id).isSome = true ↔ ∃ e, s.saved.find? (fun e => e.1.id == id) = some e ∧ (s.homeFor e.1).isSome = true) ∧
     ∀ r : Record, r.id.part = pn →
       let p := s.part pn
       let k := r.core
       let mine := s.onChip.filter (fun t => t.id.part == pn && t.id.lid == r.id.lid && t.place.core == k)
       let empty := fun (j : Nat) => j < 4 ∧ ∀ t ∈ s.onChip, ¬ (t.place.core = k ∧ t.place.slot = j)
       let fits := fun (l : Launch) (g : Legend) => mine.length < (if l.packet.tpc = 0 then g.threads else l.packet.tpc) ∧
         (∃ j, empty j) ∧ (k / 4 < 64 ∧ p.quads.getLsbD (k / 4) = true) ∧
         (g.stack ≠ 0 → ∃ n < p.regs.stkcount.toNat, n ∉ p.stackSlots)
       (s.tryStart r ≠ none ↔ ∃ l g, p.launch r.id.lid = some l ∧ l.legend = some g ∧ fits l g) ∧
       ∀ u l g, s.tryStart r = some u → p.launch r.id.lid = some l → l.legend = some g → ∃ h,
         u.others = s.others ++ [h] ∧ empty h.place.slot ∧
         h = { Thread.reset with
           id := r.id, pc := g.entry, s := h.s, rings := h.rings
           place := ⟨k, k, h.place.slot, l.packet.prio, h.place.stack, none, 0, 0, 0, false, none, true⟩ } ∧
         (let pr := fun (k : Nat) => r.pairs.getD k (0#64, 0#64)
           let first := [(pr 0).1, (pr 0).2, (pr 1).1, (pr 1).2, (pr 2).1, (pr 2).2, BitVec.ofNat 64 r.id.rank,
             BitVec.ofNat 64 l.total, BitVec.ofNat 64 r.id.lid, if r.id.lid = 1 then 0#64 else l.packet.addr + 64#64] ++
             (List.range 6).map (fun k => l.packet.args.getD k 0#64) ++ [r.entries.1, r.entries.2]
           ∀ k : BitVec 5, k.toNat ≠ 30 → h.readS k = if k = 0#5 then 0#64 else first.getD (k.toNat - 1) 0#64) ∧
         (∀ n, 1 ≤ n → n ≤ 3 → h.rings.get n = ⟨0#64, p.regs2.defs n 6, 0#64, 0#64, if p.regs2.defs n 7 = 0#64 then 0#64 else
           p.regs2.defs n 7 + BitVec.ofNat 64 (1024 * (4 * k + h.place.slot)), 0#64⟩) ∧
         (g.stack = 0 → h.place.stack = none ∧ h.readS 30#5 = 0#64) ∧
         (g.stack ≠ 0 → ∃ n, h.place.stack = some n ∧ n < p.regs.stkcount.toNat ∧ n ∉ p.stackSlots ∧ (∀ m < n, m ∈ p.stackSlots) ∧
           h.readS 30#5 = p.regs.stkbase + BitVec.ofNat 64 n * p.regs.stkslot + BitVec.ofNat 64 g.stack) ∧
         (∀ j, u.part j = if j = pn then { p with
             records := p.records.filter (fun x => x.id != r.id)
             stackSlots := p.stackSlots ++ h.place.stack.toList } else s.part j) ∧
         (∀ j, u.core j = if j = k then { s.core k with lat := (u.core k).lat } else s.core j) ∧
         (∀ j, (u.core k).latOf j = if j = h.place.slot then { Lat.zero with weight := 8 - l.packet.prio } else (s.core k).latOf j) ∧
         u = { s with
           parts := u.parts, cores := u.cores, others := u.others
           timers := s.timers.filter (fun i => i != .recordAging r.id) })

/-- R22, R23, R249, R362, R363, R366, R369, R371 to R373, R375, R396, R399, R400, R408, R410, R413, R491, R493: an engine command
completes once what comes before it has: if it is ordered, the thread's earlier ones on its engine; those whose destinations share a
line with its bytes; and, where it moves any, the tile words, writes, atomics and acquires that were dispatched before it, and the
reads of its destination lines. A copy, a fill, a slot load or a tile transfer then moves its bytes, poison with them, but for the
lines of an error, which keep their value (log 13); its token and its event come, and an error is kept for ECWAIT. Poison that a
slot or a tile takes in is checked (log 26); WBLD's data is as old as its PFENCEs allow (log 7).

R448, R453, R455, R457, R459, R462, R491: the events of the multi-layer units. An operation is applied when no earlier one works at
a pixel of it, its steps in order and all as one, and it waits while an engine owns a line of it (R23); where its target is no longer bound nothing is done. A unit that meets a head or a
node it may not use drops the element, and the thread's partition gets a MACHINE_CHECK whose record names the address and the
target. (In which order the units apply operations is left open, log 22.)

R450 to R453, R458, R460, R461, R493: one step of a multi-layer unit. It reads the head and follows the links of the nodes; an
insertion puts its node after the last whose depth is no greater, and a list over its bound merges the adjacent pair with the least
gap, the frontmost of equal ones; a resolution composites the list over its background, and it or a clearing frees the nodes. The
head and the changed nodes are written, each by the unit of the head's home (R450), the freed nodes join the core's free list, and
an access that fails, as one to a peer that no port reaches does by the model's choice (log 31), stops the step at its address. What a read of the unit sees is as old as its thread's PFENCEs and its own last write allow (log 7); how far apart two
equal infinities are is left open (log 13).

R305, R315, R418 to R423, R429, R436, R516: the events of launches. The host's packet becomes the boot launch; the partition unit
takes the head of the lowest-numbered queue, makes the transition of its gate and splits it; a gate that found its unit full is
offered again; a launch whose threads have ended and whose commands have completed completes, with its node's open batches due, and
makes its completion's transition. What the hub cannot apply while an engine owns the state byte or no port reaches it waits, and a
poisoned state byte counts as FAULT (log 19).

R62 to R66, R423 to R428, R432, R494, R516: the split of a launch. A legend that cannot be read, is invalid, allows fewer threads
than TPC or more stack than a slot rejects it with its REASON, a read of the offsets that fails with 3. Else its levels are cut, a
record stands for each combination, on the core that its level fixes or on the least loaded one, and their 1 ms begins; with no part
it completes. A balanced level shares the entries out evenly and finds its rows by the search that R428 gives. (Poison that the hub
reads counts as a failed read, log 19.)

R418, R420, R436, R437: the flush of a node. Its open batch is launched as a packet is accepted, with its records' number as EXT0
and the address of the first as ARG0, once its queue has room; a node that is not active has none. -/
def Obligations.UnitEvents : Prop :=
  (∀ (s : State) (id : Nat) (err : Bool),
     let i := Instr.commandComplete id err
     let same := Completes i s (fun u => u = s)
     (s.cmds.find? (fun c => c.id == id) = none → same) ∧
     ∀ c, s.cmds.find? (fun c => c.id == id) = some c →
       let bytes := fun (l : List (Nat × Nat)) => l.flatMap (fun r => (List.range r.2).map (fun k => r.1 + k))
       let src := bytes c.body.sources
       let dst := bytes c.body.dests
       let before := s.cmds.takeWhile (fun x => x.id != id)
       let engine := fun (x : Cmd) => x.copyEngine = c.copyEngine ∧
         (if c.copyEngine then x.core = c.core else x.core / 4 = c.core / 4)
       let tile := fun (t : Nat) (w : Bool) => if w then [2 * t, 2 * t + 1] else [t]
       let mine := match c.body with
         | .acstm t w _ => tile t w
         | .acldm t w _ => tile t w
         | _ => []
       let passes := fun (h : Held) (e : VEntry) => h.held ≠ 255#8 ∧ ∀ a ∈ e.bytes.2, ∀ b ∈ dst, a / 64 ≠ b / 64
       let free := fun (e : VEntry) => match e with
         | .convoy v => ∀ m ∈ v.members, ∀ k ∈ mine,
           128 + k ∉ eReads v.vtype v.grant v.tgrant m.instr ++ eWrites v.vtype v.grant v.tgrant m.instr
         | .write _ => True
         | .reply _ _ => True
         | .access h true _ _ => passes h e
         | .tile h _ _ _ => passes h e
         | .scalar h _ (.load _ _ _) => passes h e
         | .scalar h _ (.ldk _) => passes h e
         | _ => False
       let ready := (c.ordered = true → ∀ x ∈ before, x.thread = c.thread → ¬ engine x) ∧
         (∀ x ∈ before, ∀ a ∈ bytes x.body.dests, ∀ b ∈ src ++ dst, a / 64 ≠ b / 64) ∧
         (src ++ dst ≠ [] → ∀ h, s.findThread c.thread = some h → ∀ e ∈ h.viq.take c.ahead, free e) ∧
         (err = true ∨ ∀ a ∈ src ++ dst, s.cutOff a = false)
       let peers := (src ++ dst).filter (fun a => decide (a / 2 ^ 50 % 4 = 2))
       let takes := match c.body with
         | .wbld _ _ _ _ _ => True
         | .acldm _ _ _ => True
         | _ => False
       let bad := (err = true ∧ peers ≠ []) ∨ c.lost ≠ [] ∨ ∃ a ∈ src, a ∈ s.mem.poison
       let isTile := fun (load : Bool) (t : Nat) (w : Bool) (runs : List (Nat × Nat × Nat)) =>
         c.body = if load then .acldm t w runs else .acstm t w runs
       let pairs := fun (runs : List (Nat × Nat × Nat)) =>
         runs.flatMap (fun r => (List.range r.2.2).map (fun k => (r.1 + k, r.2.1 + k)))
       let at_ := fun (t : Nat) (w : Bool) (x : Nat) => if w then 1024 * (x / 256) + 64 * t + x % 256 / 4
         else 1024 * (x / 128) + 32 * t + x % 128 / 4
       let word := fun (v : State) (k : Nat) => match v.onChip.find? (fun h => h.id == c.thread) with
         | some h => (Table.get (v.quad (h.place.core / 4)).acc 0#32 (1024 * h.place.rowBase + k)).toNat
         | none => match v.saved.find? (fun e => e.1.id == c.thread) with
           | some e => (Table.get e.2.2 0#32 k).toNat
           | none => 0
       let q := s.quad (c.core / 4)
       (¬ ready → same) ∧
       (ready → Completes i s (fun u => ∃ line first, ∃ w : State,
         let fails := fun (a : Nat) => s.cutOff a = true ∨
           (err = true ∧ peers ≠ [] ∧ (∀ b ∈ peers, s.cutOff b = false) ∧ a / 64 = line) ∨ a / 64 ∈ c.lost
         let eaten := takes ∧ ∃ a ∈ src, a ∈ s.mem.poison
         let on := fun (h h' : Thread) => (h.id ≠ c.thread → h' = h) ∧ (h.id = c.thread →
           h' = { h with
             tok := match c.push with
               | some f => h.tok.put f (h.tok.get f + 1)
               | none => h.tok
             mat := { h.mat with tiles := h'.mat.tiles }
             user := { h.user with fflags := h'.user.fflags }
             prog := { h.prog with
               events := h.prog.events ||| 1#4, errors := h'.prog.errors, check := h'.prog.check } } ∧
           (bad → h'.prog.errors = h.prog.errors ++ [c.tag]) ∧ (¬ bad → h'.prog.errors = h.prog.errors) ∧
           (eaten → h'.prog.check = some (h.prog.check.getD (BitVec.ofNat 64 first))) ∧ (¬ eaten → h'.prog.check = h.prog.check) ∧
           (∀ n, n ∈ h'.mat.tiles ↔ n ∈ h.mat.tiles ∨ ((∃ t w runs, isTile true t w runs) ∧ n ∈ mine)) ∧
           ((∀ n hd runs fences, c.body ≠ .wbld n hd runs true fences) → h'.user.fflags = h.user.fflags))
         (peers ≠ [] → ∃ a ∈ peers, line = a / 64) ∧ (eaten → first ∈ src ∧ first ∈ s.mem.poison) ∧
         (eaten → w = { s.logError c.thread.part (BitVec.ofNat 64 first) c.core s.synd 2 0x30 with
           outbox := s.outbox ++ [.aerNonFatal] }) ∧
         (¬ eaten → w = s) ∧
         (∀ runs, c.body = .copy runs → dst.Nodup → ∀ r ∈ runs, ∀ k < r.2.2,
           (¬ fails (r.1 + k) → ¬ fails (r.2.1 + k) → u.mem.byte (r.1 + k) = s.mem.byte (r.2.1 + k) ∧
             (r.1 + k ∈ u.mem.poison ↔ r.2.1 + k ∈ s.mem.poison)) ∧
           (fails (r.1 + k) ∨ fails (r.2.1 + k) → u.mem.byte (r.1 + k) = s.mem.byte (r.1 + k))) ∧
         (∀ runs pat, c.body = .fill runs pat → dst.Nodup → ∀ r ∈ runs, ∀ k < r.2.1,
           (¬ fails (r.1 + k) → u.mem.byte (r.1 + k) = BitVec.ofNat 8 (pat.toNat / 256 ^ ((r.2.2 + k) % 8)) ∧
             r.1 + k ∉ u.mem.poison) ∧
           (fails (r.1 + k) → u.mem.byte (r.1 + k) = s.mem.byte (r.1 + k))) ∧
         (∀ t v runs, isTile false t v runs → ∀ l x l', pairs runs = l ++ x :: l' → (∀ y ∈ l', y.1 ≠ x.1) →
           (¬ fails x.1 → u.mem.byte x.1 = BitVec.ofNat 8 (word s (at_ t v x.2) / 256 ^ (x.2 % 4))) ∧
           (fails x.1 → u.mem.byte x.1 = s.mem.byte x.1)) ∧
         (∀ a, a ∉ dst → u.mem.byte a = w.mem.byte a ∧ (a ∈ u.mem.poison ↔ a ∈ w.mem.poison)) ∧
         (∀ t v runs, isTile true t v runs → ((pairs runs).map (fun x => x.2)).Nodup → s.findThread c.thread ≠ none →
           ∀ k, ∀ j < 4, let now := word u k / 256 ^ j % 256
             (∀ x ∈ pairs runs, at_ t v x.2 = k → x.2 % 4 = j →
               (¬ fails x.1 → x.1 ∉ s.mem.poison → now = (s.mem.byte x.1).toNat) ∧
               (fails x.1 ∨ x.1 ∈ s.mem.poison → now = word s k / 256 ^ j % 256)) ∧
             ((∀ x ∈ pairs runs, at_ t v x.2 = k → x.2 % 4 ≠ j) → now = word s k / 256 ^ j % 256)) ∧
         (∀ n hd runs chk fences, c.body = .wbld n hd runs chk fences →
           let old := Table.get q.slots WSlot.empty n
           let x := Table.get (u.quad (c.core / 4)).slots WSlot.empty n
           (∀ j, j ≠ n → Table.get (u.quad (c.core / 4)).slots WSlot.empty j = Table.get q.slots WSlot.empty j) ∧
           (old.state ≠ .loading id → x = old) ∧ (old.state = .loading id → bad → x = WSlot.empty) ∧
           (old.state = .loading id → ¬ bad → ∃ k ≤ s.mem.logLen, ∃ cks dks : List Word,
             let data := (bytes runs).drop 64
             let f := hd.toNat % 256
             let col := fun (a : Bool) (p : Nat) => roundFl (if wClass f = 64 then fp64 else fp32) 0 (sumTerms 0
               ((List.range 32).map (fun j => if a then (x.entry p j).abs else x.entry p j)))
             mustSee fences .tile c.thread data s.mem.log s.mem.logLen ≤ k ∧
             x = ⟨.ready, f, hd.toNat / 2 ^ 8 % 256, BitVec.ofNat 32 (hd.toNat / 2 ^ 64), BitVec.ofNat 32 (hd.toNat / 2 ^ 96),
               BitVec.ofNat 65536 (leNum (data.map (s.mem.byteAt k))), chk, cks, dks⟩ ∧
             (chk = false → cks = [] ∧ dks = []) ∧
             (chk = true → cks = (List.range (wK f)).map (fun p => BitVec.ofNat 64 (col false p).val) ∧
               dks = (List.range (wK f)).map (fun p => BitVec.ofNat 64 (col true p).val) ∧
               ∀ h h', s.findThread c.thread = some h → u.findThread c.thread = some h' →
                 h'.user.fflags = (List.range (wK f)).foldl (fun z p => z |||
                   BitVec.ofNat 64 ((col false p).fl ||| (col true p).fl)) h.user.fflags))) ∧
         (∀ j, u.quad j = { s.quad j with acc := (u.quad j).acc, slots := (u.quad j).slots }) ∧
         (∀ j, (j ≠ c.core / 4 ∨ ∀ n hd runs chk fences, c.body ≠ .wbld n hd runs chk fences) →
           (u.quad j).slots = (s.quad j).slots) ∧
         (∀ j k, (∀ h t v runs, s.onChip.find? (fun h => h.id == c.thread) = some h → isTile true t v runs → h.place.core / 4 = j →
           ∀ x ∈ pairs runs, k ≠ 1024 * h.place.rowBase + at_ t v x.2) →
           Table.get (u.quad j).acc 0#32 k = Table.get (s.quad j).acc 0#32 k) ∧
         (if s.active then on s.cur u.cur else u.cur = s.cur) ∧ List.Forall₂ on s.others u.others ∧
         List.Forall₂ (fun e e' => on e.1 e'.1 ∧ e'.2.1 = e.2.1 ∧
           (e.1.id ≠ c.thread ∨ (∀ t v runs, ¬ isTile true t v runs) → e'.2.2 = e.2.2)) s.saved u.saved ∧
         u = { w with
           mem := u.mem, quads := u.quads, cur := u.cur, others := u.others, saved := u.saved
           cmds := s.cmds.filter (fun x => x.id != id)
           timers := s.timers.filter (fun x => x != .commandComplete id true) }))) ∧
  (∀ (s : State) (id : Nat),
     let here := fun (P : State → Prop) => Completes (.mlInsertion id) s P ∧ Completes (.mlResolveApply id) s P ∧
       Completes (.mlClearApply id) s P
     (s.mlq.find? (fun o => o.id == id) = none → here (fun u => u = s)) ∧
     ∀ o, s.mlq.find? (fun o => o.id == id) = some o →
       let ready := ∀ x ∈ s.mlq.takeWhile (fun x => x.id != id), x.part = o.part →
         ∀ k ∈ x.steps, ∀ j ∈ o.steps, k.pix ≠ j.pix
       let w : State := { s with mlq := s.mlq.filter (fun x => x.id != id) }
       let dropped := w.onThread o.thread (fun h => { h with viq := h.viq.map (fun e => match e with
         | .reply n _ => if n = id then .write [] else e
         | e => e) })
       (¬ ready → here (fun u => u = s)) ∧
       (ready → Table.get (s.objs o.part).targets none o.target = none → here (fun u => u = dropped)) ∧
       ∀ t, ready → Table.get (s.objs o.part).targets none o.target = some t →
         let r := o.steps.foldl (fun (r : Except MlStop State) k => r.bind (fun v => v.unitStep o t k)) (.ok w)
         let again := fun (i : Instr) => Completes i s (fun u => u = { s with inputs := s.inputs ++ [i] })
         (∀ v, r = .ok v → here (fun u => u = v)) ∧
         (r = .error .waits → again (.mlInsertion id) ∧ again (.mlResolveApply id) ∧ again (.mlClearApply id)) ∧
         ∀ a, r = .error (.fails a) → here (fun u =>
           u = ({ dropped.logError o.thread.part a o.core (BitVec.ofNat 32 o.target) 2 0x30 with
             outbox := s.outbox ++ [.aerNonFatal] } : State).onThread o.thread (fun h => { h with
               prog := { h.prog with check := some (h.prog.check.getD a) } }))) ∧
  (∀ (v : State) (o : MlOp) (t : Target),
     let comp := fun (c x : Nat) => fp16.value (c / 2 ^ (16 * x) % 2 ^ 16)
     let under := fun (a : Nat → FV) (c x : Nat) =>
       (sumTerms 0 [a x, ((sumTerms 0 [FV.one, (a 3).negate]).val.mul (comp c x)).val]).val
     let pack := fun (g : Nat → FV) => ((List.range 4).map (fun x => (roundOnce fp16 0 false (g x)).val * 2 ^ (16 * x))).sum
     let freed := fun (l : List Nat) (r : State) =>
       Table.get (r.core o.core).freeNodes [] o.target = Table.get (v.core o.core).freeNodes [] o.target ++ l ∧
       (∀ j, j ≠ o.target → Table.get (r.core o.core).freeNodes [] j = Table.get (v.core o.core).freeNodes [] j) ∧
       r.core o.core = { v.core o.core with freeNodes := (r.core o.core).freeNodes } ∧
       ∀ j, j ≠ o.core → r.core j = v.core j
     let fails := fun (pix : Nat) (a : MlStop) =>
       v.unitStep o t (.clear pix) = .error a ∧ (∀ f e d g, v.unitStep o t (.resolve pix f e d g) = .error a) ∧
       ∀ n z c, (fp32.value z.toNat).isNan = false → v.unitStep o t (.insert pix n z c) = .error a
     (∀ k va n, match v.element (v.part o.part) k 4 va n with
       | .error _ => v.layerPlace o k va n = .error (.fails va)
       | .ok pas => ((∃ b ∈ pas, v.owned b = true) → v.layerPlace o k va n = .error .waits) ∧
         ((∀ b ∈ pas, v.owned b = false) → (∃ b ∈ pas, v.cutOff b = true) → v.layerPlace o k va n = .error (.fails va)) ∧
         ((∀ b ∈ pas, v.owned b = false ∧ v.cutOff b = false) → v.layerPlace o k va n = .ok pas)) ∧
     (∀ va n, match v.layerPlace o .read va n with
       | .error e => v.layerRead o va n = .error e
       | .ok pas => (v.poisoned pas = true → v.layerRead o va n = .error (.fails va)) ∧
         (v.poisoned pas = false → Table.get v.mlLog 0 (pas.headD 0) ≤ v.mem.logLen → ∃ k ≤ v.mem.logLen,
           Table.get v.mlLog 0 (pas.headD 0) ≤ k ∧ mustSee o.fences .layer o.thread pas v.mem.log v.mem.logLen ≤ k ∧
           v.layerRead o va n = .ok (leNum (pas.map (v.mem.byteAt k))))) ∧
     (∀ pix n z c, (fp32.value z.toNat).isNan = true → ∃ r, v.unitStep o t (.insert pix n z c) = .ok r ∧
       freed [n] r ∧ r = { v with cores := r.cores }) ∧
     (∀ pix a, v.layerRead o (BitVec.ofNat 64 pix) 4 = .error a → fails pix a) ∧
     ∀ (pix h : Nat) (l : List (Nat × Nat)),
       let next := fun (k : Nat) => if k = 0 then h % 2 ^ 24 else (l.getD (k - 1) (0, 0)).2 / 2 ^ 96 % 2 ^ 24
       let node := fun (n : Nat) => t.pool + BitVec.ofNat 64 (16 * n)
       let old := l.map (fun e => (e.1, e.2 % 2 ^ 32, e.2 / 2 ^ 32 % 2 ^ 64, e.2 / 2 ^ 120 % 2 ^ 8))
       let count := h / 2 ^ 24 % 32
       let merged := h / 2 ^ 29 % 2
       v.layerRead o (BitVec.ofNat 64 pix) 4 = .ok h → l.length ≤ 31 →
       (∀ k < l.length, next k ≠ 0xFFFFFF ∧ (l.getD k (0, 0)).1 = next k ∧
         v.layerRead o (node (next k)) 16 = .ok (l.getD k (0, 0)).2) →
       (l.length < 31 → next l.length ≠ 0xFFFFFF → ∀ a, v.layerRead o (node (next l.length)) 16 = .error a → fails pix a) ∧
       (next l.length = 0xFFFFFF ∨ l.length = 31 →
         let written := fun (k : MlKind) (base : State) (new : List (Nat × Nat × Nat × Nat)) (n m : Nat) (free : List Nat) =>
           let linked := fun (x : List (Nat × Nat × Nat × Nat)) (f : Nat → Nat) => x.zipIdx.map (fun e => (e.1, f (e.2 + 1)))
           let succ := fun (j : Nat) => if j < new.length then (new.getD j (0, 0, 0, 0)).1 else 0xFFFFFF
           let changed := (linked new succ).filter (fun x => !(linked old next).contains x)
           let out := changed.map (fun x => (node x.1.1, 16,
               x.1.2.1 + 2 ^ 32 * x.1.2.2.1 + 2 ^ 96 * x.2 + 2 ^ 120 * (x.1.2.2.2 % 2))) ++
             [(BitVec.ofNat 64 pix, 4, succ 0 + 2 ^ 24 * (n % 32) + 2 ^ 29 * m)]
           let at_ := fun (x : Word × Nat × Nat) => v.layerPlace o .write x.1 x.2.1
           (∀ a x b e, out = a ++ x :: b → (∀ y ∈ a, ∃ q, at_ y = .ok q) → at_ x = .error e → v.unitStep o t k = .error e) ∧
           ∀ places, List.Forall₂ (fun x q => at_ x = .ok q) out places → places.flatten.Nodup →
             ∃ r, v.unitStep o t k = .ok r ∧ freed free r ∧
               List.Forall₂ (fun x q => q.map r.mem.byte = leBytes x.2.1 x.2.2 ∧
                 r.mem.changed (Table.get r.mlLog 0 (q.headD 0)) q = false) out places ∧
               (∀ a, a ∉ places.flatten → r.mem.byte a = v.mem.byte a ∧ Table.get r.mlLog 0 a = Table.get v.mlLog 0 a) ∧
               (∃ new, r.mem.log = new ++ v.mem.log ∧ ∀ y ∈ new, ∀ q ∈ (places.getLastD []).head?,
                 y.who = .sheet (Config.homeSheet (q / 2 ^ 21)).val) ∧
               r = { base with mem := r.mem, mlLog := r.mlLog, cores := r.cores }
         written (.clear pix) v [] 0 0 (l.map (fun e => e.1)) ∧
         (∀ e d g, let a := old.foldl (fun (a : Nat → FV) n => under a n.2.2.1) (fun _ => FV.zero false)
           let x := pack (fun j => if l = [] then comp g.toNat j else under a g.toNat j)
           let grant := match v.findThread o.thread with
             | some h => h.conf.grant
             | none => 1
           let u := v.onThread o.thread (fun h => { h with viq := h.viq.map (fun y => match y with
             | .reply n _ => if n = o.id then .write (gatherV [((groupLoc grant 32 d e).1, elemPos 32 e, 32, x % 2 ^ 32),
               ((d + 1) % 32, elemPos 32 e, 32, x / 2 ^ 32)]) else y
             | y => y) })
           v.unitStep o t (.resolve pix false e d g) = .ok u ∧
           written (.resolve pix true e d g) u [] 0 0 (l.map (fun e => e.1))) ∧
         ∀ n z c k, (fp32.value z.toNat).isNan = false → k ≤ l.length →
           (let z' := fp32.value z.toNat
           let low := fun (j : Nat) => let y := fp32.value (old.getD j (0, 0, 0, 0)).2.1
             FV.lt y z' = true ∨ FV.eq y z' = true
           (k = 0 ∨ low (k - 1)) ∧ ∀ j, k ≤ j → j < l.length → ¬ low j) →
           let new := old.take k ++ (n, z.toNat, c.toNat, 0) :: old.drop k
           let ins := MlKind.insert pix n z c
           (count + 1 ≤ t.k → written ins v new (count + 1) merged []) ∧
           (t.k < count + 1 → 2 ≤ new.length → ∃ (gap : Nat → FV) (j : Nat),
             let x := fun (i : Nat) => new.getD i (0, 0, 0, 0)
             let exact := fun (i : Nat) => ((fp32.value (x (i + 1)).2.1).add (fp32.value (x i).2.1).negate).val
             let f := x j
             let b := x (j + 1)
             let colour := if t.merge = 0 then pack (under (comp f.2.2.1) b.2.2.1)
               else if t.merge = 1 then f.2.2.1
               else pack (fun q => (sumTerms 0 [comp f.2.2.1 q, comp b.2.2.1 q]).val)
             (∀ i, i + 1 < new.length → (exact i).isNan = false → gap i = exact i) ∧ j + 1 < new.length ∧
             (∀ i < j, FV.lt (gap j) (gap i) = true) ∧ (∀ i, j ≤ i → i + 1 < new.length → FV.lt (gap i) (gap j) = false) ∧
             written ins v (new.take j ++ (f.1, f.2.1, colour, f.2.2.2 ||| 1) :: new.drop (j + 2)) t.k 1 [b.1]))) ∧
  (∀ (s : State) (pn lid : Nat) (packet : BitVec 1024),
     let same := fun (i : Instr) => Completes i s (fun u => u = s)
     let p := s.part pn
     let tried := fun (v : State) (n : Nat) (va : Word) (code : Nat) =>
       let o := v.objs pn
       if ∃ a ∈ v.walkBytes (v.part pn) va, v.owned a = true ∨ v.cutOff a = true then HubTry.wait
       else match v.scalar (v.part pn) true .read 1 va 1 with
       | .error c => .fault c
       | .ok _ => match o.find va.toNat with
         | none => .fault 0x0F
         | some (m, cl, j) => match v.stateByte (v.part pn) cl j with
           | .error e => .fault e.1
           | .ok sb =>
             let st := (v.mem.byte sb).toNat
             let e := (Table.get (o.automaton cl.slot).table 0#16 (16 * st + code)).toNat
             let u : State := { v with mem := v.mem.write (.sheet (Config.homeSheet (sb / 2 ^ 21)).val) sb (BitVec.ofNat 8 (e % 16)) }
             if v.objectOwned o m j sb = true ∨ v.cutOff sb = true then .wait
             else if v.poisoned [sb] then .fault 0x30
             else if (o.automaton cl.slot).nst ≤ st then .fault 0x10
             else if e.testBit 4 then
               .legal (if e.testBit 11 then State.handOff pn m j sb cl.slot (o.waitersOf m j).length u else u)
             else if e / 2 ^ 5 % 4 = 0 then .fail
             else if e / 2 ^ 5 % 4 = 1 then .park ⟨va, sb, m, j, .gate, code, ⟨pn, n, 0⟩, 0, 0, 0, 0⟩ v
             else .fault 0x0F
     let onL := fun (v : State) (n : Nat) (f : Launch → Launch) => v.setPart pn { v.part pn with
       launches := (v.part pn).launches.map (fun e => if e.1 = n then (e.1, f e.2) else e) }
     let ended := fun (v : State) (n : Nat) (x : LState) =>
       let u := onL v n (fun l => { l with state := x, reason := 0 })
       match ((v.part pn).launch n).bind (fun l => l.accepter) with
       | some id => u.onThread id (fun t => { t with prog := { t.prog with events := t.prog.events ||| 2#4 } })
       | none => u
     let logged := fun (v : State) (n : Nat) (va : Word) (c : Nat) => v.logError pn va 0x2000 (BitVec.ofNat 32 n) 6 c
     let violated := fun (v : State) (c : Nat) (va : Word) => if c = 0x20 then v.logError pn va 0x2000 v.synd 5 0x20 else v
     let parked := fun (v : State) (n : Nat) (w : Waiter) =>
       let u := onL v n (fun l => { l with state := .parked })
       if v.unitFull w.sb then { u with timers := u.timers ++ [.gateReoffer pn n] }
       else u.setObjs pn { v.objs pn with waiters := (v.objs pn).waiters ++ [w] }
     let refused := fun (v : State) (n : Nat) (k : Packet) (r : HubTry) => match r with
       | .fault c => logged (ended (violated v c k.gate) n .gateFaulted) n k.gate c
       | _ => ended v n .gateFailed
     let pushed := fun (i : Instr) => ({ s with inputs := s.inputs ++ [i] } : State)
     Completes (.bootLaunch pn packet) s (fun u => u = s.bootPacket pn packet) ∧
     (p.state ≠ .running ∨ p.bootClosed = true → same (.bootLaunch pn packet)) ∧
     (p.state = .running → p.bootClosed = false →
       (packetParse 0#64 (leBytes 128 packet.toNat) = none → Completes (.bootLaunch pn packet) s (fun u =>
         u = s.setPart pn { p with boot := packet, bootBad := true })) ∧
       ∀ k, packetParse 0#64 (leBytes 128 packet.toNat) = some k → Completes (.bootLaunch pn packet) s (fun u =>
         u = { s.setPart pn { p with
             boot := 0, bootBad := false, bootClosed := true, nextLid := p.nextLid + 1
             launches := p.launches.filter (fun e => !e.2.state.final || e.2.owes || decide (p.nextLid < e.1 + 65536)) ++
               [(p.nextLid, ⟨none, k, none, .queued, 0, false, false, false, 0, 0, []⟩)]
             queues := Table.set p.queues [] k.prio (Table.get p.queues [] k.prio ++ [p.nextLid]) } with
           inputs := s.inputs ++ [.partitionUnitTake pn] })) ∧
     ((∀ q < 8, Table.get p.queues [] q = []) → same (.partitionUnitTake pn)) ∧
     (∀ q n rest, q < 8 → (∀ j < q, Table.get p.queues [] j = []) → Table.get p.queues [] q = n :: rest →
       let s1 := s.setPart pn { p with queues := Table.set p.queues [] q rest }
       (p.launch n = none → Completes (.partitionUnitTake pn) s (fun u => u = s1)) ∧
       ∀ l, p.launch n = some l →
         let k := l.packet
         (k.gated = false ∨ l.passed = true → Completes (.partitionUnitTake pn) s (fun u => u = s1.split pn n k)) ∧
         (k.gated = true → l.passed = false → Completes (.partitionUnitTake pn) s (fun u =>
           match tried s1 n k.gate k.gcode with
           | .legal v => u = v.split pn n k
           | .park w _ => u = parked s1 n w
           | .wait => u = pushed (.partitionUnitTake pn)
           | r => u = refused s1 n k r))) ∧
     (p.launch lid = none → same (.gateReoffer pn lid) ∧ same (.launchComplete pn lid)) ∧
     ∀ l, p.launch lid = some l →
       let k := l.packet
       let waits := (s.objs pn).waiters.any (fun w => w.kind == .gate && w.thread.lid == lid)
       let ours := fun (t : ThreadId) => t.part = pn ∧ t.lid = lid
       let ran := l.state = .running ∧ l.ended = l.total ∧ (∀ c ∈ s.cmds, ¬ ours c.thread) ∧ ∀ o ∈ s.mlq, ¬ ours o.thread
       let fails := fun (v : State) (c : Nat) =>
         logged (onL (violated v c k.compl) lid (fun l => { l with cfail := true })) lid k.compl c
       let transits := fun (v u : State) =>
         let v1 := onL v lid (fun l => { l with owes := false })
         match tried v1 lid k.compl k.ccode with
         | .legal w => u = w
         | .fault c => u = fails v1 c
         | .wait => u = { onL v lid (fun l => { l with owes := true }) with inputs := v.inputs ++ [.launchComplete pn lid] }
         | _ => u = fails v1 0
       (l.state ≠ .parked ∨ waits = true → same (.gateReoffer pn lid)) ∧
       (l.state = .parked → waits = false → Completes (.gateReoffer pn lid) s (fun u =>
         match tried s lid k.gate k.gcode with
         | .legal v =>
           let q := (v.part pn).queues
           let v1 := v.setPart pn { v.part pn with queues := Table.set q [] k.prio (lid :: Table.get q [] k.prio) }
           u = { onL v1 lid (fun l => { l with state := .queued, passed := true }) with
             inputs := v.inputs ++ [.partitionUnitTake pn] }
         | .park w _ => u = parked s lid w
         | .wait => u = { s with timers := s.timers ++ [.gateReoffer pn lid] }
         | r => u = refused s lid k r)) ∧
       (¬ ran → l.owes = false → same (.launchComplete pn lid)) ∧
       (¬ ran → l.owes = true → Completes (.launchComplete pn lid) s (transits s)) ∧
       (ran → Completes (.launchComplete pn lid) s (fun u =>
         let s1 := ended s lid .complete
         let open_ := fun (b : Batch) => match b.lid with
           | none => true
           | some x => match (s1.part pn).launch x with
             | some y => !y.state.final
             | none => false
         let due := ((s.objs pn).nodes.filter (fun n => n.batches.any open_ && decide (n.parent = lid) &&
           n.batches.any (fun b => b.lid.isNone))).map (fun n => Instr.nodeFlush pn n.desc.toNat)
         let s2 : State := { s1 with timers := s1.timers.filter (fun i => !due.contains i), inputs := s1.inputs ++ due }
         (k.completes = false → u = s2) ∧ (k.completes = true → transits s2 u)))) ∧
  (∀ (s : State) (pn lid : Nat) (k : Packet),
     let p := s.part pn
     let word := BitVec.ofNat 64
     let src := fun (x : Nat) => match x with
       | 0 => k.ext0
       | 1 => k.ext1
       | 2 => k.ext2
       | n => k.args.getD (n - 3) 0#64
     let rejects := fun (v : State) (r : Nat) =>
       let q := { v.part pn with launches := (v.part pn).launches.map (fun e =>
         if e.1 = lid then (e.1, { e.2 with state := .rejected, reason := r }) else e) }
       s.split pn lid k = match ((v.part pn).launch lid).bind (fun l => l.accepter) with
         | some id => (v.setPart pn q).onThread id (fun t => { t with prog := { t.prog with events := t.prog.events ||| 2#4 } })
         | none => v.setPart pn q
     let failed := fun (e : Nat × Word) (r : Nat) =>
       rejects (if e.1 = 0x20 then s.logError pn e.2 0x2000 s.synd 5 0x20 else s) r
     let read := s.deviceRange p true .read 64 1 k.legend
     (∀ e, read = .error e → failed e 2) ∧
     (∀ pas, read = .ok pas → s.poisoned pas = true → rejects s 2) ∧
     (∀ pas, read = .ok pas → s.poisoned pas = false →
       let bs := pas.map s.mem.byte
       let f := fun (o n : Nat) => leNum ((bs.drop o).take n)
       let level := fun (i : Nat) => LoopEntry.mk (f (16 + 16 * i) 1) (f (17 + 16 * i) 1) (f (18 + 16 * i) 1)
       let n := f 10 1
       let used := (List.range n).map level
       let sound := fun (i : Nat) => let e := level i
         e.kind ≤ 2 ∧ e.ext ≤ 8 ∧ (e.bal = 0 ∨ (3 ≤ e.bal ∧ e.bal ≤ 8 ∧ e.kind ≠ 0)) ∧ f (19 + 16 * i) 13 = 0
       let atMostOne := fun (q : LoopEntry → Bool) => used.countP q ≤ 1
       let valid := f 0 4 % 4 = 0 ∧ f 4 4 % 16 = 0 ∧ f 8 1 = 1 ∧ 1 ≤ f 9 1 ∧ f 9 1 ≤ 4 ∧ 1 ≤ n ∧ n ≤ 3 ∧ f 11 1 = 0 ∧
         f 12 2 ≤ 512 ∧ f 14 1 ∈ [0, 16, 32, 48, 64] ∧ f 15 1 = 0 ∧ (∀ i < n, sound i) ∧
         (∀ i < 3, n ≤ i → f (16 + 16 * i) 16 = 0) ∧ atMostOne (fun e => e.kind == 1) ∧ atMostOne (fun e => e.kind == 2) ∧
         atMostOne (fun e => e.bal != 0)
       let g : Legend := ⟨k.legend + (BitVec.ofNat 32 (f 0 4)).signExtend 64, f 4 4, f 9 1, f 12 2, f 14 1, used⟩
       let tpc := if k.tpc = 0 then g.threads else k.tpc
       (¬ valid → rejects s 1) ∧ (valid → g.threads < tpc → rejects s 4) ∧
       (valid → tpc ≤ g.threads → p.regs.stkslot.toNat < g.stack → rejects s 5) ∧
       (valid → tpc ≤ g.threads → g.stack ≤ p.regs.stkslot.toNat →
         (∀ e, s.cuts p k g tpc = .error e → failed e 3) ∧
         ∀ cs, s.cuts p k g tpc = .ok cs → ∃ (cores : List Nat) (u : State), s.split pn lid k = u ∧ cores.length = cs.length ∧
           (let pairs := fun (c : Cut) => (List.range 3).map (fun i => if i < n then
               match (level i).kind with
               | 0 => (0#64, src (level i).ext)
               | 1 => (c.corePiece.map (fun x => x.pair)).getD (0#64, 0#64)
               | _ => (c.sheetPiece.map (fun x => x.pair)).getD (0#64, 0#64)
             else (0#64, 0#64))
            let entries := fun (c : Cut) => match used.find? (fun e => e.bal != 0) with
             | some e => ((if e.kind = 1 then c.corePiece else c.sheetPiece).map (fun x => x.entries)).getD (0#64, 0#64)
             | none => (0#64, 0#64)
            let records := fun (r : Nat) => (cs.take r).zipIdx.map (fun e =>
              Record.mk ⟨pn, lid, e.2⟩ (cores.getD e.2 0) k.prio false (pairs e.1) (entries e.1))
            let load := fun (r n : Nat) => s.started.countP (fun t => t.id.part == pn && t.place.core == n) +
              (p.records ++ records r).countP (fun x => x.core == n)
            let mine := fun (r n : Nat) =>
              s.started.countP (fun t => t.id.part == pn && t.id.lid == lid && t.place.core == n) +
              (p.records ++ records r).countP (fun x => x.id.lid == lid && x.core == n)
            let may := fun (r : Nat) (c : Cut) (n : Nat) => n ∈ p.cores ∧ mine r n < tpc ∧ (∀ w, c.sheet = some w → n / 64 = w)
            (∀ r c, cs[r]? = some c → (∀ n, c.core = some n → cores.getD r 0 = n) ∧
              (c.core = none → ∀ n, may r c n → may r c (cores.getD r 0) ∧ load r (cores.getD r 0) ≤ load r n ∧
                (load r (cores.getD r 0) = load r n → cores.getD r 0 ≤ n))) ∧
            (∀ q, u.part q = if q = pn then { p with
                records := p.records ++ records cs.length
                launches := p.launches.map (fun e => if e.1 = lid then
                  (e.1, { e.2 with state := .running, legend := some g, total := cs.length }) else e) } else s.part q) ∧
            u = { s with
              parts := u.parts, timers := s.timers ++ (records cs.length).map (fun r => .recordAging r.id)
              inputs := if cs = [] then s.inputs ++ [.launchComplete pn lid]
                else if s.inputs.contains (.threadDispatch pn) then s.inputs else s.inputs ++ [.threadDispatch pn] }))) ∧
     (∀ base i, let va := base + word (8 * i)
       (∀ e, s.deviceRange p true .read 8 1 va = .error e → s.offAt p base i = .error e) ∧
       ∀ pas, s.deviceRange p true .read 8 1 va = .ok pas → s.offAt p base i =
         if s.poisoned pas then .error (0x30, va) else .ok (leNum (pas.map s.mem.byte))) ∧
     (∀ (e : LoopEntry) (parts : Nat), let n := (src e.ext).toNat
       (parts = 0 → s.pieces p k e parts = .ok []) ∧
       (parts ≠ 0 → e.bal = 0 → s.pieces p k e parts = .ok ((List.range parts).map (fun i =>
         ⟨(word (i * n / parts), word ((i + 1) * n / parts)), (0#64, 0#64)⟩))) ∧
       (parts ≠ 0 → e.bal ≠ 0 →
         let off := s.offAt p (src e.bal)
         (∀ x, off 0 = .error x → s.pieces p k e parts = .error x) ∧
         (∀ x y, off 0 = .ok x → off n = .error y → s.pieces p k e parts = .error y) ∧
         (∀ x, s.pieces p k e parts = .error x → ∃ i ≤ n, off i = .error x) ∧
         ∀ o : Nat → Nat, (∀ i ≤ n, off i = .ok (o i)) → ∃ (find : Nat → Nat → Nat → Nat) (r : Nat → Nat),
           let t := if o 0 ≤ o n then o n - o 0 else 0
           let a := fun (i : Nat) => o 0 + i * t / parts
           (∀ x lo hi, hi ≤ n → find x lo hi = if lo < hi then
             if x ≤ o ((lo + hi) / 2) then find x lo ((lo + hi) / 2) else find x ((lo + hi) / 2 + 1) hi else lo) ∧
           r 0 = 0 ∧ r parts = n ∧ (∀ i, 0 < i → i < parts → r i = find (a i) (r (i - 1)) n) ∧
           s.pieces p k e parts = .ok ((List.range parts).map (fun i =>
             ⟨(word (r i), word (r (i + 1))), (word (a i), word (a (i + 1)))⟩)))) ∧
     ∀ (g : Legend) (tpc : Nat),
       let cores := (List.range 256).filter (fun c => p.quads.getLsbD (c / 4))
       let sheets := (List.range 4).filter (fun w => cores.any (fun c => c / 64 == w))
       let ext := fun (e : LoopEntry) => (src e.ext).toNat
       let onCores := fun (e : LoopEntry) (l : List Nat) => s.pieces p k e (min (l.length * tpc) (ext e))
       let cut := fun (w : Option Nat) (x : Option Piece) (l : List Nat) (ps : List Piece) =>
         ps.zipIdx.map (fun y => Cut.mk w (some (l.getD (y.2 / tpc) 0)) x (some y.1))
       let sheetL := g.levels.find? (fun e => e.kind == 2)
       let coreL := g.levels.find? (fun e => e.kind == 1)
       (p.cores = cores) ∧
       (sheetL = none → coreL = none → s.cuts p k g tpc = .ok [⟨none, none, none, none⟩]) ∧
       (∀ e, sheetL = none → coreL = some e → s.cuts p k g tpc = (onCores e cores).map (cut none none cores)) ∧
       ∀ e, sheetL = some e →
         let parts := s.pieces p k e (min sheets.length (ext e))
         (∀ x, parts = .error x → s.cuts p k g tpc = .error x) ∧
         ∀ ps, parts = .ok ps →
           (coreL = none → s.cuts p k g tpc = .ok (ps.zipIdx.map (fun x => ⟨some (sheets.getD x.2 0), none, some x.1, none⟩))) ∧
           ∀ c, coreL = some c →
             let sheet := fun (j : Nat) => sheets.getD j 0
             let on := fun (j : Nat) => cores.filter (fun n => n / 64 == sheet j)
             (∀ j < ps.length, ∀ x, (∀ i < j, ∃ z, onCores c (on i) = .ok z) → onCores c (on j) = .error x →
               s.cuts p k g tpc = .error x) ∧
             ∀ ls : List (List Piece), ls.length = ps.length → (∀ j < ps.length, onCores c (on j) = .ok (ls.getD j [])) →
               s.cuts p k g tpc = .ok (ps.zipIdx.flatMap (fun x => cut (some (sheet x.2)) (some x.1) (on x.2) (ls.getD x.2 [])))) ∧
  (∀ (s : State) (pn id : Nat),
     let p := s.part pn
     let open_ := fun (b : Batch) => match b.lid with
       | none => true
       | some x => match p.launch x with
         | some y => !y.state.final
         | none => false
     let nodes := (s.objs pn).nodes.filter (fun n => n.batches.any open_)
     (nodes.find? (fun n => n.desc.toNat == id) = none → Completes (.nodeFlush pn id) s (fun u => u = s)) ∧
     ∀ n, nodes.find? (fun n => n.desc.toNat == id) = some n →
       let queue := Table.get p.queues [] n.packet.prio
       let live := p.launches.filter (fun e => !e.2.state.final)
       let room := queue.length < 256 ∧ live.length < 4096
       (¬ room → Completes (.nodeFlush pn id) s (fun u => u = { s with inputs := s.inputs ++ [.nodeFlush pn id] })) ∧
       (room → n.batches.find? (fun b => b.lid.isNone) = none → Completes (.nodeFlush pn id) s (fun u => u = s)) ∧
       (room → ∀ b, n.batches.find? (fun b => b.lid.isNone) = some b → Completes (.nodeFlush pn id) s (fun u =>
         let lid := p.nextLid
         let k := { n.packet with
           ext0 := BitVec.ofNat 64 b.count, args := (n.buf + BitVec.ofNat 64 (8 * b.start)) :: n.packet.args.tail }
         let kept := p.launches.filter (fun e => !e.2.state.final || e.2.owes || decide (lid < e.1 + 65536))
         (∀ q, q ≠ pn → u.part q = s.part q ∧ u.objs q = s.objs q) ∧
         u.part pn = { p with
           nextLid := lid + 1, queues := (u.part pn).queues
           launches := kept ++ [(lid, ⟨none, k, none, .queued, 0, false, false, false, 0, 0, []⟩)] } ∧
         (∀ q, Table.get (u.part pn).queues [] q = if q = n.packet.prio then queue ++ [lid] else Table.get p.queues [] q) ∧
         u.objs pn = { s.objs pn with nodes := (u.objs pn).nodes } ∧
         { n with batches := n.batches.map (fun x => if x.lid.isNone then { x with lid := some lid } else x) } ∈ (u.objs pn).nodes ∧
         (∀ m ∈ nodes, m.desc ≠ n.desc → (∀ b ∈ m.batches, b.lid ≠ some lid) → m ∈ (u.objs pn).nodes) ∧
         u = { s with
           parts := u.parts, objects := u.objects
           inputs := (s.inputs ++ [Instr.partitionUnitTake pn]).filter (fun i => i != Instr.nodeFlush pn id)
           timers := s.timers.filter (fun i => i != Instr.nodeFlush pn id) })))

/-- R25, R26, R151, R259, R260, R494, R504 to R506: the governor, peers and links. The governor sets limits, and the intervals of
the lane reclaim follow. A request of a peer at a trained port is made once at its line, an atomic as its scalar instruction acts;
its reply is kept until it is acknowledged, and while 4,096 are kept the answer is a retry. A thread that waits for a peer sends its
request again under the same tag, or traps LINK_ERROR after its time; where the access waits behind its word, the thread goes back
to that word as it stood there (log 31). Links lose lanes and ports. (That the acknowledgement of an invalidation comes within the
step is the model's, log 6; CAUSE 0 and the hub's UNIT in the record of a peer's or a host's violation are log 23's.)

R162, R372, R490 to R494, R499: errors. A record goes to the partition's ring, or to the physical function's log, or is counted
there; a full ring loses its oldest; a write of a record that violates the partition's bounds has a record of its own with class 5.
A soft error is logged; a second one in the same element group is a MACHINE_CHECK in the thread that holds the lane group, with the
numbers of a mirror pair's groups, and the thread's oldest convoy, vector access or register writes go undone with it (log 10). A corrected error is logged; uncorrectable bytes are logged and marked poison, and the
commands that write their lines will fail (that no thread is checked before it reads them is log 32); the loss of shared state halts
every partition. -/
def Obligations.OutsideEvents : Prop :=
  (∀ (s : State) (q : PeerReq) (tag port core quad ceil row pace requester : Nat),
     let same := fun (i : Instr) => Completes i s (fun u => u = s)
     let h := s.hub
     let out := fun (u : State) (o : Output) => ({ u with outbox := u.outbox ++ [o] } : State)
     let mine := h.replay.filter (fun r => r.port == q.port)
     let hit := h.replay.find? (fun r => r.requester == q.requester && r.tag == q.tag)
     let trained := (Table.get h.ports Port.reset q.port).trained = true
     let n := match q.op with
       | .read k => k
       | .write bs => bs.length
       | .atomic _ half _ _ => if half then 4 else 8
     let writes := match q.op with
       | .read _ => false
       | _ => true
     let ap := h.apertures.find? (fun a => a.num == q.aperture && decide (q.offset + n ≤ a.size) && (a.writable || !writes))
     let who := s.onChip.find? (fun t => decide (t.prog.wait = .retry (.peer tag)))
     let ports := fun (f : Port → Port) => ({ s with hub := { h with
       ports := Table.set h.ports Port.reset port (f (Table.get h.ports Port.reset port)) } } : State)
     Completes (.governorEvaluation core ceil quad row pace) s (fun u =>
       (∀ k, u.core k = if k = core then { s.core core with ceil := ceil } else s.core k) ∧
       (∀ k, u.quad k = if k = quad then { s.quad quad with rowcap := row, pace := pace } else s.quad k) ∧
       (∀ t ∈ s.onChip, t.place.core = core → (.laneReclaim t.id ∈ u.timers ↔ ((u.core core).reclaims t.place.slot = true ∨
         ∃ x ∈ s.onChip, x.place.core = core ∧ x.id = t.id ∧ (u.core core).reclaims x.place.slot = true))) ∧
       (∀ i, (∀ t ∈ s.onChip, t.place.core = core → i ≠ .laneReclaim t.id) → (i ∈ u.timers ↔ i ∈ s.timers)) ∧
       u = { s with cores := u.cores, quads := u.quads, timers := u.timers }) ∧
     (¬ trained → same (.peerRequest q)) ∧
     (∀ r, trained → hit = some r → Completes (.peerRequest q) s (fun u =>
       u = out s (.peerReply q.port q.requester q.tag r.reply))) ∧
     (trained → hit = none → ap = none → Completes (.peerRequest q) s (fun u =>
       u = out (s.logPf (BitVec.ofNat 64 q.offset) 0xFFFF 0x2000 s.synd 5 0) (.peerError q.port q.requester q.tag))) ∧
     (∀ a, trained → hit = none → ap = some a →
       (4096 ≤ mine.length → Completes (.peerRequest q) s (fun u => u = out s (.peerRetry q.port q.requester q.tag))) ∧
       (mine.length < 4096 → Completes (.peerRequest q) s (fun u =>
         let pas := (List.range n).map (fun k => a.base + q.offset + k)
         let old := pas.map s.mem.byte
         let reply := match q.op with
           | .write _ => []
           | _ => old
         let bytes := match q.op with
           | .read _ => old
           | .write bs => bs
           | .atomic op _ v e => match amoResult op n (leNum old) (v.toNat % 2 ^ (8 * n)) (e.toNat % 2 ^ (8 * n)) with
             | some r => leBytes n r.val
             | none => old
         let joins := a.shared = true ∧ writes = false ∧ q.requester ∉ a.sharers ∧ a.sharers.length < 8
         pas.map u.mem.byte = bytes ∧ (∀ x, x ∉ pas → u.mem.byte x = s.mem.byte x) ∧ (writes = false → u.mem = s.mem) ∧
         (∀ x ∈ h.apertures, ∃ y ∈ u.hub.apertures, y = { x with sharers := y.sharers } ∧
           (joins → x.num = a.num → y.sharers = a.sharers ++ [q.requester]) ∧
           (¬ joins ∨ x.num ≠ a.num → y.sharers = x.sharers)) ∧
         u = { s with
           mem := u.mem
           hub := { h with
             apertures := u.hub.apertures, replay := h.replay ++ [⟨q.port, q.requester, q.tag, reply⟩] }
           outbox := s.outbox ++ [.peerReply q.port q.requester q.tag reply] }))) ∧
     Completes (.replyAcknowledgement port requester tag) s (fun u => u = { s with hub := { h with
       replay := h.replay.filter (fun r => !(r.requester == requester && r.tag == tag)) } }) ∧
     same (.dieToDieLinkRetry port) ∧ same (.flitCrcRetry port) ∧
     (who = none → same (.peerResend tag) ∧ same (.peerRetryReply tag)) ∧
     (let tagged := fun (e : VEntry) => e.undo.any (fun u => u.tag == tag)
      let owner := s.onChip.find? (fun t => t.viq.any tagged)
      (who = none → owner = none → same (.linkError tag)) ∧
      ∀ t, who = none → owner = some t → ∃ x, (t.viq[t.viq.findIdx tagged]?).bind VEntry.undo = some x ∧
        Completes (.linkError tag) s (fun u =>
          let c := s.core t.place.core
          let back := fun (h h' : Thread) => (h.id ≠ t.id → h' = h) ∧ (h.id = t.id →
            (∀ k, h'.queue k = (x.pops.filter (fun e => e.1 == k)).map (fun e => e.2) ++ h.queue k) ∧
            h' = { h with
              pc := x.pc, s := x.s, q := h'.q, conf := x.conf, dims := x.dims, loops := x.loops
              user := { h.user with vfirst := x.vfirst }, mat := { h.mat with chk := x.chk }
              viq := h.viq.take (t.viq.findIdx tagged), framing := none
              prog := { h.prog with
                instret := x.instret, last := x.last
                resend := Table.set h.prog.resend none h.level (some (x.pc, tag))
                wait := .retry (.fault 0x21 (BitVec.ofNat 64 tag)) } })
          (if s.active then back s.cur u.cur else u.cur = s.cur) ∧ List.Forall₂ back s.others u.others ∧
          List.Forall₂ (fun e e' => back e.1 e'.1 ∧ e'.2 = e.2) s.saved u.saved ∧
          (∀ n, u.objs n = if n = t.id.part then { s.objs n with
            waiters := (s.objs n).waiters.filter (fun w => w.thread != t.id || w.kind == .gate)
            resend := (s.objs n).resend.filter (fun w => w.thread != t.id) } else s.objs n) ∧
          (∀ n, n ≠ t.place.core → u.core n = s.core n) ∧
          u.core t.place.core = { c with
            lat := (u.core t.place.core).lat, waiters := c.waiters.filter (fun n => n != t.place.slot) } ∧
          (∀ n, (u.core t.place.core).latOf n = if n = t.place.slot then { c.latOf n with wait := false } else c.latOf n) ∧
          (∀ i, (∀ n, i ≠ .laneReclaim n) → (i ∈ u.timers ↔ i ∈ s.timers ∧ i ≠ .wfeTimeout t.id)) ∧
          u = { s with
            cur := u.cur, others := u.others, saved := u.saved, objects := u.objects, cores := u.cores
            timers := u.timers })) ∧
     (∀ t, who = some t →
       let on := fun (w : WaitOn) => s.onThread t.id (fun x => { x with prog := { x.prog with
         resend := Table.set x.prog.resend none x.level (some (x.pc, tag)), wait := .retry w } })
       Completes (.peerResend tag) s (fun u => u = on .other) ∧
       Completes (.peerRetryReply tag) s (fun u =>
         u = if s.timers.contains (.peerResend tag) then s else { s with timers := s.timers ++ [.peerResend tag] }) ∧
       Completes (.linkError tag) s (fun u => u = { on (.fault 0x21 (BitVec.ofNat 64 tag)) with
         timers := s.timers.filter (fun i => i != .wfeTimeout t.id) })) ∧
     Completes (.crinikLaneFailure port) s (fun u => u = ports (fun p =>
       if p.trained = false then p else if p.spareUsed then { p with lanes := 4 } else { p with spareUsed := true })) ∧
     Completes (.crinikPortLoss port) s (fun u => u = ports (fun _ => Port.reset))) ∧
  (∀ (s : State) (unit core part addr len group : Nat),
     let nat := BitVec.ofNat 64
     let out := fun (u : State) (o : Output) => ({ u with outbox := u.outbox ++ [o] } : State)
     let logged := fun (p : Nat) (a : Nat) (un cls cause : Nat) =>
       if p < 32 then s.logError p (nat a) un s.synd cls cause else s.logPf (nat a) p un s.synd cls cause
     let owner := ((s.quad (core / 4)).owner).getD 0xFFFF
     let holder := s.onChip.find? (fun t => t.place.core == core && ((s.core core).latOf t.place.slot).map.getLsbD group)
     let granted := ((s.parts.find? (fun e => e.2.ranges.any (fun r => decide (r.1 ≤ addr) && decide (addr < r.1 + r.2)))).map
       (fun e => e.1)).getD 0xFFFF
     (∀ (p : Nat) (a : Word) (un : Nat) (sy : BitVec 32) (cls cause : Nat),
       let bytes := fun (lost : Bool) => leBytes 8 s.cycle.toNat ++ leBytes 8 a.toNat ++ leBytes 2 p ++ leBytes 2 un ++
         leBytes 4 sy.toNat ++ leBytes 1 (cls + if lost then 128 else 0) ++ leBytes 1 cause ++ List.replicate 6 0#8
       let r := (s.part p).regs2
       let cap := r.logcap.toNat
       let next := (r.logtail.toNat + 1) % cap
       let full := decide (next = r.loghead.toNat)
       let entry := r.logbase + nat (32 * r.logtail.toNat)
       let place := s.deviceRange (s.part p) false .write 32 1 entry
       let pf := s.hub.pf
       let pnext := (pf.logTail.toNat + 1) % pf.logCap.toNat
       let pfull := decide (pnext = pf.logHead.toNat)
       let pa := 2 ^ 50 + (pf.logBase.toNat + 32 * pf.logTail.toNat) % 2 ^ 50
       (cap = 0 → s.logError p a un sy cls cause = s.logPf a p un sy cls cause) ∧
       (∀ e, cap ≠ 0 → place = .error e → s.logError p a un sy cls cause =
         if e.1 = 0x20 then (s.logPf a p un sy cls cause).logPf entry p 0x2000 (Config.syndrome s.fresh) 5 0x20
         else s.logPf a p un sy cls cause) ∧
       (∀ pas, cap ≠ 0 → place = .ok pas → s.logError p a un sy cls cause =
         { s with mem := s.mem.writeAll .unit (pas.zip (bytes full)) }.setPart p { s.part p with regs2 := { r with
           loghead := if full then nat ((r.loghead.toNat + 1) % cap) else r.loghead, logtail := nat next } }) ∧
       (pf.logCap.toNat = 0 → s.logPf a p un sy cls cause =
         { s with hub := { s.hub with pf := { pf with logCount := pf.logCount + 1 } } }) ∧
       (pf.logCap.toNat ≠ 0 → s.logPf a p un sy cls cause = { s with
         mem := s.mem.writeAll .unit (((List.range 32).map (fun k => pa + k)).zip (bytes pfull))
         hub := { s.hub with pf := { pf with
           logHead := BitVec.ofNat 32 (if pfull then (pf.logHead.toNat + 1) % pf.logCap.toNat else pf.logHead.toNat)
           logTail := BitVec.ofNat 32 pnext } } })) ∧
     Completes (.hostRequest part addr) s (fun u => u = out (if part < 32 then
       s.logError part (nat addr) 0x2000 s.synd 5 0
       else s.logPf (nat addr) 0xFFFF 0x2000 s.synd 5 0) .unsupportedRequest) ∧
     Completes (.softError core group false) s (fun u => u = out (logged owner 0 core 1 0) .aerCorrectable) ∧
     (holder = none → Completes (.softError core group true) s (fun u => u = out (logged owner 0 core 2 0x30) .aerNonFatal)) ∧
     (∀ t, holder = some t →
       let low := group / 2 * 2
       let sy := if ((s.core core).latOf t.place.slot).pm then BitVec.ofNat 32 (low + 256 * (low + 1)) else s.synd
       let checked := fun (v : State) => (out (v.logError t.id.part 0#64 core sy 2 0x30) .aerNonFatal).onThread t.id (fun x => { x with
         prog := { x.prog with check := some (x.prog.check.getD 0#64) } })
       let lane := fun (e : VEntry) => (∀ h pas op, e ≠ .scalar h pas op) ∧ ∀ id regs, e ≠ .reply id regs
       let first := fun (k : Nat) (e : VEntry) => t.viq[k]? = some e ∧ lane e ∧ ∀ x ∈ t.viq.take k, ¬ lane x
       let fails := fun (v : State) => Completes (.softError core group true) s (fun u => u = v)
       ((∀ e ∈ t.viq, ¬ lane e) → fails (checked s)) ∧
       (∀ c, first 0 (.convoy c) → fails (s.asThread t.id (eTrap c { cause := 0x30, logSynd := some sy }))) ∧
       (∀ k c, first (k + 1) (.convoy c) → fails { s with inputs := s.inputs ++ [.softError core group true] }) ∧
       (∀ k e, first k e → (∀ c, e ≠ .convoy c) → fails (checked (s.asThread t.id (State.leaveViq k))))) ∧
     Completes (.eccCorrected part addr unit) s (fun u => u = out (logged part addr unit 1 0) .aerCorrectable) ∧
     Completes (.uncorrectableError addr len) s (fun u =>
       let home := (Config.homeSheet (addr / 2 ^ 21)).val
       let w := out (logged granted addr (0x1000 + home) 2 0) .aerNonFatal
       (∀ a, a ∈ u.mem.poison ↔ a ∈ w.mem.poison ∨ (addr ≤ a ∧ a < addr + len)) ∧
       u.mem = { w.mem with poison := u.mem.poison } ∧ u.cmds.length = s.cmds.length ∧
       (∀ (k : Nat) (c d : Cmd), s.cmds[k]? = some c → u.cmds[k]? = some d → d = { c with lost := d.lost } ∧
         ∀ l, l ∈ d.lost ↔ l ∈ c.lost ∨ ((∃ a, addr ≤ a ∧ a < addr + len ∧ a / 64 = l) ∧
           ∃ r ∈ c.body.dests, ∃ j < r.2, (r.1 + j) / 64 = l)) ∧
       u = { w with mem := u.mem, cmds := u.cmds }) ∧
     Completes (.fatalDeviceError unit) s (fun u =>
       let w := s.logPf 0#64 0xFFFF unit s.synd 4 0
       (∀ k, u.part k = if (s.part k).state = .absent then s.part k else { s.part k with state := .halted }) ∧
       u = { w with parts := u.parts, hub := { w.hub with fatal := true }, outbox := s.outbox ++ [.aerFatal] }))

/-! ## The physical function, bring-up and the port -/

/-- R498 to R502, R507 to R510, R512, R515: ownership and its takeover timer, MODID and its LOCK, the registers with their owner,
the start and the end of a request with its arguments, SEIZE and HANDBACK, the images with their slots, the port's measurements and
telemetry, and the steps of bring-up that power brings. (What fails at a step is left open, log 29; the stages of bring-up and what
a request finds while the main rails are down are log 3; a SEIZE behind a request that is carried out waits for its end, as does a
request of the host behind a SEIZE, log 10; that REQSTAT stays the carried-out request's where a master that is not the owner is
turned away meanwhile is the model's reading, log 33; a write of PFLOGBASE off a multiple of 32 is ignored, log 23; whether an
updated image starts is left open, log 13.) -/
def Obligations.ManagementEvents : Prop :=
  ∀ (s : State) (m : Master) (v : Word) (off vf unit version : Nat) (ok : Bool) (bad : List Nat) (nonce : BitVec 256),
    let same := fun (i : Instr) => Completes i s (fun u => u = s)
    let h := s.hub
    let p := h.pf
    let out := fun (o : Output) => ({ s with outbox := s.outbox ++ [o] } : State)
    let pf := fun (x : PfRegs) => ({ s with hub := { h with pf := x } } : State)
    let host := 5 ≤ h.stage ∧ h.power ≠ 3
    let up := match m with
      | .host => host
      | .port => 1 ≤ h.stage
    let owner := p.owner = match m with
      | .host => 0#1
      | .port => 1#1
    let stopped := s.timers.filter (fun i => i != Instr.takeoverExpiry)
    let started := stopped ++ [Instr.takeoverExpiry]
    let busy := p.reqState = .busy
    let seize := m = .port ∧ v = 15#64
    let behind := m = .host ∧ busy ∧ Instr.seize ∈ s.inputs
    let away := fun (i : Instr) => Completes i s (fun u =>
      u = let w := if p.reqState = .busy then s else pf { p with reqState := .refused, reason := 1 }
          { w with outbox := s.outbox ++ [match m with
            | .host => Output.unsupportedRequest
            | .port => Output.mctpNotReady] })
    let concl := fun (x : State) (r : Nat) => ({ x with
      hub := { x.hub with pf := { x.hub.pf with reason := r, reqRes := 0#64 } }
      inputs := x.inputs ++ [Instr.requestComplete] } : State)
    let starts := fun (x : PfRegs) => { x with reqState := .busy, reason := 0, seq := x.seq + 1#32, held := x.args }
    let requests : List Instr := [.create m, .destroy m, .resize m, .addmem m, .exportAperture m, .peermap m, .peerunmap m,
      .fenceq m, .readmit m, .retiresb m, .retirech m, .power m, .links m, .update m] ++
      (if m = .port then [.seize, .handback] else [])
    let image := Table.get h.images Image.reset unit
    let images := fun (i : Image) => ({ s with hub := { h with images := Table.set h.images Image.reset unit i } } : State)
    let k := v.toNat / 256 % 65536
    let reg := fun (o : Nat) => Instr.registerWrite m none o v
    (¬ up → same (.ownershipWrite m v) ∧ same (.modidWrite m v) ∧ same (reg off)) ∧
    same (.heartbeat .port) ∧ (¬ host → same (.heartbeat .host)) ∧
    (host → Completes (.heartbeat .host) s (fun u => u = { pf { p with expired := false } with
      timers := if p.owner = 0#1 then started else s.timers })) ∧
    Completes .takeoverExpiry s (fun u => u = if p.owner = 0#1 then pf { p with expired := true } else s) ∧
    (up → ¬ owner → away (.ownershipWrite m v) ∧ away (.modidWrite m v) ∧
      (0x100 ≤ off → off < 0x138 → away (reg off)) ∧ (¬ seize → ¬ behind → away (reg 0x138))) ∧
    (up → owner →
      Completes (.ownershipWrite m v) s (fun u => u = { pf { p with
          takeover := if 1 ≤ k ∧ k ≤ 600 then k else p.takeover
          owner := if m = .host ∧ v.getLsbD 0 = true then 1#1 else p.owner } with
        timers := if m = .host ∧ v.getLsbD 0 = true then stopped else s.timers }) ∧
      (h.apertures = [] → (∀ e ∈ s.parts, e.2.peers = []) → Completes (.modidWrite m v) s (fun u =>
        u = { s with hub := { h with
          stage := if h.stage = 5 then 6 else if h.stage = 7 then 8 else h.stage, pf := { p with modid := v.toNat % 1024 } } })) ∧
      (h.apertures ≠ [] ∨ (∃ e ∈ s.parts, e.2.peers ≠ []) → Completes (.modidWrite m v) s (fun u =>
        u = s.logPf 0x18#64 0xFFFF 0x2000 s.synd 5 0)) ∧
      (∀ n < 7, Completes (reg (0x100 + 8 * n)) s (fun u =>
        u = pf { p with args := u.hub.pf.args } ∧
        ∀ j, Table.get u.hub.pf.args 0#64 j = if j = n then v else Table.get p.args 0#64 j)) ∧
      (busy → ¬ seize → ¬ behind → same (reg 0x138)) ∧
      (¬ busy → ¬ seize → Completes (reg 0x138) s (fun u =>
        match if v = 0#64 then none else requests[v.toNat - 1]? with
        | none => u = concl (pf (starts p)) 2
        | some i => (host ∨ v = 12#64 ∨ v = 16#64 → u = { pf (starts p) with inputs := s.inputs ++ [i] }) ∧
          (¬ (host ∨ v = 12#64 ∨ v = 16#64) → u = concl (pf (starts p)) 7)))) ∧
    (up → exec (reg 0x8) s = exec (.ownershipWrite m v) s ∧ exec (reg 0x10) s = exec (.heartbeat m) s ∧
      exec (reg 0x18) s = exec (.modidWrite m v) s ∧
      Completes (reg 0x1000) s (fun u => u = if v.toNat % 32 = 0 then pf { p with logBase := v } else s) ∧
      Completes (reg 0x1008) s (fun u => u = pf { p with logCap := v.setWidth 32 }) ∧
      Completes (reg 0x1010) s (fun u => u = pf { p with logHead := v.setWidth 32 }) ∧
      (off ∉ [0x8, 0x10, 0x18, 0x138, 0x1000, 0x1008, 0x1010] → ¬ (0x100 ≤ off ∧ off < 0x138) → same (reg off))) ∧
    (1 ≤ h.stage → ¬ busy → Completes (.registerWrite .port none 0x138 15#64) s (fun u =>
      u = { pf (starts p) with inputs := s.inputs ++ [.seize] })) ∧
    (1 ≤ h.stage → busy → Completes (.registerWrite .port none 0x138 15#64) s (fun u =>
      u = pf { p with waits := p.waits <|> some (.port, 15#64) })) ∧
    (host → busy → Instr.seize ∈ s.inputs → Completes (.registerWrite .host none 0x138 v) s (fun u =>
      u = pf { p with waits := p.waits <|> some (.host, v) })) ∧
    (¬ busy → same .requestComplete ∧ same .seize ∧ same .handback) ∧
    (busy →
      Completes .requestComplete s (fun u =>
        let x := { p with
          reqState := if p.reason = 0 then .done else if p.reason < 6 then .refused else .failed, waits := none }
        (p.waits = none → u = pf x) ∧
        ∀ e, p.waits = some e → exec (.registerWrite e.1 none 0x138 e.2) (pf x) = .next u) ∧
      (p.owner = 0#1 → p.expired = false → Completes .seize s (fun u => u = concl s 1)) ∧
      (p.owner = 1#1 ∨ p.expired = true → Completes .seize s (fun u =>
        u = concl { pf { p with owner := 1#1, seized := p.seized || p.expired } with timers := stopped } 0)) ∧
      (p.owner = 0#1 → Completes .handback s (fun u => u = concl s 1)) ∧
      (p.owner = 1#1 → Completes .handback s (fun u =>
        u = concl { pf { p with owner := 0#1, seized := false, expired := false } with timers := started } 0))) ∧
    Completes (.imageSwitch unit ok) s (fun u =>
      u = images { image with active := image.active ^^ (image.pending && ok), pending := false }) ∧
    (h.stage = 0 → same .spdmGetMeasurements ∧ same (.spdmChallenge nonce) ∧ same (.spdmKeyExchange nonce) ∧
      same .pldmMonitoring ∧ same (.pldmFirmwareUpdate unit version ok) ∧
      Completes (.auxPowerUp ok) s (fun u =>
        u = if ok then { s with hub := { h with stage := 1 }, timers := if p.owner = 0#1 then started else s.timers }
          else out (.bringUpFailed 1))) ∧
    (1 ≤ h.stage →
      Completes .spdmGetMeasurements s (fun u => ∃ d, u = out (.spdm 0 d)) ∧
      Completes (.spdmChallenge nonce) s (fun u => ∃ d, u = out (.spdm 1 d)) ∧
      Completes (.spdmKeyExchange nonce) s (fun u => ∃ d, u = out (.spdm 2 d)) ∧
      Completes .pldmMonitoring s (fun u => ∃ d, u = out (.pldm [p.logCount, d])) ∧
      same (.pldmFirmwareUpdate unit version false) ∧
      Completes (.pldmFirmwareUpdate unit version true) s (fun u => ∃ b, u = { images (if image.active
        then { image with versionA := version, pending := true } else { image with versionB := version, pending := true }) with
        timers := s.timers ++ [.imageSwitch unit b] }) ∧
      same (.auxPowerUp ok)) ∧
    (h.stage = 0 ∨ h.power ≠ 3 → same (.mainPowerUp ok bad)) ∧
    (h.stage ≠ 0 → h.power = 3 → Completes (.mainPowerUp ok bad) s (fun u =>
      let bad3 := s.flaws.headD false = true
      let bad5 := s.flaws.tail.headD false = true
      let stops := fun (n k : Nat) => u = { s with
        flaws := s.flaws.tail.tail, hub := { h with stage := n }, outbox := s.outbox ++ [.bringUpFailed k] }
      let channels := bad.map (fun k => if k % 16 < 12 then (k / 16, 0, k % 16) else (k / 16, 1, k % 16 - 12))
      let cleared := (∀ c, u.core c = { s.core c with spad := [] }) ∧ (∀ q, u.quad q = { s.quad q with slots := [] }) ∧
        u = { s with
          flaws := s.flaws.tail.tail, gz := [], cores := u.cores, quads := u.quads, hub := u.hub, outbox := u.outbox }
      (ok = false → stops 1 2) ∧ (ok = true → bad3 → stops 2 3) ∧
      (ok = true → ¬ bad3 → bad5 → cleared ∧ u.hub = { h with stage := 4, retiredCh := channels } ∧
        u.outbox = s.outbox ++ [.bringUpFailed 5]) ∧
      (ok = true → ¬ bad3 → ¬ bad5 → cleared ∧ u.hub = { h with stage := 5, power := 0, retiredCh := channels } ∧
        u.outbox = s.outbox))) ∧
    (let b := s.part vf
      let o := off / 8
      let w := b.boot.toNat / 2 ^ (64 * o) % 2 ^ 64
      let boot := BitVec.ofNat 1024 (b.boot.toNat - w * 2 ^ (64 * o) + v.toNat * 2 ^ (64 * o))
      let s1 := s.setPart vf { b with boot := boot }
      (m = .port ∨ ¬ host ∨ 32 ≤ vf ∨ b.bootClosed = true ∨ b.state ≠ .running ∨ 0x80 ≤ off → same (.registerWrite m (some vf) off v)) ∧
      (host → vf < 32 → b.bootClosed = false → b.state = .running → off < 0x80 → Completes (.registerWrite .host (some vf) off v) s
        (fun u => u = if o = 15 then s1.bootPacket vf boot else s1)))

/-- R502, R503: no request acts unless one is carried out, with the arguments as they stood when OPCODE was written. R224, R396,
R439, R496, R511, R515: CREATE, DESTROY and RESIZE. An argument out of its range, a partition that is absent or present, quads or
entries in use are refused with no effect. A quad that comes is cleared; one that leaves has its threads pre-empted, then its
engines awaited, and then the records of its cores, by launch, go to cores of the partition, on the same sheet where it keeps one.
(Which free gazetteer entries are taken is left open, log 13; the core that takes a launch's records is log 14's; that the hardware
fails is log 29's; CREATE before the ports and the module id, and how the failure of CREATE or LINKS as a step of bring-up is
logged, are log 3's.)

R20, R24, R484, R495, R496, R502 to R506, R510 to R515: the requests on memory, peers, quads, power, links and images. An argument
out of its range, a partition that is absent, a resource in use and memory that is not available are refused with their REASON and
no effect; what the hardware fails to do ends with REASON 7 (log 29), and what is done with REASON 0 and its result. (Which granules
belong to which tier and which sub-blocks to which sheet is left open, and a GB is 2^30 bytes, log 8; whether the image of an UPDATE
verifies, which then goes into the inactive slot under the version that it names and else ends with REASON 6, and that version, log
10, and whether it starts, log 13; the REASONs that R503 does not name are log 23's; what outlives P3, log 3.) -/
def Obligations.RequestEvents : Prop :=
  (∀ (s : State) (m : Master),
     let h := s.hub
     let a := fun (k : Nat) => Table.get h.pf.held 0#64 k
     let pn := (a 0).toNat
     let p := s.part pn
     let fl := s.flaws.headD false = true
     let w : State := { s with flaws := s.flaws.tail }
     let concl := fun (x : State) (r : Nat) (res : Word) => ({ x with
       hub := { x.hub with pf := { x.hub.pf with reason := r, reqRes := res } }
       inputs := x.inputs ++ [Instr.requestComplete] } : State)
     let all : List Instr := [.create m, .destroy m, .resize m, .addmem m, .exportAperture m, .peermap m, .peerunmap m, .fenceq m,
       .readmit m, .retiresb m, .retirech m, .power m, .links m, .update m]
     let fails := fun (n : Nat) => if h.pf.logCap = 0#32 then ({ w with outbox := s.outbox ++ [.bringUpFailed n] } : State)
       else w.logPf 0#64 0xFFFF 0x2000 w.synd 6 0
     let mask := fun (x : Word) => (List.range 64).filter (fun q => x.getLsbD q)
     let quadFree := fun (q : Nat) => (s.quad q).owner = none ∧ (s.quad q).fenced = false
     let refuses := fun (i : Instr) (r : Nat) => Completes i s (fun u => u = concl s r 0#64)
     let carries := fun (i : Instr) (q : State → Prop) =>
       (fl → Completes i s (fun u => u = concl w 7 0#64)) ∧ (¬ fl → Completes i s q)
     let cleared := fun (x : State) (k q : Nat) (u : State) =>
       u.quad q = { x.quad q with owner := some k, fenced := false, acc := [], slots := [] } ∧
       ∀ c, c / 4 = q → u.core c = { Core.reset with ceil := (x.core c).ceil }
     let moved := fun (x : State) (k c l : Nat) =>
       let mine := fun (id : ThreadId) (d : Nat) => id.part = k ∧ id.lid = l ∧ d = c
       let new := x.newCore k c l
       let home := fun (t : Thread) => if mine t.id t.place.home then { t with place := { t.place with home := new } } else t
       let y := x.setPart k { x.part k with records := (x.part k).records.map (fun r =>
         if mine r.id r.core then { r with core := new } else r) }
       ({ y with
         cur := home x.cur, others := x.others.map home
         saved := x.saved.map (fun e => (if mine e.1.id e.1.place.core then
           { home e.1 with place := { (home e.1).place with
             core := new, slot := 4 + if 4 ≤ e.1.place.slot then e.1.place.slot - 4 else c } } else home e.1, e.2)) } : State)
     let lids := fun (x : State) (k c : Nat) => (((x.part k).records.filter (fun r => r.core == c)).map (fun r => r.id.lid) ++
       (x.saved.filter (fun e => e.1.id.part == k && e.1.place.core == c)).map (fun e => e.1.id.lid)).eraseDups
     let requeued := fun (x : State) (k : Nat) (qs : List Nat) =>
       let y := (qs.flatMap (fun q => (List.range 4).map (fun i => 4 * q + i))).foldl (fun x c =>
         (lids x k c).foldl (fun x l => moved x k c l) x) x
       if ((y.part k).records = [] ∧ ∀ e ∈ y.saved, e.1.id.part ≠ k) ∨ .threadDispatch k ∈ y.inputs then y
       else { y with inputs := y.inputs ++ [.threadDispatch k] }
     let leaves := fun (i : Instr) (x : State) (k : Nat) (qs : List Nat) (done : State → State) =>
       let on := x.onChip.filter (fun t => qs.contains (t.place.core / 4))
       let may := fun (t : Thread) => x.mayPreempt t.id
       (∀ t, on.find? may = some t → ∃ v, exec (.preemption t.id) x = .next v ∧
         Completes i s (fun u => u = { v with inputs := v.inputs ++ [i] })) ∧
       (on.find? may = none → on ≠ [] ∨ (∃ c ∈ x.cmds, c.core / 4 ∈ qs) →
         Completes i s (fun u => u = { x with inputs := x.inputs ++ [i] })) ∧
       (on = [] → (∀ c ∈ x.cmds, c.core / 4 ∉ qs) → Completes i s (fun u => u = concl (done (requeued x k qs)) 0 0#64))
     (∀ (x : State) (k c l : Nat), (x.part k).cores ≠ [] →
       let cs := (x.part k).cores
       let near := fun (d : Nat) => d ∈ cs ∧ ((∃ y ∈ cs, y / 64 = c / 64) → d / 64 = c / 64) ∧
         ((∀ y ∈ cs, y / 64 ≠ c / 64) → ∀ y ∈ cs, d / 64 ≤ y / 64)
       let tables := x.saved.flatMap (fun e =>
         if e.1.id.part = k ∧ e.1.id.lid = l ∧ e.1.place.core = c then e.2.1 else [])
       let takes := fun (d : Nat) => (∀ e ∈ tables, (x.core d).table e.1 = none) ∧
         (x.core d).charges (fun _ => true) + (tables.map (fun e => chargeOf e.2.b)).sum ≤ 524288
       let cand := fun (d : Nat) => near d ∧ ((∃ y, near y ∧ takes y) → takes d)
       let load := fun (d : Nat) => x.started.countP (fun t => t.id.part == k && t.place.core == d) +
         (x.part k).records.countP (fun r => r.core == d)
       let new := x.newCore k c l
       cand new ∧ ∀ d, cand d → load new ≤ load d ∧ (load new = load d → new ≤ d)) ∧
     (h.pf.reqState ≠ .busy → ∀ i ∈ all, Completes i s (fun u => u = s)) ∧
     (h.pf.reqState = .busy →
       (32 ≤ pn → refuses (.create m) 2 ∧ refuses (.destroy m) 2 ∧ refuses (.resize m) 2) ∧
       (pn < 32 →
         let form := 8 ≤ h.stage ∧ a 1 ≠ 0#64 ∧ (a 2).toNat ≤ 16384 ∧ (a 3).toNat < 2 ^ 20
         let n := (a 2).toNat
         let free := fun (k : Nat) => k + n ≤ 16384 ∧ ∀ e ∈ s.parts, rangesMeet (e.2.regs2.gzfirst, e.2.regs2.gzcount) (k, n) = false
         (¬ form → refuses (.create m) 2) ∧ (form → p.state ≠ .absent → refuses (.create m) 4) ∧
         (form → p.state = .absent → (∃ q ∈ mask (a 1), ¬ quadFree q) ∨ (∀ k, ¬ free k) → refuses (.create m) 3) ∧
         (form → p.state = .absent → (∀ q ∈ mask (a 1), quadFree q) → (∃ k, free k) →
           (fl → Completes (.create m) s (fun u => u = concl (fails 7) 7 0#64)) ∧
           (¬ fl → Completes (.create m) s (fun u => ∃ first, free first ∧
             (∀ k, u.part k = if k = pn then { Part.reset with
               state := .running, quads := a 1, pasid := (a 3).toNat, key := h.nextKey
               regs2 := { PartRegs2.reset with gzfirst := first, gzcount := n }, ptinv := [(0, 0, s.mem.logLen)] } else s.part k) ∧
             (∀ q ∈ mask (a 1), cleared s pn q u) ∧
             (∀ q, q ∉ mask (a 1) → u.quad q = s.quad q ∧ ∀ c, c / 4 = q → u.core c = s.core c) ∧
             (∀ k, Table.get u.gz GzEntry.zero k =
               if first ≤ k ∧ k < first + n then GzEntry.zero else Table.get s.gz GzEntry.zero k) ∧
             (∀ k, u.objs k = if k = pn then Objects.reset else s.objs k) ∧
             u = concl { w with
               parts := u.parts, cores := u.cores, quads := u.quads, gz := u.gz, objects := u.objects
               hub := { h with nextKey := h.nextKey + 1 } } 0 (BitVec.ofNat 64 first)))) ∧
         (p.state = .absent → refuses (.destroy m) 4 ∧ (a 1 ≠ 0#64 → refuses (.resize m) 4)) ∧ (a 1 = 0#64 → refuses (.resize m) 2) ∧
         (p.state ≠ .absent →
           let goes := fun (q : State → State → Prop) => (p.state = .quiescing → Completes (.destroy m) s (q s)) ∧
             (p.state ≠ .quiescing → carries (.destroy m) (q w))
           ((∃ c ∈ s.cmds, c.thread.part = pn) → goes (fun v u =>
             u = { v.setPart pn { p with state := .quiescing } with inputs := s.inputs ++ [.destroy m] })) ∧
           ((∀ c ∈ s.cmds, c.thread.part ≠ pn) → goes (fun v u =>
             let own := fun (x : Nat) => x / 2 ^ 50 % 4 = 0 ∧ p.owns x = true
             let other := fun (t : Thread) => t.id.part != pn
             (∀ k, u.part k = if k = pn then Part.reset else s.part k) ∧
             (∀ k, u.objs k = if k = pn then Objects.reset else s.objs k) ∧
             (∀ q < 64, (u.quad q).owner = if (s.quad q).owner = some pn then none else (s.quad q).owner) ∧
             (∀ q, (s.quad q).owner ≠ some pn → u.quad q = s.quad q ∧ ∀ c, c / 4 = q → u.core c = s.core c) ∧
             (∀ q < 64, (s.quad q).owner = some pn → ∀ c, c / 4 = q → u.core c = { Core.reset with ceil := (s.core c).ceil }) ∧
             (∀ x, own x → u.mem.byte x = 0#8 ∧ x ∉ u.mem.poison) ∧ (∀ x, ¬ own x → u.mem.byte x = s.mem.byte x) ∧
             (∀ k, Table.get u.gz GzEntry.zero k = if p.regs2.gzfirst ≤ k ∧ k < p.regs2.gzfirst + p.regs2.gzcount then GzEntry.zero
               else Table.get s.gz GzEntry.zero k) ∧
             u = concl { v with
               mem := u.mem, gz := u.gz, cores := u.cores, quads := u.quads, parts := u.parts, objects := u.objects
               cur := if other s.cur then s.cur else Thread.reset
               active := s.active && other s.cur
               others := s.others.filter other
               saved := s.saved.filter (fun e => other e.1)
               mlq := s.mlq.filter (fun o => o.part != pn)
               hub := { h with apertures := h.apertures.filter (fun x => x.part != pn) } } 0 0#64)) ∧
           (a 1 ≠ 0#64 →
             let new := (mask (a 1)).filter (fun q => (s.quad q).owner != some pn || (s.quad q).fenced)
             let gone := (List.range 64).filter (fun q =>
               (s.quad q).owner == some pn && !(a 1).getLsbD q && !(s.quad q).fenced)
             ((∃ q ∈ new, ¬ quadFree q) → refuses (.resize m) 3) ∧
             ((∀ q ∈ new, quadFree q) →
               (p.quads ≠ a 1 → fl → Completes (.resize m) s (fun u => u = concl w 7 0#64)) ∧
               (p.quads = a 1 ∨ ¬ fl → ∃ x : State,
                 let b := if p.quads = a 1 then s else w
                 (∀ q ∈ new, cleared s pn q x) ∧
                 (∀ q, q ∉ new → x.quad q = s.quad q ∧ ∀ c, c / 4 = q → x.core c = s.core c) ∧
                 (∀ k, x.part k = if k = pn then { p with quads := a 1 } else s.part k) ∧
                 x = { b with parts := x.parts, quads := x.quads, cores := x.cores } ∧
                 leaves (.resize m) x pn gone (fun y => gone.foldl (fun y q => y.setQuad q { y.quad q with owner := none }) y)))))) ∧
       (64 ≤ pn → refuses (.fenceq m) 2) ∧
       (pn < 64 →
         let q := s.quad pn
         let fence := fun (x : State) => x.setQuad pn { x.quad pn with fenced := true }
         (q.owner = none ∨ q.fenced = true → carries (.fenceq m) (fun u => u = concl (fence w) 0 0#64)) ∧
         (∀ k, q.owner = some k → q.fenced = false →
           let r := s.part k
           let has := r.quads.getLsbD pn = true
           (mask r.quads = [pn] → refuses (.fenceq m) 3) ∧
           (mask r.quads ≠ [pn] → has → fl → Completes (.fenceq m) s (fun u => u = concl w 7 0#64)) ∧
           (mask r.quads ≠ [pn] → ¬ has ∨ ¬ fl →
             leaves (.fenceq m) ((if has then w else s).setPart k { r with quads := r.quads &&& ~~~(1#64 <<< pn) }) k [pn] fence))))) ∧
  (∀ (s : State) (m : Master), s.hub.pf.reqState = .busy →
     let h := s.hub
     let a := fun (k : Nat) => Table.get h.pf.held 0#64 k
     let pn := (a 0).toNat
     let p := s.part pn
     let fl := s.flaws.headD false = true
     let w : State := { s with flaws := s.flaws.tail }
     let concl := fun (x : State) (r : Nat) (res : Word) => ({ x with
       hub := { x.hub with pf := { x.hub.pf with reason := r, reqRes := res } }
       inputs := x.inputs ++ [Instr.requestComplete] } : State)
     let fails := fun (n : Nat) => if h.pf.logCap = 0#32 then ({ w with outbox := s.outbox ++ [.bringUpFailed n] } : State)
       else w.logPf 0#64 0xFFFF 0x2000 w.synd 6 0
     let part := fun (x : Part) => w.setPart pn x
     let hub := fun (x : Hub) => ({ w with hub := x } : State)
     let refuses := fun (i : Instr) (r : Nat) => Completes i s (fun u => u = concl s r 0#64)
     let carries := fun (i : Instr) (q : State → Prop) =>
       (fl → Completes i s (fun u => u = concl w 7 0#64)) ∧ (¬ fl → Completes i s q)
     let does := fun (i : Instr) (x : State) => carries i (fun u => u = concl x 0 0#64)
     let e := (pn, (a 1).toNat)
     let base := (a 1).toNat
     let size := (a 2).toNat
     let peer := (base, size)
     let granules := fun (r : Nat × Nat) => (List.range (r.2 / 2 ^ 28)).map (fun i => r.1 / 2 ^ 28 + i)
     let overlaps := (∃ x ∈ s.parts, ∃ r ∈ x.2.ranges, rangesMeet r (base, size) = true) ∨
       ∃ r ∈ h.retiredSb, rangesMeet (r, 2 ^ 21) (base, size) = true
     let held := s.parts.flatMap (fun e => e.2.ranges)
     let room := fun (t : Fin 2) (sheet : Nat) =>
       let gone := h.retiredCh.countP (fun c => c.1 == sheet && c.2.1 == t.val)
       512 * (if t = 0 then 72 - 6 * gone else 384 - 96 * gone)
     let blocks := ((base, size) :: held).flatMap (fun r => (List.range (r.2 / 2 ^ 21)).map (fun i => r.1 / 2 ^ 21 + i))
     let grants := (∀ g ∈ granules (base, size), Config.tierAt g ≠ none) ∧
       ∀ (t : Fin 2) (k : Fin 4), blocks.countP (fun b =>
         Config.tierAt (b / 128) == some t && (Config.homeSheet b).val == k.val) ≤ room t k.val
     let resident := fun (q : Bool → Nat → Prop) => ∃ e ∈ s.gz, e.2.perm.getLsbD 2 = true ∧ ∃ b < 128, e.2.resid.getLsbD b = true ∧
       q (e.2.tier.getLsbD b) ((if e.2.tier.getLsbD b then e.2.t1base else e.2.t0base) + b * 2 ^ 21)
     (32 ≤ pn → ∀ i ∈ ([.addmem m, .exportAperture m, .peermap m, .peerunmap m] : List Instr), refuses i 2) ∧
     (pn < 32 →
       (let form := base % 2 ^ 28 = 0 ∧ size % 2 ^ 28 = 0 ∧ size ≠ 0 ∧ base + size ≤ 2 ^ 50
        (¬ form → refuses (.addmem m) 2) ∧ (form → p.state = .absent → refuses (.addmem m) 4) ∧
        (form → p.state ≠ .absent → overlaps ∨ ¬ grants → refuses (.addmem m) 5) ∧
        (form → p.state ≠ .absent → ¬ overlaps → grants → does (.addmem m) (part { p with ranges := p.ranges ++ [(base, size)] }))) ∧
       (let first := size
        let n := (a 3).toNat
        let holds := ∀ g ∈ granules (first, n), ∃ r ∈ p.ranges, r.1 ≤ g * 2 ^ 28 ∧ g * 2 ^ 28 < r.1 + r.2
        let there := h.apertures.find? (fun x => x.num == base)
        let form := first % 2 ^ 28 = 0 ∧ n % 2 ^ 28 = 0 ∧ n ≤ 2 ^ 36 ∧ (a 4).toNat < 4
        let i := Instr.exportAperture m
        (16 ≤ base → refuses i 2) ∧
        (base < 16 → (p.state = .absent → refuses i 4) ∧
          (p.state ≠ .absent →
            (n ≠ 0 → ¬ form → refuses i 2) ∧ (n ≠ 0 → form → ¬ holds → refuses i 5) ∧
            (n ≠ 0 → form → holds → there ≠ none → refuses i 3) ∧
            (n ≠ 0 → form → holds → there = none → does i (hub { h with apertures := h.apertures ++
              [⟨base, pn, first, n, (a 4).getLsbD 0, (a 4).getLsbD 1, []⟩] })) ∧
            (n = 0 → (∀ x, there = some x → x.part ≠ pn) → refuses i 2) ∧
            (∀ x, n = 0 → there = some x → x.part = pn →
              ((∃ q, .peerRequest q ∈ s.inputs ∧ q.aperture = base) → Completes i s (fun u =>
                u = { s with inputs := s.inputs ++ [i] })) ∧
              ((∀ q, .peerRequest q ∈ s.inputs → q.aperture ≠ base) → does i (hub { h with
                apertures := h.apertures.filter (fun x => x.num != base) })))))) ∧
       (1024 ≤ base ∨ 16 ≤ size → refuses (.peermap m) 2 ∧ refuses (.peerunmap m) 2) ∧
       (base < 1024 → size < 16 →
         let hit := fun (x : Nat) => 2 ^ 51 + 2 ^ 40 * base + 2 ^ 36 * size ≤ x ∧ x < 2 ^ 51 + 2 ^ 40 * base + 2 ^ 36 * (size + 1)
         let busy := (∃ c ∈ s.cmds, c.thread.part = pn ∧ ∃ r ∈ c.body.dests ++ c.body.sources, ∃ j < r.2, hit (r.1 + j)) ∨
           (∃ t ∈ s.started, t.id.part = pn ∧ ((∃ k, t.prog.wait = .retry (.peer k)) ∨ ∃ v ∈ t.viq, ∃ x ∈ v.bytes.2, hit x)) ∨
           ∃ x ∈ (s.objs pn).waiters ++ (s.objs pn).resend, hit x.sb ∨ hit x.pa
         (p.state = .absent → refuses (.peermap m) 4 ∧ refuses (.peerunmap m) 4) ∧
         (p.state ≠ .absent →
           (peer ∈ p.peers → refuses (.peermap m) 3) ∧
           (peer ∉ p.peers → refuses (.peerunmap m) 2 ∧ does (.peermap m) (part { p with peers := p.peers ++ [peer] })) ∧
           (peer ∈ p.peers → busy → Completes (.peerunmap m) s (fun u => u = { s with inputs := s.inputs ++ [.peerunmap m] })) ∧
           (peer ∈ p.peers → ¬ busy → does (.peerunmap m) (part { p with peers := p.peers.filter (fun x => x != peer) }))))) ∧
     (64 ≤ pn → refuses (.readmit m) 2) ∧
     (pn < 64 →
       let q := s.quad pn
       (q.fenced = false → refuses (.readmit m) 2) ∧
       (q.fenced = true → carries (.readmit m) (fun u =>
         (∀ k, u.quad k = if k = pn then { q with fenced := false, acc := [], slots := [] } else s.quad k) ∧
         (∀ c, u.core c = if c / 4 = pn then { Core.reset with ceil := (s.core c).ceil } else s.core c) ∧
         (∀ k, u.part k = if q.owner = some k then { s.part k with quads := (s.part k).quads ||| (1#64 <<< pn) } else s.part k) ∧
         u = concl { w with quads := u.quads, cores := u.cores, parts := u.parts } 0 0#64))) ∧
     (pn % 2 ^ 21 ≠ 0 ∨ 2 ^ 50 ≤ pn → refuses (.retiresb m) 2) ∧
     (pn % 2 ^ 21 = 0 → pn < 2 ^ 50 →
       (resident (fun _ x => x = pn) → refuses (.retiresb m) 3) ∧
       (¬ resident (fun _ x => x = pn) → carries (.retiresb m) (fun u =>
         (∀ x, x ∈ u.hub.retiredSb ↔ x = pn ∨ x ∈ h.retiredSb) ∧
         u = concl (hub { h with retiredSb := u.hub.retiredSb }) 0 0#64))) ∧
     (let kind := e.2 % 256
      let ctl := e.2 / 256 % 256
      let form := pn < 4 ∧ kind < 2 ∧ ctl < (if kind = 0 then 12 else 4) ∧ e.2 < 2 ^ 16
      let used := resident (fun t1 x => x / 2 ^ 50 % 4 = 0 ∧ t1 = decide (kind = 1) ∧ (Config.homeSheet (x / 2 ^ 21)).val = pn)
      (¬ form → refuses (.retirech m) 2) ∧ (form → used → refuses (.retirech m) 3) ∧
      (form → ¬ used → carries (.retirech m) (fun u =>
        (∀ x, x ∈ u.hub.retiredCh ↔ x = (pn, kind, ctl) ∨ x ∈ h.retiredCh) ∧
        u = concl (hub { h with retiredCh := u.hub.retiredCh }) 0 0#64))) ∧
     (4 ≤ pn → refuses (.power m) 2) ∧
     (pn = 3 → h.power = 3 → refuses (.power m) 0) ∧
     (pn = 3 → h.power ≠ 3 → Completes (.power m) s (fun u =>
       (∀ x, u.mem.byte x = if x / 2 ^ 50 % 4 = 1 ∨ x / 2 ^ 50 % 4 = 2 then s.mem.byte x else 0#8) ∧
       (∀ x, x ∈ u.mem.poison ↔ x ∈ s.mem.poison ∧ (x / 2 ^ 50 % 4 = 1 ∨ x / 2 ^ 50 % 4 = 2)) ∧
       u = concl { State.reset with
         mem := { State.reset.mem with cells := u.mem.cells, poison := u.mem.poison }
         hub := { Hub.reset with pf := h.pf, stage := 1, images := h.images }
         cycle := s.cycle, fresh := s.fresh, sched := s.sched, outbox := s.outbox, flaws := s.flaws
         inputs := s.inputs.filter outlives, timers := s.timers.filter outlives } 0 0#64)) ∧
     (pn < 3 → h.power ≠ 3 → does (.power m) (hub { h with power := pn })) ∧
     (pn < 3 → h.power = 3 → Completes (.power m) s (fun u =>
       let bad := fun (k : Nat) => s.flaws.getD k false = true
       let channels := ((List.range 64).filter (fun k => s.flaws.getD (3 + k) false)).map (fun k =>
         if k % 16 < 12 then (k / 16, 0, k % 16) else (k / 16, 1, k % 16 - 12))
       let x : State := { s with flaws := s.flaws.drop 67 }
       let stops := fun (n k : Nat) => u = concl { x with
         hub := { h with stage := n }, outbox := s.outbox ++ [.bringUpFailed k] } 7 0#64
       let cleared := (∀ c, u.core c = { s.core c with spad := [] }) ∧ ∀ q, u.quad q = { s.quad q with slots := [] }
       (bad 0 → stops 1 2) ∧ (¬ bad 0 → bad 1 → stops 2 3) ∧
       (¬ bad 0 → ¬ bad 1 → bad 2 → cleared ∧ u = concl { x with
         gz := [], cores := u.cores, quads := u.quads, hub := { h with stage := 4, retiredCh := channels }
         outbox := s.outbox ++ [.bringUpFailed 5] } 7 0#64) ∧
       (¬ bad 0 → ¬ bad 1 → ¬ bad 2 → cleared ∧ u = concl { x with
         gz := [], cores := u.cores, quads := u.quads, hub := { h with stage := 5, power := pn, retiredCh := channels } } 0 0#64))) ∧
     (2 ^ 16 ≤ pn → refuses (.links m) 2) ∧
     (pn < 2 ^ 16 → fl → Completes (.links m) s (fun u => u = concl (fails 6) 7 0#64)) ∧
     (pn < 2 ^ 16 → ¬ fl → Completes (.links m) s (fun u => ∃ n,
       let port := fun (k : Nat) => Table.get u.hub.ports Port.reset k
       (∀ k, ¬ (k < 16 ∧ pn.testBit k = true) → port k = Table.get h.ports Port.reset k) ∧
       (∀ k, k < 16 → pn.testBit k = true → port k ∈ [⟨true, 8, false⟩, ⟨true, 8, true⟩, ⟨true, 4, true⟩] ∧
         ((∀ b ∈ s.flaws, b = false) → port k = ⟨true, 8, false⟩)) ∧
       u = concl { s with
         flaws := s.flaws.drop n
         hub := { h with
           ports := u.hub.ports, stage := if h.stage = 5 then 7 else if h.stage = 6 then 8 else h.stage } } 0 0#64)) ∧
     (Config.choice s.fresh 0 % 2 ≠ 0 → refuses (.update m) 6) ∧
     (Config.choice s.fresh 0 % 2 = 0 → carries (.update m) (fun u =>
       let v := Config.digest s.fresh
       let b := decide (Config.choice s.fresh 1 % 2 = 0)
       let i := Table.get h.images Image.reset pn
       let i1 := if i.active then { i with versionA := v.toNat, pending := true } else { i with versionB := v.toNat, pending := true }
       u = concl { hub { h with images := Table.set h.images Image.reset pn i1 } with
         timers := s.timers ++ [.imageSwitch pn b] } 0 v)))

/-! ## The machine -/

/-- R89, R32 to R36: the turn of a thread that runs takes the word that its fetch finds: the four bytes at the physical places of pc,
translated as a fetch, little-endian, where no engine owns their lines or those of the tables and a port reaches them (R23, R504).
If they decode, the step is that instruction, and else it is the word that is no
instruction. Around exec the step lets time pass, takes the turn from sched, lets the thread's E-side go as far as it can, notes
the time limits of a wait, and invalidates the copies of a read-shared aperture that the step has written (R506; log 6); it changes
nothing else (the order of turns is the model's, log 5). -/
def Obligations.StepRunsFetchedWord : Prop :=
  ∀ (s : State) (turns : List Turn) (pas : List Nat) (i : Instr), s.sched = .cur :: turns → s.active = true →
    s.hub.power ≤ 1 → (s.part s.cur.id.part).state = .running → s.cur.prog.wait = .none → s.cur.prog.check = none →
    s.cur.viq = [] →
    let s1 : State := { s with cycle := s.cycle + Config.cycles s.fresh, fresh := s.fresh + 1, sched := turns }
    let w := BitVec.ofNat 32 (leNum (pas.map s.mem.byte))
    s1.scalar s1.cp s1.needU .fetch 4 s.cur.pc 4 = .ok pas →
    (∀ a ∈ s1.walkBytes s1.cp s.cur.pc ++ pas, s.owned a = false ∧ s.cutOff a = false) → s.poisoned pas = false →
    let around := fun (t u : State) =>
      let hit := fun (a : Aperture) => a.shared && !a.sharers.isEmpty &&
        (t.mem.log.take (t.mem.logLen - s.mem.logLen)).any (fun e => decide (a.base ≤ e.pa) && decide (e.pa < a.base + a.size))
      u = { t with
        timers := t.settle.timers
        hub := { t.hub with apertures := t.hub.apertures.map (fun x =>
          if t.hub.apertures.any (fun a => hit a && a.num == x.num) then { x with sharers := [] } else x) }
        outbox := t.outbox ++ (t.hub.apertures.filter hit).map (fun a => .invalidate a.num a.sharers) }
    (decode w = .ok i → Completes i s1 (fun t => ∃ u, step s = .next u ∧ around t u)) ∧
    ((∀ j, decode w ≠ .ok j) → Completes (.illegalWord w) s1 (fun t => ∃ u, step s = .next u ∧ around t u))

/-- R47, R48, R67, R51, R142, R387, R470, R500, R515: right after reset no partition, thread, launch, engine command or aperture is
there, the partition registers hold their reset values, CEIL is 8, ROWCAP 64 and PACE 1, the host owns the module, a thread's
vtype is 0x14 and its other registers are 0; and in every state s0 reads as zero and discards a write, and p0 reads as all true.
(That a byte never written reads 0 is the model's choice, log 1; the zeros of registers that the spec leaves open, log 2; that the
module then stands in power state P3 with no step of bring-up done, as one without main power does, is presumed, log 3.) -/
def Obligations.ResetValues : Prop :=
  (∀ k, State.reset.part k = Part.reset ∧ State.reset.objs k = Objects.reset ∧ (State.reset.core k).ceil = 8 ∧
    (State.reset.quad k).owner = none ∧ (State.reset.quad k).rowcap = 64 ∧ (State.reset.quad k).pace = 1) ∧
  Part.reset.state = .absent ∧ Part.reset.regs.reclaim = 100#64 ∧ Part.reset.nextLid = 1 ∧
  State.reset.onChip = [] ∧ State.reset.saved = [] ∧ State.reset.cmds = [] ∧ State.reset.mlq = [] ∧
  State.reset.hub.pf.owner = 0#1 ∧ State.reset.hub.pf.takeover = 30 ∧ State.reset.hub.pf.reqState = .idle ∧
  State.reset.hub.apertures = [] ∧ State.reset.hub.stage = 0 ∧ State.reset.hub.power = 3 ∧
  Thread.reset.conf.vtype = 0x14#32 ∧ Thread.reset.conf.vl = 0 ∧ Thread.reset.conf.grant = 0 ∧ Thread.reset.conf.tgrant = 0 ∧
  (∀ r, Thread.reset.readS r = 0#64) ∧ (∀ k, Thread.reset.queue k = []) ∧ (∀ a, State.reset.mem.byte a = 0#8) ∧
  ∀ s : State, s.readS 0#5 = 0#64 ∧ (∀ v, s.writeS 0#5 v = s) ∧ s.cur.vr.preg 0 = BitVec.allOnes 4096

/-- The memory right after reset has its canonical form (logs 1 and 6 say what it lists). -/
def Obligations.ResetMemoryCanonical : Prop := State.reset.mem.wf = true

/-- Every step keeps the canonical form of memory: addresses strictly rising and no byte listed that reads as an unlisted one. The form
is the model's own representation of memory, of which the spec says nothing (log 1: how memory is listed and what an unlisted byte reads
as; log 6: accesses are performed one at a time). -/
def Obligations.StepKeepsMemoryCanonical : Prop :=
  ∀ s t : State, s.mem.wf = true → step s = .next t → t.mem.wf = true

/-- R29, R34 to R36, R491: every instruction and event has its effect or takes its exception in every state, so that no run ends for
want of a meaning (log 25); a step stops only once a fatal device error has halted every partition and nothing else can happen. -/
def Obligations.StepAlwaysGoesOn : Prop :=
  (∀ (i : Instr) (s : State), ∃ t, exec i s = .next t) ∧
  ∀ s : State, (∃ t, step s = .next t) ∨ (s.hub.fatal = true ∧ step s = .fault .deviceFatal)
end

