-- ==== Sys2Proof/Laws/Table.lean ====
section
/-!
SUPPORT. Laws of sparse tables and of memory: what a read finds after a write, and that writes keep the canonical form.
-/
namespace Sys2Proof.Machine

variable {β : Type}

@[simp] theorem Table.get_nil (d : β) (k : Nat) : Table.get ([] : Table β) d k = d := rfl

theorem Table.get_erase (t : Table β) (d : β) (k j : Nat) :
    Table.get (Table.erase t k) d j = if j = k then d else Table.get t d j := by
  induction t with
  | nil => simp [Table.erase]
  | cons e r ih =>
    obtain ⟨a, b⟩ := e
    by_cases h : a = k <;> by_cases h2 : a = j <;> simp_all [Table.erase, Table.get]

theorem Table.get_insert (t : Table β) (d : β) (k j : Nat) (v : β) (h : ∀ e ∈ t, e.1 ≠ k) :
    Table.get (Table.insert t k v) d j = if j = k then v else Table.get t d j := by
  induction t with
  | nil => simp [Table.insert, Table.get]; grind
  | cons e r ih =>
    obtain ⟨a, b⟩ := e
    have hr := ih (fun e he => h e (List.mem_cons_of_mem _ he))
    have ha : a ≠ k := h (a, b) (List.mem_cons_self ..)
    simp only [Table.insert]
    split <;> simp only [Table.get] <;> grind

theorem Table.not_mem_erase (t : Table β) (k : Nat) : ∀ e ∈ Table.erase t k, e.1 ≠ k := by
  induction t with
  | nil => simp [Table.erase]
  | cons e r ih =>
    obtain ⟨a, b⟩ := e
    simp only [Table.erase]
    split
    · exact ih
    · intro e he
      rcases List.mem_cons.1 he with rfl | he
      · assumption
      · exact ih e he

/-- A read after a write finds the written value at its key and the old one everywhere else. -/
theorem Table.get_set [DecidableEq β] (t : Table β) (d : β) (k j : Nat) (v : β) :
    Table.get (Table.set t d k v) d j = if j = k then v else Table.get t d j := by
  unfold Table.set
  split
  · next h => rw [get_erase, h]
  · rw [get_insert _ _ _ _ _ (not_mem_erase t k), get_erase]
    split <;> rfl

@[simp] theorem Table.get_set_self [DecidableEq β] (t : Table β) (d : β) (k : Nat) (v : β) :
    Table.get (Table.set t d k v) d k = v := by simp [get_set]

theorem Table.get_set_other [DecidableEq β] (t : Table β) (d : β) {k j : Nat} (v : β) (h : j ≠ k) :
    Table.get (Table.set t d k v) d j = Table.get t d j := by simp [get_set, h]

theorem Table.sorted_mono (t : Table β) {a b : Nat} (h : a ≤ b) (hs : Table.sorted t b = true) : Table.sorted t a = true := by
  cases t with
  | nil => rfl
  | cons e r => simp only [Table.sorted, Bool.and_eq_true, decide_eq_true_eq] at *; exact ⟨by omega, hs.2⟩

theorem Table.sorted_erase (t : Table β) (k lo : Nat) (h : Table.sorted t lo = true) :
    Table.sorted (Table.erase t k) lo = true := by
  induction t generalizing lo with
  | nil => rfl
  | cons e r ih =>
    obtain ⟨a, b⟩ := e
    simp only [Table.sorted, Bool.and_eq_true, decide_eq_true_eq] at h
    simp only [Table.erase]
    split
    · exact ih lo (sorted_mono r (by omega) h.2)
    · simp [Table.sorted, h.1, ih _ h.2]

theorem Table.sorted_insert (t : Table β) (k lo : Nat) (v : β) (hk : lo ≤ k) (h : Table.sorted t lo = true)
    (hn : ∀ e ∈ t, e.1 ≠ k) : Table.sorted (Table.insert t k v) lo = true := by
  induction t generalizing lo with
  | nil => simp [Table.insert, Table.sorted, hk]
  | cons e r ih =>
    obtain ⟨a, b⟩ := e
    have ha : a ≠ k := hn (a, b) (List.mem_cons_self ..)
    simp only [Table.sorted, Bool.and_eq_true, decide_eq_true_eq] at h
    simp only [Table.insert]
    split
    · simp only [Table.sorted, Bool.and_eq_true, decide_eq_true_eq]; exact ⟨hk, by omega, h.2⟩
    · simp only [Table.sorted, Bool.and_eq_true, decide_eq_true_eq]
      exact ⟨h.1, ih _ (by omega) h.2 (fun e he => hn e (List.mem_cons_of_mem _ he))⟩

theorem Table.mem_erase (t : Table β) (k : Nat) : ∀ e ∈ Table.erase t k, e ∈ t := by
  induction t with
  | nil => simp [Table.erase]
  | cons e r ih =>
    obtain ⟨a, b⟩ := e
    simp only [Table.erase]
    split
    · exact fun e he => List.mem_cons_of_mem _ (ih e he)
    · intro e he
      rcases List.mem_cons.1 he with rfl | he
      · exact List.mem_cons_self ..
      · exact List.mem_cons_of_mem _ (ih e he)

theorem Table.mem_insert (t : Table β) (k : Nat) (v : β) : ∀ e ∈ Table.insert t k v, e = (k, v) ∨ e ∈ t := by
  induction t with
  | nil => simp [Table.insert]
  | cons e r ih =>
    obtain ⟨a, b⟩ := e
    simp only [Table.insert]
    split
    · intro e he; simpa using he
    · intro e he
      rcases List.mem_cons.1 he with rfl | he
      · exact .inr (List.mem_cons_self ..)
      · exact (ih e he).imp id (List.mem_cons_of_mem _)

theorem Table.wf_nil [DecidableEq β] (d : β) : Table.wf ([] : Table β) d = true := rfl

/-- A write keeps the canonical form. -/
theorem Table.wf_set [DecidableEq β] (t : Table β) (d : β) (k : Nat) (v : β) (h : Table.wf t d = true) :
    Table.wf (Table.set t d k v) d = true := by
  simp only [Table.wf, Bool.and_eq_true, List.all_eq_true, decide_eq_true_eq] at h ⊢
  unfold Table.set
  split
  · exact ⟨sorted_erase t k 0 h.1, fun e he => h.2 e (mem_erase t k e he)⟩
  · next hv =>
    refine ⟨sorted_insert _ k 0 v (Nat.zero_le k) (sorted_erase t k 0 h.1) (not_mem_erase t k), fun e he => ?_⟩
    rcases mem_insert _ k v e he with rfl | he
    · exact hv
    · exact h.2 e (mem_erase t k e he)

/-! ## Memory -/

/-- A byte read after a byte written. -/
@[simp] theorem Mem.byte_write (m : Mem) (w : Writer) (pa a : Nat) (b : Byte) :
    (m.write w pa b).byte a = if a = pa then b else m.byte a := Table.get_set ..

@[simp] theorem Mem.writeAll_nil (m : Mem) (w : Writer) : m.writeAll w [] = m := rfl

theorem Mem.writeAll_cons (m : Mem) (w : Writer) (e : Nat × Byte) (l : List (Nat × Byte)) :
    m.writeAll w (e :: l) = (m.write w e.1 e.2).writeAll w l := rfl

/-- A byte outside the places written reads as before. -/
theorem Mem.byte_writeAll_other (m : Mem) (w : Writer) (l : List (Nat × Byte)) (a : Nat) (h : ∀ e ∈ l, e.1 ≠ a) :
    (m.writeAll w l).byte a = m.byte a := by
  induction l generalizing m with
  | nil => rfl
  | cons e r ih =>
    rw [writeAll_cons, ih _ (fun e he => h e (List.mem_cons_of_mem _ he)), byte_write,
      if_neg (fun he => h e (List.mem_cons_self ..) he.symm)]

/-- A byte written at one place of several distinct ones reads as its value. -/
theorem Mem.byte_writeAll_zip (m : Mem) (w : Writer) (pas : List Nat) (bs : List Byte) (hl : pas.length = bs.length)
    (hn : pas.Nodup) : pas.map (m.writeAll w (pas.zip bs)).byte = bs := by
  induction pas generalizing m bs with
  | nil =>
    cases bs with
    | nil => rfl
    | cons b bs => simp at hl
  | cons p r ih =>
    cases bs with
    | nil => simp at hl
    | cons b bs =>
      rw [List.nodup_cons] at hn
      rw [List.zip_cons_cons, writeAll_cons, List.map_cons, ih _ bs (by simpa using hl) hn.2,
        byte_writeAll_other _ _ _ _ (fun e he (hp : e.1 = p) => hn.1 (by rw [← hp]; exact (List.of_mem_zip (a := e.1) (b := e.2) he).1))]
      simp

theorem Mem.wf_write (m : Mem) (w : Writer) (pa : Nat) (b : Byte) (h : m.wf = true) : (m.write w pa b).wf = true :=
  Table.wf_set _ _ _ _ h

/-- Memory writes keep the canonical form. -/
theorem Mem.wf_writeAll (m : Mem) (w : Writer) (l : List (Nat × Byte)) (h : m.wf = true) : (m.writeAll w l).wf = true := by
  induction l generalizing m with
  | nil => exact h
  | cons e r ih => exact ih _ (wf_write _ _ _ _ h)

end Sys2Proof.Machine
end

