-- ==== Sys2Proof/Laws/State.lean ====
section
/-!
SUPPORT. What each of the small updates of State leaves in each field.
-/
set_option Elab.async false

namespace Sys2Proof.Machine

/-! ## State.onCur -/

@[simp] theorem State.onCur_mem (s : State) (f : Thread → Thread) : (s.onCur f).mem = s.mem := rfl
@[simp] theorem State.onCur_gz (s : State) (f : Thread → Thread) : (s.onCur f).gz = s.gz := rfl
@[simp] theorem State.onCur_active (s : State) (f : Thread → Thread) : (s.onCur f).active = s.active := rfl
@[simp] theorem State.onCur_others (s : State) (f : Thread → Thread) : (s.onCur f).others = s.others := rfl
@[simp] theorem State.onCur_saved (s : State) (f : Thread → Thread) : (s.onCur f).saved = s.saved := rfl
@[simp] theorem State.onCur_cores (s : State) (f : Thread → Thread) : (s.onCur f).cores = s.cores := rfl
@[simp] theorem State.onCur_quads (s : State) (f : Thread → Thread) : (s.onCur f).quads = s.quads := rfl
@[simp] theorem State.onCur_parts (s : State) (f : Thread → Thread) : (s.onCur f).parts = s.parts := rfl
@[simp] theorem State.onCur_objects (s : State) (f : Thread → Thread) : (s.onCur f).objects = s.objects := rfl
@[simp] theorem State.onCur_cmds (s : State) (f : Thread → Thread) : (s.onCur f).cmds = s.cmds := rfl
@[simp] theorem State.onCur_mlq (s : State) (f : Thread → Thread) : (s.onCur f).mlq = s.mlq := rfl
@[simp] theorem State.onCur_mlLog (s : State) (f : Thread → Thread) : (s.onCur f).mlLog = s.mlLog := rfl
@[simp] theorem State.onCur_hub (s : State) (f : Thread → Thread) : (s.onCur f).hub = s.hub := rfl
@[simp] theorem State.onCur_cycle (s : State) (f : Thread → Thread) : (s.onCur f).cycle = s.cycle := rfl
@[simp] theorem State.onCur_fresh (s : State) (f : Thread → Thread) : (s.onCur f).fresh = s.fresh := rfl
@[simp] theorem State.onCur_sched (s : State) (f : Thread → Thread) : (s.onCur f).sched = s.sched := rfl
@[simp] theorem State.onCur_inputs (s : State) (f : Thread → Thread) : (s.onCur f).inputs = s.inputs := rfl
@[simp] theorem State.onCur_timers (s : State) (f : Thread → Thread) : (s.onCur f).timers = s.timers := rfl
@[simp] theorem State.onCur_outbox (s : State) (f : Thread → Thread) : (s.onCur f).outbox = s.outbox := rfl

/-! ## State.onProg -/

@[simp] theorem State.onProg_mem (s : State) (f : Progress → Progress) : (s.onProg f).mem = s.mem := rfl
@[simp] theorem State.onProg_gz (s : State) (f : Progress → Progress) : (s.onProg f).gz = s.gz := rfl
@[simp] theorem State.onProg_active (s : State) (f : Progress → Progress) : (s.onProg f).active = s.active := rfl
@[simp] theorem State.onProg_others (s : State) (f : Progress → Progress) : (s.onProg f).others = s.others := rfl
@[simp] theorem State.onProg_saved (s : State) (f : Progress → Progress) : (s.onProg f).saved = s.saved := rfl
@[simp] theorem State.onProg_cores (s : State) (f : Progress → Progress) : (s.onProg f).cores = s.cores := rfl
@[simp] theorem State.onProg_quads (s : State) (f : Progress → Progress) : (s.onProg f).quads = s.quads := rfl
@[simp] theorem State.onProg_parts (s : State) (f : Progress → Progress) : (s.onProg f).parts = s.parts := rfl
@[simp] theorem State.onProg_objects (s : State) (f : Progress → Progress) : (s.onProg f).objects = s.objects := rfl
@[simp] theorem State.onProg_cmds (s : State) (f : Progress → Progress) : (s.onProg f).cmds = s.cmds := rfl
@[simp] theorem State.onProg_mlq (s : State) (f : Progress → Progress) : (s.onProg f).mlq = s.mlq := rfl
@[simp] theorem State.onProg_mlLog (s : State) (f : Progress → Progress) : (s.onProg f).mlLog = s.mlLog := rfl
@[simp] theorem State.onProg_hub (s : State) (f : Progress → Progress) : (s.onProg f).hub = s.hub := rfl
@[simp] theorem State.onProg_cycle (s : State) (f : Progress → Progress) : (s.onProg f).cycle = s.cycle := rfl
@[simp] theorem State.onProg_fresh (s : State) (f : Progress → Progress) : (s.onProg f).fresh = s.fresh := rfl
@[simp] theorem State.onProg_sched (s : State) (f : Progress → Progress) : (s.onProg f).sched = s.sched := rfl
@[simp] theorem State.onProg_inputs (s : State) (f : Progress → Progress) : (s.onProg f).inputs = s.inputs := rfl
@[simp] theorem State.onProg_timers (s : State) (f : Progress → Progress) : (s.onProg f).timers = s.timers := rfl
@[simp] theorem State.onProg_outbox (s : State) (f : Progress → Progress) : (s.onProg f).outbox = s.outbox := rfl

/-! ## State.onUser -/

@[simp] theorem State.onUser_mem (s : State) (f : UserRegs → UserRegs) : (s.onUser f).mem = s.mem := rfl
@[simp] theorem State.onUser_gz (s : State) (f : UserRegs → UserRegs) : (s.onUser f).gz = s.gz := rfl
@[simp] theorem State.onUser_active (s : State) (f : UserRegs → UserRegs) : (s.onUser f).active = s.active := rfl
@[simp] theorem State.onUser_others (s : State) (f : UserRegs → UserRegs) : (s.onUser f).others = s.others := rfl
@[simp] theorem State.onUser_saved (s : State) (f : UserRegs → UserRegs) : (s.onUser f).saved = s.saved := rfl
@[simp] theorem State.onUser_cores (s : State) (f : UserRegs → UserRegs) : (s.onUser f).cores = s.cores := rfl
@[simp] theorem State.onUser_quads (s : State) (f : UserRegs → UserRegs) : (s.onUser f).quads = s.quads := rfl
@[simp] theorem State.onUser_parts (s : State) (f : UserRegs → UserRegs) : (s.onUser f).parts = s.parts := rfl
@[simp] theorem State.onUser_objects (s : State) (f : UserRegs → UserRegs) : (s.onUser f).objects = s.objects := rfl
@[simp] theorem State.onUser_cmds (s : State) (f : UserRegs → UserRegs) : (s.onUser f).cmds = s.cmds := rfl
@[simp] theorem State.onUser_mlq (s : State) (f : UserRegs → UserRegs) : (s.onUser f).mlq = s.mlq := rfl
@[simp] theorem State.onUser_mlLog (s : State) (f : UserRegs → UserRegs) : (s.onUser f).mlLog = s.mlLog := rfl
@[simp] theorem State.onUser_hub (s : State) (f : UserRegs → UserRegs) : (s.onUser f).hub = s.hub := rfl
@[simp] theorem State.onUser_cycle (s : State) (f : UserRegs → UserRegs) : (s.onUser f).cycle = s.cycle := rfl
@[simp] theorem State.onUser_fresh (s : State) (f : UserRegs → UserRegs) : (s.onUser f).fresh = s.fresh := rfl
@[simp] theorem State.onUser_sched (s : State) (f : UserRegs → UserRegs) : (s.onUser f).sched = s.sched := rfl
@[simp] theorem State.onUser_inputs (s : State) (f : UserRegs → UserRegs) : (s.onUser f).inputs = s.inputs := rfl
@[simp] theorem State.onUser_timers (s : State) (f : UserRegs → UserRegs) : (s.onUser f).timers = s.timers := rfl
@[simp] theorem State.onUser_outbox (s : State) (f : UserRegs → UserRegs) : (s.onUser f).outbox = s.outbox := rfl

/-! ## State.onConf -/

@[simp] theorem State.onConf_mem (s : State) (f : VConf → VConf) : (s.onConf f).mem = s.mem := rfl
@[simp] theorem State.onConf_gz (s : State) (f : VConf → VConf) : (s.onConf f).gz = s.gz := rfl
@[simp] theorem State.onConf_active (s : State) (f : VConf → VConf) : (s.onConf f).active = s.active := rfl
@[simp] theorem State.onConf_others (s : State) (f : VConf → VConf) : (s.onConf f).others = s.others := rfl
@[simp] theorem State.onConf_saved (s : State) (f : VConf → VConf) : (s.onConf f).saved = s.saved := rfl
@[simp] theorem State.onConf_cores (s : State) (f : VConf → VConf) : (s.onConf f).cores = s.cores := rfl
@[simp] theorem State.onConf_quads (s : State) (f : VConf → VConf) : (s.onConf f).quads = s.quads := rfl
@[simp] theorem State.onConf_parts (s : State) (f : VConf → VConf) : (s.onConf f).parts = s.parts := rfl
@[simp] theorem State.onConf_objects (s : State) (f : VConf → VConf) : (s.onConf f).objects = s.objects := rfl
@[simp] theorem State.onConf_cmds (s : State) (f : VConf → VConf) : (s.onConf f).cmds = s.cmds := rfl
@[simp] theorem State.onConf_mlq (s : State) (f : VConf → VConf) : (s.onConf f).mlq = s.mlq := rfl
@[simp] theorem State.onConf_mlLog (s : State) (f : VConf → VConf) : (s.onConf f).mlLog = s.mlLog := rfl
@[simp] theorem State.onConf_hub (s : State) (f : VConf → VConf) : (s.onConf f).hub = s.hub := rfl
@[simp] theorem State.onConf_cycle (s : State) (f : VConf → VConf) : (s.onConf f).cycle = s.cycle := rfl
@[simp] theorem State.onConf_fresh (s : State) (f : VConf → VConf) : (s.onConf f).fresh = s.fresh := rfl
@[simp] theorem State.onConf_sched (s : State) (f : VConf → VConf) : (s.onConf f).sched = s.sched := rfl
@[simp] theorem State.onConf_inputs (s : State) (f : VConf → VConf) : (s.onConf f).inputs = s.inputs := rfl
@[simp] theorem State.onConf_timers (s : State) (f : VConf → VConf) : (s.onConf f).timers = s.timers := rfl
@[simp] theorem State.onConf_outbox (s : State) (f : VConf → VConf) : (s.onConf f).outbox = s.outbox := rfl

/-! ## State.writeS -/

@[simp] theorem State.writeS_mem (s : State) (d : BitVec 5) (v : Word) : (s.writeS d v).mem = s.mem := rfl
@[simp] theorem State.writeS_gz (s : State) (d : BitVec 5) (v : Word) : (s.writeS d v).gz = s.gz := rfl
@[simp] theorem State.writeS_active (s : State) (d : BitVec 5) (v : Word) : (s.writeS d v).active = s.active := rfl
@[simp] theorem State.writeS_others (s : State) (d : BitVec 5) (v : Word) : (s.writeS d v).others = s.others := rfl
@[simp] theorem State.writeS_saved (s : State) (d : BitVec 5) (v : Word) : (s.writeS d v).saved = s.saved := rfl
@[simp] theorem State.writeS_cores (s : State) (d : BitVec 5) (v : Word) : (s.writeS d v).cores = s.cores := rfl
@[simp] theorem State.writeS_quads (s : State) (d : BitVec 5) (v : Word) : (s.writeS d v).quads = s.quads := rfl
@[simp] theorem State.writeS_parts (s : State) (d : BitVec 5) (v : Word) : (s.writeS d v).parts = s.parts := rfl
@[simp] theorem State.writeS_objects (s : State) (d : BitVec 5) (v : Word) : (s.writeS d v).objects = s.objects := rfl
@[simp] theorem State.writeS_cmds (s : State) (d : BitVec 5) (v : Word) : (s.writeS d v).cmds = s.cmds := rfl
@[simp] theorem State.writeS_mlq (s : State) (d : BitVec 5) (v : Word) : (s.writeS d v).mlq = s.mlq := rfl
@[simp] theorem State.writeS_mlLog (s : State) (d : BitVec 5) (v : Word) : (s.writeS d v).mlLog = s.mlLog := rfl
@[simp] theorem State.writeS_hub (s : State) (d : BitVec 5) (v : Word) : (s.writeS d v).hub = s.hub := rfl
@[simp] theorem State.writeS_cycle (s : State) (d : BitVec 5) (v : Word) : (s.writeS d v).cycle = s.cycle := rfl
@[simp] theorem State.writeS_fresh (s : State) (d : BitVec 5) (v : Word) : (s.writeS d v).fresh = s.fresh := rfl
@[simp] theorem State.writeS_sched (s : State) (d : BitVec 5) (v : Word) : (s.writeS d v).sched = s.sched := rfl
@[simp] theorem State.writeS_inputs (s : State) (d : BitVec 5) (v : Word) : (s.writeS d v).inputs = s.inputs := rfl
@[simp] theorem State.writeS_timers (s : State) (d : BitVec 5) (v : Word) : (s.writeS d v).timers = s.timers := rfl
@[simp] theorem State.writeS_outbox (s : State) (d : BitVec 5) (v : Word) : (s.writeS d v).outbox = s.outbox := rfl

/-! ## State.raise -/

@[simp] theorem State.raise_mem (s : State) (n : Nat) : (s.raise n).mem = s.mem := rfl
@[simp] theorem State.raise_gz (s : State) (n : Nat) : (s.raise n).gz = s.gz := rfl
@[simp] theorem State.raise_active (s : State) (n : Nat) : (s.raise n).active = s.active := rfl
@[simp] theorem State.raise_others (s : State) (n : Nat) : (s.raise n).others = s.others := rfl
@[simp] theorem State.raise_saved (s : State) (n : Nat) : (s.raise n).saved = s.saved := rfl
@[simp] theorem State.raise_cores (s : State) (n : Nat) : (s.raise n).cores = s.cores := rfl
@[simp] theorem State.raise_quads (s : State) (n : Nat) : (s.raise n).quads = s.quads := rfl
@[simp] theorem State.raise_parts (s : State) (n : Nat) : (s.raise n).parts = s.parts := rfl
@[simp] theorem State.raise_objects (s : State) (n : Nat) : (s.raise n).objects = s.objects := rfl
@[simp] theorem State.raise_cmds (s : State) (n : Nat) : (s.raise n).cmds = s.cmds := rfl
@[simp] theorem State.raise_mlq (s : State) (n : Nat) : (s.raise n).mlq = s.mlq := rfl
@[simp] theorem State.raise_mlLog (s : State) (n : Nat) : (s.raise n).mlLog = s.mlLog := rfl
@[simp] theorem State.raise_hub (s : State) (n : Nat) : (s.raise n).hub = s.hub := rfl
@[simp] theorem State.raise_cycle (s : State) (n : Nat) : (s.raise n).cycle = s.cycle := rfl
@[simp] theorem State.raise_fresh (s : State) (n : Nat) : (s.raise n).fresh = s.fresh := rfl
@[simp] theorem State.raise_sched (s : State) (n : Nat) : (s.raise n).sched = s.sched := rfl
@[simp] theorem State.raise_inputs (s : State) (n : Nat) : (s.raise n).inputs = s.inputs := rfl
@[simp] theorem State.raise_timers (s : State) (n : Nat) : (s.raise n).timers = s.timers := rfl
@[simp] theorem State.raise_outbox (s : State) (n : Nat) : (s.raise n).outbox = s.outbox := rfl

/-! ## State.putBytes -/

@[simp] theorem State.putBytes_gz (s : State) (l : List Nat) (b : List Byte) : (s.putBytes l b).gz = s.gz := rfl
@[simp] theorem State.putBytes_cur (s : State) (l : List Nat) (b : List Byte) : (s.putBytes l b).cur = s.cur := rfl
@[simp] theorem State.putBytes_active (s : State) (l : List Nat) (b : List Byte) : (s.putBytes l b).active = s.active := rfl
@[simp] theorem State.putBytes_others (s : State) (l : List Nat) (b : List Byte) : (s.putBytes l b).others = s.others := rfl
@[simp] theorem State.putBytes_saved (s : State) (l : List Nat) (b : List Byte) : (s.putBytes l b).saved = s.saved := rfl
@[simp] theorem State.putBytes_cores (s : State) (l : List Nat) (b : List Byte) : (s.putBytes l b).cores = s.cores := rfl
@[simp] theorem State.putBytes_quads (s : State) (l : List Nat) (b : List Byte) : (s.putBytes l b).quads = s.quads := rfl
@[simp] theorem State.putBytes_parts (s : State) (l : List Nat) (b : List Byte) : (s.putBytes l b).parts = s.parts := rfl
@[simp] theorem State.putBytes_objects (s : State) (l : List Nat) (b : List Byte) : (s.putBytes l b).objects = s.objects := rfl
@[simp] theorem State.putBytes_cmds (s : State) (l : List Nat) (b : List Byte) : (s.putBytes l b).cmds = s.cmds := rfl
@[simp] theorem State.putBytes_mlq (s : State) (l : List Nat) (b : List Byte) : (s.putBytes l b).mlq = s.mlq := rfl
@[simp] theorem State.putBytes_mlLog (s : State) (l : List Nat) (b : List Byte) : (s.putBytes l b).mlLog = s.mlLog := rfl
@[simp] theorem State.putBytes_hub (s : State) (l : List Nat) (b : List Byte) : (s.putBytes l b).hub = s.hub := rfl
@[simp] theorem State.putBytes_cycle (s : State) (l : List Nat) (b : List Byte) : (s.putBytes l b).cycle = s.cycle := rfl
@[simp] theorem State.putBytes_fresh (s : State) (l : List Nat) (b : List Byte) : (s.putBytes l b).fresh = s.fresh := rfl
@[simp] theorem State.putBytes_sched (s : State) (l : List Nat) (b : List Byte) : (s.putBytes l b).sched = s.sched := rfl
@[simp] theorem State.putBytes_inputs (s : State) (l : List Nat) (b : List Byte) : (s.putBytes l b).inputs = s.inputs := rfl
@[simp] theorem State.putBytes_timers (s : State) (l : List Nat) (b : List Byte) : (s.putBytes l b).timers = s.timers := rfl
@[simp] theorem State.putBytes_outbox (s : State) (l : List Nat) (b : List Byte) : (s.putBytes l b).outbox = s.outbox := rfl

/-! ## State.setCore -/

@[simp] theorem State.setCore_mem (s : State) (k : Nat) (v : Core) : (s.setCore k v).mem = s.mem := rfl
@[simp] theorem State.setCore_gz (s : State) (k : Nat) (v : Core) : (s.setCore k v).gz = s.gz := rfl
@[simp] theorem State.setCore_cur (s : State) (k : Nat) (v : Core) : (s.setCore k v).cur = s.cur := rfl
@[simp] theorem State.setCore_active (s : State) (k : Nat) (v : Core) : (s.setCore k v).active = s.active := rfl
@[simp] theorem State.setCore_others (s : State) (k : Nat) (v : Core) : (s.setCore k v).others = s.others := rfl
@[simp] theorem State.setCore_saved (s : State) (k : Nat) (v : Core) : (s.setCore k v).saved = s.saved := rfl
@[simp] theorem State.setCore_quads (s : State) (k : Nat) (v : Core) : (s.setCore k v).quads = s.quads := rfl
@[simp] theorem State.setCore_parts (s : State) (k : Nat) (v : Core) : (s.setCore k v).parts = s.parts := rfl
@[simp] theorem State.setCore_objects (s : State) (k : Nat) (v : Core) : (s.setCore k v).objects = s.objects := rfl
@[simp] theorem State.setCore_cmds (s : State) (k : Nat) (v : Core) : (s.setCore k v).cmds = s.cmds := rfl
@[simp] theorem State.setCore_mlq (s : State) (k : Nat) (v : Core) : (s.setCore k v).mlq = s.mlq := rfl
@[simp] theorem State.setCore_mlLog (s : State) (k : Nat) (v : Core) : (s.setCore k v).mlLog = s.mlLog := rfl
@[simp] theorem State.setCore_hub (s : State) (k : Nat) (v : Core) : (s.setCore k v).hub = s.hub := rfl
@[simp] theorem State.setCore_cycle (s : State) (k : Nat) (v : Core) : (s.setCore k v).cycle = s.cycle := rfl
@[simp] theorem State.setCore_fresh (s : State) (k : Nat) (v : Core) : (s.setCore k v).fresh = s.fresh := rfl
@[simp] theorem State.setCore_sched (s : State) (k : Nat) (v : Core) : (s.setCore k v).sched = s.sched := rfl
@[simp] theorem State.setCore_inputs (s : State) (k : Nat) (v : Core) : (s.setCore k v).inputs = s.inputs := rfl
@[simp] theorem State.setCore_timers (s : State) (k : Nat) (v : Core) : (s.setCore k v).timers = s.timers := rfl
@[simp] theorem State.setCore_outbox (s : State) (k : Nat) (v : Core) : (s.setCore k v).outbox = s.outbox := rfl

/-! ## State.setQuad -/

@[simp] theorem State.setQuad_mem (s : State) (k : Nat) (v : Quad) : (s.setQuad k v).mem = s.mem := rfl
@[simp] theorem State.setQuad_gz (s : State) (k : Nat) (v : Quad) : (s.setQuad k v).gz = s.gz := rfl
@[simp] theorem State.setQuad_cur (s : State) (k : Nat) (v : Quad) : (s.setQuad k v).cur = s.cur := rfl
@[simp] theorem State.setQuad_active (s : State) (k : Nat) (v : Quad) : (s.setQuad k v).active = s.active := rfl
@[simp] theorem State.setQuad_others (s : State) (k : Nat) (v : Quad) : (s.setQuad k v).others = s.others := rfl
@[simp] theorem State.setQuad_saved (s : State) (k : Nat) (v : Quad) : (s.setQuad k v).saved = s.saved := rfl
@[simp] theorem State.setQuad_cores (s : State) (k : Nat) (v : Quad) : (s.setQuad k v).cores = s.cores := rfl
@[simp] theorem State.setQuad_parts (s : State) (k : Nat) (v : Quad) : (s.setQuad k v).parts = s.parts := rfl
@[simp] theorem State.setQuad_objects (s : State) (k : Nat) (v : Quad) : (s.setQuad k v).objects = s.objects := rfl
@[simp] theorem State.setQuad_cmds (s : State) (k : Nat) (v : Quad) : (s.setQuad k v).cmds = s.cmds := rfl
@[simp] theorem State.setQuad_mlq (s : State) (k : Nat) (v : Quad) : (s.setQuad k v).mlq = s.mlq := rfl
@[simp] theorem State.setQuad_mlLog (s : State) (k : Nat) (v : Quad) : (s.setQuad k v).mlLog = s.mlLog := rfl
@[simp] theorem State.setQuad_hub (s : State) (k : Nat) (v : Quad) : (s.setQuad k v).hub = s.hub := rfl
@[simp] theorem State.setQuad_cycle (s : State) (k : Nat) (v : Quad) : (s.setQuad k v).cycle = s.cycle := rfl
@[simp] theorem State.setQuad_fresh (s : State) (k : Nat) (v : Quad) : (s.setQuad k v).fresh = s.fresh := rfl
@[simp] theorem State.setQuad_sched (s : State) (k : Nat) (v : Quad) : (s.setQuad k v).sched = s.sched := rfl
@[simp] theorem State.setQuad_inputs (s : State) (k : Nat) (v : Quad) : (s.setQuad k v).inputs = s.inputs := rfl
@[simp] theorem State.setQuad_timers (s : State) (k : Nat) (v : Quad) : (s.setQuad k v).timers = s.timers := rfl
@[simp] theorem State.setQuad_outbox (s : State) (k : Nat) (v : Quad) : (s.setQuad k v).outbox = s.outbox := rfl

/-! ## State.setPart -/

@[simp] theorem State.setPart_mem (s : State) (k : Nat) (v : Part) : (s.setPart k v).mem = s.mem := rfl
@[simp] theorem State.setPart_gz (s : State) (k : Nat) (v : Part) : (s.setPart k v).gz = s.gz := rfl
@[simp] theorem State.setPart_cur (s : State) (k : Nat) (v : Part) : (s.setPart k v).cur = s.cur := rfl
@[simp] theorem State.setPart_active (s : State) (k : Nat) (v : Part) : (s.setPart k v).active = s.active := rfl
@[simp] theorem State.setPart_others (s : State) (k : Nat) (v : Part) : (s.setPart k v).others = s.others := rfl
@[simp] theorem State.setPart_saved (s : State) (k : Nat) (v : Part) : (s.setPart k v).saved = s.saved := rfl
@[simp] theorem State.setPart_cores (s : State) (k : Nat) (v : Part) : (s.setPart k v).cores = s.cores := rfl
@[simp] theorem State.setPart_quads (s : State) (k : Nat) (v : Part) : (s.setPart k v).quads = s.quads := rfl
@[simp] theorem State.setPart_objects (s : State) (k : Nat) (v : Part) : (s.setPart k v).objects = s.objects := rfl
@[simp] theorem State.setPart_cmds (s : State) (k : Nat) (v : Part) : (s.setPart k v).cmds = s.cmds := rfl
@[simp] theorem State.setPart_mlq (s : State) (k : Nat) (v : Part) : (s.setPart k v).mlq = s.mlq := rfl
@[simp] theorem State.setPart_mlLog (s : State) (k : Nat) (v : Part) : (s.setPart k v).mlLog = s.mlLog := rfl
@[simp] theorem State.setPart_hub (s : State) (k : Nat) (v : Part) : (s.setPart k v).hub = s.hub := rfl
@[simp] theorem State.setPart_cycle (s : State) (k : Nat) (v : Part) : (s.setPart k v).cycle = s.cycle := rfl
@[simp] theorem State.setPart_fresh (s : State) (k : Nat) (v : Part) : (s.setPart k v).fresh = s.fresh := rfl
@[simp] theorem State.setPart_sched (s : State) (k : Nat) (v : Part) : (s.setPart k v).sched = s.sched := rfl
@[simp] theorem State.setPart_inputs (s : State) (k : Nat) (v : Part) : (s.setPart k v).inputs = s.inputs := rfl
@[simp] theorem State.setPart_timers (s : State) (k : Nat) (v : Part) : (s.setPart k v).timers = s.timers := rfl
@[simp] theorem State.setPart_outbox (s : State) (k : Nat) (v : Part) : (s.setPart k v).outbox = s.outbox := rfl

/-! ## State.setObjs -/

@[simp] theorem State.setObjs_mem (s : State) (k : Nat) (v : Objects) : (s.setObjs k v).mem = s.mem := rfl
@[simp] theorem State.setObjs_gz (s : State) (k : Nat) (v : Objects) : (s.setObjs k v).gz = s.gz := rfl
@[simp] theorem State.setObjs_cur (s : State) (k : Nat) (v : Objects) : (s.setObjs k v).cur = s.cur := rfl
@[simp] theorem State.setObjs_active (s : State) (k : Nat) (v : Objects) : (s.setObjs k v).active = s.active := rfl
@[simp] theorem State.setObjs_others (s : State) (k : Nat) (v : Objects) : (s.setObjs k v).others = s.others := rfl
@[simp] theorem State.setObjs_saved (s : State) (k : Nat) (v : Objects) : (s.setObjs k v).saved = s.saved := rfl
@[simp] theorem State.setObjs_cores (s : State) (k : Nat) (v : Objects) : (s.setObjs k v).cores = s.cores := rfl
@[simp] theorem State.setObjs_quads (s : State) (k : Nat) (v : Objects) : (s.setObjs k v).quads = s.quads := rfl
@[simp] theorem State.setObjs_parts (s : State) (k : Nat) (v : Objects) : (s.setObjs k v).parts = s.parts := rfl
@[simp] theorem State.setObjs_cmds (s : State) (k : Nat) (v : Objects) : (s.setObjs k v).cmds = s.cmds := rfl
@[simp] theorem State.setObjs_mlq (s : State) (k : Nat) (v : Objects) : (s.setObjs k v).mlq = s.mlq := rfl
@[simp] theorem State.setObjs_mlLog (s : State) (k : Nat) (v : Objects) : (s.setObjs k v).mlLog = s.mlLog := rfl
@[simp] theorem State.setObjs_hub (s : State) (k : Nat) (v : Objects) : (s.setObjs k v).hub = s.hub := rfl
@[simp] theorem State.setObjs_cycle (s : State) (k : Nat) (v : Objects) : (s.setObjs k v).cycle = s.cycle := rfl
@[simp] theorem State.setObjs_fresh (s : State) (k : Nat) (v : Objects) : (s.setObjs k v).fresh = s.fresh := rfl
@[simp] theorem State.setObjs_sched (s : State) (k : Nat) (v : Objects) : (s.setObjs k v).sched = s.sched := rfl
@[simp] theorem State.setObjs_inputs (s : State) (k : Nat) (v : Objects) : (s.setObjs k v).inputs = s.inputs := rfl
@[simp] theorem State.setObjs_timers (s : State) (k : Nat) (v : Objects) : (s.setObjs k v).timers = s.timers := rfl
@[simp] theorem State.setObjs_outbox (s : State) (k : Nat) (v : Objects) : (s.setObjs k v).outbox = s.outbox := rfl

/-! ## State.applyRegs -/

@[simp] theorem State.applyRegs_mem (s : State) (l : List RegWrite) : (s.applyRegs l).mem = s.mem := rfl
@[simp] theorem State.applyRegs_gz (s : State) (l : List RegWrite) : (s.applyRegs l).gz = s.gz := rfl
@[simp] theorem State.applyRegs_active (s : State) (l : List RegWrite) : (s.applyRegs l).active = s.active := rfl
@[simp] theorem State.applyRegs_others (s : State) (l : List RegWrite) : (s.applyRegs l).others = s.others := rfl
@[simp] theorem State.applyRegs_saved (s : State) (l : List RegWrite) : (s.applyRegs l).saved = s.saved := rfl
@[simp] theorem State.applyRegs_cores (s : State) (l : List RegWrite) : (s.applyRegs l).cores = s.cores := rfl
@[simp] theorem State.applyRegs_quads (s : State) (l : List RegWrite) : (s.applyRegs l).quads = s.quads := rfl
@[simp] theorem State.applyRegs_parts (s : State) (l : List RegWrite) : (s.applyRegs l).parts = s.parts := rfl
@[simp] theorem State.applyRegs_objects (s : State) (l : List RegWrite) : (s.applyRegs l).objects = s.objects := rfl
@[simp] theorem State.applyRegs_cmds (s : State) (l : List RegWrite) : (s.applyRegs l).cmds = s.cmds := rfl
@[simp] theorem State.applyRegs_mlq (s : State) (l : List RegWrite) : (s.applyRegs l).mlq = s.mlq := rfl
@[simp] theorem State.applyRegs_mlLog (s : State) (l : List RegWrite) : (s.applyRegs l).mlLog = s.mlLog := rfl
@[simp] theorem State.applyRegs_hub (s : State) (l : List RegWrite) : (s.applyRegs l).hub = s.hub := rfl
@[simp] theorem State.applyRegs_cycle (s : State) (l : List RegWrite) : (s.applyRegs l).cycle = s.cycle := rfl
@[simp] theorem State.applyRegs_fresh (s : State) (l : List RegWrite) : (s.applyRegs l).fresh = s.fresh := rfl
@[simp] theorem State.applyRegs_sched (s : State) (l : List RegWrite) : (s.applyRegs l).sched = s.sched := rfl
@[simp] theorem State.applyRegs_inputs (s : State) (l : List RegWrite) : (s.applyRegs l).inputs = s.inputs := rfl
@[simp] theorem State.applyRegs_timers (s : State) (l : List RegWrite) : (s.applyRegs l).timers = s.timers := rfl
@[simp] theorem State.applyRegs_outbox (s : State) (l : List RegWrite) : (s.applyRegs l).outbox = s.outbox := rfl

/-! ## State.emit -/

@[simp] theorem State.emit_mem (s : State) (o : Output) : (s.emit o).mem = s.mem := rfl
@[simp] theorem State.emit_gz (s : State) (o : Output) : (s.emit o).gz = s.gz := rfl
@[simp] theorem State.emit_cur (s : State) (o : Output) : (s.emit o).cur = s.cur := rfl
@[simp] theorem State.emit_active (s : State) (o : Output) : (s.emit o).active = s.active := rfl
@[simp] theorem State.emit_others (s : State) (o : Output) : (s.emit o).others = s.others := rfl
@[simp] theorem State.emit_saved (s : State) (o : Output) : (s.emit o).saved = s.saved := rfl
@[simp] theorem State.emit_cores (s : State) (o : Output) : (s.emit o).cores = s.cores := rfl
@[simp] theorem State.emit_quads (s : State) (o : Output) : (s.emit o).quads = s.quads := rfl
@[simp] theorem State.emit_parts (s : State) (o : Output) : (s.emit o).parts = s.parts := rfl
@[simp] theorem State.emit_objects (s : State) (o : Output) : (s.emit o).objects = s.objects := rfl
@[simp] theorem State.emit_cmds (s : State) (o : Output) : (s.emit o).cmds = s.cmds := rfl
@[simp] theorem State.emit_mlq (s : State) (o : Output) : (s.emit o).mlq = s.mlq := rfl
@[simp] theorem State.emit_mlLog (s : State) (o : Output) : (s.emit o).mlLog = s.mlLog := rfl
@[simp] theorem State.emit_hub (s : State) (o : Output) : (s.emit o).hub = s.hub := rfl
@[simp] theorem State.emit_cycle (s : State) (o : Output) : (s.emit o).cycle = s.cycle := rfl
@[simp] theorem State.emit_fresh (s : State) (o : Output) : (s.emit o).fresh = s.fresh := rfl
@[simp] theorem State.emit_sched (s : State) (o : Output) : (s.emit o).sched = s.sched := rfl
@[simp] theorem State.emit_inputs (s : State) (o : Output) : (s.emit o).inputs = s.inputs := rfl
@[simp] theorem State.emit_timers (s : State) (o : Output) : (s.emit o).timers = s.timers := rfl

/-! ## State.push -/

@[simp] theorem State.push_mem (s : State) (i : Instr) : (s.push i).mem = s.mem := rfl
@[simp] theorem State.push_gz (s : State) (i : Instr) : (s.push i).gz = s.gz := rfl
@[simp] theorem State.push_cur (s : State) (i : Instr) : (s.push i).cur = s.cur := rfl
@[simp] theorem State.push_active (s : State) (i : Instr) : (s.push i).active = s.active := rfl
@[simp] theorem State.push_others (s : State) (i : Instr) : (s.push i).others = s.others := rfl
@[simp] theorem State.push_saved (s : State) (i : Instr) : (s.push i).saved = s.saved := rfl
@[simp] theorem State.push_cores (s : State) (i : Instr) : (s.push i).cores = s.cores := rfl
@[simp] theorem State.push_quads (s : State) (i : Instr) : (s.push i).quads = s.quads := rfl
@[simp] theorem State.push_parts (s : State) (i : Instr) : (s.push i).parts = s.parts := rfl
@[simp] theorem State.push_objects (s : State) (i : Instr) : (s.push i).objects = s.objects := rfl
@[simp] theorem State.push_cmds (s : State) (i : Instr) : (s.push i).cmds = s.cmds := rfl
@[simp] theorem State.push_mlq (s : State) (i : Instr) : (s.push i).mlq = s.mlq := rfl
@[simp] theorem State.push_mlLog (s : State) (i : Instr) : (s.push i).mlLog = s.mlLog := rfl
@[simp] theorem State.push_hub (s : State) (i : Instr) : (s.push i).hub = s.hub := rfl
@[simp] theorem State.push_cycle (s : State) (i : Instr) : (s.push i).cycle = s.cycle := rfl
@[simp] theorem State.push_fresh (s : State) (i : Instr) : (s.push i).fresh = s.fresh := rfl
@[simp] theorem State.push_sched (s : State) (i : Instr) : (s.push i).sched = s.sched := rfl
@[simp] theorem State.push_timers (s : State) (i : Instr) : (s.push i).timers = s.timers := rfl
@[simp] theorem State.push_outbox (s : State) (i : Instr) : (s.push i).outbox = s.outbox := rfl

/-! ## State.timer -/

@[simp] theorem State.timer_mem (s : State) (i : Instr) : (s.timer i).mem = s.mem := rfl
@[simp] theorem State.timer_gz (s : State) (i : Instr) : (s.timer i).gz = s.gz := rfl
@[simp] theorem State.timer_cur (s : State) (i : Instr) : (s.timer i).cur = s.cur := rfl
@[simp] theorem State.timer_active (s : State) (i : Instr) : (s.timer i).active = s.active := rfl
@[simp] theorem State.timer_others (s : State) (i : Instr) : (s.timer i).others = s.others := rfl
@[simp] theorem State.timer_saved (s : State) (i : Instr) : (s.timer i).saved = s.saved := rfl
@[simp] theorem State.timer_cores (s : State) (i : Instr) : (s.timer i).cores = s.cores := rfl
@[simp] theorem State.timer_quads (s : State) (i : Instr) : (s.timer i).quads = s.quads := rfl
@[simp] theorem State.timer_parts (s : State) (i : Instr) : (s.timer i).parts = s.parts := rfl
@[simp] theorem State.timer_objects (s : State) (i : Instr) : (s.timer i).objects = s.objects := rfl
@[simp] theorem State.timer_cmds (s : State) (i : Instr) : (s.timer i).cmds = s.cmds := rfl
@[simp] theorem State.timer_mlq (s : State) (i : Instr) : (s.timer i).mlq = s.mlq := rfl
@[simp] theorem State.timer_mlLog (s : State) (i : Instr) : (s.timer i).mlLog = s.mlLog := rfl
@[simp] theorem State.timer_hub (s : State) (i : Instr) : (s.timer i).hub = s.hub := rfl
@[simp] theorem State.timer_cycle (s : State) (i : Instr) : (s.timer i).cycle = s.cycle := rfl
@[simp] theorem State.timer_fresh (s : State) (i : Instr) : (s.timer i).fresh = s.fresh := rfl
@[simp] theorem State.timer_sched (s : State) (i : Instr) : (s.timer i).sched = s.sched := rfl
@[simp] theorem State.timer_inputs (s : State) (i : Instr) : (s.timer i).inputs = s.inputs := rfl
@[simp] theorem State.timer_outbox (s : State) (i : Instr) : (s.timer i).outbox = s.outbox := rfl

/-! ## The field that an update writes -/

@[simp] theorem State.onCur_cur (s : State) (f : Thread → Thread) : (s.onCur f).cur = f s.cur := rfl

@[simp] theorem State.onProg_cur (s : State) (f : Progress → Progress) :
    (s.onProg f).cur = { s.cur with prog := f s.cur.prog } := rfl

@[simp] theorem State.onUser_cur (s : State) (f : UserRegs → UserRegs) :
    (s.onUser f).cur = { s.cur with user := f s.cur.user } := rfl

@[simp] theorem State.onConf_cur (s : State) (f : VConf → VConf) :
    (s.onConf f).cur = { s.cur with conf := f s.cur.conf } := rfl

@[simp] theorem State.writeS_cur (s : State) (d : BitVec 5) (v : Word) : (s.writeS d v).cur = s.cur.writeS d v := rfl

@[simp] theorem State.applyRegs_cur (s : State) (l : List RegWrite) :
    (s.applyRegs l).cur = { s.cur with vr := s.cur.vr.applyAll l } := rfl

@[simp] theorem State.raise_cur (s : State) (n : Nat) :
    (s.raise n).cur = { s.cur with user := { s.cur.user with fflags := s.cur.user.fflags ||| w64 n } } := rfl

@[simp] theorem State.putBytes_mem (s : State) (l : List Nat) (b : List Byte) :
    (s.putBytes l b).mem = s.mem.writeAll s.writer (l.zip b) := rfl

@[simp] theorem State.emit_outbox (s : State) (o : Output) : (s.emit o).outbox = s.outbox ++ [o] := rfl

@[simp] theorem State.push_inputs (s : State) (i : Instr) : (s.push i).inputs = s.inputs ++ [i] := rfl

@[simp] theorem State.timer_timers (s : State) (i : Instr) : (s.timer i).timers = s.timers ++ [i] := rfl

/-! ## Reading what was written -/

theorem State.core_setCore (s : State) (k j : Nat) (v : Core) :
    (s.setCore k v).core j = if j = k then v else s.core j := Table.get_set ..

theorem State.quad_setQuad (s : State) (k j : Nat) (v : Quad) :
    (s.setQuad k v).quad j = if j = k then v else s.quad j := Table.get_set ..

theorem State.part_setPart (s : State) (k j : Nat) (v : Part) :
    (s.setPart k v).part j = if j = k then v else s.part j := Table.get_set ..

theorem State.objs_setObjs (s : State) (k j : Nat) (v : Objects) :
    (s.setObjs k v).objs j = if j = k then v else s.objs j := Table.get_set ..

theorem Core.latOf_setLat (c : Core) (k j : Nat) (l : Lat) :
    (c.setLat k l).latOf j = if j = k then l else c.latOf j := Table.get_set ..

theorem Core.table_setTable (c : Core) (k j : Nat) (t : Option HTable) :
    (c.setTable k t).table j = if j = k then t else c.table j := Table.get_set ..

theorem Thread.queue_setQueue (t : Thread) (k j : Nat) (l : List Word) :
    (t.setQueue k l).queue j = if j = k then l else t.queue j := Table.get_set ..

/-! ## Scalar registers (R47, R48) -/

@[simp] theorem Thread.readS_zero (t : Thread) : t.readS 0#5 = 0#64 := rfl

@[simp] theorem Thread.writeS_zero (t : Thread) (v : Word) : t.writeS 0#5 v = t := rfl

/-- A scalar register read after a write. -/
theorem Thread.readS_writeS (t : Thread) (d r : BitVec 5) (v : Word) :
    (t.writeS d v).readS r = if r = d then (if d = 0#5 then 0#64 else v) else t.readS r := by
  unfold Thread.writeS Thread.readS
  by_cases hd : d = 0#5
  · subst hd; by_cases hr : r = 0#5 <;> simp [hr]
  · simp only [hd, if_false]
    by_cases hr : r = d
    · subst hr; simp [hd]
    · have hn : r.toNat ≠ d.toNat := fun h => hr (BitVec.eq_of_toNat_eq h)
      simp [hr, Table.get_set_other _ _ _ hn]

/-- A write to a scalar register changes the register file alone. -/
theorem Thread.writeS_eq (t : Thread) (d : BitVec 5) (v : Word) : t.writeS d v = { t with s := (t.writeS d v).s } := by
  unfold Thread.writeS; split <;> rfl

/-- The current thread's register read after a write. -/
theorem State.readS_writeS (s : State) (d r : BitVec 5) (v : Word) :
    (s.writeS d v).readS r = if r = d then (if d = 0#5 then 0#64 else v) else s.readS r :=
  Thread.readS_writeS ..

end Sys2Proof.Machine
end

