-- ==== Sys2Proof/Laws/Ops.lean ====
section
/-!
SUPPORT. What the shared operations can do: completing a word, the outcomes of an A-side word, taking a trap, and a
thread's own accesses to memory.
-/
namespace Sys2Proof.Machine

/-! ## Completing a word -/

theorem Thread.settleTag_eq (t : Thread) :
    t.settleTag = { t with prog := { t.prog with resend := t.settleTag.prog.resend } } := by
  unfold Thread.settleTag; split <;> [split; skip] <;> rfl

/-- Passing a word changes pc, the loop registers and the open request tag alone. -/
theorem Thread.advance_eq (t : Thread) :
    t.advance = { t with
      pc := t.advance.pc, loops := t.advance.loops, prog := { t.prog with resend := t.advance.prog.resend } } := by
  unfold Thread.advance; rw [Thread.settleTag_eq]; simp only; split <;> rfl

/-- The thread that completes a word is the thread past it. -/
theorem Thread.retired_advance (t : Thread) : t.advance.retired t.pc = t.past := by
  rw [Thread.advance_eq]; rfl

/-- A word that completes leaves the state but for the thread's progress. -/
theorem complete_eq (s : State) : complete s = { s with cur := s.cur.past } := by
  simp only [complete, State.onCur, Thread.retired_advance]

theorem Thread.settleTag_congr (t : Thread) (x : Table Word) :
    ({ t with s := x } : Thread).settleTag = { t.settleTag with s := x } := by
  have hl : ({ t with s := x } : Thread).level = t.level := rfl
  unfold Thread.settleTag
  rw [hl]
  cases Table.get t.prog.resend none t.level <;> simp only
  split <;> rfl

theorem Thread.advance_congr (t : Thread) (x : Table Word) :
    ({ t with s := x } : Thread).advance = { t.advance with s := x } := by
  unfold Thread.advance; rw [Thread.settleTag_congr]
  have hl : ({ t.settleTag with s := x } : Thread).loopsOn = t.settleTag.loopsOn := rfl
  by_cases h : t.settleTag.loopsOn = true
  · simp only [hl, h, if_true]
  · simp only [hl, h]; rfl

/-- What a thread reads in its scalar registers has no part in its progress. -/
theorem Thread.past_congr (t : Thread) (x : Table Word) :
    ({ t with s := x } : Thread).past = { t.past with s := x } := by
  rw [← Thread.retired_advance, ← Thread.retired_advance, Thread.advance_congr]; rfl

/-- The completion of a word that writes one scalar register. -/
theorem wrote_complete (d : BitVec 5) (v : Word) (s : State) : Wrote d v s (complete (s.writeS d v)) := by
  have hs : (complete (s.writeS d v)).cur.s = (s.cur.writeS d v).s := by rw [complete_eq]; rfl
  have hr : ∀ r, (complete (s.writeS d v)).readS r = (s.writeS d v).readS r := fun r => by
    simp only [State.readS, Thread.readS, hs]; rfl
  refine ⟨?_, fun r h => ?_, fun a => ?_, ?_⟩
  · rw [hr, State.readS_writeS, if_pos rfl]
  · rw [hr, State.readS_writeS, if_neg h]
  · rw [complete_eq]; rfl
  · rw [hs, complete_eq, State.writeS_cur]
    simp only [State.writeS]
    rw [Thread.writeS_eq s.cur d v, Thread.past_congr]

/-- A word that completes with no other effect. -/
theorem passed_complete (s : State) : Passed s (complete s) := complete_eq s

/-- What a completed jump leaves. -/
theorem completeJump_eq (target : Word) (s : State) :
    completeJump target s = { s with cur := { s.cur with
      pc := target
      loops := if s.cur.loopsOn then loopLeave s.cur.loops target else s.cur.loops
      prog := { s.cur.prog with
        instret := s.cur.prog.instret + 1#64, last := some s.cur.pc, reissue := false, wait := .none } } } := by
  unfold completeJump State.onCur Thread.retired
  cases h : s.cur.loopsOn <;> simp only [h, if_true] <;> rfl

/-- A completed jump, whatever the scalar registers hold. -/
theorem jumped_completeJump (target : Word) (s : State) (x : Table Word) :
    Jumped target s (completeJump target { s with cur := { s.cur with s := x } }) := by
  rw [completeJump_eq]; exact ⟨rfl, rfl, rfl⟩

theorem completeJump_s (target : Word) (s : State) : (completeJump target s).cur.s = s.cur.s := by
  rw [completeJump_eq]

/-- A word whose next PC is given. -/
theorem completeAt_eq (target : Word) (s : State) :
    completeAt target s = { s with cur := { s.cur with
      pc := target
      prog := { s.cur.prog with
        instret := s.cur.prog.instret + 1#64, last := some s.cur.pc, reissue := false, wait := .none } } } := rfl

/-! ## The outcomes of an A-side word -/

/-- An A-side word whose body is done completes. -/
theorem aside_ok {fr : Bool} {fin : State → State} {body : State → Except Stop State} {s u : State}
    (hf : s.cur.framing = none) (hp : fr = true ∨ s.cur.trapPending = false) (hb : body s = .ok u) :
    aside fr fin body s = .next (fin u) := by
  unfold aside asideAs
  rw [hf]
  have : (!fr && s.cur.trapPending) = false := by rcases hp with h | h <;> simp [h]
  simp [this, hb, finishWith]

/-- An A-side word whose body raises a trap takes it at once where the E-side is idle. -/
theorem aside_trap {fr : Bool} {fin : State → State} {body : State → Except Stop State} {s : State} {x : Trap}
    (hi : s.idle) (hb : body s = .error (.trap x)) : aside fr fin body s = .next (takeTrap s x) := by
  unfold aside asideAs
  rw [hi.1]
  have : s.cur.trapPending = false := by simp [Thread.trapPending, hi.2]
  simp [this, hb, finishWith, trapWhen, hi.2]

/-- An A-side word that waits. -/
theorem aside_wait {fr : Bool} {fin : State → State} {body : State → Except Stop State} {s : State} {w : WaitOn}
    (hf : s.cur.framing = none) (hp : fr = true ∨ s.cur.trapPending = false) (hb : body s = .error (.wait w)) :
    aside fr fin body s = .next (s.waits w) := by
  unfold aside asideAs
  rw [hf]
  have : (!fr && s.cur.trapPending) = false := by rcases hp with h | h <;> simp [h]
  simp [this, hb, finishWith]

/-- An A-side word always answers a next state. -/
theorem aside_next (fr : Bool) (fin : State → State) (body : State → Except Stop State) (s : State) :
    ∃ t, aside fr fin body s = .next t := by
  unfold aside asideAs finishWith trapWhen
  repeat' split
  all_goals exact ⟨_, rfl⟩

/-- A word that computes one scalar register completes with it. -/
theorem asideReg_wrote (f : State → Word) (d : BitVec 5) (s : State) (hf : s.unframed) :
    ∃ t, asideReg (fun s => s.writeS d (f s)) s = .next t ∧ Wrote d (f s) s t :=
  ⟨_, aside_ok hf (.inl rfl) rfl, wrote_complete ..⟩

/-! ## Taking a trap -/

theorem State.logPf_cur (s : State) (addr : Word) (part unit : Nat) (synd : BitVec 32) (cls cause : Nat) :
    (s.logPf addr part unit synd cls cause).cur = s.cur := by
  unfold State.logPf; simp only; split <;> rfl

/-- A log record leaves every thread alone. -/
theorem State.logError_cur (s : State) (part : Nat) (addr : Word) (unit : Nat) (synd : BitVec 32) (cls cause : Nat) :
    (s.logError part addr unit synd cls cause).cur = s.cur := by
  unfold State.logError; simp only
  repeat' split
  all_goals simp only [State.logPf_cur, State.setPart_cur]

theorem State.haltPart_cur (s : State) (pn : Nat) (addr : Word) (unit cause : Nat) :
    (s.haltPart pn addr unit cause).cur = s.cur := by
  unfold State.haltPart; simp only [State.emit_cur, State.logError_cur, State.setPart_cur]

theorem State.logViolation_cur (s : State) (pn c : Nat) (a : Word) : (s.logViolation pn c a).cur = s.cur := by
  unfold State.logViolation; split
  · exact State.logError_cur ..
  · rfl

theorem State.logCause_cur (s : State) (x : Trap) : (s.logCause x).cur = s.cur := by
  unfold State.logCause
  repeat' split
  · rfl
  · exact State.logError_cur ..
  · rw [State.emit_cur, State.logError_cur]
  · rfl

/-- Trap entry changes, of the thread, pc, ring, the handler registers and the user's trap registers, the reissue flag,
the wait and the convoy being framed, and nothing else (R107, R474). -/
def Thread.entered (t u : Thread) : Prop :=
  u = { t with
    pc := u.pc, ring := u.ring, rings := u.rings
    user := { t.user with ustatus := u.user.ustatus, uepc := u.user.uepc, ucause := u.user.ucause }
    prog := { t.prog with reissue := u.prog.reissue, wait := u.prog.wait }
    framing := none }

theorem Thread.entered_refl {t : Thread} (h : t.framing = none) : t.entered t := by
  unfold Thread.entered; rw [← h]

theorem State.enterRing_entered (s : State) (x : Trap) (r : Nat) (epc cause : Word) (h : s.cur.framing = none) :
    s.cur.entered (s.enterRing x r epc cause).cur := by
  unfold Thread.entered State.enterRing; rw [← h]

theorem State.deliver_entered (x : Trap) (epc : Word) (n : Nat) : ∀ (s : State) (r : Nat) (b : Bool) (o : Nat),
    s.cur.framing = none → s.cur.entered (s.deliver x epc n r b o).cur := by
  induction n with
  | zero =>
    intro s r b o h; rw [State.deliver, State.haltPart_cur]; exact Thread.entered_refl h
  | succ n ih =>
    intro s r b o h
    rw [State.deliver]
    split
    · rw [State.haltPart_cur]; exact Thread.entered_refl h
    · simp only
      split
      · exact ih s _ _ _ h
      · split
        · exact State.enterRing_entered _ _ _ _ _ h
        · split
          · next c a _ =>
            have hv := ih (s.logViolation s.pn c a) (r + 1) true o (by rw [State.logViolation_cur]; exact h)
            rwa [State.logViolation_cur] at hv
          · exact State.enterRing_entered _ _ _ _ _ h

/-- What the delivery of a trap changes of the current thread. -/
theorem deliverTrap_entered (s : State) (x : Trap) : s.cur.entered (deliverTrap s x).cur := by
  have key : ∀ (u : State), u.cur = { s.cur with framing := none } →
      ∀ v : State, u.cur.entered v.cur → s.cur.entered v.cur := by
    intro u hu v hv; rw [hu] at hv; exact hv
  have hc : ({ s.logCause x with cur := { s.cur with framing := none } } : State).cur = { s.cur with framing := none } := rfl
  unfold deliverTrap
  simp only
  split
  · split
    · exact key _ hc _ (State.deliver_entered _ _ _ _ _ _ _ rfl)
    · split
      · exact rfl
      · exact key _ hc _ (State.deliver_entered _ _ _ _ _ _ _ rfl)
  · split
    · exact key _ hc _ (State.deliver_entered _ _ _ _ _ _ _ rfl)
    · exact key _ hc _ (State.deliver_entered _ _ _ _ _ _ _ rfl)

/-- A trap waits while an engine owns a line of its record, and is delivered else. -/
theorem takeTrap_cases (s : State) (x : Trap) :
    (s.recordHeld x = true ∧ takeTrap s x = s.onCur (fun t =>
      { t with framing := none, prog := { t.prog with wait := .retry (.trap x) } })) ∨
    (s.recordHeld x = false ∧ takeTrap s x = deliverTrap s x) := by
  unfold takeTrap
  cases h : s.recordHeld x
  · exact .inr ⟨rfl, rfl⟩
  · exact .inl ⟨rfl, rfl⟩

/-- What taking a trap changes of the current thread. -/
theorem takeTrap_entered (s : State) (x : Trap) : s.cur.entered (takeTrap s x).cur := by
  obtain ⟨-, h⟩ | ⟨-, h⟩ := takeTrap_cases s x <;> rw [h]
  · exact rfl
  · exact deliverTrap_entered s x

/-- Taking a trap changes no scalar register. -/
theorem takeTrap_readS (s : State) (x : Trap) (r : BitVec 5) : (takeTrap s x).readS r = s.readS r := by
  have h := takeTrap_entered s x
  unfold Thread.entered at h
  unfold State.readS Thread.readS
  rw [h]

/-- The condition under which any A-side word may run holds where the E-side is idle. -/
theorem State.idle_free {s : State} (h : s.idle) : s.free := ⟨h.1, by simp [Thread.trapPending, h.2]⟩

end Sys2Proof.Machine
end

