-- ==== Sys2Proof/Laws/Eside.lean ====
section
/-!
SUPPORT. What a word of the E-side that is a convoy of its own comes to, where nothing waits before it (02 R43 to R46): its
effect in a state that is past the word, then what its retiring adds, or the trap or the wait that it meets.
-/
namespace Sys2Proof.Machine

/-- The convoy of one word, as dispatched. -/
def soloConvoy (i : Instr) (sa sb : Word) (s : State) : Convoy :=
  let c := s.cur.conf
  { Convoy.open s.cur with
    members := [⟨i, sa, sb, c.fmask, s.cur.mat.chk⟩]
    vl := c.vl, vtype := c.vtype, grant := c.grant, tgrant := c.tgrant, popped := s.cur.recorded
    sregs := s.cur.s, instret := s.cur.prog.instret, chk := s.cur.mat.chk }

/-- The state that its effect acts on. -/
def soloState (s : State) (v : Convoy) : State :=
  { s with cur := { s.cur with
    pc := s.cur.advance.pc
    loops := s.cur.advance.loops
    framing := none
    viq := [.convoy v]
    prog := { s.cur.prog with
      wait := .none, last := some s.cur.pc, reissue := false, wpops := Table.set s.cur.prog.wpops none s.cur.level none } } }

theorem capture_alone (f : BitVec 4096) (chk : Bool) (i : Instr) (sa sb : Word) (x : BitVec 4096) (y : Bool)
    (hm : ∀ c d e w t, i ≠ .mchk c d e w t) :
    capture f chk [⟨i, sa, sb, x, y⟩] = ([⟨i, sa, sb, f, chk⟩], chk) := by
  cases i <;> first | rfl | exact absurd rfl (hm _ _ _ _ _)

/-- The first entry of the pending work waits behind no earlier work. -/
theorem convoyHeld_nil (r : VRegs) (v : Convoy) : convoyHeld r [] v = false := by
  simp [convoyHeld, busyPlaces, placesBefore, placesMeet]

/-- One convoy, alone in the pending work. -/
theorem drain_alone {s : State} {v : Convoy} (h : s.cur.viq = [.convoy v]) :
    drain 1 0 s = match runMembers (v.members.drop v.done) v s with
      | .retired v' s' => retire 0 v' s'
      | .blocked v' s' => s'.setEntry 0 (.convoy v')
      | .trapped s' => s' := by
  rw [drain, h]
  simp only [List.getElem?_cons_zero, List.take_zero, takeEntry, convoyHeld_nil, List.isEmpty_nil, if_true]
  cases runMembers (v.members.drop v.done) v s <;> rfl

theorem dispatch_alone {i : Instr} {sa sb : Word} {s : State} (h : s.idle)
    (hr : needsRows i = true → s.cur.conf.tgrant ≠ 0) (hm : ∀ c d e w t, i ≠ .mchk c d e w t) :
    dispatch { Convoy.open s.cur with members := [⟨i, sa, sb, 0, false⟩] } s =
      .next (drain 1 0 (soloState s (soloConvoy i sa sb s))) := by
  obtain ⟨hf, hv⟩ := h
  have hn : (decide (s.cur.conf.tgrant = 0) && needsRows i) = false := by
    cases hh : needsRows i <;> simp
    exact hr hh
  simp only [dispatch, dispatchAs, capture_alone _ _ _ _ _ _ _ hm]
  simp [idempotent, meet, hn, hv, State.drainAll, State.onCur, soloState, soloConvoy, Convoy.open, Thread.recorded]
  rw [Thread.advance_eq]
  rfl

/-- A word of the E-side alone, its checks passed. -/
theorem eside_alone {i : Instr} {sa sb : Word} {s : State} (h : s.idle)
    (hr : needsRows i = true → s.cur.conf.tgrant ≠ 0) (hm : ∀ c d e w t, i ≠ .mchk c d e w t) :
    eside i 0#1 sa sb true s =
      .next (match runMembers [⟨i, sa, sb, s.cur.conf.fmask, s.cur.mat.chk⟩] (soloConvoy i sa sb s)
          (soloState s (soloConvoy i sa sb s)) with
        | .retired v s' => retire 0 v s'
        | .blocked v s' => s'.setEntry 0 (.convoy v)
        | .trapped s' => s') := by
  refine Eq.trans ?_
    (congrArg _ (drain_alone (s := soloState s (soloConvoy i sa sb s)) (v := soloConvoy i sa sb s) rfl))
  rw [← dispatch_alone h hr hm]
  simp [eside, h.1, Convoy.open, Thread.convoys, h.2]

/-- A word of the E-side whose checks fail raises ILLEGAL. -/
theorem eside_illegal {i : Instr} {c : BitVec 1} {sa sb : Word} {s : State} (h : s.idle) :
    eside i c sa sb false s = .next (takeTrap s { cause := 0x01, eside := true, epc := some s.cur.pc }) := by
  simp [eside, h.1, h.2, Thread.convoys, trapWhen, Convoy.open, cIllegal]

/-- An effect that needs no token is followed by the retiring. -/
theorem eside_done {i : Instr} {sa sb : Word} {s u : State} (h : s.idle)
    (hr : needsRows i = true → s.cur.conf.tgrant ≠ 0) (hm : ∀ c d e w t, i ≠ .mchk c d e w t)
    (ht : (tokensOf i).1 = false ∧ (tokensOf i).2.1 = false)
    (he : effect i (soloConvoy i sa sb s) ⟨i, sa, sb, s.cur.conf.fmask, s.cur.mat.chk⟩
      (soloState s (soloConvoy i sa sb s)) = .done u) :
    eside i 0#1 sa sb true s = .next (retire 0 (soloConvoy i sa sb s) u) := by
  rw [eside_alone h hr hm]
  simp [runMembers, he, takeTokens, ht.1, ht.2]
  rfl

/-- An effect that needs no token and traps. -/
theorem eside_trap {i : Instr} {sa sb : Word} {s : State} {x : Trap} (h : s.idle)
    (hr : needsRows i = true → s.cur.conf.tgrant ≠ 0) (hm : ∀ c d e w t, i ≠ .mchk c d e w t)
    (ht : (tokensOf i).1 = false ∧ (tokensOf i).2.1 = false)
    (he : effect i (soloConvoy i sa sb s) ⟨i, sa, sb, s.cur.conf.fmask, s.cur.mat.chk⟩
      (soloState s (soloConvoy i sa sb s)) = .trap x) :
    eside i 0#1 sa sb true s =
      .next (eTrap (soloConvoy i sa sb s) x (soloState s (soloConvoy i sa sb s))) := by
  rw [eside_alone h hr hm]
  simp [runMembers, he, takeTokens, ht.1, ht.2]

/-- Register writes and flags, and the retiring after them. -/
theorem retire_regs {i : Instr} {sa sb : Word} {s : State} (ws : List RegWrite) (fl : Nat) (h : s.idle) :
    retire 0 (soloConvoy i sa sb s) (((soloState s (soloConvoy i sa sb s)).applyRegs ws).raise fl) =
      { s.ran with cur := { s.ran.cur with
        vr := s.cur.vr.applyAll ws
        user := { s.cur.user with fflags := s.cur.user.fflags ||| BitVec.ofNat 64 fl } } } := by
  obtain ⟨hf, hv⟩ := h
  simp [retire, State.leaveViq, State.raise, State.onUser, State.onPast, State.onCur, soloState, State.applyRegs, State.ran,
    w64, soloConvoy, Convoy.open, hf, hv]
  intro a _
  by_cases e : a.thread = s.cur.id <;> simp only [e, true_and, false_and, if_true, if_false]
  by_cases h0 : 0 < a.ahead <;> simp only [h0, if_true, if_false]
  cases a; simp_all

/-- Every word of the E-side joins its convoy with what it brings. -/
theorem esideWord_exec {s : State} {i : Instr} {c : BitVec 1} {sa sb : Word} {ok : Bool}
    (h : s.esideWord i = some (c, sa, sb, ok)) : exec i s = eside i c sa sb ok s := by
  cases i <;> first
    | (simp only [State.esideWord] at h; obtain ⟨rfl, rfl, rfl, rfl⟩ := h; rfl)
    | (simp only [State.esideWord, reduceCtorEq] at h)

end Sys2Proof.Machine
end

