-- ==== Sys2Proof/Laws/PerInstr.lean ====
section
/-!
SUPPORT. One lemma for each constructor of Instr: the decoder reads the word of a well-formed instruction as that
instruction (02 R33 to R40). layout<k> says which bits each field of a word layout takes.
-/
set_option Elab.async false

namespace Sys2Proof.Laws

/-- Bits above the last part of a joined word lie in what stands before it. -/
theorem ex_hi {n k : Nat} (x : BitVec k) (y : BitVec n) (lo len : Nat) (hl : n ≤ lo) :
    BitVec.extractLsb' lo len (x ++ y) = x.extractLsb' (lo - n) len := by
  apply BitVec.eq_of_getLsbD_eq
  intro i hi
  have h : ¬ lo + i < n := by omega
  simp only [BitVec.getLsbD_extractLsb', BitVec.getLsbD_append, hi, decide_true, Bool.true_and, h, if_false]
  congr 1
  omega

/-- The last part of a joined word stands in its lowest bits. -/
theorem ex_lo {n k : Nat} (x : BitVec k) (y : BitVec n) : BitVec.extractLsb' 0 n (x ++ y) = y := by
  apply BitVec.eq_of_getLsbD_eq
  intro i hi
  simp [BitVec.getLsbD_append, hi]

/-- All bits of a word are the word. -/
theorem ex_all {n : Nat} (y : BitVec n) : BitVec.extractLsb' 0 n y = y := by simp

/-- A word whose fields name a well-formed instruction decodes to it. -/
theorem decode_of {w : BitVec 32} {i : Instr} (h : decodeFields w = .ok i) (hw : i.wellFormed = true) :
    decode w = .ok i := by simp [decode, h, hw]

theorem major_1 {w : BitVec 32} (h31 : fld w 31 1 = 0#1) (h25 : fld w 25 6 = 1#6) : decodeFields w = decodeInt w := by
  simp [decodeFields, isASideMajor, h25, h31, decodeASide]

theorem major_2 {w : BitVec 32} (h31 : fld w 31 1 = 0#1) (h25 : fld w 25 6 = 2#6) : decodeFields w = decodeAddi w := by
  simp [decodeFields, isASideMajor, h25, h31, decodeASide]

theorem major_3 {w : BitVec 32} (h31 : fld w 31 1 = 0#1) (h25 : fld w 25 6 = 3#6) : decodeFields w = decodeImm w := by
  simp [decodeFields, isASideMajor, h25, h31, decodeASide]

theorem major_4 {w : BitVec 32} (h31 : fld w 31 1 = 0#1) (h25 : fld w 25 6 = 4#6) : decodeFields w = decodeHi w := by
  simp [decodeFields, isASideMajor, h25, h31, decodeASide]

theorem major_5 {w : BitVec 32} (h31 : fld w 31 1 = 0#1) (h25 : fld w 25 6 = 5#6) : decodeFields w = decodePcadd w := by
  simp [decodeFields, isASideMajor, h25, h31, decodeASide]

theorem major_6 {w : BitVec 32} (h31 : fld w 31 1 = 0#1) (h25 : fld w 25 6 = 6#6) : decodeFields w = decodeLd w := by
  simp [decodeFields, isASideMajor, h25, h31, decodeASide]

theorem major_7 {w : BitVec 32} (h31 : fld w 31 1 = 0#1) (h25 : fld w 25 6 = 7#6) : decodeFields w = decodeSt w := by
  simp [decodeFields, isASideMajor, h25, h31, decodeASide]

theorem major_8 {w : BitVec 32} (h31 : fld w 31 1 = 0#1) (h25 : fld w 25 6 = 8#6) : decodeFields w = decodeBr w := by
  simp [decodeFields, isASideMajor, h25, h31, decodeASide]

theorem major_9 {w : BitVec 32} (h31 : fld w 31 1 = 0#1) (h25 : fld w 25 6 = 9#6) : decodeFields w = decodeJal w := by
  simp [decodeFields, isASideMajor, h25, h31, decodeASide]

theorem major_10 {w : BitVec 32} (h31 : fld w 31 1 = 0#1) (h25 : fld w 25 6 = 10#6) : decodeFields w = decodeJalr w := by
  simp [decodeFields, isASideMajor, h25, h31, decodeASide]

theorem major_11 {w : BitVec 32} (h31 : fld w 31 1 = 0#1) (h25 : fld w 25 6 = 11#6) : decodeFields w = decodeLoop w := by
  simp [decodeFields, isASideMajor, h25, h31, decodeASide]

theorem major_12 {w : BitVec 32} (h31 : fld w 31 1 = 0#1) (h25 : fld w 25 6 = 12#6) : decodeFields w = decodeQue w := by
  simp [decodeFields, isASideMajor, h25, h31, decodeASide]

theorem major_13 {w : BitVec 32} (h31 : fld w 31 1 = 0#1) (h25 : fld w 25 6 = 13#6) : decodeFields w = decodeFps w := by
  simp [decodeFields, isASideMajor, h25, h31, decodeASide]

theorem major_14 {w : BitVec 32} (h31 : fld w 31 1 = 0#1) (h25 : fld w 25 6 = 14#6) : decodeFields w = decodeAmo w := by
  simp [decodeFields, isASideMajor, h25, h31, decodeASide]

theorem major_15 {w : BitVec 32} (h31 : fld w 31 1 = 0#1) (h25 : fld w 25 6 = 15#6) : decodeFields w = decodeSync w := by
  simp [decodeFields, isASideMajor, h25, h31, decodeASide]

theorem major_16 {w : BitVec 32} (h31 : fld w 31 1 = 0#1) (h25 : fld w 25 6 = 16#6) : decodeFields w = decodeSbar w := by
  simp [decodeFields, isASideMajor, h25, h31, decodeASide]

theorem major_17 {w : BitVec 32} (h31 : fld w 31 1 = 0#1) (h25 : fld w 25 6 = 17#6) : decodeFields w = decodeSys w := by
  simp [decodeFields, isASideMajor, h25, h31, decodeASide]

theorem major_18 {w : BitVec 32} (h31 : fld w 31 1 = 0#1) (h25 : fld w 25 6 = 18#6) : decodeFields w = decodeSysx w := by
  simp [decodeFields, isASideMajor, h25, h31, decodeASide]

theorem major_19 {w : BitVec 32} (h31 : fld w 31 1 = 0#1) (h25 : fld w 25 6 = 19#6) : decodeFields w = decodeLnch w := by
  simp [decodeFields, isASideMajor, h25, h31, decodeASide]

theorem major_20 {w : BitVec 32} (h31 : fld w 31 1 = 0#1) (h25 : fld w 25 6 = 20#6) : decodeFields w = decodeHctl w := by
  simp [decodeFields, isASideMajor, h25, h31, decodeASide]

theorem major_21 {w : BitVec 32} (h31 : fld w 31 1 = 0#1) (h25 : fld w 25 6 = 21#6) : decodeFields w = decodeStg w := by
  simp [decodeFields, isASideMajor, h25, h31, decodeASide]

theorem major_22 {w : BitVec 32} (h31 : fld w 31 1 = 0#1) (h25 : fld w 25 6 = 22#6) : decodeFields w = decodeEng w := by
  simp [decodeFields, isASideMajor, h25, h31, decodeASide]

theorem major_23 {w : BitVec 32} (h31 : fld w 31 1 = 0#1) (h25 : fld w 25 6 = 23#6) : decodeFields w = decodeEngb w := by
  simp [decodeFields, isASideMajor, h25, h31, decodeASide]

theorem major_24 {w : BitVec 32} (h31 : fld w 31 1 = 0#1) (h25 : fld w 25 6 = 24#6) : decodeFields w = decodeAtt w := by
  simp [decodeFields, isASideMajor, h25, h31, decodeASide]

theorem major_25 {w : BitVec 32} (h31 : fld w 31 1 = 0#1) (h25 : fld w 25 6 = 25#6) : decodeFields w = decodeVld w := by
  simp [decodeFields, isASideMajor, h25, h31, decodeASide]

theorem major_26 {w : BitVec 32} (h31 : fld w 31 1 = 0#1) (h25 : fld w 25 6 = 26#6) : decodeFields w = decodeVst w := by
  simp [decodeFields, isASideMajor, h25, h31, decodeASide]

theorem major_27 {w : BitVec 32} (h31 : fld w 31 1 = 0#1) (h25 : fld w 25 6 = 27#6) : decodeFields w = decodeVlds w := by
  simp [decodeFields, isASideMajor, h25, h31, decodeASide]

theorem major_28 {w : BitVec 32} (h31 : fld w 31 1 = 0#1) (h25 : fld w 25 6 = 28#6) : decodeFields w = decodeVamo w := by
  simp [decodeFields, isASideMajor, h25, h31, decodeASide]

theorem major_29 {w : BitVec 32} (h31 : fld w 31 1 = 0#1) (h25 : fld w 25 6 = 29#6) : decodeFields w = decodeSpm w := by
  simp [decodeFields, isASideMajor, h25, h31, decodeASide]

theorem major_30 {w : BitVec 32} (h31 : fld w 31 1 = 0#1) (h25 : fld w 25 6 = 30#6) : decodeFields w = decodeHop w := by
  simp [decodeFields, isASideMajor, h25, h31, decodeASide]

theorem major_31 {w : BitVec 32} (h31 : fld w 31 1 = 0#1) (h25 : fld w 25 6 = 31#6) : decodeFields w = decodeVtxn w := by
  simp [decodeFields, isASideMajor, h25, h31, decodeASide]

theorem major_32 {w : BitVec 32} (h31 : fld w 31 1 = 0#1) (h25 : fld w 25 6 = 32#6) : decodeFields w = decodeGeo w := by
  simp [decodeFields, isASideMajor, h25, h31, decodeASide]

theorem major_33 {w : BitVec 32} (h31 : fld w 31 1 = 0#1) (h25 : fld w 25 6 = 33#6) : decodeFields w = decodeMvld w := by
  simp [decodeFields, isASideMajor, h25, h31, decodeASide]

theorem major_34 {w : BitVec 32} (h31 : fld w 31 1 = 0#1) (h25 : fld w 25 6 = 34#6) : decodeFields w = decodeVcfg w := by
  simp [decodeFields, isASideMajor, h25, h31, decodeASide]

theorem major_35 {w : BitVec 32} (h31 : fld w 31 1 = 0#1) (h25 : fld w 25 6 = 35#6) : decodeFields w = decodeSettypei w := by
  simp [decodeFields, isASideMajor, h25, h31, decodeASide]

theorem major_40 {w : BitVec 32} (h25 : fld w 25 6 = 40#6) : decodeFields w = decodeVint w := by
  simp [decodeFields, isASideMajor, isESideMajor, h25, decodeESide]

theorem major_41 {w : BitVec 32} (h25 : fld w 25 6 = 41#6) : decodeFields w = decodeVints w := by
  simp [decodeFields, isASideMajor, isESideMajor, h25, decodeESide]

theorem major_42 {w : BitVec 32} (h25 : fld w 25 6 = 42#6) : decodeFields w = decodeVfp w := by
  simp [decodeFields, isASideMajor, isESideMajor, h25, decodeESide]

theorem major_43 {w : BitVec 32} (h25 : fld w 25 6 = 43#6) : decodeFields w = decodeVfps w := by
  simp [decodeFields, isASideMajor, isESideMajor, h25, decodeESide]

theorem major_44 {w : BitVec 32} (h25 : fld w 25 6 = 44#6) : decodeFields w = decodeVcmp w := by
  simp [decodeFields, isASideMajor, isESideMajor, h25, decodeESide]

theorem major_45 {w : BitVec 32} (h25 : fld w 25 6 = 45#6) : decodeFields w = decodePred w := by
  simp [decodeFields, isASideMajor, isESideMajor, h25, decodeESide]

theorem major_46 {w : BitVec 32} (h25 : fld w 25 6 = 46#6) : decodeFields w = decodePerm w := by
  simp [decodeFields, isASideMajor, isESideMajor, h25, decodeESide]

theorem major_47 {w : BitVec 32} (h25 : fld w 25 6 = 47#6) : decodeFields w = decodeVred w := by
  simp [decodeFields, isASideMajor, isESideMajor, h25, decodeESide]

theorem major_48 {w : BitVec 32} (h25 : fld w 25 6 = 48#6) : decodeFields w = decodeVcpx w := by
  simp [decodeFields, isASideMajor, isESideMajor, h25, decodeESide]

theorem major_49 {w : BitVec 32} (h25 : fld w 25 6 = 49#6) : decodeFields w = decodeVcvt w := by
  simp [decodeFields, isASideMajor, isESideMajor, h25, decodeESide]

theorem major_50 {w : BitVec 32} (h25 : fld w 25 6 = 50#6) : decodeFields w = decodeMvp w := by
  simp [decodeFields, isASideMajor, isESideMajor, h25, decodeESide]

theorem major_51 {w : BitVec 32} (h25 : fld w 25 6 = 51#6) : decodeFields w = decodeMvu w := by
  simp [decodeFields, isASideMajor, isESideMajor, h25, decodeESide]

theorem major_52 {w : BitVec 32} (h25 : fld w 25 6 = 52#6) : decodeFields w = decodeMvm w := by
  simp [decodeFields, isASideMajor, isESideMajor, h25, decodeESide]

theorem major_53 {w : BitVec 32} (h25 : fld w 25 6 = 53#6) : decodeFields w = decodeMvs w := by
  simp [decodeFields, isASideMajor, isESideMajor, h25, decodeESide]

theorem major_54 {w : BitVec 32} (h25 : fld w 25 6 = 54#6) : decodeFields w = decodeMat w := by
  simp [decodeFields, isASideMajor, isESideMajor, h25, decodeESide]

theorem major_55 {w : BitVec 32} (h25 : fld w 25 6 = 55#6) : decodeFields w = decodeVtok w := by
  simp [decodeFields, isASideMajor, isESideMajor, h25, decodeESide]

theorem layout0 (x0 : BitVec 1) (x1 : BitVec 6) (x2 : BitVec 5) (x3 : BitVec 5) (x4 : BitVec 5) (x5 : BitVec 3) (x6 : BitVec 1) (x7 : BitVec 6) {w : BitVec 32} (h : x0 ++ x1 ++ x2 ++ x3 ++ x4 ++ x5 ++ x6 ++ x7 = w) :
    fld w 31 1 = x0 ∧
    fld w 25 6 = x1 ∧
    fld w 20 5 = x2 ∧
    fld w 15 5 = x3 ∧
    fld w 10 5 = x4 ∧
    fld w 7 3 = x5 ∧
    fld w 6 1 = x6 ∧
    fld w 0 6 = x7 := by
  subst h
  exact ⟨(ex_hi (k := 26) (n := 6) _ _ _ _ (by decide)).trans ((ex_hi (k := 25) (n := 1) _ _ _ _ (by decide)).trans ((ex_hi (k := 22) (n := 3) _ _ _ _ (by decide)).trans ((ex_hi (k := 17) (n := 5) _ _ _ _ (by decide)).trans ((ex_hi (k := 12) (n := 5) _ _ _ _ (by decide)).trans ((ex_hi (k := 7) (n := 5) _ _ _ _ (by decide)).trans ((ex_hi (k := 1) (n := 6) _ _ _ _ (by decide)).trans (ex_all _))))))),
    (ex_hi (k := 26) (n := 6) _ _ _ _ (by decide)).trans ((ex_hi (k := 25) (n := 1) _ _ _ _ (by decide)).trans ((ex_hi (k := 22) (n := 3) _ _ _ _ (by decide)).trans ((ex_hi (k := 17) (n := 5) _ _ _ _ (by decide)).trans ((ex_hi (k := 12) (n := 5) _ _ _ _ (by decide)).trans ((ex_hi (k := 7) (n := 5) _ _ _ _ (by decide)).trans (ex_lo _ _)))))),
    (ex_hi (k := 26) (n := 6) _ _ _ _ (by decide)).trans ((ex_hi (k := 25) (n := 1) _ _ _ _ (by decide)).trans ((ex_hi (k := 22) (n := 3) _ _ _ _ (by decide)).trans ((ex_hi (k := 17) (n := 5) _ _ _ _ (by decide)).trans ((ex_hi (k := 12) (n := 5) _ _ _ _ (by decide)).trans (ex_lo _ _))))),
    (ex_hi (k := 26) (n := 6) _ _ _ _ (by decide)).trans ((ex_hi (k := 25) (n := 1) _ _ _ _ (by decide)).trans ((ex_hi (k := 22) (n := 3) _ _ _ _ (by decide)).trans ((ex_hi (k := 17) (n := 5) _ _ _ _ (by decide)).trans (ex_lo _ _)))),
    (ex_hi (k := 26) (n := 6) _ _ _ _ (by decide)).trans ((ex_hi (k := 25) (n := 1) _ _ _ _ (by decide)).trans ((ex_hi (k := 22) (n := 3) _ _ _ _ (by decide)).trans (ex_lo _ _))),
    (ex_hi (k := 26) (n := 6) _ _ _ _ (by decide)).trans ((ex_hi (k := 25) (n := 1) _ _ _ _ (by decide)).trans (ex_lo _ _)),
    (ex_hi (k := 26) (n := 6) _ _ _ _ (by decide)).trans (ex_lo _ _),
    ex_lo _ _⟩

theorem layout1 (x0 : BitVec 1) (x1 : BitVec 6) (x2 : BitVec 5) (x3 : BitVec 5) (x4 : BitVec 8) (x5 : BitVec 1) (x6 : BitVec 6) {w : BitVec 32} (h : x0 ++ x1 ++ x2 ++ x3 ++ x4 ++ x5 ++ x6 = w) :
    fld w 31 1 = x0 ∧
    fld w 25 6 = x1 ∧
    fld w 20 5 = x2 ∧
    fld w 15 5 = x3 ∧
    fld w 7 8 = x4 ∧
    fld w 6 1 = x5 ∧
    fld w 0 6 = x6 := by
  subst h
  exact ⟨(ex_hi (k := 26) (n := 6) _ _ _ _ (by decide)).trans ((ex_hi (k := 25) (n := 1) _ _ _ _ (by decide)).trans ((ex_hi (k := 17) (n := 8) _ _ _ _ (by decide)).trans ((ex_hi (k := 12) (n := 5) _ _ _ _ (by decide)).trans ((ex_hi (k := 7) (n := 5) _ _ _ _ (by decide)).trans ((ex_hi (k := 1) (n := 6) _ _ _ _ (by decide)).trans (ex_all _)))))),
    (ex_hi (k := 26) (n := 6) _ _ _ _ (by decide)).trans ((ex_hi (k := 25) (n := 1) _ _ _ _ (by decide)).trans ((ex_hi (k := 17) (n := 8) _ _ _ _ (by decide)).trans ((ex_hi (k := 12) (n := 5) _ _ _ _ (by decide)).trans ((ex_hi (k := 7) (n := 5) _ _ _ _ (by decide)).trans (ex_lo _ _))))),
    (ex_hi (k := 26) (n := 6) _ _ _ _ (by decide)).trans ((ex_hi (k := 25) (n := 1) _ _ _ _ (by decide)).trans ((ex_hi (k := 17) (n := 8) _ _ _ _ (by decide)).trans ((ex_hi (k := 12) (n := 5) _ _ _ _ (by decide)).trans (ex_lo _ _)))),
    (ex_hi (k := 26) (n := 6) _ _ _ _ (by decide)).trans ((ex_hi (k := 25) (n := 1) _ _ _ _ (by decide)).trans ((ex_hi (k := 17) (n := 8) _ _ _ _ (by decide)).trans (ex_lo _ _))),
    (ex_hi (k := 26) (n := 6) _ _ _ _ (by decide)).trans ((ex_hi (k := 25) (n := 1) _ _ _ _ (by decide)).trans (ex_lo _ _)),
    (ex_hi (k := 26) (n := 6) _ _ _ _ (by decide)).trans (ex_lo _ _),
    ex_lo _ _⟩

theorem layout2 (x0 : BitVec 1) (x1 : BitVec 6) (x2 : BitVec 5) (x3 : BitVec 5) (x4 : BitVec 15) {w : BitVec 32} (h : x0 ++ x1 ++ x2 ++ x3 ++ x4 = w) :
    fld w 31 1 = x0 ∧
    fld w 25 6 = x1 ∧
    fld w 20 5 = x2 ∧
    fld w 15 5 = x3 ∧
    fld w 0 15 = x4 := by
  subst h
  exact ⟨(ex_hi (k := 17) (n := 15) _ _ _ _ (by decide)).trans ((ex_hi (k := 12) (n := 5) _ _ _ _ (by decide)).trans ((ex_hi (k := 7) (n := 5) _ _ _ _ (by decide)).trans ((ex_hi (k := 1) (n := 6) _ _ _ _ (by decide)).trans (ex_all _)))),
    (ex_hi (k := 17) (n := 15) _ _ _ _ (by decide)).trans ((ex_hi (k := 12) (n := 5) _ _ _ _ (by decide)).trans ((ex_hi (k := 7) (n := 5) _ _ _ _ (by decide)).trans (ex_lo _ _))),
    (ex_hi (k := 17) (n := 15) _ _ _ _ (by decide)).trans ((ex_hi (k := 12) (n := 5) _ _ _ _ (by decide)).trans (ex_lo _ _)),
    (ex_hi (k := 17) (n := 15) _ _ _ _ (by decide)).trans (ex_lo _ _),
    ex_lo _ _⟩

theorem layout3 (x0 : BitVec 1) (x1 : BitVec 6) (x2 : BitVec 5) (x3 : BitVec 5) (x4 : BitVec 3) (x5 : BitVec 12) {w : BitVec 32} (h : x0 ++ x1 ++ x2 ++ x3 ++ x4 ++ x5 = w) :
    fld w 31 1 = x0 ∧
    fld w 25 6 = x1 ∧
    fld w 20 5 = x2 ∧
    fld w 15 5 = x3 ∧
    fld w 12 3 = x4 ∧
    fld w 0 12 = x5 := by
  subst h
  exact ⟨(ex_hi (k := 20) (n := 12) _ _ _ _ (by decide)).trans ((ex_hi (k := 17) (n := 3) _ _ _ _ (by decide)).trans ((ex_hi (k := 12) (n := 5) _ _ _ _ (by decide)).trans ((ex_hi (k := 7) (n := 5) _ _ _ _ (by decide)).trans ((ex_hi (k := 1) (n := 6) _ _ _ _ (by decide)).trans (ex_all _))))),
    (ex_hi (k := 20) (n := 12) _ _ _ _ (by decide)).trans ((ex_hi (k := 17) (n := 3) _ _ _ _ (by decide)).trans ((ex_hi (k := 12) (n := 5) _ _ _ _ (by decide)).trans ((ex_hi (k := 7) (n := 5) _ _ _ _ (by decide)).trans (ex_lo _ _)))),
    (ex_hi (k := 20) (n := 12) _ _ _ _ (by decide)).trans ((ex_hi (k := 17) (n := 3) _ _ _ _ (by decide)).trans ((ex_hi (k := 12) (n := 5) _ _ _ _ (by decide)).trans (ex_lo _ _))),
    (ex_hi (k := 20) (n := 12) _ _ _ _ (by decide)).trans ((ex_hi (k := 17) (n := 3) _ _ _ _ (by decide)).trans (ex_lo _ _)),
    (ex_hi (k := 20) (n := 12) _ _ _ _ (by decide)).trans (ex_lo _ _),
    ex_lo _ _⟩

theorem layout4 (x0 : BitVec 1) (x1 : BitVec 6) (x2 : BitVec 5) (x3 : BitVec 5) (x4 : BitVec 3) (x5 : BitVec 6) (x6 : BitVec 6) {w : BitVec 32} (h : x0 ++ x1 ++ x2 ++ x3 ++ x4 ++ x5 ++ x6 = w) :
    fld w 31 1 = x0 ∧
    fld w 25 6 = x1 ∧
    fld w 20 5 = x2 ∧
    fld w 15 5 = x3 ∧
    fld w 12 3 = x4 ∧
    fld w 6 6 = x5 ∧
    fld w 0 6 = x6 := by
  subst h
  exact ⟨(ex_hi (k := 26) (n := 6) _ _ _ _ (by decide)).trans ((ex_hi (k := 20) (n := 6) _ _ _ _ (by decide)).trans ((ex_hi (k := 17) (n := 3) _ _ _ _ (by decide)).trans ((ex_hi (k := 12) (n := 5) _ _ _ _ (by decide)).trans ((ex_hi (k := 7) (n := 5) _ _ _ _ (by decide)).trans ((ex_hi (k := 1) (n := 6) _ _ _ _ (by decide)).trans (ex_all _)))))),
    (ex_hi (k := 26) (n := 6) _ _ _ _ (by decide)).trans ((ex_hi (k := 20) (n := 6) _ _ _ _ (by decide)).trans ((ex_hi (k := 17) (n := 3) _ _ _ _ (by decide)).trans ((ex_hi (k := 12) (n := 5) _ _ _ _ (by decide)).trans ((ex_hi (k := 7) (n := 5) _ _ _ _ (by decide)).trans (ex_lo _ _))))),
    (ex_hi (k := 26) (n := 6) _ _ _ _ (by decide)).trans ((ex_hi (k := 20) (n := 6) _ _ _ _ (by decide)).trans ((ex_hi (k := 17) (n := 3) _ _ _ _ (by decide)).trans ((ex_hi (k := 12) (n := 5) _ _ _ _ (by decide)).trans (ex_lo _ _)))),
    (ex_hi (k := 26) (n := 6) _ _ _ _ (by decide)).trans ((ex_hi (k := 20) (n := 6) _ _ _ _ (by decide)).trans ((ex_hi (k := 17) (n := 3) _ _ _ _ (by decide)).trans (ex_lo _ _))),
    (ex_hi (k := 26) (n := 6) _ _ _ _ (by decide)).trans ((ex_hi (k := 20) (n := 6) _ _ _ _ (by decide)).trans (ex_lo _ _)),
    (ex_hi (k := 26) (n := 6) _ _ _ _ (by decide)).trans (ex_lo _ _),
    ex_lo _ _⟩

theorem layout5 (x0 : BitVec 1) (x1 : BitVec 6) (x2 : BitVec 5) (x3 : BitVec 20) {w : BitVec 32} (h : x0 ++ x1 ++ x2 ++ x3 = w) :
    fld w 31 1 = x0 ∧
    fld w 25 6 = x1 ∧
    fld w 20 5 = x2 ∧
    fld w 0 20 = x3 := by
  subst h
  exact ⟨(ex_hi (k := 12) (n := 20) _ _ _ _ (by decide)).trans ((ex_hi (k := 7) (n := 5) _ _ _ _ (by decide)).trans ((ex_hi (k := 1) (n := 6) _ _ _ _ (by decide)).trans (ex_all _))),
    (ex_hi (k := 12) (n := 20) _ _ _ _ (by decide)).trans ((ex_hi (k := 7) (n := 5) _ _ _ _ (by decide)).trans (ex_lo _ _)),
    (ex_hi (k := 12) (n := 20) _ _ _ _ (by decide)).trans (ex_lo _ _),
    ex_lo _ _⟩

theorem layout6 (x0 : BitVec 1) (x1 : BitVec 6) (x2 : BitVec 25) {w : BitVec 32} (h : x0 ++ x1 ++ x2 = w) :
    fld w 31 1 = x0 ∧
    fld w 25 6 = x1 ∧
    fld w 0 25 = x2 := by
  subst h
  exact ⟨(ex_hi (k := 7) (n := 25) _ _ _ _ (by decide)).trans ((ex_hi (k := 1) (n := 6) _ _ _ _ (by decide)).trans (ex_all _)),
    (ex_hi (k := 7) (n := 25) _ _ _ _ (by decide)).trans (ex_lo _ _),
    ex_lo _ _⟩

theorem layout7 (x0 : BitVec 1) (x1 : BitVec 6) (x2 : BitVec 10) (x3 : BitVec 3) (x4 : BitVec 12) {w : BitVec 32} (h : x0 ++ x1 ++ x2 ++ x3 ++ x4 = w) :
    fld w 31 1 = x0 ∧
    fld w 25 6 = x1 ∧
    fld w 15 10 = x2 ∧
    fld w 12 3 = x3 ∧
    fld w 0 12 = x4 := by
  subst h
  exact ⟨(ex_hi (k := 20) (n := 12) _ _ _ _ (by decide)).trans ((ex_hi (k := 17) (n := 3) _ _ _ _ (by decide)).trans ((ex_hi (k := 7) (n := 10) _ _ _ _ (by decide)).trans ((ex_hi (k := 1) (n := 6) _ _ _ _ (by decide)).trans (ex_all _)))),
    (ex_hi (k := 20) (n := 12) _ _ _ _ (by decide)).trans ((ex_hi (k := 17) (n := 3) _ _ _ _ (by decide)).trans ((ex_hi (k := 7) (n := 10) _ _ _ _ (by decide)).trans (ex_lo _ _))),
    (ex_hi (k := 20) (n := 12) _ _ _ _ (by decide)).trans ((ex_hi (k := 17) (n := 3) _ _ _ _ (by decide)).trans (ex_lo _ _)),
    (ex_hi (k := 20) (n := 12) _ _ _ _ (by decide)).trans (ex_lo _ _),
    ex_lo _ _⟩

theorem layout8 (x0 : BitVec 1) (x1 : BitVec 6) (x2 : BitVec 5) (x3 : BitVec 5) (x4 : BitVec 11) (x5 : BitVec 4) {w : BitVec 32} (h : x0 ++ x1 ++ x2 ++ x3 ++ x4 ++ x5 = w) :
    fld w 31 1 = x0 ∧
    fld w 25 6 = x1 ∧
    fld w 20 5 = x2 ∧
    fld w 15 5 = x3 ∧
    fld w 4 11 = x4 ∧
    fld w 0 4 = x5 := by
  subst h
  exact ⟨(ex_hi (k := 28) (n := 4) _ _ _ _ (by decide)).trans ((ex_hi (k := 17) (n := 11) _ _ _ _ (by decide)).trans ((ex_hi (k := 12) (n := 5) _ _ _ _ (by decide)).trans ((ex_hi (k := 7) (n := 5) _ _ _ _ (by decide)).trans ((ex_hi (k := 1) (n := 6) _ _ _ _ (by decide)).trans (ex_all _))))),
    (ex_hi (k := 28) (n := 4) _ _ _ _ (by decide)).trans ((ex_hi (k := 17) (n := 11) _ _ _ _ (by decide)).trans ((ex_hi (k := 12) (n := 5) _ _ _ _ (by decide)).trans ((ex_hi (k := 7) (n := 5) _ _ _ _ (by decide)).trans (ex_lo _ _)))),
    (ex_hi (k := 28) (n := 4) _ _ _ _ (by decide)).trans ((ex_hi (k := 17) (n := 11) _ _ _ _ (by decide)).trans ((ex_hi (k := 12) (n := 5) _ _ _ _ (by decide)).trans (ex_lo _ _))),
    (ex_hi (k := 28) (n := 4) _ _ _ _ (by decide)).trans ((ex_hi (k := 17) (n := 11) _ _ _ _ (by decide)).trans (ex_lo _ _)),
    (ex_hi (k := 28) (n := 4) _ _ _ _ (by decide)).trans (ex_lo _ _),
    ex_lo _ _⟩

theorem layout9 (x0 : BitVec 1) (x1 : BitVec 6) (x2 : BitVec 5) (x3 : BitVec 5) (x4 : BitVec 5) (x5 : BitVec 2) (x6 : BitVec 2) (x7 : BitVec 6) {w : BitVec 32} (h : x0 ++ x1 ++ x2 ++ x3 ++ x4 ++ x5 ++ x6 ++ x7 = w) :
    fld w 31 1 = x0 ∧
    fld w 25 6 = x1 ∧
    fld w 20 5 = x2 ∧
    fld w 15 5 = x3 ∧
    fld w 10 5 = x4 ∧
    fld w 8 2 = x5 ∧
    fld w 6 2 = x6 ∧
    fld w 0 6 = x7 := by
  subst h
  exact ⟨(ex_hi (k := 26) (n := 6) _ _ _ _ (by decide)).trans ((ex_hi (k := 24) (n := 2) _ _ _ _ (by decide)).trans ((ex_hi (k := 22) (n := 2) _ _ _ _ (by decide)).trans ((ex_hi (k := 17) (n := 5) _ _ _ _ (by decide)).trans ((ex_hi (k := 12) (n := 5) _ _ _ _ (by decide)).trans ((ex_hi (k := 7) (n := 5) _ _ _ _ (by decide)).trans ((ex_hi (k := 1) (n := 6) _ _ _ _ (by decide)).trans (ex_all _))))))),
    (ex_hi (k := 26) (n := 6) _ _ _ _ (by decide)).trans ((ex_hi (k := 24) (n := 2) _ _ _ _ (by decide)).trans ((ex_hi (k := 22) (n := 2) _ _ _ _ (by decide)).trans ((ex_hi (k := 17) (n := 5) _ _ _ _ (by decide)).trans ((ex_hi (k := 12) (n := 5) _ _ _ _ (by decide)).trans ((ex_hi (k := 7) (n := 5) _ _ _ _ (by decide)).trans (ex_lo _ _)))))),
    (ex_hi (k := 26) (n := 6) _ _ _ _ (by decide)).trans ((ex_hi (k := 24) (n := 2) _ _ _ _ (by decide)).trans ((ex_hi (k := 22) (n := 2) _ _ _ _ (by decide)).trans ((ex_hi (k := 17) (n := 5) _ _ _ _ (by decide)).trans ((ex_hi (k := 12) (n := 5) _ _ _ _ (by decide)).trans (ex_lo _ _))))),
    (ex_hi (k := 26) (n := 6) _ _ _ _ (by decide)).trans ((ex_hi (k := 24) (n := 2) _ _ _ _ (by decide)).trans ((ex_hi (k := 22) (n := 2) _ _ _ _ (by decide)).trans ((ex_hi (k := 17) (n := 5) _ _ _ _ (by decide)).trans (ex_lo _ _)))),
    (ex_hi (k := 26) (n := 6) _ _ _ _ (by decide)).trans ((ex_hi (k := 24) (n := 2) _ _ _ _ (by decide)).trans ((ex_hi (k := 22) (n := 2) _ _ _ _ (by decide)).trans (ex_lo _ _))),
    (ex_hi (k := 26) (n := 6) _ _ _ _ (by decide)).trans ((ex_hi (k := 24) (n := 2) _ _ _ _ (by decide)).trans (ex_lo _ _)),
    (ex_hi (k := 26) (n := 6) _ _ _ _ (by decide)).trans (ex_lo _ _),
    ex_lo _ _⟩

theorem layout10 (x0 : BitVec 1) (x1 : BitVec 6) (x2 : BitVec 5) (x3 : BitVec 5) (x4 : BitVec 5) (x5 : BitVec 3) (x6 : BitVec 2) (x7 : BitVec 1) (x8 : BitVec 4) {w : BitVec 32} (h : x0 ++ x1 ++ x2 ++ x3 ++ x4 ++ x5 ++ x6 ++ x7 ++ x8 = w) :
    fld w 31 1 = x0 ∧
    fld w 25 6 = x1 ∧
    fld w 20 5 = x2 ∧
    fld w 15 5 = x3 ∧
    fld w 10 5 = x4 ∧
    fld w 7 3 = x5 ∧
    fld w 5 2 = x6 ∧
    fld w 4 1 = x7 ∧
    fld w 0 4 = x8 := by
  subst h
  exact ⟨(ex_hi (k := 28) (n := 4) _ _ _ _ (by decide)).trans ((ex_hi (k := 27) (n := 1) _ _ _ _ (by decide)).trans ((ex_hi (k := 25) (n := 2) _ _ _ _ (by decide)).trans ((ex_hi (k := 22) (n := 3) _ _ _ _ (by decide)).trans ((ex_hi (k := 17) (n := 5) _ _ _ _ (by decide)).trans ((ex_hi (k := 12) (n := 5) _ _ _ _ (by decide)).trans ((ex_hi (k := 7) (n := 5) _ _ _ _ (by decide)).trans ((ex_hi (k := 1) (n := 6) _ _ _ _ (by decide)).trans (ex_all _)))))))),
    (ex_hi (k := 28) (n := 4) _ _ _ _ (by decide)).trans ((ex_hi (k := 27) (n := 1) _ _ _ _ (by decide)).trans ((ex_hi (k := 25) (n := 2) _ _ _ _ (by decide)).trans ((ex_hi (k := 22) (n := 3) _ _ _ _ (by decide)).trans ((ex_hi (k := 17) (n := 5) _ _ _ _ (by decide)).trans ((ex_hi (k := 12) (n := 5) _ _ _ _ (by decide)).trans ((ex_hi (k := 7) (n := 5) _ _ _ _ (by decide)).trans (ex_lo _ _))))))),
    (ex_hi (k := 28) (n := 4) _ _ _ _ (by decide)).trans ((ex_hi (k := 27) (n := 1) _ _ _ _ (by decide)).trans ((ex_hi (k := 25) (n := 2) _ _ _ _ (by decide)).trans ((ex_hi (k := 22) (n := 3) _ _ _ _ (by decide)).trans ((ex_hi (k := 17) (n := 5) _ _ _ _ (by decide)).trans ((ex_hi (k := 12) (n := 5) _ _ _ _ (by decide)).trans (ex_lo _ _)))))),
    (ex_hi (k := 28) (n := 4) _ _ _ _ (by decide)).trans ((ex_hi (k := 27) (n := 1) _ _ _ _ (by decide)).trans ((ex_hi (k := 25) (n := 2) _ _ _ _ (by decide)).trans ((ex_hi (k := 22) (n := 3) _ _ _ _ (by decide)).trans ((ex_hi (k := 17) (n := 5) _ _ _ _ (by decide)).trans (ex_lo _ _))))),
    (ex_hi (k := 28) (n := 4) _ _ _ _ (by decide)).trans ((ex_hi (k := 27) (n := 1) _ _ _ _ (by decide)).trans ((ex_hi (k := 25) (n := 2) _ _ _ _ (by decide)).trans ((ex_hi (k := 22) (n := 3) _ _ _ _ (by decide)).trans (ex_lo _ _)))),
    (ex_hi (k := 28) (n := 4) _ _ _ _ (by decide)).trans ((ex_hi (k := 27) (n := 1) _ _ _ _ (by decide)).trans ((ex_hi (k := 25) (n := 2) _ _ _ _ (by decide)).trans (ex_lo _ _))),
    (ex_hi (k := 28) (n := 4) _ _ _ _ (by decide)).trans ((ex_hi (k := 27) (n := 1) _ _ _ _ (by decide)).trans (ex_lo _ _)),
    (ex_hi (k := 28) (n := 4) _ _ _ _ (by decide)).trans (ex_lo _ _),
    ex_lo _ _⟩

theorem layout11 (x0 : BitVec 1) (x1 : BitVec 6) (x2 : BitVec 10) (x3 : BitVec 3) (x4 : BitVec 5) (x5 : BitVec 3) (x6 : BitVec 2) (x7 : BitVec 2) {w : BitVec 32} (h : x0 ++ x1 ++ x2 ++ x3 ++ x4 ++ x5 ++ x6 ++ x7 = w) :
    fld w 31 1 = x0 ∧
    fld w 25 6 = x1 ∧
    fld w 15 10 = x2 ∧
    fld w 12 3 = x3 ∧
    fld w 7 5 = x4 ∧
    fld w 4 3 = x5 ∧
    fld w 2 2 = x6 ∧
    fld w 0 2 = x7 := by
  subst h
  exact ⟨(ex_hi (k := 30) (n := 2) _ _ _ _ (by decide)).trans ((ex_hi (k := 28) (n := 2) _ _ _ _ (by decide)).trans ((ex_hi (k := 25) (n := 3) _ _ _ _ (by decide)).trans ((ex_hi (k := 20) (n := 5) _ _ _ _ (by decide)).trans ((ex_hi (k := 17) (n := 3) _ _ _ _ (by decide)).trans ((ex_hi (k := 7) (n := 10) _ _ _ _ (by decide)).trans ((ex_hi (k := 1) (n := 6) _ _ _ _ (by decide)).trans (ex_all _))))))),
    (ex_hi (k := 30) (n := 2) _ _ _ _ (by decide)).trans ((ex_hi (k := 28) (n := 2) _ _ _ _ (by decide)).trans ((ex_hi (k := 25) (n := 3) _ _ _ _ (by decide)).trans ((ex_hi (k := 20) (n := 5) _ _ _ _ (by decide)).trans ((ex_hi (k := 17) (n := 3) _ _ _ _ (by decide)).trans ((ex_hi (k := 7) (n := 10) _ _ _ _ (by decide)).trans (ex_lo _ _)))))),
    (ex_hi (k := 30) (n := 2) _ _ _ _ (by decide)).trans ((ex_hi (k := 28) (n := 2) _ _ _ _ (by decide)).trans ((ex_hi (k := 25) (n := 3) _ _ _ _ (by decide)).trans ((ex_hi (k := 20) (n := 5) _ _ _ _ (by decide)).trans ((ex_hi (k := 17) (n := 3) _ _ _ _ (by decide)).trans (ex_lo _ _))))),
    (ex_hi (k := 30) (n := 2) _ _ _ _ (by decide)).trans ((ex_hi (k := 28) (n := 2) _ _ _ _ (by decide)).trans ((ex_hi (k := 25) (n := 3) _ _ _ _ (by decide)).trans ((ex_hi (k := 20) (n := 5) _ _ _ _ (by decide)).trans (ex_lo _ _)))),
    (ex_hi (k := 30) (n := 2) _ _ _ _ (by decide)).trans ((ex_hi (k := 28) (n := 2) _ _ _ _ (by decide)).trans ((ex_hi (k := 25) (n := 3) _ _ _ _ (by decide)).trans (ex_lo _ _))),
    (ex_hi (k := 30) (n := 2) _ _ _ _ (by decide)).trans ((ex_hi (k := 28) (n := 2) _ _ _ _ (by decide)).trans (ex_lo _ _)),
    (ex_hi (k := 30) (n := 2) _ _ _ _ (by decide)).trans (ex_lo _ _),
    ex_lo _ _⟩

theorem layout12 (x0 : BitVec 1) (x1 : BitVec 6) (x2 : BitVec 10) (x3 : BitVec 3) (x4 : BitVec 5) (x5 : BitVec 3) (x6 : BitVec 4) {w : BitVec 32} (h : x0 ++ x1 ++ x2 ++ x3 ++ x4 ++ x5 ++ x6 = w) :
    fld w 31 1 = x0 ∧
    fld w 25 6 = x1 ∧
    fld w 15 10 = x2 ∧
    fld w 12 3 = x3 ∧
    fld w 7 5 = x4 ∧
    fld w 4 3 = x5 ∧
    fld w 0 4 = x6 := by
  subst h
  exact ⟨(ex_hi (k := 28) (n := 4) _ _ _ _ (by decide)).trans ((ex_hi (k := 25) (n := 3) _ _ _ _ (by decide)).trans ((ex_hi (k := 20) (n := 5) _ _ _ _ (by decide)).trans ((ex_hi (k := 17) (n := 3) _ _ _ _ (by decide)).trans ((ex_hi (k := 7) (n := 10) _ _ _ _ (by decide)).trans ((ex_hi (k := 1) (n := 6) _ _ _ _ (by decide)).trans (ex_all _)))))),
    (ex_hi (k := 28) (n := 4) _ _ _ _ (by decide)).trans ((ex_hi (k := 25) (n := 3) _ _ _ _ (by decide)).trans ((ex_hi (k := 20) (n := 5) _ _ _ _ (by decide)).trans ((ex_hi (k := 17) (n := 3) _ _ _ _ (by decide)).trans ((ex_hi (k := 7) (n := 10) _ _ _ _ (by decide)).trans (ex_lo _ _))))),
    (ex_hi (k := 28) (n := 4) _ _ _ _ (by decide)).trans ((ex_hi (k := 25) (n := 3) _ _ _ _ (by decide)).trans ((ex_hi (k := 20) (n := 5) _ _ _ _ (by decide)).trans ((ex_hi (k := 17) (n := 3) _ _ _ _ (by decide)).trans (ex_lo _ _)))),
    (ex_hi (k := 28) (n := 4) _ _ _ _ (by decide)).trans ((ex_hi (k := 25) (n := 3) _ _ _ _ (by decide)).trans ((ex_hi (k := 20) (n := 5) _ _ _ _ (by decide)).trans (ex_lo _ _))),
    (ex_hi (k := 28) (n := 4) _ _ _ _ (by decide)).trans ((ex_hi (k := 25) (n := 3) _ _ _ _ (by decide)).trans (ex_lo _ _)),
    (ex_hi (k := 28) (n := 4) _ _ _ _ (by decide)).trans (ex_lo _ _),
    ex_lo _ _⟩

theorem layout13 (x0 : BitVec 1) (x1 : BitVec 6) (x2 : BitVec 6) (x3 : BitVec 3) (x4 : BitVec 8) (x5 : BitVec 8) {w : BitVec 32} (h : x0 ++ x1 ++ x2 ++ x3 ++ x4 ++ x5 = w) :
    fld w 31 1 = x0 ∧
    fld w 25 6 = x1 ∧
    fld w 19 6 = x2 ∧
    fld w 16 3 = x3 ∧
    fld w 8 8 = x4 ∧
    fld w 0 8 = x5 := by
  subst h
  exact ⟨(ex_hi (k := 24) (n := 8) _ _ _ _ (by decide)).trans ((ex_hi (k := 16) (n := 8) _ _ _ _ (by decide)).trans ((ex_hi (k := 13) (n := 3) _ _ _ _ (by decide)).trans ((ex_hi (k := 7) (n := 6) _ _ _ _ (by decide)).trans ((ex_hi (k := 1) (n := 6) _ _ _ _ (by decide)).trans (ex_all _))))),
    (ex_hi (k := 24) (n := 8) _ _ _ _ (by decide)).trans ((ex_hi (k := 16) (n := 8) _ _ _ _ (by decide)).trans ((ex_hi (k := 13) (n := 3) _ _ _ _ (by decide)).trans ((ex_hi (k := 7) (n := 6) _ _ _ _ (by decide)).trans (ex_lo _ _)))),
    (ex_hi (k := 24) (n := 8) _ _ _ _ (by decide)).trans ((ex_hi (k := 16) (n := 8) _ _ _ _ (by decide)).trans ((ex_hi (k := 13) (n := 3) _ _ _ _ (by decide)).trans (ex_lo _ _))),
    (ex_hi (k := 24) (n := 8) _ _ _ _ (by decide)).trans ((ex_hi (k := 16) (n := 8) _ _ _ _ (by decide)).trans (ex_lo _ _)),
    (ex_hi (k := 24) (n := 8) _ _ _ _ (by decide)).trans (ex_lo _ _),
    ex_lo _ _⟩

theorem layout14 (x0 : BitVec 1) (x1 : BitVec 6) (x2 : BitVec 10) (x3 : BitVec 3) (x4 : BitVec 1) (x5 : BitVec 11) {w : BitVec 32} (h : x0 ++ x1 ++ x2 ++ x3 ++ x4 ++ x5 = w) :
    fld w 31 1 = x0 ∧
    fld w 25 6 = x1 ∧
    fld w 15 10 = x2 ∧
    fld w 12 3 = x3 ∧
    fld w 11 1 = x4 ∧
    fld w 0 11 = x5 := by
  subst h
  exact ⟨(ex_hi (k := 21) (n := 11) _ _ _ _ (by decide)).trans ((ex_hi (k := 20) (n := 1) _ _ _ _ (by decide)).trans ((ex_hi (k := 17) (n := 3) _ _ _ _ (by decide)).trans ((ex_hi (k := 7) (n := 10) _ _ _ _ (by decide)).trans ((ex_hi (k := 1) (n := 6) _ _ _ _ (by decide)).trans (ex_all _))))),
    (ex_hi (k := 21) (n := 11) _ _ _ _ (by decide)).trans ((ex_hi (k := 20) (n := 1) _ _ _ _ (by decide)).trans ((ex_hi (k := 17) (n := 3) _ _ _ _ (by decide)).trans ((ex_hi (k := 7) (n := 10) _ _ _ _ (by decide)).trans (ex_lo _ _)))),
    (ex_hi (k := 21) (n := 11) _ _ _ _ (by decide)).trans ((ex_hi (k := 20) (n := 1) _ _ _ _ (by decide)).trans ((ex_hi (k := 17) (n := 3) _ _ _ _ (by decide)).trans (ex_lo _ _))),
    (ex_hi (k := 21) (n := 11) _ _ _ _ (by decide)).trans ((ex_hi (k := 20) (n := 1) _ _ _ _ (by decide)).trans (ex_lo _ _)),
    (ex_hi (k := 21) (n := 11) _ _ _ _ (by decide)).trans (ex_lo _ _),
    ex_lo _ _⟩

theorem layout15 (x0 : BitVec 1) (x1 : BitVec 6) (x2 : BitVec 5) (x3 : BitVec 5) (x4 : BitVec 5) (x5 : BitVec 6) (x6 : BitVec 4) {w : BitVec 32} (h : x0 ++ x1 ++ x2 ++ x3 ++ x4 ++ x5 ++ x6 = w) :
    fld w 31 1 = x0 ∧
    fld w 25 6 = x1 ∧
    fld w 20 5 = x2 ∧
    fld w 15 5 = x3 ∧
    fld w 10 5 = x4 ∧
    fld w 4 6 = x5 ∧
    fld w 0 4 = x6 := by
  subst h
  exact ⟨(ex_hi (k := 28) (n := 4) _ _ _ _ (by decide)).trans ((ex_hi (k := 22) (n := 6) _ _ _ _ (by decide)).trans ((ex_hi (k := 17) (n := 5) _ _ _ _ (by decide)).trans ((ex_hi (k := 12) (n := 5) _ _ _ _ (by decide)).trans ((ex_hi (k := 7) (n := 5) _ _ _ _ (by decide)).trans ((ex_hi (k := 1) (n := 6) _ _ _ _ (by decide)).trans (ex_all _)))))),
    (ex_hi (k := 28) (n := 4) _ _ _ _ (by decide)).trans ((ex_hi (k := 22) (n := 6) _ _ _ _ (by decide)).trans ((ex_hi (k := 17) (n := 5) _ _ _ _ (by decide)).trans ((ex_hi (k := 12) (n := 5) _ _ _ _ (by decide)).trans ((ex_hi (k := 7) (n := 5) _ _ _ _ (by decide)).trans (ex_lo _ _))))),
    (ex_hi (k := 28) (n := 4) _ _ _ _ (by decide)).trans ((ex_hi (k := 22) (n := 6) _ _ _ _ (by decide)).trans ((ex_hi (k := 17) (n := 5) _ _ _ _ (by decide)).trans ((ex_hi (k := 12) (n := 5) _ _ _ _ (by decide)).trans (ex_lo _ _)))),
    (ex_hi (k := 28) (n := 4) _ _ _ _ (by decide)).trans ((ex_hi (k := 22) (n := 6) _ _ _ _ (by decide)).trans ((ex_hi (k := 17) (n := 5) _ _ _ _ (by decide)).trans (ex_lo _ _))),
    (ex_hi (k := 28) (n := 4) _ _ _ _ (by decide)).trans ((ex_hi (k := 22) (n := 6) _ _ _ _ (by decide)).trans (ex_lo _ _)),
    (ex_hi (k := 28) (n := 4) _ _ _ _ (by decide)).trans (ex_lo _ _),
    ex_lo _ _⟩

theorem layout16 (x0 : BitVec 1) (x1 : BitVec 6) (x2 : BitVec 21) (x3 : BitVec 4) {w : BitVec 32} (h : x0 ++ x1 ++ x2 ++ x3 = w) :
    fld w 31 1 = x0 ∧
    fld w 25 6 = x1 ∧
    fld w 4 21 = x2 ∧
    fld w 0 4 = x3 := by
  subst h
  exact ⟨(ex_hi (k := 28) (n := 4) _ _ _ _ (by decide)).trans ((ex_hi (k := 7) (n := 21) _ _ _ _ (by decide)).trans ((ex_hi (k := 1) (n := 6) _ _ _ _ (by decide)).trans (ex_all _))),
    (ex_hi (k := 28) (n := 4) _ _ _ _ (by decide)).trans ((ex_hi (k := 7) (n := 21) _ _ _ _ (by decide)).trans (ex_lo _ _)),
    (ex_hi (k := 28) (n := 4) _ _ _ _ (by decide)).trans (ex_lo _ _),
    ex_lo _ _⟩

theorem layout17 (x0 : BitVec 1) (x1 : BitVec 6) (x2 : BitVec 10) (x3 : BitVec 5) (x4 : BitVec 6) (x5 : BitVec 4) {w : BitVec 32} (h : x0 ++ x1 ++ x2 ++ x3 ++ x4 ++ x5 = w) :
    fld w 31 1 = x0 ∧
    fld w 25 6 = x1 ∧
    fld w 15 10 = x2 ∧
    fld w 10 5 = x3 ∧
    fld w 4 6 = x4 ∧
    fld w 0 4 = x5 := by
  subst h
  exact ⟨(ex_hi (k := 28) (n := 4) _ _ _ _ (by decide)).trans ((ex_hi (k := 22) (n := 6) _ _ _ _ (by decide)).trans ((ex_hi (k := 17) (n := 5) _ _ _ _ (by decide)).trans ((ex_hi (k := 7) (n := 10) _ _ _ _ (by decide)).trans ((ex_hi (k := 1) (n := 6) _ _ _ _ (by decide)).trans (ex_all _))))),
    (ex_hi (k := 28) (n := 4) _ _ _ _ (by decide)).trans ((ex_hi (k := 22) (n := 6) _ _ _ _ (by decide)).trans ((ex_hi (k := 17) (n := 5) _ _ _ _ (by decide)).trans ((ex_hi (k := 7) (n := 10) _ _ _ _ (by decide)).trans (ex_lo _ _)))),
    (ex_hi (k := 28) (n := 4) _ _ _ _ (by decide)).trans ((ex_hi (k := 22) (n := 6) _ _ _ _ (by decide)).trans ((ex_hi (k := 17) (n := 5) _ _ _ _ (by decide)).trans (ex_lo _ _))),
    (ex_hi (k := 28) (n := 4) _ _ _ _ (by decide)).trans ((ex_hi (k := 22) (n := 6) _ _ _ _ (by decide)).trans (ex_lo _ _)),
    (ex_hi (k := 28) (n := 4) _ _ _ _ (by decide)).trans (ex_lo _ _),
    ex_lo _ _⟩

theorem layout18 (x0 : BitVec 1) (x1 : BitVec 6) (x2 : BitVec 5) (x3 : BitVec 5) (x4 : BitVec 3) (x5 : BitVec 2) (x6 : BitVec 4) (x7 : BitVec 3) (x8 : BitVec 3) {w : BitVec 32} (h : x0 ++ x1 ++ x2 ++ x3 ++ x4 ++ x5 ++ x6 ++ x7 ++ x8 = w) :
    fld w 31 1 = x0 ∧
    fld w 25 6 = x1 ∧
    fld w 20 5 = x2 ∧
    fld w 15 5 = x3 ∧
    fld w 12 3 = x4 ∧
    fld w 10 2 = x5 ∧
    fld w 6 4 = x6 ∧
    fld w 3 3 = x7 ∧
    fld w 0 3 = x8 := by
  subst h
  exact ⟨(ex_hi (k := 29) (n := 3) _ _ _ _ (by decide)).trans ((ex_hi (k := 26) (n := 3) _ _ _ _ (by decide)).trans ((ex_hi (k := 22) (n := 4) _ _ _ _ (by decide)).trans ((ex_hi (k := 20) (n := 2) _ _ _ _ (by decide)).trans ((ex_hi (k := 17) (n := 3) _ _ _ _ (by decide)).trans ((ex_hi (k := 12) (n := 5) _ _ _ _ (by decide)).trans ((ex_hi (k := 7) (n := 5) _ _ _ _ (by decide)).trans ((ex_hi (k := 1) (n := 6) _ _ _ _ (by decide)).trans (ex_all _)))))))),
    (ex_hi (k := 29) (n := 3) _ _ _ _ (by decide)).trans ((ex_hi (k := 26) (n := 3) _ _ _ _ (by decide)).trans ((ex_hi (k := 22) (n := 4) _ _ _ _ (by decide)).trans ((ex_hi (k := 20) (n := 2) _ _ _ _ (by decide)).trans ((ex_hi (k := 17) (n := 3) _ _ _ _ (by decide)).trans ((ex_hi (k := 12) (n := 5) _ _ _ _ (by decide)).trans ((ex_hi (k := 7) (n := 5) _ _ _ _ (by decide)).trans (ex_lo _ _))))))),
    (ex_hi (k := 29) (n := 3) _ _ _ _ (by decide)).trans ((ex_hi (k := 26) (n := 3) _ _ _ _ (by decide)).trans ((ex_hi (k := 22) (n := 4) _ _ _ _ (by decide)).trans ((ex_hi (k := 20) (n := 2) _ _ _ _ (by decide)).trans ((ex_hi (k := 17) (n := 3) _ _ _ _ (by decide)).trans ((ex_hi (k := 12) (n := 5) _ _ _ _ (by decide)).trans (ex_lo _ _)))))),
    (ex_hi (k := 29) (n := 3) _ _ _ _ (by decide)).trans ((ex_hi (k := 26) (n := 3) _ _ _ _ (by decide)).trans ((ex_hi (k := 22) (n := 4) _ _ _ _ (by decide)).trans ((ex_hi (k := 20) (n := 2) _ _ _ _ (by decide)).trans ((ex_hi (k := 17) (n := 3) _ _ _ _ (by decide)).trans (ex_lo _ _))))),
    (ex_hi (k := 29) (n := 3) _ _ _ _ (by decide)).trans ((ex_hi (k := 26) (n := 3) _ _ _ _ (by decide)).trans ((ex_hi (k := 22) (n := 4) _ _ _ _ (by decide)).trans ((ex_hi (k := 20) (n := 2) _ _ _ _ (by decide)).trans (ex_lo _ _)))),
    (ex_hi (k := 29) (n := 3) _ _ _ _ (by decide)).trans ((ex_hi (k := 26) (n := 3) _ _ _ _ (by decide)).trans ((ex_hi (k := 22) (n := 4) _ _ _ _ (by decide)).trans (ex_lo _ _))),
    (ex_hi (k := 29) (n := 3) _ _ _ _ (by decide)).trans ((ex_hi (k := 26) (n := 3) _ _ _ _ (by decide)).trans (ex_lo _ _)),
    (ex_hi (k := 29) (n := 3) _ _ _ _ (by decide)).trans (ex_lo _ _),
    ex_lo _ _⟩

theorem layout19 (x0 : BitVec 1) (x1 : BitVec 6) (x2 : BitVec 5) (x3 : BitVec 5) (x4 : BitVec 5) (x5 : BitVec 4) (x6 : BitVec 3) (x7 : BitVec 3) {w : BitVec 32} (h : x0 ++ x1 ++ x2 ++ x3 ++ x4 ++ x5 ++ x6 ++ x7 = w) :
    fld w 31 1 = x0 ∧
    fld w 25 6 = x1 ∧
    fld w 20 5 = x2 ∧
    fld w 15 5 = x3 ∧
    fld w 10 5 = x4 ∧
    fld w 6 4 = x5 ∧
    fld w 3 3 = x6 ∧
    fld w 0 3 = x7 := by
  subst h
  exact ⟨(ex_hi (k := 29) (n := 3) _ _ _ _ (by decide)).trans ((ex_hi (k := 26) (n := 3) _ _ _ _ (by decide)).trans ((ex_hi (k := 22) (n := 4) _ _ _ _ (by decide)).trans ((ex_hi (k := 17) (n := 5) _ _ _ _ (by decide)).trans ((ex_hi (k := 12) (n := 5) _ _ _ _ (by decide)).trans ((ex_hi (k := 7) (n := 5) _ _ _ _ (by decide)).trans ((ex_hi (k := 1) (n := 6) _ _ _ _ (by decide)).trans (ex_all _))))))),
    (ex_hi (k := 29) (n := 3) _ _ _ _ (by decide)).trans ((ex_hi (k := 26) (n := 3) _ _ _ _ (by decide)).trans ((ex_hi (k := 22) (n := 4) _ _ _ _ (by decide)).trans ((ex_hi (k := 17) (n := 5) _ _ _ _ (by decide)).trans ((ex_hi (k := 12) (n := 5) _ _ _ _ (by decide)).trans ((ex_hi (k := 7) (n := 5) _ _ _ _ (by decide)).trans (ex_lo _ _)))))),
    (ex_hi (k := 29) (n := 3) _ _ _ _ (by decide)).trans ((ex_hi (k := 26) (n := 3) _ _ _ _ (by decide)).trans ((ex_hi (k := 22) (n := 4) _ _ _ _ (by decide)).trans ((ex_hi (k := 17) (n := 5) _ _ _ _ (by decide)).trans ((ex_hi (k := 12) (n := 5) _ _ _ _ (by decide)).trans (ex_lo _ _))))),
    (ex_hi (k := 29) (n := 3) _ _ _ _ (by decide)).trans ((ex_hi (k := 26) (n := 3) _ _ _ _ (by decide)).trans ((ex_hi (k := 22) (n := 4) _ _ _ _ (by decide)).trans ((ex_hi (k := 17) (n := 5) _ _ _ _ (by decide)).trans (ex_lo _ _)))),
    (ex_hi (k := 29) (n := 3) _ _ _ _ (by decide)).trans ((ex_hi (k := 26) (n := 3) _ _ _ _ (by decide)).trans ((ex_hi (k := 22) (n := 4) _ _ _ _ (by decide)).trans (ex_lo _ _))),
    (ex_hi (k := 29) (n := 3) _ _ _ _ (by decide)).trans ((ex_hi (k := 26) (n := 3) _ _ _ _ (by decide)).trans (ex_lo _ _)),
    (ex_hi (k := 29) (n := 3) _ _ _ _ (by decide)).trans (ex_lo _ _),
    ex_lo _ _⟩

theorem layout20 (x0 : BitVec 1) (x1 : BitVec 6) (x2 : BitVec 5) (x3 : BitVec 5) (x4 : BitVec 12) (x5 : BitVec 3) {w : BitVec 32} (h : x0 ++ x1 ++ x2 ++ x3 ++ x4 ++ x5 = w) :
    fld w 31 1 = x0 ∧
    fld w 25 6 = x1 ∧
    fld w 20 5 = x2 ∧
    fld w 15 5 = x3 ∧
    fld w 3 12 = x4 ∧
    fld w 0 3 = x5 := by
  subst h
  exact ⟨(ex_hi (k := 29) (n := 3) _ _ _ _ (by decide)).trans ((ex_hi (k := 17) (n := 12) _ _ _ _ (by decide)).trans ((ex_hi (k := 12) (n := 5) _ _ _ _ (by decide)).trans ((ex_hi (k := 7) (n := 5) _ _ _ _ (by decide)).trans ((ex_hi (k := 1) (n := 6) _ _ _ _ (by decide)).trans (ex_all _))))),
    (ex_hi (k := 29) (n := 3) _ _ _ _ (by decide)).trans ((ex_hi (k := 17) (n := 12) _ _ _ _ (by decide)).trans ((ex_hi (k := 12) (n := 5) _ _ _ _ (by decide)).trans ((ex_hi (k := 7) (n := 5) _ _ _ _ (by decide)).trans (ex_lo _ _)))),
    (ex_hi (k := 29) (n := 3) _ _ _ _ (by decide)).trans ((ex_hi (k := 17) (n := 12) _ _ _ _ (by decide)).trans ((ex_hi (k := 12) (n := 5) _ _ _ _ (by decide)).trans (ex_lo _ _))),
    (ex_hi (k := 29) (n := 3) _ _ _ _ (by decide)).trans ((ex_hi (k := 17) (n := 12) _ _ _ _ (by decide)).trans (ex_lo _ _)),
    (ex_hi (k := 29) (n := 3) _ _ _ _ (by decide)).trans (ex_lo _ _),
    ex_lo _ _⟩

theorem layout21 (x0 : BitVec 1) (x1 : BitVec 6) (x2 : BitVec 5) (x3 : BitVec 5) (x4 : BitVec 5) (x5 : BitVec 7) (x6 : BitVec 3) {w : BitVec 32} (h : x0 ++ x1 ++ x2 ++ x3 ++ x4 ++ x5 ++ x6 = w) :
    fld w 31 1 = x0 ∧
    fld w 25 6 = x1 ∧
    fld w 20 5 = x2 ∧
    fld w 15 5 = x3 ∧
    fld w 10 5 = x4 ∧
    fld w 3 7 = x5 ∧
    fld w 0 3 = x6 := by
  subst h
  exact ⟨(ex_hi (k := 29) (n := 3) _ _ _ _ (by decide)).trans ((ex_hi (k := 22) (n := 7) _ _ _ _ (by decide)).trans ((ex_hi (k := 17) (n := 5) _ _ _ _ (by decide)).trans ((ex_hi (k := 12) (n := 5) _ _ _ _ (by decide)).trans ((ex_hi (k := 7) (n := 5) _ _ _ _ (by decide)).trans ((ex_hi (k := 1) (n := 6) _ _ _ _ (by decide)).trans (ex_all _)))))),
    (ex_hi (k := 29) (n := 3) _ _ _ _ (by decide)).trans ((ex_hi (k := 22) (n := 7) _ _ _ _ (by decide)).trans ((ex_hi (k := 17) (n := 5) _ _ _ _ (by decide)).trans ((ex_hi (k := 12) (n := 5) _ _ _ _ (by decide)).trans ((ex_hi (k := 7) (n := 5) _ _ _ _ (by decide)).trans (ex_lo _ _))))),
    (ex_hi (k := 29) (n := 3) _ _ _ _ (by decide)).trans ((ex_hi (k := 22) (n := 7) _ _ _ _ (by decide)).trans ((ex_hi (k := 17) (n := 5) _ _ _ _ (by decide)).trans ((ex_hi (k := 12) (n := 5) _ _ _ _ (by decide)).trans (ex_lo _ _)))),
    (ex_hi (k := 29) (n := 3) _ _ _ _ (by decide)).trans ((ex_hi (k := 22) (n := 7) _ _ _ _ (by decide)).trans ((ex_hi (k := 17) (n := 5) _ _ _ _ (by decide)).trans (ex_lo _ _))),
    (ex_hi (k := 29) (n := 3) _ _ _ _ (by decide)).trans ((ex_hi (k := 22) (n := 7) _ _ _ _ (by decide)).trans (ex_lo _ _)),
    (ex_hi (k := 29) (n := 3) _ _ _ _ (by decide)).trans (ex_lo _ _),
    ex_lo _ _⟩

theorem layout22 (x0 : BitVec 1) (x1 : BitVec 6) (x2 : BitVec 5) (x3 : BitVec 5) (x4 : BitVec 5) (x5 : BitVec 1) (x6 : BitVec 1) (x7 : BitVec 1) (x8 : BitVec 3) (x9 : BitVec 4) {w : BitVec 32} (h : x0 ++ x1 ++ x2 ++ x3 ++ x4 ++ x5 ++ x6 ++ x7 ++ x8 ++ x9 = w) :
    fld w 31 1 = x0 ∧
    fld w 25 6 = x1 ∧
    fld w 20 5 = x2 ∧
    fld w 15 5 = x3 ∧
    fld w 10 5 = x4 ∧
    fld w 9 1 = x5 ∧
    fld w 8 1 = x6 ∧
    fld w 7 1 = x7 ∧
    fld w 4 3 = x8 ∧
    fld w 0 4 = x9 := by
  subst h
  exact ⟨(ex_hi (k := 28) (n := 4) _ _ _ _ (by decide)).trans ((ex_hi (k := 25) (n := 3) _ _ _ _ (by decide)).trans ((ex_hi (k := 24) (n := 1) _ _ _ _ (by decide)).trans ((ex_hi (k := 23) (n := 1) _ _ _ _ (by decide)).trans ((ex_hi (k := 22) (n := 1) _ _ _ _ (by decide)).trans ((ex_hi (k := 17) (n := 5) _ _ _ _ (by decide)).trans ((ex_hi (k := 12) (n := 5) _ _ _ _ (by decide)).trans ((ex_hi (k := 7) (n := 5) _ _ _ _ (by decide)).trans ((ex_hi (k := 1) (n := 6) _ _ _ _ (by decide)).trans (ex_all _))))))))),
    (ex_hi (k := 28) (n := 4) _ _ _ _ (by decide)).trans ((ex_hi (k := 25) (n := 3) _ _ _ _ (by decide)).trans ((ex_hi (k := 24) (n := 1) _ _ _ _ (by decide)).trans ((ex_hi (k := 23) (n := 1) _ _ _ _ (by decide)).trans ((ex_hi (k := 22) (n := 1) _ _ _ _ (by decide)).trans ((ex_hi (k := 17) (n := 5) _ _ _ _ (by decide)).trans ((ex_hi (k := 12) (n := 5) _ _ _ _ (by decide)).trans ((ex_hi (k := 7) (n := 5) _ _ _ _ (by decide)).trans (ex_lo _ _)))))))),
    (ex_hi (k := 28) (n := 4) _ _ _ _ (by decide)).trans ((ex_hi (k := 25) (n := 3) _ _ _ _ (by decide)).trans ((ex_hi (k := 24) (n := 1) _ _ _ _ (by decide)).trans ((ex_hi (k := 23) (n := 1) _ _ _ _ (by decide)).trans ((ex_hi (k := 22) (n := 1) _ _ _ _ (by decide)).trans ((ex_hi (k := 17) (n := 5) _ _ _ _ (by decide)).trans ((ex_hi (k := 12) (n := 5) _ _ _ _ (by decide)).trans (ex_lo _ _))))))),
    (ex_hi (k := 28) (n := 4) _ _ _ _ (by decide)).trans ((ex_hi (k := 25) (n := 3) _ _ _ _ (by decide)).trans ((ex_hi (k := 24) (n := 1) _ _ _ _ (by decide)).trans ((ex_hi (k := 23) (n := 1) _ _ _ _ (by decide)).trans ((ex_hi (k := 22) (n := 1) _ _ _ _ (by decide)).trans ((ex_hi (k := 17) (n := 5) _ _ _ _ (by decide)).trans (ex_lo _ _)))))),
    (ex_hi (k := 28) (n := 4) _ _ _ _ (by decide)).trans ((ex_hi (k := 25) (n := 3) _ _ _ _ (by decide)).trans ((ex_hi (k := 24) (n := 1) _ _ _ _ (by decide)).trans ((ex_hi (k := 23) (n := 1) _ _ _ _ (by decide)).trans ((ex_hi (k := 22) (n := 1) _ _ _ _ (by decide)).trans (ex_lo _ _))))),
    (ex_hi (k := 28) (n := 4) _ _ _ _ (by decide)).trans ((ex_hi (k := 25) (n := 3) _ _ _ _ (by decide)).trans ((ex_hi (k := 24) (n := 1) _ _ _ _ (by decide)).trans ((ex_hi (k := 23) (n := 1) _ _ _ _ (by decide)).trans (ex_lo _ _)))),
    (ex_hi (k := 28) (n := 4) _ _ _ _ (by decide)).trans ((ex_hi (k := 25) (n := 3) _ _ _ _ (by decide)).trans ((ex_hi (k := 24) (n := 1) _ _ _ _ (by decide)).trans (ex_lo _ _))),
    (ex_hi (k := 28) (n := 4) _ _ _ _ (by decide)).trans ((ex_hi (k := 25) (n := 3) _ _ _ _ (by decide)).trans (ex_lo _ _)),
    (ex_hi (k := 28) (n := 4) _ _ _ _ (by decide)).trans (ex_lo _ _),
    ex_lo _ _⟩

theorem layout23 (x0 : BitVec 1) (x1 : BitVec 6) (x2 : BitVec 5) (x3 : BitVec 5) (x4 : BitVec 5) (x5 : BitVec 5) (x6 : BitVec 5) {w : BitVec 32} (h : x0 ++ x1 ++ x2 ++ x3 ++ x4 ++ x5 ++ x6 = w) :
    fld w 31 1 = x0 ∧
    fld w 25 6 = x1 ∧
    fld w 20 5 = x2 ∧
    fld w 15 5 = x3 ∧
    fld w 10 5 = x4 ∧
    fld w 5 5 = x5 ∧
    fld w 0 5 = x6 := by
  subst h
  exact ⟨(ex_hi (k := 27) (n := 5) _ _ _ _ (by decide)).trans ((ex_hi (k := 22) (n := 5) _ _ _ _ (by decide)).trans ((ex_hi (k := 17) (n := 5) _ _ _ _ (by decide)).trans ((ex_hi (k := 12) (n := 5) _ _ _ _ (by decide)).trans ((ex_hi (k := 7) (n := 5) _ _ _ _ (by decide)).trans ((ex_hi (k := 1) (n := 6) _ _ _ _ (by decide)).trans (ex_all _)))))),
    (ex_hi (k := 27) (n := 5) _ _ _ _ (by decide)).trans ((ex_hi (k := 22) (n := 5) _ _ _ _ (by decide)).trans ((ex_hi (k := 17) (n := 5) _ _ _ _ (by decide)).trans ((ex_hi (k := 12) (n := 5) _ _ _ _ (by decide)).trans ((ex_hi (k := 7) (n := 5) _ _ _ _ (by decide)).trans (ex_lo _ _))))),
    (ex_hi (k := 27) (n := 5) _ _ _ _ (by decide)).trans ((ex_hi (k := 22) (n := 5) _ _ _ _ (by decide)).trans ((ex_hi (k := 17) (n := 5) _ _ _ _ (by decide)).trans ((ex_hi (k := 12) (n := 5) _ _ _ _ (by decide)).trans (ex_lo _ _)))),
    (ex_hi (k := 27) (n := 5) _ _ _ _ (by decide)).trans ((ex_hi (k := 22) (n := 5) _ _ _ _ (by decide)).trans ((ex_hi (k := 17) (n := 5) _ _ _ _ (by decide)).trans (ex_lo _ _))),
    (ex_hi (k := 27) (n := 5) _ _ _ _ (by decide)).trans ((ex_hi (k := 22) (n := 5) _ _ _ _ (by decide)).trans (ex_lo _ _)),
    (ex_hi (k := 27) (n := 5) _ _ _ _ (by decide)).trans (ex_lo _ _),
    ex_lo _ _⟩

theorem layout24 (x0 : BitVec 1) (x1 : BitVec 6) (x2 : BitVec 5) (x3 : BitVec 5) (x4 : BitVec 5) (x5 : BitVec 5) (x6 : BitVec 3) (x7 : BitVec 2) {w : BitVec 32} (h : x0 ++ x1 ++ x2 ++ x3 ++ x4 ++ x5 ++ x6 ++ x7 = w) :
    fld w 31 1 = x0 ∧
    fld w 25 6 = x1 ∧
    fld w 20 5 = x2 ∧
    fld w 15 5 = x3 ∧
    fld w 10 5 = x4 ∧
    fld w 5 5 = x5 ∧
    fld w 2 3 = x6 ∧
    fld w 0 2 = x7 := by
  subst h
  exact ⟨(ex_hi (k := 30) (n := 2) _ _ _ _ (by decide)).trans ((ex_hi (k := 27) (n := 3) _ _ _ _ (by decide)).trans ((ex_hi (k := 22) (n := 5) _ _ _ _ (by decide)).trans ((ex_hi (k := 17) (n := 5) _ _ _ _ (by decide)).trans ((ex_hi (k := 12) (n := 5) _ _ _ _ (by decide)).trans ((ex_hi (k := 7) (n := 5) _ _ _ _ (by decide)).trans ((ex_hi (k := 1) (n := 6) _ _ _ _ (by decide)).trans (ex_all _))))))),
    (ex_hi (k := 30) (n := 2) _ _ _ _ (by decide)).trans ((ex_hi (k := 27) (n := 3) _ _ _ _ (by decide)).trans ((ex_hi (k := 22) (n := 5) _ _ _ _ (by decide)).trans ((ex_hi (k := 17) (n := 5) _ _ _ _ (by decide)).trans ((ex_hi (k := 12) (n := 5) _ _ _ _ (by decide)).trans ((ex_hi (k := 7) (n := 5) _ _ _ _ (by decide)).trans (ex_lo _ _)))))),
    (ex_hi (k := 30) (n := 2) _ _ _ _ (by decide)).trans ((ex_hi (k := 27) (n := 3) _ _ _ _ (by decide)).trans ((ex_hi (k := 22) (n := 5) _ _ _ _ (by decide)).trans ((ex_hi (k := 17) (n := 5) _ _ _ _ (by decide)).trans ((ex_hi (k := 12) (n := 5) _ _ _ _ (by decide)).trans (ex_lo _ _))))),
    (ex_hi (k := 30) (n := 2) _ _ _ _ (by decide)).trans ((ex_hi (k := 27) (n := 3) _ _ _ _ (by decide)).trans ((ex_hi (k := 22) (n := 5) _ _ _ _ (by decide)).trans ((ex_hi (k := 17) (n := 5) _ _ _ _ (by decide)).trans (ex_lo _ _)))),
    (ex_hi (k := 30) (n := 2) _ _ _ _ (by decide)).trans ((ex_hi (k := 27) (n := 3) _ _ _ _ (by decide)).trans ((ex_hi (k := 22) (n := 5) _ _ _ _ (by decide)).trans (ex_lo _ _))),
    (ex_hi (k := 30) (n := 2) _ _ _ _ (by decide)).trans ((ex_hi (k := 27) (n := 3) _ _ _ _ (by decide)).trans (ex_lo _ _)),
    (ex_hi (k := 30) (n := 2) _ _ _ _ (by decide)).trans (ex_lo _ _),
    ex_lo _ _⟩

theorem layout25 (x0 : BitVec 1) (x1 : BitVec 6) (x2 : BitVec 5) (x3 : BitVec 5) (x4 : BitVec 5) (x5 : BitVec 5) (x6 : BitVec 2) (x7 : BitVec 3) {w : BitVec 32} (h : x0 ++ x1 ++ x2 ++ x3 ++ x4 ++ x5 ++ x6 ++ x7 = w) :
    fld w 31 1 = x0 ∧
    fld w 25 6 = x1 ∧
    fld w 20 5 = x2 ∧
    fld w 15 5 = x3 ∧
    fld w 10 5 = x4 ∧
    fld w 5 5 = x5 ∧
    fld w 3 2 = x6 ∧
    fld w 0 3 = x7 := by
  subst h
  exact ⟨(ex_hi (k := 29) (n := 3) _ _ _ _ (by decide)).trans ((ex_hi (k := 27) (n := 2) _ _ _ _ (by decide)).trans ((ex_hi (k := 22) (n := 5) _ _ _ _ (by decide)).trans ((ex_hi (k := 17) (n := 5) _ _ _ _ (by decide)).trans ((ex_hi (k := 12) (n := 5) _ _ _ _ (by decide)).trans ((ex_hi (k := 7) (n := 5) _ _ _ _ (by decide)).trans ((ex_hi (k := 1) (n := 6) _ _ _ _ (by decide)).trans (ex_all _))))))),
    (ex_hi (k := 29) (n := 3) _ _ _ _ (by decide)).trans ((ex_hi (k := 27) (n := 2) _ _ _ _ (by decide)).trans ((ex_hi (k := 22) (n := 5) _ _ _ _ (by decide)).trans ((ex_hi (k := 17) (n := 5) _ _ _ _ (by decide)).trans ((ex_hi (k := 12) (n := 5) _ _ _ _ (by decide)).trans ((ex_hi (k := 7) (n := 5) _ _ _ _ (by decide)).trans (ex_lo _ _)))))),
    (ex_hi (k := 29) (n := 3) _ _ _ _ (by decide)).trans ((ex_hi (k := 27) (n := 2) _ _ _ _ (by decide)).trans ((ex_hi (k := 22) (n := 5) _ _ _ _ (by decide)).trans ((ex_hi (k := 17) (n := 5) _ _ _ _ (by decide)).trans ((ex_hi (k := 12) (n := 5) _ _ _ _ (by decide)).trans (ex_lo _ _))))),
    (ex_hi (k := 29) (n := 3) _ _ _ _ (by decide)).trans ((ex_hi (k := 27) (n := 2) _ _ _ _ (by decide)).trans ((ex_hi (k := 22) (n := 5) _ _ _ _ (by decide)).trans ((ex_hi (k := 17) (n := 5) _ _ _ _ (by decide)).trans (ex_lo _ _)))),
    (ex_hi (k := 29) (n := 3) _ _ _ _ (by decide)).trans ((ex_hi (k := 27) (n := 2) _ _ _ _ (by decide)).trans ((ex_hi (k := 22) (n := 5) _ _ _ _ (by decide)).trans (ex_lo _ _))),
    (ex_hi (k := 29) (n := 3) _ _ _ _ (by decide)).trans ((ex_hi (k := 27) (n := 2) _ _ _ _ (by decide)).trans (ex_lo _ _)),
    (ex_hi (k := 29) (n := 3) _ _ _ _ (by decide)).trans (ex_lo _ _),
    ex_lo _ _⟩

theorem layout26 (x0 : BitVec 1) (x1 : BitVec 6) (x2 : BitVec 5) (x3 : BitVec 5) (x4 : BitVec 5) (x5 : BitVec 5) (x6 : BitVec 1) (x7 : BitVec 4) {w : BitVec 32} (h : x0 ++ x1 ++ x2 ++ x3 ++ x4 ++ x5 ++ x6 ++ x7 = w) :
    fld w 31 1 = x0 ∧
    fld w 25 6 = x1 ∧
    fld w 20 5 = x2 ∧
    fld w 15 5 = x3 ∧
    fld w 10 5 = x4 ∧
    fld w 5 5 = x5 ∧
    fld w 4 1 = x6 ∧
    fld w 0 4 = x7 := by
  subst h
  exact ⟨(ex_hi (k := 28) (n := 4) _ _ _ _ (by decide)).trans ((ex_hi (k := 27) (n := 1) _ _ _ _ (by decide)).trans ((ex_hi (k := 22) (n := 5) _ _ _ _ (by decide)).trans ((ex_hi (k := 17) (n := 5) _ _ _ _ (by decide)).trans ((ex_hi (k := 12) (n := 5) _ _ _ _ (by decide)).trans ((ex_hi (k := 7) (n := 5) _ _ _ _ (by decide)).trans ((ex_hi (k := 1) (n := 6) _ _ _ _ (by decide)).trans (ex_all _))))))),
    (ex_hi (k := 28) (n := 4) _ _ _ _ (by decide)).trans ((ex_hi (k := 27) (n := 1) _ _ _ _ (by decide)).trans ((ex_hi (k := 22) (n := 5) _ _ _ _ (by decide)).trans ((ex_hi (k := 17) (n := 5) _ _ _ _ (by decide)).trans ((ex_hi (k := 12) (n := 5) _ _ _ _ (by decide)).trans ((ex_hi (k := 7) (n := 5) _ _ _ _ (by decide)).trans (ex_lo _ _)))))),
    (ex_hi (k := 28) (n := 4) _ _ _ _ (by decide)).trans ((ex_hi (k := 27) (n := 1) _ _ _ _ (by decide)).trans ((ex_hi (k := 22) (n := 5) _ _ _ _ (by decide)).trans ((ex_hi (k := 17) (n := 5) _ _ _ _ (by decide)).trans ((ex_hi (k := 12) (n := 5) _ _ _ _ (by decide)).trans (ex_lo _ _))))),
    (ex_hi (k := 28) (n := 4) _ _ _ _ (by decide)).trans ((ex_hi (k := 27) (n := 1) _ _ _ _ (by decide)).trans ((ex_hi (k := 22) (n := 5) _ _ _ _ (by decide)).trans ((ex_hi (k := 17) (n := 5) _ _ _ _ (by decide)).trans (ex_lo _ _)))),
    (ex_hi (k := 28) (n := 4) _ _ _ _ (by decide)).trans ((ex_hi (k := 27) (n := 1) _ _ _ _ (by decide)).trans ((ex_hi (k := 22) (n := 5) _ _ _ _ (by decide)).trans (ex_lo _ _))),
    (ex_hi (k := 28) (n := 4) _ _ _ _ (by decide)).trans ((ex_hi (k := 27) (n := 1) _ _ _ _ (by decide)).trans (ex_lo _ _)),
    (ex_hi (k := 28) (n := 4) _ _ _ _ (by decide)).trans (ex_lo _ _),
    ex_lo _ _⟩

theorem layout27 (x0 : BitVec 1) (x1 : BitVec 6) (x2 : BitVec 10) (x3 : BitVec 5) (x4 : BitVec 5) (x5 : BitVec 5) {w : BitVec 32} (h : x0 ++ x1 ++ x2 ++ x3 ++ x4 ++ x5 = w) :
    fld w 31 1 = x0 ∧
    fld w 25 6 = x1 ∧
    fld w 15 10 = x2 ∧
    fld w 10 5 = x3 ∧
    fld w 5 5 = x4 ∧
    fld w 0 5 = x5 := by
  subst h
  exact ⟨(ex_hi (k := 27) (n := 5) _ _ _ _ (by decide)).trans ((ex_hi (k := 22) (n := 5) _ _ _ _ (by decide)).trans ((ex_hi (k := 17) (n := 5) _ _ _ _ (by decide)).trans ((ex_hi (k := 7) (n := 10) _ _ _ _ (by decide)).trans ((ex_hi (k := 1) (n := 6) _ _ _ _ (by decide)).trans (ex_all _))))),
    (ex_hi (k := 27) (n := 5) _ _ _ _ (by decide)).trans ((ex_hi (k := 22) (n := 5) _ _ _ _ (by decide)).trans ((ex_hi (k := 17) (n := 5) _ _ _ _ (by decide)).trans ((ex_hi (k := 7) (n := 10) _ _ _ _ (by decide)).trans (ex_lo _ _)))),
    (ex_hi (k := 27) (n := 5) _ _ _ _ (by decide)).trans ((ex_hi (k := 22) (n := 5) _ _ _ _ (by decide)).trans ((ex_hi (k := 17) (n := 5) _ _ _ _ (by decide)).trans (ex_lo _ _))),
    (ex_hi (k := 27) (n := 5) _ _ _ _ (by decide)).trans ((ex_hi (k := 22) (n := 5) _ _ _ _ (by decide)).trans (ex_lo _ _)),
    (ex_hi (k := 27) (n := 5) _ _ _ _ (by decide)).trans (ex_lo _ _),
    ex_lo _ _⟩

theorem layout28 (x0 : BitVec 1) (x1 : BitVec 6) (x2 : BitVec 5) (x3 : BitVec 5) (x4 : BitVec 10) (x5 : BitVec 5) {w : BitVec 32} (h : x0 ++ x1 ++ x2 ++ x3 ++ x4 ++ x5 = w) :
    fld w 31 1 = x0 ∧
    fld w 25 6 = x1 ∧
    fld w 20 5 = x2 ∧
    fld w 15 5 = x3 ∧
    fld w 5 10 = x4 ∧
    fld w 0 5 = x5 := by
  subst h
  exact ⟨(ex_hi (k := 27) (n := 5) _ _ _ _ (by decide)).trans ((ex_hi (k := 17) (n := 10) _ _ _ _ (by decide)).trans ((ex_hi (k := 12) (n := 5) _ _ _ _ (by decide)).trans ((ex_hi (k := 7) (n := 5) _ _ _ _ (by decide)).trans ((ex_hi (k := 1) (n := 6) _ _ _ _ (by decide)).trans (ex_all _))))),
    (ex_hi (k := 27) (n := 5) _ _ _ _ (by decide)).trans ((ex_hi (k := 17) (n := 10) _ _ _ _ (by decide)).trans ((ex_hi (k := 12) (n := 5) _ _ _ _ (by decide)).trans ((ex_hi (k := 7) (n := 5) _ _ _ _ (by decide)).trans (ex_lo _ _)))),
    (ex_hi (k := 27) (n := 5) _ _ _ _ (by decide)).trans ((ex_hi (k := 17) (n := 10) _ _ _ _ (by decide)).trans ((ex_hi (k := 12) (n := 5) _ _ _ _ (by decide)).trans (ex_lo _ _))),
    (ex_hi (k := 27) (n := 5) _ _ _ _ (by decide)).trans ((ex_hi (k := 17) (n := 10) _ _ _ _ (by decide)).trans (ex_lo _ _)),
    (ex_hi (k := 27) (n := 5) _ _ _ _ (by decide)).trans (ex_lo _ _),
    ex_lo _ _⟩

theorem layout29 (x0 : BitVec 1) (x1 : BitVec 6) (x2 : BitVec 5) (x3 : BitVec 10) (x4 : BitVec 5) (x5 : BitVec 5) {w : BitVec 32} (h : x0 ++ x1 ++ x2 ++ x3 ++ x4 ++ x5 = w) :
    fld w 31 1 = x0 ∧
    fld w 25 6 = x1 ∧
    fld w 20 5 = x2 ∧
    fld w 10 10 = x3 ∧
    fld w 5 5 = x4 ∧
    fld w 0 5 = x5 := by
  subst h
  exact ⟨(ex_hi (k := 27) (n := 5) _ _ _ _ (by decide)).trans ((ex_hi (k := 22) (n := 5) _ _ _ _ (by decide)).trans ((ex_hi (k := 12) (n := 10) _ _ _ _ (by decide)).trans ((ex_hi (k := 7) (n := 5) _ _ _ _ (by decide)).trans ((ex_hi (k := 1) (n := 6) _ _ _ _ (by decide)).trans (ex_all _))))),
    (ex_hi (k := 27) (n := 5) _ _ _ _ (by decide)).trans ((ex_hi (k := 22) (n := 5) _ _ _ _ (by decide)).trans ((ex_hi (k := 12) (n := 10) _ _ _ _ (by decide)).trans ((ex_hi (k := 7) (n := 5) _ _ _ _ (by decide)).trans (ex_lo _ _)))),
    (ex_hi (k := 27) (n := 5) _ _ _ _ (by decide)).trans ((ex_hi (k := 22) (n := 5) _ _ _ _ (by decide)).trans ((ex_hi (k := 12) (n := 10) _ _ _ _ (by decide)).trans (ex_lo _ _))),
    (ex_hi (k := 27) (n := 5) _ _ _ _ (by decide)).trans ((ex_hi (k := 22) (n := 5) _ _ _ _ (by decide)).trans (ex_lo _ _)),
    (ex_hi (k := 27) (n := 5) _ _ _ _ (by decide)).trans (ex_lo _ _),
    ex_lo _ _⟩

theorem layout30 (x0 : BitVec 1) (x1 : BitVec 6) (x2 : BitVec 5) (x3 : BitVec 5) (x4 : BitVec 2) (x5 : BitVec 3) (x6 : BitVec 5) (x7 : BitVec 1) (x8 : BitVec 4) {w : BitVec 32} (h : x0 ++ x1 ++ x2 ++ x3 ++ x4 ++ x5 ++ x6 ++ x7 ++ x8 = w) :
    fld w 31 1 = x0 ∧
    fld w 25 6 = x1 ∧
    fld w 20 5 = x2 ∧
    fld w 15 5 = x3 ∧
    fld w 13 2 = x4 ∧
    fld w 10 3 = x5 ∧
    fld w 5 5 = x6 ∧
    fld w 4 1 = x7 ∧
    fld w 0 4 = x8 := by
  subst h
  exact ⟨(ex_hi (k := 28) (n := 4) _ _ _ _ (by decide)).trans ((ex_hi (k := 27) (n := 1) _ _ _ _ (by decide)).trans ((ex_hi (k := 22) (n := 5) _ _ _ _ (by decide)).trans ((ex_hi (k := 19) (n := 3) _ _ _ _ (by decide)).trans ((ex_hi (k := 17) (n := 2) _ _ _ _ (by decide)).trans ((ex_hi (k := 12) (n := 5) _ _ _ _ (by decide)).trans ((ex_hi (k := 7) (n := 5) _ _ _ _ (by decide)).trans ((ex_hi (k := 1) (n := 6) _ _ _ _ (by decide)).trans (ex_all _)))))))),
    (ex_hi (k := 28) (n := 4) _ _ _ _ (by decide)).trans ((ex_hi (k := 27) (n := 1) _ _ _ _ (by decide)).trans ((ex_hi (k := 22) (n := 5) _ _ _ _ (by decide)).trans ((ex_hi (k := 19) (n := 3) _ _ _ _ (by decide)).trans ((ex_hi (k := 17) (n := 2) _ _ _ _ (by decide)).trans ((ex_hi (k := 12) (n := 5) _ _ _ _ (by decide)).trans ((ex_hi (k := 7) (n := 5) _ _ _ _ (by decide)).trans (ex_lo _ _))))))),
    (ex_hi (k := 28) (n := 4) _ _ _ _ (by decide)).trans ((ex_hi (k := 27) (n := 1) _ _ _ _ (by decide)).trans ((ex_hi (k := 22) (n := 5) _ _ _ _ (by decide)).trans ((ex_hi (k := 19) (n := 3) _ _ _ _ (by decide)).trans ((ex_hi (k := 17) (n := 2) _ _ _ _ (by decide)).trans ((ex_hi (k := 12) (n := 5) _ _ _ _ (by decide)).trans (ex_lo _ _)))))),
    (ex_hi (k := 28) (n := 4) _ _ _ _ (by decide)).trans ((ex_hi (k := 27) (n := 1) _ _ _ _ (by decide)).trans ((ex_hi (k := 22) (n := 5) _ _ _ _ (by decide)).trans ((ex_hi (k := 19) (n := 3) _ _ _ _ (by decide)).trans ((ex_hi (k := 17) (n := 2) _ _ _ _ (by decide)).trans (ex_lo _ _))))),
    (ex_hi (k := 28) (n := 4) _ _ _ _ (by decide)).trans ((ex_hi (k := 27) (n := 1) _ _ _ _ (by decide)).trans ((ex_hi (k := 22) (n := 5) _ _ _ _ (by decide)).trans ((ex_hi (k := 19) (n := 3) _ _ _ _ (by decide)).trans (ex_lo _ _)))),
    (ex_hi (k := 28) (n := 4) _ _ _ _ (by decide)).trans ((ex_hi (k := 27) (n := 1) _ _ _ _ (by decide)).trans ((ex_hi (k := 22) (n := 5) _ _ _ _ (by decide)).trans (ex_lo _ _))),
    (ex_hi (k := 28) (n := 4) _ _ _ _ (by decide)).trans ((ex_hi (k := 27) (n := 1) _ _ _ _ (by decide)).trans (ex_lo _ _)),
    (ex_hi (k := 28) (n := 4) _ _ _ _ (by decide)).trans (ex_lo _ _),
    ex_lo _ _⟩

theorem layout31 (x0 : BitVec 1) (x1 : BitVec 6) (x2 : BitVec 5) (x3 : BitVec 5) (x4 : BitVec 5) (x5 : BitVec 3) (x6 : BitVec 1) (x7 : BitVec 1) (x8 : BitVec 2) (x9 : BitVec 3) {w : BitVec 32} (h : x0 ++ x1 ++ x2 ++ x3 ++ x4 ++ x5 ++ x6 ++ x7 ++ x8 ++ x9 = w) :
    fld w 31 1 = x0 ∧
    fld w 25 6 = x1 ∧
    fld w 20 5 = x2 ∧
    fld w 15 5 = x3 ∧
    fld w 10 5 = x4 ∧
    fld w 7 3 = x5 ∧
    fld w 6 1 = x6 ∧
    fld w 5 1 = x7 ∧
    fld w 3 2 = x8 ∧
    fld w 0 3 = x9 := by
  subst h
  exact ⟨(ex_hi (k := 29) (n := 3) _ _ _ _ (by decide)).trans ((ex_hi (k := 27) (n := 2) _ _ _ _ (by decide)).trans ((ex_hi (k := 26) (n := 1) _ _ _ _ (by decide)).trans ((ex_hi (k := 25) (n := 1) _ _ _ _ (by decide)).trans ((ex_hi (k := 22) (n := 3) _ _ _ _ (by decide)).trans ((ex_hi (k := 17) (n := 5) _ _ _ _ (by decide)).trans ((ex_hi (k := 12) (n := 5) _ _ _ _ (by decide)).trans ((ex_hi (k := 7) (n := 5) _ _ _ _ (by decide)).trans ((ex_hi (k := 1) (n := 6) _ _ _ _ (by decide)).trans (ex_all _))))))))),
    (ex_hi (k := 29) (n := 3) _ _ _ _ (by decide)).trans ((ex_hi (k := 27) (n := 2) _ _ _ _ (by decide)).trans ((ex_hi (k := 26) (n := 1) _ _ _ _ (by decide)).trans ((ex_hi (k := 25) (n := 1) _ _ _ _ (by decide)).trans ((ex_hi (k := 22) (n := 3) _ _ _ _ (by decide)).trans ((ex_hi (k := 17) (n := 5) _ _ _ _ (by decide)).trans ((ex_hi (k := 12) (n := 5) _ _ _ _ (by decide)).trans ((ex_hi (k := 7) (n := 5) _ _ _ _ (by decide)).trans (ex_lo _ _)))))))),
    (ex_hi (k := 29) (n := 3) _ _ _ _ (by decide)).trans ((ex_hi (k := 27) (n := 2) _ _ _ _ (by decide)).trans ((ex_hi (k := 26) (n := 1) _ _ _ _ (by decide)).trans ((ex_hi (k := 25) (n := 1) _ _ _ _ (by decide)).trans ((ex_hi (k := 22) (n := 3) _ _ _ _ (by decide)).trans ((ex_hi (k := 17) (n := 5) _ _ _ _ (by decide)).trans ((ex_hi (k := 12) (n := 5) _ _ _ _ (by decide)).trans (ex_lo _ _))))))),
    (ex_hi (k := 29) (n := 3) _ _ _ _ (by decide)).trans ((ex_hi (k := 27) (n := 2) _ _ _ _ (by decide)).trans ((ex_hi (k := 26) (n := 1) _ _ _ _ (by decide)).trans ((ex_hi (k := 25) (n := 1) _ _ _ _ (by decide)).trans ((ex_hi (k := 22) (n := 3) _ _ _ _ (by decide)).trans ((ex_hi (k := 17) (n := 5) _ _ _ _ (by decide)).trans (ex_lo _ _)))))),
    (ex_hi (k := 29) (n := 3) _ _ _ _ (by decide)).trans ((ex_hi (k := 27) (n := 2) _ _ _ _ (by decide)).trans ((ex_hi (k := 26) (n := 1) _ _ _ _ (by decide)).trans ((ex_hi (k := 25) (n := 1) _ _ _ _ (by decide)).trans ((ex_hi (k := 22) (n := 3) _ _ _ _ (by decide)).trans (ex_lo _ _))))),
    (ex_hi (k := 29) (n := 3) _ _ _ _ (by decide)).trans ((ex_hi (k := 27) (n := 2) _ _ _ _ (by decide)).trans ((ex_hi (k := 26) (n := 1) _ _ _ _ (by decide)).trans ((ex_hi (k := 25) (n := 1) _ _ _ _ (by decide)).trans (ex_lo _ _)))),
    (ex_hi (k := 29) (n := 3) _ _ _ _ (by decide)).trans ((ex_hi (k := 27) (n := 2) _ _ _ _ (by decide)).trans ((ex_hi (k := 26) (n := 1) _ _ _ _ (by decide)).trans (ex_lo _ _))),
    (ex_hi (k := 29) (n := 3) _ _ _ _ (by decide)).trans ((ex_hi (k := 27) (n := 2) _ _ _ _ (by decide)).trans (ex_lo _ _)),
    (ex_hi (k := 29) (n := 3) _ _ _ _ (by decide)).trans (ex_lo _ _),
    ex_lo _ _⟩

theorem layout32 (x0 : BitVec 1) (x1 : BitVec 6) (x2 : BitVec 5) (x3 : BitVec 13) (x4 : BitVec 1) (x5 : BitVec 1) (x6 : BitVec 2) (x7 : BitVec 3) {w : BitVec 32} (h : x0 ++ x1 ++ x2 ++ x3 ++ x4 ++ x5 ++ x6 ++ x7 = w) :
    fld w 31 1 = x0 ∧
    fld w 25 6 = x1 ∧
    fld w 20 5 = x2 ∧
    fld w 7 13 = x3 ∧
    fld w 6 1 = x4 ∧
    fld w 5 1 = x5 ∧
    fld w 3 2 = x6 ∧
    fld w 0 3 = x7 := by
  subst h
  exact ⟨(ex_hi (k := 29) (n := 3) _ _ _ _ (by decide)).trans ((ex_hi (k := 27) (n := 2) _ _ _ _ (by decide)).trans ((ex_hi (k := 26) (n := 1) _ _ _ _ (by decide)).trans ((ex_hi (k := 25) (n := 1) _ _ _ _ (by decide)).trans ((ex_hi (k := 12) (n := 13) _ _ _ _ (by decide)).trans ((ex_hi (k := 7) (n := 5) _ _ _ _ (by decide)).trans ((ex_hi (k := 1) (n := 6) _ _ _ _ (by decide)).trans (ex_all _))))))),
    (ex_hi (k := 29) (n := 3) _ _ _ _ (by decide)).trans ((ex_hi (k := 27) (n := 2) _ _ _ _ (by decide)).trans ((ex_hi (k := 26) (n := 1) _ _ _ _ (by decide)).trans ((ex_hi (k := 25) (n := 1) _ _ _ _ (by decide)).trans ((ex_hi (k := 12) (n := 13) _ _ _ _ (by decide)).trans ((ex_hi (k := 7) (n := 5) _ _ _ _ (by decide)).trans (ex_lo _ _)))))),
    (ex_hi (k := 29) (n := 3) _ _ _ _ (by decide)).trans ((ex_hi (k := 27) (n := 2) _ _ _ _ (by decide)).trans ((ex_hi (k := 26) (n := 1) _ _ _ _ (by decide)).trans ((ex_hi (k := 25) (n := 1) _ _ _ _ (by decide)).trans ((ex_hi (k := 12) (n := 13) _ _ _ _ (by decide)).trans (ex_lo _ _))))),
    (ex_hi (k := 29) (n := 3) _ _ _ _ (by decide)).trans ((ex_hi (k := 27) (n := 2) _ _ _ _ (by decide)).trans ((ex_hi (k := 26) (n := 1) _ _ _ _ (by decide)).trans ((ex_hi (k := 25) (n := 1) _ _ _ _ (by decide)).trans (ex_lo _ _)))),
    (ex_hi (k := 29) (n := 3) _ _ _ _ (by decide)).trans ((ex_hi (k := 27) (n := 2) _ _ _ _ (by decide)).trans ((ex_hi (k := 26) (n := 1) _ _ _ _ (by decide)).trans (ex_lo _ _))),
    (ex_hi (k := 29) (n := 3) _ _ _ _ (by decide)).trans ((ex_hi (k := 27) (n := 2) _ _ _ _ (by decide)).trans (ex_lo _ _)),
    (ex_hi (k := 29) (n := 3) _ _ _ _ (by decide)).trans (ex_lo _ _),
    ex_lo _ _⟩

theorem layout33 (x0 : BitVec 1) (x1 : BitVec 6) (x2 : BitVec 5) (x3 : BitVec 5) (x4 : BitVec 8) (x5 : BitVec 1) (x6 : BitVec 1) (x7 : BitVec 2) (x8 : BitVec 3) {w : BitVec 32} (h : x0 ++ x1 ++ x2 ++ x3 ++ x4 ++ x5 ++ x6 ++ x7 ++ x8 = w) :
    fld w 31 1 = x0 ∧
    fld w 25 6 = x1 ∧
    fld w 20 5 = x2 ∧
    fld w 15 5 = x3 ∧
    fld w 7 8 = x4 ∧
    fld w 6 1 = x5 ∧
    fld w 5 1 = x6 ∧
    fld w 3 2 = x7 ∧
    fld w 0 3 = x8 := by
  subst h
  exact ⟨(ex_hi (k := 29) (n := 3) _ _ _ _ (by decide)).trans ((ex_hi (k := 27) (n := 2) _ _ _ _ (by decide)).trans ((ex_hi (k := 26) (n := 1) _ _ _ _ (by decide)).trans ((ex_hi (k := 25) (n := 1) _ _ _ _ (by decide)).trans ((ex_hi (k := 17) (n := 8) _ _ _ _ (by decide)).trans ((ex_hi (k := 12) (n := 5) _ _ _ _ (by decide)).trans ((ex_hi (k := 7) (n := 5) _ _ _ _ (by decide)).trans ((ex_hi (k := 1) (n := 6) _ _ _ _ (by decide)).trans (ex_all _)))))))),
    (ex_hi (k := 29) (n := 3) _ _ _ _ (by decide)).trans ((ex_hi (k := 27) (n := 2) _ _ _ _ (by decide)).trans ((ex_hi (k := 26) (n := 1) _ _ _ _ (by decide)).trans ((ex_hi (k := 25) (n := 1) _ _ _ _ (by decide)).trans ((ex_hi (k := 17) (n := 8) _ _ _ _ (by decide)).trans ((ex_hi (k := 12) (n := 5) _ _ _ _ (by decide)).trans ((ex_hi (k := 7) (n := 5) _ _ _ _ (by decide)).trans (ex_lo _ _))))))),
    (ex_hi (k := 29) (n := 3) _ _ _ _ (by decide)).trans ((ex_hi (k := 27) (n := 2) _ _ _ _ (by decide)).trans ((ex_hi (k := 26) (n := 1) _ _ _ _ (by decide)).trans ((ex_hi (k := 25) (n := 1) _ _ _ _ (by decide)).trans ((ex_hi (k := 17) (n := 8) _ _ _ _ (by decide)).trans ((ex_hi (k := 12) (n := 5) _ _ _ _ (by decide)).trans (ex_lo _ _)))))),
    (ex_hi (k := 29) (n := 3) _ _ _ _ (by decide)).trans ((ex_hi (k := 27) (n := 2) _ _ _ _ (by decide)).trans ((ex_hi (k := 26) (n := 1) _ _ _ _ (by decide)).trans ((ex_hi (k := 25) (n := 1) _ _ _ _ (by decide)).trans ((ex_hi (k := 17) (n := 8) _ _ _ _ (by decide)).trans (ex_lo _ _))))),
    (ex_hi (k := 29) (n := 3) _ _ _ _ (by decide)).trans ((ex_hi (k := 27) (n := 2) _ _ _ _ (by decide)).trans ((ex_hi (k := 26) (n := 1) _ _ _ _ (by decide)).trans ((ex_hi (k := 25) (n := 1) _ _ _ _ (by decide)).trans (ex_lo _ _)))),
    (ex_hi (k := 29) (n := 3) _ _ _ _ (by decide)).trans ((ex_hi (k := 27) (n := 2) _ _ _ _ (by decide)).trans ((ex_hi (k := 26) (n := 1) _ _ _ _ (by decide)).trans (ex_lo _ _))),
    (ex_hi (k := 29) (n := 3) _ _ _ _ (by decide)).trans ((ex_hi (k := 27) (n := 2) _ _ _ _ (by decide)).trans (ex_lo _ _)),
    (ex_hi (k := 29) (n := 3) _ _ _ _ (by decide)).trans (ex_lo _ _),
    ex_lo _ _⟩

theorem layout34 (x0 : BitVec 1) (x1 : BitVec 6) (x2 : BitVec 5) (x3 : BitVec 9) (x4 : BitVec 1) (x5 : BitVec 3) (x6 : BitVec 1) (x7 : BitVec 1) (x8 : BitVec 2) (x9 : BitVec 3) {w : BitVec 32} (h : x0 ++ x1 ++ x2 ++ x3 ++ x4 ++ x5 ++ x6 ++ x7 ++ x8 ++ x9 = w) :
    fld w 31 1 = x0 ∧
    fld w 25 6 = x1 ∧
    fld w 20 5 = x2 ∧
    fld w 11 9 = x3 ∧
    fld w 10 1 = x4 ∧
    fld w 7 3 = x5 ∧
    fld w 6 1 = x6 ∧
    fld w 5 1 = x7 ∧
    fld w 3 2 = x8 ∧
    fld w 0 3 = x9 := by
  subst h
  exact ⟨(ex_hi (k := 29) (n := 3) _ _ _ _ (by decide)).trans ((ex_hi (k := 27) (n := 2) _ _ _ _ (by decide)).trans ((ex_hi (k := 26) (n := 1) _ _ _ _ (by decide)).trans ((ex_hi (k := 25) (n := 1) _ _ _ _ (by decide)).trans ((ex_hi (k := 22) (n := 3) _ _ _ _ (by decide)).trans ((ex_hi (k := 21) (n := 1) _ _ _ _ (by decide)).trans ((ex_hi (k := 12) (n := 9) _ _ _ _ (by decide)).trans ((ex_hi (k := 7) (n := 5) _ _ _ _ (by decide)).trans ((ex_hi (k := 1) (n := 6) _ _ _ _ (by decide)).trans (ex_all _))))))))),
    (ex_hi (k := 29) (n := 3) _ _ _ _ (by decide)).trans ((ex_hi (k := 27) (n := 2) _ _ _ _ (by decide)).trans ((ex_hi (k := 26) (n := 1) _ _ _ _ (by decide)).trans ((ex_hi (k := 25) (n := 1) _ _ _ _ (by decide)).trans ((ex_hi (k := 22) (n := 3) _ _ _ _ (by decide)).trans ((ex_hi (k := 21) (n := 1) _ _ _ _ (by decide)).trans ((ex_hi (k := 12) (n := 9) _ _ _ _ (by decide)).trans ((ex_hi (k := 7) (n := 5) _ _ _ _ (by decide)).trans (ex_lo _ _)))))))),
    (ex_hi (k := 29) (n := 3) _ _ _ _ (by decide)).trans ((ex_hi (k := 27) (n := 2) _ _ _ _ (by decide)).trans ((ex_hi (k := 26) (n := 1) _ _ _ _ (by decide)).trans ((ex_hi (k := 25) (n := 1) _ _ _ _ (by decide)).trans ((ex_hi (k := 22) (n := 3) _ _ _ _ (by decide)).trans ((ex_hi (k := 21) (n := 1) _ _ _ _ (by decide)).trans ((ex_hi (k := 12) (n := 9) _ _ _ _ (by decide)).trans (ex_lo _ _))))))),
    (ex_hi (k := 29) (n := 3) _ _ _ _ (by decide)).trans ((ex_hi (k := 27) (n := 2) _ _ _ _ (by decide)).trans ((ex_hi (k := 26) (n := 1) _ _ _ _ (by decide)).trans ((ex_hi (k := 25) (n := 1) _ _ _ _ (by decide)).trans ((ex_hi (k := 22) (n := 3) _ _ _ _ (by decide)).trans ((ex_hi (k := 21) (n := 1) _ _ _ _ (by decide)).trans (ex_lo _ _)))))),
    (ex_hi (k := 29) (n := 3) _ _ _ _ (by decide)).trans ((ex_hi (k := 27) (n := 2) _ _ _ _ (by decide)).trans ((ex_hi (k := 26) (n := 1) _ _ _ _ (by decide)).trans ((ex_hi (k := 25) (n := 1) _ _ _ _ (by decide)).trans ((ex_hi (k := 22) (n := 3) _ _ _ _ (by decide)).trans (ex_lo _ _))))),
    (ex_hi (k := 29) (n := 3) _ _ _ _ (by decide)).trans ((ex_hi (k := 27) (n := 2) _ _ _ _ (by decide)).trans ((ex_hi (k := 26) (n := 1) _ _ _ _ (by decide)).trans ((ex_hi (k := 25) (n := 1) _ _ _ _ (by decide)).trans (ex_lo _ _)))),
    (ex_hi (k := 29) (n := 3) _ _ _ _ (by decide)).trans ((ex_hi (k := 27) (n := 2) _ _ _ _ (by decide)).trans ((ex_hi (k := 26) (n := 1) _ _ _ _ (by decide)).trans (ex_lo _ _))),
    (ex_hi (k := 29) (n := 3) _ _ _ _ (by decide)).trans ((ex_hi (k := 27) (n := 2) _ _ _ _ (by decide)).trans (ex_lo _ _)),
    (ex_hi (k := 29) (n := 3) _ _ _ _ (by decide)).trans (ex_lo _ _),
    ex_lo _ _⟩

theorem layout35 (x0 : BitVec 1) (x1 : BitVec 6) (x2 : BitVec 23) (x3 : BitVec 1) (x4 : BitVec 1) {w : BitVec 32} (h : x0 ++ x1 ++ x2 ++ x3 ++ x4 = w) :
    fld w 31 1 = x0 ∧
    fld w 25 6 = x1 ∧
    fld w 2 23 = x2 ∧
    fld w 1 1 = x3 ∧
    fld w 0 1 = x4 := by
  subst h
  exact ⟨(ex_hi (k := 31) (n := 1) _ _ _ _ (by decide)).trans ((ex_hi (k := 30) (n := 1) _ _ _ _ (by decide)).trans ((ex_hi (k := 7) (n := 23) _ _ _ _ (by decide)).trans ((ex_hi (k := 1) (n := 6) _ _ _ _ (by decide)).trans (ex_all _)))),
    (ex_hi (k := 31) (n := 1) _ _ _ _ (by decide)).trans ((ex_hi (k := 30) (n := 1) _ _ _ _ (by decide)).trans ((ex_hi (k := 7) (n := 23) _ _ _ _ (by decide)).trans (ex_lo _ _))),
    (ex_hi (k := 31) (n := 1) _ _ _ _ (by decide)).trans ((ex_hi (k := 30) (n := 1) _ _ _ _ (by decide)).trans (ex_lo _ _)),
    (ex_hi (k := 31) (n := 1) _ _ _ _ (by decide)).trans (ex_lo _ _),
    ex_lo _ _⟩

/-- The decoder gives a well-formed instruction back from its word. -/
def Coded.Statement (i : Instr) : Prop := i.hasWord = true → i.wellFormed = true → decode (encode i) = .ok i

theorem Coded.add (d : BitVec 5) (a : BitVec 5) (b : BitVec 5) (w : BitVec 1) : Coded.Statement (.add d a b w) := by
  intro _ hw
  show decode (0#1 ++ 0x01#6 ++ d ++ a ++ b ++ 0#3 ++ w ++ 0#6) = _
  generalize h : (0#1 ++ 0x01#6 ++ d ++ a ++ b ++ 0#3 ++ w ++ 0#6 : BitVec 32) = u
  obtain ⟨e31, e25, e20, e15, e10, e7, e6, e0⟩ := layout0 _ _ _ _ _ _ _ _ h
  refine decode_of ((major_1 e31 e25).trans ?_) hw
  unfold decodeInt
  rw [e0]
  simp only [need, e6, e7, e10, e15, e20]
  rfl

theorem Coded.sub (d : BitVec 5) (a : BitVec 5) (b : BitVec 5) (w : BitVec 1) : Coded.Statement (.sub d a b w) := by
  intro _ hw
  show decode (0#1 ++ 0x01#6 ++ d ++ a ++ b ++ 0#3 ++ w ++ 1#6) = _
  generalize h : (0#1 ++ 0x01#6 ++ d ++ a ++ b ++ 0#3 ++ w ++ 1#6 : BitVec 32) = u
  obtain ⟨e31, e25, e20, e15, e10, e7, e6, e0⟩ := layout0 _ _ _ _ _ _ _ _ h
  refine decode_of ((major_1 e31 e25).trans ?_) hw
  unfold decodeInt
  rw [e0]
  simp only [need, e6, e7, e10, e15, e20]
  rfl

theorem Coded.and (d : BitVec 5) (a : BitVec 5) (b : BitVec 5) (w : BitVec 1) : Coded.Statement (.and d a b w) := by
  intro _ hw
  show decode (0#1 ++ 0x01#6 ++ d ++ a ++ b ++ 0#3 ++ w ++ 2#6) = _
  generalize h : (0#1 ++ 0x01#6 ++ d ++ a ++ b ++ 0#3 ++ w ++ 2#6 : BitVec 32) = u
  obtain ⟨e31, e25, e20, e15, e10, e7, e6, e0⟩ := layout0 _ _ _ _ _ _ _ _ h
  refine decode_of ((major_1 e31 e25).trans ?_) hw
  unfold decodeInt
  rw [e0]
  simp only [need, e6, e7, e10, e15, e20]
  rfl

theorem Coded.or (d : BitVec 5) (a : BitVec 5) (b : BitVec 5) (w : BitVec 1) : Coded.Statement (.or d a b w) := by
  intro _ hw
  show decode (0#1 ++ 0x01#6 ++ d ++ a ++ b ++ 0#3 ++ w ++ 3#6) = _
  generalize h : (0#1 ++ 0x01#6 ++ d ++ a ++ b ++ 0#3 ++ w ++ 3#6 : BitVec 32) = u
  obtain ⟨e31, e25, e20, e15, e10, e7, e6, e0⟩ := layout0 _ _ _ _ _ _ _ _ h
  refine decode_of ((major_1 e31 e25).trans ?_) hw
  unfold decodeInt
  rw [e0]
  simp only [need, e6, e7, e10, e15, e20]
  rfl

theorem Coded.xor (d : BitVec 5) (a : BitVec 5) (b : BitVec 5) (w : BitVec 1) : Coded.Statement (.xor d a b w) := by
  intro _ hw
  show decode (0#1 ++ 0x01#6 ++ d ++ a ++ b ++ 0#3 ++ w ++ 4#6) = _
  generalize h : (0#1 ++ 0x01#6 ++ d ++ a ++ b ++ 0#3 ++ w ++ 4#6 : BitVec 32) = u
  obtain ⟨e31, e25, e20, e15, e10, e7, e6, e0⟩ := layout0 _ _ _ _ _ _ _ _ h
  refine decode_of ((major_1 e31 e25).trans ?_) hw
  unfold decodeInt
  rw [e0]
  simp only [need, e6, e7, e10, e15, e20]
  rfl

theorem Coded.sll (d : BitVec 5) (a : BitVec 5) (b : BitVec 5) (w : BitVec 1) : Coded.Statement (.sll d a b w) := by
  intro _ hw
  show decode (0#1 ++ 0x01#6 ++ d ++ a ++ b ++ 0#3 ++ w ++ 5#6) = _
  generalize h : (0#1 ++ 0x01#6 ++ d ++ a ++ b ++ 0#3 ++ w ++ 5#6 : BitVec 32) = u
  obtain ⟨e31, e25, e20, e15, e10, e7, e6, e0⟩ := layout0 _ _ _ _ _ _ _ _ h
  refine decode_of ((major_1 e31 e25).trans ?_) hw
  unfold decodeInt
  rw [e0]
  simp only [need, e6, e7, e10, e15, e20]
  rfl

theorem Coded.srl (d : BitVec 5) (a : BitVec 5) (b : BitVec 5) (w : BitVec 1) : Coded.Statement (.srl d a b w) := by
  intro _ hw
  show decode (0#1 ++ 0x01#6 ++ d ++ a ++ b ++ 0#3 ++ w ++ 6#6) = _
  generalize h : (0#1 ++ 0x01#6 ++ d ++ a ++ b ++ 0#3 ++ w ++ 6#6 : BitVec 32) = u
  obtain ⟨e31, e25, e20, e15, e10, e7, e6, e0⟩ := layout0 _ _ _ _ _ _ _ _ h
  refine decode_of ((major_1 e31 e25).trans ?_) hw
  unfold decodeInt
  rw [e0]
  simp only [need, e6, e7, e10, e15, e20]
  rfl

theorem Coded.sra (d : BitVec 5) (a : BitVec 5) (b : BitVec 5) (w : BitVec 1) : Coded.Statement (.sra d a b w) := by
  intro _ hw
  show decode (0#1 ++ 0x01#6 ++ d ++ a ++ b ++ 0#3 ++ w ++ 7#6) = _
  generalize h : (0#1 ++ 0x01#6 ++ d ++ a ++ b ++ 0#3 ++ w ++ 7#6 : BitVec 32) = u
  obtain ⟨e31, e25, e20, e15, e10, e7, e6, e0⟩ := layout0 _ _ _ _ _ _ _ _ h
  refine decode_of ((major_1 e31 e25).trans ?_) hw
  unfold decodeInt
  rw [e0]
  simp only [need, e6, e7, e10, e15, e20]
  rfl

theorem Coded.mul (d : BitVec 5) (a : BitVec 5) (b : BitVec 5) (w : BitVec 1) : Coded.Statement (.mul d a b w) := by
  intro _ hw
  show decode (0#1 ++ 0x01#6 ++ d ++ a ++ b ++ 0#3 ++ w ++ 8#6) = _
  generalize h : (0#1 ++ 0x01#6 ++ d ++ a ++ b ++ 0#3 ++ w ++ 8#6 : BitVec 32) = u
  obtain ⟨e31, e25, e20, e15, e10, e7, e6, e0⟩ := layout0 _ _ _ _ _ _ _ _ h
  refine decode_of ((major_1 e31 e25).trans ?_) hw
  unfold decodeInt
  rw [e0]
  simp only [need, e6, e7, e10, e15, e20]
  rfl

theorem Coded.mulh (d : BitVec 5) (a : BitVec 5) (b : BitVec 5) (w : BitVec 1) : Coded.Statement (.mulh d a b w) := by
  intro _ hw
  show decode (0#1 ++ 0x01#6 ++ d ++ a ++ b ++ 0#3 ++ w ++ 9#6) = _
  generalize h : (0#1 ++ 0x01#6 ++ d ++ a ++ b ++ 0#3 ++ w ++ 9#6 : BitVec 32) = u
  obtain ⟨e31, e25, e20, e15, e10, e7, e6, e0⟩ := layout0 _ _ _ _ _ _ _ _ h
  refine decode_of ((major_1 e31 e25).trans ?_) hw
  unfold decodeInt
  rw [e0]
  simp only [need, e6, e7, e10, e15, e20]
  rfl

theorem Coded.mulhu (d : BitVec 5) (a : BitVec 5) (b : BitVec 5) (w : BitVec 1) : Coded.Statement (.mulhu d a b w) := by
  intro _ hw
  show decode (0#1 ++ 0x01#6 ++ d ++ a ++ b ++ 0#3 ++ w ++ 10#6) = _
  generalize h : (0#1 ++ 0x01#6 ++ d ++ a ++ b ++ 0#3 ++ w ++ 10#6 : BitVec 32) = u
  obtain ⟨e31, e25, e20, e15, e10, e7, e6, e0⟩ := layout0 _ _ _ _ _ _ _ _ h
  refine decode_of ((major_1 e31 e25).trans ?_) hw
  unfold decodeInt
  rw [e0]
  simp only [need, e6, e7, e10, e15, e20]
  rfl

theorem Coded.div (d : BitVec 5) (a : BitVec 5) (b : BitVec 5) (w : BitVec 1) : Coded.Statement (.div d a b w) := by
  intro _ hw
  show decode (0#1 ++ 0x01#6 ++ d ++ a ++ b ++ 0#3 ++ w ++ 11#6) = _
  generalize h : (0#1 ++ 0x01#6 ++ d ++ a ++ b ++ 0#3 ++ w ++ 11#6 : BitVec 32) = u
  obtain ⟨e31, e25, e20, e15, e10, e7, e6, e0⟩ := layout0 _ _ _ _ _ _ _ _ h
  refine decode_of ((major_1 e31 e25).trans ?_) hw
  unfold decodeInt
  rw [e0]
  simp only [need, e6, e7, e10, e15, e20]
  rfl

theorem Coded.divu (d : BitVec 5) (a : BitVec 5) (b : BitVec 5) (w : BitVec 1) : Coded.Statement (.divu d a b w) := by
  intro _ hw
  show decode (0#1 ++ 0x01#6 ++ d ++ a ++ b ++ 0#3 ++ w ++ 12#6) = _
  generalize h : (0#1 ++ 0x01#6 ++ d ++ a ++ b ++ 0#3 ++ w ++ 12#6 : BitVec 32) = u
  obtain ⟨e31, e25, e20, e15, e10, e7, e6, e0⟩ := layout0 _ _ _ _ _ _ _ _ h
  refine decode_of ((major_1 e31 e25).trans ?_) hw
  unfold decodeInt
  rw [e0]
  simp only [need, e6, e7, e10, e15, e20]
  rfl

theorem Coded.rem (d : BitVec 5) (a : BitVec 5) (b : BitVec 5) (w : BitVec 1) : Coded.Statement (.rem d a b w) := by
  intro _ hw
  show decode (0#1 ++ 0x01#6 ++ d ++ a ++ b ++ 0#3 ++ w ++ 13#6) = _
  generalize h : (0#1 ++ 0x01#6 ++ d ++ a ++ b ++ 0#3 ++ w ++ 13#6 : BitVec 32) = u
  obtain ⟨e31, e25, e20, e15, e10, e7, e6, e0⟩ := layout0 _ _ _ _ _ _ _ _ h
  refine decode_of ((major_1 e31 e25).trans ?_) hw
  unfold decodeInt
  rw [e0]
  simp only [need, e6, e7, e10, e15, e20]
  rfl

theorem Coded.remu (d : BitVec 5) (a : BitVec 5) (b : BitVec 5) (w : BitVec 1) : Coded.Statement (.remu d a b w) := by
  intro _ hw
  show decode (0#1 ++ 0x01#6 ++ d ++ a ++ b ++ 0#3 ++ w ++ 14#6) = _
  generalize h : (0#1 ++ 0x01#6 ++ d ++ a ++ b ++ 0#3 ++ w ++ 14#6 : BitVec 32) = u
  obtain ⟨e31, e25, e20, e15, e10, e7, e6, e0⟩ := layout0 _ _ _ _ _ _ _ _ h
  refine decode_of ((major_1 e31 e25).trans ?_) hw
  unfold decodeInt
  rw [e0]
  simp only [need, e6, e7, e10, e15, e20]
  rfl

theorem Coded.min (d : BitVec 5) (a : BitVec 5) (b : BitVec 5) (w : BitVec 1) : Coded.Statement (.min d a b w) := by
  intro _ hw
  show decode (0#1 ++ 0x01#6 ++ d ++ a ++ b ++ 0#3 ++ w ++ 15#6) = _
  generalize h : (0#1 ++ 0x01#6 ++ d ++ a ++ b ++ 0#3 ++ w ++ 15#6 : BitVec 32) = u
  obtain ⟨e31, e25, e20, e15, e10, e7, e6, e0⟩ := layout0 _ _ _ _ _ _ _ _ h
  refine decode_of ((major_1 e31 e25).trans ?_) hw
  unfold decodeInt
  rw [e0]
  simp only [need, e6, e7, e10, e15, e20]
  rfl

theorem Coded.max (d : BitVec 5) (a : BitVec 5) (b : BitVec 5) (w : BitVec 1) : Coded.Statement (.max d a b w) := by
  intro _ hw
  show decode (0#1 ++ 0x01#6 ++ d ++ a ++ b ++ 0#3 ++ w ++ 16#6) = _
  generalize h : (0#1 ++ 0x01#6 ++ d ++ a ++ b ++ 0#3 ++ w ++ 16#6 : BitVec 32) = u
  obtain ⟨e31, e25, e20, e15, e10, e7, e6, e0⟩ := layout0 _ _ _ _ _ _ _ _ h
  refine decode_of ((major_1 e31 e25).trans ?_) hw
  unfold decodeInt
  rw [e0]
  simp only [need, e6, e7, e10, e15, e20]
  rfl

theorem Coded.minu (d : BitVec 5) (a : BitVec 5) (b : BitVec 5) (w : BitVec 1) : Coded.Statement (.minu d a b w) := by
  intro _ hw
  show decode (0#1 ++ 0x01#6 ++ d ++ a ++ b ++ 0#3 ++ w ++ 17#6) = _
  generalize h : (0#1 ++ 0x01#6 ++ d ++ a ++ b ++ 0#3 ++ w ++ 17#6 : BitVec 32) = u
  obtain ⟨e31, e25, e20, e15, e10, e7, e6, e0⟩ := layout0 _ _ _ _ _ _ _ _ h
  refine decode_of ((major_1 e31 e25).trans ?_) hw
  unfold decodeInt
  rw [e0]
  simp only [need, e6, e7, e10, e15, e20]
  rfl

theorem Coded.maxu (d : BitVec 5) (a : BitVec 5) (b : BitVec 5) (w : BitVec 1) : Coded.Statement (.maxu d a b w) := by
  intro _ hw
  show decode (0#1 ++ 0x01#6 ++ d ++ a ++ b ++ 0#3 ++ w ++ 18#6) = _
  generalize h : (0#1 ++ 0x01#6 ++ d ++ a ++ b ++ 0#3 ++ w ++ 18#6 : BitVec 32) = u
  obtain ⟨e31, e25, e20, e15, e10, e7, e6, e0⟩ := layout0 _ _ _ _ _ _ _ _ h
  refine decode_of ((major_1 e31 e25).trans ?_) hw
  unfold decodeInt
  rw [e0]
  simp only [need, e6, e7, e10, e15, e20]
  rfl

theorem Coded.slt (d : BitVec 5) (a : BitVec 5) (b : BitVec 5) (w : BitVec 1) : Coded.Statement (.slt d a b w) := by
  intro _ hw
  show decode (0#1 ++ 0x01#6 ++ d ++ a ++ b ++ 0#3 ++ w ++ 19#6) = _
  generalize h : (0#1 ++ 0x01#6 ++ d ++ a ++ b ++ 0#3 ++ w ++ 19#6 : BitVec 32) = u
  obtain ⟨e31, e25, e20, e15, e10, e7, e6, e0⟩ := layout0 _ _ _ _ _ _ _ _ h
  refine decode_of ((major_1 e31 e25).trans ?_) hw
  unfold decodeInt
  rw [e0]
  simp only [need, e6, e7, e10, e15, e20]
  rfl

theorem Coded.sltu (d : BitVec 5) (a : BitVec 5) (b : BitVec 5) (w : BitVec 1) : Coded.Statement (.sltu d a b w) := by
  intro _ hw
  show decode (0#1 ++ 0x01#6 ++ d ++ a ++ b ++ 0#3 ++ w ++ 20#6) = _
  generalize h : (0#1 ++ 0x01#6 ++ d ++ a ++ b ++ 0#3 ++ w ++ 20#6 : BitVec 32) = u
  obtain ⟨e31, e25, e20, e15, e10, e7, e6, e0⟩ := layout0 _ _ _ _ _ _ _ _ h
  refine decode_of ((major_1 e31 e25).trans ?_) hw
  unfold decodeInt
  rw [e0]
  simp only [need, e6, e7, e10, e15, e20]
  rfl

theorem Coded.addv (d : BitVec 5) (a : BitVec 5) (b : BitVec 5) (w : BitVec 1) : Coded.Statement (.addv d a b w) := by
  intro _ hw
  show decode (0#1 ++ 0x01#6 ++ d ++ a ++ b ++ 0#3 ++ w ++ 21#6) = _
  generalize h : (0#1 ++ 0x01#6 ++ d ++ a ++ b ++ 0#3 ++ w ++ 21#6 : BitVec 32) = u
  obtain ⟨e31, e25, e20, e15, e10, e7, e6, e0⟩ := layout0 _ _ _ _ _ _ _ _ h
  refine decode_of ((major_1 e31 e25).trans ?_) hw
  unfold decodeInt
  rw [e0]
  simp only [need, e6, e7, e10, e15, e20]
  rfl

theorem Coded.subv (d : BitVec 5) (a : BitVec 5) (b : BitVec 5) (w : BitVec 1) : Coded.Statement (.subv d a b w) := by
  intro _ hw
  show decode (0#1 ++ 0x01#6 ++ d ++ a ++ b ++ 0#3 ++ w ++ 22#6) = _
  generalize h : (0#1 ++ 0x01#6 ++ d ++ a ++ b ++ 0#3 ++ w ++ 22#6 : BitVec 32) = u
  obtain ⟨e31, e25, e20, e15, e10, e7, e6, e0⟩ := layout0 _ _ _ _ _ _ _ _ h
  refine decode_of ((major_1 e31 e25).trans ?_) hw
  unfold decodeInt
  rw [e0]
  simp only [need, e6, e7, e10, e15, e20]
  rfl

theorem Coded.clz (d : BitVec 5) (a : BitVec 5) (w : BitVec 1) : Coded.Statement (.clz d a w) := by
  intro _ hw
  show decode (0#1 ++ 0x01#6 ++ d ++ a ++ 0#8 ++ w ++ 23#6) = _
  generalize h : (0#1 ++ 0x01#6 ++ d ++ a ++ 0#8 ++ w ++ 23#6 : BitVec 32) = u
  obtain ⟨e31, e25, e20, e15, e7, e6, e0⟩ := layout1 _ _ _ _ _ _ _ h
  refine decode_of ((major_1 e31 e25).trans ?_) hw
  unfold decodeInt
  rw [e0]
  simp only [need, e6, e7, e15, e20]
  rfl

theorem Coded.popc (d : BitVec 5) (a : BitVec 5) (w : BitVec 1) : Coded.Statement (.popc d a w) := by
  intro _ hw
  show decode (0#1 ++ 0x01#6 ++ d ++ a ++ 0#8 ++ w ++ 24#6) = _
  generalize h : (0#1 ++ 0x01#6 ++ d ++ a ++ 0#8 ++ w ++ 24#6 : BitVec 32) = u
  obtain ⟨e31, e25, e20, e15, e7, e6, e0⟩ := layout1 _ _ _ _ _ _ _ h
  refine decode_of ((major_1 e31 e25).trans ?_) hw
  unfold decodeInt
  rw [e0]
  simp only [need, e6, e7, e15, e20]
  rfl

theorem Coded.addi (d : BitVec 5) (a : BitVec 5) (i : BitVec 15) : Coded.Statement (.addi d a i) := by
  intro _ hw
  show decode (0#1 ++ 0x02#6 ++ d ++ a ++ i) = _
  generalize h : (0#1 ++ 0x02#6 ++ d ++ a ++ i : BitVec 32) = w
  obtain ⟨e31, e25, e20, e15, e0⟩ := layout2 _ _ _ _ _ h
  refine decode_of ((major_2 e31 e25).trans ?_) hw
  unfold decodeAddi
  simp only [e0, e15, e20]

theorem Coded.andi (d : BitVec 5) (a : BitVec 5) (i : BitVec 12) : Coded.Statement (.andi d a i) := by
  intro _ hw
  show decode (0#1 ++ 0x03#6 ++ d ++ a ++ 0#3 ++ i) = _
  generalize h : (0#1 ++ 0x03#6 ++ d ++ a ++ 0#3 ++ i : BitVec 32) = w
  obtain ⟨e31, e25, e20, e15, e12, e0⟩ := layout3 _ _ _ _ _ _ h
  refine decode_of ((major_3 e31 e25).trans ?_) hw
  unfold decodeImm
  rw [e12]
  simp only [e0, e15, e20]

theorem Coded.ori (d : BitVec 5) (a : BitVec 5) (i : BitVec 12) : Coded.Statement (.ori d a i) := by
  intro _ hw
  show decode (0#1 ++ 0x03#6 ++ d ++ a ++ 1#3 ++ i) = _
  generalize h : (0#1 ++ 0x03#6 ++ d ++ a ++ 1#3 ++ i : BitVec 32) = w
  obtain ⟨e31, e25, e20, e15, e12, e0⟩ := layout3 _ _ _ _ _ _ h
  refine decode_of ((major_3 e31 e25).trans ?_) hw
  unfold decodeImm
  rw [e12]
  simp only [e0, e15, e20]

theorem Coded.xori (d : BitVec 5) (a : BitVec 5) (i : BitVec 12) : Coded.Statement (.xori d a i) := by
  intro _ hw
  show decode (0#1 ++ 0x03#6 ++ d ++ a ++ 2#3 ++ i) = _
  generalize h : (0#1 ++ 0x03#6 ++ d ++ a ++ 2#3 ++ i : BitVec 32) = w
  obtain ⟨e31, e25, e20, e15, e12, e0⟩ := layout3 _ _ _ _ _ _ h
  refine decode_of ((major_3 e31 e25).trans ?_) hw
  unfold decodeImm
  rw [e12]
  simp only [e0, e15, e20]

theorem Coded.slti (d : BitVec 5) (a : BitVec 5) (i : BitVec 12) : Coded.Statement (.slti d a i) := by
  intro _ hw
  show decode (0#1 ++ 0x03#6 ++ d ++ a ++ 3#3 ++ i) = _
  generalize h : (0#1 ++ 0x03#6 ++ d ++ a ++ 3#3 ++ i : BitVec 32) = w
  obtain ⟨e31, e25, e20, e15, e12, e0⟩ := layout3 _ _ _ _ _ _ h
  refine decode_of ((major_3 e31 e25).trans ?_) hw
  unfold decodeImm
  rw [e12]
  simp only [e0, e15, e20]

theorem Coded.sltiu (d : BitVec 5) (a : BitVec 5) (i : BitVec 12) : Coded.Statement (.sltiu d a i) := by
  intro _ hw
  show decode (0#1 ++ 0x03#6 ++ d ++ a ++ 4#3 ++ i) = _
  generalize h : (0#1 ++ 0x03#6 ++ d ++ a ++ 4#3 ++ i : BitVec 32) = w
  obtain ⟨e31, e25, e20, e15, e12, e0⟩ := layout3 _ _ _ _ _ _ h
  refine decode_of ((major_3 e31 e25).trans ?_) hw
  unfold decodeImm
  rw [e12]
  simp only [e0, e15, e20]

theorem Coded.slli (d : BitVec 5) (a : BitVec 5) (i : BitVec 6) : Coded.Statement (.slli d a i) := by
  intro _ hw
  show decode (0#1 ++ 0x03#6 ++ d ++ a ++ 5#3 ++ 0#6 ++ i) = _
  generalize h : (0#1 ++ 0x03#6 ++ d ++ a ++ 5#3 ++ 0#6 ++ i : BitVec 32) = w
  obtain ⟨e31, e25, e20, e15, e12, e6, e0⟩ := layout4 _ _ _ _ _ _ _ h
  refine decode_of ((major_3 e31 e25).trans ?_) hw
  unfold decodeImm
  rw [e12]
  simp only [need, e0, e6, e15, e20]
  rfl

theorem Coded.srli (d : BitVec 5) (a : BitVec 5) (i : BitVec 6) : Coded.Statement (.srli d a i) := by
  intro _ hw
  show decode (0#1 ++ 0x03#6 ++ d ++ a ++ 6#3 ++ 0#6 ++ i) = _
  generalize h : (0#1 ++ 0x03#6 ++ d ++ a ++ 6#3 ++ 0#6 ++ i : BitVec 32) = w
  obtain ⟨e31, e25, e20, e15, e12, e6, e0⟩ := layout4 _ _ _ _ _ _ _ h
  refine decode_of ((major_3 e31 e25).trans ?_) hw
  unfold decodeImm
  rw [e12]
  simp only [need, e0, e6, e15, e20]
  rfl

theorem Coded.srai (d : BitVec 5) (a : BitVec 5) (i : BitVec 6) : Coded.Statement (.srai d a i) := by
  intro _ hw
  show decode (0#1 ++ 0x03#6 ++ d ++ a ++ 7#3 ++ 0#6 ++ i) = _
  generalize h : (0#1 ++ 0x03#6 ++ d ++ a ++ 7#3 ++ 0#6 ++ i : BitVec 32) = w
  obtain ⟨e31, e25, e20, e15, e12, e6, e0⟩ := layout4 _ _ _ _ _ _ _ h
  refine decode_of ((major_3 e31 e25).trans ?_) hw
  unfold decodeImm
  rw [e12]
  simp only [need, e0, e6, e15, e20]
  rfl

theorem Coded.hi (d : BitVec 5) (i : BitVec 20) : Coded.Statement (.hi d i) := by
  intro _ hw
  show decode (0#1 ++ 0x04#6 ++ d ++ i) = _
  generalize h : (0#1 ++ 0x04#6 ++ d ++ i : BitVec 32) = w
  obtain ⟨e31, e25, e20, e0⟩ := layout5 _ _ _ _ h
  refine decode_of ((major_4 e31 e25).trans ?_) hw
  unfold decodeHi
  simp only [e0, e20]

theorem Coded.pcadd (d : BitVec 5) (i : BitVec 20) : Coded.Statement (.pcadd d i) := by
  intro _ hw
  show decode (0#1 ++ 0x05#6 ++ d ++ i) = _
  generalize h : (0#1 ++ 0x05#6 ++ d ++ i : BitVec 32) = w
  obtain ⟨e31, e25, e20, e0⟩ := layout5 _ _ _ _ h
  refine decode_of ((major_5 e31 e25).trans ?_) hw
  unfold decodePcadd
  simp only [e0, e20]

theorem Coded.lb (d : BitVec 5) (a : BitVec 5) (i : BitVec 12) : Coded.Statement (.lb d a i) := by
  intro _ hw
  show decode (0#1 ++ 0x06#6 ++ d ++ a ++ 0#3 ++ i) = _
  generalize h : (0#1 ++ 0x06#6 ++ d ++ a ++ 0#3 ++ i : BitVec 32) = w
  obtain ⟨e31, e25, e20, e15, e12, e0⟩ := layout3 _ _ _ _ _ _ h
  refine decode_of ((major_6 e31 e25).trans ?_) hw
  unfold decodeLd
  rw [e12]
  simp only [e0, e15, e20]

theorem Coded.lh (d : BitVec 5) (a : BitVec 5) (i : BitVec 12) : Coded.Statement (.lh d a i) := by
  intro _ hw
  show decode (0#1 ++ 0x06#6 ++ d ++ a ++ 1#3 ++ i) = _
  generalize h : (0#1 ++ 0x06#6 ++ d ++ a ++ 1#3 ++ i : BitVec 32) = w
  obtain ⟨e31, e25, e20, e15, e12, e0⟩ := layout3 _ _ _ _ _ _ h
  refine decode_of ((major_6 e31 e25).trans ?_) hw
  unfold decodeLd
  rw [e12]
  simp only [e0, e15, e20]

theorem Coded.lw (d : BitVec 5) (a : BitVec 5) (i : BitVec 12) : Coded.Statement (.lw d a i) := by
  intro _ hw
  show decode (0#1 ++ 0x06#6 ++ d ++ a ++ 2#3 ++ i) = _
  generalize h : (0#1 ++ 0x06#6 ++ d ++ a ++ 2#3 ++ i : BitVec 32) = w
  obtain ⟨e31, e25, e20, e15, e12, e0⟩ := layout3 _ _ _ _ _ _ h
  refine decode_of ((major_6 e31 e25).trans ?_) hw
  unfold decodeLd
  rw [e12]
  simp only [e0, e15, e20]

theorem Coded.ld (d : BitVec 5) (a : BitVec 5) (i : BitVec 12) : Coded.Statement (.ld d a i) := by
  intro _ hw
  show decode (0#1 ++ 0x06#6 ++ d ++ a ++ 3#3 ++ i) = _
  generalize h : (0#1 ++ 0x06#6 ++ d ++ a ++ 3#3 ++ i : BitVec 32) = w
  obtain ⟨e31, e25, e20, e15, e12, e0⟩ := layout3 _ _ _ _ _ _ h
  refine decode_of ((major_6 e31 e25).trans ?_) hw
  unfold decodeLd
  rw [e12]
  simp only [e0, e15, e20]

theorem Coded.lbu (d : BitVec 5) (a : BitVec 5) (i : BitVec 12) : Coded.Statement (.lbu d a i) := by
  intro _ hw
  show decode (0#1 ++ 0x06#6 ++ d ++ a ++ 4#3 ++ i) = _
  generalize h : (0#1 ++ 0x06#6 ++ d ++ a ++ 4#3 ++ i : BitVec 32) = w
  obtain ⟨e31, e25, e20, e15, e12, e0⟩ := layout3 _ _ _ _ _ _ h
  refine decode_of ((major_6 e31 e25).trans ?_) hw
  unfold decodeLd
  rw [e12]
  simp only [e0, e15, e20]

theorem Coded.lhu (d : BitVec 5) (a : BitVec 5) (i : BitVec 12) : Coded.Statement (.lhu d a i) := by
  intro _ hw
  show decode (0#1 ++ 0x06#6 ++ d ++ a ++ 5#3 ++ i) = _
  generalize h : (0#1 ++ 0x06#6 ++ d ++ a ++ 5#3 ++ i : BitVec 32) = w
  obtain ⟨e31, e25, e20, e15, e12, e0⟩ := layout3 _ _ _ _ _ _ h
  refine decode_of ((major_6 e31 e25).trans ?_) hw
  unfold decodeLd
  rw [e12]
  simp only [e0, e15, e20]

theorem Coded.lwu (d : BitVec 5) (a : BitVec 5) (i : BitVec 12) : Coded.Statement (.lwu d a i) := by
  intro _ hw
  show decode (0#1 ++ 0x06#6 ++ d ++ a ++ 6#3 ++ i) = _
  generalize h : (0#1 ++ 0x06#6 ++ d ++ a ++ 6#3 ++ i : BitVec 32) = w
  obtain ⟨e31, e25, e20, e15, e12, e0⟩ := layout3 _ _ _ _ _ _ h
  refine decode_of ((major_6 e31 e25).trans ?_) hw
  unfold decodeLd
  rw [e12]
  simp only [e0, e15, e20]

theorem Coded.ldk (d : BitVec 5) (a : BitVec 5) (i : BitVec 12) : Coded.Statement (.ldk d a i) := by
  intro _ hw
  show decode (0#1 ++ 0x06#6 ++ d ++ a ++ 7#3 ++ i) = _
  generalize h : (0#1 ++ 0x06#6 ++ d ++ a ++ 7#3 ++ i : BitVec 32) = w
  obtain ⟨e31, e25, e20, e15, e12, e0⟩ := layout3 _ _ _ _ _ _ h
  refine decode_of ((major_6 e31 e25).trans ?_) hw
  unfold decodeLd
  rw [e12]
  simp only [e0, e15, e20]

theorem Coded.sb (d : BitVec 5) (a : BitVec 5) (i : BitVec 12) : Coded.Statement (.sb d a i) := by
  intro _ hw
  show decode (0#1 ++ 0x07#6 ++ d ++ a ++ 0#3 ++ i) = _
  generalize h : (0#1 ++ 0x07#6 ++ d ++ a ++ 0#3 ++ i : BitVec 32) = w
  obtain ⟨e31, e25, e20, e15, e12, e0⟩ := layout3 _ _ _ _ _ _ h
  refine decode_of ((major_7 e31 e25).trans ?_) hw
  unfold decodeSt
  rw [e12]
  simp only [e0, e15, e20]

theorem Coded.sh (d : BitVec 5) (a : BitVec 5) (i : BitVec 12) : Coded.Statement (.sh d a i) := by
  intro _ hw
  show decode (0#1 ++ 0x07#6 ++ d ++ a ++ 1#3 ++ i) = _
  generalize h : (0#1 ++ 0x07#6 ++ d ++ a ++ 1#3 ++ i : BitVec 32) = w
  obtain ⟨e31, e25, e20, e15, e12, e0⟩ := layout3 _ _ _ _ _ _ h
  refine decode_of ((major_7 e31 e25).trans ?_) hw
  unfold decodeSt
  rw [e12]
  simp only [e0, e15, e20]

theorem Coded.sw (d : BitVec 5) (a : BitVec 5) (i : BitVec 12) : Coded.Statement (.sw d a i) := by
  intro _ hw
  show decode (0#1 ++ 0x07#6 ++ d ++ a ++ 2#3 ++ i) = _
  generalize h : (0#1 ++ 0x07#6 ++ d ++ a ++ 2#3 ++ i : BitVec 32) = w
  obtain ⟨e31, e25, e20, e15, e12, e0⟩ := layout3 _ _ _ _ _ _ h
  refine decode_of ((major_7 e31 e25).trans ?_) hw
  unfold decodeSt
  rw [e12]
  simp only [e0, e15, e20]

theorem Coded.sd (d : BitVec 5) (a : BitVec 5) (i : BitVec 12) : Coded.Statement (.sd d a i) := by
  intro _ hw
  show decode (0#1 ++ 0x07#6 ++ d ++ a ++ 3#3 ++ i) = _
  generalize h : (0#1 ++ 0x07#6 ++ d ++ a ++ 3#3 ++ i : BitVec 32) = w
  obtain ⟨e31, e25, e20, e15, e12, e0⟩ := layout3 _ _ _ _ _ _ h
  refine decode_of ((major_7 e31 e25).trans ?_) hw
  unfold decodeSt
  rw [e12]
  simp only [e0, e15, e20]

theorem Coded.beq (a : BitVec 5) (b : BitVec 5) (o : BitVec 12) : Coded.Statement (.beq a b o) := by
  intro _ hw
  show decode (0#1 ++ 0x08#6 ++ a ++ b ++ 0#3 ++ o) = _
  generalize h : (0#1 ++ 0x08#6 ++ a ++ b ++ 0#3 ++ o : BitVec 32) = w
  obtain ⟨e31, e25, e20, e15, e12, e0⟩ := layout3 _ _ _ _ _ _ h
  refine decode_of ((major_8 e31 e25).trans ?_) hw
  unfold decodeBr
  rw [e12]
  simp only [e0, e15, e20]

theorem Coded.bne (a : BitVec 5) (b : BitVec 5) (o : BitVec 12) : Coded.Statement (.bne a b o) := by
  intro _ hw
  show decode (0#1 ++ 0x08#6 ++ a ++ b ++ 1#3 ++ o) = _
  generalize h : (0#1 ++ 0x08#6 ++ a ++ b ++ 1#3 ++ o : BitVec 32) = w
  obtain ⟨e31, e25, e20, e15, e12, e0⟩ := layout3 _ _ _ _ _ _ h
  refine decode_of ((major_8 e31 e25).trans ?_) hw
  unfold decodeBr
  rw [e12]
  simp only [e0, e15, e20]

theorem Coded.blt (a : BitVec 5) (b : BitVec 5) (o : BitVec 12) : Coded.Statement (.blt a b o) := by
  intro _ hw
  show decode (0#1 ++ 0x08#6 ++ a ++ b ++ 2#3 ++ o) = _
  generalize h : (0#1 ++ 0x08#6 ++ a ++ b ++ 2#3 ++ o : BitVec 32) = w
  obtain ⟨e31, e25, e20, e15, e12, e0⟩ := layout3 _ _ _ _ _ _ h
  refine decode_of ((major_8 e31 e25).trans ?_) hw
  unfold decodeBr
  rw [e12]
  simp only [e0, e15, e20]

theorem Coded.bge (a : BitVec 5) (b : BitVec 5) (o : BitVec 12) : Coded.Statement (.bge a b o) := by
  intro _ hw
  show decode (0#1 ++ 0x08#6 ++ a ++ b ++ 3#3 ++ o) = _
  generalize h : (0#1 ++ 0x08#6 ++ a ++ b ++ 3#3 ++ o : BitVec 32) = w
  obtain ⟨e31, e25, e20, e15, e12, e0⟩ := layout3 _ _ _ _ _ _ h
  refine decode_of ((major_8 e31 e25).trans ?_) hw
  unfold decodeBr
  rw [e12]
  simp only [e0, e15, e20]

theorem Coded.bltu (a : BitVec 5) (b : BitVec 5) (o : BitVec 12) : Coded.Statement (.bltu a b o) := by
  intro _ hw
  show decode (0#1 ++ 0x08#6 ++ a ++ b ++ 4#3 ++ o) = _
  generalize h : (0#1 ++ 0x08#6 ++ a ++ b ++ 4#3 ++ o : BitVec 32) = w
  obtain ⟨e31, e25, e20, e15, e12, e0⟩ := layout3 _ _ _ _ _ _ h
  refine decode_of ((major_8 e31 e25).trans ?_) hw
  unfold decodeBr
  rw [e12]
  simp only [e0, e15, e20]

theorem Coded.bgeu (a : BitVec 5) (b : BitVec 5) (o : BitVec 12) : Coded.Statement (.bgeu a b o) := by
  intro _ hw
  show decode (0#1 ++ 0x08#6 ++ a ++ b ++ 5#3 ++ o) = _
  generalize h : (0#1 ++ 0x08#6 ++ a ++ b ++ 5#3 ++ o : BitVec 32) = w
  obtain ⟨e31, e25, e20, e15, e12, e0⟩ := layout3 _ _ _ _ _ _ h
  refine decode_of ((major_8 e31 e25).trans ?_) hw
  unfold decodeBr
  rw [e12]
  simp only [e0, e15, e20]

theorem Coded.jal (i : BitVec 25) : Coded.Statement (.jal i) := by
  intro _ hw
  show decode (0#1 ++ 0x09#6 ++ i) = _
  generalize h : (0#1 ++ 0x09#6 ++ i : BitVec 32) = w
  obtain ⟨e31, e25, e0⟩ := layout6 _ _ _ h
  refine decode_of ((major_9 e31 e25).trans ?_) hw
  unfold decodeJal
  simp only [e0]

theorem Coded.jalr (d : BitVec 5) (a : BitVec 5) (i : BitVec 15) : Coded.Statement (.jalr d a i) := by
  intro _ hw
  show decode (0#1 ++ 0x0a#6 ++ d ++ a ++ i) = _
  generalize h : (0#1 ++ 0x0a#6 ++ d ++ a ++ i : BitVec 32) = w
  obtain ⟨e31, e25, e20, e15, e0⟩ := layout2 _ _ _ _ _ h
  refine decode_of ((major_10 e31 e25).trans ?_) hw
  unfold decodeJalr
  simp only [e0, e15, e20]

theorem Coded.loop0 (a : BitVec 5) (i : BitVec 12) : Coded.Statement (.loop0 a i) := by
  intro _ hw
  show decode (0#1 ++ 0x0b#6 ++ 0#5 ++ a ++ 0#3 ++ i) = _
  generalize h : (0#1 ++ 0x0b#6 ++ 0#5 ++ a ++ 0#3 ++ i : BitVec 32) = w
  obtain ⟨e31, e25, e20, e15, e12, e0⟩ := layout3 _ _ _ _ _ _ h
  refine decode_of ((major_11 e31 e25).trans ?_) hw
  unfold decodeLoop
  rw [e12]
  simp only [need, e0, e15, e20]
  rfl

theorem Coded.loop1 (a : BitVec 5) (i : BitVec 12) : Coded.Statement (.loop1 a i) := by
  intro _ hw
  show decode (0#1 ++ 0x0b#6 ++ 0#5 ++ a ++ 1#3 ++ i) = _
  generalize h : (0#1 ++ 0x0b#6 ++ 0#5 ++ a ++ 1#3 ++ i : BitVec 32) = w
  obtain ⟨e31, e25, e20, e15, e12, e0⟩ := layout3 _ _ _ _ _ _ h
  refine decode_of ((major_11 e31 e25).trans ?_) hw
  unfold decodeLoop
  rw [e12]
  simp only [need, e0, e15, e20]
  rfl

theorem Coded.loopi0 (l : BitVec 5) (i : BitVec 12) : Coded.Statement (.loopi0 l i) := by
  intro _ hw
  show decode (0#1 ++ 0x0b#6 ++ 0#5 ++ l ++ 2#3 ++ i) = _
  generalize h : (0#1 ++ 0x0b#6 ++ 0#5 ++ l ++ 2#3 ++ i : BitVec 32) = w
  obtain ⟨e31, e25, e20, e15, e12, e0⟩ := layout3 _ _ _ _ _ _ h
  refine decode_of ((major_11 e31 e25).trans ?_) hw
  unfold decodeLoop
  rw [e12]
  simp only [need, e0, e15, e20]
  rfl

theorem Coded.loopi1 (l : BitVec 5) (i : BitVec 12) : Coded.Statement (.loopi1 l i) := by
  intro _ hw
  show decode (0#1 ++ 0x0b#6 ++ 0#5 ++ l ++ 3#3 ++ i) = _
  generalize h : (0#1 ++ 0x0b#6 ++ 0#5 ++ l ++ 3#3 ++ i : BitVec 32) = w
  obtain ⟨e31, e25, e20, e15, e12, e0⟩ := layout3 _ _ _ _ _ _ h
  refine decode_of ((major_11 e31 e25).trans ?_) hw
  unfold decodeLoop
  rw [e12]
  simp only [need, e0, e15, e20]
  rfl

theorem Coded.lexit0 : Coded.Statement (.lexit0) := by
  intro _ hw
  show decode (0#1 ++ 0x0b#6 ++ 0#10 ++ 4#3 ++ 0#12) = _
  generalize h : (0#1 ++ 0x0b#6 ++ 0#10 ++ 4#3 ++ 0#12 : BitVec 32) = w
  obtain ⟨e31, e25, e15, e12, e0⟩ := layout7 _ _ _ _ _ h
  refine decode_of ((major_11 e31 e25).trans ?_) hw
  unfold decodeLoop
  rw [e12]
  simp only [need, e0, e15]
  rfl

theorem Coded.lexit1 : Coded.Statement (.lexit1) := by
  intro _ hw
  show decode (0#1 ++ 0x0b#6 ++ 0#10 ++ 5#3 ++ 0#12) = _
  generalize h : (0#1 ++ 0x0b#6 ++ 0#10 ++ 5#3 ++ 0#12 : BitVec 32) = w
  obtain ⟨e31, e25, e15, e12, e0⟩ := layout7 _ _ _ _ _ h
  refine decode_of ((major_11 e31 e25).trans ?_) hw
  unfold decodeLoop
  rw [e12]
  simp only [need, e0, e15]
  rfl

theorem Coded.qpop (d : BitVec 5) (a : BitVec 5) : Coded.Statement (.qpop d a) := by
  intro _ hw
  show decode (0#1 ++ 0x0c#6 ++ d ++ a ++ 0#11 ++ 0#4) = _
  generalize h : (0#1 ++ 0x0c#6 ++ d ++ a ++ 0#11 ++ 0#4 : BitVec 32) = w
  obtain ⟨e31, e25, e20, e15, e4, e0⟩ := layout8 _ _ _ _ _ _ h
  refine decode_of ((major_12 e31 e25).trans ?_) hw
  unfold decodeQue
  rw [e0]
  simp only [need, e4, e15, e20]
  rfl

theorem Coded.qcnt (d : BitVec 5) (a : BitVec 5) : Coded.Statement (.qcnt d a) := by
  intro _ hw
  show decode (0#1 ++ 0x0c#6 ++ d ++ a ++ 0#11 ++ 1#4) = _
  generalize h : (0#1 ++ 0x0c#6 ++ d ++ a ++ 0#11 ++ 1#4 : BitVec 32) = w
  obtain ⟨e31, e25, e20, e15, e4, e0⟩ := layout8 _ _ _ _ _ _ h
  refine decode_of ((major_12 e31 e25).trans ?_) hw
  unfold decodeQue
  rw [e0]
  simp only [need, e4, e15, e20]
  rfl

theorem Coded.qdrain (d : BitVec 5) (a : BitVec 5) : Coded.Statement (.qdrain d a) := by
  intro _ hw
  show decode (0#1 ++ 0x0c#6 ++ d ++ a ++ 0#11 ++ 2#4) = _
  generalize h : (0#1 ++ 0x0c#6 ++ d ++ a ++ 0#11 ++ 2#4 : BitVec 32) = w
  obtain ⟨e31, e25, e20, e15, e4, e0⟩ := layout8 _ _ _ _ _ _ h
  refine decode_of ((major_12 e31 e25).trans ?_) hw
  unfold decodeQue
  rw [e0]
  simp only [need, e4, e15, e20]
  rfl

theorem Coded.fadd (d : BitVec 5) (a : BitVec 5) (b : BitVec 5) (p : BitVec 2) (r : BitVec 2) : Coded.Statement (.fadd d a b p r) := by
  intro _ hw
  show decode (0#1 ++ 0x0d#6 ++ d ++ a ++ b ++ p ++ r ++ 0#6) = _
  generalize h : (0#1 ++ 0x0d#6 ++ d ++ a ++ b ++ p ++ r ++ 0#6 : BitVec 32) = w
  obtain ⟨e31, e25, e20, e15, e10, e8, e6, e0⟩ := layout9 _ _ _ _ _ _ _ _ h
  refine decode_of ((major_13 e31 e25).trans ?_) hw
  unfold decodeFps
  rw [e0]
  simp only [e6, e8, e10, e15, e20]

theorem Coded.fsub (d : BitVec 5) (a : BitVec 5) (b : BitVec 5) (p : BitVec 2) (r : BitVec 2) : Coded.Statement (.fsub d a b p r) := by
  intro _ hw
  show decode (0#1 ++ 0x0d#6 ++ d ++ a ++ b ++ p ++ r ++ 1#6) = _
  generalize h : (0#1 ++ 0x0d#6 ++ d ++ a ++ b ++ p ++ r ++ 1#6 : BitVec 32) = w
  obtain ⟨e31, e25, e20, e15, e10, e8, e6, e0⟩ := layout9 _ _ _ _ _ _ _ _ h
  refine decode_of ((major_13 e31 e25).trans ?_) hw
  unfold decodeFps
  rw [e0]
  simp only [e6, e8, e10, e15, e20]

theorem Coded.fmul (d : BitVec 5) (a : BitVec 5) (b : BitVec 5) (p : BitVec 2) (r : BitVec 2) : Coded.Statement (.fmul d a b p r) := by
  intro _ hw
  show decode (0#1 ++ 0x0d#6 ++ d ++ a ++ b ++ p ++ r ++ 2#6) = _
  generalize h : (0#1 ++ 0x0d#6 ++ d ++ a ++ b ++ p ++ r ++ 2#6 : BitVec 32) = w
  obtain ⟨e31, e25, e20, e15, e10, e8, e6, e0⟩ := layout9 _ _ _ _ _ _ _ _ h
  refine decode_of ((major_13 e31 e25).trans ?_) hw
  unfold decodeFps
  rw [e0]
  simp only [e6, e8, e10, e15, e20]

theorem Coded.fdiv (d : BitVec 5) (a : BitVec 5) (b : BitVec 5) (p : BitVec 2) (r : BitVec 2) : Coded.Statement (.fdiv d a b p r) := by
  intro _ hw
  show decode (0#1 ++ 0x0d#6 ++ d ++ a ++ b ++ p ++ r ++ 3#6) = _
  generalize h : (0#1 ++ 0x0d#6 ++ d ++ a ++ b ++ p ++ r ++ 3#6 : BitVec 32) = w
  obtain ⟨e31, e25, e20, e15, e10, e8, e6, e0⟩ := layout9 _ _ _ _ _ _ _ _ h
  refine decode_of ((major_13 e31 e25).trans ?_) hw
  unfold decodeFps
  rw [e0]
  simp only [e6, e8, e10, e15, e20]

theorem Coded.fsqrt (d : BitVec 5) (a : BitVec 5) (p : BitVec 2) (r : BitVec 2) : Coded.Statement (.fsqrt d a p r) := by
  intro _ hw
  show decode (0#1 ++ 0x0d#6 ++ d ++ a ++ 0#5 ++ p ++ r ++ 4#6) = _
  generalize h : (0#1 ++ 0x0d#6 ++ d ++ a ++ 0#5 ++ p ++ r ++ 4#6 : BitVec 32) = w
  obtain ⟨e31, e25, e20, e15, e10, e8, e6, e0⟩ := layout9 _ _ _ _ _ _ _ _ h
  refine decode_of ((major_13 e31 e25).trans ?_) hw
  unfold decodeFps
  rw [e0]
  simp only [need, e6, e8, e10, e15, e20]
  rfl

theorem Coded.fmin (d : BitVec 5) (a : BitVec 5) (b : BitVec 5) (p : BitVec 2) : Coded.Statement (.fmin d a b p) := by
  intro _ hw
  show decode (0#1 ++ 0x0d#6 ++ d ++ a ++ b ++ p ++ 0#2 ++ 5#6) = _
  generalize h : (0#1 ++ 0x0d#6 ++ d ++ a ++ b ++ p ++ 0#2 ++ 5#6 : BitVec 32) = w
  obtain ⟨e31, e25, e20, e15, e10, e8, e6, e0⟩ := layout9 _ _ _ _ _ _ _ _ h
  refine decode_of ((major_13 e31 e25).trans ?_) hw
  unfold decodeFps
  rw [e0]
  simp only [need, e6, e8, e10, e15, e20]
  rfl

theorem Coded.fmax (d : BitVec 5) (a : BitVec 5) (b : BitVec 5) (p : BitVec 2) : Coded.Statement (.fmax d a b p) := by
  intro _ hw
  show decode (0#1 ++ 0x0d#6 ++ d ++ a ++ b ++ p ++ 0#2 ++ 6#6) = _
  generalize h : (0#1 ++ 0x0d#6 ++ d ++ a ++ b ++ p ++ 0#2 ++ 6#6 : BitVec 32) = w
  obtain ⟨e31, e25, e20, e15, e10, e8, e6, e0⟩ := layout9 _ _ _ _ _ _ _ _ h
  refine decode_of ((major_13 e31 e25).trans ?_) hw
  unfold decodeFps
  rw [e0]
  simp only [need, e6, e8, e10, e15, e20]
  rfl

theorem Coded.feq (d : BitVec 5) (a : BitVec 5) (b : BitVec 5) (p : BitVec 2) : Coded.Statement (.feq d a b p) := by
  intro _ hw
  show decode (0#1 ++ 0x0d#6 ++ d ++ a ++ b ++ p ++ 0#2 ++ 7#6) = _
  generalize h : (0#1 ++ 0x0d#6 ++ d ++ a ++ b ++ p ++ 0#2 ++ 7#6 : BitVec 32) = w
  obtain ⟨e31, e25, e20, e15, e10, e8, e6, e0⟩ := layout9 _ _ _ _ _ _ _ _ h
  refine decode_of ((major_13 e31 e25).trans ?_) hw
  unfold decodeFps
  rw [e0]
  simp only [need, e6, e8, e10, e15, e20]
  rfl

theorem Coded.flt (d : BitVec 5) (a : BitVec 5) (b : BitVec 5) (p : BitVec 2) : Coded.Statement (.flt d a b p) := by
  intro _ hw
  show decode (0#1 ++ 0x0d#6 ++ d ++ a ++ b ++ p ++ 0#2 ++ 8#6) = _
  generalize h : (0#1 ++ 0x0d#6 ++ d ++ a ++ b ++ p ++ 0#2 ++ 8#6 : BitVec 32) = w
  obtain ⟨e31, e25, e20, e15, e10, e8, e6, e0⟩ := layout9 _ _ _ _ _ _ _ _ h
  refine decode_of ((major_13 e31 e25).trans ?_) hw
  unfold decodeFps
  rw [e0]
  simp only [need, e6, e8, e10, e15, e20]
  rfl

theorem Coded.fle (d : BitVec 5) (a : BitVec 5) (b : BitVec 5) (p : BitVec 2) : Coded.Statement (.fle d a b p) := by
  intro _ hw
  show decode (0#1 ++ 0x0d#6 ++ d ++ a ++ b ++ p ++ 0#2 ++ 9#6) = _
  generalize h : (0#1 ++ 0x0d#6 ++ d ++ a ++ b ++ p ++ 0#2 ++ 9#6 : BitVec 32) = w
  obtain ⟨e31, e25, e20, e15, e10, e8, e6, e0⟩ := layout9 _ _ _ _ _ _ _ _ h
  refine decode_of ((major_13 e31 e25).trans ?_) hw
  unfold decodeFps
  rw [e0]
  simp only [need, e6, e8, e10, e15, e20]
  rfl

theorem Coded.fcvtfi (d : BitVec 5) (a : BitVec 5) (b : BitVec 5) (p : BitVec 2) (r : BitVec 2) : Coded.Statement (.fcvtfi d a b p r) := by
  intro _ hw
  show decode (0#1 ++ 0x0d#6 ++ d ++ a ++ b ++ p ++ r ++ 10#6) = _
  generalize h : (0#1 ++ 0x0d#6 ++ d ++ a ++ b ++ p ++ r ++ 10#6 : BitVec 32) = w
  obtain ⟨e31, e25, e20, e15, e10, e8, e6, e0⟩ := layout9 _ _ _ _ _ _ _ _ h
  refine decode_of ((major_13 e31 e25).trans ?_) hw
  unfold decodeFps
  rw [e0]
  simp only [e6, e8, e10, e15, e20]

theorem Coded.fcvtif (d : BitVec 5) (a : BitVec 5) (b : BitVec 5) (p : BitVec 2) (r : BitVec 2) : Coded.Statement (.fcvtif d a b p r) := by
  intro _ hw
  show decode (0#1 ++ 0x0d#6 ++ d ++ a ++ b ++ p ++ r ++ 11#6) = _
  generalize h : (0#1 ++ 0x0d#6 ++ d ++ a ++ b ++ p ++ r ++ 11#6 : BitVec 32) = w
  obtain ⟨e31, e25, e20, e15, e10, e8, e6, e0⟩ := layout9 _ _ _ _ _ _ _ _ h
  refine decode_of ((major_13 e31 e25).trans ?_) hw
  unfold decodeFps
  rw [e0]
  simp only [e6, e8, e10, e15, e20]

theorem Coded.fcvtff (d : BitVec 5) (a : BitVec 5) (p : BitVec 2) (r : BitVec 2) : Coded.Statement (.fcvtff d a p r) := by
  intro _ hw
  show decode (0#1 ++ 0x0d#6 ++ d ++ a ++ 0#5 ++ p ++ r ++ 12#6) = _
  generalize h : (0#1 ++ 0x0d#6 ++ d ++ a ++ 0#5 ++ p ++ r ++ 12#6 : BitVec 32) = w
  obtain ⟨e31, e25, e20, e15, e10, e8, e6, e0⟩ := layout9 _ _ _ _ _ _ _ _ h
  refine decode_of ((major_13 e31 e25).trans ?_) hw
  unfold decodeFps
  rw [e0]
  simp only [need, e6, e8, e10, e15, e20]
  rfl

theorem Coded.fclass (d : BitVec 5) (a : BitVec 5) (p : BitVec 2) : Coded.Statement (.fclass d a p) := by
  intro _ hw
  show decode (0#1 ++ 0x0d#6 ++ d ++ a ++ 0#5 ++ p ++ 0#2 ++ 13#6) = _
  generalize h : (0#1 ++ 0x0d#6 ++ d ++ a ++ 0#5 ++ p ++ 0#2 ++ 13#6 : BitVec 32) = w
  obtain ⟨e31, e25, e20, e15, e10, e8, e6, e0⟩ := layout9 _ _ _ _ _ _ _ _ h
  refine decode_of ((major_13 e31 e25).trans ?_) hw
  unfold decodeFps
  rw [e0]
  simp only [need, e6, e8, e10, e15, e20]
  rfl

theorem Coded.fma (d : BitVec 5) (a : BitVec 5) (b : BitVec 5) (p : BitVec 2) (r : BitVec 2) : Coded.Statement (.fma d a b p r) := by
  intro _ hw
  show decode (0#1 ++ 0x0d#6 ++ d ++ a ++ b ++ p ++ r ++ 14#6) = _
  generalize h : (0#1 ++ 0x0d#6 ++ d ++ a ++ b ++ p ++ r ++ 14#6 : BitVec 32) = w
  obtain ⟨e31, e25, e20, e15, e10, e8, e6, e0⟩ := layout9 _ _ _ _ _ _ _ _ h
  refine decode_of ((major_13 e31 e25).trans ?_) hw
  unfold decodeFps
  rw [e0]
  simp only [e6, e8, e10, e15, e20]

theorem Coded.amoswap (d : BitVec 5) (a : BitVec 5) (b : BitVec 5) (s : BitVec 3) (o : BitVec 2) (w : BitVec 1) : Coded.Statement (.amoswap d a b s o w) := by
  intro _ hw
  show decode (0#1 ++ 0x0e#6 ++ d ++ a ++ b ++ s ++ o ++ w ++ 0#4) = _
  generalize h : (0#1 ++ 0x0e#6 ++ d ++ a ++ b ++ s ++ o ++ w ++ 0#4 : BitVec 32) = u
  obtain ⟨e31, e25, e20, e15, e10, e7, e5, e4, e0⟩ := layout10 _ _ _ _ _ _ _ _ _ h
  refine decode_of ((major_14 e31 e25).trans ?_) hw
  unfold decodeAmo
  rw [e0]
  simp only [e4, e5, e7, e10, e15, e20]

theorem Coded.amoadd (d : BitVec 5) (a : BitVec 5) (b : BitVec 5) (s : BitVec 3) (o : BitVec 2) (w : BitVec 1) : Coded.Statement (.amoadd d a b s o w) := by
  intro _ hw
  show decode (0#1 ++ 0x0e#6 ++ d ++ a ++ b ++ s ++ o ++ w ++ 1#4) = _
  generalize h : (0#1 ++ 0x0e#6 ++ d ++ a ++ b ++ s ++ o ++ w ++ 1#4 : BitVec 32) = u
  obtain ⟨e31, e25, e20, e15, e10, e7, e5, e4, e0⟩ := layout10 _ _ _ _ _ _ _ _ _ h
  refine decode_of ((major_14 e31 e25).trans ?_) hw
  unfold decodeAmo
  rw [e0]
  simp only [e4, e5, e7, e10, e15, e20]

theorem Coded.amoand (d : BitVec 5) (a : BitVec 5) (b : BitVec 5) (s : BitVec 3) (o : BitVec 2) (w : BitVec 1) : Coded.Statement (.amoand d a b s o w) := by
  intro _ hw
  show decode (0#1 ++ 0x0e#6 ++ d ++ a ++ b ++ s ++ o ++ w ++ 2#4) = _
  generalize h : (0#1 ++ 0x0e#6 ++ d ++ a ++ b ++ s ++ o ++ w ++ 2#4 : BitVec 32) = u
  obtain ⟨e31, e25, e20, e15, e10, e7, e5, e4, e0⟩ := layout10 _ _ _ _ _ _ _ _ _ h
  refine decode_of ((major_14 e31 e25).trans ?_) hw
  unfold decodeAmo
  rw [e0]
  simp only [e4, e5, e7, e10, e15, e20]

theorem Coded.amoor (d : BitVec 5) (a : BitVec 5) (b : BitVec 5) (s : BitVec 3) (o : BitVec 2) (w : BitVec 1) : Coded.Statement (.amoor d a b s o w) := by
  intro _ hw
  show decode (0#1 ++ 0x0e#6 ++ d ++ a ++ b ++ s ++ o ++ w ++ 3#4) = _
  generalize h : (0#1 ++ 0x0e#6 ++ d ++ a ++ b ++ s ++ o ++ w ++ 3#4 : BitVec 32) = u
  obtain ⟨e31, e25, e20, e15, e10, e7, e5, e4, e0⟩ := layout10 _ _ _ _ _ _ _ _ _ h
  refine decode_of ((major_14 e31 e25).trans ?_) hw
  unfold decodeAmo
  rw [e0]
  simp only [e4, e5, e7, e10, e15, e20]

theorem Coded.amoxor (d : BitVec 5) (a : BitVec 5) (b : BitVec 5) (s : BitVec 3) (o : BitVec 2) (w : BitVec 1) : Coded.Statement (.amoxor d a b s o w) := by
  intro _ hw
  show decode (0#1 ++ 0x0e#6 ++ d ++ a ++ b ++ s ++ o ++ w ++ 4#4) = _
  generalize h : (0#1 ++ 0x0e#6 ++ d ++ a ++ b ++ s ++ o ++ w ++ 4#4 : BitVec 32) = u
  obtain ⟨e31, e25, e20, e15, e10, e7, e5, e4, e0⟩ := layout10 _ _ _ _ _ _ _ _ _ h
  refine decode_of ((major_14 e31 e25).trans ?_) hw
  unfold decodeAmo
  rw [e0]
  simp only [e4, e5, e7, e10, e15, e20]

theorem Coded.amomin (d : BitVec 5) (a : BitVec 5) (b : BitVec 5) (s : BitVec 3) (o : BitVec 2) (w : BitVec 1) : Coded.Statement (.amomin d a b s o w) := by
  intro _ hw
  show decode (0#1 ++ 0x0e#6 ++ d ++ a ++ b ++ s ++ o ++ w ++ 5#4) = _
  generalize h : (0#1 ++ 0x0e#6 ++ d ++ a ++ b ++ s ++ o ++ w ++ 5#4 : BitVec 32) = u
  obtain ⟨e31, e25, e20, e15, e10, e7, e5, e4, e0⟩ := layout10 _ _ _ _ _ _ _ _ _ h
  refine decode_of ((major_14 e31 e25).trans ?_) hw
  unfold decodeAmo
  rw [e0]
  simp only [e4, e5, e7, e10, e15, e20]

theorem Coded.amomax (d : BitVec 5) (a : BitVec 5) (b : BitVec 5) (s : BitVec 3) (o : BitVec 2) (w : BitVec 1) : Coded.Statement (.amomax d a b s o w) := by
  intro _ hw
  show decode (0#1 ++ 0x0e#6 ++ d ++ a ++ b ++ s ++ o ++ w ++ 6#4) = _
  generalize h : (0#1 ++ 0x0e#6 ++ d ++ a ++ b ++ s ++ o ++ w ++ 6#4 : BitVec 32) = u
  obtain ⟨e31, e25, e20, e15, e10, e7, e5, e4, e0⟩ := layout10 _ _ _ _ _ _ _ _ _ h
  refine decode_of ((major_14 e31 e25).trans ?_) hw
  unfold decodeAmo
  rw [e0]
  simp only [e4, e5, e7, e10, e15, e20]

theorem Coded.amominu (d : BitVec 5) (a : BitVec 5) (b : BitVec 5) (s : BitVec 3) (o : BitVec 2) (w : BitVec 1) : Coded.Statement (.amominu d a b s o w) := by
  intro _ hw
  show decode (0#1 ++ 0x0e#6 ++ d ++ a ++ b ++ s ++ o ++ w ++ 7#4) = _
  generalize h : (0#1 ++ 0x0e#6 ++ d ++ a ++ b ++ s ++ o ++ w ++ 7#4 : BitVec 32) = u
  obtain ⟨e31, e25, e20, e15, e10, e7, e5, e4, e0⟩ := layout10 _ _ _ _ _ _ _ _ _ h
  refine decode_of ((major_14 e31 e25).trans ?_) hw
  unfold decodeAmo
  rw [e0]
  simp only [e4, e5, e7, e10, e15, e20]

theorem Coded.amomaxu (d : BitVec 5) (a : BitVec 5) (b : BitVec 5) (s : BitVec 3) (o : BitVec 2) (w : BitVec 1) : Coded.Statement (.amomaxu d a b s o w) := by
  intro _ hw
  show decode (0#1 ++ 0x0e#6 ++ d ++ a ++ b ++ s ++ o ++ w ++ 8#4) = _
  generalize h : (0#1 ++ 0x0e#6 ++ d ++ a ++ b ++ s ++ o ++ w ++ 8#4 : BitVec 32) = u
  obtain ⟨e31, e25, e20, e15, e10, e7, e5, e4, e0⟩ := layout10 _ _ _ _ _ _ _ _ _ h
  refine decode_of ((major_14 e31 e25).trans ?_) hw
  unfold decodeAmo
  rw [e0]
  simp only [e4, e5, e7, e10, e15, e20]

theorem Coded.amocas (d : BitVec 5) (a : BitVec 5) (b : BitVec 5) (s : BitVec 3) (o : BitVec 2) (w : BitVec 1) : Coded.Statement (.amocas d a b s o w) := by
  intro _ hw
  show decode (0#1 ++ 0x0e#6 ++ d ++ a ++ b ++ s ++ o ++ w ++ 9#4) = _
  generalize h : (0#1 ++ 0x0e#6 ++ d ++ a ++ b ++ s ++ o ++ w ++ 9#4 : BitVec 32) = u
  obtain ⟨e31, e25, e20, e15, e10, e7, e5, e4, e0⟩ := layout10 _ _ _ _ _ _ _ _ _ h
  refine decode_of ((major_14 e31 e25).trans ?_) hw
  unfold decodeAmo
  rw [e0]
  simp only [e4, e5, e7, e10, e15, e20]

theorem Coded.lda (d : BitVec 5) (a : BitVec 5) (s : BitVec 3) (w : BitVec 1) : Coded.Statement (.lda d a s w) := by
  intro _ hw
  show decode (0#1 ++ 0x0e#6 ++ d ++ a ++ 0#5 ++ s ++ 0#2 ++ w ++ 10#4) = _
  generalize h : (0#1 ++ 0x0e#6 ++ d ++ a ++ 0#5 ++ s ++ 0#2 ++ w ++ 10#4 : BitVec 32) = u
  obtain ⟨e31, e25, e20, e15, e10, e7, e5, e4, e0⟩ := layout10 _ _ _ _ _ _ _ _ _ h
  refine decode_of ((major_14 e31 e25).trans ?_) hw
  unfold decodeAmo
  rw [e0]
  simp only [need, e4, e5, e7, e10, e15, e20]
  rfl

theorem Coded.stl (a : BitVec 5) (b : BitVec 5) (s : BitVec 3) (w : BitVec 1) : Coded.Statement (.stl a b s w) := by
  intro _ hw
  show decode (0#1 ++ 0x0e#6 ++ 0#5 ++ a ++ b ++ s ++ 0#2 ++ w ++ 11#4) = _
  generalize h : (0#1 ++ 0x0e#6 ++ 0#5 ++ a ++ b ++ s ++ 0#2 ++ w ++ 11#4 : BitVec 32) = u
  obtain ⟨e31, e25, e20, e15, e10, e7, e5, e4, e0⟩ := layout10 _ _ _ _ _ _ _ _ _ h
  refine decode_of ((major_14 e31 e25).trans ?_) hw
  unfold decodeAmo
  rw [e0]
  simp only [need, e4, e5, e7, e10, e15, e20]
  rfl

theorem Coded.amofadd (d : BitVec 5) (a : BitVec 5) (b : BitVec 5) (s : BitVec 3) (o : BitVec 2) (w : BitVec 1) : Coded.Statement (.amofadd d a b s o w) := by
  intro _ hw
  show decode (0#1 ++ 0x0e#6 ++ d ++ a ++ b ++ s ++ o ++ w ++ 12#4) = _
  generalize h : (0#1 ++ 0x0e#6 ++ d ++ a ++ b ++ s ++ o ++ w ++ 12#4 : BitVec 32) = u
  obtain ⟨e31, e25, e20, e15, e10, e7, e5, e4, e0⟩ := layout10 _ _ _ _ _ _ _ _ _ h
  refine decode_of ((major_14 e31 e25).trans ?_) hw
  unfold decodeAmo
  rw [e0]
  simp only [e4, e5, e7, e10, e15, e20]

theorem Coded.fence (s : BitVec 3) (k : BitVec 2) : Coded.Statement (.fence s k) := by
  intro _ hw
  show decode (0#1 ++ 0x0f#6 ++ 0#10 ++ 0#3 ++ 0#5 ++ s ++ 0#2 ++ k) = _
  generalize h : (0#1 ++ 0x0f#6 ++ 0#10 ++ 0#3 ++ 0#5 ++ s ++ 0#2 ++ k : BitVec 32) = w
  obtain ⟨e31, e25, e15, e12, e7, e4, e2, e0⟩ := layout11 _ _ _ _ _ _ _ _ h
  refine decode_of ((major_15 e31 e25).trans ?_) hw
  unfold decodeSync
  rw [e12]
  simp only [need, e0, e2, e4, e7, e15]
  rfl

theorem Coded.pfence (s : BitVec 3) (p : BitVec 4) : Coded.Statement (.pfence s p) := by
  intro _ hw
  show decode (0#1 ++ 0x0f#6 ++ 0#10 ++ 1#3 ++ 0#5 ++ s ++ p) = _
  generalize h : (0#1 ++ 0x0f#6 ++ 0#10 ++ 1#3 ++ 0#5 ++ s ++ p : BitVec 32) = w
  obtain ⟨e31, e25, e15, e12, e7, e4, e0⟩ := layout12 _ _ _ _ _ _ _ h
  refine decode_of ((major_15 e31 e25).trans ?_) hw
  unfold decodeSync
  rw [e12]
  simp only [need, e0, e4, e7, e15]
  rfl

theorem Coded.bar (s : BitVec 3) : Coded.Statement (.bar s) := by
  intro _ hw
  show decode (0#1 ++ 0x0f#6 ++ 0#10 ++ 2#3 ++ 0#5 ++ s ++ 0#4) = _
  generalize h : (0#1 ++ 0x0f#6 ++ 0#10 ++ 2#3 ++ 0#5 ++ s ++ 0#4 : BitVec 32) = w
  obtain ⟨e31, e25, e15, e12, e7, e4, e0⟩ := layout12 _ _ _ _ _ _ _ h
  refine decode_of ((major_15 e31 e25).trans ?_) hw
  unfold decodeSync
  rw [e12]
  simp only [need, e0, e4, e7, e15]
  rfl

theorem Coded.sbar (s : BitVec 3) (w : BitVec 8) (h : BitVec 8) : Coded.Statement (.sbar s w h) := by
  intro _ hw
  show decode (0#1 ++ 0x10#6 ++ 0#6 ++ s ++ w ++ h) = _
  generalize h : (0#1 ++ 0x10#6 ++ 0#6 ++ s ++ w ++ h : BitVec 32) = u
  obtain ⟨e31, e25, e19, e16, e8, e0⟩ := layout13 _ _ _ _ _ _ h
  refine decode_of ((major_16 e31 e25).trans ?_) hw
  unfold decodeSbar
  simp only [need, e0, e8, e16, e19]
  rfl

theorem Coded.srr (d : BitVec 5) (n : BitVec 12) : Coded.Statement (.srr d n) := by
  intro _ hw
  show decode (0#1 ++ 0x11#6 ++ d ++ 0#5 ++ 0#3 ++ n) = _
  generalize h : (0#1 ++ 0x11#6 ++ d ++ 0#5 ++ 0#3 ++ n : BitVec 32) = w
  obtain ⟨e31, e25, e20, e15, e12, e0⟩ := layout3 _ _ _ _ _ _ h
  refine decode_of ((major_17 e31 e25).trans ?_) hw
  unfold decodeSys
  rw [e12]
  simp only [need, e0, e15, e20]
  rfl

theorem Coded.srw (a : BitVec 5) (n : BitVec 12) : Coded.Statement (.srw a n) := by
  intro _ hw
  show decode (0#1 ++ 0x11#6 ++ 0#5 ++ a ++ 1#3 ++ n) = _
  generalize h : (0#1 ++ 0x11#6 ++ 0#5 ++ a ++ 1#3 ++ n : BitVec 32) = w
  obtain ⟨e31, e25, e20, e15, e12, e0⟩ := layout3 _ _ _ _ _ _ h
  refine decode_of ((major_17 e31 e25).trans ?_) hw
  unfold decodeSys
  rw [e12]
  simp only [need, e0, e15, e20]
  rfl

theorem Coded.srs (d : BitVec 5) (a : BitVec 5) (n : BitVec 12) : Coded.Statement (.srs d a n) := by
  intro _ hw
  show decode (0#1 ++ 0x11#6 ++ d ++ a ++ 2#3 ++ n) = _
  generalize h : (0#1 ++ 0x11#6 ++ d ++ a ++ 2#3 ++ n : BitVec 32) = w
  obtain ⟨e31, e25, e20, e15, e12, e0⟩ := layout3 _ _ _ _ _ _ h
  refine decode_of ((major_17 e31 e25).trans ?_) hw
  unfold decodeSys
  rw [e12]
  simp only [e0, e15, e20]

theorem Coded.src (d : BitVec 5) (a : BitVec 5) (n : BitVec 12) : Coded.Statement (.src d a n) := by
  intro _ hw
  show decode (0#1 ++ 0x11#6 ++ d ++ a ++ 3#3 ++ n) = _
  generalize h : (0#1 ++ 0x11#6 ++ d ++ a ++ 3#3 ++ n : BitVec 32) = w
  obtain ⟨e31, e25, e20, e15, e12, e0⟩ := layout3 _ _ _ _ _ _ h
  refine decode_of ((major_17 e31 e25).trans ?_) hw
  unfold decodeSys
  rw [e12]
  simp only [e0, e15, e20]

theorem Coded.trap (i : BitVec 11) : Coded.Statement (.trap i) := by
  intro _ hw
  show decode (0#1 ++ 0x11#6 ++ 0#10 ++ 4#3 ++ 0#1 ++ i) = _
  generalize h : (0#1 ++ 0x11#6 ++ 0#10 ++ 4#3 ++ 0#1 ++ i : BitVec 32) = w
  obtain ⟨e31, e25, e15, e12, e11, e0⟩ := layout14 _ _ _ _ _ _ h
  refine decode_of ((major_17 e31 e25).trans ?_) hw
  unfold decodeSys
  rw [e12]
  simp only [need, e0, e11, e15]
  rfl

theorem Coded.breakpoint (i : BitVec 11) : Coded.Statement (.breakpoint i) := by
  intro _ hw
  show decode (0#1 ++ 0x11#6 ++ 0#10 ++ 4#3 ++ 1#1 ++ i) = _
  generalize h : (0#1 ++ 0x11#6 ++ 0#10 ++ 4#3 ++ 1#1 ++ i : BitVec 32) = w
  obtain ⟨e31, e25, e15, e12, e11, e0⟩ := layout14 _ _ _ _ _ _ h
  refine decode_of ((major_17 e31 e25).trans ?_) hw
  unfold decodeSys
  rw [e12]
  simp only [need, e0, e11, e15]
  rfl

theorem Coded.tret : Coded.Statement (.tret) := by
  intro _ hw
  show decode (0#1 ++ 0x11#6 ++ 0#10 ++ 5#3 ++ 0#12) = _
  generalize h : (0#1 ++ 0x11#6 ++ 0#10 ++ 5#3 ++ 0#12 : BitVec 32) = w
  obtain ⟨e31, e25, e15, e12, e0⟩ := layout7 _ _ _ _ _ h
  refine decode_of ((major_17 e31 e25).trans ?_) hw
  unfold decodeSys
  rw [e12]
  simp only [need, e0, e15]
  rfl

theorem Coded.uret : Coded.Statement (.uret) := by
  intro _ hw
  show decode (0#1 ++ 0x11#6 ++ 0#10 ++ 6#3 ++ 0#12) = _
  generalize h : (0#1 ++ 0x11#6 ++ 0#10 ++ 6#3 ++ 0#12 : BitVec 32) = w
  obtain ⟨e31, e25, e15, e12, e0⟩ := layout7 _ _ _ _ _ h
  refine decode_of ((major_17 e31 e25).trans ?_) hw
  unfold decodeSys
  rw [e12]
  simp only [need, e0, e15]
  rfl

theorem Coded.wfe (d : BitVec 5) (a : BitVec 5) : Coded.Statement (.wfe d a) := by
  intro _ hw
  show decode (0#1 ++ 0x11#6 ++ d ++ a ++ 7#3 ++ 0#12) = _
  generalize h : (0#1 ++ 0x11#6 ++ d ++ a ++ 7#3 ++ 0#12 : BitVec 32) = w
  obtain ⟨e31, e25, e20, e15, e12, e0⟩ := layout3 _ _ _ _ _ _ h
  refine decode_of ((major_17 e31 e25).trans ?_) hw
  unfold decodeSys
  rw [e12]
  simp only [need, e0, e15, e20]
  rfl

theorem Coded.vtinv (a : BitVec 5) (b : BitVec 5) : Coded.Statement (.vtinv a b) := by
  intro _ hw
  show decode (0#1 ++ 0x12#6 ++ 0#5 ++ a ++ b ++ 0#6 ++ 0#4) = _
  generalize h : (0#1 ++ 0x12#6 ++ 0#5 ++ a ++ b ++ 0#6 ++ 0#4 : BitVec 32) = w
  obtain ⟨e31, e25, e20, e15, e10, e4, e0⟩ := layout15 _ _ _ _ _ _ _ h
  refine decode_of ((major_18 e31 e25).trans ?_) hw
  unfold decodeSysx
  rw [e0]
  simp only [need, e4, e10, e15, e20]
  rfl

theorem Coded.ptinv (a : BitVec 5) (b : BitVec 5) : Coded.Statement (.ptinv a b) := by
  intro _ hw
  show decode (0#1 ++ 0x12#6 ++ 0#5 ++ a ++ b ++ 0#6 ++ 1#4) = _
  generalize h : (0#1 ++ 0x12#6 ++ 0#5 ++ a ++ b ++ 0#6 ++ 1#4 : BitVec 32) = w
  obtain ⟨e31, e25, e20, e15, e10, e4, e0⟩ := layout15 _ _ _ _ _ _ _ h
  refine decode_of ((major_18 e31 e25).trans ?_) hw
  unfold decodeSysx
  rw [e0]
  simp only [need, e4, e10, e15, e20]
  rfl

theorem Coded.ctxsave (d : BitVec 5) (a : BitVec 5) : Coded.Statement (.ctxsave d a) := by
  intro _ hw
  show decode (0#1 ++ 0x12#6 ++ d ++ a ++ 0#11 ++ 2#4) = _
  generalize h : (0#1 ++ 0x12#6 ++ d ++ a ++ 0#11 ++ 2#4 : BitVec 32) = w
  obtain ⟨e31, e25, e20, e15, e4, e0⟩ := layout8 _ _ _ _ _ _ h
  refine decode_of ((major_18 e31 e25).trans ?_) hw
  unfold decodeSysx
  rw [e0]
  simp only [need, e4, e15, e20]
  rfl

theorem Coded.ctxload (d : BitVec 5) (a : BitVec 5) : Coded.Statement (.ctxload d a) := by
  intro _ hw
  show decode (0#1 ++ 0x12#6 ++ d ++ a ++ 0#11 ++ 3#4) = _
  generalize h : (0#1 ++ 0x12#6 ++ d ++ a ++ 0#11 ++ 3#4 : BitVec 32) = w
  obtain ⟨e31, e25, e20, e15, e4, e0⟩ := layout8 _ _ _ _ _ _ h
  refine decode_of ((major_18 e31 e25).trans ?_) hw
  unfold decodeSysx
  rw [e0]
  simp only [need, e4, e15, e20]
  rfl

theorem Coded.launch (d : BitVec 5) (a : BitVec 5) : Coded.Statement (.launch d a) := by
  intro _ hw
  show decode (0#1 ++ 0x13#6 ++ d ++ a ++ 0#11 ++ 0#4) = _
  generalize h : (0#1 ++ 0x13#6 ++ d ++ a ++ 0#11 ++ 0#4 : BitVec 32) = w
  obtain ⟨e31, e25, e20, e15, e4, e0⟩ := layout8 _ _ _ _ _ _ h
  refine decode_of ((major_19 e31 e25).trans ?_) hw
  unfold decodeLnch
  rw [e0]
  simp only [need, e4, e15, e20]
  rfl

theorem Coded.launchc (d : BitVec 5) (a : BitVec 5) (b : BitVec 5) : Coded.Statement (.launchc d a b) := by
  intro _ hw
  show decode (0#1 ++ 0x13#6 ++ d ++ a ++ b ++ 0#6 ++ 1#4) = _
  generalize h : (0#1 ++ 0x13#6 ++ d ++ a ++ b ++ 0#6 ++ 1#4 : BitVec 32) = w
  obtain ⟨e31, e25, e20, e15, e10, e4, e0⟩ := layout15 _ _ _ _ _ _ _ h
  refine decode_of ((major_19 e31 e25).trans ?_) hw
  unfold decodeLnch
  rw [e0]
  simp only [need, e4, e10, e15, e20]
  rfl

theorem Coded.lwait (d : BitVec 5) (a : BitVec 5) : Coded.Statement (.lwait d a) := by
  intro _ hw
  show decode (0#1 ++ 0x13#6 ++ d ++ a ++ 0#11 ++ 2#4) = _
  generalize h : (0#1 ++ 0x13#6 ++ d ++ a ++ 0#11 ++ 2#4 : BitVec 32) = w
  obtain ⟨e31, e25, e20, e15, e4, e0⟩ := layout8 _ _ _ _ _ _ h
  refine decode_of ((major_19 e31 e25).trans ?_) hw
  unfold decodeLnch
  rw [e0]
  simp only [need, e4, e15, e20]
  rfl

theorem Coded.yield : Coded.Statement (.yield) := by
  intro _ hw
  show decode (0#1 ++ 0x13#6 ++ 0#21 ++ 3#4) = _
  generalize h : (0#1 ++ 0x13#6 ++ 0#21 ++ 3#4 : BitVec 32) = w
  obtain ⟨e31, e25, e4, e0⟩ := layout16 _ _ _ _ h
  refine decode_of ((major_19 e31 e25).trans ?_) hw
  unfold decodeLnch
  rw [e0]
  simp only [need, e4]
  rfl

theorem Coded.lstat (d : BitVec 5) (a : BitVec 5) : Coded.Statement (.lstat d a) := by
  intro _ hw
  show decode (0#1 ++ 0x13#6 ++ d ++ a ++ 0#11 ++ 4#4) = _
  generalize h : (0#1 ++ 0x13#6 ++ d ++ a ++ 0#11 ++ 4#4 : BitVec 32) = w
  obtain ⟨e31, e25, e20, e15, e4, e0⟩ := layout8 _ _ _ _ _ _ h
  refine decode_of ((major_19 e31 e25).trans ?_) hw
  unfold decodeLnch
  rw [e0]
  simp only [need, e4, e15, e20]
  rfl

theorem Coded.endThread : Coded.Statement (.endThread) := by
  intro _ hw
  show decode (0#1 ++ 0x13#6 ++ 0#21 ++ 5#4) = _
  generalize h : (0#1 ++ 0x13#6 ++ 0#21 ++ 5#4 : BitVec 32) = w
  obtain ⟨e31, e25, e4, e0⟩ := layout16 _ _ _ _ h
  refine decode_of ((major_19 e31 e25).trans ?_) hw
  unfold decodeLnch
  rw [e0]
  simp only [need, e4]
  rfl

theorem Coded.hclaim (d : BitVec 5) (a : BitVec 5) : Coded.Statement (.hclaim d a) := by
  intro _ hw
  show decode (0#1 ++ 0x14#6 ++ d ++ a ++ 0#11 ++ 0#4) = _
  generalize h : (0#1 ++ 0x14#6 ++ d ++ a ++ 0#11 ++ 0#4 : BitVec 32) = w
  obtain ⟨e31, e25, e20, e15, e4, e0⟩ := layout8 _ _ _ _ _ _ h
  refine decode_of ((major_20 e31 e25).trans ?_) hw
  unfold decodeHctl
  rw [e0]
  simp only [need, e4, e15, e20]
  rfl

theorem Coded.hfree (b : BitVec 5) : Coded.Statement (.hfree b) := by
  intro _ hw
  show decode (0#1 ++ 0x14#6 ++ 0#10 ++ b ++ 0#6 ++ 1#4) = _
  generalize h : (0#1 ++ 0x14#6 ++ 0#10 ++ b ++ 0#6 ++ 1#4 : BitVec 32) = w
  obtain ⟨e31, e25, e15, e10, e4, e0⟩ := layout17 _ _ _ _ _ _ h
  refine decode_of ((major_20 e31 e25).trans ?_) hw
  unfold decodeHctl
  rw [e0]
  simp only [need, e4, e10, e15]
  rfl

theorem Coded.hstat (d : BitVec 5) (b : BitVec 5) : Coded.Statement (.hstat d b) := by
  intro _ hw
  show decode (0#1 ++ 0x14#6 ++ d ++ 0#5 ++ b ++ 0#6 ++ 2#4) = _
  generalize h : (0#1 ++ 0x14#6 ++ d ++ 0#5 ++ b ++ 0#6 ++ 2#4 : BitVec 32) = w
  obtain ⟨e31, e25, e20, e15, e10, e4, e0⟩ := layout15 _ _ _ _ _ _ _ h
  refine decode_of ((major_20 e31 e25).trans ?_) hw
  unfold decodeHctl
  rw [e0]
  simp only [need, e4, e10, e15, e20]
  rfl

theorem Coded.hdrain (d : BitVec 5) (a : BitVec 5) (b : BitVec 5) : Coded.Statement (.hdrain d a b) := by
  intro _ hw
  show decode (0#1 ++ 0x14#6 ++ d ++ a ++ b ++ 0#6 ++ 3#4) = _
  generalize h : (0#1 ++ 0x14#6 ++ d ++ a ++ b ++ 0#6 ++ 3#4 : BitVec 32) = w
  obtain ⟨e31, e25, e20, e15, e10, e4, e0⟩ := layout15 _ _ _ _ _ _ _ h
  refine decode_of ((major_20 e31 e25).trans ?_) hw
  unfold decodeHctl
  rw [e0]
  simp only [need, e4, e10, e15, e20]
  rfl

theorem Coded.ldt (c : BitVec 4) (d : BitVec 5) (a : BitVec 5) (z : BitVec 2) : Coded.Statement (.ldt c d a z) := by
  intro _ hw
  show decode (0#1 ++ 0x15#6 ++ d ++ a ++ 0#3 ++ z ++ c ++ 0#3 ++ 0#3) = _
  generalize h : (0#1 ++ 0x15#6 ++ d ++ a ++ 0#3 ++ z ++ c ++ 0#3 ++ 0#3 : BitVec 32) = w
  obtain ⟨e31, e25, e20, e15, e12, e10, e6, e3, e0⟩ := layout18 _ _ _ _ _ _ _ _ _ h
  refine decode_of ((major_21 e31 e25).trans ?_) hw
  unfold decodeStg
  rw [e0]
  simp only [need, e3, e6, e10, e12, e15, e20]
  rfl

theorem Coded.stt (c : BitVec 4) (d : BitVec 5) (a : BitVec 5) (z : BitVec 2) : Coded.Statement (.stt c d a z) := by
  intro _ hw
  show decode (0#1 ++ 0x15#6 ++ d ++ a ++ 0#3 ++ z ++ c ++ 0#3 ++ 1#3) = _
  generalize h : (0#1 ++ 0x15#6 ++ d ++ a ++ 0#3 ++ z ++ c ++ 0#3 ++ 1#3 : BitVec 32) = w
  obtain ⟨e31, e25, e20, e15, e12, e10, e6, e3, e0⟩ := layout18 _ _ _ _ _ _ _ _ _ h
  refine decode_of ((major_21 e31 e25).trans ?_) hw
  unfold decodeStg
  rw [e0]
  simp only [need, e3, e6, e10, e12, e15, e20]
  rfl

theorem Coded.txn (c : BitVec 4) (d : BitVec 5) (a : BitVec 5) : Coded.Statement (.txn c d a) := by
  intro _ hw
  show decode (0#1 ++ 0x15#6 ++ d ++ a ++ 0#5 ++ c ++ 0#3 ++ 2#3) = _
  generalize h : (0#1 ++ 0x15#6 ++ d ++ a ++ 0#5 ++ c ++ 0#3 ++ 2#3 : BitVec 32) = w
  obtain ⟨e31, e25, e20, e15, e10, e6, e3, e0⟩ := layout19 _ _ _ _ _ _ _ _ h
  refine decode_of ((major_21 e31 e25).trans ?_) hw
  unfold decodeStg
  rw [e0]
  simp only [need, e3, e6, e10, e15, e20]
  rfl

theorem Coded.stqry (d : BitVec 5) (a : BitVec 5) : Coded.Statement (.stqry d a) := by
  intro _ hw
  show decode (0#1 ++ 0x15#6 ++ d ++ a ++ 0#12 ++ 3#3) = _
  generalize h : (0#1 ++ 0x15#6 ++ d ++ a ++ 0#12 ++ 3#3 : BitVec 32) = w
  obtain ⟨e31, e25, e20, e15, e3, e0⟩ := layout20 _ _ _ _ _ _ h
  refine decode_of ((major_21 e31 e25).trans ?_) hw
  unfold decodeStg
  rw [e0]
  simp only [need, e3, e15, e20]
  rfl

theorem Coded.stload (d : BitVec 5) (a : BitVec 5) (b : BitVec 5) : Coded.Statement (.stload d a b) := by
  intro _ hw
  show decode (0#1 ++ 0x15#6 ++ d ++ a ++ b ++ 0#7 ++ 4#3) = _
  generalize h : (0#1 ++ 0x15#6 ++ d ++ a ++ b ++ 0#7 ++ 4#3 : BitVec 32) = w
  obtain ⟨e31, e25, e20, e15, e10, e3, e0⟩ := layout21 _ _ _ _ _ _ _ h
  refine decode_of ((major_21 e31 e25).trans ?_) hw
  unfold decodeStg
  rw [e0]
  simp only [need, e3, e10, e15, e20]
  rfl

theorem Coded.stbind (d : BitVec 5) (a : BitVec 5) : Coded.Statement (.stbind d a) := by
  intro _ hw
  show decode (0#1 ++ 0x15#6 ++ d ++ a ++ 0#12 ++ 5#3) = _
  generalize h : (0#1 ++ 0x15#6 ++ d ++ a ++ 0#12 ++ 5#3 : BitVec 32) = w
  obtain ⟨e31, e25, e20, e15, e3, e0⟩ := layout20 _ _ _ _ _ _ h
  refine decode_of ((major_21 e31 e25).trans ?_) hw
  unfold decodeStg
  rw [e0]
  simp only [need, e3, e15, e20]
  rfl

theorem Coded.stunbind (d : BitVec 5) (b : BitVec 5) : Coded.Statement (.stunbind d b) := by
  intro _ hw
  show decode (0#1 ++ 0x15#6 ++ d ++ 0#5 ++ b ++ 0#7 ++ 6#3) = _
  generalize h : (0#1 ++ 0x15#6 ++ d ++ 0#5 ++ b ++ 0#7 ++ 6#3 : BitVec 32) = w
  obtain ⟨e31, e25, e20, e15, e10, e3, e0⟩ := layout21 _ _ _ _ _ _ _ h
  refine decode_of ((major_21 e31 e25).trans ?_) hw
  unfold decodeStg
  rw [e0]
  simp only [need, e3, e10, e15, e20]
  rfl

theorem Coded.cpy (d : BitVec 5) (a : BitVec 5) (b : BitVec 5) (w : BitVec 1) (s : BitVec 1) (p : BitVec 1) : Coded.Statement (.cpy d a b w s p) := by
  intro _ hw
  show decode (0#1 ++ 0x16#6 ++ d ++ a ++ b ++ w ++ s ++ p ++ 0#3 ++ 0#4) = _
  generalize h : (0#1 ++ 0x16#6 ++ d ++ a ++ b ++ w ++ s ++ p ++ 0#3 ++ 0#4 : BitVec 32) = u
  obtain ⟨e31, e25, e20, e15, e10, e9, e8, e7, e4, e0⟩ := layout22 _ _ _ _ _ _ _ _ _ _ h
  refine decode_of ((major_22 e31 e25).trans ?_) hw
  unfold decodeEng
  rw [e0]
  simp only [need, e4, e7, e8, e9, e10, e15, e20]
  rfl

theorem Coded.ecwait (d : BitVec 5) (a : BitVec 5) : Coded.Statement (.ecwait d a) := by
  intro _ hw
  show decode (0#1 ++ 0x16#6 ++ d ++ a ++ 0#11 ++ 1#4) = _
  generalize h : (0#1 ++ 0x16#6 ++ d ++ a ++ 0#11 ++ 1#4 : BitVec 32) = w
  obtain ⟨e31, e25, e20, e15, e4, e0⟩ := layout8 _ _ _ _ _ _ h
  refine decode_of ((major_22 e31 e25).trans ?_) hw
  unfold decodeEng
  rw [e0]
  simp only [need, e4, e15, e20]
  rfl

theorem Coded.wbld (d : BitVec 5) (a : BitVec 5) (l : BitVec 5) (w : BitVec 1) (s : BitVec 1) (p : BitVec 1) (h : BitVec 3) : Coded.Statement (.wbld d a l w s p h) := by
  intro _ hw
  show decode (0#1 ++ 0x16#6 ++ d ++ a ++ l ++ w ++ s ++ p ++ h ++ 2#4) = _
  generalize h : (0#1 ++ 0x16#6 ++ d ++ a ++ l ++ w ++ s ++ p ++ h ++ 2#4 : BitVec 32) = u
  obtain ⟨e31, e25, e20, e15, e10, e9, e8, e7, e4, e0⟩ := layout22 _ _ _ _ _ _ _ _ _ _ h
  refine decode_of ((major_22 e31 e25).trans ?_) hw
  unfold decodeEng
  rw [e0]
  simp only [e4, e7, e8, e9, e10, e15, e20]

theorem Coded.acstm (d : BitVec 5) (a : BitVec 5) (b : BitVec 5) (w : BitVec 1) (s : BitVec 1) (p : BitVec 1) : Coded.Statement (.acstm d a b w s p) := by
  intro _ hw
  show decode (0#1 ++ 0x16#6 ++ d ++ a ++ b ++ w ++ s ++ p ++ 0#3 ++ 3#4) = _
  generalize h : (0#1 ++ 0x16#6 ++ d ++ a ++ b ++ w ++ s ++ p ++ 0#3 ++ 3#4 : BitVec 32) = u
  obtain ⟨e31, e25, e20, e15, e10, e9, e8, e7, e4, e0⟩ := layout22 _ _ _ _ _ _ _ _ _ _ h
  refine decode_of ((major_22 e31 e25).trans ?_) hw
  unfold decodeEng
  rw [e0]
  simp only [need, e4, e7, e8, e9, e10, e15, e20]
  rfl

theorem Coded.acldm (d : BitVec 5) (a : BitVec 5) (b : BitVec 5) (w : BitVec 1) (s : BitVec 1) (p : BitVec 1) : Coded.Statement (.acldm d a b w s p) := by
  intro _ hw
  show decode (0#1 ++ 0x16#6 ++ d ++ a ++ b ++ w ++ s ++ p ++ 0#3 ++ 4#4) = _
  generalize h : (0#1 ++ 0x16#6 ++ d ++ a ++ b ++ w ++ s ++ p ++ 0#3 ++ 4#4 : BitVec 32) = u
  obtain ⟨e31, e25, e20, e15, e10, e9, e8, e7, e4, e0⟩ := layout22 _ _ _ _ _ _ _ _ _ _ h
  refine decode_of ((major_22 e31 e25).trans ?_) hw
  unfold decodeEng
  rw [e0]
  simp only [need, e4, e7, e8, e9, e10, e15, e20]
  rfl

theorem Coded.engb (d : BitVec 5) (a : BitVec 5) (g : BitVec 5) : Coded.Statement (.engb d a g) := by
  intro _ hw
  show decode (0#1 ++ 0x17#6 ++ d ++ a ++ 0#5 ++ g ++ 0#5) = _
  generalize h : (0#1 ++ 0x17#6 ++ d ++ a ++ 0#5 ++ g ++ 0#5 : BitVec 32) = w
  obtain ⟨e31, e25, e20, e15, e10, e5, e0⟩ := layout23 _ _ _ _ _ _ _ h
  refine decode_of ((major_23 e31 e25).trans ?_) hw
  unfold decodeEngb
  simp only [need, e0, e5, e10, e15, e20]
  rfl

theorem Coded.attach (d : BitVec 5) (a : BitVec 5) : Coded.Statement (.attach d a) := by
  intro _ hw
  show decode (0#1 ++ 0x18#6 ++ d ++ a ++ 0#11 ++ 0#4) = _
  generalize h : (0#1 ++ 0x18#6 ++ d ++ a ++ 0#11 ++ 0#4 : BitVec 32) = w
  obtain ⟨e31, e25, e20, e15, e4, e0⟩ := layout8 _ _ _ _ _ _ h
  refine decode_of ((major_24 e31 e25).trans ?_) hw
  unfold decodeAtt
  rw [e0]
  simp only [need, e4, e15, e20]
  rfl

theorem Coded.detach : Coded.Statement (.detach) := by
  intro _ hw
  show decode (0#1 ++ 0x18#6 ++ 0#21 ++ 1#4) = _
  generalize h : (0#1 ++ 0x18#6 ++ 0#21 ++ 1#4 : BitVec 32) = w
  obtain ⟨e31, e25, e4, e0⟩ := layout16 _ _ _ _ h
  refine decode_of ((major_24 e31 e25).trans ?_) hw
  unfold decodeAtt
  rw [e0]
  simp only [need, e4]
  rfl

theorem Coded.vld (d : BitVec 5) (a : BitVec 5) (g : BitVec 5) (n : BitVec 3) : Coded.Statement (.vld d a g n) := by
  intro _ hw
  show decode (0#1 ++ 0x19#6 ++ d ++ a ++ 0#5 ++ g ++ n ++ 0#2) = _
  generalize h : (0#1 ++ 0x19#6 ++ d ++ a ++ 0#5 ++ g ++ n ++ 0#2 : BitVec 32) = w
  obtain ⟨e31, e25, e20, e15, e10, e5, e2, e0⟩ := layout24 _ _ _ _ _ _ _ _ h
  refine decode_of ((major_25 e31 e25).trans ?_) hw
  unfold decodeVld
  rw [e0]
  simp only [need, e2, e5, e10, e15, e20]
  rfl

theorem Coded.vldStrided (d : BitVec 5) (a : BitVec 5) (b : BitVec 5) (g : BitVec 5) (n : BitVec 3) : Coded.Statement (.vldStrided d a b g n) := by
  intro _ hw
  show decode (0#1 ++ 0x19#6 ++ d ++ a ++ b ++ g ++ n ++ 1#2) = _
  generalize h : (0#1 ++ 0x19#6 ++ d ++ a ++ b ++ g ++ n ++ 1#2 : BitVec 32) = w
  obtain ⟨e31, e25, e20, e15, e10, e5, e2, e0⟩ := layout24 _ _ _ _ _ _ _ _ h
  refine decode_of ((major_25 e31 e25).trans ?_) hw
  unfold decodeVld
  rw [e0]
  simp only [e2, e5, e10, e15, e20]

theorem Coded.vldIndexed (d : BitVec 5) (a : BitVec 5) (b : BitVec 5) (g : BitVec 5) (n : BitVec 3) : Coded.Statement (.vldIndexed d a b g n) := by
  intro _ hw
  show decode (0#1 ++ 0x19#6 ++ d ++ a ++ b ++ g ++ n ++ 2#2) = _
  generalize h : (0#1 ++ 0x19#6 ++ d ++ a ++ b ++ g ++ n ++ 2#2 : BitVec 32) = w
  obtain ⟨e31, e25, e20, e15, e10, e5, e2, e0⟩ := layout24 _ _ _ _ _ _ _ _ h
  refine decode_of ((major_25 e31 e25).trans ?_) hw
  unfold decodeVld
  rw [e0]
  simp only [e2, e5, e10, e15, e20]

theorem Coded.vldOrd (d : BitVec 5) (a : BitVec 5) (b : BitVec 5) (g : BitVec 5) (n : BitVec 3) : Coded.Statement (.vldOrd d a b g n) := by
  intro _ hw
  show decode (0#1 ++ 0x19#6 ++ d ++ a ++ b ++ g ++ n ++ 3#2) = _
  generalize h : (0#1 ++ 0x19#6 ++ d ++ a ++ b ++ g ++ n ++ 3#2 : BitVec 32) = w
  obtain ⟨e31, e25, e20, e15, e10, e5, e2, e0⟩ := layout24 _ _ _ _ _ _ _ _ h
  refine decode_of ((major_25 e31 e25).trans ?_) hw
  unfold decodeVld
  rw [e0]
  simp only [e2, e5, e10, e15, e20]

theorem Coded.vst (d : BitVec 5) (a : BitVec 5) (g : BitVec 5) (n : BitVec 3) : Coded.Statement (.vst d a g n) := by
  intro _ hw
  show decode (0#1 ++ 0x1a#6 ++ d ++ a ++ 0#5 ++ g ++ n ++ 0#2) = _
  generalize h : (0#1 ++ 0x1a#6 ++ d ++ a ++ 0#5 ++ g ++ n ++ 0#2 : BitVec 32) = w
  obtain ⟨e31, e25, e20, e15, e10, e5, e2, e0⟩ := layout24 _ _ _ _ _ _ _ _ h
  refine decode_of ((major_26 e31 e25).trans ?_) hw
  unfold decodeVst
  rw [e0]
  simp only [need, e2, e5, e10, e15, e20]
  rfl

theorem Coded.vstStrided (d : BitVec 5) (a : BitVec 5) (b : BitVec 5) (g : BitVec 5) (n : BitVec 3) : Coded.Statement (.vstStrided d a b g n) := by
  intro _ hw
  show decode (0#1 ++ 0x1a#6 ++ d ++ a ++ b ++ g ++ n ++ 1#2) = _
  generalize h : (0#1 ++ 0x1a#6 ++ d ++ a ++ b ++ g ++ n ++ 1#2 : BitVec 32) = w
  obtain ⟨e31, e25, e20, e15, e10, e5, e2, e0⟩ := layout24 _ _ _ _ _ _ _ _ h
  refine decode_of ((major_26 e31 e25).trans ?_) hw
  unfold decodeVst
  rw [e0]
  simp only [e2, e5, e10, e15, e20]

theorem Coded.vstIndexed (d : BitVec 5) (a : BitVec 5) (b : BitVec 5) (g : BitVec 5) (n : BitVec 3) : Coded.Statement (.vstIndexed d a b g n) := by
  intro _ hw
  show decode (0#1 ++ 0x1a#6 ++ d ++ a ++ b ++ g ++ n ++ 2#2) = _
  generalize h : (0#1 ++ 0x1a#6 ++ d ++ a ++ b ++ g ++ n ++ 2#2 : BitVec 32) = w
  obtain ⟨e31, e25, e20, e15, e10, e5, e2, e0⟩ := layout24 _ _ _ _ _ _ _ _ h
  refine decode_of ((major_26 e31 e25).trans ?_) hw
  unfold decodeVst
  rw [e0]
  simp only [e2, e5, e10, e15, e20]

theorem Coded.vstOrd (d : BitVec 5) (a : BitVec 5) (b : BitVec 5) (g : BitVec 5) (n : BitVec 3) : Coded.Statement (.vstOrd d a b g n) := by
  intro _ hw
  show decode (0#1 ++ 0x1a#6 ++ d ++ a ++ b ++ g ++ n ++ 3#2) = _
  generalize h : (0#1 ++ 0x1a#6 ++ d ++ a ++ b ++ g ++ n ++ 3#2 : BitVec 32) = w
  obtain ⟨e31, e25, e20, e15, e10, e5, e2, e0⟩ := layout24 _ _ _ _ _ _ _ _ h
  refine decode_of ((major_26 e31 e25).trans ?_) hw
  unfold decodeVst
  rw [e0]
  simp only [e2, e5, e10, e15, e20]

theorem Coded.vldff (d : BitVec 5) (a : BitVec 5) (g : BitVec 5) (n : BitVec 3) : Coded.Statement (.vldff d a g n) := by
  intro _ hw
  show decode (0#1 ++ 0x1b#6 ++ d ++ a ++ 0#5 ++ g ++ n ++ 0#2) = _
  generalize h : (0#1 ++ 0x1b#6 ++ d ++ a ++ 0#5 ++ g ++ n ++ 0#2 : BitVec 32) = w
  obtain ⟨e31, e25, e20, e15, e10, e5, e2, e0⟩ := layout24 _ _ _ _ _ _ _ _ h
  refine decode_of ((major_27 e31 e25).trans ?_) hw
  unfold decodeVlds
  rw [e0]
  simp only [need, e2, e5, e10, e15, e20]
  rfl

theorem Coded.vldm (d : BitVec 5) (a : BitVec 5) (g : BitVec 5) (n : BitVec 3) : Coded.Statement (.vldm d a g n) := by
  intro _ hw
  show decode (0#1 ++ 0x1b#6 ++ d ++ a ++ 0#5 ++ g ++ n ++ 1#2) = _
  generalize h : (0#1 ++ 0x1b#6 ++ d ++ a ++ 0#5 ++ g ++ n ++ 1#2 : BitVec 32) = w
  obtain ⟨e31, e25, e20, e15, e10, e5, e2, e0⟩ := layout24 _ _ _ _ _ _ _ _ h
  refine decode_of ((major_27 e31 e25).trans ?_) hw
  unfold decodeVlds
  rw [e0]
  simp only [need, e2, e5, e10, e15, e20]
  rfl

theorem Coded.vldb (d : BitVec 5) (a : BitVec 5) (b : BitVec 5) (g : BitVec 5) (n : BitVec 3) : Coded.Statement (.vldb d a b g n) := by
  intro _ hw
  show decode (0#1 ++ 0x1b#6 ++ d ++ a ++ b ++ g ++ n ++ 2#2) = _
  generalize h : (0#1 ++ 0x1b#6 ++ d ++ a ++ b ++ g ++ n ++ 2#2 : BitVec 32) = w
  obtain ⟨e31, e25, e20, e15, e10, e5, e2, e0⟩ := layout24 _ _ _ _ _ _ _ _ h
  refine decode_of ((major_27 e31 e25).trans ?_) hw
  unfold decodeVlds
  rw [e0]
  simp only [e2, e5, e10, e15, e20]

theorem Coded.vstm (d : BitVec 5) (a : BitVec 5) (g : BitVec 5) (n : BitVec 3) : Coded.Statement (.vstm d a g n) := by
  intro _ hw
  show decode (0#1 ++ 0x1b#6 ++ d ++ a ++ 0#5 ++ g ++ n ++ 3#2) = _
  generalize h : (0#1 ++ 0x1b#6 ++ d ++ a ++ 0#5 ++ g ++ n ++ 3#2 : BitVec 32) = w
  obtain ⟨e31, e25, e20, e15, e10, e5, e2, e0⟩ := layout24 _ _ _ _ _ _ _ _ h
  refine decode_of ((major_27 e31 e25).trans ?_) hw
  unfold decodeVlds
  rw [e0]
  simp only [need, e2, e5, e10, e15, e20]
  rfl

theorem Coded.vamoadd (d : BitVec 5) (a : BitVec 5) (b : BitVec 5) (g : BitVec 5) (n : BitVec 3) : Coded.Statement (.vamoadd d a b g n) := by
  intro _ hw
  show decode (0#1 ++ 0x1c#6 ++ d ++ a ++ b ++ g ++ n ++ 0#2) = _
  generalize h : (0#1 ++ 0x1c#6 ++ d ++ a ++ b ++ g ++ n ++ 0#2 : BitVec 32) = w
  obtain ⟨e31, e25, e20, e15, e10, e5, e2, e0⟩ := layout24 _ _ _ _ _ _ _ _ h
  refine decode_of ((major_28 e31 e25).trans ?_) hw
  unfold decodeVamo
  rw [e0]
  simp only [e2, e5, e10, e15, e20]

theorem Coded.vamomin (d : BitVec 5) (a : BitVec 5) (b : BitVec 5) (g : BitVec 5) (n : BitVec 3) : Coded.Statement (.vamomin d a b g n) := by
  intro _ hw
  show decode (0#1 ++ 0x1c#6 ++ d ++ a ++ b ++ g ++ n ++ 1#2) = _
  generalize h : (0#1 ++ 0x1c#6 ++ d ++ a ++ b ++ g ++ n ++ 1#2 : BitVec 32) = w
  obtain ⟨e31, e25, e20, e15, e10, e5, e2, e0⟩ := layout24 _ _ _ _ _ _ _ _ h
  refine decode_of ((major_28 e31 e25).trans ?_) hw
  unfold decodeVamo
  rw [e0]
  simp only [e2, e5, e10, e15, e20]

theorem Coded.vamomax (d : BitVec 5) (a : BitVec 5) (b : BitVec 5) (g : BitVec 5) (n : BitVec 3) : Coded.Statement (.vamomax d a b g n) := by
  intro _ hw
  show decode (0#1 ++ 0x1c#6 ++ d ++ a ++ b ++ g ++ n ++ 2#2) = _
  generalize h : (0#1 ++ 0x1c#6 ++ d ++ a ++ b ++ g ++ n ++ 2#2 : BitVec 32) = w
  obtain ⟨e31, e25, e20, e15, e10, e5, e2, e0⟩ := layout24 _ _ _ _ _ _ _ _ h
  refine decode_of ((major_28 e31 e25).trans ?_) hw
  unfold decodeVamo
  rw [e0]
  simp only [e2, e5, e10, e15, e20]

theorem Coded.vamofadd (d : BitVec 5) (a : BitVec 5) (b : BitVec 5) (g : BitVec 5) (n : BitVec 3) : Coded.Statement (.vamofadd d a b g n) := by
  intro _ hw
  show decode (0#1 ++ 0x1c#6 ++ d ++ a ++ b ++ g ++ n ++ 3#2) = _
  generalize h : (0#1 ++ 0x1c#6 ++ d ++ a ++ b ++ g ++ n ++ 3#2 : BitVec 32) = w
  obtain ⟨e31, e25, e20, e15, e10, e5, e2, e0⟩ := layout24 _ _ _ _ _ _ _ _ h
  refine decode_of ((major_28 e31 e25).trans ?_) hw
  unfold decodeVamo
  rw [e0]
  simp only [e2, e5, e10, e15, e20]

theorem Coded.spld (d : BitVec 5) (a : BitVec 5) (b : BitVec 5) (g : BitVec 5) : Coded.Statement (.spld d a b g) := by
  intro _ hw
  show decode (0#1 ++ 0x1d#6 ++ d ++ a ++ b ++ g ++ 0#3 ++ 0#2) = _
  generalize h : (0#1 ++ 0x1d#6 ++ d ++ a ++ b ++ g ++ 0#3 ++ 0#2 : BitVec 32) = w
  obtain ⟨e31, e25, e20, e15, e10, e5, e2, e0⟩ := layout24 _ _ _ _ _ _ _ _ h
  refine decode_of ((major_29 e31 e25).trans ?_) hw
  unfold decodeSpm
  rw [e0]
  simp only [need, e2, e5, e10, e15, e20]
  rfl

theorem Coded.spst (d : BitVec 5) (a : BitVec 5) (b : BitVec 5) (g : BitVec 5) : Coded.Statement (.spst d a b g) := by
  intro _ hw
  show decode (0#1 ++ 0x1d#6 ++ d ++ a ++ b ++ g ++ 0#3 ++ 1#2) = _
  generalize h : (0#1 ++ 0x1d#6 ++ d ++ a ++ b ++ g ++ 0#3 ++ 1#2 : BitVec 32) = w
  obtain ⟨e31, e25, e20, e15, e10, e5, e2, e0⟩ := layout24 _ _ _ _ _ _ _ _ h
  refine decode_of ((major_29 e31 e25).trans ?_) hw
  unfold decodeSpm
  rw [e0]
  simp only [need, e2, e5, e10, e15, e20]
  rfl

theorem Coded.spldu (d : BitVec 5) (a : BitVec 5) (g : BitVec 5) : Coded.Statement (.spldu d a g) := by
  intro _ hw
  show decode (0#1 ++ 0x1d#6 ++ d ++ a ++ 0#5 ++ g ++ 0#3 ++ 2#2) = _
  generalize h : (0#1 ++ 0x1d#6 ++ d ++ a ++ 0#5 ++ g ++ 0#3 ++ 2#2 : BitVec 32) = w
  obtain ⟨e31, e25, e20, e15, e10, e5, e2, e0⟩ := layout24 _ _ _ _ _ _ _ _ h
  refine decode_of ((major_29 e31 e25).trans ?_) hw
  unfold decodeSpm
  rw [e0]
  simp only [need, e2, e5, e10, e15, e20]
  rfl

theorem Coded.spstu (d : BitVec 5) (a : BitVec 5) (g : BitVec 5) : Coded.Statement (.spstu d a g) := by
  intro _ hw
  show decode (0#1 ++ 0x1d#6 ++ d ++ a ++ 0#5 ++ g ++ 0#3 ++ 3#2) = _
  generalize h : (0#1 ++ 0x1d#6 ++ d ++ a ++ 0#5 ++ g ++ 0#3 ++ 3#2 : BitVec 32) = w
  obtain ⟨e31, e25, e20, e15, e10, e5, e2, e0⟩ := layout24 _ _ _ _ _ _ _ _ h
  refine decode_of ((major_29 e31 e25).trans ?_) hw
  unfold decodeSpm
  rw [e0]
  simp only [need, e2, e5, e10, e15, e20]
  rfl

theorem Coded.hins (a : BitVec 5) (b : BitVec 5) (g : BitVec 5) (t : BitVec 2) : Coded.Statement (.hins a b g t) := by
  intro _ hw
  show decode (0#1 ++ 0x1e#6 ++ 0#5 ++ a ++ b ++ g ++ t ++ 0#3) = _
  generalize h : (0#1 ++ 0x1e#6 ++ 0#5 ++ a ++ b ++ g ++ t ++ 0#3 : BitVec 32) = w
  obtain ⟨e31, e25, e20, e15, e10, e5, e3, e0⟩ := layout25 _ _ _ _ _ _ _ _ h
  refine decode_of ((major_30 e31 e25).trans ?_) hw
  unfold decodeHop
  rw [e0]
  simp only [need, e3, e5, e10, e15, e20]
  rfl

theorem Coded.hprb (d : BitVec 5) (a : BitVec 5) (g : BitVec 5) (t : BitVec 2) : Coded.Statement (.hprb d a g t) := by
  intro _ hw
  show decode (0#1 ++ 0x1e#6 ++ d ++ a ++ 0#5 ++ g ++ t ++ 1#3) = _
  generalize h : (0#1 ++ 0x1e#6 ++ d ++ a ++ 0#5 ++ g ++ t ++ 1#3 : BitVec 32) = w
  obtain ⟨e31, e25, e20, e15, e10, e5, e3, e0⟩ := layout25 _ _ _ _ _ _ _ _ h
  refine decode_of ((major_30 e31 e25).trans ?_) hw
  unfold decodeHop
  rw [e0]
  simp only [need, e3, e5, e10, e15, e20]
  rfl

theorem Coded.hdel (a : BitVec 5) (g : BitVec 5) (t : BitVec 2) : Coded.Statement (.hdel a g t) := by
  intro _ hw
  show decode (0#1 ++ 0x1e#6 ++ 0#5 ++ a ++ 0#5 ++ g ++ t ++ 2#3) = _
  generalize h : (0#1 ++ 0x1e#6 ++ 0#5 ++ a ++ 0#5 ++ g ++ t ++ 2#3 : BitVec 32) = w
  obtain ⟨e31, e25, e20, e15, e10, e5, e3, e0⟩ := layout25 _ _ _ _ _ _ _ _ h
  refine decode_of ((major_30 e31 e25).trans ?_) hw
  unfold decodeHop
  rw [e0]
  simp only [need, e3, e5, e10, e15, e20]
  rfl

theorem Coded.hacc (a : BitVec 5) (b : BitVec 5) (g : BitVec 5) (t : BitVec 2) : Coded.Statement (.hacc a b g t) := by
  intro _ hw
  show decode (0#1 ++ 0x1e#6 ++ 0#5 ++ a ++ b ++ g ++ t ++ 3#3) = _
  generalize h : (0#1 ++ 0x1e#6 ++ 0#5 ++ a ++ b ++ g ++ t ++ 3#3 : BitVec 32) = w
  obtain ⟨e31, e25, e20, e15, e10, e5, e3, e0⟩ := layout25 _ _ _ _ _ _ _ _ h
  refine decode_of ((major_30 e31 e25).trans ?_) hw
  unfold decodeHop
  rw [e0]
  simp only [need, e3, e5, e10, e15, e20]
  rfl

theorem Coded.hamin (a : BitVec 5) (b : BitVec 5) (g : BitVec 5) (t : BitVec 2) : Coded.Statement (.hamin a b g t) := by
  intro _ hw
  show decode (0#1 ++ 0x1e#6 ++ 0#5 ++ a ++ b ++ g ++ t ++ 4#3) = _
  generalize h : (0#1 ++ 0x1e#6 ++ 0#5 ++ a ++ b ++ g ++ t ++ 4#3 : BitVec 32) = w
  obtain ⟨e31, e25, e20, e15, e10, e5, e3, e0⟩ := layout25 _ _ _ _ _ _ _ _ h
  refine decode_of ((major_30 e31 e25).trans ?_) hw
  unfold decodeHop
  rw [e0]
  simp only [need, e3, e5, e10, e15, e20]
  rfl

theorem Coded.hamax (a : BitVec 5) (b : BitVec 5) (g : BitVec 5) (t : BitVec 2) : Coded.Statement (.hamax a b g t) := by
  intro _ hw
  show decode (0#1 ++ 0x1e#6 ++ 0#5 ++ a ++ b ++ g ++ t ++ 5#3) = _
  generalize h : (0#1 ++ 0x1e#6 ++ 0#5 ++ a ++ b ++ g ++ t ++ 5#3 : BitVec 32) = w
  obtain ⟨e31, e25, e20, e15, e10, e5, e3, e0⟩ := layout25 _ _ _ _ _ _ _ _ h
  refine decode_of ((major_30 e31 e25).trans ?_) hw
  unfold decodeHop
  rw [e0]
  simp only [need, e3, e5, e10, e15, e20]
  rfl

theorem Coded.hupd (a : BitVec 5) (b : BitVec 5) (g : BitVec 5) (t : BitVec 2) : Coded.Statement (.hupd a b g t) := by
  intro _ hw
  show decode (0#1 ++ 0x1e#6 ++ 0#5 ++ a ++ b ++ g ++ t ++ 6#3) = _
  generalize h : (0#1 ++ 0x1e#6 ++ 0#5 ++ a ++ b ++ g ++ t ++ 6#3 : BitVec 32) = w
  obtain ⟨e31, e25, e20, e15, e10, e5, e3, e0⟩ := layout25 _ _ _ _ _ _ _ _ h
  refine decode_of ((major_30 e31 e25).trans ?_) hw
  unfold decodeHop
  rw [e0]
  simp only [need, e3, e5, e10, e15, e20]
  rfl

theorem Coded.vtxn (c : BitVec 4) (a : BitVec 5) (b : BitVec 5) (g : BitVec 5) : Coded.Statement (.vtxn c a b g) := by
  intro _ hw
  show decode (0#1 ++ 0x1f#6 ++ 0#5 ++ a ++ b ++ g ++ 0#1 ++ c) = _
  generalize h : (0#1 ++ 0x1f#6 ++ 0#5 ++ a ++ b ++ g ++ 0#1 ++ c : BitVec 32) = w
  obtain ⟨e31, e25, e20, e15, e10, e5, e4, e0⟩ := layout26 _ _ _ _ _ _ _ _ h
  refine decode_of ((major_31 e31 e25).trans ?_) hw
  unfold decodeVtxn
  simp only [need, e0, e4, e5, e10, e15, e20]
  rfl

theorem Coded.boxx (d : BitVec 5) (a : BitVec 5) (b : BitVec 5) (g : BitVec 5) : Coded.Statement (.boxx d a b g) := by
  intro _ hw
  show decode (0#1 ++ 0x20#6 ++ d ++ a ++ b ++ g ++ 0#5) = _
  generalize h : (0#1 ++ 0x20#6 ++ d ++ a ++ b ++ g ++ 0#5 : BitVec 32) = w
  obtain ⟨e31, e25, e20, e15, e10, e5, e0⟩ := layout23 _ _ _ _ _ _ _ h
  refine decode_of ((major_32 e31 e25).trans ?_) hw
  unfold decodeGeo
  rw [e0]
  simp only [e5, e10, e15, e20]

theorem Coded.trix (d : BitVec 5) (a : BitVec 5) (b : BitVec 5) (g : BitVec 5) : Coded.Statement (.trix d a b g) := by
  intro _ hw
  show decode (0#1 ++ 0x20#6 ++ d ++ a ++ b ++ g ++ 1#5) = _
  generalize h : (0#1 ++ 0x20#6 ++ d ++ a ++ b ++ g ++ 1#5 : BitVec 32) = w
  obtain ⟨e31, e25, e20, e15, e10, e5, e0⟩ := layout23 _ _ _ _ _ _ _ h
  refine decode_of ((major_32 e31 e25).trans ?_) hw
  unfold decodeGeo
  rw [e0]
  simp only [e5, e10, e15, e20]

theorem Coded.mlins (a : BitVec 5) (b : BitVec 5) (g : BitVec 5) : Coded.Statement (.mlins a b g) := by
  intro _ hw
  show decode (0#1 ++ 0x20#6 ++ 0#5 ++ a ++ b ++ g ++ 2#5) = _
  generalize h : (0#1 ++ 0x20#6 ++ 0#5 ++ a ++ b ++ g ++ 2#5 : BitVec 32) = w
  obtain ⟨e31, e25, e20, e15, e10, e5, e0⟩ := layout23 _ _ _ _ _ _ _ h
  refine decode_of ((major_32 e31 e25).trans ?_) hw
  unfold decodeGeo
  rw [e0]
  simp only [need, e5, e10, e15, e20]
  rfl

theorem Coded.mlins2 (a : BitVec 5) (b : BitVec 5) (g : BitVec 5) : Coded.Statement (.mlins2 a b g) := by
  intro _ hw
  show decode (0#1 ++ 0x20#6 ++ 0#5 ++ a ++ b ++ g ++ 3#5) = _
  generalize h : (0#1 ++ 0x20#6 ++ 0#5 ++ a ++ b ++ g ++ 3#5 : BitVec 32) = w
  obtain ⟨e31, e25, e20, e15, e10, e5, e0⟩ := layout23 _ _ _ _ _ _ _ h
  refine decode_of ((major_32 e31 e25).trans ?_) hw
  unfold decodeGeo
  rw [e0]
  simp only [need, e5, e10, e15, e20]
  rfl

theorem Coded.mlrslv (d : BitVec 5) (a : BitVec 5) (b : BitVec 5) (g : BitVec 5) : Coded.Statement (.mlrslv d a b g) := by
  intro _ hw
  show decode (0#1 ++ 0x20#6 ++ d ++ a ++ b ++ g ++ 4#5) = _
  generalize h : (0#1 ++ 0x20#6 ++ d ++ a ++ b ++ g ++ 4#5 : BitVec 32) = w
  obtain ⟨e31, e25, e20, e15, e10, e5, e0⟩ := layout23 _ _ _ _ _ _ _ h
  refine decode_of ((major_32 e31 e25).trans ?_) hw
  unfold decodeGeo
  rw [e0]
  simp only [e5, e10, e15, e20]

theorem Coded.mlclr (b : BitVec 5) (g : BitVec 5) : Coded.Statement (.mlclr b g) := by
  intro _ hw
  show decode (0#1 ++ 0x20#6 ++ 0#10 ++ b ++ g ++ 5#5) = _
  generalize h : (0#1 ++ 0x20#6 ++ 0#10 ++ b ++ g ++ 5#5 : BitVec 32) = w
  obtain ⟨e31, e25, e15, e10, e5, e0⟩ := layout27 _ _ _ _ _ _ h
  refine decode_of ((major_32 e31 e25).trans ?_) hw
  unfold decodeGeo
  rw [e0]
  simp only [need, e5, e10, e15]
  rfl

theorem Coded.mlcfg (d : BitVec 5) (a : BitVec 5) : Coded.Statement (.mlcfg d a) := by
  intro _ hw
  show decode (0#1 ++ 0x20#6 ++ d ++ a ++ 0#10 ++ 6#5) = _
  generalize h : (0#1 ++ 0x20#6 ++ d ++ a ++ 0#10 ++ 6#5 : BitVec 32) = w
  obtain ⟨e31, e25, e20, e15, e5, e0⟩ := layout28 _ _ _ _ _ _ h
  refine decode_of ((major_32 e31 e25).trans ?_) hw
  unfold decodeGeo
  rw [e0]
  simp only [need, e5, e15, e20]
  rfl

theorem Coded.mld (d : BitVec 5) (a : BitVec 5) (b : BitVec 5) (g : BitVec 5) (n : BitVec 3) : Coded.Statement (.mld d a b g n) := by
  intro _ hw
  show decode (0#1 ++ 0x21#6 ++ d ++ a ++ b ++ g ++ n ++ 0#2) = _
  generalize h : (0#1 ++ 0x21#6 ++ d ++ a ++ b ++ g ++ n ++ 0#2 : BitVec 32) = w
  obtain ⟨e31, e25, e20, e15, e10, e5, e2, e0⟩ := layout24 _ _ _ _ _ _ _ _ h
  refine decode_of ((major_33 e31 e25).trans ?_) hw
  unfold decodeMvld
  rw [e0]
  simp only [e2, e5, e10, e15, e20]

theorem Coded.mldp (d : BitVec 5) (a : BitVec 5) (b : BitVec 5) (g : BitVec 5) (n : BitVec 3) : Coded.Statement (.mldp d a b g n) := by
  intro _ hw
  show decode (0#1 ++ 0x21#6 ++ d ++ a ++ b ++ g ++ n ++ 1#2) = _
  generalize h : (0#1 ++ 0x21#6 ++ d ++ a ++ b ++ g ++ n ++ 1#2 : BitVec 32) = w
  obtain ⟨e31, e25, e20, e15, e10, e5, e2, e0⟩ := layout24 _ _ _ _ _ _ _ _ h
  refine decode_of ((major_33 e31 e25).trans ?_) hw
  unfold decodeMvld
  rw [e0]
  simp only [e2, e5, e10, e15, e20]

theorem Coded.mst (d : BitVec 5) (a : BitVec 5) (b : BitVec 5) (g : BitVec 5) (n : BitVec 3) : Coded.Statement (.mst d a b g n) := by
  intro _ hw
  show decode (0#1 ++ 0x21#6 ++ d ++ a ++ b ++ g ++ n ++ 2#2) = _
  generalize h : (0#1 ++ 0x21#6 ++ d ++ a ++ b ++ g ++ n ++ 2#2 : BitVec 32) = w
  obtain ⟨e31, e25, e20, e15, e10, e5, e2, e0⟩ := layout24 _ _ _ _ _ _ _ _ h
  refine decode_of ((major_33 e31 e25).trans ?_) hw
  unfold decodeMvld
  rw [e0]
  simp only [e2, e5, e10, e15, e20]

theorem Coded.mstp (d : BitVec 5) (a : BitVec 5) (b : BitVec 5) (g : BitVec 5) (n : BitVec 3) : Coded.Statement (.mstp d a b g n) := by
  intro _ hw
  show decode (0#1 ++ 0x21#6 ++ d ++ a ++ b ++ g ++ n ++ 3#2) = _
  generalize h : (0#1 ++ 0x21#6 ++ d ++ a ++ b ++ g ++ n ++ 3#2 : BitVec 32) = w
  obtain ⟨e31, e25, e20, e15, e10, e5, e2, e0⟩ := layout24 _ _ _ _ _ _ _ _ h
  refine decode_of ((major_33 e31 e25).trans ?_) hw
  unfold decodeMvld
  rw [e0]
  simp only [e2, e5, e10, e15, e20]

theorem Coded.setvl (d : BitVec 5) (a : BitVec 5) (b : BitVec 5) : Coded.Statement (.setvl d a b) := by
  intro _ hw
  show decode (0#1 ++ 0x22#6 ++ d ++ a ++ b ++ 0#6 ++ 0#4) = _
  generalize h : (0#1 ++ 0x22#6 ++ d ++ a ++ b ++ 0#6 ++ 0#4 : BitVec 32) = w
  obtain ⟨e31, e25, e20, e15, e10, e4, e0⟩ := layout15 _ _ _ _ _ _ _ h
  refine decode_of ((major_34 e31 e25).trans ?_) hw
  unfold decodeVcfg
  rw [e0]
  simp only [need, e4, e10, e15, e20]
  rfl

theorem Coded.settype (d : BitVec 5) (a : BitVec 5) : Coded.Statement (.settype d a) := by
  intro _ hw
  show decode (0#1 ++ 0x22#6 ++ d ++ a ++ 0#11 ++ 1#4) = _
  generalize h : (0#1 ++ 0x22#6 ++ d ++ a ++ 0#11 ++ 1#4 : BitVec 32) = w
  obtain ⟨e31, e25, e20, e15, e4, e0⟩ := layout8 _ _ _ _ _ _ h
  refine decode_of ((major_34 e31 e25).trans ?_) hw
  unfold decodeVcfg
  rw [e0]
  simp only [need, e4, e15, e20]
  rfl

theorem Coded.settypei (i : BitVec 20) : Coded.Statement (.settypei i) := by
  intro _ hw
  show decode (0#1 ++ 0x23#6 ++ 0#5 ++ i) = _
  generalize h : (0#1 ++ 0x23#6 ++ 0#5 ++ i : BitVec 32) = w
  obtain ⟨e31, e25, e20, e0⟩ := layout5 _ _ _ _ h
  refine decode_of ((major_35 e31 e25).trans ?_) hw
  unfold decodeSettypei
  simp only [need, e0, e20]
  rfl

theorem Coded.queueDeadlock (t : ThreadId) : Coded.Statement (.queueDeadlock t) :=
  fun h => absurd (show false = true from h) Bool.false_ne_true

theorem Coded.wfeTimeout (t : ThreadId) : Coded.Statement (.wfeTimeout t) :=
  fun h => absurd (show false = true from h) Bool.false_ne_true

theorem Coded.stagedResend (t : ThreadId) : Coded.Statement (.stagedResend t) :=
  fun h => absurd (show false = true from h) Bool.false_ne_true

theorem Coded.commandComplete (id : Nat) (err : Bool) : Coded.Statement (.commandComplete id err) :=
  fun h => absurd (show false = true from h) Bool.false_ne_true

theorem Coded.tokenDeadlock (t : ThreadId) : Coded.Statement (.tokenDeadlock t) :=
  fun h => absurd (show false = true from h) Bool.false_ne_true

theorem Coded.mlInsertion (id : Nat) : Coded.Statement (.mlInsertion id) :=
  fun h => absurd (show false = true from h) Bool.false_ne_true

theorem Coded.mlResolveApply (id : Nat) : Coded.Statement (.mlResolveApply id) :=
  fun h => absurd (show false = true from h) Bool.false_ne_true

theorem Coded.mlClearApply (id : Nat) : Coded.Statement (.mlClearApply id) :=
  fun h => absurd (show false = true from h) Bool.false_ne_true

theorem Coded.setvlReevaluation (core : Nat) : Coded.Statement (.setvlReevaluation core) :=
  fun h => absurd (show false = true from h) Bool.false_ne_true

theorem Coded.bootLaunch (part : Nat) (packet : BitVec 1024) : Coded.Statement (.bootLaunch part packet) :=
  fun h => absurd (show false = true from h) Bool.false_ne_true

theorem Coded.partitionUnitTake (part : Nat) : Coded.Statement (.partitionUnitTake part) :=
  fun h => absurd (show false = true from h) Bool.false_ne_true

theorem Coded.gateReoffer (part : Nat) (lid : Nat) : Coded.Statement (.gateReoffer part lid) :=
  fun h => absurd (show false = true from h) Bool.false_ne_true

theorem Coded.threadDispatch (part : Nat) : Coded.Statement (.threadDispatch part) :=
  fun h => absurd (show false = true from h) Bool.false_ne_true

theorem Coded.recordAging (t : ThreadId) : Coded.Statement (.recordAging t) :=
  fun h => absurd (show false = true from h) Bool.false_ne_true

theorem Coded.launchComplete (part : Nat) (lid : Nat) : Coded.Statement (.launchComplete part lid) :=
  fun h => absurd (show false = true from h) Bool.false_ne_true

theorem Coded.nodeFlush (part : Nat) (node : Nat) : Coded.Statement (.nodeFlush part node) :=
  fun h => absurd (show false = true from h) Bool.false_ne_true

theorem Coded.laneReclaim (t : ThreadId) : Coded.Statement (.laneReclaim t) :=
  fun h => absurd (show false = true from h) Bool.false_ne_true

theorem Coded.governorEvaluation (core : Nat) (ceil : Nat) (quad : Nat) (rowcap : Nat) (pace : Nat) : Coded.Statement (.governorEvaluation core ceil quad rowcap pace) :=
  fun h => absurd (show false = true from h) Bool.false_ne_true

theorem Coded.preemption (t : ThreadId) : Coded.Statement (.preemption t) :=
  fun h => absurd (show false = true from h) Bool.false_ne_true

theorem Coded.resume (t : ThreadId) : Coded.Statement (.resume t) :=
  fun h => absurd (show false = true from h) Bool.false_ne_true

theorem Coded.peerRequest (q : PeerReq) : Coded.Statement (.peerRequest q) :=
  fun h => absurd (show false = true from h) Bool.false_ne_true

theorem Coded.peerResend (tag : Nat) : Coded.Statement (.peerResend tag) :=
  fun h => absurd (show false = true from h) Bool.false_ne_true

theorem Coded.peerRetryReply (tag : Nat) : Coded.Statement (.peerRetryReply tag) :=
  fun h => absurd (show false = true from h) Bool.false_ne_true

theorem Coded.linkError (tag : Nat) : Coded.Statement (.linkError tag) :=
  fun h => absurd (show false = true from h) Bool.false_ne_true

theorem Coded.flitCrcRetry (port : Nat) : Coded.Statement (.flitCrcRetry port) :=
  fun h => absurd (show false = true from h) Bool.false_ne_true

theorem Coded.crinikLaneFailure (port : Nat) : Coded.Statement (.crinikLaneFailure port) :=
  fun h => absurd (show false = true from h) Bool.false_ne_true

theorem Coded.crinikPortLoss (port : Nat) : Coded.Statement (.crinikPortLoss port) :=
  fun h => absurd (show false = true from h) Bool.false_ne_true

theorem Coded.hostRequest (part : Nat) (addr : Nat) : Coded.Statement (.hostRequest part addr) :=
  fun h => absurd (show false = true from h) Bool.false_ne_true

theorem Coded.softError (core : Nat) (group : Nat) (again : Bool) : Coded.Statement (.softError core group again) :=
  fun h => absurd (show false = true from h) Bool.false_ne_true

theorem Coded.eccCorrected (part : Nat) (addr : Nat) (unit : Nat) : Coded.Statement (.eccCorrected part addr unit) :=
  fun h => absurd (show false = true from h) Bool.false_ne_true

theorem Coded.uncorrectableError (addr : Nat) (len : Nat) : Coded.Statement (.uncorrectableError addr len) :=
  fun h => absurd (show false = true from h) Bool.false_ne_true

theorem Coded.fatalDeviceError (unit : Nat) : Coded.Statement (.fatalDeviceError unit) :=
  fun h => absurd (show false = true from h) Bool.false_ne_true

theorem Coded.heartbeat (m : Master) : Coded.Statement (.heartbeat m) :=
  fun h => absurd (show false = true from h) Bool.false_ne_true

theorem Coded.takeoverExpiry : Coded.Statement (.takeoverExpiry) :=
  fun h => absurd (show false = true from h) Bool.false_ne_true

theorem Coded.ownershipWrite (m : Master) (v : BitVec 64) : Coded.Statement (.ownershipWrite m v) :=
  fun h => absurd (show false = true from h) Bool.false_ne_true

theorem Coded.modidWrite (m : Master) (v : BitVec 64) : Coded.Statement (.modidWrite m v) :=
  fun h => absurd (show false = true from h) Bool.false_ne_true

theorem Coded.registerWrite (m : Master) (vf : Option Nat) (off : Nat) (v : BitVec 64) : Coded.Statement (.registerWrite m vf off v) :=
  fun h => absurd (show false = true from h) Bool.false_ne_true

theorem Coded.create (m : Master) : Coded.Statement (.create m) :=
  fun h => absurd (show false = true from h) Bool.false_ne_true

theorem Coded.destroy (m : Master) : Coded.Statement (.destroy m) :=
  fun h => absurd (show false = true from h) Bool.false_ne_true

theorem Coded.resize (m : Master) : Coded.Statement (.resize m) :=
  fun h => absurd (show false = true from h) Bool.false_ne_true

theorem Coded.addmem (m : Master) : Coded.Statement (.addmem m) :=
  fun h => absurd (show false = true from h) Bool.false_ne_true

theorem Coded.exportAperture (m : Master) : Coded.Statement (.exportAperture m) :=
  fun h => absurd (show false = true from h) Bool.false_ne_true

theorem Coded.peermap (m : Master) : Coded.Statement (.peermap m) :=
  fun h => absurd (show false = true from h) Bool.false_ne_true

theorem Coded.peerunmap (m : Master) : Coded.Statement (.peerunmap m) :=
  fun h => absurd (show false = true from h) Bool.false_ne_true

theorem Coded.fenceq (m : Master) : Coded.Statement (.fenceq m) :=
  fun h => absurd (show false = true from h) Bool.false_ne_true

theorem Coded.readmit (m : Master) : Coded.Statement (.readmit m) :=
  fun h => absurd (show false = true from h) Bool.false_ne_true

theorem Coded.retiresb (m : Master) : Coded.Statement (.retiresb m) :=
  fun h => absurd (show false = true from h) Bool.false_ne_true

theorem Coded.retirech (m : Master) : Coded.Statement (.retirech m) :=
  fun h => absurd (show false = true from h) Bool.false_ne_true

theorem Coded.power (m : Master) : Coded.Statement (.power m) :=
  fun h => absurd (show false = true from h) Bool.false_ne_true

theorem Coded.links (m : Master) : Coded.Statement (.links m) :=
  fun h => absurd (show false = true from h) Bool.false_ne_true

theorem Coded.update (m : Master) : Coded.Statement (.update m) :=
  fun h => absurd (show false = true from h) Bool.false_ne_true

theorem Coded.seize : Coded.Statement (.seize) :=
  fun h => absurd (show false = true from h) Bool.false_ne_true

theorem Coded.handback : Coded.Statement (.handback) :=
  fun h => absurd (show false = true from h) Bool.false_ne_true

theorem Coded.requestComplete : Coded.Statement (.requestComplete) :=
  fun h => absurd (show false = true from h) Bool.false_ne_true

theorem Coded.imageSwitch (unit : Nat) (ok : Bool) : Coded.Statement (.imageSwitch unit ok) :=
  fun h => absurd (show false = true from h) Bool.false_ne_true

theorem Coded.spdmGetMeasurements : Coded.Statement (.spdmGetMeasurements) :=
  fun h => absurd (show false = true from h) Bool.false_ne_true

theorem Coded.spdmChallenge (nonce : BitVec 256) : Coded.Statement (.spdmChallenge nonce) :=
  fun h => absurd (show false = true from h) Bool.false_ne_true

theorem Coded.spdmKeyExchange (nonce : BitVec 256) : Coded.Statement (.spdmKeyExchange nonce) :=
  fun h => absurd (show false = true from h) Bool.false_ne_true

theorem Coded.pldmMonitoring : Coded.Statement (.pldmMonitoring) :=
  fun h => absurd (show false = true from h) Bool.false_ne_true

theorem Coded.pldmFirmwareUpdate (unit : Nat) (version : Nat) (ok : Bool) : Coded.Statement (.pldmFirmwareUpdate unit version ok) :=
  fun h => absurd (show false = true from h) Bool.false_ne_true

theorem Coded.auxPowerUp (ok : Bool) : Coded.Statement (.auxPowerUp ok) :=
  fun h => absurd (show false = true from h) Bool.false_ne_true

theorem Coded.mainPowerUp (ok : Bool) (badChannels : List Nat) : Coded.Statement (.mainPowerUp ok badChannels) :=
  fun h => absurd (show false = true from h) Bool.false_ne_true

theorem Coded.illegalWord (w : BitVec 32) : Coded.Statement (.illegalWord w) :=
  fun h => absurd (show false = true from h) Bool.false_ne_true

theorem Coded.dieToDieLinkRetry (tag : Nat) : Coded.Statement (.dieToDieLinkRetry tag) :=
  fun h => absurd (show false = true from h) Bool.false_ne_true

theorem Coded.replyAcknowledgement (port : Nat) (requester : Nat) (tag : Nat) : Coded.Statement (.replyAcknowledgement port requester tag) :=
  fun h => absurd (show false = true from h) Bool.false_ne_true

theorem Coded.vadd (c : BitVec 1) (d : BitVec 5) (a : BitVec 5) (b : BitVec 5) (g : BitVec 5) : Coded.Statement (.vadd c d a b g) := by
  intro _ hw
  show decode (c ++ 0x28#6 ++ d ++ a ++ b ++ g ++ 0#5) = _
  generalize h : (c ++ 0x28#6 ++ d ++ a ++ b ++ g ++ 0#5 : BitVec 32) = w
  obtain ⟨e31, e25, e20, e15, e10, e5, e0⟩ := layout23 _ _ _ _ _ _ _ h
  refine decode_of ((major_40 e25).trans ?_) hw
  unfold decodeVint
  rw [e0]
  simp only [e5, e10, e15, e20, e31]

theorem Coded.vsub (c : BitVec 1) (d : BitVec 5) (a : BitVec 5) (b : BitVec 5) (g : BitVec 5) : Coded.Statement (.vsub c d a b g) := by
  intro _ hw
  show decode (c ++ 0x28#6 ++ d ++ a ++ b ++ g ++ 1#5) = _
  generalize h : (c ++ 0x28#6 ++ d ++ a ++ b ++ g ++ 1#5 : BitVec 32) = w
  obtain ⟨e31, e25, e20, e15, e10, e5, e0⟩ := layout23 _ _ _ _ _ _ _ h
  refine decode_of ((major_40 e25).trans ?_) hw
  unfold decodeVint
  rw [e0]
  simp only [e5, e10, e15, e20, e31]

theorem Coded.vmul (c : BitVec 1) (d : BitVec 5) (a : BitVec 5) (b : BitVec 5) (g : BitVec 5) : Coded.Statement (.vmul c d a b g) := by
  intro _ hw
  show decode (c ++ 0x28#6 ++ d ++ a ++ b ++ g ++ 2#5) = _
  generalize h : (c ++ 0x28#6 ++ d ++ a ++ b ++ g ++ 2#5 : BitVec 32) = w
  obtain ⟨e31, e25, e20, e15, e10, e5, e0⟩ := layout23 _ _ _ _ _ _ _ h
  refine decode_of ((major_40 e25).trans ?_) hw
  unfold decodeVint
  rw [e0]
  simp only [e5, e10, e15, e20, e31]

theorem Coded.vmulh (c : BitVec 1) (d : BitVec 5) (a : BitVec 5) (b : BitVec 5) (g : BitVec 5) : Coded.Statement (.vmulh c d a b g) := by
  intro _ hw
  show decode (c ++ 0x28#6 ++ d ++ a ++ b ++ g ++ 3#5) = _
  generalize h : (c ++ 0x28#6 ++ d ++ a ++ b ++ g ++ 3#5 : BitVec 32) = w
  obtain ⟨e31, e25, e20, e15, e10, e5, e0⟩ := layout23 _ _ _ _ _ _ _ h
  refine decode_of ((major_40 e25).trans ?_) hw
  unfold decodeVint
  rw [e0]
  simp only [e5, e10, e15, e20, e31]

theorem Coded.vmin (c : BitVec 1) (d : BitVec 5) (a : BitVec 5) (b : BitVec 5) (g : BitVec 5) : Coded.Statement (.vmin c d a b g) := by
  intro _ hw
  show decode (c ++ 0x28#6 ++ d ++ a ++ b ++ g ++ 4#5) = _
  generalize h : (c ++ 0x28#6 ++ d ++ a ++ b ++ g ++ 4#5 : BitVec 32) = w
  obtain ⟨e31, e25, e20, e15, e10, e5, e0⟩ := layout23 _ _ _ _ _ _ _ h
  refine decode_of ((major_40 e25).trans ?_) hw
  unfold decodeVint
  rw [e0]
  simp only [e5, e10, e15, e20, e31]

theorem Coded.vmax (c : BitVec 1) (d : BitVec 5) (a : BitVec 5) (b : BitVec 5) (g : BitVec 5) : Coded.Statement (.vmax c d a b g) := by
  intro _ hw
  show decode (c ++ 0x28#6 ++ d ++ a ++ b ++ g ++ 5#5) = _
  generalize h : (c ++ 0x28#6 ++ d ++ a ++ b ++ g ++ 5#5 : BitVec 32) = w
  obtain ⟨e31, e25, e20, e15, e10, e5, e0⟩ := layout23 _ _ _ _ _ _ _ h
  refine decode_of ((major_40 e25).trans ?_) hw
  unfold decodeVint
  rw [e0]
  simp only [e5, e10, e15, e20, e31]

theorem Coded.vminu (c : BitVec 1) (d : BitVec 5) (a : BitVec 5) (b : BitVec 5) (g : BitVec 5) : Coded.Statement (.vminu c d a b g) := by
  intro _ hw
  show decode (c ++ 0x28#6 ++ d ++ a ++ b ++ g ++ 6#5) = _
  generalize h : (c ++ 0x28#6 ++ d ++ a ++ b ++ g ++ 6#5 : BitVec 32) = w
  obtain ⟨e31, e25, e20, e15, e10, e5, e0⟩ := layout23 _ _ _ _ _ _ _ h
  refine decode_of ((major_40 e25).trans ?_) hw
  unfold decodeVint
  rw [e0]
  simp only [e5, e10, e15, e20, e31]

theorem Coded.vmaxu (c : BitVec 1) (d : BitVec 5) (a : BitVec 5) (b : BitVec 5) (g : BitVec 5) : Coded.Statement (.vmaxu c d a b g) := by
  intro _ hw
  show decode (c ++ 0x28#6 ++ d ++ a ++ b ++ g ++ 7#5) = _
  generalize h : (c ++ 0x28#6 ++ d ++ a ++ b ++ g ++ 7#5 : BitVec 32) = w
  obtain ⟨e31, e25, e20, e15, e10, e5, e0⟩ := layout23 _ _ _ _ _ _ _ h
  refine decode_of ((major_40 e25).trans ?_) hw
  unfold decodeVint
  rw [e0]
  simp only [e5, e10, e15, e20, e31]

theorem Coded.vand (c : BitVec 1) (d : BitVec 5) (a : BitVec 5) (b : BitVec 5) (g : BitVec 5) : Coded.Statement (.vand c d a b g) := by
  intro _ hw
  show decode (c ++ 0x28#6 ++ d ++ a ++ b ++ g ++ 8#5) = _
  generalize h : (c ++ 0x28#6 ++ d ++ a ++ b ++ g ++ 8#5 : BitVec 32) = w
  obtain ⟨e31, e25, e20, e15, e10, e5, e0⟩ := layout23 _ _ _ _ _ _ _ h
  refine decode_of ((major_40 e25).trans ?_) hw
  unfold decodeVint
  rw [e0]
  simp only [e5, e10, e15, e20, e31]

theorem Coded.vor (c : BitVec 1) (d : BitVec 5) (a : BitVec 5) (b : BitVec 5) (g : BitVec 5) : Coded.Statement (.vor c d a b g) := by
  intro _ hw
  show decode (c ++ 0x28#6 ++ d ++ a ++ b ++ g ++ 9#5) = _
  generalize h : (c ++ 0x28#6 ++ d ++ a ++ b ++ g ++ 9#5 : BitVec 32) = w
  obtain ⟨e31, e25, e20, e15, e10, e5, e0⟩ := layout23 _ _ _ _ _ _ _ h
  refine decode_of ((major_40 e25).trans ?_) hw
  unfold decodeVint
  rw [e0]
  simp only [e5, e10, e15, e20, e31]

theorem Coded.vxor (c : BitVec 1) (d : BitVec 5) (a : BitVec 5) (b : BitVec 5) (g : BitVec 5) : Coded.Statement (.vxor c d a b g) := by
  intro _ hw
  show decode (c ++ 0x28#6 ++ d ++ a ++ b ++ g ++ 10#5) = _
  generalize h : (c ++ 0x28#6 ++ d ++ a ++ b ++ g ++ 10#5 : BitVec 32) = w
  obtain ⟨e31, e25, e20, e15, e10, e5, e0⟩ := layout23 _ _ _ _ _ _ _ h
  refine decode_of ((major_40 e25).trans ?_) hw
  unfold decodeVint
  rw [e0]
  simp only [e5, e10, e15, e20, e31]

theorem Coded.vsll (c : BitVec 1) (d : BitVec 5) (a : BitVec 5) (b : BitVec 5) (g : BitVec 5) : Coded.Statement (.vsll c d a b g) := by
  intro _ hw
  show decode (c ++ 0x28#6 ++ d ++ a ++ b ++ g ++ 11#5) = _
  generalize h : (c ++ 0x28#6 ++ d ++ a ++ b ++ g ++ 11#5 : BitVec 32) = w
  obtain ⟨e31, e25, e20, e15, e10, e5, e0⟩ := layout23 _ _ _ _ _ _ _ h
  refine decode_of ((major_40 e25).trans ?_) hw
  unfold decodeVint
  rw [e0]
  simp only [e5, e10, e15, e20, e31]

theorem Coded.vsrl (c : BitVec 1) (d : BitVec 5) (a : BitVec 5) (b : BitVec 5) (g : BitVec 5) : Coded.Statement (.vsrl c d a b g) := by
  intro _ hw
  show decode (c ++ 0x28#6 ++ d ++ a ++ b ++ g ++ 12#5) = _
  generalize h : (c ++ 0x28#6 ++ d ++ a ++ b ++ g ++ 12#5 : BitVec 32) = w
  obtain ⟨e31, e25, e20, e15, e10, e5, e0⟩ := layout23 _ _ _ _ _ _ _ h
  refine decode_of ((major_40 e25).trans ?_) hw
  unfold decodeVint
  rw [e0]
  simp only [e5, e10, e15, e20, e31]

theorem Coded.vsra (c : BitVec 1) (d : BitVec 5) (a : BitVec 5) (b : BitVec 5) (g : BitVec 5) : Coded.Statement (.vsra c d a b g) := by
  intro _ hw
  show decode (c ++ 0x28#6 ++ d ++ a ++ b ++ g ++ 13#5) = _
  generalize h : (c ++ 0x28#6 ++ d ++ a ++ b ++ g ++ 13#5 : BitVec 32) = w
  obtain ⟨e31, e25, e20, e15, e10, e5, e0⟩ := layout23 _ _ _ _ _ _ _ h
  refine decode_of ((major_40 e25).trans ?_) hw
  unfold decodeVint
  rw [e0]
  simp only [e5, e10, e15, e20, e31]

theorem Coded.vmacc (c : BitVec 1) (d : BitVec 5) (a : BitVec 5) (b : BitVec 5) (g : BitVec 5) : Coded.Statement (.vmacc c d a b g) := by
  intro _ hw
  show decode (c ++ 0x28#6 ++ d ++ a ++ b ++ g ++ 14#5) = _
  generalize h : (c ++ 0x28#6 ++ d ++ a ++ b ++ g ++ 14#5 : BitVec 32) = w
  obtain ⟨e31, e25, e20, e15, e10, e5, e0⟩ := layout23 _ _ _ _ _ _ _ h
  refine decode_of ((major_40 e25).trans ?_) hw
  unfold decodeVint
  rw [e0]
  simp only [e5, e10, e15, e20, e31]

theorem Coded.vdiv (c : BitVec 1) (d : BitVec 5) (a : BitVec 5) (b : BitVec 5) (g : BitVec 5) : Coded.Statement (.vdiv c d a b g) := by
  intro _ hw
  show decode (c ++ 0x28#6 ++ d ++ a ++ b ++ g ++ 15#5) = _
  generalize h : (c ++ 0x28#6 ++ d ++ a ++ b ++ g ++ 15#5 : BitVec 32) = w
  obtain ⟨e31, e25, e20, e15, e10, e5, e0⟩ := layout23 _ _ _ _ _ _ _ h
  refine decode_of ((major_40 e25).trans ?_) hw
  unfold decodeVint
  rw [e0]
  simp only [e5, e10, e15, e20, e31]

theorem Coded.vaddsat (c : BitVec 1) (d : BitVec 5) (a : BitVec 5) (b : BitVec 5) (g : BitVec 5) : Coded.Statement (.vaddsat c d a b g) := by
  intro _ hw
  show decode (c ++ 0x28#6 ++ d ++ a ++ b ++ g ++ 16#5) = _
  generalize h : (c ++ 0x28#6 ++ d ++ a ++ b ++ g ++ 16#5 : BitVec 32) = w
  obtain ⟨e31, e25, e20, e15, e10, e5, e0⟩ := layout23 _ _ _ _ _ _ _ h
  refine decode_of ((major_40 e25).trans ?_) hw
  unfold decodeVint
  rw [e0]
  simp only [e5, e10, e15, e20, e31]

theorem Coded.vsubsat (c : BitVec 1) (d : BitVec 5) (a : BitVec 5) (b : BitVec 5) (g : BitVec 5) : Coded.Statement (.vsubsat c d a b g) := by
  intro _ hw
  show decode (c ++ 0x28#6 ++ d ++ a ++ b ++ g ++ 17#5) = _
  generalize h : (c ++ 0x28#6 ++ d ++ a ++ b ++ g ++ 17#5 : BitVec 32) = w
  obtain ⟨e31, e25, e20, e15, e10, e5, e0⟩ := layout23 _ _ _ _ _ _ _ h
  refine decode_of ((major_40 e25).trans ?_) hw
  unfold decodeVint
  rw [e0]
  simp only [e5, e10, e15, e20, e31]

theorem Coded.vintsVadd (c : BitVec 1) (d : BitVec 5) (a : BitVec 5) (b : BitVec 5) (g : BitVec 5) : Coded.Statement (.vintsVadd c d a b g) := by
  intro _ hw
  show decode (c ++ 0x29#6 ++ d ++ a ++ b ++ g ++ 0#5) = _
  generalize h : (c ++ 0x29#6 ++ d ++ a ++ b ++ g ++ 0#5 : BitVec 32) = w
  obtain ⟨e31, e25, e20, e15, e10, e5, e0⟩ := layout23 _ _ _ _ _ _ _ h
  refine decode_of ((major_41 e25).trans ?_) hw
  unfold decodeVints
  rw [e0]
  simp only [e5, e10, e15, e20, e31]

theorem Coded.vintsVsub (c : BitVec 1) (d : BitVec 5) (a : BitVec 5) (b : BitVec 5) (g : BitVec 5) : Coded.Statement (.vintsVsub c d a b g) := by
  intro _ hw
  show decode (c ++ 0x29#6 ++ d ++ a ++ b ++ g ++ 1#5) = _
  generalize h : (c ++ 0x29#6 ++ d ++ a ++ b ++ g ++ 1#5 : BitVec 32) = w
  obtain ⟨e31, e25, e20, e15, e10, e5, e0⟩ := layout23 _ _ _ _ _ _ _ h
  refine decode_of ((major_41 e25).trans ?_) hw
  unfold decodeVints
  rw [e0]
  simp only [e5, e10, e15, e20, e31]

theorem Coded.vintsVmul (c : BitVec 1) (d : BitVec 5) (a : BitVec 5) (b : BitVec 5) (g : BitVec 5) : Coded.Statement (.vintsVmul c d a b g) := by
  intro _ hw
  show decode (c ++ 0x29#6 ++ d ++ a ++ b ++ g ++ 2#5) = _
  generalize h : (c ++ 0x29#6 ++ d ++ a ++ b ++ g ++ 2#5 : BitVec 32) = w
  obtain ⟨e31, e25, e20, e15, e10, e5, e0⟩ := layout23 _ _ _ _ _ _ _ h
  refine decode_of ((major_41 e25).trans ?_) hw
  unfold decodeVints
  rw [e0]
  simp only [e5, e10, e15, e20, e31]

theorem Coded.vintsVmulh (c : BitVec 1) (d : BitVec 5) (a : BitVec 5) (b : BitVec 5) (g : BitVec 5) : Coded.Statement (.vintsVmulh c d a b g) := by
  intro _ hw
  show decode (c ++ 0x29#6 ++ d ++ a ++ b ++ g ++ 3#5) = _
  generalize h : (c ++ 0x29#6 ++ d ++ a ++ b ++ g ++ 3#5 : BitVec 32) = w
  obtain ⟨e31, e25, e20, e15, e10, e5, e0⟩ := layout23 _ _ _ _ _ _ _ h
  refine decode_of ((major_41 e25).trans ?_) hw
  unfold decodeVints
  rw [e0]
  simp only [e5, e10, e15, e20, e31]

theorem Coded.vintsVmin (c : BitVec 1) (d : BitVec 5) (a : BitVec 5) (b : BitVec 5) (g : BitVec 5) : Coded.Statement (.vintsVmin c d a b g) := by
  intro _ hw
  show decode (c ++ 0x29#6 ++ d ++ a ++ b ++ g ++ 4#5) = _
  generalize h : (c ++ 0x29#6 ++ d ++ a ++ b ++ g ++ 4#5 : BitVec 32) = w
  obtain ⟨e31, e25, e20, e15, e10, e5, e0⟩ := layout23 _ _ _ _ _ _ _ h
  refine decode_of ((major_41 e25).trans ?_) hw
  unfold decodeVints
  rw [e0]
  simp only [e5, e10, e15, e20, e31]

theorem Coded.vintsVmax (c : BitVec 1) (d : BitVec 5) (a : BitVec 5) (b : BitVec 5) (g : BitVec 5) : Coded.Statement (.vintsVmax c d a b g) := by
  intro _ hw
  show decode (c ++ 0x29#6 ++ d ++ a ++ b ++ g ++ 5#5) = _
  generalize h : (c ++ 0x29#6 ++ d ++ a ++ b ++ g ++ 5#5 : BitVec 32) = w
  obtain ⟨e31, e25, e20, e15, e10, e5, e0⟩ := layout23 _ _ _ _ _ _ _ h
  refine decode_of ((major_41 e25).trans ?_) hw
  unfold decodeVints
  rw [e0]
  simp only [e5, e10, e15, e20, e31]

theorem Coded.vintsVminu (c : BitVec 1) (d : BitVec 5) (a : BitVec 5) (b : BitVec 5) (g : BitVec 5) : Coded.Statement (.vintsVminu c d a b g) := by
  intro _ hw
  show decode (c ++ 0x29#6 ++ d ++ a ++ b ++ g ++ 6#5) = _
  generalize h : (c ++ 0x29#6 ++ d ++ a ++ b ++ g ++ 6#5 : BitVec 32) = w
  obtain ⟨e31, e25, e20, e15, e10, e5, e0⟩ := layout23 _ _ _ _ _ _ _ h
  refine decode_of ((major_41 e25).trans ?_) hw
  unfold decodeVints
  rw [e0]
  simp only [e5, e10, e15, e20, e31]

theorem Coded.vintsVmaxu (c : BitVec 1) (d : BitVec 5) (a : BitVec 5) (b : BitVec 5) (g : BitVec 5) : Coded.Statement (.vintsVmaxu c d a b g) := by
  intro _ hw
  show decode (c ++ 0x29#6 ++ d ++ a ++ b ++ g ++ 7#5) = _
  generalize h : (c ++ 0x29#6 ++ d ++ a ++ b ++ g ++ 7#5 : BitVec 32) = w
  obtain ⟨e31, e25, e20, e15, e10, e5, e0⟩ := layout23 _ _ _ _ _ _ _ h
  refine decode_of ((major_41 e25).trans ?_) hw
  unfold decodeVints
  rw [e0]
  simp only [e5, e10, e15, e20, e31]

theorem Coded.vintsVand (c : BitVec 1) (d : BitVec 5) (a : BitVec 5) (b : BitVec 5) (g : BitVec 5) : Coded.Statement (.vintsVand c d a b g) := by
  intro _ hw
  show decode (c ++ 0x29#6 ++ d ++ a ++ b ++ g ++ 8#5) = _
  generalize h : (c ++ 0x29#6 ++ d ++ a ++ b ++ g ++ 8#5 : BitVec 32) = w
  obtain ⟨e31, e25, e20, e15, e10, e5, e0⟩ := layout23 _ _ _ _ _ _ _ h
  refine decode_of ((major_41 e25).trans ?_) hw
  unfold decodeVints
  rw [e0]
  simp only [e5, e10, e15, e20, e31]

theorem Coded.vintsVor (c : BitVec 1) (d : BitVec 5) (a : BitVec 5) (b : BitVec 5) (g : BitVec 5) : Coded.Statement (.vintsVor c d a b g) := by
  intro _ hw
  show decode (c ++ 0x29#6 ++ d ++ a ++ b ++ g ++ 9#5) = _
  generalize h : (c ++ 0x29#6 ++ d ++ a ++ b ++ g ++ 9#5 : BitVec 32) = w
  obtain ⟨e31, e25, e20, e15, e10, e5, e0⟩ := layout23 _ _ _ _ _ _ _ h
  refine decode_of ((major_41 e25).trans ?_) hw
  unfold decodeVints
  rw [e0]
  simp only [e5, e10, e15, e20, e31]

theorem Coded.vintsVxor (c : BitVec 1) (d : BitVec 5) (a : BitVec 5) (b : BitVec 5) (g : BitVec 5) : Coded.Statement (.vintsVxor c d a b g) := by
  intro _ hw
  show decode (c ++ 0x29#6 ++ d ++ a ++ b ++ g ++ 10#5) = _
  generalize h : (c ++ 0x29#6 ++ d ++ a ++ b ++ g ++ 10#5 : BitVec 32) = w
  obtain ⟨e31, e25, e20, e15, e10, e5, e0⟩ := layout23 _ _ _ _ _ _ _ h
  refine decode_of ((major_41 e25).trans ?_) hw
  unfold decodeVints
  rw [e0]
  simp only [e5, e10, e15, e20, e31]

theorem Coded.vintsVsll (c : BitVec 1) (d : BitVec 5) (a : BitVec 5) (b : BitVec 5) (g : BitVec 5) : Coded.Statement (.vintsVsll c d a b g) := by
  intro _ hw
  show decode (c ++ 0x29#6 ++ d ++ a ++ b ++ g ++ 11#5) = _
  generalize h : (c ++ 0x29#6 ++ d ++ a ++ b ++ g ++ 11#5 : BitVec 32) = w
  obtain ⟨e31, e25, e20, e15, e10, e5, e0⟩ := layout23 _ _ _ _ _ _ _ h
  refine decode_of ((major_41 e25).trans ?_) hw
  unfold decodeVints
  rw [e0]
  simp only [e5, e10, e15, e20, e31]

theorem Coded.vintsVsrl (c : BitVec 1) (d : BitVec 5) (a : BitVec 5) (b : BitVec 5) (g : BitVec 5) : Coded.Statement (.vintsVsrl c d a b g) := by
  intro _ hw
  show decode (c ++ 0x29#6 ++ d ++ a ++ b ++ g ++ 12#5) = _
  generalize h : (c ++ 0x29#6 ++ d ++ a ++ b ++ g ++ 12#5 : BitVec 32) = w
  obtain ⟨e31, e25, e20, e15, e10, e5, e0⟩ := layout23 _ _ _ _ _ _ _ h
  refine decode_of ((major_41 e25).trans ?_) hw
  unfold decodeVints
  rw [e0]
  simp only [e5, e10, e15, e20, e31]

theorem Coded.vintsVsra (c : BitVec 1) (d : BitVec 5) (a : BitVec 5) (b : BitVec 5) (g : BitVec 5) : Coded.Statement (.vintsVsra c d a b g) := by
  intro _ hw
  show decode (c ++ 0x29#6 ++ d ++ a ++ b ++ g ++ 13#5) = _
  generalize h : (c ++ 0x29#6 ++ d ++ a ++ b ++ g ++ 13#5 : BitVec 32) = w
  obtain ⟨e31, e25, e20, e15, e10, e5, e0⟩ := layout23 _ _ _ _ _ _ _ h
  refine decode_of ((major_41 e25).trans ?_) hw
  unfold decodeVints
  rw [e0]
  simp only [e5, e10, e15, e20, e31]

theorem Coded.vintsVmacc (c : BitVec 1) (d : BitVec 5) (a : BitVec 5) (b : BitVec 5) (g : BitVec 5) : Coded.Statement (.vintsVmacc c d a b g) := by
  intro _ hw
  show decode (c ++ 0x29#6 ++ d ++ a ++ b ++ g ++ 14#5) = _
  generalize h : (c ++ 0x29#6 ++ d ++ a ++ b ++ g ++ 14#5 : BitVec 32) = w
  obtain ⟨e31, e25, e20, e15, e10, e5, e0⟩ := layout23 _ _ _ _ _ _ _ h
  refine decode_of ((major_41 e25).trans ?_) hw
  unfold decodeVints
  rw [e0]
  simp only [e5, e10, e15, e20, e31]

theorem Coded.vintsVdiv (c : BitVec 1) (d : BitVec 5) (a : BitVec 5) (b : BitVec 5) (g : BitVec 5) : Coded.Statement (.vintsVdiv c d a b g) := by
  intro _ hw
  show decode (c ++ 0x29#6 ++ d ++ a ++ b ++ g ++ 15#5) = _
  generalize h : (c ++ 0x29#6 ++ d ++ a ++ b ++ g ++ 15#5 : BitVec 32) = w
  obtain ⟨e31, e25, e20, e15, e10, e5, e0⟩ := layout23 _ _ _ _ _ _ _ h
  refine decode_of ((major_41 e25).trans ?_) hw
  unfold decodeVints
  rw [e0]
  simp only [e5, e10, e15, e20, e31]

theorem Coded.vintsVaddsat (c : BitVec 1) (d : BitVec 5) (a : BitVec 5) (b : BitVec 5) (g : BitVec 5) : Coded.Statement (.vintsVaddsat c d a b g) := by
  intro _ hw
  show decode (c ++ 0x29#6 ++ d ++ a ++ b ++ g ++ 16#5) = _
  generalize h : (c ++ 0x29#6 ++ d ++ a ++ b ++ g ++ 16#5 : BitVec 32) = w
  obtain ⟨e31, e25, e20, e15, e10, e5, e0⟩ := layout23 _ _ _ _ _ _ _ h
  refine decode_of ((major_41 e25).trans ?_) hw
  unfold decodeVints
  rw [e0]
  simp only [e5, e10, e15, e20, e31]

theorem Coded.vintsVsubsat (c : BitVec 1) (d : BitVec 5) (a : BitVec 5) (b : BitVec 5) (g : BitVec 5) : Coded.Statement (.vintsVsubsat c d a b g) := by
  intro _ hw
  show decode (c ++ 0x29#6 ++ d ++ a ++ b ++ g ++ 17#5) = _
  generalize h : (c ++ 0x29#6 ++ d ++ a ++ b ++ g ++ 17#5 : BitVec 32) = w
  obtain ⟨e31, e25, e20, e15, e10, e5, e0⟩ := layout23 _ _ _ _ _ _ _ h
  refine decode_of ((major_41 e25).trans ?_) hw
  unfold decodeVints
  rw [e0]
  simp only [e5, e10, e15, e20, e31]

theorem Coded.vfadd (c : BitVec 1) (d : BitVec 5) (a : BitVec 5) (b : BitVec 5) (g : BitVec 5) : Coded.Statement (.vfadd c d a b g) := by
  intro _ hw
  show decode (c ++ 0x2a#6 ++ d ++ a ++ b ++ g ++ 0#5) = _
  generalize h : (c ++ 0x2a#6 ++ d ++ a ++ b ++ g ++ 0#5 : BitVec 32) = w
  obtain ⟨e31, e25, e20, e15, e10, e5, e0⟩ := layout23 _ _ _ _ _ _ _ h
  refine decode_of ((major_42 e25).trans ?_) hw
  unfold decodeVfp
  rw [e0]
  simp only [e5, e10, e15, e20, e31]

theorem Coded.vfsub (c : BitVec 1) (d : BitVec 5) (a : BitVec 5) (b : BitVec 5) (g : BitVec 5) : Coded.Statement (.vfsub c d a b g) := by
  intro _ hw
  show decode (c ++ 0x2a#6 ++ d ++ a ++ b ++ g ++ 1#5) = _
  generalize h : (c ++ 0x2a#6 ++ d ++ a ++ b ++ g ++ 1#5 : BitVec 32) = w
  obtain ⟨e31, e25, e20, e15, e10, e5, e0⟩ := layout23 _ _ _ _ _ _ _ h
  refine decode_of ((major_42 e25).trans ?_) hw
  unfold decodeVfp
  rw [e0]
  simp only [e5, e10, e15, e20, e31]

theorem Coded.vfmul (c : BitVec 1) (d : BitVec 5) (a : BitVec 5) (b : BitVec 5) (g : BitVec 5) : Coded.Statement (.vfmul c d a b g) := by
  intro _ hw
  show decode (c ++ 0x2a#6 ++ d ++ a ++ b ++ g ++ 2#5) = _
  generalize h : (c ++ 0x2a#6 ++ d ++ a ++ b ++ g ++ 2#5 : BitVec 32) = w
  obtain ⟨e31, e25, e20, e15, e10, e5, e0⟩ := layout23 _ _ _ _ _ _ _ h
  refine decode_of ((major_42 e25).trans ?_) hw
  unfold decodeVfp
  rw [e0]
  simp only [e5, e10, e15, e20, e31]

theorem Coded.vfdiv (c : BitVec 1) (d : BitVec 5) (a : BitVec 5) (b : BitVec 5) (g : BitVec 5) : Coded.Statement (.vfdiv c d a b g) := by
  intro _ hw
  show decode (c ++ 0x2a#6 ++ d ++ a ++ b ++ g ++ 3#5) = _
  generalize h : (c ++ 0x2a#6 ++ d ++ a ++ b ++ g ++ 3#5 : BitVec 32) = w
  obtain ⟨e31, e25, e20, e15, e10, e5, e0⟩ := layout23 _ _ _ _ _ _ _ h
  refine decode_of ((major_42 e25).trans ?_) hw
  unfold decodeVfp
  rw [e0]
  simp only [e5, e10, e15, e20, e31]

theorem Coded.vfsqrt (c : BitVec 1) (d : BitVec 5) (a : BitVec 5) (g : BitVec 5) : Coded.Statement (.vfsqrt c d a g) := by
  intro _ hw
  show decode (c ++ 0x2a#6 ++ d ++ a ++ 0#5 ++ g ++ 4#5) = _
  generalize h : (c ++ 0x2a#6 ++ d ++ a ++ 0#5 ++ g ++ 4#5 : BitVec 32) = w
  obtain ⟨e31, e25, e20, e15, e10, e5, e0⟩ := layout23 _ _ _ _ _ _ _ h
  refine decode_of ((major_42 e25).trans ?_) hw
  unfold decodeVfp
  rw [e0]
  simp only [need, e5, e10, e15, e20, e31]
  rfl

theorem Coded.vfma (c : BitVec 1) (d : BitVec 5) (a : BitVec 5) (b : BitVec 5) (g : BitVec 5) : Coded.Statement (.vfma c d a b g) := by
  intro _ hw
  show decode (c ++ 0x2a#6 ++ d ++ a ++ b ++ g ++ 5#5) = _
  generalize h : (c ++ 0x2a#6 ++ d ++ a ++ b ++ g ++ 5#5 : BitVec 32) = w
  obtain ⟨e31, e25, e20, e15, e10, e5, e0⟩ := layout23 _ _ _ _ _ _ _ h
  refine decode_of ((major_42 e25).trans ?_) hw
  unfold decodeVfp
  rw [e0]
  simp only [e5, e10, e15, e20, e31]

theorem Coded.vfms (c : BitVec 1) (d : BitVec 5) (a : BitVec 5) (b : BitVec 5) (g : BitVec 5) : Coded.Statement (.vfms c d a b g) := by
  intro _ hw
  show decode (c ++ 0x2a#6 ++ d ++ a ++ b ++ g ++ 6#5) = _
  generalize h : (c ++ 0x2a#6 ++ d ++ a ++ b ++ g ++ 6#5 : BitVec 32) = w
  obtain ⟨e31, e25, e20, e15, e10, e5, e0⟩ := layout23 _ _ _ _ _ _ _ h
  refine decode_of ((major_42 e25).trans ?_) hw
  unfold decodeVfp
  rw [e0]
  simp only [e5, e10, e15, e20, e31]

theorem Coded.vfmin (c : BitVec 1) (d : BitVec 5) (a : BitVec 5) (b : BitVec 5) (g : BitVec 5) : Coded.Statement (.vfmin c d a b g) := by
  intro _ hw
  show decode (c ++ 0x2a#6 ++ d ++ a ++ b ++ g ++ 7#5) = _
  generalize h : (c ++ 0x2a#6 ++ d ++ a ++ b ++ g ++ 7#5 : BitVec 32) = w
  obtain ⟨e31, e25, e20, e15, e10, e5, e0⟩ := layout23 _ _ _ _ _ _ _ h
  refine decode_of ((major_42 e25).trans ?_) hw
  unfold decodeVfp
  rw [e0]
  simp only [e5, e10, e15, e20, e31]

theorem Coded.vfmax (c : BitVec 1) (d : BitVec 5) (a : BitVec 5) (b : BitVec 5) (g : BitVec 5) : Coded.Statement (.vfmax c d a b g) := by
  intro _ hw
  show decode (c ++ 0x2a#6 ++ d ++ a ++ b ++ g ++ 8#5) = _
  generalize h : (c ++ 0x2a#6 ++ d ++ a ++ b ++ g ++ 8#5 : BitVec 32) = w
  obtain ⟨e31, e25, e20, e15, e10, e5, e0⟩ := layout23 _ _ _ _ _ _ _ h
  refine decode_of ((major_42 e25).trans ?_) hw
  unfold decodeVfp
  rw [e0]
  simp only [e5, e10, e15, e20, e31]

theorem Coded.vfabs (c : BitVec 1) (d : BitVec 5) (a : BitVec 5) (g : BitVec 5) : Coded.Statement (.vfabs c d a g) := by
  intro _ hw
  show decode (c ++ 0x2a#6 ++ d ++ a ++ 0#5 ++ g ++ 9#5) = _
  generalize h : (c ++ 0x2a#6 ++ d ++ a ++ 0#5 ++ g ++ 9#5 : BitVec 32) = w
  obtain ⟨e31, e25, e20, e15, e10, e5, e0⟩ := layout23 _ _ _ _ _ _ _ h
  refine decode_of ((major_42 e25).trans ?_) hw
  unfold decodeVfp
  rw [e0]
  simp only [need, e5, e10, e15, e20, e31]
  rfl

theorem Coded.vfneg (c : BitVec 1) (d : BitVec 5) (a : BitVec 5) (g : BitVec 5) : Coded.Statement (.vfneg c d a g) := by
  intro _ hw
  show decode (c ++ 0x2a#6 ++ d ++ a ++ 0#5 ++ g ++ 10#5) = _
  generalize h : (c ++ 0x2a#6 ++ d ++ a ++ 0#5 ++ g ++ 10#5 : BitVec 32) = w
  obtain ⟨e31, e25, e20, e15, e10, e5, e0⟩ := layout23 _ _ _ _ _ _ _ h
  refine decode_of ((major_42 e25).trans ?_) hw
  unfold decodeVfp
  rw [e0]
  simp only [need, e5, e10, e15, e20, e31]
  rfl

theorem Coded.vfpsVfadd (c : BitVec 1) (d : BitVec 5) (a : BitVec 5) (b : BitVec 5) (g : BitVec 5) : Coded.Statement (.vfpsVfadd c d a b g) := by
  intro _ hw
  show decode (c ++ 0x2b#6 ++ d ++ a ++ b ++ g ++ 0#5) = _
  generalize h : (c ++ 0x2b#6 ++ d ++ a ++ b ++ g ++ 0#5 : BitVec 32) = w
  obtain ⟨e31, e25, e20, e15, e10, e5, e0⟩ := layout23 _ _ _ _ _ _ _ h
  refine decode_of ((major_43 e25).trans ?_) hw
  unfold decodeVfps
  rw [e0]
  simp only [e5, e10, e15, e20, e31]

theorem Coded.vfpsVfsub (c : BitVec 1) (d : BitVec 5) (a : BitVec 5) (b : BitVec 5) (g : BitVec 5) : Coded.Statement (.vfpsVfsub c d a b g) := by
  intro _ hw
  show decode (c ++ 0x2b#6 ++ d ++ a ++ b ++ g ++ 1#5) = _
  generalize h : (c ++ 0x2b#6 ++ d ++ a ++ b ++ g ++ 1#5 : BitVec 32) = w
  obtain ⟨e31, e25, e20, e15, e10, e5, e0⟩ := layout23 _ _ _ _ _ _ _ h
  refine decode_of ((major_43 e25).trans ?_) hw
  unfold decodeVfps
  rw [e0]
  simp only [e5, e10, e15, e20, e31]

theorem Coded.vfpsVfmul (c : BitVec 1) (d : BitVec 5) (a : BitVec 5) (b : BitVec 5) (g : BitVec 5) : Coded.Statement (.vfpsVfmul c d a b g) := by
  intro _ hw
  show decode (c ++ 0x2b#6 ++ d ++ a ++ b ++ g ++ 2#5) = _
  generalize h : (c ++ 0x2b#6 ++ d ++ a ++ b ++ g ++ 2#5 : BitVec 32) = w
  obtain ⟨e31, e25, e20, e15, e10, e5, e0⟩ := layout23 _ _ _ _ _ _ _ h
  refine decode_of ((major_43 e25).trans ?_) hw
  unfold decodeVfps
  rw [e0]
  simp only [e5, e10, e15, e20, e31]

theorem Coded.vfpsVfdiv (c : BitVec 1) (d : BitVec 5) (a : BitVec 5) (b : BitVec 5) (g : BitVec 5) : Coded.Statement (.vfpsVfdiv c d a b g) := by
  intro _ hw
  show decode (c ++ 0x2b#6 ++ d ++ a ++ b ++ g ++ 3#5) = _
  generalize h : (c ++ 0x2b#6 ++ d ++ a ++ b ++ g ++ 3#5 : BitVec 32) = w
  obtain ⟨e31, e25, e20, e15, e10, e5, e0⟩ := layout23 _ _ _ _ _ _ _ h
  refine decode_of ((major_43 e25).trans ?_) hw
  unfold decodeVfps
  rw [e0]
  simp only [e5, e10, e15, e20, e31]

theorem Coded.vfpsVfma (c : BitVec 1) (d : BitVec 5) (a : BitVec 5) (b : BitVec 5) (g : BitVec 5) : Coded.Statement (.vfpsVfma c d a b g) := by
  intro _ hw
  show decode (c ++ 0x2b#6 ++ d ++ a ++ b ++ g ++ 5#5) = _
  generalize h : (c ++ 0x2b#6 ++ d ++ a ++ b ++ g ++ 5#5 : BitVec 32) = w
  obtain ⟨e31, e25, e20, e15, e10, e5, e0⟩ := layout23 _ _ _ _ _ _ _ h
  refine decode_of ((major_43 e25).trans ?_) hw
  unfold decodeVfps
  rw [e0]
  simp only [e5, e10, e15, e20, e31]

theorem Coded.vfpsVfms (c : BitVec 1) (d : BitVec 5) (a : BitVec 5) (b : BitVec 5) (g : BitVec 5) : Coded.Statement (.vfpsVfms c d a b g) := by
  intro _ hw
  show decode (c ++ 0x2b#6 ++ d ++ a ++ b ++ g ++ 6#5) = _
  generalize h : (c ++ 0x2b#6 ++ d ++ a ++ b ++ g ++ 6#5 : BitVec 32) = w
  obtain ⟨e31, e25, e20, e15, e10, e5, e0⟩ := layout23 _ _ _ _ _ _ _ h
  refine decode_of ((major_43 e25).trans ?_) hw
  unfold decodeVfps
  rw [e0]
  simp only [e5, e10, e15, e20, e31]

theorem Coded.vfpsVfmin (c : BitVec 1) (d : BitVec 5) (a : BitVec 5) (b : BitVec 5) (g : BitVec 5) : Coded.Statement (.vfpsVfmin c d a b g) := by
  intro _ hw
  show decode (c ++ 0x2b#6 ++ d ++ a ++ b ++ g ++ 7#5) = _
  generalize h : (c ++ 0x2b#6 ++ d ++ a ++ b ++ g ++ 7#5 : BitVec 32) = w
  obtain ⟨e31, e25, e20, e15, e10, e5, e0⟩ := layout23 _ _ _ _ _ _ _ h
  refine decode_of ((major_43 e25).trans ?_) hw
  unfold decodeVfps
  rw [e0]
  simp only [e5, e10, e15, e20, e31]

theorem Coded.vfpsVfmax (c : BitVec 1) (d : BitVec 5) (a : BitVec 5) (b : BitVec 5) (g : BitVec 5) : Coded.Statement (.vfpsVfmax c d a b g) := by
  intro _ hw
  show decode (c ++ 0x2b#6 ++ d ++ a ++ b ++ g ++ 8#5) = _
  generalize h : (c ++ 0x2b#6 ++ d ++ a ++ b ++ g ++ 8#5 : BitVec 32) = w
  obtain ⟨e31, e25, e20, e15, e10, e5, e0⟩ := layout23 _ _ _ _ _ _ _ h
  refine decode_of ((major_43 e25).trans ?_) hw
  unfold decodeVfps
  rw [e0]
  simp only [e5, e10, e15, e20, e31]

theorem Coded.vcmpEq (c : BitVec 1) (d : BitVec 5) (a : BitVec 5) (b : BitVec 5) (g : BitVec 5) (k : BitVec 2) : Coded.Statement (.vcmpEq c d a b g k) := by
  intro _ hw
  show decode (c ++ 0x2c#6 ++ d ++ a ++ b ++ g ++ k ++ 0#3) = _
  generalize h : (c ++ 0x2c#6 ++ d ++ a ++ b ++ g ++ k ++ 0#3 : BitVec 32) = w
  obtain ⟨e31, e25, e20, e15, e10, e5, e3, e0⟩ := layout25 _ _ _ _ _ _ _ _ h
  refine decode_of ((major_44 e25).trans ?_) hw
  unfold decodeVcmp
  rw [e0]
  simp only [e3, e5, e10, e15, e20, e31]

theorem Coded.vcmpNe (c : BitVec 1) (d : BitVec 5) (a : BitVec 5) (b : BitVec 5) (g : BitVec 5) (k : BitVec 2) : Coded.Statement (.vcmpNe c d a b g k) := by
  intro _ hw
  show decode (c ++ 0x2c#6 ++ d ++ a ++ b ++ g ++ k ++ 1#3) = _
  generalize h : (c ++ 0x2c#6 ++ d ++ a ++ b ++ g ++ k ++ 1#3 : BitVec 32) = w
  obtain ⟨e31, e25, e20, e15, e10, e5, e3, e0⟩ := layout25 _ _ _ _ _ _ _ _ h
  refine decode_of ((major_44 e25).trans ?_) hw
  unfold decodeVcmp
  rw [e0]
  simp only [e3, e5, e10, e15, e20, e31]

theorem Coded.vcmpLt (c : BitVec 1) (d : BitVec 5) (a : BitVec 5) (b : BitVec 5) (g : BitVec 5) (k : BitVec 2) : Coded.Statement (.vcmpLt c d a b g k) := by
  intro _ hw
  show decode (c ++ 0x2c#6 ++ d ++ a ++ b ++ g ++ k ++ 2#3) = _
  generalize h : (c ++ 0x2c#6 ++ d ++ a ++ b ++ g ++ k ++ 2#3 : BitVec 32) = w
  obtain ⟨e31, e25, e20, e15, e10, e5, e3, e0⟩ := layout25 _ _ _ _ _ _ _ _ h
  refine decode_of ((major_44 e25).trans ?_) hw
  unfold decodeVcmp
  rw [e0]
  simp only [e3, e5, e10, e15, e20, e31]

theorem Coded.vcmpGe (c : BitVec 1) (d : BitVec 5) (a : BitVec 5) (b : BitVec 5) (g : BitVec 5) (k : BitVec 2) : Coded.Statement (.vcmpGe c d a b g k) := by
  intro _ hw
  show decode (c ++ 0x2c#6 ++ d ++ a ++ b ++ g ++ k ++ 3#3) = _
  generalize h : (c ++ 0x2c#6 ++ d ++ a ++ b ++ g ++ k ++ 3#3 : BitVec 32) = w
  obtain ⟨e31, e25, e20, e15, e10, e5, e3, e0⟩ := layout25 _ _ _ _ _ _ _ _ h
  refine decode_of ((major_44 e25).trans ?_) hw
  unfold decodeVcmp
  rw [e0]
  simp only [e3, e5, e10, e15, e20, e31]

theorem Coded.vcmpLe (c : BitVec 1) (d : BitVec 5) (a : BitVec 5) (b : BitVec 5) (g : BitVec 5) (k : BitVec 2) : Coded.Statement (.vcmpLe c d a b g k) := by
  intro _ hw
  show decode (c ++ 0x2c#6 ++ d ++ a ++ b ++ g ++ k ++ 4#3) = _
  generalize h : (c ++ 0x2c#6 ++ d ++ a ++ b ++ g ++ k ++ 4#3 : BitVec 32) = w
  obtain ⟨e31, e25, e20, e15, e10, e5, e3, e0⟩ := layout25 _ _ _ _ _ _ _ _ h
  refine decode_of ((major_44 e25).trans ?_) hw
  unfold decodeVcmp
  rw [e0]
  simp only [e3, e5, e10, e15, e20, e31]

theorem Coded.vcmpGt (c : BitVec 1) (d : BitVec 5) (a : BitVec 5) (b : BitVec 5) (g : BitVec 5) (k : BitVec 2) : Coded.Statement (.vcmpGt c d a b g k) := by
  intro _ hw
  show decode (c ++ 0x2c#6 ++ d ++ a ++ b ++ g ++ k ++ 5#3) = _
  generalize h : (c ++ 0x2c#6 ++ d ++ a ++ b ++ g ++ k ++ 5#3 : BitVec 32) = w
  obtain ⟨e31, e25, e20, e15, e10, e5, e3, e0⟩ := layout25 _ _ _ _ _ _ _ _ h
  refine decode_of ((major_44 e25).trans ?_) hw
  unfold decodeVcmp
  rw [e0]
  simp only [e3, e5, e10, e15, e20, e31]

theorem Coded.vcmpUn (c : BitVec 1) (d : BitVec 5) (a : BitVec 5) (b : BitVec 5) (g : BitVec 5) : Coded.Statement (.vcmpUn c d a b g) := by
  intro _ hw
  show decode (c ++ 0x2c#6 ++ d ++ a ++ b ++ g ++ 2#2 ++ 6#3) = _
  generalize h : (c ++ 0x2c#6 ++ d ++ a ++ b ++ g ++ 2#2 ++ 6#3 : BitVec 32) = w
  obtain ⟨e31, e25, e20, e15, e10, e5, e3, e0⟩ := layout25 _ _ _ _ _ _ _ _ h
  refine decode_of ((major_44 e25).trans ?_) hw
  unfold decodeVcmp
  rw [e0]
  simp only [need, e3, e5, e10, e15, e20, e31]
  rfl

theorem Coded.pand (c : BitVec 1) (d : BitVec 5) (a : BitVec 5) (b : BitVec 5) (g : BitVec 5) : Coded.Statement (.pand c d a b g) := by
  intro _ hw
  show decode (c ++ 0x2d#6 ++ d ++ a ++ b ++ g ++ 0#5) = _
  generalize h : (c ++ 0x2d#6 ++ d ++ a ++ b ++ g ++ 0#5 : BitVec 32) = w
  obtain ⟨e31, e25, e20, e15, e10, e5, e0⟩ := layout23 _ _ _ _ _ _ _ h
  refine decode_of ((major_45 e25).trans ?_) hw
  unfold decodePred
  rw [e0]
  simp only [e5, e10, e15, e20, e31]

theorem Coded.por (c : BitVec 1) (d : BitVec 5) (a : BitVec 5) (b : BitVec 5) (g : BitVec 5) : Coded.Statement (.por c d a b g) := by
  intro _ hw
  show decode (c ++ 0x2d#6 ++ d ++ a ++ b ++ g ++ 1#5) = _
  generalize h : (c ++ 0x2d#6 ++ d ++ a ++ b ++ g ++ 1#5 : BitVec 32) = w
  obtain ⟨e31, e25, e20, e15, e10, e5, e0⟩ := layout23 _ _ _ _ _ _ _ h
  refine decode_of ((major_45 e25).trans ?_) hw
  unfold decodePred
  rw [e0]
  simp only [e5, e10, e15, e20, e31]

theorem Coded.pxor (c : BitVec 1) (d : BitVec 5) (a : BitVec 5) (b : BitVec 5) (g : BitVec 5) : Coded.Statement (.pxor c d a b g) := by
  intro _ hw
  show decode (c ++ 0x2d#6 ++ d ++ a ++ b ++ g ++ 2#5) = _
  generalize h : (c ++ 0x2d#6 ++ d ++ a ++ b ++ g ++ 2#5 : BitVec 32) = w
  obtain ⟨e31, e25, e20, e15, e10, e5, e0⟩ := layout23 _ _ _ _ _ _ _ h
  refine decode_of ((major_45 e25).trans ?_) hw
  unfold decodePred
  rw [e0]
  simp only [e5, e10, e15, e20, e31]

theorem Coded.pandn (c : BitVec 1) (d : BitVec 5) (a : BitVec 5) (b : BitVec 5) (g : BitVec 5) : Coded.Statement (.pandn c d a b g) := by
  intro _ hw
  show decode (c ++ 0x2d#6 ++ d ++ a ++ b ++ g ++ 3#5) = _
  generalize h : (c ++ 0x2d#6 ++ d ++ a ++ b ++ g ++ 3#5 : BitVec 32) = w
  obtain ⟨e31, e25, e20, e15, e10, e5, e0⟩ := layout23 _ _ _ _ _ _ _ h
  refine decode_of ((major_45 e25).trans ?_) hw
  unfold decodePred
  rw [e0]
  simp only [e5, e10, e15, e20, e31]

theorem Coded.pnot (c : BitVec 1) (d : BitVec 5) (a : BitVec 5) (g : BitVec 5) : Coded.Statement (.pnot c d a g) := by
  intro _ hw
  show decode (c ++ 0x2d#6 ++ d ++ a ++ 0#5 ++ g ++ 4#5) = _
  generalize h : (c ++ 0x2d#6 ++ d ++ a ++ 0#5 ++ g ++ 4#5 : BitVec 32) = w
  obtain ⟨e31, e25, e20, e15, e10, e5, e0⟩ := layout23 _ _ _ _ _ _ _ h
  refine decode_of ((major_45 e25).trans ?_) hw
  unfold decodePred
  rw [e0]
  simp only [need, e5, e10, e15, e20, e31]
  rfl

theorem Coded.plead (c : BitVec 1) (d : BitVec 5) (a : BitVec 5) (g : BitVec 5) : Coded.Statement (.plead c d a g) := by
  intro _ hw
  show decode (c ++ 0x2d#6 ++ d ++ a ++ 0#5 ++ g ++ 5#5) = _
  generalize h : (c ++ 0x2d#6 ++ d ++ a ++ 0#5 ++ g ++ 5#5 : BitVec 32) = w
  obtain ⟨e31, e25, e20, e15, e10, e5, e0⟩ := layout23 _ _ _ _ _ _ _ h
  refine decode_of ((major_45 e25).trans ?_) hw
  unfold decodePred
  rw [e0]
  simp only [need, e5, e10, e15, e20, e31]
  rfl

theorem Coded.pthru (c : BitVec 1) (d : BitVec 5) (a : BitVec 5) (g : BitVec 5) : Coded.Statement (.pthru c d a g) := by
  intro _ hw
  show decode (c ++ 0x2d#6 ++ d ++ a ++ 0#5 ++ g ++ 6#5) = _
  generalize h : (c ++ 0x2d#6 ++ d ++ a ++ 0#5 ++ g ++ 6#5 : BitVec 32) = w
  obtain ⟨e31, e25, e20, e15, e10, e5, e0⟩ := layout23 _ _ _ _ _ _ _ h
  refine decode_of ((major_45 e25).trans ?_) hw
  unfold decodePred
  rw [e0]
  simp only [need, e5, e10, e15, e20, e31]
  rfl

theorem Coded.ppre (c : BitVec 1) (d : BitVec 5) (a : BitVec 5) (g : BitVec 5) : Coded.Statement (.ppre c d a g) := by
  intro _ hw
  show decode (c ++ 0x2d#6 ++ d ++ a ++ 0#5 ++ g ++ 7#5) = _
  generalize h : (c ++ 0x2d#6 ++ d ++ a ++ 0#5 ++ g ++ 7#5 : BitVec 32) = w
  obtain ⟨e31, e25, e20, e15, e10, e5, e0⟩ := layout23 _ _ _ _ _ _ _ h
  refine decode_of ((major_45 e25).trans ?_) hw
  unfold decodePred
  rw [e0]
  simp only [need, e5, e10, e15, e20, e31]
  rfl

theorem Coded.pcnt (c : BitVec 1) (d : BitVec 5) (a : BitVec 5) (g : BitVec 5) : Coded.Statement (.pcnt c d a g) := by
  intro _ hw
  show decode (c ++ 0x2d#6 ++ d ++ a ++ 0#5 ++ g ++ 8#5) = _
  generalize h : (c ++ 0x2d#6 ++ d ++ a ++ 0#5 ++ g ++ 8#5 : BitVec 32) = w
  obtain ⟨e31, e25, e20, e15, e10, e5, e0⟩ := layout23 _ _ _ _ _ _ _ h
  refine decode_of ((major_45 e25).trans ?_) hw
  unfold decodePred
  rw [e0]
  simp only [need, e5, e10, e15, e20, e31]
  rfl

theorem Coded.pany (c : BitVec 1) (d : BitVec 5) (a : BitVec 5) (g : BitVec 5) : Coded.Statement (.pany c d a g) := by
  intro _ hw
  show decode (c ++ 0x2d#6 ++ d ++ a ++ 0#5 ++ g ++ 9#5) = _
  generalize h : (c ++ 0x2d#6 ++ d ++ a ++ 0#5 ++ g ++ 9#5 : BitVec 32) = w
  obtain ⟨e31, e25, e20, e15, e10, e5, e0⟩ := layout23 _ _ _ _ _ _ _ h
  refine decode_of ((major_45 e25).trans ?_) hw
  unfold decodePred
  rw [e0]
  simp only [need, e5, e10, e15, e20, e31]
  rfl

theorem Coded.pset (c : BitVec 1) (d : BitVec 5) (g : BitVec 5) : Coded.Statement (.pset c d g) := by
  intro _ hw
  show decode (c ++ 0x2d#6 ++ d ++ 0#10 ++ g ++ 10#5) = _
  generalize h : (c ++ 0x2d#6 ++ d ++ 0#10 ++ g ++ 10#5 : BitVec 32) = w
  obtain ⟨e31, e25, e20, e10, e5, e0⟩ := layout29 _ _ _ _ _ _ h
  refine decode_of ((major_45 e25).trans ?_) hw
  unfold decodePred
  rw [e0]
  simp only [need, e5, e10, e20, e31]
  rfl

theorem Coded.pclr (c : BitVec 1) (d : BitVec 5) (g : BitVec 5) : Coded.Statement (.pclr c d g) := by
  intro _ hw
  show decode (c ++ 0x2d#6 ++ d ++ 0#10 ++ g ++ 11#5) = _
  generalize h : (c ++ 0x2d#6 ++ d ++ 0#10 ++ g ++ 11#5 : BitVec 32) = w
  obtain ⟨e31, e25, e20, e10, e5, e0⟩ := layout29 _ _ _ _ _ _ h
  refine decode_of ((major_45 e25).trans ?_) hw
  unfold decodePred
  rw [e0]
  simp only [need, e5, e10, e20, e31]
  rfl

theorem Coded.pgetf (c : BitVec 1) (d : BitVec 5) (g : BitVec 5) : Coded.Statement (.pgetf c d g) := by
  intro _ hw
  show decode (c ++ 0x2d#6 ++ d ++ 0#10 ++ g ++ 12#5) = _
  generalize h : (c ++ 0x2d#6 ++ d ++ 0#10 ++ g ++ 12#5 : BitVec 32) = w
  obtain ⟨e31, e25, e20, e10, e5, e0⟩ := layout29 _ _ _ _ _ _ h
  refine decode_of ((major_45 e25).trans ?_) hw
  unfold decodePred
  rw [e0]
  simp only [need, e5, e10, e20, e31]
  rfl

theorem Coded.vslup (c : BitVec 1) (d : BitVec 5) (a : BitVec 5) (b : BitVec 5) (g : BitVec 5) : Coded.Statement (.vslup c d a b g) := by
  intro _ hw
  show decode (c ++ 0x2e#6 ++ d ++ a ++ b ++ g ++ 0#5) = _
  generalize h : (c ++ 0x2e#6 ++ d ++ a ++ b ++ g ++ 0#5 : BitVec 32) = w
  obtain ⟨e31, e25, e20, e15, e10, e5, e0⟩ := layout23 _ _ _ _ _ _ _ h
  refine decode_of ((major_46 e25).trans ?_) hw
  unfold decodePerm
  rw [e0]
  simp only [e5, e10, e15, e20, e31]

theorem Coded.vsldn (c : BitVec 1) (d : BitVec 5) (a : BitVec 5) (b : BitVec 5) (g : BitVec 5) : Coded.Statement (.vsldn c d a b g) := by
  intro _ hw
  show decode (c ++ 0x2e#6 ++ d ++ a ++ b ++ g ++ 1#5) = _
  generalize h : (c ++ 0x2e#6 ++ d ++ a ++ b ++ g ++ 1#5 : BitVec 32) = w
  obtain ⟨e31, e25, e20, e15, e10, e5, e0⟩ := layout23 _ _ _ _ _ _ _ h
  refine decode_of ((major_46 e25).trans ?_) hw
  unfold decodePerm
  rw [e0]
  simp only [e5, e10, e15, e20, e31]

theorem Coded.vslupi (c : BitVec 1) (d : BitVec 5) (a : BitVec 5) (b : BitVec 5) (g : BitVec 5) : Coded.Statement (.vslupi c d a b g) := by
  intro _ hw
  show decode (c ++ 0x2e#6 ++ d ++ a ++ b ++ g ++ 2#5) = _
  generalize h : (c ++ 0x2e#6 ++ d ++ a ++ b ++ g ++ 2#5 : BitVec 32) = w
  obtain ⟨e31, e25, e20, e15, e10, e5, e0⟩ := layout23 _ _ _ _ _ _ _ h
  refine decode_of ((major_46 e25).trans ?_) hw
  unfold decodePerm
  rw [e0]
  simp only [e5, e10, e15, e20, e31]

theorem Coded.vsldni (c : BitVec 1) (d : BitVec 5) (a : BitVec 5) (b : BitVec 5) (g : BitVec 5) : Coded.Statement (.vsldni c d a b g) := by
  intro _ hw
  show decode (c ++ 0x2e#6 ++ d ++ a ++ b ++ g ++ 3#5) = _
  generalize h : (c ++ 0x2e#6 ++ d ++ a ++ b ++ g ++ 3#5 : BitVec 32) = w
  obtain ⟨e31, e25, e20, e15, e10, e5, e0⟩ := layout23 _ _ _ _ _ _ _ h
  refine decode_of ((major_46 e25).trans ?_) hw
  unfold decodePerm
  rw [e0]
  simp only [e5, e10, e15, e20, e31]

theorem Coded.vperm (c : BitVec 1) (d : BitVec 5) (a : BitVec 5) (b : BitVec 5) (g : BitVec 5) : Coded.Statement (.vperm c d a b g) := by
  intro _ hw
  show decode (c ++ 0x2e#6 ++ d ++ a ++ b ++ g ++ 4#5) = _
  generalize h : (c ++ 0x2e#6 ++ d ++ a ++ b ++ g ++ 4#5 : BitVec 32) = w
  obtain ⟨e31, e25, e20, e15, e10, e5, e0⟩ := layout23 _ _ _ _ _ _ _ h
  refine decode_of ((major_46 e25).trans ?_) hw
  unfold decodePerm
  rw [e0]
  simp only [e5, e10, e15, e20, e31]

theorem Coded.vcomp (c : BitVec 1) (d : BitVec 5) (a : BitVec 5) (b : BitVec 5) : Coded.Statement (.vcomp c d a b) := by
  intro _ hw
  show decode (c ++ 0x2e#6 ++ d ++ a ++ b ++ 0#5 ++ 5#5) = _
  generalize h : (c ++ 0x2e#6 ++ d ++ a ++ b ++ 0#5 ++ 5#5 : BitVec 32) = w
  obtain ⟨e31, e25, e20, e15, e10, e5, e0⟩ := layout23 _ _ _ _ _ _ _ h
  refine decode_of ((major_46 e25).trans ?_) hw
  unfold decodePerm
  rw [e0]
  simp only [need, e5, e10, e15, e20, e31]
  rfl

theorem Coded.vexpd (c : BitVec 1) (d : BitVec 5) (a : BitVec 5) (b : BitVec 5) : Coded.Statement (.vexpd c d a b) := by
  intro _ hw
  show decode (c ++ 0x2e#6 ++ d ++ a ++ b ++ 0#5 ++ 6#5) = _
  generalize h : (c ++ 0x2e#6 ++ d ++ a ++ b ++ 0#5 ++ 6#5 : BitVec 32) = w
  obtain ⟨e31, e25, e20, e15, e10, e5, e0⟩ := layout23 _ _ _ _ _ _ _ h
  refine decode_of ((major_46 e25).trans ?_) hw
  unfold decodePerm
  rw [e0]
  simp only [need, e5, e10, e15, e20, e31]
  rfl

theorem Coded.vmerge (c : BitVec 1) (d : BitVec 5) (a : BitVec 5) (b : BitVec 5) (g : BitVec 5) : Coded.Statement (.vmerge c d a b g) := by
  intro _ hw
  show decode (c ++ 0x2e#6 ++ d ++ a ++ b ++ g ++ 7#5) = _
  generalize h : (c ++ 0x2e#6 ++ d ++ a ++ b ++ g ++ 7#5 : BitVec 32) = w
  obtain ⟨e31, e25, e20, e15, e10, e5, e0⟩ := layout23 _ _ _ _ _ _ _ h
  refine decode_of ((major_46 e25).trans ?_) hw
  unfold decodePerm
  rw [e0]
  simp only [e5, e10, e15, e20, e31]

theorem Coded.vbcast (c : BitVec 1) (d : BitVec 5) (a : BitVec 5) (g : BitVec 5) : Coded.Statement (.vbcast c d a g) := by
  intro _ hw
  show decode (c ++ 0x2e#6 ++ d ++ a ++ 0#5 ++ g ++ 8#5) = _
  generalize h : (c ++ 0x2e#6 ++ d ++ a ++ 0#5 ++ g ++ 8#5 : BitVec 32) = w
  obtain ⟨e31, e25, e20, e15, e10, e5, e0⟩ := layout23 _ _ _ _ _ _ _ h
  refine decode_of ((major_46 e25).trans ?_) hw
  unfold decodePerm
  rw [e0]
  simp only [need, e5, e10, e15, e20, e31]
  rfl

theorem Coded.vextr (c : BitVec 1) (d : BitVec 5) (a : BitVec 5) (b : BitVec 5) : Coded.Statement (.vextr c d a b) := by
  intro _ hw
  show decode (c ++ 0x2e#6 ++ d ++ a ++ b ++ 0#5 ++ 9#5) = _
  generalize h : (c ++ 0x2e#6 ++ d ++ a ++ b ++ 0#5 ++ 9#5 : BitVec 32) = w
  obtain ⟨e31, e25, e20, e15, e10, e5, e0⟩ := layout23 _ _ _ _ _ _ _ h
  refine decode_of ((major_46 e25).trans ?_) hw
  unfold decodePerm
  rw [e0]
  simp only [need, e5, e10, e15, e20, e31]
  rfl

theorem Coded.vins (c : BitVec 1) (d : BitVec 5) (a : BitVec 5) (b : BitVec 5) : Coded.Statement (.vins c d a b) := by
  intro _ hw
  show decode (c ++ 0x2e#6 ++ d ++ a ++ b ++ 0#5 ++ 10#5) = _
  generalize h : (c ++ 0x2e#6 ++ d ++ a ++ b ++ 0#5 ++ 10#5 : BitVec 32) = w
  obtain ⟨e31, e25, e20, e15, e10, e5, e0⟩ := layout23 _ _ _ _ _ _ _ h
  refine decode_of ((major_46 e25).trans ?_) hw
  unfold decodePerm
  rw [e0]
  simp only [need, e5, e10, e15, e20, e31]
  rfl

theorem Coded.viota (c : BitVec 1) (d : BitVec 5) (a : BitVec 5) (g : BitVec 5) : Coded.Statement (.viota c d a g) := by
  intro _ hw
  show decode (c ++ 0x2e#6 ++ d ++ a ++ 0#5 ++ g ++ 11#5) = _
  generalize h : (c ++ 0x2e#6 ++ d ++ a ++ 0#5 ++ g ++ 11#5 : BitVec 32) = w
  obtain ⟨e31, e25, e20, e15, e10, e5, e0⟩ := layout23 _ _ _ _ _ _ _ h
  refine decode_of ((major_46 e25).trans ?_) hw
  unfold decodePerm
  rw [e0]
  simp only [need, e5, e10, e15, e20, e31]
  rfl

theorem Coded.vid (c : BitVec 1) (d : BitVec 5) (g : BitVec 5) : Coded.Statement (.vid c d g) := by
  intro _ hw
  show decode (c ++ 0x2e#6 ++ d ++ 0#10 ++ g ++ 12#5) = _
  generalize h : (c ++ 0x2e#6 ++ d ++ 0#10 ++ g ++ 12#5 : BitVec 32) = w
  obtain ⟨e31, e25, e20, e10, e5, e0⟩ := layout29 _ _ _ _ _ _ h
  refine decode_of ((major_46 e25).trans ?_) hw
  unfold decodePerm
  rw [e0]
  simp only [need, e5, e10, e20, e31]
  rfl

theorem Coded.vredsum (c : BitVec 1) (d : BitVec 5) (a : BitVec 5) (g : BitVec 5) : Coded.Statement (.vredsum c d a g) := by
  intro _ hw
  show decode (c ++ 0x2f#6 ++ d ++ a ++ 0#5 ++ g ++ 0#5) = _
  generalize h : (c ++ 0x2f#6 ++ d ++ a ++ 0#5 ++ g ++ 0#5 : BitVec 32) = w
  obtain ⟨e31, e25, e20, e15, e10, e5, e0⟩ := layout23 _ _ _ _ _ _ _ h
  refine decode_of ((major_47 e25).trans ?_) hw
  unfold decodeVred
  rw [e0]
  simp only [need, e5, e10, e15, e20, e31]
  rfl

theorem Coded.vredmin (c : BitVec 1) (d : BitVec 5) (a : BitVec 5) (g : BitVec 5) : Coded.Statement (.vredmin c d a g) := by
  intro _ hw
  show decode (c ++ 0x2f#6 ++ d ++ a ++ 0#5 ++ g ++ 1#5) = _
  generalize h : (c ++ 0x2f#6 ++ d ++ a ++ 0#5 ++ g ++ 1#5 : BitVec 32) = w
  obtain ⟨e31, e25, e20, e15, e10, e5, e0⟩ := layout23 _ _ _ _ _ _ _ h
  refine decode_of ((major_47 e25).trans ?_) hw
  unfold decodeVred
  rw [e0]
  simp only [need, e5, e10, e15, e20, e31]
  rfl

theorem Coded.vredmax (c : BitVec 1) (d : BitVec 5) (a : BitVec 5) (g : BitVec 5) : Coded.Statement (.vredmax c d a g) := by
  intro _ hw
  show decode (c ++ 0x2f#6 ++ d ++ a ++ 0#5 ++ g ++ 2#5) = _
  generalize h : (c ++ 0x2f#6 ++ d ++ a ++ 0#5 ++ g ++ 2#5 : BitVec 32) = w
  obtain ⟨e31, e25, e20, e15, e10, e5, e0⟩ := layout23 _ _ _ _ _ _ _ h
  refine decode_of ((major_47 e25).trans ?_) hw
  unfold decodeVred
  rw [e0]
  simp only [need, e5, e10, e15, e20, e31]
  rfl

theorem Coded.vfredo (c : BitVec 1) (d : BitVec 5) (a : BitVec 5) (g : BitVec 5) : Coded.Statement (.vfredo c d a g) := by
  intro _ hw
  show decode (c ++ 0x2f#6 ++ d ++ a ++ 0#5 ++ g ++ 3#5) = _
  generalize h : (c ++ 0x2f#6 ++ d ++ a ++ 0#5 ++ g ++ 3#5 : BitVec 32) = w
  obtain ⟨e31, e25, e20, e15, e10, e5, e0⟩ := layout23 _ _ _ _ _ _ _ h
  refine decode_of ((major_47 e25).trans ?_) hw
  unfold decodeVred
  rw [e0]
  simp only [need, e5, e10, e15, e20, e31]
  rfl

theorem Coded.vfredt (c : BitVec 1) (d : BitVec 5) (a : BitVec 5) (g : BitVec 5) : Coded.Statement (.vfredt c d a g) := by
  intro _ hw
  show decode (c ++ 0x2f#6 ++ d ++ a ++ 0#5 ++ g ++ 4#5) = _
  generalize h : (c ++ 0x2f#6 ++ d ++ a ++ 0#5 ++ g ++ 4#5 : BitVec 32) = w
  obtain ⟨e31, e25, e20, e15, e10, e5, e0⟩ := layout23 _ _ _ _ _ _ _ h
  refine decode_of ((major_47 e25).trans ?_) hw
  unfold decodeVred
  rw [e0]
  simp only [need, e5, e10, e15, e20, e31]
  rfl

theorem Coded.vfredmin (c : BitVec 1) (d : BitVec 5) (a : BitVec 5) (g : BitVec 5) : Coded.Statement (.vfredmin c d a g) := by
  intro _ hw
  show decode (c ++ 0x2f#6 ++ d ++ a ++ 0#5 ++ g ++ 5#5) = _
  generalize h : (c ++ 0x2f#6 ++ d ++ a ++ 0#5 ++ g ++ 5#5 : BitVec 32) = w
  obtain ⟨e31, e25, e20, e15, e10, e5, e0⟩ := layout23 _ _ _ _ _ _ _ h
  refine decode_of ((major_47 e25).trans ?_) hw
  unfold decodeVred
  rw [e0]
  simp only [need, e5, e10, e15, e20, e31]
  rfl

theorem Coded.vfredmax (c : BitVec 1) (d : BitVec 5) (a : BitVec 5) (g : BitVec 5) : Coded.Statement (.vfredmax c d a g) := by
  intro _ hw
  show decode (c ++ 0x2f#6 ++ d ++ a ++ 0#5 ++ g ++ 6#5) = _
  generalize h : (c ++ 0x2f#6 ++ d ++ a ++ 0#5 ++ g ++ 6#5 : BitVec 32) = w
  obtain ⟨e31, e25, e20, e15, e10, e5, e0⟩ := layout23 _ _ _ _ _ _ _ h
  refine decode_of ((major_47 e25).trans ?_) hw
  unfold decodeVred
  rw [e0]
  simp only [need, e5, e10, e15, e20, e31]
  rfl

theorem Coded.vcmul (c : BitVec 1) (d : BitVec 5) (a : BitVec 5) (b : BitVec 5) (g : BitVec 5) : Coded.Statement (.vcmul c d a b g) := by
  intro _ hw
  show decode (c ++ 0x30#6 ++ d ++ a ++ b ++ g ++ 0#5) = _
  generalize h : (c ++ 0x30#6 ++ d ++ a ++ b ++ g ++ 0#5 : BitVec 32) = w
  obtain ⟨e31, e25, e20, e15, e10, e5, e0⟩ := layout23 _ _ _ _ _ _ _ h
  refine decode_of ((major_48 e25).trans ?_) hw
  unfold decodeVcpx
  rw [e0]
  simp only [e5, e10, e15, e20, e31]

theorem Coded.vcmac (c : BitVec 1) (d : BitVec 5) (a : BitVec 5) (b : BitVec 5) (g : BitVec 5) : Coded.Statement (.vcmac c d a b g) := by
  intro _ hw
  show decode (c ++ 0x30#6 ++ d ++ a ++ b ++ g ++ 1#5) = _
  generalize h : (c ++ 0x30#6 ++ d ++ a ++ b ++ g ++ 1#5 : BitVec 32) = w
  obtain ⟨e31, e25, e20, e15, e10, e5, e0⟩ := layout23 _ _ _ _ _ _ _ h
  refine decode_of ((major_48 e25).trans ?_) hw
  unfold decodeVcpx
  rw [e0]
  simp only [e5, e10, e15, e20, e31]

theorem Coded.vcmulc (c : BitVec 1) (d : BitVec 5) (a : BitVec 5) (b : BitVec 5) (g : BitVec 5) : Coded.Statement (.vcmulc c d a b g) := by
  intro _ hw
  show decode (c ++ 0x30#6 ++ d ++ a ++ b ++ g ++ 2#5) = _
  generalize h : (c ++ 0x30#6 ++ d ++ a ++ b ++ g ++ 2#5 : BitVec 32) = w
  obtain ⟨e31, e25, e20, e15, e10, e5, e0⟩ := layout23 _ _ _ _ _ _ _ h
  refine decode_of ((major_48 e25).trans ?_) hw
  unfold decodeVcpx
  rw [e0]
  simp only [e5, e10, e15, e20, e31]

theorem Coded.vcabs2 (c : BitVec 1) (d : BitVec 5) (a : BitVec 5) (g : BitVec 5) : Coded.Statement (.vcabs2 c d a g) := by
  intro _ hw
  show decode (c ++ 0x30#6 ++ d ++ a ++ 0#5 ++ g ++ 3#5) = _
  generalize h : (c ++ 0x30#6 ++ d ++ a ++ 0#5 ++ g ++ 3#5 : BitVec 32) = w
  obtain ⟨e31, e25, e20, e15, e10, e5, e0⟩ := layout23 _ _ _ _ _ _ _ h
  refine decode_of ((major_48 e25).trans ?_) hw
  unfold decodeVcpx
  rw [e0]
  simp only [need, e5, e10, e15, e20, e31]
  rfl

theorem Coded.vcvt (c : BitVec 1) (d : BitVec 5) (a : BitVec 5) (e : BitVec 3) (g : BitVec 5) (f : BitVec 4) : Coded.Statement (.vcvt c d a e g f) := by
  intro _ hw
  show decode (c ++ 0x31#6 ++ d ++ a ++ 0#2 ++ e ++ g ++ 0#1 ++ f) = _
  generalize h : (c ++ 0x31#6 ++ d ++ a ++ 0#2 ++ e ++ g ++ 0#1 ++ f : BitVec 32) = w
  obtain ⟨e31, e25, e20, e15, e13, e10, e5, e4, e0⟩ := layout30 _ _ _ _ _ _ _ _ _ h
  refine decode_of ((major_49 e25).trans ?_) hw
  have k : fld w 4 1 = (fld w 0 5).extractLsb' 4 1 := by
    apply BitVec.eq_of_getLsbD_eq
    intro i hi
    simp [fld, hi]
  unfold decodeVcvt
  split
  · rename_i q
    rw [q, e4] at k
    exact absurd k (by decide)
  · rename_i q
    rw [q, e4] at k
    exact absurd k (by decide)
  · simp only [need, e31, e20, e15, e13, e10, e5, e4, e0]
    rfl

theorem Coded.vscale (c : BitVec 1) (d : BitVec 5) (a : BitVec 5) (b : BitVec 5) (g : BitVec 5) : Coded.Statement (.vscale c d a b g) := by
  intro _ hw
  show decode (c ++ 0x31#6 ++ d ++ a ++ b ++ g ++ 16#5) = _
  generalize h : (c ++ 0x31#6 ++ d ++ a ++ b ++ g ++ 16#5 : BitVec 32) = w
  obtain ⟨e31, e25, e20, e15, e10, e5, e0⟩ := layout23 _ _ _ _ _ _ _ h
  refine decode_of ((major_49 e25).trans ?_) hw
  unfold decodeVcvt
  rw [e0]
  simp only [e5, e10, e15, e20, e31]

theorem Coded.vqmax (c : BitVec 1) (d : BitVec 5) (a : BitVec 5) (g : BitVec 5) : Coded.Statement (.vqmax c d a g) := by
  intro _ hw
  show decode (c ++ 0x31#6 ++ d ++ a ++ 0#5 ++ g ++ 17#5) = _
  generalize h : (c ++ 0x31#6 ++ d ++ a ++ 0#5 ++ g ++ 17#5 : BitVec 32) = w
  obtain ⟨e31, e25, e20, e15, e10, e5, e0⟩ := layout23 _ _ _ _ _ _ _ h
  refine decode_of ((major_49 e25).trans ?_) hw
  unfold decodeVcvt
  rw [e0]
  simp only [need, e5, e10, e15, e20, e31]
  rfl

theorem Coded.mgp (c : BitVec 1) (d : BitVec 5) (a : BitVec 5) (b : BitVec 5) (g : BitVec 5) (p : BitVec 2) : Coded.Statement (.mgp c d a b g p) := by
  intro _ hw
  show decode (c ++ 0x32#6 ++ d ++ a ++ b ++ g ++ p ++ 0#3) = _
  generalize h : (c ++ 0x32#6 ++ d ++ a ++ b ++ g ++ p ++ 0#3 : BitVec 32) = w
  obtain ⟨e31, e25, e20, e15, e10, e5, e3, e0⟩ := layout25 _ _ _ _ _ _ _ _ h
  refine decode_of ((major_50 e25).trans ?_) hw
  unfold decodeMvp
  rw [e0]
  simp only [e3, e5, e10, e15, e20, e31]

theorem Coded.mwdg (c : BitVec 1) (d : BitVec 5) (a : BitVec 5) (b : BitVec 5) (g : BitVec 5) (p : BitVec 2) : Coded.Statement (.mwdg c d a b g p) := by
  intro _ hw
  show decode (c ++ 0x32#6 ++ d ++ a ++ b ++ g ++ p ++ 1#3) = _
  generalize h : (c ++ 0x32#6 ++ d ++ a ++ b ++ g ++ p ++ 1#3 : BitVec 32) = w
  obtain ⟨e31, e25, e20, e15, e10, e5, e3, e0⟩ := layout25 _ _ _ _ _ _ _ _ h
  refine decode_of ((major_50 e25).trans ?_) hw
  unfold decodeMvp
  rw [e0]
  simp only [e3, e5, e10, e15, e20, e31]

theorem Coded.mdot (c : BitVec 1) (d : BitVec 5) (a : BitVec 5) (b : BitVec 5) (g : BitVec 5) (p : BitVec 2) : Coded.Statement (.mdot c d a b g p) := by
  intro _ hw
  show decode (c ++ 0x32#6 ++ d ++ a ++ b ++ g ++ p ++ 2#3) = _
  generalize h : (c ++ 0x32#6 ++ d ++ a ++ b ++ g ++ p ++ 2#3 : BitVec 32) = w
  obtain ⟨e31, e25, e20, e15, e10, e5, e3, e0⟩ := layout25 _ _ _ _ _ _ _ _ h
  refine decode_of ((major_50 e25).trans ?_) hw
  unfold decodeMvp
  rw [e0]
  simp only [e3, e5, e10, e15, e20, e31]

theorem Coded.mlct (c : BitVec 1) (d : BitVec 5) (a : BitVec 5) (b : BitVec 5) (g : BitVec 5) (p : BitVec 2) : Coded.Statement (.mlct c d a b g p) := by
  intro _ hw
  show decode (c ++ 0x32#6 ++ d ++ a ++ b ++ g ++ p ++ 3#3) = _
  generalize h : (c ++ 0x32#6 ++ d ++ a ++ b ++ g ++ p ++ 3#3 : BitVec 32) = w
  obtain ⟨e31, e25, e20, e15, e10, e5, e3, e0⟩ := layout25 _ _ _ _ _ _ _ _ h
  refine decode_of ((major_50 e25).trans ?_) hw
  unfold decodeMvp
  rw [e0]
  simp only [e3, e5, e10, e15, e20, e31]

theorem Coded.mjoin (c : BitVec 1) (d : BitVec 5) (a : BitVec 5) (b : BitVec 5) (g : BitVec 5) (p : BitVec 2) : Coded.Statement (.mjoin c d a b g p) := by
  intro _ hw
  show decode (c ++ 0x32#6 ++ d ++ a ++ b ++ g ++ p ++ 4#3) = _
  generalize h : (c ++ 0x32#6 ++ d ++ a ++ b ++ g ++ p ++ 4#3 : BitVec 32) = w
  obtain ⟨e31, e25, e20, e15, e10, e5, e3, e0⟩ := layout25 _ _ _ _ _ _ _ _ h
  refine decode_of ((major_50 e25).trans ?_) hw
  unfold decodeMvp
  rw [e0]
  simp only [e3, e5, e10, e15, e20, e31]

theorem Coded.msand (c : BitVec 1) (d : BitVec 5) (a : BitVec 5) (b : BitVec 5) (g : BitVec 5) (p : BitVec 2) : Coded.Statement (.msand c d a b g p) := by
  intro _ hw
  show decode (c ++ 0x32#6 ++ d ++ a ++ b ++ g ++ p ++ 5#3) = _
  generalize h : (c ++ 0x32#6 ++ d ++ a ++ b ++ g ++ p ++ 5#3 : BitVec 32) = w
  obtain ⟨e31, e25, e20, e15, e10, e5, e3, e0⟩ := layout25 _ _ _ _ _ _ _ _ h
  refine decode_of ((major_50 e25).trans ?_) hw
  unfold decodeMvp
  rw [e0]
  simp only [e3, e5, e10, e15, e20, e31]

theorem Coded.mcomm (c : BitVec 1) (d : BitVec 5) (a : BitVec 5) (b : BitVec 5) (g : BitVec 5) (p : BitVec 2) : Coded.Statement (.mcomm c d a b g p) := by
  intro _ hw
  show decode (c ++ 0x32#6 ++ d ++ a ++ b ++ g ++ p ++ 6#3) = _
  generalize h : (c ++ 0x32#6 ++ d ++ a ++ b ++ g ++ p ++ 6#3 : BitVec 32) = w
  obtain ⟨e31, e25, e20, e15, e10, e5, e3, e0⟩ := layout25 _ _ _ _ _ _ _ _ h
  refine decode_of ((major_50 e25).trans ?_) hw
  unfold decodeMvp
  rw [e0]
  simp only [e3, e5, e10, e15, e20, e31]

theorem Coded.mrev (c : BitVec 1) (d : BitVec 5) (a : BitVec 5) (g : BitVec 5) (p : BitVec 2) : Coded.Statement (.mrev c d a g p) := by
  intro _ hw
  show decode (c ++ 0x33#6 ++ d ++ a ++ 0#5 ++ g ++ p ++ 0#3) = _
  generalize h : (c ++ 0x33#6 ++ d ++ a ++ 0#5 ++ g ++ p ++ 0#3 : BitVec 32) = w
  obtain ⟨e31, e25, e20, e15, e10, e5, e3, e0⟩ := layout25 _ _ _ _ _ _ _ _ h
  refine decode_of ((major_51 e25).trans ?_) hw
  unfold decodeMvu
  rw [e0]
  simp only [need, e3, e5, e10, e15, e20, e31]
  rfl

theorem Coded.mdual (c : BitVec 1) (d : BitVec 5) (a : BitVec 5) (g : BitVec 5) (p : BitVec 2) : Coded.Statement (.mdual c d a g p) := by
  intro _ hw
  show decode (c ++ 0x33#6 ++ d ++ a ++ 0#5 ++ g ++ p ++ 1#3) = _
  generalize h : (c ++ 0x33#6 ++ d ++ a ++ 0#5 ++ g ++ p ++ 1#3 : BitVec 32) = w
  obtain ⟨e31, e25, e20, e15, e10, e5, e3, e0⟩ := layout25 _ _ _ _ _ _ _ _ h
  refine decode_of ((major_51 e25).trans ?_) hw
  unfold decodeMvu
  rw [e0]
  simp only [need, e3, e5, e10, e15, e20, e31]
  rfl

theorem Coded.mgrd (c : BitVec 1) (d : BitVec 5) (a : BitVec 5) (b : BitVec 5) (g : BitVec 5) (p : BitVec 2) : Coded.Statement (.mgrd c d a b g p) := by
  intro _ hw
  show decode (c ++ 0x33#6 ++ d ++ a ++ b ++ g ++ p ++ 2#3) = _
  generalize h : (c ++ 0x33#6 ++ d ++ a ++ b ++ g ++ p ++ 2#3 : BitVec 32) = w
  obtain ⟨e31, e25, e20, e15, e10, e5, e3, e0⟩ := layout25 _ _ _ _ _ _ _ _ h
  refine decode_of ((major_51 e25).trans ?_) hw
  unfold decodeMvu
  rw [e0]
  simp only [e3, e5, e10, e15, e20, e31]

theorem Coded.mnrm2 (c : BitVec 1) (d : BitVec 5) (a : BitVec 5) (g : BitVec 5) (p : BitVec 2) : Coded.Statement (.mnrm2 c d a g p) := by
  intro _ hw
  show decode (c ++ 0x33#6 ++ d ++ a ++ 0#5 ++ g ++ p ++ 3#3) = _
  generalize h : (c ++ 0x33#6 ++ d ++ a ++ 0#5 ++ g ++ p ++ 3#3 : BitVec 32) = w
  obtain ⟨e31, e25, e20, e15, e10, e5, e3, e0⟩ := layout25 _ _ _ _ _ _ _ _ h
  refine decode_of ((major_51 e25).trans ?_) hw
  unfold decodeMvu
  rw [e0]
  simp only [need, e3, e5, e10, e15, e20, e31]
  rfl

theorem Coded.mnrmi (c : BitVec 1) (d : BitVec 5) (a : BitVec 5) (g : BitVec 5) (p : BitVec 2) : Coded.Statement (.mnrmi c d a g p) := by
  intro _ hw
  show decode (c ++ 0x33#6 ++ d ++ a ++ 0#5 ++ g ++ p ++ 4#3) = _
  generalize h : (c ++ 0x33#6 ++ d ++ a ++ 0#5 ++ g ++ p ++ 4#3 : BitVec 32) = w
  obtain ⟨e31, e25, e20, e15, e10, e5, e3, e0⟩ := layout25 _ _ _ _ _ _ _ _ h
  refine decode_of ((major_51 e25).trans ?_) hw
  unfold decodeMvu
  rw [e0]
  simp only [need, e3, e5, e10, e15, e20, e31]
  rfl

theorem Coded.mnormz (c : BitVec 1) (d : BitVec 5) (a : BitVec 5) (g : BitVec 5) (p : BitVec 2) : Coded.Statement (.mnormz c d a g p) := by
  intro _ hw
  show decode (c ++ 0x33#6 ++ d ++ a ++ 0#5 ++ g ++ p ++ 5#3) = _
  generalize h : (c ++ 0x33#6 ++ d ++ a ++ 0#5 ++ g ++ p ++ 5#3 : BitVec 32) = w
  obtain ⟨e31, e25, e20, e15, e10, e5, e3, e0⟩ := layout25 _ _ _ _ _ _ _ _ h
  refine decode_of ((major_51 e25).trans ?_) hw
  unfold decodeMvu
  rw [e0]
  simp only [need, e3, e5, e10, e15, e20, e31]
  rfl

theorem Coded.mexpb (c : BitVec 1) (d : BitVec 5) (a : BitVec 5) (g : BitVec 5) (p : BitVec 2) : Coded.Statement (.mexpb c d a g p) := by
  intro _ hw
  show decode (c ++ 0x33#6 ++ d ++ a ++ 0#5 ++ g ++ p ++ 6#3) = _
  generalize h : (c ++ 0x33#6 ++ d ++ a ++ 0#5 ++ g ++ p ++ 6#3 : BitVec 32) = w
  obtain ⟨e31, e25, e20, e15, e10, e5, e3, e0⟩ := layout25 _ _ _ _ _ _ _ _ h
  refine decode_of ((major_51 e25).trans ?_) hw
  unfold decodeMvu
  rw [e0]
  simp only [need, e3, e5, e10, e15, e20, e31]
  rfl

theorem Coded.mlogm (c : BitVec 1) (d : BitVec 5) (a : BitVec 5) (g : BitVec 5) (p : BitVec 2) : Coded.Statement (.mlogm c d a g p) := by
  intro _ hw
  show decode (c ++ 0x33#6 ++ d ++ a ++ 0#5 ++ g ++ p ++ 7#3) = _
  generalize h : (c ++ 0x33#6 ++ d ++ a ++ 0#5 ++ g ++ p ++ 7#3 : BitVec 32) = w
  obtain ⟨e31, e25, e20, e15, e10, e5, e3, e0⟩ := layout25 _ _ _ _ _ _ _ _ h
  refine decode_of ((major_51 e25).trans ?_) hw
  unfold decodeMvu
  rw [e0]
  simp only [need, e3, e5, e10, e15, e20, e31]
  rfl

theorem Coded.mmov (c : BitVec 1) (d : BitVec 5) (a : BitVec 5) (g : BitVec 5) (p : BitVec 2) : Coded.Statement (.mmov c d a g p) := by
  intro _ hw
  show decode (c ++ 0x34#6 ++ d ++ a ++ 0#5 ++ g ++ p ++ 0#3) = _
  generalize h : (c ++ 0x34#6 ++ d ++ a ++ 0#5 ++ g ++ p ++ 0#3 : BitVec 32) = w
  obtain ⟨e31, e25, e20, e15, e10, e5, e3, e0⟩ := layout25 _ _ _ _ _ _ _ _ h
  refine decode_of ((major_52 e25).trans ?_) hw
  unfold decodeMvm
  rw [e0]
  simp only [need, e3, e5, e10, e15, e20, e31]
  rfl

theorem Coded.msetm (c : BitVec 1) (d : BitVec 5) (b : BitVec 5) : Coded.Statement (.msetm c d b) := by
  intro _ hw
  show decode (c ++ 0x34#6 ++ d ++ 0#5 ++ b ++ 0#7 ++ 1#3) = _
  generalize h : (c ++ 0x34#6 ++ d ++ 0#5 ++ b ++ 0#7 ++ 1#3 : BitVec 32) = w
  obtain ⟨e31, e25, e20, e15, e10, e3, e0⟩ := layout21 _ _ _ _ _ _ _ h
  refine decode_of ((major_52 e25).trans ?_) hw
  unfold decodeMvm
  rw [e0]
  simp only [need, e3, e10, e15, e20, e31]
  rfl

theorem Coded.mgetm (c : BitVec 1) (d : BitVec 5) (a : BitVec 5) : Coded.Statement (.mgetm c d a) := by
  intro _ hw
  show decode (c ++ 0x34#6 ++ d ++ a ++ 0#12 ++ 2#3) = _
  generalize h : (c ++ 0x34#6 ++ d ++ a ++ 0#12 ++ 2#3 : BitVec 32) = w
  obtain ⟨e31, e25, e20, e15, e3, e0⟩ := layout20 _ _ _ _ _ _ h
  refine decode_of ((major_52 e25).trans ?_) hw
  unfold decodeMvm
  rw [e0]
  simp only [need, e3, e15, e20, e31]
  rfl

theorem Coded.mclean (c : BitVec 1) (d : BitVec 5) (a : BitVec 5) : Coded.Statement (.mclean c d a) := by
  intro _ hw
  show decode (c ++ 0x34#6 ++ d ++ a ++ 0#12 ++ 3#3) = _
  generalize h : (c ++ 0x34#6 ++ d ++ a ++ 0#12 ++ 3#3 : BitVec 32) = w
  obtain ⟨e31, e25, e20, e15, e3, e0⟩ := layout20 _ _ _ _ _ _ h
  refine decode_of ((major_52 e25).trans ?_) hw
  unfold decodeMvm
  rw [e0]
  simp only [need, e3, e15, e20, e31]
  rfl

theorem Coded.mfromv (c : BitVec 1) (d : BitVec 5) (a : BitVec 5) (b : BitVec 5) (g : BitVec 5) (p : BitVec 2) : Coded.Statement (.mfromv c d a b g p) := by
  intro _ hw
  show decode (c ++ 0x34#6 ++ d ++ a ++ b ++ g ++ p ++ 4#3) = _
  generalize h : (c ++ 0x34#6 ++ d ++ a ++ b ++ g ++ p ++ 4#3 : BitVec 32) = w
  obtain ⟨e31, e25, e20, e15, e10, e5, e3, e0⟩ := layout25 _ _ _ _ _ _ _ _ h
  refine decode_of ((major_52 e25).trans ?_) hw
  unfold decodeMvm
  rw [e0]
  simp only [e3, e5, e10, e15, e20, e31]

theorem Coded.mtov (c : BitVec 1) (d : BitVec 5) (a : BitVec 5) (b : BitVec 5) (g : BitVec 5) : Coded.Statement (.mtov c d a b g) := by
  intro _ hw
  show decode (c ++ 0x34#6 ++ d ++ a ++ b ++ g ++ 0#2 ++ 5#3) = _
  generalize h : (c ++ 0x34#6 ++ d ++ a ++ b ++ g ++ 0#2 ++ 5#3 : BitVec 32) = w
  obtain ⟨e31, e25, e20, e15, e10, e5, e3, e0⟩ := layout25 _ _ _ _ _ _ _ _ h
  refine decode_of ((major_52 e25).trans ?_) hw
  unfold decodeMvm
  rw [e0]
  simp only [need, e3, e5, e10, e15, e20, e31]
  rfl

theorem Coded.madd (c : BitVec 1) (d : BitVec 5) (a : BitVec 5) (b : BitVec 5) (g : BitVec 5) (p : BitVec 2) : Coded.Statement (.madd c d a b g p) := by
  intro _ hw
  show decode (c ++ 0x34#6 ++ d ++ a ++ b ++ g ++ p ++ 6#3) = _
  generalize h : (c ++ 0x34#6 ++ d ++ a ++ b ++ g ++ p ++ 6#3 : BitVec 32) = w
  obtain ⟨e31, e25, e20, e15, e10, e5, e3, e0⟩ := layout25 _ _ _ _ _ _ _ _ h
  refine decode_of ((major_52 e25).trans ?_) hw
  unfold decodeMvm
  rw [e0]
  simp only [e3, e5, e10, e15, e20, e31]

theorem Coded.msub (c : BitVec 1) (d : BitVec 5) (a : BitVec 5) (b : BitVec 5) (g : BitVec 5) (p : BitVec 2) : Coded.Statement (.msub c d a b g p) := by
  intro _ hw
  show decode (c ++ 0x34#6 ++ d ++ a ++ b ++ g ++ p ++ 7#3) = _
  generalize h : (c ++ 0x34#6 ++ d ++ a ++ b ++ g ++ p ++ 7#3 : BitVec 32) = w
  obtain ⟨e31, e25, e20, e15, e10, e5, e3, e0⟩ := layout25 _ _ _ _ _ _ _ _ h
  refine decode_of ((major_52 e25).trans ?_) hw
  unfold decodeMvm
  rw [e0]
  simp only [e3, e5, e10, e15, e20, e31]

theorem Coded.mscal (c : BitVec 1) (d : BitVec 5) (a : BitVec 5) (b : BitVec 5) (g : BitVec 5) (p : BitVec 2) : Coded.Statement (.mscal c d a b g p) := by
  intro _ hw
  show decode (c ++ 0x35#6 ++ d ++ a ++ b ++ g ++ p ++ 0#3) = _
  generalize h : (c ++ 0x35#6 ++ d ++ a ++ b ++ g ++ p ++ 0#3 : BitVec 32) = w
  obtain ⟨e31, e25, e20, e15, e10, e5, e3, e0⟩ := layout25 _ _ _ _ _ _ _ _ h
  refine decode_of ((major_53 e25).trans ?_) hw
  unfold decodeMvs
  rw [e0]
  simp only [e3, e5, e10, e15, e20, e31]

theorem Coded.mconj (c : BitVec 1) (d : BitVec 5) (a : BitVec 5) (g : BitVec 5) (p : BitVec 2) : Coded.Statement (.mconj c d a g p) := by
  intro _ hw
  show decode (c ++ 0x35#6 ++ d ++ a ++ 0#5 ++ g ++ p ++ 1#3) = _
  generalize h : (c ++ 0x35#6 ++ d ++ a ++ 0#5 ++ g ++ p ++ 1#3 : BitVec 32) = w
  obtain ⟨e31, e25, e20, e15, e10, e5, e3, e0⟩ := layout25 _ _ _ _ _ _ _ _ h
  refine decode_of ((major_53 e25).trans ?_) hw
  unfold decodeMvs
  rw [e0]
  simp only [need, e3, e5, e10, e15, e20, e31]
  rfl

theorem Coded.minvol (c : BitVec 1) (d : BitVec 5) (a : BitVec 5) (g : BitVec 5) (p : BitVec 2) : Coded.Statement (.minvol c d a g p) := by
  intro _ hw
  show decode (c ++ 0x35#6 ++ d ++ a ++ 0#5 ++ g ++ p ++ 2#3) = _
  generalize h : (c ++ 0x35#6 ++ d ++ a ++ 0#5 ++ g ++ p ++ 2#3 : BitVec 32) = w
  obtain ⟨e31, e25, e20, e15, e10, e5, e3, e0⟩ := layout25 _ _ _ _ _ _ _ _ h
  refine decode_of ((major_53 e25).trans ?_) hw
  unfold decodeMvs
  rw [e0]
  simp only [need, e3, e5, e10, e15, e20, e31]
  rfl

theorem Coded.mxac (c : BitVec 1) (d : BitVec 5) (a : BitVec 5) (l : BitVec 5) (h : BitVec 3) (w : BitVec 1) (s : BitVec 1) : Coded.Statement (.mxac c d a l h w s) := by
  intro _ hw
  show decode (c ++ 0x36#6 ++ d ++ a ++ l ++ h ++ w ++ s ++ 0#2 ++ 0#3) = _
  generalize h : (c ++ 0x36#6 ++ d ++ a ++ l ++ h ++ w ++ s ++ 0#2 ++ 0#3 : BitVec 32) = u
  obtain ⟨e31, e25, e20, e15, e10, e7, e6, e5, e3, e0⟩ := layout31 _ _ _ _ _ _ _ _ _ _ h
  refine decode_of ((major_54 e25).trans ?_) hw
  unfold decodeMat
  rw [e0]
  simp only [need, e3, e5, e6, e7, e10, e15, e20, e31]
  rfl

theorem Coded.mxacs (c : BitVec 1) (d : BitVec 5) (a : BitVec 5) (l : BitVec 5) (h : BitVec 3) (w : BitVec 1) (s : BitVec 1) : Coded.Statement (.mxacs c d a l h w s) := by
  intro _ hw
  show decode (c ++ 0x36#6 ++ d ++ a ++ l ++ h ++ w ++ s ++ 0#2 ++ 1#3) = _
  generalize h : (c ++ 0x36#6 ++ d ++ a ++ l ++ h ++ w ++ s ++ 0#2 ++ 1#3 : BitVec 32) = u
  obtain ⟨e31, e25, e20, e15, e10, e7, e6, e5, e3, e0⟩ := layout31 _ _ _ _ _ _ _ _ _ _ h
  refine decode_of ((major_54 e25).trans ?_) hw
  unfold decodeMat
  rw [e0]
  simp only [need, e3, e5, e6, e7, e10, e15, e20, e31]
  rfl

theorem Coded.mzero (c : BitVec 1) (d : BitVec 5) (w : BitVec 1) (s : BitVec 1) : Coded.Statement (.mzero c d w s) := by
  intro _ hw
  show decode (c ++ 0x36#6 ++ d ++ 0#13 ++ w ++ s ++ 0#2 ++ 2#3) = _
  generalize h : (c ++ 0x36#6 ++ d ++ 0#13 ++ w ++ s ++ 0#2 ++ 2#3 : BitVec 32) = u
  obtain ⟨e31, e25, e20, e7, e6, e5, e3, e0⟩ := layout32 _ _ _ _ _ _ _ _ h
  refine decode_of ((major_54 e25).trans ?_) hw
  unfold decodeMat
  rw [e0]
  simp only [need, e3, e5, e6, e7, e20, e31]
  rfl

theorem Coded.acld (c : BitVec 1) (d : BitVec 5) (a : BitVec 5) (w : BitVec 1) (s : BitVec 1) : Coded.Statement (.acld c d a w s) := by
  intro _ hw
  show decode (c ++ 0x36#6 ++ d ++ a ++ 0#8 ++ w ++ s ++ 0#2 ++ 3#3) = _
  generalize h : (c ++ 0x36#6 ++ d ++ a ++ 0#8 ++ w ++ s ++ 0#2 ++ 3#3 : BitVec 32) = u
  obtain ⟨e31, e25, e20, e15, e7, e6, e5, e3, e0⟩ := layout33 _ _ _ _ _ _ _ _ _ h
  refine decode_of ((major_54 e25).trans ?_) hw
  unfold decodeMat
  rw [e0]
  simp only [need, e3, e5, e6, e7, e15, e20, e31]
  rfl

theorem Coded.acst (c : BitVec 1) (d : BitVec 5) (a : BitVec 5) (w : BitVec 1) (s : BitVec 1) : Coded.Statement (.acst c d a w s) := by
  intro _ hw
  show decode (c ++ 0x36#6 ++ d ++ a ++ 0#8 ++ w ++ s ++ 0#2 ++ 4#3) = _
  generalize h : (c ++ 0x36#6 ++ d ++ a ++ 0#8 ++ w ++ s ++ 0#2 ++ 4#3 : BitVec 32) = u
  obtain ⟨e31, e25, e20, e15, e7, e6, e5, e3, e0⟩ := layout33 _ _ _ _ _ _ _ _ _ h
  refine decode_of ((major_54 e25).trans ?_) hw
  unfold decodeMat
  rw [e0]
  simp only [need, e3, e5, e6, e7, e15, e20, e31]
  rfl

theorem Coded.mchk (c : BitVec 1) (d : BitVec 5) (e : BitVec 1) (w : BitVec 1) (s : BitVec 1) : Coded.Statement (.mchk c d e w s) := by
  intro _ hw
  show decode (c ++ 0x36#6 ++ d ++ 0#9 ++ e ++ 0#3 ++ w ++ s ++ 0#2 ++ 5#3) = _
  generalize h : (c ++ 0x36#6 ++ d ++ 0#9 ++ e ++ 0#3 ++ w ++ s ++ 0#2 ++ 5#3 : BitVec 32) = u
  obtain ⟨e31, e25, e20, e11, e10, e7, e6, e5, e3, e0⟩ := layout34 _ _ _ _ _ _ _ _ _ _ h
  refine decode_of ((major_54 e25).trans ?_) hw
  unfold decodeMat
  rw [e0]
  simp only [need, e3, e5, e6, e7, e10, e11, e20, e31]
  rfl

theorem Coded.vtok (c : BitVec 1) (w : BitVec 1) (s : BitVec 1) : Coded.Statement (.vtok c w s) := by
  intro _ hw
  show decode (c ++ 0x37#6 ++ 0#23 ++ w ++ s) = _
  generalize h : (c ++ 0x37#6 ++ 0#23 ++ w ++ s : BitVec 32) = u
  obtain ⟨e31, e25, e2, e1, e0⟩ := layout35 _ _ _ _ _ h
  refine decode_of ((major_55 e25).trans ?_) hw
  unfold decodeVtok
  simp only [need, e0, e1, e2, e31]
  rfl

end Sys2Proof.Laws
end

