-- ==== Sys2Proof/Tests/Slice0.lean ====
section
/-!
SUPPORT. Tests. Words of the spec's encoding decode to their instructions; WellFormed refuses an ill-formed term for each of
its checks; and for each statement with hypotheses a state and operands that meet them, clause by clause.
-/
set_option Elab.async false

namespace Sys2Proof.Tests

open Sys2Proof Sys2Proof.Machine

/-! ## Words (02 R33 to R42 and the opcode table) -/

/-- Does each word decode to its instruction? -/
noncomputable def decodesAll (l : List (BitVec 32 × Instr)) : Bool :=
  l.all (fun e => decide ((decode e.1).toOption = some e.2))

theorem test_decode_major_01 : decodesAll [
    (0x02531C40#32, .add 5 6 7 1), (0x02531C41#32, .sub 5 6 7 1), (0x02531C42#32, .and 5 6 7 1),
    (0x02531C43#32, .or 5 6 7 1), (0x02531C44#32, .xor 5 6 7 1), (0x02531C45#32, .sll 5 6 7 1),
    (0x02531C46#32, .srl 5 6 7 1), (0x02531C47#32, .sra 5 6 7 1), (0x02531C48#32, .mul 5 6 7 1),
    (0x02531C49#32, .mulh 5 6 7 1), (0x02531C4A#32, .mulhu 5 6 7 1), (0x02531C4B#32, .div 5 6 7 1),
    (0x02531C4C#32, .divu 5 6 7 1), (0x02531C4D#32, .rem 5 6 7 1), (0x02531C4E#32, .remu 5 6 7 1),
    (0x02531C4F#32, .min 5 6 7 1), (0x02531C50#32, .max 5 6 7 1), (0x02531C51#32, .minu 5 6 7 1),
    (0x02531C52#32, .maxu 5 6 7 1), (0x02531C53#32, .slt 5 6 7 1), (0x02531C54#32, .sltu 5 6 7 1),
    (0x02531C55#32, .addv 5 6 7 1), (0x02531C56#32, .subv 5 6 7 1), (0x02530057#32, .clz 5 6 1),
    (0x02530058#32, .popc 5 6 1)] = true := by decide +kernel

theorem test_decode_major_02 : decodesAll [
    (0x045365C3#32, .addi 5 6 26051)] = true := by decide +kernel

theorem test_decode_major_03 : decodesAll [
    (0x06530DC3#32, .andi 5 6 3523), (0x06531DC3#32, .ori 5 6 3523), (0x06532DC3#32, .xori 5 6 3523),
    (0x06533DC3#32, .slti 5 6 3523), (0x06534DC3#32, .sltiu 5 6 3523), (0x06535023#32, .slli 5 6 35),
    (0x06536023#32, .srli 5 6 35), (0x06537023#32, .srai 5 6 35)] = true := by decide +kernel

theorem test_decode_major_04 : decodesAll [
    (0x0859A5C3#32, .hi 5 632259)] = true := by decide +kernel

theorem test_decode_major_05 : decodesAll [
    (0x0A59A5C3#32, .pcadd 5 632259)] = true := by decide +kernel

theorem test_decode_major_06 : decodesAll [
    (0x0C530DC3#32, .lb 5 6 3523), (0x0C531DC3#32, .lh 5 6 3523), (0x0C532DC3#32, .lw 5 6 3523),
    (0x0C533DC3#32, .ld 5 6 3523), (0x0C534DC3#32, .lbu 5 6 3523), (0x0C535DC3#32, .lhu 5 6 3523),
    (0x0C536DC3#32, .lwu 5 6 3523), (0x0C537DC3#32, .ldk 5 6 3523)] = true := by decide +kernel

theorem test_decode_major_07 : decodesAll [
    (0x0E530DC3#32, .sb 5 6 3523), (0x0E531DC3#32, .sh 5 6 3523), (0x0E532DC3#32, .sw 5 6 3523),
    (0x0E533DC3#32, .sd 5 6 3523)] = true := by decide +kernel

theorem test_decode_major_08 : decodesAll [
    (0x10638002#32, .beq 6 7 2), (0x10639002#32, .bne 6 7 2), (0x1063A002#32, .blt 6 7 2),
    (0x1063B002#32, .bge 6 7 2), (0x1063C002#32, .bltu 6 7 2), (0x1063D002#32, .bgeu 6 7 2)] = true := by decide +kernel

theorem test_decode_major_09 : decodesAll [
    (0x1309A5C3#32, .jal 17409475)] = true := by decide +kernel

theorem test_decode_major_0A : decodesAll [
    (0x145365C3#32, .jalr 5 6 26051)] = true := by decide +kernel

theorem test_decode_major_0B : decodesAll [
    (0x16030005#32, .loop0 6 5), (0x16031005#32, .loop1 6 5), (0x1605A005#32, .loopi0 11 5),
    (0x1605B005#32, .loopi1 11 5), (0x16004000#32, .lexit0), (0x16005000#32, .lexit1)] = true := by decide +kernel

theorem test_decode_major_0C : decodesAll [
    (0x18530000#32, .qpop 5 6), (0x18530001#32, .qcnt 5 6), (0x18530002#32, .qdrain 5 6)] = true := by decide +kernel

theorem test_decode_major_0D : decodesAll [
    (0x1A531D80#32, .fadd 5 6 7 1 2), (0x1A531D81#32, .fsub 5 6 7 1 2), (0x1A531D82#32, .fmul 5 6 7 1 2),
    (0x1A531D83#32, .fdiv 5 6 7 1 2), (0x1A530184#32, .fsqrt 5 6 1 2), (0x1A531D05#32, .fmin 5 6 7 1),
    (0x1A531D06#32, .fmax 5 6 7 1), (0x1A531D07#32, .feq 5 6 7 1), (0x1A531D08#32, .flt 5 6 7 1),
    (0x1A531D09#32, .fle 5 6 7 1), (0x1A530D8A#32, .fcvtfi 5 6 3 1 2), (0x1A530D8B#32, .fcvtif 5 6 3 1 2),
    (0x1A53018C#32, .fcvtff 5 6 1 2), (0x1A53010D#32, .fclass 5 6 1), (0x1A531D8E#32, .fma 5 6 7 1 2)] = true := by decide +kernel

theorem test_decode_major_0E : decodesAll [
    (0x1C531D50#32, .amoswap 5 6 7 2 2 1), (0x1C531D51#32, .amoadd 5 6 7 2 2 1),
    (0x1C531D52#32, .amoand 5 6 7 2 2 1), (0x1C531D53#32, .amoor 5 6 7 2 2 1), (0x1C531D54#32, .amoxor 5 6 7 2 2 1),
    (0x1C531D55#32, .amomin 5 6 7 2 2 1), (0x1C531D56#32, .amomax 5 6 7 2 2 1),
    (0x1C531D57#32, .amominu 5 6 7 2 2 1), (0x1C531D58#32, .amomaxu 5 6 7 2 2 1),
    (0x1C531D59#32, .amocas 5 6 7 2 2 1), (0x1C53011A#32, .lda 5 6 2 1), (0x1C031D1B#32, .stl 6 7 2 1),
    (0x1C531D5C#32, .amofadd 5 6 7 2 2 1)] = true := by decide +kernel

theorem test_decode_major_0F : decodesAll [
    (0x1E000021#32, .fence 2 1), (0x1E001021#32, .pfence 2 1), (0x1E002020#32, .bar 2)] = true := by decide +kernel

theorem test_decode_major_10 : decodesAll [
    (0x20020106#32, .sbar 2 1 6)] = true := by decide +kernel

theorem test_decode_major_11 : decodesAll [
    (0x22500123#32, .srr 5 291), (0x22031123#32, .srw 6 291), (0x22532123#32, .srs 5 6 291),
    (0x22533123#32, .src 5 6 291), (0x220045C3#32, .trap 1475), (0x22004DC3#32, .breakpoint 1475),
    (0x22005000#32, .tret), (0x22006000#32, .uret), (0x22537000#32, .wfe 5 6)] = true := by decide +kernel

theorem test_decode_major_12 : decodesAll [
    (0x24031C00#32, .vtinv 6 7), (0x24031C01#32, .ptinv 6 7), (0x24530002#32, .ctxsave 5 6),
    (0x24530003#32, .ctxload 5 6)] = true := by decide +kernel

theorem test_decode_major_13 : decodesAll [
    (0x26530000#32, .launch 5 6), (0x26531C01#32, .launchc 5 6 7), (0x26530002#32, .lwait 5 6),
    (0x26000003#32, .yield), (0x26530004#32, .lstat 5 6), (0x26000005#32, .endThread)] = true := by decide +kernel

theorem test_decode_major_14 : decodesAll [
    (0x28530000#32, .hclaim 5 6), (0x28000C01#32, .hfree 3), (0x28500C02#32, .hstat 5 3),
    (0x28530C03#32, .hdrain 5 6 3)] = true := by decide +kernel

theorem test_decode_major_15 : decodesAll [
    (0x2A530EC0#32, .ldt 11 5 6 3), (0x2A530EC1#32, .stt 11 5 6 3), (0x2A5302C2#32, .txn 11 5 6),
    (0x2A530003#32, .stqry 5 6), (0x2A531C04#32, .stload 5 6 7), (0x2A530005#32, .stbind 5 6),
    (0x2A501C06#32, .stunbind 5 7)] = true := by decide +kernel

theorem test_decode_major_16 : decodesAll [
    (0x2C531F80#32, .cpy 5 6 7 1 1 1), (0x2C530001#32, .ecwait 5 6), (0x2C532FE2#32, .wbld 5 6 11 1 1 1 6),
    (0x2C531F83#32, .acstm 5 6 7 1 1 1), (0x2C531F84#32, .acldm 5 6 7 1 1 1)] = true := by decide +kernel

theorem test_decode_major_17 : decodesAll [
    (0x2E530120#32, .engb 5 6 9)] = true := by decide +kernel

theorem test_decode_major_18 : decodesAll [
    (0x30530000#32, .attach 5 6), (0x30000001#32, .detach)] = true := by decide +kernel

theorem test_decode_major_19 : decodesAll [
    (0x32530134#32, .vld 5 6 9 5), (0x32531D35#32, .vldStrided 5 6 7 9 5), (0x32531D36#32, .vldIndexed 5 6 7 9 5),
    (0x32531D37#32, .vldOrd 5 6 7 9 5)] = true := by decide +kernel

theorem test_decode_major_1A : decodesAll [
    (0x34530134#32, .vst 5 6 9 5), (0x34531D35#32, .vstStrided 5 6 7 9 5), (0x34531D36#32, .vstIndexed 5 6 7 9 5),
    (0x34531D37#32, .vstOrd 5 6 7 9 5)] = true := by decide +kernel

theorem test_decode_major_1B : decodesAll [
    (0x36530134#32, .vldff 5 6 9 5), (0x36530135#32, .vldm 5 6 9 5), (0x36531D36#32, .vldb 5 6 7 9 5),
    (0x36530137#32, .vstm 5 6 9 5)] = true := by decide +kernel

theorem test_decode_major_1C : decodesAll [
    (0x38531D34#32, .vamoadd 5 6 7 9 5), (0x38531D35#32, .vamomin 5 6 7 9 5), (0x38531D36#32, .vamomax 5 6 7 9 5),
    (0x38531D37#32, .vamofadd 5 6 7 9 5)] = true := by decide +kernel

theorem test_decode_major_1D : decodesAll [
    (0x3A531D20#32, .spld 5 6 7 9), (0x3A531D21#32, .spst 5 6 7 9), (0x3A530122#32, .spldu 5 6 9),
    (0x3A530123#32, .spstu 5 6 9)] = true := by decide +kernel

theorem test_decode_major_1E : decodesAll [
    (0x3C031D30#32, .hins 6 7 9 2), (0x3C530131#32, .hprb 5 6 9 2), (0x3C030132#32, .hdel 6 9 2),
    (0x3C031D33#32, .hacc 6 7 9 2), (0x3C031D34#32, .hamin 6 7 9 2), (0x3C031D35#32, .hamax 6 7 9 2),
    (0x3C031D36#32, .hupd 6 7 9 2)] = true := by decide +kernel

theorem test_decode_major_1F : decodesAll [
    (0x3E031D2B#32, .vtxn 11 6 7 9)] = true := by decide +kernel

theorem test_decode_major_20 : decodesAll [
    (0x40531D20#32, .boxx 5 6 7 9), (0x40531D21#32, .trix 5 6 7 9), (0x40031D22#32, .mlins 6 7 9),
    (0x40031D23#32, .mlins2 6 7 9), (0x40531D24#32, .mlrslv 5 6 7 9), (0x40001D25#32, .mlclr 7 9),
    (0x40530006#32, .mlcfg 5 6)] = true := by decide +kernel

theorem test_decode_major_21 : decodesAll [
    (0x42531D34#32, .mld 5 6 7 9 5), (0x42531D35#32, .mldp 5 6 7 9 5), (0x42531D36#32, .mst 5 6 7 9 5),
    (0x42531D37#32, .mstp 5 6 7 9 5)] = true := by decide +kernel

theorem test_decode_major_22 : decodesAll [
    (0x44531C00#32, .setvl 5 6 7), (0x44530001#32, .settype 5 6)] = true := by decide +kernel

theorem test_decode_major_23 : decodesAll [
    (0x4609A5C3#32, .settypei 632259)] = true := by decide +kernel

theorem test_decode_major_28 : decodesAll [
    (0xD0531D20#32, .vadd 1 5 6 7 9), (0xD0531D21#32, .vsub 1 5 6 7 9), (0xD0531D22#32, .vmul 1 5 6 7 9),
    (0xD0531D23#32, .vmulh 1 5 6 7 9), (0xD0531D24#32, .vmin 1 5 6 7 9), (0xD0531D25#32, .vmax 1 5 6 7 9),
    (0xD0531D26#32, .vminu 1 5 6 7 9), (0xD0531D27#32, .vmaxu 1 5 6 7 9), (0xD0531D28#32, .vand 1 5 6 7 9),
    (0xD0531D29#32, .vor 1 5 6 7 9), (0xD0531D2A#32, .vxor 1 5 6 7 9), (0xD0531D2B#32, .vsll 1 5 6 7 9),
    (0xD0531D2C#32, .vsrl 1 5 6 7 9), (0xD0531D2D#32, .vsra 1 5 6 7 9), (0xD0531D2E#32, .vmacc 1 5 6 7 9),
    (0xD0531D2F#32, .vdiv 1 5 6 7 9), (0xD0531D30#32, .vaddsat 1 5 6 7 9), (0xD0531D31#32, .vsubsat 1 5 6 7 9)] = true := by decide +kernel

theorem test_decode_major_29 : decodesAll [
    (0xD2531D20#32, .vintsVadd 1 5 6 7 9), (0xD2531D21#32, .vintsVsub 1 5 6 7 9),
    (0xD2531D22#32, .vintsVmul 1 5 6 7 9), (0xD2531D23#32, .vintsVmulh 1 5 6 7 9),
    (0xD2531D24#32, .vintsVmin 1 5 6 7 9), (0xD2531D25#32, .vintsVmax 1 5 6 7 9),
    (0xD2531D26#32, .vintsVminu 1 5 6 7 9), (0xD2531D27#32, .vintsVmaxu 1 5 6 7 9),
    (0xD2531D28#32, .vintsVand 1 5 6 7 9), (0xD2531D29#32, .vintsVor 1 5 6 7 9),
    (0xD2531D2A#32, .vintsVxor 1 5 6 7 9), (0xD2531D2B#32, .vintsVsll 1 5 6 7 9),
    (0xD2531D2C#32, .vintsVsrl 1 5 6 7 9), (0xD2531D2D#32, .vintsVsra 1 5 6 7 9),
    (0xD2531D2E#32, .vintsVmacc 1 5 6 7 9), (0xD2531D2F#32, .vintsVdiv 1 5 6 7 9),
    (0xD2531D30#32, .vintsVaddsat 1 5 6 7 9), (0xD2531D31#32, .vintsVsubsat 1 5 6 7 9)] = true := by decide +kernel

theorem test_decode_major_2A : decodesAll [
    (0xD4531D20#32, .vfadd 1 5 6 7 9), (0xD4531D21#32, .vfsub 1 5 6 7 9), (0xD4531D22#32, .vfmul 1 5 6 7 9),
    (0xD4531D23#32, .vfdiv 1 5 6 7 9), (0xD4530124#32, .vfsqrt 1 5 6 9), (0xD4531D25#32, .vfma 1 5 6 7 9),
    (0xD4531D26#32, .vfms 1 5 6 7 9), (0xD4531D27#32, .vfmin 1 5 6 7 9), (0xD4531D28#32, .vfmax 1 5 6 7 9),
    (0xD4530129#32, .vfabs 1 5 6 9), (0xD453012A#32, .vfneg 1 5 6 9)] = true := by decide +kernel

theorem test_decode_major_2B : decodesAll [
    (0xD6531D20#32, .vfpsVfadd 1 5 6 7 9), (0xD6531D21#32, .vfpsVfsub 1 5 6 7 9),
    (0xD6531D22#32, .vfpsVfmul 1 5 6 7 9), (0xD6531D23#32, .vfpsVfdiv 1 5 6 7 9),
    (0xD6531D25#32, .vfpsVfma 1 5 6 7 9), (0xD6531D26#32, .vfpsVfms 1 5 6 7 9),
    (0xD6531D27#32, .vfpsVfmin 1 5 6 7 9), (0xD6531D28#32, .vfpsVfmax 1 5 6 7 9)] = true := by decide +kernel

theorem test_decode_major_2C : decodesAll [
    (0xD8531D28#32, .vcmpEq 1 5 6 7 9 1), (0xD8531D29#32, .vcmpNe 1 5 6 7 9 1), (0xD8531D2A#32, .vcmpLt 1 5 6 7 9 1),
    (0xD8531D2B#32, .vcmpGe 1 5 6 7 9 1), (0xD8531D2C#32, .vcmpLe 1 5 6 7 9 1), (0xD8531D2D#32, .vcmpGt 1 5 6 7 9 1),
    (0xD8531D36#32, .vcmpUn 1 5 6 7 9)] = true := by decide +kernel

theorem test_decode_major_2D : decodesAll [
    (0xDA531D20#32, .pand 1 5 6 7 9), (0xDA531D21#32, .por 1 5 6 7 9), (0xDA531D22#32, .pxor 1 5 6 7 9),
    (0xDA531D23#32, .pandn 1 5 6 7 9), (0xDA530124#32, .pnot 1 5 6 9), (0xDA530125#32, .plead 1 5 6 9),
    (0xDA530126#32, .pthru 1 5 6 9), (0xDA530127#32, .ppre 1 5 6 9), (0xDA530128#32, .pcnt 1 5 6 9),
    (0xDA530129#32, .pany 1 5 6 9), (0xDA50012A#32, .pset 1 5 9), (0xDA50012B#32, .pclr 1 5 9),
    (0xDA50012C#32, .pgetf 1 5 9)] = true := by decide +kernel

theorem test_decode_major_2E : decodesAll [
    (0xDC531D20#32, .vslup 1 5 6 7 9), (0xDC531D21#32, .vsldn 1 5 6 7 9), (0xDC531D22#32, .vslupi 1 5 6 7 9),
    (0xDC531D23#32, .vsldni 1 5 6 7 9), (0xDC531D24#32, .vperm 1 5 6 7 9), (0xDC531C05#32, .vcomp 1 5 6 7),
    (0xDC531C06#32, .vexpd 1 5 6 7), (0xDC531D27#32, .vmerge 1 5 6 7 9), (0xDC530128#32, .vbcast 1 5 6 9),
    (0xDC531C09#32, .vextr 1 5 6 7), (0xDC531C0A#32, .vins 1 5 6 7), (0xDC53012B#32, .viota 1 5 6 9),
    (0xDC50012C#32, .vid 1 5 9)] = true := by decide +kernel

theorem test_decode_major_2F : decodesAll [
    (0xDE530120#32, .vredsum 1 5 6 9), (0xDE530121#32, .vredmin 1 5 6 9), (0xDE530122#32, .vredmax 1 5 6 9),
    (0xDE530123#32, .vfredo 1 5 6 9), (0xDE530124#32, .vfredt 1 5 6 9), (0xDE530125#32, .vfredmin 1 5 6 9),
    (0xDE530126#32, .vfredmax 1 5 6 9)] = true := by decide +kernel

theorem test_decode_major_30 : decodesAll [
    (0xE0531D20#32, .vcmul 1 5 6 7 9), (0xE0531D21#32, .vcmac 1 5 6 7 9), (0xE0531D22#32, .vcmulc 1 5 6 7 9),
    (0xE0530123#32, .vcabs2 1 5 6 9)] = true := by decide +kernel

theorem test_decode_major_31 : decodesAll [
    (0xE2531122#32, .vcvt 1 5 6 4 9 2), (0xE2531D30#32, .vscale 1 5 6 7 9), (0xE2530131#32, .vqmax 1 5 6 9)] = true := by decide +kernel

theorem test_decode_major_32 : decodesAll [
    (0xE4531D28#32, .mgp 1 5 6 7 9 1), (0xE4531D29#32, .mwdg 1 5 6 7 9 1), (0xE4531D2A#32, .mdot 1 5 6 7 9 1),
    (0xE4531D2B#32, .mlct 1 5 6 7 9 1), (0xE4531D2C#32, .mjoin 1 5 6 7 9 1), (0xE4531D2D#32, .msand 1 5 6 7 9 1),
    (0xE4531D2E#32, .mcomm 1 5 6 7 9 1)] = true := by decide +kernel

theorem test_decode_major_33 : decodesAll [
    (0xE6530128#32, .mrev 1 5 6 9 1), (0xE6530129#32, .mdual 1 5 6 9 1), (0xE6531D2A#32, .mgrd 1 5 6 7 9 1),
    (0xE653012B#32, .mnrm2 1 5 6 9 1), (0xE653012C#32, .mnrmi 1 5 6 9 1), (0xE653012D#32, .mnormz 1 5 6 9 1),
    (0xE653012E#32, .mexpb 1 5 6 9 1), (0xE653012F#32, .mlogm 1 5 6 9 1)] = true := by decide +kernel

theorem test_decode_major_34 : decodesAll [
    (0xE8530128#32, .mmov 1 5 6 9 1), (0xE8501C01#32, .msetm 1 5 7), (0xE8530002#32, .mgetm 1 5 6),
    (0xE8530003#32, .mclean 1 5 6), (0xE8531D2C#32, .mfromv 1 5 6 7 9 1), (0xE8531D25#32, .mtov 1 5 6 7 9),
    (0xE8531D2E#32, .madd 1 5 6 7 9 1), (0xE8531D2F#32, .msub 1 5 6 7 9 1)] = true := by decide +kernel

theorem test_decode_major_35 : decodesAll [
    (0xEA531D28#32, .mscal 1 5 6 7 9 1), (0xEA530129#32, .mconj 1 5 6 9 1), (0xEA53012A#32, .minvol 1 5 6 9 1)] = true := by decide +kernel

theorem test_decode_major_36 : decodesAll [
    (0xEC532F60#32, .mxac 1 5 6 11 6 1 1), (0xEC532F61#32, .mxacs 1 5 6 11 6 1 1), (0xEC500062#32, .mzero 1 5 1 1),
    (0xEC530063#32, .acld 1 5 6 1 1), (0xEC530064#32, .acst 1 5 6 1 1), (0xEC500465#32, .mchk 1 5 1 1 1)] = true := by decide +kernel

theorem test_decode_major_37 : decodesAll [
    (0xEE000003#32, .vtok 1 1 1)] = true := by decide +kernel

/-! ## WellFormed -/

theorem test_smoke_ill_formed_1 : ([
    .loop0 1 0, .loop1 1 0, .loopi0 1 0, .loopi1 1 0, .qpop 1 8, .qcnt 1 8, .qdrain 1 8, .fadd 1 1 1 2 1,
    .fsub 1 1 1 2 1, .fmul 1 1 1 2 1, .fdiv 1 1 1 2 1, .fsqrt 1 1 2 1, .fmin 1 1 1 2, .fmax 1 1 1 2, .feq 1 1 1 2,
    .flt 1 1 1 2, .fle 1 1 1 2, .fcvtfi 1 1 1 2 1, .fcvtfi 1 1 4 1 1, .fcvtif 1 1 1 2 1, .fcvtif 1 1 4 1 1,
    .fcvtff 1 1 2 1, .fclass 1 1 2, .fma 1 1 1 2 1, .amoswap 1 1 1 5 1 1, .amoadd 1 1 1 5 1 1, .amoand 1 1 1 5 1 1,
    .amoor 1 1 1 5 1 1, .amoxor 1 1 1 5 1 1, .amomin 1 1 1 5 1 1, .amomax 1 1 1 5 1 1, .amominu 1 1 1 5 1 1,
    .amomaxu 1 1 1 5 1 1, .amocas 1 1 1 5 1 1, .lda 1 1 5 1, .stl 1 1 5 1, .amofadd 1 1 1 5 1 1, .fence 5 1,
    .pfence 5 1, .pfence 1 0, .bar 0, .bar 4, .sbar 5 1 1, .sbar 1 0 1, .sbar 1 1 0, .hfree 4, .hstat 1 4,
    .hdrain 1 1 4, .stunbind 1 16, .engb 0 1 1, .hins 1 1 0 1, .hprb 1 1 0 1, .hdel 1 0 1, .hacc 1 1 0 1,
    .hamin 1 1 0 1, .hamax 1 1 0 1, .hupd 1 1 0 1, .vtxn 1 1 1 0, .boxx 1 1 1 0, .trix 1 1 1 0, .vcmpEq 1 0 1 1 1 1] : List Instr).all (fun i => !i.wellFormed) = true := by decide +kernel

theorem test_smoke_ill_formed_2 : ([
    .vcmpEq 1 1 1 1 1 3, .vcmpNe 1 0 1 1 1 1, .vcmpNe 1 1 1 1 1 3, .vcmpLt 1 0 1 1 1 1, .vcmpLt 1 1 1 1 1 3,
    .vcmpGe 1 0 1 1 1 1, .vcmpGe 1 1 1 1 1 3, .vcmpLe 1 0 1 1 1 1, .vcmpLe 1 1 1 1 1 3, .vcmpGt 1 0 1 1 1 1,
    .vcmpGt 1 1 1 1 1 3, .vcmpUn 1 0 1 1 1, .pand 1 0 1 1 1, .por 1 0 1 1 1, .pxor 1 0 1 1 1, .pandn 1 0 1 1 1,
    .pnot 1 0 1 1, .plead 1 0 1 1, .pthru 1 0 1 1, .ppre 1 0 1 1, .pcnt 1 8 1 1, .pany 1 8 1 1, .pset 1 0 1,
    .pclr 1 0 1, .pgetf 1 0 1, .vextr 1 8 1 1, .vredsum 1 8 1 1, .vredmin 1 8 1 1, .vredmax 1 8 1 1, .vfredo 1 8 1 1,
    .vfredt 1 8 1 1, .vfredmin 1 8 1 1, .vfredmax 1 8 1 1, .vcvt 1 1 1 4 1 3, .vscale 1 1 1 3 1, .vscale 1 1 1 8 1,
    .mgetm 1 8 1, .mfromv 1 1 1 0 1 1, .mtov 1 1 1 0 1, .mchk 1 8 1 1 1, .governorEvaluation 0 0 0 64 1,
    .governorEvaluation 0 9 0 64 1, .governorEvaluation 0 8 0 63 1, .governorEvaluation 0 8 0 64 3,
    .peerRequest ⟨16, 0, 0, 0, 0, .read 1⟩] : List Instr).all (fun i => !i.wellFormed) = true := by decide +kernel

/-! ## States -/

/-- A thread of partition 0 on core 0 at PC 0, with the first 256 MiB of memory as its window, changed by f. -/
def run (f : Thread → Thread) : State := (State.reset.withFetchWord 32 0).onCur f

/-- The same with scalar registers. -/
def regs (l : List (Nat × Word)) : State := run (fun t => { t with s := l })

/-- The same above ring 0. -/
def ringed (l : List (Nat × Word)) : State := run (fun t => { t with s := l, ring := 1#2 })

/-- The same with one lane group, 8 elements of 32 bits and vtype v. -/
def lanes (v : BitVec 32) (l : List (Nat × Word)) : State :=
  run (fun t => { t with s := l, conf := { t.conf with grant := 1, vl := 8, vtype := v } })

/-- An access that waits. -/
def waiting : State := run (fun t => { t with viq := [.access ⟨0, 0#8, 0#64, 0, none⟩ true false []] })

/-- A convoy of one word. -/
def oneWord (i : Instr) : Convoy :=
  ⟨0, [⟨i, 0, 0, 0, false⟩], ⟨0, 0, 0, 0, 0, 0⟩, 0, 0x14, 0, 0, 0, [], [], [], [], 0, none, false, 0, false⟩

/-- An access or a read that succeeds with a result that p holds of. -/
theorem ok_of {α : Type} {x : Except Stop α} {p : α → Bool}
    (h : (match x with | .ok b => p b | .error _ => false) = true) : ∃ b, x = .ok b ∧ p b = true := by
  cases x with
  | ok b => exact ⟨b, rfl, h⟩
  | error e => exact absurd h (by simp)

/-- The number in n bytes from byte o on. -/
def num (bs : List Byte) (o n : Nat) : Nat := leNum ((bs.drop o).take n)

/-! ## Witnesses -/

theorem witness_DecodeInvertsEncode :
    (Instr.add 31 1 2 1).hasWord = true ∧ (Instr.add 31 1 2 1).wellFormed = true ∧
    (Instr.sbar 4 255 1).hasWord = true ∧ (Instr.sbar 4 255 1).wellFormed = true := by decide +kernel

theorem witness_EncodeInvertsDecode : (decode 0x02308800#32).toOption = some (.add 3 1 2 0) := by decide +kernel

/-- The corners of R69: a divisor of 0 (s3) and the quotient that does not fit (s1 by s2). -/
theorem witness_IntegerArithmetic :
    let s := regs [(1, 0x8000000000000000), (2, 0xFFFFFFFFFFFFFFFF)]
    s.unframed ∧ sval 64 (s.readS 1) = -2 ^ 63 ∧ sval 64 (s.readS 2) = -1 ∧ sval 64 (s.readS 3) = 0 ∧
    uval 64 (s.readS 3) = 0 := ⟨rfl, by decide +kernel⟩

theorem witness_IntegerLogic : (regs [(1, 5)]).unframed := rfl

/-- The largest sum that fits, and the least that does not. -/
theorem witness_OverflowAndImmediates :
    let s := regs [(1, 0x7FFFFFFFFFFFFFFF), (2, 1)]
    s.idle ∧ s.unframed ∧ sval 64 (s.readS 1) + sval 64 (s.readS 0) = 2 ^ 63 - 1 ∧
    sval 64 (s.readS 1) + sval 64 (s.readS 2) = 2 ^ 63 ∧ sval 64 (s.readS 1) - sval 64 (s.readS 2) < 2 ^ 63 - 1 ∧
    -sval 64 (s.readS 1) - sval 64 (s.readS 2) = -2 ^ 63 := ⟨⟨rfl, rfl⟩, rfl, by decide +kernel⟩

theorem witness_BranchesAndJumps :
    let s := regs [(1, 4), (2, 2)]
    s.unframed ∧ s.idle ∧ s.readS 1 = s.readS 1 ∧ s.readS 1 ≠ s.readS 2 ∧
    (s.readS 1 + BitVec.ofInt 64 (0 : BitVec 15).toInt).toNat % 4 = 0 ∧
    (s.readS 2 + BitVec.ofInt 64 (0 : BitVec 15).toInt).toNat % 4 ≠ 0 := ⟨rfl, ⟨rfl, rfl⟩, by decide +kernel⟩

/-- A word at no loop's end; one at the end of both loops, with loop 1 in its last round; one at the end of loop 1 before that;
and one above ring 0. -/
theorem witness_HardwareLoops :
    let s := run (fun t => { t with loops := ⟨1, 0, 8, 0, 0, 0⟩ })
    let both := run (fun t => { t with loops := ⟨2, 0, 0, 1, 0, 0⟩ })
    let again := run (fun t => { t with loops := ⟨0, 0, 0, 2, 0, 0⟩ })
    s.idle ∧ s.unframed ∧ both.idle ∧ both.unframed ∧ again.unframed ∧ (ringed []).unframed ∧
    0 < (1 : BitVec 12).toInt ∧ (0 : BitVec 12).toInt ≤ 0 ∧
    s.cur.loops.lc0 ≠ 0 ∧ s.cur.loops.le0 ≠ s.cur.pc ∧ s.cur.loops.lc1 = 0 ∧
    both.cur.loops.le0 = both.cur.pc ∧ both.cur.loops.le1 = both.cur.pc ∧ both.cur.loops.lc1 = 1 ∧ 1 < both.cur.loops.lc0.toNat ∧
    again.cur.loops.le1 = again.cur.pc ∧ 1 < again.cur.loops.lc1.toNat ∧
    (ringed []).cur.ring ≠ 0 ∧ both.cur.ring = 0 ∧ both.cur.user.ls = false :=
  ⟨⟨rfl, rfl⟩, rfl, ⟨rfl, rfl⟩, rfl, rfl, rfl, by decide +kernel⟩

theorem witness_Queues :
    let s := run (fun t => { t with q := [(1, [7])] })
    let p := run (fun t => { t with viq := [.convoy (oneWord (.pcnt 0 1 1 1))] })
    s.unframed ∧ s.idle ∧ p.unframed ∧ s.cur.queue 1 = [7] ∧ s.cur.queue 2 = [] ∧ p.cur.queue 1 = [] ∧
    p.cur.producing 1 = true := ⟨rfl, ⟨rfl, rfl⟩, rfl, by decide +kernel⟩

theorem witness_ScalarFloatingPoint : (regs []).free ∧ (Instr.fma 1 2 3 1 3).wellFormed = true ∧ (Instr.fcvtfi 1 2 3 0 0).wellFormed = true :=
  ⟨⟨rfl, rfl⟩, by decide +kernel⟩

/-- A number at the top of E2M1, and twice that. -/
theorem witness_RoundOnce :
    (FV.fin false 6 1 0).rat = some 6 ∧ (FV.fin true 6 1 1).rat = some (-12) ∧ (e2m1.value e2m1.maxEnc).rat = some 6 := by
  refine ⟨by norm_num [FV.rat], by norm_num [FV.rat], ?_⟩
  rw [show e2m1.value e2m1.maxEnc = .fin false 3 1 1 by decide +kernel]
  norm_num [FV.rat]

/-- Terms of sum 0, a divisor of 0, and 0 by 0; and of the values that are not all finite, a list for each clause. -/
theorem witness_ExactArithmetic :
    let one := FV.fin false 1 1 0
    let minus := FV.fin true 1 1 0
    let zero := FV.fin true 0 1 0
    one.proper ∧ minus.proper ∧ zero.proper ∧ one.rat = some 1 ∧ minus.rat = some (-1) ∧ zero.rat = some 0 ∧
    (∀ e ∈ [(one, (1 : Rat)), (minus, -1), (zero, 0)], e.1.proper ∧ e.1.rat = some e.2) ∧
    (∃ x ∈ [one, .nan true], x.isSig = true) ∧ (FV.inf true ∈ [FV.inf true, .inf false] ∧ FV.inf false ∈ [FV.inf true, .inf false]) ∧
    (∀ x ∈ [one, .nan false], x.isSig = false) ∧ (∃ x ∈ [one, .nan false], x.isNan = true) ∧
    (∀ x ∈ [one, .inf true], x.isNan = false) ∧ FV.inf true ∈ [one, .inf true] ∧ (∀ x ∈ [one, .inf true], x.isZero = false) ∧
    FV.inf true ∈ [zero, .inf true] ∧ zero.isZero = true := by
  and_intros
  all_goals first | decide | norm_num [FV.rat, FV.proper]

/-- A negative number and ones at the ends of its formats, NaNs of both kinds, infinities, and a number that an integer of 8 bits
does not hold; types of each kind of destination, with SAT and without. -/
theorem witness_RootsAndConversions :
    (fp32.value 0x3F800000).isNan = false ∧ (fp32.value 0x7FC00000).isNan = true ∧ (fp32.value 0x7F800001).isSig = true ∧
    fp32.value 0xFF800000 = .inf true ∧ fp32.value 0x7F800000 = .inf false ∧ (fp32.value 0x80000000).isZero = true ∧
    (fp32.value 0x80000000).neg = true ∧ (fp32.value 1).notFinite = false ∧ 0x3F800000 < 2 ^ fp32.width ∧
    vtFmt 0x14 = 2 ∧ vtFmt 0x04 = 0 ∧ vtFmt 0x0C = 1 ∧ vtSat 0x80014 = false ∧ vtSew 0x14 = 32 ∧
    (fmtOf 2 16).hasNan = true ∧ (fmtOf 7 4).hasNan = false ∧ (e2m1.value e2m1.maxEnc).notFinite = false := by decide +kernel

/-- A thread with a load of bytes 8 to 11 that waits, and one with a copy to that line outstanding. -/
def held : State := run (fun t => { t with s := [(1, 8), (2, 1)], viq := [.scalar ⟨0, 0#8, 8#64, 0, none⟩ [8, 9, 10, 11] (.load 5 4 true)] })
def lined : State := { regs [(1, 8), (2, 1)] with cmds := [⟨0, ⟨0, 1, 1⟩, 0, true, 1, 1, false, none, [], 0, [], .copy [(0, 64, 64)]⟩] }

theorem witness_LoadsAndStores :
    let s := regs [(1, 8)]
    let pas := [8, 9, 10, 11, 12, 13, 14, 15]
    s.quiet ∧ s.scalarPlace .read 8 8 = .ok pas ∧ s.reachable pas = .ok () ∧ s.poisoned pas = false ∧ s.scalarPlace .write 8 1 = .ok [8] ∧
    held.free ∧ held.scalarPlace .read 8 8 = .ok pas ∧ held.cur.accessPending 0 pas = true ∧ held.scalarPlace .write 8 1 = .ok [8] ∧
    lined.free ∧ lined.scalarPlace .read 8 8 = .ok pas ∧ lined.owned 8 = true ∧ ∀ b ∈ pas, held.cutOff b = false ∧ lined.cutOff b = false ∧ targetOf b ≠ 2 :=
  ⟨⟨⟨rfl, rfl⟩, rfl⟩, rfl, rfl, rfl, rfl, ⟨rfl, rfl⟩, rfl, rfl, rfl, ⟨rfl, rfl⟩, rfl, by decide +kernel, by decide +kernel⟩

/-- A misaligned address, one above bit 51, one in the window that may not be written, and a poisoned one. -/
theorem witness_ScalarFaults :
    let s := regs [(1, 7), (2, 0x10000000000000), (3, 8)]
    let ro : State := { s with gz := [(0, ⟨0, 0, 5#3, BitVec.allOnes 128, 0⟩)] }
    let bad : State := { s with mem := { s.mem with poison := [8] } }
    s.idle ∧ (s.readS 1).toNat % 8 ≠ 0 ∧ (s.readS 2).toNat % 8 = 0 ∧ 2 ^ 52 ≤ (s.readS 2).toNat ∧ ro.idle ∧
    (ro.readS 3).toNat % 8 = 0 ∧ ro.scalar ro.cp true .write 8 8 8 = .error 7 ∧ bad.idle ∧
    bad.scalarPlace .read 8 8 = .ok [8, 9, 10, 11, 12, 13, 14, 15] ∧ bad.reachable [8, 9, 10, 11, 12, 13, 14, 15] = .ok () ∧
    bad.poisoned [8, 9, 10, 11, 12, 13, 14, 15] = true :=
  ⟨⟨rfl, rfl⟩, by decide +kernel, by decide +kernel, by decide +kernel, ⟨rfl, rfl⟩, by decide +kernel, rfl, ⟨rfl, rfl⟩,
    rfl, rfl, by decide +kernel⟩

/-- Table bytes that give every entry the value of its address's low byte: a table at 0 and leaves at 8 to 24 (X, W, R; a page of
64 KiB; no entry; a reserved bit). -/
def walkBytes (a : Nat) : Byte :=
  if a = 0 then 0x0F#8 else if a = 8 then 0x17#8 else if a = 16 then 0x57#8 else if a = 24 then 0x80#8 else 0#8

/-- The last byte of the window and the one after it, an entry for reads only and one with no sub-block resident; walks that end at
each level, and ones that fail; an address outside the window whose walk fails, and one whose page only the supervisor may read. -/
theorem witness_Translation :
    let s := run id
    let p := s.part 0
    let m := s.mem.writeAll .unit [(0x10000, 0x0F#8), (0x10002, 2#8), (0x20000, 0x1F#8)]
    let r : Part := { placePart with
      regs := { placePart.regs with ptrootF := 0x10000 }, regs2 := { placePart.regs2 with gzcount := 0 }, ptinv := [(0, 0, m.logLen)] }
    let root : State := { s with mem := m, parts := [(0, r)] }
    p.regs2.gzcount * 2 ^ 28 ≤ 2 ^ 28 ∧ 2 ^ 28 - 1 < p.regs2.gzcount * 2 ^ 28 ∧ p.regs.vwbaseF = 0 ∧
    (s.gzEntry (p.regs2.gzfirst + (2 ^ 28 - 1) / 2 ^ 28)).perm = 7#3 ∧ (s.gzEntry 0).resid.getLsbD 127 = true ∧
    p.owns (2 ^ 28 - 1) = true ∧ targetOf (2 ^ 28 - 1) = 0 ∧ targetOf (3 * 2 ^ 50) = 3 ∧ p.owns (2 ^ 28) = false ∧
    (GzEntry.mk 0 0 5#3 0 0).perm.getLsbD 1 = false ∧ (GzEntry.mk 0 0 5#3 0 0).resid.getLsbD 0 = false ∧
    (∀ q ∈ [0, 8, 16, 24], p.targetCause q = none) ∧
    (p.walk walkBytes 0x1000).result.toOption.map (fun r => r.2.1) = some 4096 ∧
    (p.walk walkBytes 0x2000).result.toOption.map (fun r => r.2.1) = some 65536 ∧
    (p.walk walkBytes 0x200000).result.toOption.map (fun r => r.2.1) = some (2 ^ 21) ∧
    (p.walk walkBytes 0x40000000).result.toOption.map (fun r => r.2.1) = some (2 ^ 30) ∧
    (p.walk walkBytes 0x3000).result.toOption = none ∧ (p.walk walkBytes 0x60000000000).result.toOption = none ∧
    p.inWindow (2 ^ 28 - 1) = true ∧ r.inWindow 64 = false ∧ (root.walkOf r (2 ^ 40)).result.toOption = none ∧
    (root.walkOf r 64).result.toOption = some (0, 2 ^ 30, ⟨true, true, true, false⟩) ∧ r.owns 64 = true ∧ r.owns (2 ^ 28) = false ∧
    ∀ e ∈ r.ptinv, e.2.2 ≤ root.mem.logLen := by decide +kernel

theorem witness_PlacesAreOwned :
    (run id).element ((run id).part 0) .read 1 0x0FFFFFFF 1 = .ok [2 ^ 28 - 1] ∧
    (run id).scalar ((run id).part 0) true .read 1 0 1 = .ok [0] ∧ (run id).scalarRange ((run id).part 0) true .read 1 1 0 = .ok [0] :=
  ⟨rfl, rfl, rfl⟩

/-- Memory at 8 holds 0, which is s3 and not s2; and an access or a command that holds an atomic back. -/
theorem witness_ScalarAtomics :
    let s := regs [(1, 8), (2, 1)]
    let pas := [8, 9, 10, 11, 12, 13, 14, 15]
    s.idle ∧ s.scalarPlace .atomic 8 8 = .ok pas ∧ s.scalarPlace .write 8 4 = .ok [8, 9, 10, 11] ∧ s.reachable pas = .ok () ∧
    s.poisoned pas = false ∧ s.readS 3 = 0 ∧ s.readS 2 ≠ 0 ∧ held.free ∧ held.scalarPlace .atomic 8 8 = .ok pas ∧
    held.cur.accessPending 0 pas = true ∧ held.cur.anyPending = true ∧ lined.free ∧ lined.scalarPlace .atomic 8 8 = .ok pas ∧
    lined.owned 8 = true ∧ ∀ b ∈ pas, held.cutOff b = false ∧ lined.cutOff b = false ∧ targetOf b ≠ 2 :=
  ⟨⟨rfl, rfl⟩, rfl, rfl, rfl, rfl, rfl, by decide +kernel, ⟨rfl, rfl⟩, rfl, rfl, rfl, ⟨rfl, rfl⟩, rfl, by decide +kernel,
    by decide +kernel⟩

/-- A waiting load, which is also a read, a store that waits, a tile read and a layer operation of the thread; and another thread of
the launch that has not arrived, and one that has. -/
theorem witness_OrderingAndBarrier :
    let tile := run (fun t => { t with viq := [.tile ⟨0, 0#8, 0#64, 0, none⟩ 32 [] []] })
    let store := run (fun t => { t with viq := [.scalar ⟨0, 0#8, 8#64, 0, none⟩ [8] (.store [1#8] false)] })
    let rel := run (fun t => { t with viq := [.scalar ⟨0, 0#8, 8#64, 0, none⟩ [8] (.store [1#8] true)] })
    let layer : State := { run id with mlq := [⟨0, 0, 0, 0, ⟨0, 1, 0⟩, [], []⟩] }
    let other := fun (b : Bars) => { placeThread with id := ⟨0, 1, 1⟩, prog := { placeThread.prog with bars := b } }
    let late : State := { run id with others := [other ⟨0, 0, 0, none⟩] }
    let met : State := { run id with others := [other ⟨0, 0, 0, some 1⟩] }
    held.free ∧ (run id).free ∧ store.free ∧ tile.free ∧ held.cur.anyPending = true ∧ held.cur.readPending = true ∧
    store.cur.anyPending = true ∧ store.cur.readPending = false ∧ rel.cur.readPending = true ∧ (run id).cur.anyPending = false ∧
    (∃ e ∈ tile.cur.viq, ∃ h w f runs, e = VEntry.tile h w f runs) ∧ (∃ o ∈ layer.mlq, o.thread = layer.cur.id) ∧
    late.idle ∧ met.idle ∧ (∀ t ∈ late.started, t.id ≠ late.cur.id → t.prog.bars.arrived = none ∧ t.prog.bars.core = 0) ∧
    (∀ t ∈ met.started, t.id ≠ met.cur.id → t.prog.bars.arrived = some 1) ∧ (late.part 0).records = [] :=
  ⟨⟨rfl, rfl⟩, ⟨rfl, rfl⟩, ⟨rfl, rfl⟩, ⟨rfl, rfl⟩, rfl, rfl, rfl, rfl, rfl, rfl, ⟨_, List.mem_singleton.2 rfl, _, _, _, _, rfl⟩,
    ⟨_, List.mem_singleton.2 rfl, rfl⟩, ⟨rfl, rfl⟩, ⟨rfl, rfl⟩, by decide +kernel⟩

/-- A register of ring 1 from ring 1 and from ring 0; a value that stkslot takes, and the next multiple, which it does not. -/
theorem witness_StatusRegisters :
    let s := ringed [(1, 16777216), (2, 16777232)]
    s.idle ∧ (run id).idle ∧ (ringed [(1, 5)]).idle ∧ held.free ∧
    (0x127#12).toNat / 256 ≤ s.cur.ring.toNat ∧ ¬ (0x127#12).toNat / 256 ≤ (run id).cur.ring.toNat ∧
    (s.readS 1).toNat % 16 = 0 ∧ (s.readS 1).toNat ≤ 16777216 ∧ ¬ (s.readS 2).toNat ≤ 16777216 ∧
    (0x127, 0#64) ∈ s.statusTable ∧ (∀ e ∈ s.statusTable, e.1 ≠ 0x7FF) ∧
    (ringed [(1, 5)]).readS 1 &&& ~~~0x01FFFF1F#64 = 0#64 ∧ held.cur.viq ≠ [] :=
  ⟨⟨rfl, rfl⟩, ⟨rfl, rfl⟩, ⟨rfl, rfl⟩, ⟨rfl, rfl⟩, by decide +kernel⟩

/-- A handler for user traps; one for ring 2 without a record, and one with; and no handler. -/
theorem witness_TrapEntry :
    let u := run (fun t => { t with user := { t.user with uhandler := 64 } })
    let h := fun (r : Word) => run (fun t => { t with rings := { t.rings with h := ⟨0, 128, 0, 0, r, 0⟩ } })
    u.cur.ring = 0 ∧ u.cur.user.ustatus.getLsbD 0 = false ∧ u.cur.user.uhandler ≠ 0 ∧ (run id).cur.user.uhandler = 0 ∧
    (h 0).cur.rings.h.handler ≠ 0 ∧ (h 0).cur.rings.h.record = 0 ∧ (h 0).cur.rings.d.handler = 0 ∧
    (h 1024).cur.rings.h.record ≠ 0 ∧
    ((h 1024).scalarRange ((h 1024).part 0) false .write 64 16 1024).toOption.isSome = true ∧
    (run id).cur.rings.d.handler = 0 ∧ (run id).cur.rings.h.handler = 0 ∧ (run id).cur.rings.m.handler = 0 := by decide +kernel

theorem witness_TrapRecordAndFrame : (List.replicate 16 0).length ≤ 16 := by decide

/-- Ring 1 that came from ring 0, ring 1 that came from ring 1, ring 0, and the user handler. -/
theorem witness_TrapsAndReturns :
    let r := fun (st : Word) => run (fun t => { t with ring := 1#2, rings := { t.rings with d := ⟨st, 0, 0, 0, 0, 0⟩ } })
    let u := run (fun t => { t with user := { t.user with ustatus := 1 } })
    (r 0).idle ∧ (r 1).idle ∧ u.idle ∧ (r 0).cur.rings.d.status.toNat % 4 < (r 0).cur.ring.toNat ∧
    (r 1).cur.ring.toNat ≤ (r 1).cur.rings.d.status.toNat % 4 ∧ u.cur.ring = 0 ∧ u.cur.user.ustatus.getLsbD 0 = true :=
  ⟨⟨rfl, rfl⟩, ⟨rfl, rfl⟩, ⟨rfl, rfl⟩, by decide +kernel⟩

/-- Events pending and none; a limit of 0, and one that is counted already. -/
theorem witness_WaitForEvent :
    let s := run (fun t => { t with prog := { t.prog with events := 8 } })
    let c : State := { regs [(1, 9)] with timers := [.wfeTimeout ⟨0, 1, 0⟩] }
    s.free ∧ (run id).free ∧ s.cur.prog.events ≠ 0 ∧ (run id).cur.prog.events = 0 ∧ (run id).readS 1 = 0 ∧ c.readS 1 ≠ 0 ∧
    Instr.wfeTimeout c.cur.id ∈ c.timers := ⟨⟨rfl, rfl⟩, ⟨rfl, rfl⟩, by decide +kernel⟩

/-- Ring 1 with one entry: all of the image, good and bad; a range one too long; an access that waits, a command that uses the entry,
and a parked staged access whose address does. -/
theorem witness_GazetteerAndTranslationRemoval :
    let s := ringed [(2, 2)]
    let bad : State := { s with mem := s.mem.write .unit 16 8 }
    let busy : State := { s with others := [{ waiting.cur with id := ⟨0, 1, 1⟩ }] }
    let used : State := { s with cmds := [⟨0, ⟨0, 1, 0⟩, 0, true, 1, 1, false, none, [0], 0, [], .copy []⟩] }
    let parked : State := { s with objects := [(0, { Objects.reset with waiters := [⟨64, 0, 0, 0, .ldt, 0, ⟨0, 1, 1⟩, 1, 8, 64, 0⟩] })] }
    s.idle ∧ busy.idle ∧ used.idle ∧ parked.idle ∧ s.cur.ring ≠ 0 ∧ s.readS 0 = 0 ∧ (s.part 0).regs2.gzcount = 1 ∧ (s.readS 2).toNat = 2 ∧
    s.partPending = false ∧ busy.partPending = true ∧ s.cmds = [] ∧ (∃ c ∈ used.cmds, c.gz = [0]) ∧
    (∃ w ∈ (parked.objs 0).waiters, (parked.part 0).inWindow w.va.toNat = true ∧ (parked.part 0).gzIndex w.va.toNat = 0) ∧
    (∃ bs, s.loadBlock 64 0 64 = .ok bs ∧ decide (num bs 16 16 < 8) = true) ∧
    ∃ bs, bad.loadBlock 64 0 64 = .ok bs ∧ decide (num bs 16 16 = 8) = true :=
  ⟨⟨rfl, rfl⟩, ⟨rfl, rfl⟩, ⟨rfl, rfl⟩, ⟨rfl, rfl⟩, by decide +kernel, rfl, rfl, rfl, rfl, rfl, rfl, by decide +kernel, by decide +kernel,
    ok_of (by decide +kernel), ok_of (by decide +kernel)⟩

/-- A core with every lane group free, and one with all of them held by another slot. -/
theorem witness_SetvlGrants :
    let full : State := { regs [(1, 8)] with cores := [(0, { Core.reset with lat := [(1, ⟨4, 255, 8, false, false⟩)] })] }
    let g := fun (s : State) => (s.core 0).evaluate 0 s.cur.conf.vtype (s.readS 1).toNat (s.readS 0).toNat
    full.unframed ∧ (regs [(1, 8)]).unframed ∧ waiting.unframed ∧ (g full).waits = true ∧ (g (regs [(1, 8)])).waits = false ∧
    (g (regs [(1, 8)])).grant ≠ 0 ∧ (regs [(1, 8)]).cur.conf.grant = 0 ∧ (regs [(1, 8)]).cur.viq = [] ∧ waiting.cur.viq ≠ [] ∧
    Instr.setvlReevaluation 0 ∉ full.inputs ∧ 0 ∉ (full.core 0).waiters :=
  ⟨rfl, rfl, rfl, by decide +kernel, by decide +kernel, by decide +kernel, rfl, rfl, by decide +kernel, by decide +kernel,
    by decide +kernel⟩

/-- Shares of two threads; a thread that gives groups up and one that gains them, alone and in pairs. -/
theorem witness_GrantEvaluation :
    let c : Core := { Core.reset with lat := [(0, ⟨4, 1, 1, false, false⟩), (1, ⟨4, 0xF0, 4, false, false⟩), (2, ⟨1, 0, 1, false, true⟩)] }
    let count := fun (m : BitVec 8) => (List.range 8).countP (fun i => m.getLsbD i)
    (3 : Nat) < 4 ∧ (List.range 4).filter (fun u =>
      decide (0 < (c.latOf u).weight) && (decide (0 < (c.latOf u).held) || (c.latOf u).wait)) = [0, 1, 2] ∧
    vtPm 0x14 = false ∧ vtPm 0x80014 = true ∧ count (c.evaluate 0 0x14 1000 8).map = 4 ∧ count (c.evaluate 1 0x14 1 8).map = 1 ∧
    count (c.evaluate 3 0x80014 1000 8).map = 2 := by decide +kernel

/-- A vtype of R52, one with a reserved bit, and one bit beyond vtype. -/
theorem witness_SetType :
    let s := regs [(1, 0x14), (2, 0x400014), (3, 0x100000000)]
    s.idle ∧ (s.readS 1).toNat < 2 ^ 32 ∧ (s.readS 1).toNat / 2 ^ 22 = 0 ∧ (s.readS 2).toNat / 2 ^ 22 ≠ 0 ∧
    2 ^ 32 ≤ (s.readS 3).toNat ∧ s.cur.conf.grant = 0 := ⟨⟨rfl, rfl⟩, by decide +kernel⟩

/-- A thread with a register of each kind in use. -/
def inUse : Thread := (run (fun t => { t with
  s := [(1, 5)]
  conf := { t.conf with tgrant := 16 }
  mat := { t.mat with tiles := [0] }
  vr := { t.vr with v := [(1, 7)], m := [(2, ⟨3, 31⟩)], tags := [(1, ⟨.dirty, 1⟩), (34, ⟨.clean, 128⟩)] } })).cur

theorem inUse_outside (n i c : Nat) (hn : n < 32) (hi : i < 64) (hc : c < 16) (h : (inUse.vr.mreg n).tag.getLsbD (gradeOf c) = false) :
    (inUse.vr.mreg n).comp i c = 0 := by
  by_cases e : n = 2
  · subst e
    exact absurd h (by rw [(by decide +kernel : ∀ c < 16, (inUse.vr.mreg 2).tag.getLsbD (gradeOf c) = true) c hc]; decide)
  · rw [(by decide +kernel : ∀ n < 32, n ≠ 2 → inUse.vr.mreg n = MvReg.zero) n hn e]
    exact (by decide +kernel : ∀ i < 64, ∀ c < 16, MvReg.zero.comp i c = 0) i hi c hc

/-- It can be saved. -/
theorem witness_ContextWords_saveable : inUse.saveable [(0, 1)] := by
  unfold Thread.saveable
  and_intros
  all_goals first
    | (intro n hn
       and_intros
       all_goals first
         | exact fun i c hi hc h => inUse_outside n i c hn hi hc h
         | (revert n; decide +kernel))
    | decide +kernel

theorem witness_ContextWords :
    let s := ringed [(1, 1024), (2, 512)]
    (run id).idle ∧ (run id).cur.ring = 0 ∧ s.idle ∧ s.cur.ring ≠ 0 ∧ (s.readS 1).toNat % 1024 = 0 ∧ (s.readS 2).toNat % 1024 ≠ 0 ∧
    s.matBusy = false ∧
    (s.place .write 8 1024 (imageBytes s.cur (s.tagsOf s.cur) (s.accOf s.cur)).length).toOption.isSome = true ∧
    ∃ hd, s.loadBlock 8 1024 64 = .ok hd ∧ decide (num hd 1 1 = s.cur.conf.grant ∧ num hd 2 1 = 0) = true :=
  ⟨⟨rfl, rfl⟩, rfl, ⟨rfl, rfl⟩, by decide +kernel, by decide +kernel, by decide +kernel, rfl, by decide +kernel,
    ok_of (by decide +kernel)⟩

/-- Memory at 1024 with an image of the model's format, whose body is good, and with one whose body ends early. -/
def imaged (n : Nat) : State :=
  let s := ringed [(1, 1024)]
  let body := (putBody s.cur [] []).take n
  let bs := List.replicate 19 0#8 ++ bytesOf 4 (8 * (8 + body.length)) ++ List.replicate 40 0#8 ++ body.flatMap (bytesOf 8)
  { s with mem := { s.mem with cells := (1024, Config.format) :: (rangeFrom 1025 bs.length).zip bs } }

theorem imaged_format (n : Nat) : (imaged n).mem.byte 1024 = Config.format := by
  simp [imaged, Mem.byte, Table.get]

theorem witness_ContextWords_known :
    (imaged 1000).idle ∧ (imaged 1000).cur.ring ≠ 0 ∧
    (imaged 1000).mem.byte 1024 = Config.format ∧ ((imaged 1000).place .read 8 1024 64).toOption = some (rangeFrom 1024 64) ∧
    (∃ hd, (imaged 1000).loadBlock 8 1024 64 = .ok hd ∧ decide (num hd 1 1 = 0 ∧ num hd 2 1 = 0 ∧
      ((imaged 1000).loadBlock 8 1024 (num hd 20 4)).toOption.any (fun im =>
        (readImage (imageWords im)).any (fun x => x.good 0 false)) = true) = true) ∧
    ∃ hd, (imaged 9).loadBlock 8 1024 64 = .ok hd ∧ decide (
      ((imaged 9).loadBlock 8 1024 (num hd 20 4)).toOption.any (fun im => (readImage (imageWords im)).isNone) = true) = true :=
  ⟨⟨rfl, rfl⟩, by decide +kernel, imaged_format 1000, by decide +kernel, ok_of (by decide +kernel), ok_of (by decide +kernel)⟩

/-- A packet of zeros is good, one with priority 8 is not; a full queue; a thread with a waiter of its priority, which may and may not be
pre-empted; a launch that runs and one that is complete; and rows with a command of theirs outstanding. -/
theorem witness_LaunchEndYield :
    let s := regs [(1, 128)]
    let bad : State := { s with mem := s.mem.write .unit 160 8 }
    let full : State := { s with parts := [(0, { placePart with queues := [(0, List.replicate 256 1)] })] }
    let next : State := { s with parts := [(0, { placePart with records := [⟨⟨0, 1, 1⟩, 0, 0, false, [], (0, 0)⟩] })] }
    let area : State := { s with parts := [(0, { next.part 0 with regs := { PartRegs.reset with ctxcount := 1 } })] }
    let k : Packet := ⟨128, 0, 0, 0, 0, 0, 0, false, false, 0, 0, 0, 0, [0, 0, 0, 0, 0, 0]⟩
    let l := fun (x : LState) => (⟨none, k, none, x, 0, false, false, false, 0, 0, []⟩ : Launch)
    let ls : State := { regs [(1, 7), (2, 8)] with parts := [(0, { placePart with nextLid := 9, launches := [(7, l .running), (8, l .complete)] })] }
    let rows : State := { run (fun t => { t with conf := { t.conf with tgrant := 16 } }) with
      cmds := [⟨0, ⟨0, 1, 0⟩, 0, false, 1, 1, false, none, [], 0, [], .acstm 0 false []⟩] }
    s.idle ∧ ls.idle ∧ rows.idle ∧ rows.active = true ∧ s.active = true ∧ s.cur.conf.tgrant = 0 ∧ s.waiterHere = false ∧
    next.waiterHere = true ∧ next.mayPreempt ⟨0, 1, 0⟩ = false ∧ area.waiterHere = true ∧ area.mayPreempt ⟨0, 1, 0⟩ = true ∧
    0 < rows.cur.conf.tgrant ∧ rows.matBusy = true ∧ (Table.get (full.part 0).queues [] 0).length = 256 ∧
    ls.cur.id.lid = 1 ∧ (((ls.part 0).launches.find? (fun e => e.1 == (ls.readS 1).toNat)).map (fun e => e.2.state.final)) = some false ∧
    (((ls.part 0).launches.find? (fun e => e.1 == (ls.readS 2).toNat)).map (fun e => e.2.state.final)) = some true ∧
    (∃ bs, s.loadBlock 64 128 128 = .ok bs ∧ decide (num bs 32 1 ≤ 7) = true) ∧
    ∃ bs, bad.loadBlock 64 128 128 = .ok bs ∧ decide (num bs 32 1 = 8) = true :=
  ⟨⟨rfl, rfl⟩, ⟨rfl, rfl⟩, ⟨rfl, rfl⟩, rfl, rfl, rfl, rfl, rfl, rfl, rfl, rfl, by decide +kernel, rfl, by decide +kernel, rfl, rfl, rfl,
    ok_of (by decide +kernel), ok_of (by decide +kernel)⟩

/-- A descriptor at 128 that is valid, with its template of zeros; a node that is active there; one whose next slot a batch holds;
one due for launch with a full queue; and 64 nodes. -/
theorem witness_CoalescingLaunch :
    let s := regs [(1, 128)]
    let desc := (rangeFrom 128 64).zip (bytesOf 8 1024 ++ bytesOf 8 4096 ++ bytesOf 4 16 ++ bytesOf 4 16 ++ bytesOf 4 4096)
    let v : State := { s with mem := s.mem.writeAll .unit desc }
    let k : Packet := ⟨1024, 0, 0, 0, 0, 0, 0, false, false, 0, 0, 0, 0, [0, 0, 0, 0, 0, 0]⟩
    let nodes := fun (l : List Node) => ({ s with objects := [(0, { Objects.reset with nodes := l })] } : State)
    let on := nodes [⟨128, k, 4096, 16, 16, 4096, 1, [⟨0, 1, none⟩], 1⟩]
    let hold := nodes [⟨128, k, 4096, 16, 16, 4096, 1, [⟨0, 2, none⟩], 1⟩]
    let wait : State := { nodes [⟨128, k, 4096, 16, 2, 4096, 1, [⟨0, 1, none⟩], 1⟩] with
      parts := [(0, { placePart with queues := [(0, List.replicate 256 1)] })] }
    let many := nodes (List.replicate 64 ⟨192, k, 4096, 16, 16, 4096, 1, [⟨0, 1, none⟩], 0⟩)
    s.idle ∧ (s.nodesOf 0) = [] ∧ (on.nodesOf 0).length = 1 ∧ on.idle ∧ hold.idle ∧ wait.idle ∧ many.idle ∧ (many.nodesOf 0).length = 64 ∧
    (hold.nodesOf 0).map (fun n => (n.next, n.batches.map (fun x => (x.start, x.count, x.lid)))) = [(1, [(0, 2, none)])] ∧
    (Table.get (wait.part 0).queues [] 0).length = 256 ∧ (wait.nodesOf 0).map (fun n => n.thresh) = [2] ∧
    (on.place .write 8 4104 8).toOption.isSome = true ∧
    (∃ bs, v.loadBlock 64 128 64 = .ok bs ∧ decide (num bs 16 4 = 16 ∧ num bs 24 4 = 4096) = true) ∧
    (∃ ts, v.loadBlock 64 1024 128 = .ok ts ∧ (packetParse 1024 ts).isSome = true) ∧
    (v.place .write 8 4096 8).toOption.isSome = true :=
  ⟨⟨rfl, rfl⟩, rfl, rfl, ⟨rfl, rfl⟩, ⟨rfl, rfl⟩, ⟨rfl, rfl⟩, ⟨rfl, rfl⟩, by decide +kernel, by decide +kernel, by decide +kernel,
    by decide +kernel, by decide +kernel, ok_of (by decide +kernel), ok_of (by decide +kernel), by decide +kernel⟩

/-- A table of 4 buckets in the thread's claim group. -/
def table : HTable := ⟨0, 1, 2, 1, 0, 0, 0, 0, 16, [], 0, false, false⟩

/-- A descriptor of HCLAIM and one of HDRAIN, before the drain and at its end; a table of the claim group; and for the HOP words a table
with no room and ACTION 1, with a key that must go on chip, one whose window is full. -/
theorem witness_HashWords :
    let s := lanes 0x1D [(1, 256)]
    let core := fun (t : HTable) (l : List (Nat × Word)) => ({ lanes 0x1D l with
      cores := [(0, { Core.reset with tables := [(0, some t)] })] } : State)
    let held := core table [(1, 256)]
    let full := (rangeFrom 0 32).map (fun j => (j, HSlot.live (BitVec.ofNat 64 (j + 100)) 0))
    let spill := fun (a n : Nat) => { (core { table with slots := full, action := a, scap := n } []) with
      cur := { (lanes 0x1D []).cur with vr := { (lanes 0x1D []).cur.vr with v := [(2, 7)], p := [(1, 1)] } } }
    let r := fun (s : State) (t : HTable) (room : Nat) => (keysOf (fun i => BitVec.ofNat 64 (s.cur.vr.elem 1 64 2 i)) [0]).foldl
      (fun r e => r.key t 0 .ins (fun _ => 0) room e.1 e.2) (⟨t.slots, [], [], [], 0, false⟩ : HRun)
    let v : State := { s with mem := s.mem.writeAll .unit ((rangeFrom 256 32).zip (bytesOf 8 0x02 ++ bytesOf 8 0 ++ bytesOf 8 4096 ++ bytesOf 8 16)) }
    let dr : State := { held with mem := held.mem.writeAll .unit ((rangeFrom 256 32).zip (bytesOf 8 4096 ++ bytesOf 8 4)) }
    let dn : State := { held with mem := held.mem.writeAll .unit ((rangeFrom 256 32).zip (bytesOf 8 4096 ++ bytesOf 4 4 ++ bytesOf 4 (3 * 2 ^ 30))) }
    s.idle ∧ held.idle ∧ (spill 1 0).idle ∧ (s.core 0).table 0 = none ∧ (held.core 0).table 0 = some table ∧ table.part = 0 ∧ table.lid = 1 ∧
    vtSew s.cur.conf.vtype = 64 ∧ (held.place .write 32 4096 0).toOption.isSome = true ∧
    (spill 1 0).cur.conf.vtype = 0x1D ∧ ((spill 1 0).core 0).table 0 = some { table with slots := full, action := 1, scap := 0 } ∧
    (r (spill 1 0) { table with slots := full } 0).recs = [] ∧ (r (spill 1 0) { table with slots := full } (2 ^ 64)).recs.length = 1 ∧
    (r (spill 1 0) table 0).recs = [] ∧ ((List.range 8).filter (fun i => ((spill 1 0).cur.vr.preg 1).getLsbD i)) = [0] ∧
    (∃ bs, v.loadBlock 32 256 32 = .ok bs ∧ decide (num bs 0 1 = 2 ∧ num bs 16 8 % 32 = 0) = true) ∧
    (∃ bs, dr.loadBlock 32 256 32 = .ok bs ∧ decide (num bs 0 8 % 32 = 0 ∧ num bs 8 4 = 4 ∧ num bs 12 4 / 2 ^ 30 = 0) = true) ∧
    ∃ bs, dn.loadBlock 32 256 32 = .ok bs ∧ decide (num bs 0 8 % 32 = 0 ∧ num bs 8 4 = 4 ∧ num bs 12 4 / 2 ^ 30 = 3) = true :=
  ⟨⟨rfl, rfl⟩, ⟨rfl, rfl⟩, ⟨rfl, rfl⟩, rfl, rfl, rfl, rfl, by decide +kernel, by decide +kernel, rfl, by decide +kernel, by decide +kernel,
    by decide +kernel, by decide +kernel, by decide +kernel, ok_of (by decide +kernel), ok_of (by decide +kernel), ok_of (by decide +kernel)⟩

/-- A window with a free first slot, with the key in it, and full of other keys. -/
theorem witness_HashKeys :
    let w := table.window 5
    w ≠ [] ∧ (∀ j ∈ w, Table.get ([] : Table HSlot) .empty j = .empty) ∧
    Table.get [(w.headD 0, HSlot.live 5 9)] .empty (w.headD 0) = .live 5 9 ∧
    (∀ j ∈ w, Table.get (w.map (fun k => (k, HSlot.live 6 0))) .empty j = .live 6 0) := by decide +kernel

/-- Class 0 with one object at 0x1000, its state byte at 0x2000, and an automaton whose codes 0 to 3 are legal, failed, parked
and illegal in state 0. -/
def staged : State :=
  { regs [(1, 0x1000), (2, 64)] with objects := [(0, { Objects.reset with
      automata := [(0, ⟨2, [(0, 0x191), (2, 0x20), (3, 0x40)]⟩)]
      classes := [(0, some ⟨0x1000, 1, 6, 0, 1, 0x2000⟩)] })] }

/-- An access of each outcome; a state byte without an entry, an owned one, a poisoned one; poisoned data; a slot whose automaton may not be
replaced and a class that may not be unbound. -/
theorem witness_StagedAccess :
    let o := staged.objs 0
    let e := fun (c : Nat) => (Table.get (o.automaton 0).table 0#16 c).toNat
    let owned : State := { staged with cmds := [⟨0, ⟨0, 1, 1⟩, 0, true, 1, 1, false, none, [], 0, [], .copy [(0x2000, 0, 1)]⟩] }
    let spoilt : State := { staged with mem := { staged.mem with poison := [0x2000, 0x1000] } }
    let beyond : State := { staged with mem := staged.mem.write .unit 0x2000 2 }
    let parked : State := { staged with objects := [(0, { o with waiters := [⟨0x1000, 0x2000, 0, 0, .ldt, 2, ⟨0, 1, 1⟩, 5, 8, 0x1000, 0⟩] })] }
    staged.idle ∧ staged.active = true ∧ staged.reachable [0x2000] = .ok () ∧ (staged.place .read 8 0x1000 8).toOption = some (rangeFrom 0x1000 8) ∧
    o.find 0x1040 = none ∧ (o.find 0x103F).isSome = true ∧
    ((o.cls 0).map (fun c => (staged.stateByte (staged.part 0) c 0).toOption)) = some (some 0x2000) ∧
    ((o.cls 0).map (fun c => (staged.stateByte (staged.part 0) { c with sarr := 0x10000000 } 0).toOption)) = some none ∧
    staged.mem.byte 0x2000 = 0 ∧ staged.cutOff 0x2000 = false ∧ staged.objectOwned o 0 0 0x2000 = false ∧ staged.poisoned [0x2000] = false ∧
    owned.objectOwned (owned.objs 0) 0 0 0x2000 = true ∧ spoilt.poisoned [0x2000] = true ∧ spoilt.poisoned (rangeFrom 0x1000 8) = true ∧
    (beyond.mem.byte 0x2000).toNat = 2 ∧ (o.automaton 0).nst = 2 ∧
    (e 0).testBit 4 = true ∧ e 0 / 2 ^ 7 % 4 = 3 ∧ e 1 = 0 ∧ e 2 / 2 ^ 5 % 4 = 1 ∧ e 3 / 2 ^ 5 % 4 = 2 ∧ o.waiters = [] ∧
    staged.unitFull 0x2000 = false ∧ (staged.loadBlock 64 64 512).toOption.isSome = true ∧
    (staged.loadBlock 64 64 64).toOption.isSome = true ∧ o.cls 1 = none ∧ o.cls 0 ≠ none ∧
    (∃ w ∈ (parked.objs 0).waiters, w.cls = 0 ∧ ((parked.objs 0).cls 0).map (fun c => c.slot) = some 0) :=
  ⟨⟨rfl, rfl⟩, rfl, rfl, by decide +kernel⟩

/-- A waiter of each outcome, and a gate; the state byte where it was. -/
theorem witness_StagedAccess_handOff :
    let w := fun (k : StKind) (c : Nat) => (⟨0x1000, 0x2000, 0, 0, k, c, ⟨0, 1, 1⟩, 5, 8, 0x1000, 0⟩ : Waiter)
    let on := fun (x : Waiter) => ({ staged with objects := [(0, { staged.objs 0 with waiters := [x] })] } : State)
    let e := fun (x : Waiter) => (Table.get ((on x).objs 0 |>.automaton 0).table 0#16 x.code).toNat
    let none_ : State := { on (w .ldt 0) with mem := (on (w .ldt 0)).mem.write .unit 0x2000 2 }
    (staged.objs 0).waitersOf 0 0 = [] ∧ ((on (w .ldt 2)).objs 0).waitersOf 0 0 = [w .ldt 2] ∧ e (w .ldt 2) / 2 ^ 5 % 4 = 1 ∧
    (e (w .ldt 2)).testBit 4 = false ∧ (e (w .gate 1)).testBit 4 = false ∧ e (w .gate 1) / 2 ^ 5 % 4 = 0 ∧ e (w .stt 3) / 2 ^ 5 % 4 = 2 ∧
    (e (w .stt 0)).testBit 4 = true ∧ (e (w .stt 0)).testBit 8 = true ∧ (e (w .ldt 0)).testBit 7 = true ∧ (w .ldt 0).sb = 0x2000 ∧
    (none_.mem.byte 0x2000).toNat = 2 ∧ ((none_.objs 0).automaton 0).nst = 2 ∧ (on (w .ldt 0)).poisoned (rangeFrom 0x1000 8) = false := by
  decide +kernel

/-- 64 bytes at agent scope, without tokens; a W bit without a token, an S bit without room; a command word with no scope; an address
outside the window, one that the partition does not own; an ENGB command that is valid, and one of zeros, which is not; commands
outstanding and an error pending. -/
theorem witness_EngineWords :
    let s := regs [(1, 0x100000040), (2, 0x40), (3, 128)]
    let full := run (fun t => { t with tok := { t.tok with lsvx := 16 } })
    let far : State := { s with gz := [(0, ⟨2 ^ 28, 2 ^ 28, 7#3, BitVec.allOnes 128, 0⟩)] }
    let eb := run (fun t => { t with
      conf := { t.conf with grant := 1, vl := 1, vtype := 0x1D }, vr := { t.vr with p := [(1, 1)], v := [(4, 2 ^ 168 + 2 ^ 128 * 8 + 2 ^ 64 * 64 + 256)] } })
    let open_ : State := { s with cmds := [⟨0, ⟨0, 1, 0⟩, 0, true, 5, 1, false, none, [], 0, [], .copy []⟩] }
    let bad := run (fun t => { t with prog := { t.prog with errors := [5] } })
    s.idle ∧ full.idle ∧ far.idle ∧ eb.idle ∧ open_.idle ∧ bad.idle ∧ (s.readS 1).toNat / 2 ^ 32 % 8 = 1 ∧ (s.readS 2).toNat / 2 ^ 32 % 8 = 0 ∧
    s.cur.tok.get .vxls = 0 ∧ full.reserved .lsvx = 16 ∧ s.tokenCheck 0 0 0 = .ok () ∧ s.engReady true 1 0 0 0 = .ok () ∧
    (s.scan (some 128) 0 64 0).2 = none ∧ (s.scan (some 0xFFFFFFF) 0x10000000 64 0).1 = [] ∧
    (s.scan none 0xFFFFFFC 64 0).1.length = 4 ∧ ((far.scan (some 128) 0 64 0).2.map (fun e => e.1)) = some 0x20 ∧
    s.cur.prog.errors = [] ∧ s.cmds = [] ∧ engbValid (eb.engbBits 4 0) = true ∧ engbValid (eb.engbBits 8 0) = false ∧
    (eb.engbPlan 4 0).fault = none ∧ eb.engReady true 1 0 1 1 = .ok () ∧ (∃ c ∈ open_.cmds, c.tag = 5) ∧ bad.cur.prog.errors = [5] :=
  ⟨⟨rfl, rfl⟩, ⟨rfl, rfl⟩, ⟨rfl, rfl⟩, ⟨rfl, rfl⟩, ⟨rfl, rfl⟩, ⟨rfl, rfl⟩, by decide +kernel, by decide +kernel, by decide +kernel,
    by decide +kernel, rfl, rfl, by decide +kernel, by decide +kernel, by decide +kernel, by decide +kernel, rfl, rfl, by decide +kernel,
    by decide +kernel, by decide +kernel, rfl, by decide +kernel, rfl⟩

/-- A header of zeros at 64, a misaligned one, one outside the window, a poisoned one, one that is not valid and one of two pages; rows,
some in use; a request that changes nothing, one that waits, one that gives up. -/
theorem witness_MatrixEngineWords :
    let s := regs [(1, 0x100000000), (2, 64), (3, 65), (4, 0x10000000), (5, 0x0FFFFFC0)]
    let path := fun (s : State) => leNum (s.readPath .tile s.cur.prog.fences s.cur.id (2 ^ 54) (rangeFrom 64 64))
    let spoilt : State := { s with mem := { s.mem with poison := [70] } }
    let hdr := fun (b : Byte) => ({ s with mem := { s.mem with cells := [(64, b)] } } : State)
    let rows := run (fun t => { t with conf := { t.conf with grant := 1, tgrant := 16 } })
    let busy : State := { rows with cmds := [⟨0, ⟨0, 1, 0⟩, 0, false, 1, 1, false, none, [], 0, [], .acstm 0 false []⟩] }
    s.idle ∧ rows.idle ∧ busy.idle ∧ s.reachable (rangeFrom 64 64) = .ok () ∧ s.tokenCheck 0 0 0 = .ok () ∧
    s.engReady false 1 0 0 0 = .ok () ∧ (s.readS 1).toNat / 2 ^ 32 % 8 = 1 ∧ (s.readS 1).toNat % 2 ^ 32 = 0 ∧ (s.readS 2).toNat % 64 = 0 ∧
    (s.readS 3).toNat % 64 ≠ 0 ∧ (s.readS 4).toNat % 64 = 0 ∧ (s.range .read 64 64 0).2 = none ∧ (s.range .read 64 64 0).1 = rangeFrom 64 64 ∧
    (s.range .read 0x10000000 64 0).2.isSome = true ∧ (s.range .read 0x0FFFFFC0 64 0).2 = none ∧
    (s.range .read 0x10000000 (wBytes 7) 0).2.isSome = true ∧ spoilt.poisoned (rangeFrom 64 64) = true ∧
    path s = 0 ∧ path (hdr 9#8) = 9 ∧ path (hdr 7#8) = 7 ∧ wPages 0 = 2 ∧ wPages 7 = 1 ∧ (s.range .read 128 (wBytes 7) 0).2 = none ∧
    s.cur.conf.tgrant = 0 ∧ s.matBusy = false ∧ rows.cur.conf.tgrant = 16 ∧
    rows.matBusy = false ∧ busy.matBusy = true ∧ (rows.tileRows .read 64 128 128 16 0).2 = none ∧
    (rows.tileRows .read 0x0FFFFFC0 128 128 16 0).2.isSome = true ∧ (s.quad 0).rowcap = 64 :=
  ⟨⟨rfl, rfl⟩, ⟨rfl, rfl⟩, ⟨rfl, rfl⟩, rfl, rfl, rfl, by decide +kernel⟩

/-- Eight elements of 32 bits at 64, and eight of which the last two lie beyond the window, and eight that all do; an index group and
none; one that meets the data group; a base off a multiple of 4. -/
theorem witness_VectorTransfers :
    let s := lanes 0x04 [(1, 64), (2, 0x0FFFFFE8), (3, 65)]
    let es := fun (x : Word) => (s.actives 0 8).map (streamElem s 1 0 x)
    s.idle ∧ s.open true (es 64) ∧ s.open true (s.performed true true (es 0x0FFFFFE8)) ∧ (es 64).filter (s.faults true) = [] ∧
    ((es 0x0FFFFFE8).filter (s.faults true)).map VElem.i = [6, 7] ∧ (es 0x0FFFFFE8).head?.map (s.faults true) = some false ∧
    (es 0x10000000).head?.map (s.faults true) = some true ∧ (es 64).length = 8 ∧ vtSew 0x04 = 32 ∧ vtSew 0x00 = 4 ∧ vtSew 0x05 = 64 ∧
    (indexGroup s 3).isSome = true ∧ (indexGroup s 3).map (fun ix => (meet (vGroup 1 4) ix, meet (vGroup 1 3) ix)) = some (false, true) ∧
    indexGroup (lanes 0x380 []) 3 = none ∧ (s.readS 1).toNat % 4 = 0 ∧ (s.readS 3).toNat % 4 ≠ 0 ∧ s.actives 0 (min 8 8) ≠ [] ∧
    s.actives 1 8 = [] ∧ s.cmds = [] ∧ s.mem.poison = [] :=
  ⟨⟨rfl, rfl⟩, by unfold State.open; decide +kernel, by unfold State.open; decide +kernel, by decide +kernel⟩

/-- A block of 2 by 2 by 2 elements at 0; one that leaves the window; one whose first two elements have been passed; and a width below a
byte. -/
theorem witness_VectorBlocks :
    let block := fun (l : List (Nat × Word)) (r : Bool) (k : Table Nat) => run (fun t => { t with
      s := l, conf := { t.conf with grant := 1, vl := 8, vtype := 0x04, counters := k }, dims := ⟨2, 2, 2, 4, 8, 16, 0, 0, 0⟩
      prog := { t.prog with reissue := r } })
    let s := block [] false []
    let far := block [(1, 0x0FFFFFE8)] false []
    let again := block [] true [(0, 2)]
    let at_ := fun (x : Word) (e : Nat) => plainElem s 2 e (x + BitVec.ofNat 64 (4 * e))
    s.idle ∧ far.idle ∧ again.idle ∧ s.open true ((List.range 8).map (at_ 0)) ∧ s.cur.prog.reissue = false ∧ again.cur.prog.reissue = true ∧
    Table.get again.cur.conf.counters 0 0 = 2 ∧ vtSew s.cur.conf.vtype = 32 ∧ vtSew (lanes 0x00 []).cur.conf.vtype < 8 ∧
    ((List.range 8).map (at_ 0)).filter (s.faults true) = [] ∧
    (((List.range 8).map (at_ 0x0FFFFFE8)).filter (far.faults true)).map VElem.i = [6, 7] ∧ s.cmds = [] :=
  ⟨⟨rfl, rfl⟩, ⟨rfl, rfl⟩, ⟨rfl, rfl⟩, by unfold State.open; decide +kernel, by decide +kernel⟩

theorem witness_ElementsMove :
    let s := lanes 0x04 []
    let pas := fun (i : Nat) => rangeFrom (64 + 4 * i) 4
    (1 : Nat) ≤ 8 ∧ (8 : Nat) ≤ 8 ∧ 32 ∈ [4, 6, 8, 16, 32, 64] ∧ ([(0, 1), (32 * (8 * (2048 / 64)) - 1, 2)].map Prod.fst).Nodup ∧
    ([(0, true), (4095, false)].map Prod.fst).Nodup ∧ ([(0, 15, 1), (63, 0, 2)].map (fun (e : Nat × Nat × Nat) => (e.1, e.2.1))).Nodup ∧
    vtSew s.cur.conf.vtype = 32 ∧ s.cur.conf.grant = 1 ∧ ([0, 7] : List Nat).Nodup ∧
    (∀ i ∈ [0, 7], (pas i).length = (streamElem s 1 0 64 i).n) ∧ ((List.range 8).flatMap pas).Nodup := by decide +kernel

theorem witness_ScratchpadAndVectorAtomics :
    let s := lanes 0x04 [(1, 0), (2, 1), (3, 131072), (4, 64), (5, 0x10000000)]
    let es := fun (x : Word) => (s.actives 0 8).map (fun i => plainElem s 2 i (x + s.sindex 3 i))
    s.idle ∧ 8 ≤ vtSew s.cur.conf.vtype ∧ (s.readS 1).toNat % 4 = 0 ∧ (s.readS 2).toNat % 4 ≠ 0 ∧ vtSew 0x00 < 8 ∧ vtSew 0x04 = 32 ∧
    (s.core 0).spadSize < (s.readS 3).toNat + 4 ∧ (indexGroup s 3).isSome = true ∧ indexGroup (lanes 0x380 []) 3 = none ∧
    vtFmt s.cur.conf.vtype = 0 ∧ vtFmt 0x14 = 2 ∧ (indexGroup s 3).map (meet (vGroup 1 3)) = some true ∧
    ((es 64).map (fun e => (s.element s.cp .atomic e.al e.ea e.n).toOption.isSome)).all id = true ∧
    ((es 0x10000000).map (fun e => (s.element s.cp .atomic e.al e.ea e.n).toOption.isSome)).all (!·) = true ∧ s.cmds = [] ∧
    s.mem.poison = [] := ⟨⟨rfl, rfl⟩, by decide +kernel⟩

/-- Indices of 32 bits beside 32-bit elements, and of 64 bits beside 4-bit elements in groups of 8, which make no group; a run that waits,
and one with a fault. -/
theorem witness_VectorTransition :
    let s := lanes 0x04 []
    let w := lanes 0x380 []
    let on : State := { staged with cur := { staged.cur with conf := { staged.cur.conf with grant := 1, vl := 1, vtype := 0x04 } } }
    let owned : State := { on with cmds := [⟨0, ⟨0, 1, 1⟩, 0, true, 1, 1, false, none, [], 0, [], .copy [(0x2000, 0, 1)]⟩] }
    let r := fun (s : State) (x : Word) => [0].foldl (fun (r : VtxnRun) i => r.elem 0 i (x + s.sindex 3 i)) ⟨[], none, none, [], none, s⟩
    s.idle ∧ (indexGroup s 3).isSome = true ∧ w.idle ∧ indexGroup w 3 = none ∧ s.actives 1 0 = [] ∧ s.actives 0 8 ≠ [] ∧ on.idle ∧
    owned.idle ∧ on.actives 0 1 = [0] ∧ (r on 0x1000).waits = none ∧ (r on 0x1000).faults = [] ∧
    (r on 0x4000).faults.map (fun f => f.2.1) = [0x0F] ∧ (r owned 0x1000).waits ≠ none :=
  ⟨⟨rfl, rfl⟩, by decide +kernel, ⟨rfl, rfl⟩, by decide +kernel, by decide +kernel, by decide +kernel, ⟨rfl, rfl⟩, ⟨rfl, rfl⟩,
    by decide +kernel⟩

/-- One element of VTXN: an address outside the window, one in no class, a state byte that does not translate, an owned one, a poisoned one,
one without an entry, and entries that are legal and not. -/
theorem witness_VectorTransition_element :
    let o := staged.objs 0
    let owned : State := { staged with cmds := [⟨0, ⟨0, 1, 1⟩, 0, true, 1, 1, false, none, [], 0, [], .copy [(0x2000, 0, 1)]⟩] }
    let spoilt : State := { staged with mem := { staged.mem with poison := [0x2000] } }
    let e := fun (c : Nat) => (Table.get (o.automaton 0).table 0#16 c).toNat
    (0 : Nat) < 16 ∧ (staged.element staged.cp .read 1 0x10000000 1).toOption = none ∧
    (staged.element staged.cp .read 1 0x1000 1).toOption = some [0x1000] ∧ (staged.element staged.cp .read 1 0x4000 1).toOption = some [0x4000] ∧
    o.find 0x4000 = none ∧ (o.find 0x1000).map (fun x => (x.1, x.2.2)) = some (0, 0) ∧
    ((o.cls 0).map (fun c => (staged.stateByte staged.cp { c with sarr := 0x10000000 } 0).toOption)) = some none ∧
    ((o.cls 0).map (fun c => (staged.stateByte staged.cp c 0).toOption)) = some (some 0x2000) ∧ staged.cutOff 0x2000 = false ∧
    staged.objectOwned o 0 0 0x2000 = false ∧ owned.objectOwned (owned.objs 0) 0 0 0x2000 = true ∧ spoilt.poisoned [0x2000] = true ∧
    (staged.mem.byte 0x2000).toNat < (o.automaton 0).nst ∧ ((o.automaton 0).nst ≤ 2) ∧ (e 0).testBit 4 = true ∧ (e 2).testBit 4 = false := by
  decide +kernel

theorem witness_RayTests :
    let s := lanes 0x14 []
    let far := run (fun t => { t with conf := { t.conf with grant := 1, vl := 1, vtype := 0x14 }, vr := { t.vr with p := [(1, 1)], v := [(4, 2 ^ 28)] } })
    let e := fun (s : State) => VElem.mk 0 (BitVec.ofNat 64 (s.cur.vr.elem 1 64 4 0)) 4 24 []
    s.idle ∧ far.idle ∧ s.open true [e s] ∧ vtSew s.cur.conf.vtype = 32 ∧ vtLmul s.cur.conf.vtype = 1 ∧ (1 : BitVec 5) ≠ 0 ∧ vtSew 0x15 ≠ 32 ∧
    far.actives 1 1 = [0] ∧ s.faults true (e s) = false ∧ far.faults true (e far) = true ∧ s.cmds = [] :=
  ⟨⟨rfl, rfl⟩, ⟨rfl, rfl⟩, by unfold State.open; decide +kernel, by decide +kernel⟩

/-- A descriptor at 64 of a target of 8 by 8 pixels, and one of zeros, which has no height; a target configured as it says, with more
pages and otherwise; a range that is read-only; an operation that waits; and an insertion with and without a node. -/
theorem witness_LayersAndTargets :
    let s := lanes 0x04 [(1, 64), (2, 128)]
    let d := bytesOf 8 0x0001000100080008 ++ bytesOf 8 4096 ++ bytesOf 8 8192 ++ bytesOf 4 1
    let v : State := { s with mem := s.mem.writeAll .unit ((rangeFrom 64 28).zip d) }
    let to_ := fun (t : Target) => ({ v with objects := [(0, { Objects.reset with targets := [(1, some t)] })] } : State)
    let ro : State := { v with gz := [(0, ⟨0, 0, 5#3, BitVec.allOnes 128, 0⟩)] }
    let off : State := { v with mem := v.mem.write .unit 64 0, mlq := [⟨0, 0, 1, 0, ⟨0, 1, 1⟩, [], []⟩] }
    let one : State := { to_ ⟨8, 8, 1, 0, 4096, 8192, 1, [0]⟩ with cur := { s.cur with conf := { s.cur.conf with vl := 1 }, vr := { s.cur.vr with p := [(1, 1)], v := [(2, 2 ^ 30)] } } }
    let dry : State := { one with objects := [(0, { Objects.reset with targets := [(1, some ⟨8, 8, 1, 0, 4096, 8192, 1, []⟩)] })] }
    let send := fun (s : State) => sendAll 2 false (fun _ => 0) (fun _ i s n t px => insertSteps 4 i s n t px) .mlInsertion [0] s
    s.idle ∧ v.idle ∧ ro.idle ∧ off.idle ∧ one.idle ∧ dry.idle ∧
    (∃ bs, v.loadBlock 64 64 64 = .ok bs ∧ decide (num bs 0 2 = 8 ∧ num bs 24 4 = 1 ∧ num bs 6 1 = 1) = true) ∧
    (∃ bs, off.loadBlock 64 64 64 = .ok bs ∧ decide (num bs 0 2 = 0) = true) ∧
    (∃ bs, v.loadBlock 64 128 64 = .ok bs ∧ decide (num bs 2 2 = 0) = true) ∧
    vtSew s.cur.conf.vtype = 32 ∧ vtLmul s.cur.conf.vtype = 1 ∧ vtSew 0x05 ≠ 32 ∧ v.mlq = [] ∧ off.mlq.any (fun o => decide (o.thread = off.cur.id)) = false ∧
    off.mlq.any (fun o => decide (o.part = 0) && decide (o.target = 1)) = true ∧
    (v.part 0).windowHolds (4096, 256) = true ∧ (v.part 0).windowHolds (8192, 4096) = true ∧ (send one).isSome = true ∧ (send dry).isNone = true ∧
    ((one.objs 0).target 1).map (fun t => t.undrawn) = some [0] ∧ ((dry.objs 0).target 1).map (fun t => t.undrawn) = some [] ∧
    Table.get (one.core 0).freeNodes [] 1 = [] ∧ one.actives 1 1 = [0] ∧
    v.rangeBad 4096 256 = none ∧ (ro.rangeBad 4096 256).isSome = true ∧ (v.objs 0).target 1 = none ∧
    ((to_ ⟨8, 8, 1, 0, 4096, 8192, 2, []⟩).objs 0).target 1 = some ⟨8, 8, 1, 0, 4096, 8192, 2, []⟩ :=
  ⟨⟨rfl, rfl⟩, ⟨rfl, rfl⟩, ⟨rfl, rfl⟩, ⟨rfl, rfl⟩, ⟨rfl, rfl⟩, ⟨rfl, rfl⟩, ok_of (by decide +kernel), ok_of (by decide +kernel),
    ok_of (by decide +kernel), by decide +kernel⟩

/-- No convoy; one with two members, one with three, and one that two members may not join; and three additions into a convoy of four. -/
theorem witness_ConvoyFraming :
    let m : Member := ⟨.vadd 1 1 2 3 0, 0, 0, 0, false⟩
    let s := fun (l : List Member) => run (fun t => { t with
      conf := { t.conf with vtype := 0x04 }, framing := some { oneWord (.vid 1 1 0) with members := l } })
    let regs : List (BitVec 5 × BitVec 5 × BitVec 5 × BitVec 5) := [(1, 10, 11, 0), (2, 12, 13, 0), (3, 14, 15, 0)]
    let of_ := regs.map (fun r => (⟨.vadd 1#1 r.1 r.2.1 r.2.2.1 r.2.2.2, 0#64, 0#64, 0#4096, false⟩ : Member))
    (run id).cur.viq = [] ∧ (run id).cur.framing = none ∧ vtFmt (s []).cur.conf.vtype ≤ 1 ∧ (s []).cur.viq = [] ∧
    (s [m, m]).cur.framing.map (fun v => v.members.length) = some 2 ∧
    (s [m, m, m]).cur.framing.map (fun v => v.members.length) = some 3 ∧
    (s [⟨.vadd 1 2 2 3 0, 0, 0, 0, false⟩]).cur.framing.map (fun v => v.members.length) = some 1 ∧
    (s of_).cur.framing.map (fun v => decide (v.members = of_ ∧ v.bad = false ∧ v.done = 0 ∧ v.pushes = [] ∧ v.late = 0)) = some true ∧
    ((regs ++ [(4, 16, 17, 0)]).all (fun (q : BitVec 5 × BitVec 5 × BitVec 5 × BitVec 5) =>
      !((regs ++ [(4, 16, 17, 0)]).flatMap (fun (r : BitVec 5 × BitVec 5 × BitVec 5 × BitVec 5) => [r.2.1, r.2.2.1])).contains q.1)) = true ∧
    vtLmul 0x04 = 1 := by decide +kernel

/-- Words of either side inside a convoy, of which one fails its checks; words that read what they write, and one that does not. -/
theorem witness_ConvoyFraming_words :
    let s := run (fun t => { t with
      conf := { t.conf with vtype := 0x04 }, framing := some { oneWord (.vid 1 1 0) with members := [⟨.vadd 1 1 2 3 0, 0, 0, 0, false⟩] } })
    let word := fun (i : Instr) => s.esideWord i
    let meets := fun (i : Instr) => decide (∃ k ∈ eWrites 0x04 0 0 i, k ∈ eReads 0x04 0 0 i)
    word (.addi 1 2 3) = none ∧ (Instr.addi 1 2 3).hasWord = true ∧ word (.vfadd 1 1 2 3 0) = some (1, 0, 0, false) ∧
    word (.vadd 1 1 2 3 0) = some (1, 0, 0, true) ∧ word (.vadd 0 1 2 3 0) = some (0, 0, 0, true) ∧ word (.mzero 0 1 0 0) = some (0, 0, 0, true) ∧
    needsRows (.mzero 0 1 0 0) = true ∧ s.cur.conf.tgrant = 0 ∧ meets (.pcnt 1 1 1 0) = true ∧ meets (.pand 1 1 1 2 0) = true ∧
    meets (.mgp 1 1 1 2 0 0) = true ∧ meets (.vadd 1 1 2 3 0) = false ∧ (tokensOf (.vadd 1 1 2 3 0)).1 = false := by decide +kernel

theorem witness_VectorInteger :
    (lanes 0x04 []).idle ∧ vtFmt 0x04 ≤ 1 ∧ vtFmt 0x0C ≤ 1 ∧ 1 < vtFmt 0x14 := ⟨⟨rfl, rfl⟩, by decide +kernel⟩

theorem witness_VectorFloatAndConversion :
    (lanes 0x14 []).idle ∧ vtFmt 0x14 = 2 ∧ vtFmt 0x1B = 3 ∧ vtFmt 0x04 = 0 ∧ vtFmt 0x45 = 8 ∧ vtSew 0x45 = 64 ∧
    vcvtLegal 0x14 1 2 3 2 = true ∧ vscaleLegal 0x14 1 2 = true ∧ vqmaxLegal 0x14 1 2 = true :=
  ⟨⟨rfl, rfl⟩, by decide +kernel⟩

theorem witness_PredicateWords :
    (lanes 0x14 []).idle ∧ (2 : BitVec 2) ≠ 3 ∧ ((lanes 0x14 []).cur.queue 1).length < 16 := ⟨⟨rfl, rfl⟩, by decide +kernel⟩

/-- A queue with room, and a full one. -/
theorem witness_PermutesAndReductions :
    let s := run (fun t => { t with q := [(1, List.replicate 16 0)] })
    s.idle ∧ (s.cur.queue 1).length = 16 ∧ (s.cur.queue 2).length < 16 ∧ (0 : Nat) ≤ 2 ^ 0 ∧ vtFmt 0x14 = 2 ∧ vtFmt 0x04 ≤ 1 :=
  ⟨⟨rfl, rfl⟩, by decide +kernel⟩

/-- A tag that holds every grade, one that holds none, and no active element. -/
theorem witness_MultivectorAlgebra :
    let s := run (fun t => { t with
      conf := { t.conf with grant := 1, vl := 8 }, vr := { t.vr with m := [(1, ⟨0, 31⟩), (2, ⟨0, 4⟩)] } })
    s.idle ∧ s.activeIn 0 8 ≠ [] ∧ s.activeIn 1 8 = [] ∧ (s.cur.vr.mreg 1).tag = 31 ∧ (s.cur.vr.mreg 2).tag = 4 ∧
    (s.cur.vr.mreg 3).tag = 0 ∧ (run id).cur.conf.grant = 0 := ⟨⟨rfl, rfl⟩, by decide +kernel⟩

/-- The components that MNORMZ, MEXPB and MLOGM tell apart: zero, one, minus one, an infinity and a NaN, and what a norm over them is;
tags that MEXPB and MLOGM take and ones they do not. -/
theorem witness_MultivectorAlgebra_roots :
    let z := fp32.value 0
    let one := fp32.value 0x3F800000
    ((fp32.value 0x7FC00000).isNan = true ∧ (fp32.value 0x7F800001).isSig = true ∧ (fp32.value 0x7F800000).notFinite = true ∧
      (fp32.value 0x7F800000).isNan = false ∧ one.notFinite = false ∧ z.isZero = true ∧ one.isZero = false ∧
      (4#5 : BitVec 5) &&& 0b01010#5 = 0#5 ∧ (2#5 : BitVec 5) &&& 0b01010#5 ≠ 0#5 ∧ (31 : BitVec 5) ≠ 0#5 ∧ (31 : BitVec 5) ≠ 4#5) ∧
    z.real = 0 ∧ one.real = 1 ∧ (fp32.value 0xBF800000).real < 0 ∧
    (∃ l : ℝ, 0 ≤ l ∧ l < Real.pi ∧ 1 * Real.cos l = one.real ∧ 1 * Real.sin l = z.real) := by
  have hz : (fp32.value 0).real = 0 := by
    rw [(by decide +kernel : fp32.value 0 = .fin false 0 1 (-149))]
    simp [FV.real]
  have h1 : (fp32.value 0x3F800000).real = 1 := by
    rw [(by decide +kernel : fp32.value 0x3F800000 = .fin false 8388608 1 (-23))]
    norm_num [FV.real, zpow_neg]
  have hm : (fp32.value 0xBF800000).real < 0 := by
    rw [(by decide +kernel : fp32.value 0xBF800000 = .fin true 8388608 1 (-23))]
    norm_num [FV.real, zpow_neg]
  exact ⟨by decide +kernel, hz, h1, hm, 0, le_refl 0, Real.pi_pos, by simp [h1], by simp [hz]⟩

/-- A thread with 16 rows and one with none; a full and an empty token FIFO, a full and an empty queue, and a tile that a transfer holds. -/
theorem witness_MatrixWords :
    let s := run (fun t => { t with
      conf := { t.conf with grant := 2, tgrant := 16 }, tok := ⟨0, 16, 1, 0⟩, q := [(1, List.replicate 16 0)] })
    let slot : WSlot := { WSlot.empty with state := .ready, format := 1 }
    s.idle ∧ s.cur.conf.tgrant ≠ 0 ∧ (run id).cur.conf.tgrant = 0 ∧ s.cur.recorded = [] ∧ s.cur.tok.vxls = 16 ∧
    (s.cur.queue 1).length = 16 ∧ (s.cur.queue 2).length = 0 ∧ (run (fun t => { t with mat := { t.mat with tiles := [1] } })).tileHeld [2] = false ∧
    s.tileHeld [1] = false ∧ moveLegal s.cur.conf.vtype 2 16 1 0 = true ∧ moveLegal 0x04 2 16 1 0 = false ∧
    (Table.get (s.quad 0).slots WSlot.empty 0).state = .empty ∧
    mxacLegal false s.cur.conf.vtype 2 16 1 = true ∧ s.cur.mat.chk = false ∧ slot.layout = vtBl s.cur.conf.vtype ∧ slot.layout ≠ vtBl 0x100014#32 ∧
    some (wClass slot.format) = aClass s.cur.conf.vtype ∧ wClass 4 ≠ wClass slot.format ∧
    mxacLegal true 0x22#32 2 16 1 = true ∧ some (wClass 4) = aClass 0x22#32 := ⟨⟨rfl, rfl⟩, by decide +kernel⟩

/-- Checksum mode with a row of ones on a slot of zeros: with its own checksum column the row passes, and the hardware may err once
or twice; with a column that is not its own it fails. -/
theorem witness_MatrixWords_checked :
    let m := fun (slot : WSlot) (flaws : List Bool) =>
      let s0 := run (fun t => { t with
        conf := { t.conf with grant := 2, tgrant := 1 }
        mat := { t.mat with chk := true }
        vr := { t.vr with v := [(0, BitVec.ofNat 16384 0x3F800000)] } })
      let s : State := { s0.setQuad 0 { s0.quad 0 with slots := [(0, slot)] } with flaws := flaws }
      let v := { Convoy.open s.cur with vtype := s.cur.conf.vtype, grant := 2, tgrant := 1 }
      match mxacEff false v ⟨.mxac 0 0 0 0 0 0 0, 0, 0, 0, true⟩ 0 0 0 0 s with
      | .after x _ => (x.cause, 0, 0)
      | .done u => (0, u.cur.mat.redo.toNat, u.cur.mat.unchk.toNat)
      | _ => (1, 0, 0)
    let own : WSlot := { WSlot.empty with state := .ready, format := 1, flag := true, cks := [0], dks := [0] }
    m own [true] = (0, 1, 0) ∧ ([true, true].drop 1).headD false = true ∧ m { own with cks := [0x3F800000#64] } [] = (0x30, 0, 0) := by decide +kernel

/-- A thread that may be pre-empted, one that may not, a saved thread, and a record that can start. -/
theorem witness_ThreadEvents :
    let s := run id
    let t := s.cur.id
    let l : Launch := ⟨none, ⟨0x100, 0x200, 0, 0, 0, 3, 1, false, false, 0, 0, 0, 0, []⟩, some ⟨0x1000, 0, 1, 0, 0, []⟩, .running, 0, false, false, false, 0, 1, []⟩
    let p : State := { s with parts := [(0, { placePart with regs := { PartRegs.reset with ctxcount := 1 }, launches := [(1, l)] })] }
    let v : State := { p with active := false, saved := [({ placeThread with place := { placeThread.place with area := some 0 } }, [], [])] }
    let away : State := { v with parts := [(0, placePart)], saved := [({ placeThread with place := { placeThread.place with core := 200, home := 200 } }, [], [])] }
    let rest : State := { p with cur := { p.cur with place := { p.cur.place with ran := false } } }
    let rich := fun (s : State) => ({ s with cores := [(0, { Core.reset with lat := [(0, ⟨8, 0x1F, 2, false, false⟩), (1, ⟨8, 0, 0, false, true⟩)] })] } : State)
    s.active = true ∧ p.mayPreempt t = true ∧ s.mayPreempt t = false ∧ s.onChip.find? (fun h => h.id == t) = some s.cur ∧
    v.onChip.find? (fun h => h.id == t) = none ∧ (v.saved.find? (fun e => e.1.id == t)).isSome = true ∧
    (v.saved.map (fun e => v.fits e.1 0)) = [true] ∧ (s.saved.find? (fun e => e.1.id == t)).isNone = true ∧ (away.saved.map (fun e => away.homeFor e.1)) = [none] ∧
    ((rich p).core 0).reclaims 0 = true ∧ (p.core 0).reclaims 0 = false ∧ p.cur.place.ran = true ∧ rest.cur.place.ran = false ∧
    ((rich p).core 0).shareOf 0 = 4 ∧ s.cur.prog.check = none := by decide +kernel

/-- Threads whose E-side waits on a full queue or for a token, with and without an A-side that waits behind it. -/
theorem witness_ThreadEvents_deadlock :
    let on := fun (w : WaitOn) (i : Instr) (q : Nat) => run (fun t => { t with
      viq := [.convoy (oneWord i)], q := [(1, List.replicate q 0)], prog := { t.prog with wait := .retry w } })
    let pop := Instr.mgetm 0#1 1#5 0#5
    (on .viq pop 16).cur.queueStuck = some 1 ∧ (on (.qpop 2) pop 16).cur.queueStuck = some 1 ∧ (on (.qpop 1) pop 16).cur.queueStuck = none ∧
    (on .viq pop 15).cur.queueStuck = none ∧ (on .viq (.vtok 0#1 1#1 0#1) 0).tokenDead (on .viq (.vtok 0#1 1#1 0#1) 0).cur = true ∧
    (on .tokenPop pop 16).tokenDead (on .tokenPop pop 16).cur = true ∧ (on .other pop 16).tokenDead (on .other pop 16).cur = false ∧
    (let after := run (fun t => { t with viq := [.write [.p 5 1 1], .convoy (oneWord (.pcnt 0 1 5 1))] })
     after.cur.viq.findIdx VEntry.isConvoy = 1 ∧ convoyHeld after.cur.vr (after.cur.viq.take 1) (oneWord (.pcnt 0 1 5 1)) = true ∧
     convoyHeld after.cur.vr [] (oneWord pop) = false) := by
  decide +kernel

/-- A thread that waits in SETVL and gets no lanes, one that gets some, one whose E-side has earlier work; and staged accesses that
arrive again: applied, parked, waiting and trapped. -/
theorem witness_ThreadEvents_waiters :
    let on := fun (l : List VEntry) (w : List (Nat × Machine.Lat)) => ({ run (fun t => { t with
      s := [(2, 8), (3, 1)], viq := l, prog := { t.prog with wait := .retry (.setvl 1 2 3) } }) with
      cores := [(0, { Core.reset with lat := w, waiters := [0] })] } : State)
    let g := fun (s : State) => (s.core 0).evaluate 0 s.cur.conf.vtype (s.readS 2).toNat (s.readS 3).toNat
    let none_ := on [] [(1, ⟨0, 0xFF, 8, false, false⟩)]
    let w := fun (code : Nat) => Waiter.mk 0x1000 0x2000 0 0 .ldt code ⟨0, 1, 0⟩ 5 8 0x1000 0
    let kind := fun (s : State) (code : Nat) => match s.arrive 0 true (w code) with
      | .done _ => 0
      | .parked _ => 1
      | .wait _ => 2
      | .trap _ _ => 3
    let owned : State := { staged with cmds := [⟨0, ⟨0, 1, 1⟩, 0, true, 1, 1, false, none, [], 0, [], .copy [(0x2000, 0, 1)]⟩] }
    (g none_).waits = true ∧ (g (on [] [])).waits = false ∧ (on [.write []] []).cur.viq ≠ [] ∧ kind staged 0 = 0 ∧ kind staged 2 = 1 ∧
    kind owned 0 = 2 ∧ kind staged 3 = 3 := by decide +kernel

/-- Records and a saved thread that wait, in their order; a record that can start with and without a stack, and ones that cannot. -/
theorem witness_ThreadEvents_records :
    let legend : Legend := ⟨0x1000, 0, 1, 0, 0, []⟩
    let packet : Packet := ⟨0x100, 0x200, 0, 0, 0, 3, 1, false, false, 0, 0, 0, 0, []⟩
    let l := fun (g : Legend) => Launch.mk none packet (some g) .running 0 false false false 0 1 []
    let r := fun (lid core : Nat) (aged : Bool) => Record.mk ⟨0, lid, 0⟩ core 3 aged [] (0, 0)
    let s := fun (n : Nat) (g : Legend) (rs : List Record) => ({ run id with parts := [(0, { placePart with
      regs := { PartRegs.reset with stkcount := BitVec.ofNat 64 n }, launches := [(2, l g), (3, l g)], records := rs })] } : State)
    ((s 0 legend [r 2 0 false, r 3 0 true]).waitingRecords 0).map (fun e => e.1) = [[1, 3, 2, 0, 0], [0, 0, 3, 0, 0]] ∧
    lexLe [0, 0, 3, 0, 0] [1, 3, 2, 0, 0] = true ∧ lexLe [1, 3, 2, 0, 0] [0, 0, 3, 0, 0] = false ∧
    ((s 0 legend []).tryStart (r 2 0 false)).isSome = true ∧ ((s 0 legend []).tryStart (r 2 4 false)).isSome = false ∧
    ((s 0 legend []).tryStart (r 9 0 false)).isSome = false ∧ ((s 0 { legend with stack := 16 } []).tryStart (r 2 0 false)).isSome = false ∧
    ((s 1 { legend with stack := 16 } []).tryStart (r 2 0 false)).isSome = true := by decide +kernel

/-- Engine commands that may complete: a copy, a fill, the two tile transfers and a slot load, of which one suffers an error and one reads
poison; ones that wait behind an earlier one, for an owned line, for an entry of the VIQ and for a port; and a thread on the chip. -/
theorem witness_UnitEvents_completion :
    let s := run id
    let me := s.cur.id
    let cmd := fun (n : Nat) (b : CmdBody) => Cmd.mk n me 0 true 1 1 true none [] 0 [] b
    let on := fun (l : List Cmd) => ({ s with cmds := l } : State)
    let go := fun (c : Cmd) => (on [c]).cmdReady c false
    let two := on [cmd 3 (.copy [(0, 64, 8)]), cmd 4 (.copy [(8, 64, 8)])]
    let line := on [{ cmd 3 (.copy [(0, 64, 8)]) with ordered := false }, { cmd 4 (.copy [(8, 64, 8)]) with ordered := false }]
    let behind : State := { on [{ cmd 3 (.copy [(0, 64, 8)]) with ahead := 1 }] with cur := { s.cur with viq := held.cur.viq } }
    let far := cmd 3 (.copy [(2 * 2 ^ 50, 64, 8)])
    let slot : WSlot := { WSlot.empty with state := .loading 3 }
    s.cmds = [] ∧ s.findThread me = some s.cur ∧ go (cmd 3 (.copy [(0, 64, 8)])) = true ∧ go (cmd 3 (.fill [(0, 8, 0)] 5)) = true ∧
    go (cmd 3 (.acstm 0 false [(0, 0, 8)])) = true ∧ go (cmd 3 (.acldm 0 false [(0, 0, 8)])) = true ∧
    go (cmd 3 (.wbld 0 0 [(0, 64)] true [])) = true ∧ two.cmdReady (cmd 4 (.copy [(8, 64, 8)])) false = false ∧
    line.cmdReady { cmd 4 (.copy [(8, 64, 8)]) with ordered := false } false = false ∧
    behind.cmdReady { cmd 3 (.copy [(0, 64, 8)]) with ahead := 1 } false = false ∧
    (on [far]).cmdReady far false = false ∧ (on [far]).cmdReady far true = true ∧ slot.state = .loading 3 ∧
    (run (fun t => { t with prog := { t.prog with check := some 8 } })).cur.prog.check = some 8 := by decide +kernel

/-- Operations of the multi-layer units that may be applied: on a bound target and on none, with a head that can be read and one that cannot;
and one whose pixel an earlier one works at. -/
theorem witness_UnitEvents_layers :
    let s := run id
    let op := fun (n : Nat) (k : MlKind) => MlOp.mk n 0 1 0 s.cur.id [] [k]
    let on := fun (l : List MlOp) (t : Option Target) => ({ s with mlq := l, objects := [(0, { Objects.reset with targets := [(1, t)] })] } : State)
    let t : Target := ⟨8, 8, 1, 0, 4096, 8192, 1, []⟩
    let two := on [op 1 (.clear 64), op 2 (.clear 64)] (some t)
    s.mlq = [] ∧ ((on [op 1 (.clear 64)] (some t)).mlq.takeWhile (fun x => x.id != 1)) = [] ∧
    (two.mlq.takeWhile (fun x => x.id != 2)).length = 1 ∧ ((on [op 1 (.clear 64)] none).objs 0).target 1 = none ∧
    ((on [op 1 (.clear 64)] (some t)).objs 0).target 1 = some t ∧
    ((on [] (some t)).unitStep (op 1 (.clear (2 ^ 30))) t (.clear (2 ^ 30))).toOption.isSome = false := by decide +kernel

/-- A head that names no node and one that names node 0, which is the last; a depth that is a number and one that is not; places that can be
read and written, and ones that cannot. -/
theorem witness_UnitEvents_steps :
    let s := run id
    let at_ := fun (head node : List Byte) => ({ s with mem := { s.mem with
      cells := (rangeFrom 4096 4).zip head ++ (rangeFrom 8192 16).zip node, log := [], logLen := 0 } } : State)
    let v := at_ [255#8, 255#8, 255#8, 1#8] []
    let w := at_ [0#8, 0#8, 0#8, 1#8] (bytesOf 4 0x3F800000 ++ bytesOf 8 0 ++ bytesOf 4 0xFFFFFF)
    let o := MlOp.mk 1 0 1 0 s.cur.id [] []
    let t : Target := ⟨8, 8, 1, 0, 4096, 8192, 1, []⟩
    let bad : State := { v with mem := { v.mem with poison := [4096] } }
    (v.element (v.part o.part) .read 4 4096 4).toOption = some (rangeFrom 4096 4) ∧
    (v.element (v.part o.part) .write 4 (t.pool + 16#64 * 0) 16).toOption = some (rangeFrom 8192 16) ∧
    (v.element (v.part o.part) .read 4 (2 ^ 30) 4).toOption = none ∧ v.poisoned (rangeFrom 4096 4) = false ∧
    bad.poisoned (rangeFrom 4096 4) = true ∧ Table.get v.mlLog 0 4096 ≤ v.mem.logLen ∧ (fp32.value 0x7FC00000).isNan = true ∧
    (fp32.value 0x3F800000).isNan = false ∧ (rangeFrom 4096 4).Nodup ∧
    (v.layerRead o 4096 4).toOption = some 0x1FFFFFF ∧ (w.layerRead o 4096 4).toOption = some 0x1000000 ∧
    (w.layerRead o 8192 16).toOption.map (fun x => (x % 2 ^ 32, x / 2 ^ 96 % 2 ^ 24)) = some (0x3F800000, 0xFFFFFF) ∧
    (v.layerRead o (2 ^ 30) 4).toOption = none := by decide +kernel

/-- A partition whose boot launch is open, with a packet that is sound and one that is not; a queue whose head is a launch, gated or not, and
one with none; a launch that is parked and one that has ended. -/
theorem witness_UnitEvents_launches :
    let packet : Packet := ⟨0x100, 0x200, 0, 0, 0, 3, 1, false, false, 0, 0, 0, 0, []⟩
    let l := fun (k : Packet) (x : LState) => Launch.mk none k none x 0 false false false 1 1 []
    let s := fun (q : List Nat) (l : Launch) => ({ run id with parts := [(0, { placePart with
      bootClosed := false, queues := [(3, q)], launches := [(2, l)] })] } : State)
    let v := s [2] (l packet .queued)
    let p := v.part 0
    p.state = .running ∧ p.bootClosed = false ∧ (run id).cur.id.part = 0 ∧ (placePart).bootClosed = true ∧ (v.part 1).state = .absent ∧
    (packetParse 0 (leBytes 128 0)).isSome = true ∧ packetParse 0 (leBytes 128 1) = none ∧
    (List.range 3).all (fun j => (Table.get p.queues [] j).isEmpty) = true ∧ Table.get p.queues [] 3 = [2] ∧ ((s [] (l packet .queued)).part 0).queues = [(3, [])] ∧
    p.launch 2 = some (l packet .queued) ∧ p.launch 9 = none ∧ packet.gated = false ∧ ({ packet with gated := true } : Packet).gated = true ∧
    (((s [] (l packet .parked)).part 0).launch 2).map (fun x => x.state) = some .parked ∧
    ((v.objs 0).waiters.any (fun w => w.kind == .gate && w.thread.lid == 2)) = false ∧
    (((s [] (l packet .running)).part 0).launch 2).map (fun x => decide (x.state = .running ∧ x.ended = x.total)) = some true ∧
    v.cmds = [] := by decide +kernel

/-- A legend that is valid, ones that are not, ask for too few threads or too much stack, and places that cannot be read or hold poison; and
levels of each shape. -/
theorem witness_UnitEvents_split :
    let head := bytesOf 4 0x40 ++ bytesOf 4 16 ++ [1#8, 2#8, 1#8, 0#8] ++ bytesOf 4 0
    let at_ := fun (h : List Byte) => ({ run id with mem := { (run id).mem with cells := (rangeFrom 4096 64).zip (h ++ List.replicate 48 0#8) } } : State)
    let s := at_ head
    let p := s.part 0
    let bad : State := { s with mem := { s.mem with poison := [4100] } }
    let k : Packet := ⟨0x100, 4096, 10, 0, 0, 3, 3, false, false, 0, 0, 0, 0, []⟩
    let e := fun (kind bal : Nat) => LoopEntry.mk kind 0 bal
    let g := fun (l : List LoopEntry) => Legend.mk 0x1000 0 2 0 0 l
    let cuts := fun (l : List LoopEntry) => (s.cuts p k (g l) 2).toOption.map (fun (c : List Cut) => c.length)
    (s.scalarRange p true .read 64 1 4096).toOption = some (rangeFrom 4096 64) ∧
    (s.scalarRange p true .read 64 1 (2 ^ 52)).toOption = none ∧ s.poisoned (rangeFrom 4096 64) = false ∧
    bad.poisoned (rangeFrom 4096 64) = true ∧ (leNum (head.take 4) % 4 = 0 ∧ leNum ((head.drop 4).take 4) % 16 = 0) ∧ k.tpc = 3 ∧
    p.regs.stkslot.toNat < 16 ∧ cuts [e 0 0] = some 1 ∧ cuts [e 1 0] = some 8 ∧ cuts [e 2 0] = some 1 ∧ cuts [e 1 0, e 2 0] = some 8 ∧
    cuts [e 1 3] ≠ none ∧ (s.cuts p { k with args := [2 ^ 52] } (g [e 1 3]) 2).toOption = none ∧
    (s.scalar p true .read 8 (4096 + 8) 8).toOption = some (rangeFrom 4104 8) := by decide +kernel

/-- A node whose batch is open, one whose batch runs, none, and a queue that is full. -/
theorem witness_UnitEvents_batches :
    let packet : Packet := ⟨0x100, 0x200, 0, 0, 0, 3, 1, false, false, 0, 0, 0, 0, []⟩
    let n := fun (l : Option Nat) => Node.mk 0x300 packet 0x400 16 8 0 1 [⟨0, 1, l⟩] 1
    let s := fun (q : List Nat) (l : Option Nat) => ({ run id with
      parts := [(0, { placePart with queues := [(3, q)], launches := [(2, Launch.mk none packet none .running 0 false false false 0 1 [])] })]
      objects := [(0, { Objects.reset with nodes := [n l] })] } : State)
    let b := fun (l : Option Nat) => ((s [] l).objs 0).nodes.map (fun n => (n.batches.map (fun b => b.lid.isNone), n.desc.toNat))
    b none = [([true], 0x300)] ∧ b (some 2) = [([false], 0x300)] ∧ (((s [] (some 2)).part 0).launch 2).any (fun y => !y.state.final) = true ∧
    ((run id).objs 0).nodes = [] ∧ (Table.get ((s (List.replicate 256 5) none).part 0).queues [] 3).length = 256 ∧
    (Table.get ((s [] none).part 0).queues [] 3).length < 256 := by decide +kernel

/-- A request of a peer at a port that is trained and one that is not; one whose reply is kept, one of no aperture, one of an aperture, and a
port with 4,096 replies; threads that wait for a peer; a lane group that a thread holds and one that none does; and memory of a partition. -/
theorem witness_OutsideEvents :
    let q : PeerReq := ⟨15, 1, 2, 3, 0, .read 8⟩
    let a : Aperture := ⟨3, 0, 4096, 8, false, true, []⟩
    let s : State := { run id with hub := { (run id).hub with ports := [(15, ⟨true, 8, false⟩)], apertures := [a] } }
    let kept : State := { s with hub := { s.hub with replay := [⟨15, 1, 2, [5]⟩] } }
    let full : State := { s with hub := { s.hub with replay := List.replicate 4096 ⟨15, 9, 9, []⟩ } }
    let w := run (fun t => { t with prog := { t.prog with wait := .retry (.peer 9) } })
    let holds : State := { s with cores := [(0, { Core.reset with lat := [(0, ⟨8, 3, 8, true, false⟩)] })] }
    let hit := fun (s : State) => (s.hub.replay.filter (fun r => r.port == 15)).find? (fun r => r.requester == 1 && r.tag == 2)
    (Table.get s.hub.ports Port.reset 15).trained = true ∧ (Table.get (run id).hub.ports Port.reset 15).trained = false ∧
    hit s = none ∧ (hit kept).isSome = true ∧ (s.apertureFor q).isSome = true ∧ (s.apertureFor { q with offset := 1 }).isSome = false ∧
    (s.apertureFor { q with op := .write [0] }).isSome = false ∧ (full.hub.replay.filter (fun r => r.port == 15)).length = 4096 ∧
    hit full = none ∧ a.shared = true ∧ a.sharers.length < 8 ∧
    (w.awaits 9).isSome = true ∧ (w.awaits 8).isSome = false ∧
    (holds.onChip.find? (fun t => t.place.core == 0 && ((holds.core 0).latOf t.place.slot).map.getLsbD 1)).isSome = true ∧
    (holds.onChip.find? (fun t => t.place.core == 0 && ((holds.core 0).latOf t.place.slot).map.getLsbD 2)).isSome = false ∧
    ((holds.core 0).latOf 0).pm = true ∧ s.parts.any (fun e => e.2.ranges.any (fun r => decide (r.1 ≤ 8) && decide (8 < r.1 + r.2))) = true := by
  decide +kernel

/-- Rings of error records: none, one with room, one that is full, and one that does not translate. -/
theorem witness_OutsideEvents_logs :
    let s := fun (base cap tail : Nat) (cap2 : BitVec 32) => ({ run id with
      parts := [(0, { placePart with regs2 := { placePart.regs2 with
        logbase := BitVec.ofNat 64 base, logcap := BitVec.ofNat 64 cap, logtail := BitVec.ofNat 64 tail } })]
      hub := { (run id).hub with pf := { (run id).hub.pf with logCap := cap2 } } } : State)
    let r := fun (s : State) => (s.part 0).regs2
    let place := fun (s : State) => (s.scalarRange (s.part 0) false .write 32 1 ((r s).logbase + BitVec.ofNat 64 (32 * (r s).logtail.toNat))).toOption
    (r (s 0 0 0 0)).logcap.toNat = 0 ∧ (r (s 4096 4 0 0)).logcap.toNat ≠ 0 ∧ place (s 4096 4 0 0) = some (rangeFrom 4096 32) ∧
    ((r (s 4096 4 3 0)).logtail.toNat + 1) % 4 = (r (s 4096 4 3 0)).loghead.toNat ∧ ((r (s 4096 4 0 0)).logtail.toNat + 1) % 4 ≠ 0 ∧
    place (s (2 ^ 52) 4 0 0) = none ∧ (s 0 0 0 0).hub.pf.logCap.toNat = 0 ∧ (s 0 0 0 4).hub.pf.logCap.toNat ≠ 0 := by decide +kernel

/-- The hub up and down, the owner on each side, a request that is carried out, and one that is not; a module id that may be assigned and one
that may not; rails that come up; and a partition whose launch window is open. -/
theorem witness_ManagementEvents :
    let s := run id
    let pf := fun (o : BitVec 1) (r : ReqState) => ({ s with hub := { s.hub with pf := { s.hub.pf with owner := o, reqState := r } } } : State)
    let aux : State := { State.reset with hub := { Hub.reset with stage := 1 } }
    let window : State := { s with parts := [(0, { placePart with bootClosed := false })] }
    let mapped : State := { s with parts := [(0, { placePart with peers := [(1, 2)] })] }
    5 ≤ s.hub.stage ∧ s.hub.power ≠ 3 ∧ State.reset.hub.stage = 0 ∧ aux.hub.stage ≠ 0 ∧ aux.hub.power = 3 ∧ aux.flaws.headD false = false ∧
    s.hub.pf.owner = 0 ∧ (pf 1 .busy).hub.pf.owner = 1 ∧ (pf 1 .busy).hub.pf.reqState = .busy ∧ s.hub.pf.reqState ≠ .busy ∧
    s.hub.apertures = [] ∧ s.parts.all (fun e => e.2.peers.isEmpty) = true ∧ mapped.parts.any (fun e => !e.2.peers.isEmpty) = true ∧
    s.hub.pf.expired = false ∧ (window.part 0).bootClosed = false ∧ (window.part 0).state = .running ∧ (s.part 0).bootClosed = true ∧
    (1 ≤ (30 : Nat) ∧ (30 : Nat) ≤ 600) := by decide +kernel

/-- A CREATE of a free quad with 0 entries, one of a quad that is held, one of a partition that is there, and one of too many entries; a
RESIZE that keeps the quads, one that takes a quad in and one that lets it go, with and without a thread there; and fences of free, held,
last and fenced quads. -/
theorem witness_RequestEvents :
    let s := fun (a b c : Nat) => ({ run id with hub := { (run id).hub with pf := { PfRegs.reset with
      reqState := .busy, held := [(0, BitVec.ofNat 64 a), (1, BitVec.ofNat 64 b), (2, BitVec.ofNat 64 c)] } } } : State)
    let two : State := { s 0 1 0 with parts := [(0, { placePart with quads := 3 })], quads := [(0, { Quad.reset with owner := some 0 }), (1, { Quad.reset with owner := some 0 })] }
    let away : State := { two with cur := { two.cur with place := { two.cur.place with core := 4, home := 4 } } }
    let arg := fun (s : State) (k : Nat) => Table.get s.hub.pf.held 0#64 k
    let lets := fun (s : State) => s.onChip.filter (fun t => [1].contains (t.place.core / 4))
    (s 1 2 16383).hub.pf.reqState = .busy ∧ (arg (s 1 2 16383) 0).toNat < 32 ∧ arg (s 1 2 16383) 1 ≠ 0 ∧
    (arg (s 1 2 16383) 2).toNat ≤ 16384 ∧ 16384 < (arg (s 1 2 16385) 2).toNat ∧ ((s 1 2 16383).part 1).state = .absent ∧
    ((s 0 2 0).part 0).state = .running ∧ ((s 1 2 0).quad 1).owner = none ∧ ((s 1 2 0).quad 1).fenced = false ∧
    ((s 1 1 0).quad 0).owner = some 0 ∧ (1 + 16383 ≤ 16384) ∧
    (s 1 2 16383).parts.all (fun e => !rangesMeet (e.2.regs2.gzfirst, e.2.regs2.gzcount) (1, 16383)) = true ∧
    (s 1 2 16384).parts.any (fun e => rangesMeet (e.2.regs2.gzfirst, e.2.regs2.gzcount) (0, 16384)) = true ∧
    8 ≤ (s 1 2 0).hub.stage ∧ (s 0 1 0).cmds = [] ∧ (two.part 0).quads = 3 ∧ (two.quad 1).owner = some 0 ∧ lets two = [] ∧
    lets away ≠ [] ∧ away.mayPreempt away.cur.id = false ∧ (two.part 0).cores ≠ [] ∧ (run id).hub.pf.reqState ≠ .busy ∧ (s 1 2 0).flaws.headD false = false ∧
    (run id).hub.pf.logCap = 0 ∧ ({ PfRegs.reset with logCap := 4 } : PfRegs).logCap ≠ 0 ∧
    ({ s 1 2 0 with flaws := [true] } : State).flaws.headD false = true := by decide +kernel

/-- Requests on memory, peers, quads, power and links: ranges that are free, in use and ill-formed; apertures there and not; a peer mapped, in
use and not; a fenced quad; a sub-block that is resident and one that is not; and P3 with and without flaws. -/
theorem witness_RequestEvents_others :
    let s := fun (l : List Nat) => ({ run id with hub := { (run id).hub with pf := { PfRegs.reset with
      reqState := .busy, held := l.zipIdx.map (fun e => (e.2, BitVec.ofNat 64 e.1)) } } } : State)
    let peers : State := { s [0, 1, 2] with parts := [(0, { placePart with peers := [(1, 2)] })] }
    let uses : State := { peers with cmds := [⟨0, ⟨0, 1, 1⟩, 0, true, 1, 1, false, none, [], 0, [], .copy [(2 * 2 ^ 50 + 2 ^ 40 + 2 * 2 ^ 36, 0, 1)]⟩] }
    let ap : State := { s [0, 3, 0, 0, 0] with hub := { (s [0, 3, 0, 0, 0]).hub with apertures := [⟨3, 0, 0, 2 ^ 28, true, false, []⟩] } }
    let used : State := { ap with inputs := [.peerRequest ⟨0, 1, 2, 3, 0, .read 1⟩] }
    let fenced : State := { s [0] with quads := [(0, { Quad.reset with owner := some 0, fenced := true })] }
    let off : State := { s [0] with hub := { (s [0]).hub with power := 3 } }
    (s [0]).parts.any (fun e => e.2.ranges.any (fun r => rangesMeet r (0, 2 ^ 28))) = true ∧
    (s [0]).parts.any (fun e => e.2.ranges.any (fun r => rangesMeet r (2 ^ 28, 2 ^ 28))) = false ∧ (2 ^ 28 + 2 ^ 28 ≤ 2 ^ 50) ∧
    (placePart.ranges.any (fun r => decide (r.1 ≤ 0 ∧ 0 < r.1 + r.2))) = true ∧ (s [0]).hub.apertures = [] ∧
    (ap.hub.apertures.find? (fun x => x.num == 3)).isSome = true ∧ ap.inputs = [] ∧ used.inputs ≠ [] ∧
    (peers.part 0).peers = [(1, 2)] ∧ ((s [0]).part 0).peers = [] ∧
    (uses.cmds.all (fun c => c.body.dests.any (fun r => decide (r.1 / 2 ^ 50 % 4 = 2 ∧ r.1 / 2 ^ 40 % 2 ^ 10 = 1 ∧ r.1 / 2 ^ 36 % 2 ^ 4 = 2)))) = true ∧
    peers.cmds = [] ∧ ((s [0]).quad 0).fenced = false ∧ (fenced.quad 0).fenced = true ∧
    (s [0]).gz.any (fun e => e.2.perm.getLsbD 2 && e.2.resid.getLsbD 1 && !e.2.tier.getLsbD 1 && decide (e.2.t0base + 2 ^ 21 = 2 ^ 21)) = true ∧
    (s [0]).gz.any (fun e => decide (e.2.t0base / 2 ^ 28 = 1)) = false ∧ off.hub.power = 3 ∧ (s [0]).hub.power ≠ 3 ∧
    (s [0]).flaws.getD 0 false = false ∧ (List.replicate 3 true).getD 2 false = true := by decide +kernel

/-- The sub-blocks of a granule that belongs to a tier, wherever the free layout puts them: within what a sheet may grant. -/
theorem witness_RequestEvents_memory (t : Fin 2) (g : Nat) (h : Config.tierAt g = some t) :
    (∀ x ∈ [g], Config.tierAt x ≠ none) ∧ ∀ (u : Fin 2) (k : Fin 4), ((List.range 128).map (fun i => 128 * g + i)).countP (fun b =>
      Config.tierAt (b / 128) == some u && (Config.homeSheet b).val == k.val) ≤ 512 * (if u = 0 then 72 else 384) := by
  refine ⟨by simp [h], fun u k => le_trans List.countP_le_length ?_⟩
  split <;> simp

theorem witness_StepRunsFetchedWord :
    let s : State := { State.reset.withFetchWord 32 0x02308800 with sched := [.cur] }
    s.sched = [.cur] ∧ s.active = true ∧ s.hub.power ≤ 1 ∧ (s.part s.cur.id.part).state = .running ∧ s.cur.prog.wait = .none ∧
    s.cur.prog.check = none ∧ s.cur.viq = [] ∧ s.scalar s.cp s.needU .fetch 4 s.cur.pc 4 = .ok [0, 1, 2, 3] ∧ s.cmds = [] ∧
    s.poisoned [0, 1, 2, 3] = false ∧ (∀ a ∈ s.walkBytes s.cp s.cur.pc ++ [0, 1, 2, 3], s.owned a = false ∧ s.cutOff a = false) ∧
    (decode (BitVec.ofNat 32 (leNum ([0, 1, 2, 3].map s.mem.byte)))).toOption = some (.add 3 1 2 0) ∧ (decode 0#32).toOption = none :=
  ⟨rfl, rfl, by decide +kernel, by decide +kernel, rfl, rfl, rfl, rfl, rfl, by decide +kernel, by decide +kernel, by decide +kernel,
    by decide +kernel⟩

theorem witness_StepAlwaysGoesOn : ∃ t, step State.reset = .next t := ⟨_, rfl⟩

theorem witness_StepKeepsMemoryCanonical :
    State.reset.mem.wf = true ∧ (State.reset.withFetchWord 32 0x02308800).mem.wf = true ∧ ∃ t, step State.reset = .next t :=
  ⟨by decide, by decide +kernel, _, rfl⟩

/-! ## Further witnesses, of single clauses -/

theorem witness_LoadsAndStores_constant :
    held.free ∧ held.cur.accessPending 0 [] = true ∧ (regs [(1, 8)]).free ∧ (regs [(1, 8)]).cur.accessPending 0 [] = false ∧
    (regs [(1, 8)]).walkReady 8 8 7 = .ok () ∧ (regs [(1, 8)]).walkReady 8 8 8 = .ok () :=
  ⟨⟨rfl, rfl⟩, rfl, ⟨rfl, rfl⟩, rfl, rfl, rfl⟩

/-- Walks whose first entry an engine owns, and one whose entry no port reaches. -/
theorem witness_Translation_waits :
    let r := fun (root : Nat) => ({ placePart with
      regs := { placePart.regs with ptrootF := BitVec.ofNat 64 root }, regs2 := { placePart.regs2 with gzcount := 0 }
      peers := [(0, 0)] } : Part)
    let s := fun (root : Nat) => ({ run id with parts := [(0, r root)] } : State)
    let owned : State := { s 0x10000 with cmds := [⟨0, ⟨0, 1, 1⟩, 0, true, 1, 1, false, none, [], 0, [], .copy [(0x10000, 0, 8)]⟩] }
    let first := fun (s : State) => (s.walkOf s.cp 64).touched.headD 0
    (64 : Nat) < 2 ^ 52 ∧ owned.cp.inWindow 64 = false ∧ first owned = 0x10000 ∧ owned.owned 0x10000 = true ∧
    (s (2 ^ 51)).cp.inWindow 64 = false ∧ first (s (2 ^ 51)) = 2 ^ 51 ∧ (s (2 ^ 51)).owned (2 ^ 51) = false ∧
    (s (2 ^ 51)).cutOff (2 ^ 51) = true ∧ (s (2 ^ 51)).walkBytes (r (2 ^ 51)) 64 ≠ [] ∧ targetOf (3 * 2 ^ 50) = 3 ∧ 3 * 2 ^ 50 < 2 ^ 52 := by
  decide +kernel

/-- A node at the end of its buffer, and an acquire and an LDK that wait. -/
theorem witness_CoalescingLaunch_wraps :
    let k : Packet := ⟨1024, 0, 0, 0, 0, 0, 0, false, false, 0, 0, 0, 0, [0, 0, 0, 0, 0, 0]⟩
    let n : Node := ⟨128, k, 4096, 16, 16, 4096, 16, [⟨15, 1, none⟩], 1⟩
    let s : State := { regs [(1, 128)] with objects := [(0, { Objects.reset with nodes := [n] })] }
    s.idle ∧ n.next = n.cap ∧ (s.nodesOf 0).find? (fun x => x.desc == s.readS 1) = some n ∧
    (s.place .write 8 4096 8).toOption.isSome = true := ⟨⟨rfl, rfl⟩, by decide +kernel⟩

theorem witness_OrderingAndBarrier_paths :
    let at_ := fun (e : VEntry) => run (fun t => { t with viq := [e] })
    let k := at_ (.scalar ⟨0, 0#8, 8, 0, none⟩ [8] (.ldk 5))
    let a := at_ (.scalar ⟨0, 255#8, 8, 0, none⟩ [8] (.load 5 4 true))
    k.free ∧ a.free ∧ k.cur.viq.any VEntry.general = false ∧ a.cur.viq.map (fun e => e.holds.map (fun h => h.held)) = [some 255#8] :=
  ⟨⟨rfl, rfl⟩, ⟨rfl, rfl⟩, by decide +kernel, rfl⟩

/-- An engine that writes an object's data; a state byte that is poison. -/
theorem witness_StagedAccess_data :
    let owned : State := { staged with cmds := [⟨0, ⟨0, 1, 1⟩, 0, true, 1, 1, false, none, [], 0, [], .copy [(0x1000, 0, 1)]⟩] }
    let on : State := { staged with
      mem := { staged.mem with poison := [0x2000] }
      cur := { staged.cur with conf := { staged.cur.conf with grant := 1, vl := 1, vtype := 0x04 } } }
    let r := [0].foldl (fun (r : VtxnRun) i => r.elem 0 i (0x1000 + on.sindex 3 i)) ⟨[], none, none, [], none, on⟩
    owned.idle ∧ owned.owned 0x1000 = true ∧ (∀ a ∈ 0x2000 :: rangeFrom 0x1000 8, owned.cutOff a = false) ∧ on.idle ∧ r.waits = none ∧
    r.faults.map (fun f => f.2.1) = [0x30] := ⟨⟨rfl, rfl⟩, by decide +kernel, by decide +kernel, ⟨rfl, rfl⟩, by decide +kernel⟩

/-- A launch that ran and owes its completion. -/
theorem witness_UnitEvents_owes :
    let k : Packet := ⟨0x100, 0x200, 0, 0, 0, 3, 1, false, true, 0, 0, 0, 0, []⟩
    let l := Launch.mk none k none .complete 0 false false true 1 1 []
    let s : State := { run id with parts := [(0, { placePart with launches := [(2, l)] })] }
    (s.part 0).launch 2 = some l ∧ l.owes = true ∧ l.state ≠ .running := by decide +kernel

/-- A thread with a load from a peer that waits behind its word, under tag 9. -/
theorem witness_OutsideEvents_undo :
    let t := (run id).cur
    let u : Undo := ⟨9, 64, [(1, 5)], t.conf, t.dims, t.loops, 0, false, 3, none, [(2, 7)], 0⟩
    let s := run (fun t => { t with viq := [.scalar ⟨0, 0#8, 8, 0, some u⟩ [2 ^ 51] (.load 5 4 true)] })
    (s.awaits 9).isNone = true ∧ (s.onChip.find? (fun t => t.viq.any (fun e => e.undo.any (fun u => u.tag == 9)))) = some s.cur ∧
    (s.onChip.find? (fun t => t.viq.any (fun e => e.undo.any (fun u => u.tag == 8)))) = none := by decide +kernel

/-- A trap whose record an engine owns, one whose record is free, and a thread whose trap waits for its record. -/
theorem witness_TrapEntry_held :
    let h := run (fun t => { t with rings := { t.rings with h := ⟨0, 128, 0, 0, 1024, 0⟩ } })
    let owned : State := { h with cmds := [⟨0, ⟨0, 1, 1⟩, 0, true, 1, 1, false, none, [], 0, [], .copy [(1024, 0, 1)]⟩] }
    let room := fun (s : State) => ({ s with parts := [(0, { placePart with regs := { PartRegs.reset with ctxcount := 1 } })] } : State)
    owned.recordHeld { cause := 0x01 } = true ∧ h.recordHeld { cause := 0x01 } = false ∧ (room h).mayPreempt h.cur.id = true ∧
    (room (run (fun t => { t with prog := { t.prog with wait := .retry (.trap { cause := 0x01 }) } }))).mayPreempt h.cur.id = false := by
  decide +kernel

/-- A thread with an access that waits, and one with matrix work, at ring 1. -/
theorem witness_ContextWords_waits :
    let s : State := { held with cur := { held.cur with ring := 1#2, s := [(1, 1024)] } }
    let m : State := { ringed [(1, 1024)] with cmds := [⟨0, ⟨0, 1, 0⟩, 0, false, 1, 1, false, none, [], 0, [], .acstm 0 false []⟩] }
    s.free ∧ m.idle ∧ m.matBusy = true ∧ s.cur.ring ≠ 0 ∧ (s.readS 1).toNat % 1024 = 0 ∧ s.cur.viq.any (fun e => e.holds.isSome) = true :=
  ⟨⟨rfl, rfl⟩, ⟨rfl, rfl⟩, by decide +kernel⟩

/-- A line that an engine owns, and one on a peer that no port reaches, for the access of a unit, a state byte and the data of a waiter. -/
theorem witness_UnitEvents_waits :
    let owned : State := { run id with cmds := [⟨0, ⟨0, 1, 1⟩, 0, true, 1, 1, false, none, [], 0, [], .copy [(4096, 0, 1)]⟩] }
    let far : State := { run id with
      gz := [(0, ⟨2 ^ 51, 2 ^ 51, 7#3, BitVec.allOnes 128, 0⟩)], parts := [(0, { placePart with peers := [(0, 0)] })] }
    let o := MlOp.mk 1 0 1 0 owned.cur.id [] []
    let stop := fun (s : State) (va : Word) => match s.layerPlace o .write va 4 with
      | .error .waits => some none
      | .error (.fails a) => some (some a)
      | .ok _ => none
    stop owned 4096 = some none ∧ stop far 4096 = some (some 4096) ∧ stop owned 8192 = none ∧
    (far.element (far.part 0) .write 1 4096 1).toOption = some [2 ^ 51 + 4096] ∧ far.cutOff (2 ^ 51 + 4096) = true ∧
    (owned.element (owned.part 0) .write 1 4096 1).toOption = some [4096] ∧ owned.owned 4096 = true ∧ owned.owned 8192 = false := by
  decide +kernel

/-- What the lane groups of a thread compute next: nothing, a convoy, one behind register writes, and register writes. -/
theorem witness_OutsideEvents_lanes :
    let on := fun (l : List VEntry) => (run (fun t => { t with viq := l })).cur.computing.map (fun e => (e.1, e.2.isConvoy))
    let c := VEntry.convoy (oneWord (.vid 1 1 0))
    on held.cur.viq = none ∧ on [c] = some (0, true) ∧ on (held.cur.viq ++ [c]) = some (1, true) ∧ on [.write [], c] = some (0, false) := by
  decide +kernel

theorem witness_ManagementEvents_waits :
    let s : State := { run id with
      inputs := [.seize], hub := { (run id).hub with pf := { (run id).hub.pf with reqState := .busy, waits := some (.host, 3) } } }
    5 ≤ s.hub.stage ∧ s.hub.power ≠ 3 ∧ s.hub.pf.reqState = .busy ∧ Instr.seize ∈ s.inputs ∧ s.hub.pf.waits = some (.host, 3) ∧
    (run id).hub.pf.waits = none := by decide +kernel

theorem real_zero : (fp32.value 0).real = 0 := by
  rw [show fp32.value 0 = .fin false 0 1 (-149) by decide +kernel]; simp [FV.real]

theorem real_one : (fp32.value 0x3F800000).real = 1 := by
  rw [show fp32.value 0x3F800000 = .fin false (2 ^ 23) 1 (-23) by decide +kernel]; norm_num [FV.real]

theorem real_half : (fp32.value 0x3F000000).real = 1 / 2 := by
  rw [show fp32.value 0x3F000000 = .fin false (2 ^ 23) 1 (-24) by decide +kernel]; norm_num [FV.real]

/-- A ray along the first axis, or that does not move, from a place on that axis, against the box from 0 to 1: the entries that are each
of minus infinity, a number, and 0 as tmin alone or as a bound; and the axis of a direction that is the largest. -/
theorem witness_RayTests_exact :
    let x := fun (o d t : Nat) (k : Nat) => if k = 0 then o else if k = 3 then d else if k = 6 then t else if k = 7 then 0x40000000 else 0
    let b := fun (k : Nat) => if k < 3 then 0 else 0x3F800000
    let o := fun (u d t a : Nat) => (fp32.value (x u d t a)).real
    let dir := fun (u d t a : Nat) => (fp32.value (x u d t (3 + a))).real
    let near := fun (u d t a : Nat) => ((min (((fp32.value (b a)).real - o u d t a) / dir u d t a)
      (((fp32.value (b (3 + a))).real - o u d t a) / dir u d t a) : ℝ) : EReal)
    let far := fun (u d t a : Nat) => ((max (((fp32.value (b a)).real - o u d t a) / dir u d t a)
      (((fp32.value (b (3 + a))).real - o u d t a) / dir u d t a) : ℝ) : EReal)
    let ends := fun (u d t : Nat) => {v | v = (2 : EReal) ∨ ∃ a < 3, dir u d t a ≠ 0 ∧ v = far u d t a}
    let set := fun (u d t : Nat) (l : EReal) => {v | v = l ∨ ∃ a < 3, dir u d t a ≠ 0 ∧ v = near u d t a}
    IsGreatest (set 0 0 0xFF800000 ⊥) ⊥ ∧ IsGreatest (set 0 0 0x3F800000 1) 1 ∧
    IsGreatest (set 0x3F000000 0x3F800000 0 0) 0 ∧ near 0x3F000000 0x3F800000 0 0 < 0 ∧
    IsGreatest (set 0 0x3F800000 0 0) 0 ∧ near 0 0x3F800000 0 0 = 0 ∧
    IsLeast (ends 0 0 0x3F800000) 2 ∧ IsLeast (ends 0 0x3F800000 0) 1 ∧ IsLeast (ends 0x3F000000 0x3F800000 0) ((1 / 2 : ℝ) : EReal) ∧
    fp32.value 0xFF800000 = .inf true ∧ ((fp32.value 0x3F800000).real : EReal) = 1 ∧
    (∀ a < 3, |dir 0 0x3F800000 0 a| ≤ |dir 0 0x3F800000 0 0|) ∧ |dir 0 0x3F800000 0 0| ≠ 0 := by
  intro x b o dir near far ends set
  have hd0 : ∀ u t a, a < 3 → dir u 0 t a = 0 := by
    intro u t a ha
    interval_cases a <;> simp [dir, x, real_zero]
  have hd1 : ∀ u t a, a < 3 → dir u 0x3F800000 t a = if a = 0 then 1 else 0 := by
    intro u t a ha
    interval_cases a <;> simp [dir, x, real_zero, real_one]
  have still : ∀ (t : Nat) (l : EReal), IsGreatest (set 0 0 t l) l := by
    intro t l
    refine ⟨.inl rfl, ?_⟩
    rintro v (h | ⟨a, ha, hn, -⟩)
    · exact h.le
    · exact absurd (hd0 0 t a ha) hn
  have moves : ∀ (u t : Nat) (l : EReal), near u 0x3F800000 t 0 ≤ l → IsGreatest (set u 0x3F800000 t l) l := by
    intro u t l hl
    refine ⟨.inl rfl, ?_⟩
    rintro v (h | ⟨a, ha, hn, h⟩)
    · exact h.le
    · have h0 : a = 0 := by
        by_contra e; exact hn (by rw [hd1 u t a ha, if_neg e])
      rw [h, h0]; exact hl
  have n0 : near 0 0x3F800000 0 0 = 0 := by
    simp [near, hd1, o, x, b, real_zero, real_one]
  have nh : near 0x3F000000 0x3F800000 0 0 < 0 := by
    simp [near, hd1, o, x, b, real_zero, real_one, real_half]
  have rests : IsLeast (ends 0 0 0x3F800000) 2 := by
    refine ⟨.inl rfl, ?_⟩
    rintro v (h | ⟨a, ha, hn, -⟩)
    · exact h.ge
    · exact absurd (hd0 0 _ a ha) hn
  have leaves : ∀ (u t : Nat) (f : ℝ), f ≤ 2 → far u 0x3F800000 t 0 = (f : EReal) → IsLeast (ends u 0x3F800000 t) (f : EReal) := by
    intro u t f hf h0
    refine ⟨.inr ⟨0, by decide, by rw [hd1 _ _ _ (by decide)]; simp, h0.symm⟩, ?_⟩
    rintro v (h | ⟨a, ha, hn, h⟩)
    · rw [h]; exact EReal.coe_le_coe_iff.2 hf
    · have : a = 0 := by
        by_contra e; exact hn (by rw [hd1 u t a ha, if_neg e])
      rw [h, this, h0]
  have f0 : far 0 0x3F800000 0 0 = ((1 : ℝ) : EReal) := by
    simp [far, hd1, o, x, b, real_zero, real_one]
  have fh : far 0x3F000000 0x3F800000 0 0 = ((1 / 2 : ℝ) : EReal) := by
    refine congrArg Real.toEReal ?_
    rw [hd1 _ _ _ (by decide)]
    simp only [o, x, b, Nat.reduceAdd, Nat.reduceLT, if_true, if_false, real_zero, real_one, real_half]
    norm_num [real_zero, real_one]
  refine ⟨still _ _, still _ _, moves _ _ _ nh.le, nh, moves _ _ _ n0.le, n0, rests, leaves 0 0 1 (by norm_num) f0,
    leaves _ _ _ (by norm_num) fh, by decide +kernel, by rw [real_one]; rfl, ?_, ?_⟩
  · intro a ha
    rw [hd1 _ _ _ ha, hd1 _ _ _ (by decide)]
    split <;> simp
  · rw [hd1 _ _ _ (by decide)]; simp

/-! ## Single steps (expected results by hand from the rules named) -/

/-- Does the step that runs a word leave what p says? -/
noncomputable def stepLeaves (w : Nat) (p : State → Bool) : Bool :=
  match step (State.reset.withFetchWord 32 w) with
  | .next t => p t
  | .fault _ => false
  | .refused _ => false

/-- ADDI s20, s20, 0x58 (R72). -/
theorem test_step_addi : stepLeaves 0x054A0058 (fun t => t.readS 20 == 0x58 && t.cur.pc == 4) = true := by decide +kernel

/-- HI s23, 0x80000: the 20 bits stand at bits 31 to 12 and the word is sign-extended (R74). -/
theorem test_step_hi : stepLeaves 0x09780000 (fun t => t.readS 23 == 0xFFFFFFFF80000000) = true := by decide +kernel

/-- DIV.w s3, s1, s2 with s2 = 0: all ones, and no trap (R69). -/
theorem test_step_div_by_zero :
    stepLeaves 0x0230884B (fun t => t.readS 3 == 0xFFFFFFFFFFFFFFFF && t.cur.pc == 4) = true := by decide +kernel

/-- A word of zeros is ILLEGAL (R34, R35); with no handler in any ring the partition halts (R474). -/
theorem test_step_illegal_halts : stepLeaves 0 (fun t => (t.part 0).state == .halted) = true := by decide +kernel

end Sys2Proof.Tests
end

section
/-! Places of an access (R30, R496): what a translation answers lies in what the partition owns. -/
namespace Sys2Proof.Machine

/-- A byte that partition p may reach at q is kept under the key pa: its own where q lies in host memory (log 8). -/
def Part.reaches (p : Part) (pa : Nat) : Prop := ∃ q, p.owns q = true ∧ targetOf q ≠ 3 ∧ pa = p.tagged q

theorem targetOf_eq (pa : Nat) : targetOf pa = pa / 2 ^ 50 % 4 := by
  simp [targetOf, bitsAt, Nat.shiftRight_eq_div_pow]

theorem firstCause_eq_none {l : List Nat} (h : firstCause l = none) : cMachine ∉ l ∧ cViolation ∉ l := by
  simp only [firstCause, List.find?_eq_none, List.contains_eq_mem, decide_eq_true_eq] at h
  exact ⟨h cMachine (by simp), h cViolation (by simp)⟩

/-- A target check that passes. -/
theorem Part.targetCause_eq_none {p : Part} {q : Nat} (h : p.targetCause q = none) : p.owns q = true ∧ targetOf q ≠ 3 := by
  unfold Part.targetCause at h
  split at h
  · cases h
  · next hr =>
    split at h
    · next ho =>
      have hlt : q < 2 ^ 52 := by
        simp only [Part.owns, Bool.and_eq_true, decide_eq_true_eq] at ho; exact ho.1
      exact ⟨ho, fun h3 => hr (Bool.and_eq_true_iff.2 ⟨decide_eq_true h3, decide_eq_true hlt⟩)⟩
    · cases h

/-- The cause of a target check that fails is one that firstCause looks for. -/
theorem Part.targetCause_cases (p : Part) (q : Nat) :
    p.targetCause q = none ∨ p.targetCause q = some cMachine ∨ p.targetCause q = some cViolation := by
  unfold Part.targetCause; split
  · simp
  · split <;> simp

/-- Where no cause is found, every place passes its target check. -/
theorem Part.reaches_of_firstCause {p : Part} {qs : List Nat} (h : firstCause (qs.filterMap p.targetCause) = none) :
    ∀ pa ∈ qs.map p.tagged, p.reaches pa := by
  obtain ⟨hm, hv⟩ := firstCause_eq_none h
  simp only [List.mem_map, forall_exists_index, and_imp]
  rintro pa q hq rfl
  have hn : p.targetCause q = none := by
    rcases p.targetCause_cases q with h | h | h
    · exact h
    · exact absurd (List.mem_filterMap.2 ⟨q, hq, h⟩) hm
    · exact absurd (List.mem_filterMap.2 ⟨q, hq, h⟩) hv
  obtain ⟨ho, h3⟩ := Part.targetCause_eq_none hn
  exact ⟨q, ho, h3, rfl⟩

theorem State.element_reaches {s : State} {p : Part} {k : Acc} {al n : Nat} {ea : Word} {pas : List Nat}
    (h : s.element p k al ea n = .ok pas) : ∀ pa ∈ pas, p.reaches pa := by
  unfold State.element at h
  split at h
  · cases h
  · simp only at h
    split at h
    · cases h
    · split at h
      · cases h
      · next hc => cases h; exact Part.reaches_of_firstCause hc

theorem State.scalar_reaches {s : State} {p : Part} {u : Bool} {k : Acc} {al n : Nat} {ea : Word} {pas : List Nat}
    (h : s.scalar p u k al ea n = .ok pas) : ∀ pa ∈ pas, p.reaches pa := by
  unfold State.scalar at h
  split at h
  · cases h
  · split at h
    · cases h
    · split at h
      · exact State.element_reaches h
      · split at h
        · cases h
        · split at h
          · cases h
          · simp only at h
            split at h
            · cases h
            · next hc => cases h; exact Part.reaches_of_firstCause hc

theorem State.scalarRange_reaches {s : State} {p : Part} {u : Bool} {k : Acc} {al n : Nat} {ea : Word} {pas : List Nat}
    (h : s.scalarRange p u k al n ea = .ok pas) : ∀ pa ∈ pas, p.reaches pa := by
  induction n generalizing ea pas with
  | zero => cases h; simp
  | succ n ih =>
    unfold State.scalarRange at h
    split at h
    · cases h
    · next first hf =>
      split at h
      · cases h
      · next rest hr =>
        cases h
        intro pa hpa
        exact (List.mem_append.1 hpa).elim (State.scalar_reaches hf pa) (ih hr pa)

/-- Settles O17: each of the three translations answers places only where every target check passes. -/
theorem placesAreOwned : Obligations.PlacesAreOwned := by
  intro s p u k al ea n pas h pa hpa
  have hr : p.reaches pa := by
    rcases h with h | h | h
    · exact State.element_reaches h pa hpa
    · exact State.scalar_reaches h pa hpa
    · exact State.scalarRange_reaches h pa hpa
  obtain ⟨q, ho, h3, rfl⟩ := hr
  exact ⟨q, ho, by rwa [← targetOf_eq], by rw [Part.tagged, targetOf_eq]⟩

end Sys2Proof.Machine
end

section
/-! Every word and every event answers a next state, and a step stops only after a fatal device error (log 25). -/
namespace Sys2Proof.Machine

/-- The outcome is a next state. -/
def Out.goesOn (o : Out) : Prop := ∃ t, o = .next t

theorem Out.goesOn_next (t : State) : Out.goesOn (.next t) := ⟨t, rfl⟩

/-- An outcome that is decided by a test goes on where both sides do. -/
theorem Out.goesOn_ite {c : Prop} [Decidable c] {a b : Out} (ha : a.goesOn) (hb : b.goesOn) :
    Out.goesOn (if c then a else b) := by split <;> assumption

/-! ## The shapes of words -/

theorem trapWhen_goesOn (x : Trap) (s t : State) : (trapWhen x s t).goesOn :=
  Out.goesOn_ite (Out.goesOn_next _) (Out.goesOn_next _)

theorem finishWith_goesOn (fin : State → State) (s : State) (r : Except Stop State) : (finishWith fin s r).goesOn := by
  unfold finishWith
  split
  · exact Out.goesOn_next _
  · exact trapWhen_goesOn _ _ _
  · exact trapWhen_goesOn _ _ _
  · exact Out.goesOn_next _
  · exact Out.goesOn_next _

theorem asideAs_goesOn (w : WaitOn) (fr : Bool) (fin : State → State) (body : State → Except Stop State) (s : State) :
    (asideAs w fr fin body s).goesOn := by
  unfold asideAs
  split
  · exact trapWhen_goesOn _ _ _
  · exact Out.goesOn_ite (Out.goesOn_next _) (finishWith_goesOn _ _ _)

theorem dispatchAs_goesOn (last : Word) (go : Thread → Thread) (v : Convoy) (s : State) :
    (dispatchAs last go v s).goesOn :=
  Out.goesOn_ite (trapWhen_goesOn _ _ _) (Out.goesOn_ite (trapWhen_goesOn _ _ _) (Out.goesOn_next _))

theorem eside_goesOn (i : Instr) (c : BitVec 1) (sa sb : Word) (ok : Bool) (s : State) :
    (eside i c sa sb ok s).goesOn :=
  Out.goesOn_ite (Out.goesOn_next _) (Out.goesOn_ite (trapWhen_goesOn _ _ _) (Out.goesOn_ite (dispatchAs_goesOn _ _ _ _)
    (Out.goesOn_ite (trapWhen_goesOn _ _ _) (Out.goesOn_next _))))

theorem aside_goesOn (free : Bool) (fin : State → State) (body : State → Except Stop State) (s : State) :
    (aside free fin body s).goesOn :=
  asideAs_goesOn _ _ _ _ _

theorem asideReg_goesOn (f : State → State) (s : State) : (asideReg f s).goesOn :=
  aside_goesOn _ _ _ _

theorem amoWord_goesOn (op : AmoOp) (d a b : BitVec 5) (sc : BitVec 3) (o : BitVec 2) (w : BitVec 1) (s : State) :
    (amoWord op d a b sc o w s).goesOn :=
  aside_goesOn _ _ _ _

theorem branch_goesOn (cond : Word → Word → Bool) (a b : BitVec 5) (o : BitVec 12) (s : State) :
    (branch cond a b o s).goesOn :=
  aside_goesOn _ _ _ _

theorem loopWord_goesOn (one : Bool) (count : Word) (i : BitVec 12) (s : State) : (loopWord one count i s).goesOn :=
  aside_goesOn _ _ _ _

theorem loopExit_goesOn (one : Bool) (s : State) : (loopExit one s).goesOn :=
  aside_goesOn _ _ _ _

theorem vUnit_goesOn (load : Bool) (d a g : BitVec 5) (n : BitVec 3) (s : State) : (vUnit load d a g n s).goesOn :=
  aside_goesOn _ _ _ _

theorem vStrided_goesOn (load : Bool) (d a b g : BitVec 5) (n : BitVec 3) (s : State) :
    (vStrided load d a b g n s).goesOn :=
  aside_goesOn _ _ _ _

theorem vIndexed_goesOn (load ordered : Bool) (d a b g : BitVec 5) (n : BitVec 3) (s : State) :
    (vIndexed load ordered d a b g n s).goesOn :=
  aside_goesOn _ _ _ _

theorem vSweep_goesOn (load : Bool) (d a g : BitVec 5) (n : BitVec 3) (s : State) :
    (vSweep load d a g n s).goesOn :=
  aside_goesOn _ _ _ _

theorem mvAccess_goesOn (load packed : Bool) (d a b g : BitVec 5) (n : BitVec 3) (s : State) :
    (mvAccess load packed d a b g n s).goesOn :=
  aside_goesOn _ _ _ _

theorem vamo_goesOn (op : VamoOp) (d a b g : BitVec 5) (n : BitVec 3) (s : State) : (vamo op d a b g n s).goesOn :=
  aside_goesOn _ _ _ _

theorem spm_goesOn (load : Bool) (ib : Option (BitVec 5)) (off : State → Nat → Word) (d g : BitVec 5) (s : State) :
    (spm load ib off d g s).goesOn :=
  aside_goesOn _ _ _ _

theorem stagedWord_goesOn (k : StKind) (acc : Acc) (size : Nat) (code : BitVec 4) (d a : BitVec 5) (s : State) :
    (stagedWord k acc size code d a s).goesOn :=
  by
  unfold stagedWord
  dsimp only
  split
  · exact Out.goesOn_ite (Out.goesOn_next _) (Out.goesOn_next _)
  · exact aside_goesOn _ _ _ _

theorem rayTest_goesOn (bytes regs : Nat) (test : State → Nat → (Nat → FV) → (Nat → FV) → Option (List Nat)) (d a b
    g : BitVec 5) (s : State) : (rayTest bytes regs test d a b g s).goesOn :=
  aside_goesOn _ _ _ _

theorem mlWord_goesOn (reads writes : List Nat) (coarse : Bool) (foot : State → Nat → Nat) (steps : Nat → Nat →
    Steps) (ev : Nat → Instr) (b g : BitVec 5) (s : State) :
    (mlWord reads writes coarse foot steps ev b g s).goesOn :=
  aside_goesOn _ _ _ _

theorem hop_goesOn (k : HTable → HKind) (arith probe usesB : Bool) (d a b g : BitVec 5) (n : BitVec 2) (s : State) :
    (hop k arith probe usesB d a b g n s).goesOn :=
  aside_goesOn _ _ _ _

theorem accTransfer_goesOn (load : Bool) (d a b : BitVec 5) (w st p : BitVec 1) (s : State) :
    (accTransfer load d a b w st p s).goesOn :=
  asideAs_goesOn _ _ _ _ _

theorem changeReg_goesOn (f : Word → Word → Word) (d a : BitVec 5) (n : BitVec 12) (s : State) :
    (changeReg f d a n s).goesOn :=
  aside_goesOn _ _ _ _

theorem loadWord_goesOn (n : Nat) (sx : Bool) (d a : BitVec 5) (i : BitVec 12) (s : State) :
    (loadWord n sx d a i s).goesOn :=
  aside_goesOn _ _ _ _

theorem storeWord_goesOn (n : Nat) (d a : BitVec 5) (i : BitVec 12) (s : State) : (storeWord n d a i s).goesOn :=
  aside_goesOn _ _ _ _

theorem fpsWord_goesOn (f : State → Fl Nat) (d : BitVec 5) (s : State) : (fpsWord f d s).goesOn :=
  asideReg_goesOn _ _

theorem fpsArith_goesOn (f : Nat → FV → FV → Fl FV) (d a b : BitVec 5) (p r : BitVec 2) (s : State) :
    (fpsArith f d a b p r s).goesOn :=
  fpsWord_goesOn _ _ _

theorem fpsMinMax_goesOn (isMax : Bool) (d a b : BitVec 5) (p : BitVec 2) (s : State) :
    (fpsMinMax isMax d a b p s).goesOn :=
  fpsWord_goesOn _ _ _

theorem fpsCompare_goesOn (loud : Bool) (f : FV → FV → Bool) (d a b : BitVec 5) (p : BitVec 2) (s : State) :
    (fpsCompare loud f d a b p s).goesOn :=
  fpsWord_goesOn _ _ _

theorem intWord_goesOn (f : (n : Nat) → BitVec n → BitVec n → BitVec n) (d a b : BitVec 5) (w : BitVec 1) (s :
    State) : (intWord f d a b w s).goesOn :=
  asideReg_goesOn _ _

theorem overflowWord_goesOn (f : Int → Int → Int) (d a b : BitVec 5) (w : BitVec 1) (s : State) :
    (overflowWord f d a b w s).goesOn :=
  aside_goesOn _ _ _ _

theorem immWord_goesOn (f : Word → Word) (d a : BitVec 5) (s : State) : (immWord f d a s).goesOn :=
  asideReg_goesOn _ _

/-! ## Events that look at the state first -/

theorem unitApply_goesOn (ev : Nat → Instr) (id : Nat) (s : State) : (unitApply ev id s).goesOn := by
  unfold unitApply
  dsimp only
  repeat' split
  all_goals exact Out.goesOn_next _

theorem execIllegalWord_goesOn (w : BitVec 32) (s : State) : (execIllegalWord w s).goesOn := by
  unfold execIllegalWord
  split
  · exact trapWhen_goesOn _ _ _
  · exact trapWhen_goesOn _ _ _

/-! ## Every instruction -/

/-- R29, R34 to R36: no instruction and no event lacks a meaning in any state. -/
theorem exec_goesOn (i : Instr) (s : State) : Out.goesOn (exec i s) := by
  cases i <;> dsimp only [exec]
  case add | sub | and | or | xor | sll | srl | sra | mul | mulh | mulhu | div | divu | rem | remu | min | max |
      minu | maxu | slt | sltu | clz | popc =>
    exact intWord_goesOn _ _ _ _ _ _
  case addv | subv =>
    exact overflowWord_goesOn _ _ _ _ _ _
  case addi | andi | ori | xori | slti | sltiu | slli | srli | srai =>
    exact immWord_goesOn _ _ _ _
  case hi | pcadd | qcnt =>
    exact asideReg_goesOn _ _
  case lb | lh | lw | ld | lbu | lhu | lwu =>
    exact loadWord_goesOn _ _ _ _ _ _
  case ldk | jal | jalr | qpop | qdrain | lda | stl | fence | pfence | bar | sbar | srr | srw | trap | breakpoint |
      tret | uret | wfe | vtinv | ptinv | ctxsave | ctxload | launch | launchc | lwait | yield | lstat | endThread |
      hclaim | hfree | hstat | hdrain | stqry | stload | stbind | stunbind | ecwait | engb | attach | detach | vldff
      | vldb | vtxn | mlcfg | setvl | settype | settypei =>
    exact aside_goesOn _ _ _ _
  case sb | sh | sw | sd =>
    exact storeWord_goesOn _ _ _ _ _
  case beq | bne | blt | bge | bltu | bgeu =>
    exact branch_goesOn _ _ _ _ _
  case loop0 | loop1 | loopi0 | loopi1 =>
    exact loopWord_goesOn _ _ _ _
  case lexit0 | lexit1 =>
    exact loopExit_goesOn _ _
  case fadd | fsub | fmul | fdiv =>
    exact fpsArith_goesOn _ _ _ _ _ _ _
  case fsqrt | fcvtfi | fcvtif | fcvtff | fclass | fma =>
    exact fpsWord_goesOn _ _ _
  case fmin | fmax =>
    exact fpsMinMax_goesOn _ _ _ _ _ _
  case feq | flt | fle =>
    exact fpsCompare_goesOn _ _ _ _ _ _ _
  case amoswap | amoadd | amoand | amoor | amoxor | amomin | amomax | amominu | amomaxu | amocas | amofadd =>
    exact amoWord_goesOn _ _ _ _ _ _ _ _
  case srs | src =>
    exact changeReg_goesOn _ _ _ _ _
  case ldt | stt | txn =>
    exact stagedWord_goesOn _ _ _ _ _ _ _
  case cpy | wbld =>
    exact asideAs_goesOn _ _ _ _ _
  case acstm | acldm =>
    exact accTransfer_goesOn _ _ _ _ _ _ _ _
  case vld | vst =>
    exact vUnit_goesOn _ _ _ _ _ _
  case vldStrided | vstStrided =>
    exact vStrided_goesOn _ _ _ _ _ _ _
  case vldIndexed | vldOrd | vstIndexed | vstOrd =>
    exact vIndexed_goesOn _ _ _ _ _ _ _ _
  case vldm | vstm =>
    exact vSweep_goesOn _ _ _ _ _ _
  case vamoadd | vamomin | vamomax | vamofadd =>
    exact vamo_goesOn _ _ _ _ _ _ _
  case spld | spst | spldu | spstu =>
    exact spm_goesOn _ _ _ _ _ _
  case hins | hprb | hdel | hacc | hamin | hamax | hupd =>
    exact hop_goesOn _ _ _ _ _ _ _ _ _ _
  case boxx | trix =>
    exact rayTest_goesOn _ _ _ _ _ _ _ _
  case mlins | mlins2 | mlrslv | mlclr =>
    exact mlWord_goesOn _ _ _ _ _ _ _ _ _
  case mld | mldp | mst | mstp =>
    exact mvAccess_goesOn _ _ _ _ _ _ _ _
  case vadd | vsub | vmul | vmulh | vmin | vmax | vminu | vmaxu | vand | vor | vxor | vsll | vsrl | vsra | vmacc |
      vdiv | vaddsat | vsubsat | vintsVadd | vintsVsub | vintsVmul | vintsVmulh | vintsVmin | vintsVmax | vintsVminu
      | vintsVmaxu | vintsVand | vintsVor | vintsVxor | vintsVsll | vintsVsrl | vintsVsra | vintsVmacc | vintsVdiv |
      vintsVaddsat | vintsVsubsat | vfadd | vfsub | vfmul | vfdiv | vfsqrt | vfma | vfms | vfmin | vfmax | vfabs |
      vfneg | vfpsVfadd | vfpsVfsub | vfpsVfmul | vfpsVfdiv | vfpsVfma | vfpsVfms | vfpsVfmin | vfpsVfmax | vcmpEq |
      vcmpNe | vcmpLt | vcmpGe | vcmpLe | vcmpGt | vcmpUn | pand | por | pxor | pandn | pnot | plead | pthru | ppre
      | pcnt | pany | pset | pclr | pgetf | vslup | vsldn | vslupi | vsldni | vperm | vcomp | vexpd | vmerge |
      vbcast | vextr | vins | viota | vid | vredsum | vredmin | vredmax | vfredo | vfredt | vfredmin | vfredmax |
      vcmul | vcmac | vcmulc | vcabs2 | vcvt | vscale | vqmax | mgp | mwdg | mdot | mlct | mjoin | msand | mcomm |
      mrev | mdual | mgrd | mnrm2 | mnrmi | mnormz | mexpb | mlogm | mmov | msetm | mgetm | mclean | mfromv | mtov |
      madd | msub | mscal | mconj | minvol | mxac | mxacs | mzero | acld | acst | mchk | vtok =>
    exact eside_goesOn _ _ _ _ _ _
  case queueDeadlock | wfeTimeout | tokenDeadlock | bootLaunch | threadDispatch | resume | flitCrcRetry |
      crinikLaneFailure | crinikPortLoss | eccCorrected | heartbeat | takeoverExpiry | ownershipWrite | modidWrite |
      registerWrite | spdmGetMeasurements | spdmChallenge | spdmKeyExchange | pldmMonitoring | pldmFirmwareUpdate |
      dieToDieLinkRetry | replyAcknowledgement | create | destroy | resize | addmem | exportAperture | peermap |
      peerunmap | fenceq | readmit | retiresb | retirech | power | links | update | seize | handback |
      setvlReevaluation | recordAging | governorEvaluation | hostRequest | uncorrectableError | fatalDeviceError |
      requestComplete | imageSwitch =>
    exact Out.goesOn_next _
  case mlInsertion | mlResolveApply | mlClearApply => exact unitApply_goesOn _ _ _
  case stagedResend | commandComplete | partitionUnitTake | gateReoffer | launchComplete | nodeFlush | laneReclaim |
      preemption | peerRequest | peerResend | peerRetryReply | linkError | softError | mainPowerUp | auxPowerUp =>
    dsimp only [exec, execStagedResend, execCommandComplete, execPartitionUnitTake, execGateReoffer,
      execLaunchComplete, execNodeFlush, execLaneReclaim, execPreemption, execPeerRequest, execPeerResend,
      execPeerRetryReply, execLinkError, execSoftError, execMainPowerUp, execAuxPowerUp]
    repeat' split
    all_goals exact Out.goesOn_next _
  case illegalWord => exact execIllegalWord_goesOn _ _

/-! ## A step -/

theorem settled_goesOn {o : Out} (h : o.goesOn) : (settled o).goesOn := by
  obtain ⟨t, rfl⟩ := h; exact Out.goesOn_next _

theorem runFetched_goesOn (w : BitVec 32) (s : State) : (runFetched w s).goesOn :=
  Out.goesOn_ite (Out.goesOn_next _) (exec_goesOn _ _)

theorem fetchTrap_goesOn (x : Trap) (s : State) : (fetchTrap x s).goesOn := by
  unfold fetchTrap
  split
  · exact dispatchAs_goesOn _ _ _ _
  · exact trapWhen_goesOn _ _ _

theorem runNext_goesOn (s : State) : (runNext s).goesOn := by
  unfold runNext
  split
  · exact runFetched_goesOn _ _
  · exact fetchTrap_goesOn _ _
  · exact fetchTrap_goesOn _ _
  · exact Out.goesOn_next _
  · exact Out.goesOn_next _

theorem runWord_goesOn (s : State) : (runWord s).goesOn := by
  unfold runWord
  split
  · exact Out.goesOn_next _
  · exact Out.goesOn_next _
  · split
    · exact Out.goesOn_next _
    · exact Out.goesOn_ite (Out.goesOn_next _) (Out.goesOn_next _)
    · exact runNext_goesOn _

theorem takeCur_goesOn (s : State) : (takeCur s).goesOn :=
  Out.goesOn_ite (settled_goesOn (runWord_goesOn _)) (Out.goesOn_next _)

theorem takeEvent_goesOn (k : Nat) (s : State) : (takeEvent k s).goesOn := by
  unfold takeEvent
  split
  · exact Out.goesOn_next _
  · exact Out.goesOn_ite (exec_goesOn _ _) (Out.goesOn_next _)

theorem takeTimer_goesOn (k : Nat) (s : State) : (takeTimer k s).goesOn := by
  unfold takeTimer
  split
  · exact Out.goesOn_next _
  · exact Out.goesOn_ite (exec_goesOn _ _) (Out.goesOn_next _)

theorem takeLimit_goesOn (s : State) : (takeLimit s).goesOn := by
  unfold takeLimit
  split
  · exact takeTimer_goesOn _ _
  · exact Out.goesOn_next _

theorem takeTurn_goesOn (t : Turn) (s : State) : (takeTurn t s).goesOn := by
  cases t
  case cur => exact takeCur_goesOn s
  case switch k => exact takeCur_goesOn (s.bring k)
  case event k => exact takeEvent_goesOn k s
  case timer k => exact takeTimer_goesOn k s

/-- The turn that no schedule names goes on, or nothing is left after a fatal device error. -/
theorem takeDefault_cases (s : State) :
    (takeDefault s).goesOn ∨ s.hub.fatal = true ∧ takeDefault s = .fault .deviceFatal := by
  unfold takeDefault
  split
  · exact .inl (takeEvent_goesOn _ _)
  · split
    · exact .inl (takeLimit_goesOn _)
    · split
      · exact .inl (takeCur_goesOn _)
      · split
        · exact .inl (settled_goesOn (runWord_goesOn _))
        · split
          · exact .inl (takeLimit_goesOn _)
          · split
            · next hf => exact .inr ⟨hf, rfl⟩
            · exact .inl (Out.goesOn_next _)

theorem invalidated_goesOn {s : State} {o : Out} (h : o.goesOn) : (invalidated s o).goesOn := by
  obtain ⟨t, rfl⟩ := h; exact Out.goesOn_next _

theorem step_cases (s : State) : Out.goesOn (step s) ∨ s.hub.fatal = true ∧ step s = .fault .deviceFatal := by
  unfold step oneStep
  split
  · exact .inl (invalidated_goesOn (takeTurn_goesOn _ _))
  · obtain h | ⟨hf, h⟩ := takeDefault_cases s.tick
    · exact .inl (invalidated_goesOn h)
    · exact .inr ⟨hf, by rw [h]; rfl⟩

/-- Settles O60: every arm of exec answers a next state, and a step ends otherwise only in the last case of a turn that no
schedule names. -/
theorem stepAlwaysGoesOn : Obligations.StepAlwaysGoesOn := ⟨exec_goesOn, step_cases⟩

end Sys2Proof.Machine
end

section
/-! What the register writes and the moves of elements come to, bit by bit (R16, R120, R194, R321). -/
namespace Sys2Proof.Machine

/-! ## Bits of numbers -/

theorem testBit_bitsAt (x lo len k : Nat) : (bitsAt x lo len).testBit k = (decide (k < len) && x.testBit (lo + k)) := by
  rw [bitsAt, Nat.testBit_mod_two_pow, Nat.testBit_shiftRight]

theorem testBit_maskBits (lo w j : Nat) : (maskBits lo w).testBit j = decide (lo ≤ j ∧ j < lo + w) := by
  rw [maskBits, Nat.testBit_shiftLeft, Nat.testBit_two_pow_sub_one, ← Bool.decide_and, decide_eq_decide]
  omega

theorem bitsAt_zero_eq_mod (x w : Nat) : bitsAt x 0 w = x % 2 ^ w := rfl

theorem bitsAt_b2n (b : Bool) : bitsAt (b2n b) 0 1 = b2n b := by cases b <;> rfl

theorem b2n_testBit_zero (b : Bool) : (b2n b).testBit 0 = b := by cases b <;> rfl

/-! ## Overlays -/

/-- A bit after the items of a list have passed over it in order, each that covers it setting it. -/
def overlay {α : Type} (covers val : α → Bool) (l : List α) (b : Bool) : Bool :=
  l.foldl (fun b e => if covers e then val e else b) b

/-- Where all items that cover the bit agree, and one does or the bit has their value already, the overlay has it. -/
theorem overlay_eq {α : Type} {covers val : α → Bool} {l : List α} {b v : Bool}
    (h : ∀ e ∈ l, covers e = true → val e = v) (hb : b = v ∨ ∃ e ∈ l, covers e = true) : overlay covers val l b = v := by
  induction l generalizing b with
  | nil => simpa [overlay] using hb
  | cons e r ih =>
    refine ih (fun e' he' => h e' (List.mem_cons_of_mem _ he')) ?_
    dsimp only
    by_cases hc : covers e = true
    · exact .inl (by rw [if_pos hc, h e List.mem_cons_self hc])
    · rw [if_neg hc]
      rcases hb with hb | ⟨e', he', hc'⟩
      · exact .inl hb
      · rcases List.mem_cons.1 he' with rfl | he'
        · exact absurd hc' hc
        · exact .inr ⟨e', he', hc'⟩

theorem overlay_uncovered {α : Type} {covers val : α → Bool} {l : List α} {b : Bool}
    (h : ∀ e ∈ l, covers e ≠ true) : overlay covers val l b = b :=
  overlay_eq (fun e he hc => absurd hc (h e he)) (.inl rfl)

/-- A bit that some item covers does not depend on what it was. -/
theorem overlay_congr_of_any {α : Type} {covers val : α → Bool} {l : List α} (h : l.any covers = true) (b c : Bool) :
    overlay covers val l b = overlay covers val l c := by
  induction l generalizing b c with
  | nil => cases h
  | cons e r ih =>
    by_cases hc : covers e = true
    · simp [overlay, hc]
    · have hr : r.any covers = true := by simpa [hc] using h
      simpa [overlay, hc] using ih hr b c

/-- The overlay of a bit under a mask that holds what is covered. -/
theorem overlay_any {α : Type} (covers val : α → Bool) (l : List α) (b : Bool) :
    (if l.any covers = true then overlay covers val l false else b) = overlay covers val l b := by
  split
  · next h => exact overlay_congr_of_any h _ _
  · next h => rw [overlay_uncovered]; simpa using h

/-! ## Fields put into a register -/

/-- Does a field (register, bit, width, value) cover bit j of register n? -/
def fieldCovers (n j : Nat) (e : Nat × Nat × Nat × Nat) : Bool := decide (e.1 = n ∧ e.2.1 ≤ j ∧ j < e.2.1 + e.2.2.1)

/-- The bit that a field brings to bit j of its register. -/
def fieldBit (j : Nat) (e : Nat × Nat × Nat × Nat) : Bool := e.2.2.2.testBit (j - e.2.1)

theorem fieldCovers_iff {n j : Nat} {e : Nat × Nat × Nat × Nat} :
    fieldCovers n j e = true ↔ e.1 = n ∧ e.2.1 ≤ j ∧ j < e.2.1 + e.2.2.1 := by simp [fieldCovers]

/-- The mask and the value of the fields of one register, one more field put into them. -/
def putField (n : Nat) (a : Nat × Nat) (e : Nat × Nat × Nat × Nat) : Nat × Nat :=
  if e.1 = n then
    let m := maskBits e.2.1 e.2.2.1
    ((a.1 ||| m), ((a.2 ^^^ (a.2 &&& m)) ||| (bitsAt e.2.2.2 0 e.2.2.1 <<< e.2.1)))
  else a

theorem putField_mask (n j : Nat) (a : Nat × Nat) (e : Nat × Nat × Nat × Nat) :
    (putField n a e).1.testBit j = (a.1.testBit j || fieldCovers n j e) := by
  unfold putField
  by_cases h : e.1 = n
  · simp [h, fieldCovers, testBit_maskBits]
  · simp [h, fieldCovers]

theorem putField_val (n j : Nat) (a : Nat × Nat) (e : Nat × Nat × Nat × Nat) :
    (putField n a e).2.testBit j = if fieldCovers n j e then fieldBit j e else a.2.testBit j := by
  unfold putField
  by_cases h : e.1 = n
  · by_cases hj : e.2.1 ≤ j ∧ j < e.2.1 + e.2.2.1
    · have hk : j - e.2.1 < e.2.2.1 := by omega
      simp [h, fieldCovers, fieldBit, testBit_maskBits, hj, hk, testBit_bitsAt, Nat.testBit_xor]
    · have hk : ¬ (e.2.1 ≤ j ∧ j - e.2.1 < e.2.2.1) := by omega
      have hb : ((bitsAt e.2.2.2 0 e.2.2.1) <<< e.2.1).testBit j = false := by
        rw [Nat.testBit_shiftLeft, testBit_bitsAt, ← Bool.and_assoc, ← Bool.decide_and, decide_eq_false hk, Bool.false_and]
      simp [h, fieldCovers, hj, testBit_maskBits, hb, Nat.testBit_xor]
  · simp [h, fieldCovers]

/-- The mask and the value of the fields of register n. -/
def gathered (n : Nat) (l : List (Nat × Nat × Nat × Nat)) : Nat × Nat := l.foldl (putField n) (0, 0)

theorem foldl_putField_mask (n j : Nat) (l : List (Nat × Nat × Nat × Nat)) (a : Nat × Nat) :
    (l.foldl (putField n) a).1.testBit j = (a.1.testBit j || l.any (fieldCovers n j)) := by
  induction l generalizing a with
  | nil => simp
  | cons e r ih => rw [List.foldl_cons, ih, putField_mask, List.any_cons, Bool.or_assoc]

theorem foldl_putField_val (n j : Nat) (l : List (Nat × Nat × Nat × Nat)) (a : Nat × Nat) :
    (l.foldl (putField n) a).2.testBit j = overlay (fieldCovers n j) (fieldBit j) l (a.2.testBit j) := by
  induction l generalizing a with
  | nil => rfl
  | cons e r ih => rw [List.foldl_cons, ih, putField_val]; rfl

/-- A register whose bits of the mask take the value of the fields: bit j is the overlay of the fields on it. -/
theorem gathered_bit {W : Nat} (x : BitVec W) (n j : Nat) (l : List (Nat × Nat × Nat × Nat)) (hj : j < W) :
    ((x &&& ~~~BitVec.ofNat W (gathered n l).1) ||| (BitVec.ofNat W (gathered n l).2 &&& BitVec.ofNat W (gathered n l).1)).getLsbD j
      = overlay (fieldCovers n j) (fieldBit j) l (x.getLsbD j) := by
  have hm : (gathered n l).1.testBit j = l.any (fieldCovers n j) := by simp [gathered, foldl_putField_mask]
  have hv : (gathered n l).2.testBit j = overlay (fieldCovers n j) (fieldBit j) l false := by
    simp [gathered, foldl_putField_val]
  simp only [BitVec.getLsbD_or, BitVec.getLsbD_and, BitVec.getLsbD_not, BitVec.getLsbD_ofNat, hj, decide_true,
    Bool.true_and, hm, hv]
  rw [← overlay_any (b := x.getLsbD j)]
  cases l.any (fieldCovers n j) <;> simp

/-! ## The register files after a write -/

theorem VRegs.applyAll_cons (r : VRegs) (w : RegWrite) (l : List RegWrite) :
    r.applyAll (w :: l) = (r.apply w).applyAll l := rfl

theorem VRegs.applyAll_one (r : VRegs) (w : RegWrite) : r.applyAll [w] = r.apply w := rfl

@[simp] theorem VRegs.touch_vreg (r : VRegs) (k h n : Nat) : (r.touch k h).vreg n = r.vreg n := rfl
@[simp] theorem VRegs.touch_preg (r : VRegs) (k h n : Nat) : (r.touch k h).preg n = r.preg n := rfl
@[simp] theorem VRegs.touch_mreg (r : VRegs) (k h n : Nat) : (r.touch k h).mreg n = r.mreg n := rfl

theorem VRegs.apply_v_vreg (r : VRegs) (n k : Nat) (m x : BitVec 16384) :
    (r.apply (.v n m x)).vreg k = if k = n then (r.vreg n &&& ~~~m) ||| (x &&& m) else r.vreg k := Table.get_set ..

theorem VRegs.apply_p_preg (r : VRegs) {n : Nat} (hn : n ≠ 0) (k : Nat) (m x : BitVec 4096) :
    (r.apply (.p n m x)).preg k = if k = n then (r.preg n &&& ~~~m) ||| (x &&& m) else r.preg k := by
  simp only [VRegs.apply, if_neg hn, VRegs.touch_preg]
  by_cases hk : k = 0
  · simp [VRegs.preg, hk, Ne.symm hn]
  · simp only [VRegs.preg, if_neg hk, Table.get_set]

theorem VRegs.apply_p_frame (r : VRegs) (n : Nat) (m x : BitVec 4096) :
    (r.apply (.p n m x)).v = r.v ∧ (r.apply (.p n m x)).m = r.m := by
  unfold VRegs.apply
  dsimp only
  split <;> exact ⟨rfl, rfl⟩

theorem VRegs.apply_m_mreg (r : VRegs) (n k : Nat) (m x : BitVec 32768) :
    (r.apply (.m n m x)).mreg k =
      if k = n then { r.mreg n with bits := ((r.mreg n).bits &&& ~~~m) ||| (x &&& m) } else r.mreg k := Table.get_set ..

theorem VRegs.apply_m_tag (r : VRegs) (n : Nat) (m x : BitVec 32768) :
    ((r.apply (.m n m x)).mreg n).tag = (r.mreg n).tag := by rw [VRegs.apply_m_mreg, if_pos rfl]

/-- Writes of v registers, one for each of several distinct registers. -/
theorem VRegs.applyAll_v_vreg (M X : Nat → BitVec 16384) (regs : List Nat) (hn : regs.Nodup) (r : VRegs) (k : Nat) :
    (r.applyAll (regs.map (fun n => .v n (M n) (X n)))).vreg k =
      if k ∈ regs then (r.vreg k &&& ~~~M k) ||| (X k &&& M k) else r.vreg k := by
  induction regs generalizing r with
  | nil => rfl
  | cons n regs ih =>
    obtain ⟨hnot, hn⟩ := List.nodup_cons.1 hn
    rw [List.map_cons, VRegs.applyAll_cons, ih hn, VRegs.apply_v_vreg]
    by_cases hk : k = n
    · subst hk; simp [hnot]
    · simp [hk]

/-- Writes of v registers leave the predicates and the m registers. -/
theorem VRegs.applyAll_v_frame (M X : Nat → BitVec 16384) (regs : List Nat) (r : VRegs) :
    (r.applyAll (regs.map (fun n => .v n (M n) (X n)))).p = r.p ∧
      (r.applyAll (regs.map (fun n => .v n (M n) (X n)))).m = r.m := by
  induction regs generalizing r with
  | nil => exact ⟨rfl, rfl⟩
  | cons n regs ih => exact ih (r.apply (.v n (M n) (X n)))

theorem nodup_eraseDups (l : List Nat) : l.eraseDups.Nodup := by
  induction hn : l.length using Nat.strong_induction_on generalizing l with
  | _ k ih =>
    cases l with
    | nil => simp
    | cons a r =>
      rw [List.eraseDups_cons, List.nodup_cons]
      have hlt : (r.filter (fun b => !b == a)).length < k :=
        lt_of_le_of_lt (List.length_filter_le _ _) (by rw [← hn]; simp)
      exact ⟨by simp [List.mem_eraseDups], ih _ hlt _ rfl⟩

theorem gatherV_eq (l : List (Nat × Nat × Nat × Nat)) :
    gatherV l = ((l.map (fun e => e.1)).eraseDups).map (fun n =>
      .v n (BitVec.ofNat 16384 (gathered n l).1) (BitVec.ofNat 16384 (gathered n l).2)) := rfl

/-- Bit j of a v register after fields have been written. -/
theorem VRegs.gatherV_bit (r : VRegs) (l : List (Nat × Nat × Nat × Nat)) (n j : Nat) (hj : j < 16384) :
    ((r.applyAll (gatherV l)).vreg n).getLsbD j =
      overlay (fieldCovers n j) (fieldBit j) l ((r.vreg n).getLsbD j) := by
  rw [gatherV_eq, VRegs.applyAll_v_vreg _ _ _ (nodup_eraseDups _)]
  split
  · exact gathered_bit _ _ _ _ hj
  · next h =>
    rw [overlay_uncovered]
    intro e he hc
    obtain ⟨rfl, -, -⟩ := fieldCovers_iff.1 hc
    exact h (List.mem_eraseDups.2 (List.mem_map_of_mem he))

theorem VRegs.gatherV_vreg_other (r : VRegs) (l : List (Nat × Nat × Nat × Nat)) (n : Nat) (h : ∀ e ∈ l, e.1 ≠ n) :
    (r.applyAll (gatherV l)).vreg n = r.vreg n := by
  rw [gatherV_eq, VRegs.applyAll_v_vreg _ _ _ (nodup_eraseDups _), if_neg]
  intro hn
  obtain ⟨e, he, rfl⟩ := List.mem_map.1 (List.mem_eraseDups.1 hn)
  exact h e he rfl

theorem VRegs.gatherV_frame (r : VRegs) (l : List (Nat × Nat × Nat × Nat)) :
    (r.applyAll (gatherV l)).p = r.p ∧ (r.applyAll (gatherV l)).m = r.m :=
  VRegs.applyAll_v_frame _ _ _ _

/-! ## Where elements stand (R120) -/

/-- A grant and an element width that a group can have. -/
structure GroupShape (grant w : Nat) : Prop where
  grant_pos : 1 ≤ grant
  grant_le : grant ≤ 8
  width : w ∈ [4, 6, 8, 16, 32, 64]

namespace GroupShape

variable {grant w : Nat} (h : GroupShape grant w)
include h

theorem width_pos : 0 < w := by
  have := h.width
  simp only [List.mem_cons, List.not_mem_nil, or_false] at this
  omega

theorem perSlice_pos : 0 < perSlice w := by
  have := h.width
  simp only [List.mem_cons, List.not_mem_nil, or_false] at this
  rcases this with rfl | rfl | rfl | rfl | rfl | rfl <;> decide

omit h in
theorem width_mul_perSlice : w * perSlice w ≤ 2048 := Nat.mul_div_le 2048 w

theorem one_pos : 0 < grant * perSlice w := Nat.mul_pos h.grant_pos h.perSlice_pos

/-- A bit of element a of one register: its slice, and its place in it. -/
theorem elemPos_bit {a k : Nat} (hk : k < w) :
    (elemPos w a + k) / 2048 = a / perSlice w ∧ (elemPos w a + k) % 2048 = w * (a % perSlice w) + k := by
  have hlt : w * (a % perSlice w) + k < 2048 := by
    have hm : w * (a % perSlice w + 1) ≤ w * perSlice w := Nat.mul_le_mul_left _ (Nat.mod_lt _ h.perSlice_pos)
    have := width_mul_perSlice (w := w)
    rw [Nat.mul_succ] at hm
    omega
  unfold elemPos
  omega

theorem elemPos_lt {a k : Nat} (ha : a < grant * perSlice w) (hk : k < w) : elemPos w a + k < 16384 := by
  have hd : a / perSlice w < grant := Nat.div_lt_of_lt_mul (by rwa [Nat.mul_comm])
  have := (h.elemPos_bit (a := a) hk).1
  have := h.grant_le
  omega

theorem groupLoc_bit_lt (base i : Nat) {k : Nat} (hk : k < w) : (groupLoc grant w base i).2 + k < 16384 :=
  h.elemPos_lt (Nat.mod_lt _ h.one_pos) hk

/-- Bits of a group of at most 32 registers stand apart. -/
theorem groupLoc_inj {base i i' k k' : Nat} (hi : i < 32 * (grant * perSlice w)) (hi' : i' < 32 * (grant * perSlice w))
    (hk : k < w) (hk' : k' < w) (hreg : (groupLoc grant w base i).1 = (groupLoc grant w base i').1)
    (hbit : (groupLoc grant w base i).2 + k = (groupLoc grant w base i').2 + k') : i = i' ∧ k = k' := by
  simp only [groupLoc] at hreg hbit
  obtain ⟨hs, hp⟩ := h.elemPos_bit (a := i % (grant * perSlice w)) hk
  obtain ⟨hs', hp'⟩ := h.elemPos_bit (a := i' % (grant * perSlice w)) hk'
  rw [hbit] at hs hp
  have hq : i / (grant * perSlice w) = i' / (grant * perSlice w) := by
    have key : ∀ x y : Nat, x < 32 → y < 32 → (base + x) % 32 = (base + y) % 32 → x = y := by omega
    rw [Nat.mul_comm] at hi hi'
    exact key _ _ (Nat.div_lt_of_lt_mul hi) (Nat.div_lt_of_lt_mul hi') hreg
  have hin : w * (i % (grant * perSlice w) % perSlice w) + k = w * (i' % (grant * perSlice w) % perSlice w) + k' :=
    hp.symm.trans hp'
  have hk2 : k = k' := by
    have := congrArg (· % w) hin
    simpa [Nat.mul_add_mod, Nat.mod_eq_of_lt hk, Nat.mod_eq_of_lt hk'] using this
  have hm : i % (grant * perSlice w) % perSlice w = i' % (grant * perSlice w) % perSlice w :=
    Nat.eq_of_mul_eq_mul_left h.width_pos (by omega)
  have hr : i % (grant * perSlice w) = i' % (grant * perSlice w) := by
    rw [← Nat.div_add_mod (i % (grant * perSlice w)) (perSlice w), ← hs, hs', hm, Nat.div_add_mod]
  exact ⟨by rw [← Nat.div_add_mod i (grant * perSlice w), hq, hr, Nat.div_add_mod], hk2⟩

end GroupShape

/-- A bit of an element is a bit of its register. -/
theorem VRegs.elem_testBit (r : VRegs) (grant w base i k : Nat) :
    (r.elem grant w base i).testBit k =
      (decide (k < w) && (r.vreg (groupLoc grant w base i).1).getLsbD ((groupLoc grant w base i).2 + k)) := by
  rw [VRegs.elem, testBit_bitsAt, BitVec.testBit_toNat]

/-- Elements agree where their bits below the width do. -/
theorem VRegs.elem_eq_of_bits {r : VRegs} {grant w base i v : Nat}
    (h : ∀ k < w, (r.vreg (groupLoc grant w base i).1).getLsbD ((groupLoc grant w base i).2 + k) = v.testBit k) :
    r.elem grant w base i = v % 2 ^ w := by
  apply Nat.eq_of_testBit_eq
  intro k
  rw [VRegs.elem_testBit, Nat.testBit_mod_two_pow]
  by_cases hk : k < w
  · rw [h k hk]
  · simp [hk]

theorem VRegs.elem_lt (r : VRegs) (grant w base i : Nat) : r.elem grant w base i < 2 ^ w := Nat.mod_lt _ (Nat.two_pow_pos w)

/-! ## Elements written -/

/-- The field of an element. -/
def elemField (grant w base : Nat) (e : Nat × Nat) : Nat × Nat × Nat × Nat :=
  ((groupLoc grant w base e.1).1, (groupLoc grant w base e.1).2, w, e.2)

theorem groupWrites_eq (grant w base : Nat) (l : List (Nat × Nat)) :
    groupWrites grant w base l =
      gatherV (l.map (elemField grant w base) ++ tailZeros grant w base (l.map Prod.fst)) := rfl

/-- What writes the unused bits of slices: width 6, value 0, past the elements. -/
theorem mem_tailZeros {grant w base : Nat} {is : List Nat} {e : Nat × Nat × Nat × Nat}
    (he : e ∈ tailZeros grant w base is) : w = 6 ∧ ∃ i ∈ is,
      e = ((groupLoc grant w base i).1, 2048 * ((groupLoc grant w base i).2 / 2048) + 2046, 2, 0) := by
  unfold tailZeros at he
  split at he
  · next h6 =>
    obtain ⟨i, hi, rfl⟩ := List.mem_map.1 he
    exact ⟨h6, i, hi, rfl⟩
  · cases he

section
variable {grant w base : Nat} (h : GroupShape grant w) {l : List (Nat × Nat)}
  (hn : (l.map Prod.fst).Nodup) (hl : ∀ e ∈ l, e.1 < 32 * (grant * perSlice w))
include h

/-- The unused bits of a slice are no bits of an element. -/
theorem tailZeros_not_covers {i k : Nat} (hk : k < w) {e : Nat × Nat × Nat × Nat} {is : List Nat}
    (he : e ∈ tailZeros grant w base is) (n : Nat) : fieldCovers n ((groupLoc grant w base i).2 + k) e ≠ true := by
  obtain ⟨rfl, i', -, rfl⟩ := mem_tailZeros he
  intro hc
  obtain ⟨-, hlo, hhi⟩ := fieldCovers_iff.1 hc
  have hb := (h.elemPos_bit (a := i % (grant * perSlice 6)) hk).2
  have hm : i % (grant * perSlice 6) % perSlice 6 < 341 := Nat.mod_lt _ (by decide)
  simp only [groupLoc] at hlo hhi
  omega

include hl

/-- The field of an element that covers a bit of element i is that of i. -/
theorem elemField_covers {i k : Nat} (hi : i < 32 * (grant * perSlice w)) (hk : k < w) {e : Nat × Nat} (he : e ∈ l)
    (hc : fieldCovers (groupLoc grant w base i).1 ((groupLoc grant w base i).2 + k) (elemField grant w base e) = true) :
    e.1 = i := by
  obtain ⟨hreg, hlo, hhi⟩ := fieldCovers_iff.1 hc
  simp only [elemField] at hreg hlo hhi
  exact (h.groupLoc_inj (k := (groupLoc grant w base i).2 + k - (groupLoc grant w base e.1).2) (k' := k) (hl e he) hi
    (by omega) hk hreg (by omega)).1

/-- An element that is not written keeps its value. -/
theorem groupWrites_elem_other (r : VRegs) {i : Nat} (hi : i < 32 * (grant * perSlice w)) (hni : i ∉ l.map Prod.fst) :
    (r.applyAll (groupWrites grant w base l)).elem grant w base i = r.elem grant w base i := by
  have hr : r.elem grant w base i = r.elem grant w base i % 2 ^ w := (Nat.mod_eq_of_lt (r.elem_lt ..)).symm
  rw [hr]
  apply VRegs.elem_eq_of_bits
  intro k hk
  rw [groupWrites_eq, VRegs.gatherV_bit _ _ _ _ (h.groupLoc_bit_lt base i hk), VRegs.elem_testBit, decide_eq_true hk,
    Bool.true_and, overlay_uncovered]
  intro f hf hc
  rcases List.mem_append.1 hf with hf | hf
  · obtain ⟨e, he, rfl⟩ := List.mem_map.1 hf
    exact hni (List.mem_map.2 ⟨e, he, elemField_covers h hl hi hk he hc⟩)
  · exact tailZeros_not_covers h hk hf _ hc

include hn

/-- An element that is written holds the low bits of its value. -/
theorem groupWrites_elem (r : VRegs) {e : Nat × Nat} (he : e ∈ l) :
    (r.applyAll (groupWrites grant w base l)).elem grant w base e.1 = e.2 % 2 ^ w := by
  apply VRegs.elem_eq_of_bits
  intro k hk
  rw [groupWrites_eq, VRegs.gatherV_bit _ _ _ _ (h.groupLoc_bit_lt base e.1 hk)]
  apply overlay_eq
  · intro f hf hc
    rcases List.mem_append.1 hf with hf | hf
    · obtain ⟨e', he', rfl⟩ := List.mem_map.1 hf
      have : e' = e := List.inj_on_of_nodup_map hn he' he (elemField_covers h hl (hl e he) hk he' hc)
      subst this
      simp [fieldBit, elemField]
    · exact absurd hc (tailZeros_not_covers h hk hf _)
  · exact .inr ⟨elemField grant w base e, List.mem_append_left _ (List.mem_map_of_mem he),
      fieldCovers_iff.2 ⟨rfl, Nat.le_add_right _ _, by simp only [elemField]; omega⟩⟩

end

/-- A register that holds no element written stays as it was. -/
theorem groupWrites_vreg_other (r : VRegs) {grant w base : Nat} {l : List (Nat × Nat)} {k : Nat}
    (hk : k ∉ l.map (fun e => (base + e.1 / (grant * perSlice w)) % 32)) :
    (r.applyAll (groupWrites grant w base l)).vreg k = r.vreg k := by
  rw [groupWrites_eq]
  apply VRegs.gatherV_vreg_other
  rintro f hf rfl
  rcases List.mem_append.1 hf with hf | hf
  · obtain ⟨e, he, rfl⟩ := List.mem_map.1 hf
    exact hk (List.mem_map.2 ⟨e, he, rfl⟩)
  · obtain ⟨-, i, hi, rfl⟩ := mem_tailZeros hf
    obtain ⟨e, he, rfl⟩ := List.mem_map.1 hi
    exact hk (List.mem_map.2 ⟨e, he, rfl⟩)

/-- At width 6 the unused bits of the slices written are 0. -/
theorem groupWrites_tail (r : VRegs) {grant base : Nat} (h : GroupShape grant 6) {l : List (Nat × Nat)}
    {e : Nat × Nat} (he : e ∈ l) {k : Nat} (hk : k = 2046 ∨ k = 2047) :
    ((r.applyAll (groupWrites grant 6 base l)).vreg ((base + e.1 / (grant * 341)) % 32)).getLsbD
      (2048 * (e.1 % (grant * 341) / 341) + k) = false := by
  have hs : e.1 % (grant * 341) / 341 < grant :=
    Nat.div_lt_of_lt_mul (by rw [Nat.mul_comm 341]; exact Nat.mod_lt _ h.one_pos)
  have hg := h.grant_le
  rw [groupWrites_eq, VRegs.gatherV_bit _ _ _ _ (by omega)]
  apply overlay_eq
  · intro f hf hc
    obtain ⟨-, hlo, hhi⟩ := fieldCovers_iff.1 hc
    rcases List.mem_append.1 hf with hf | hf
    · obtain ⟨e', he', rfl⟩ := List.mem_map.1 hf
      have hb := (h.elemPos_bit (a := e'.1 % (grant * perSlice 6)) (k := 0) (by decide)).2
      have hm : e'.1 % (grant * perSlice 6) % perSlice 6 < 341 := Nat.mod_lt _ (by decide)
      generalize e'.1 % (grant * perSlice 6) % perSlice 6 = m at hb hm
      generalize e.1 % (grant * 341) / 341 = q at hs hlo hhi
      simp only [elemField, groupLoc] at hlo hhi
      rcases Nat.lt_or_ge q ((elemPos 6 (e'.1 % (grant * perSlice 6)) + 0) / 2048) with hq | hq <;> omega
    · obtain ⟨-, i, -, rfl⟩ := mem_tailZeros hf
      simp [fieldBit]
  · refine .inr ⟨_, List.mem_append_right _ (List.mem_map.2 ⟨e.1, List.mem_map_of_mem he, rfl⟩), fieldCovers_iff.2 ⟨rfl, ?_⟩⟩
    have hq := (h.elemPos_bit (a := e.1 % (grant * perSlice 6)) (k := 0) (by decide)).1
    have hp : perSlice 6 = 341 := rfl
    simp only [groupLoc, Nat.add_zero, hp] at hq ⊢
    omega

/-! ## Bits of a predicate written (R48) -/

/-- The field of a predicate bit. -/
def predField (n : Nat) (e : Nat × Bool) : Nat × Nat × Nat × Nat := (n, e.1, 1, b2n e.2)

theorem predWrite_eq (n : Nat) (l : List (Nat × Bool)) : predWrite n l = if l.isEmpty then [] else
    [.p n (BitVec.ofNat 4096 (gathered n (l.map (predField n))).1)
      (BitVec.ofNat 4096 (gathered n (l.map (predField n))).2)] := by
  have hf : (fun (a : Nat × Nat) (e : Nat × Bool) => putField n a (predField n e)) = fun a e =>
      ((a.1 ||| maskBits e.1 1), ((a.2 ^^^ (a.2 &&& maskBits e.1 1)) ||| (b2n e.2 <<< e.1))) := by
    funext a e
    simp [putField, predField, bitsAt_b2n]
  simp only [predWrite, gathered, List.foldl_map, hf]

/-- Bit j of a predicate after bits of it have been written. -/
theorem VRegs.predWrite_bit (r : VRegs) {n : Nat} (hn : n ≠ 0) (l : List (Nat × Bool)) {j : Nat} (hj : j < 4096) :
    ((r.applyAll (predWrite n l)).preg n).getLsbD j =
      overlay (fieldCovers n j) (fieldBit j) (l.map (predField n)) ((r.preg n).getLsbD j) := by
  rw [predWrite_eq]
  cases l with
  | nil => rfl
  | cons e l =>
    rw [List.isEmpty_cons, if_neg Bool.false_ne_true, VRegs.applyAll_one, VRegs.apply_p_preg r hn, if_pos rfl]
    exact gathered_bit _ _ _ _ hj

theorem VRegs.predWrite_frame (r : VRegs) {n : Nat} (hn : n ≠ 0) (l : List (Nat × Bool)) :
    (∀ k, k ≠ n → (r.applyAll (predWrite n l)).preg k = r.preg k) ∧
      (r.applyAll (predWrite n l)).v = r.v ∧ (r.applyAll (predWrite n l)).m = r.m := by
  rw [predWrite_eq]
  cases l with
  | nil => exact ⟨fun _ _ => rfl, rfl, rfl⟩
  | cons e l =>
    rw [List.isEmpty_cons, if_neg Bool.false_ne_true]
    exact ⟨fun k hk => (VRegs.apply_p_preg r hn k _ _).trans (if_neg hk), VRegs.apply_p_frame r n _ _⟩

theorem predField_covers {n j : Nat} {e : Nat × Bool} : fieldCovers n j (predField n e) = true ↔ e.1 = j := by
  rw [fieldCovers_iff]; simp only [predField, true_and]; omega

/-- A predicate bit that is written holds its value. -/
theorem predWrite_set (r : VRegs) {n : Nat} (hn : n ≠ 0) {l : List (Nat × Bool)} (hl : (l.map Prod.fst).Nodup)
    {e : Nat × Bool} (he : e ∈ l) (hj : e.1 < 4096) : ((r.applyAll (predWrite n l)).preg n).getLsbD e.1 = e.2 := by
  rw [VRegs.predWrite_bit r hn l hj]
  apply overlay_eq
  · intro f hf hc
    obtain ⟨e', he', rfl⟩ := List.mem_map.1 hf
    have : e' = e := List.inj_on_of_nodup_map hl he' he (predField_covers.1 hc)
    subst this
    rw [fieldBit, predField, Nat.sub_self, b2n_testBit_zero]
  · exact .inr ⟨predField n e, List.mem_map_of_mem he, predField_covers.2 rfl⟩

theorem predWrite_other (r : VRegs) {n : Nat} (hn : n ≠ 0) {l : List (Nat × Bool)} {j : Nat} (hj : j < 4096)
    (h : j ∉ l.map Prod.fst) : ((r.applyAll (predWrite n l)).preg n).getLsbD j = (r.preg n).getLsbD j := by
  rw [VRegs.predWrite_bit r hn l hj, overlay_uncovered]
  intro f hf hc
  obtain ⟨e, he, rfl⟩ := List.mem_map.1 hf
  exact h (List.mem_map.2 ⟨e, he, predField_covers.1 hc⟩)

/-! ## Components of an m register written (R321) -/

/-- The field of a component. -/
def compField (n : Nat) (e : Nat × Nat × Nat) : Nat × Nat × Nat × Nat := (n, 512 * e.1 + 32 * e.2.1, 32, e.2.2)

theorem compWrite_eq (n : Nat) (l : List (Nat × Nat × Nat)) : compWrite n l = if l.isEmpty then [] else
    [.m n (BitVec.ofNat 32768 (gathered n (l.map (compField n))).1)
      (BitVec.ofNat 32768 (gathered n (l.map (compField n))).2)] := by
  have hf : (fun (a : Nat × Nat) (e : Nat × Nat × Nat) => putField n a (compField n e)) = fun a e =>
      ((a.1 ||| maskBits (512 * e.1 + 32 * e.2.1) 32), ((a.2 ^^^ (a.2 &&& maskBits (512 * e.1 + 32 * e.2.1) 32)) |||
        (bitsAt e.2.2 0 32 <<< (512 * e.1 + 32 * e.2.1)))) := by
    funext a e
    simp [putField, compField]
  simp only [compWrite, gathered, List.foldl_map, hf]

/-- An m register after components of it have been written: its bits are overlaid, and its tag stays. -/
theorem VRegs.compWrite_bit (r : VRegs) (n : Nat) (l : List (Nat × Nat × Nat)) {j : Nat} (hj : j < 32768) :
    ((r.applyAll (compWrite n l)).mreg n).bits.getLsbD j =
      overlay (fieldCovers n j) (fieldBit j) (l.map (compField n)) ((r.mreg n).bits.getLsbD j) := by
  rw [compWrite_eq]
  cases l with
  | nil => rfl
  | cons e l =>
    rw [List.isEmpty_cons, if_neg Bool.false_ne_true, VRegs.applyAll_one, VRegs.apply_m_mreg, if_pos rfl]
    exact gathered_bit _ _ _ _ hj

theorem VRegs.compWrite_frame (r : VRegs) (n : Nat) (l : List (Nat × Nat × Nat)) :
    ((r.applyAll (compWrite n l)).mreg n).tag = (r.mreg n).tag ∧
      (∀ k, k ≠ n → (r.applyAll (compWrite n l)).mreg k = r.mreg k) ∧
      (r.applyAll (compWrite n l)).v = r.v ∧ (r.applyAll (compWrite n l)).p = r.p := by
  rw [compWrite_eq]
  cases l with
  | nil => exact ⟨rfl, fun _ _ => rfl, rfl, rfl⟩
  | cons e l =>
    rw [List.isEmpty_cons, if_neg Bool.false_ne_true]
    exact ⟨VRegs.apply_m_tag r n _ _, fun k hk => (VRegs.apply_m_mreg r n k _ _).trans (if_neg hk), rfl, rfl⟩

/-- Components are 32 bits each, at places of their own. -/
theorem compField_covers {n i c k : Nat} {e : Nat × Nat × Nat} (he : e.2.1 < 16) (hc : c < 16) (hk : k < 32) :
    fieldCovers n (512 * i + 32 * c + k) (compField n e) = true ↔ e.1 = i ∧ e.2.1 = c := by
  rw [fieldCovers_iff]; simp only [compField, true_and]; omega

theorem MvReg.comp_testBit (m : MvReg) (i c k : Nat) :
    (m.comp i c).testBit k = (decide (k < 32) && m.bits.getLsbD (512 * i + 32 * c + k)) := by
  rw [MvReg.comp, testBit_bitsAt, BitVec.testBit_toNat]

/-- A component that is written holds the low bits of its value. -/
theorem compWrite_comp (r : VRegs) (n : Nat) {l : List (Nat × Nat × Nat)} (hl : (l.map (fun e => (e.1, e.2.1))).Nodup)
    (hb : ∀ e ∈ l, e.1 < 64 ∧ e.2.1 < 16) {e : Nat × Nat × Nat} (he : e ∈ l) :
    ((r.applyAll (compWrite n l)).mreg n).comp e.1 e.2.1 = e.2.2 % 2 ^ 32 := by
  apply Nat.eq_of_testBit_eq
  intro k
  rw [MvReg.comp_testBit, Nat.testBit_mod_two_pow]
  by_cases hk : k < 32
  · obtain ⟨hi, hc⟩ := hb e he
    rw [VRegs.compWrite_bit r n l (by omega), overlay_eq (v := e.2.2.testBit k)]
    · intro f hf hc'
      obtain ⟨e', he', rfl⟩ := List.mem_map.1 hf
      obtain ⟨h1, h2⟩ := (compField_covers (hb e' he').2 hc hk).1 hc'
      have : e' = e := List.inj_on_of_nodup_map hl he' he (Prod.ext h1 h2)
      subst this
      simp [fieldBit, compField]
    · exact .inr ⟨compField n e, List.mem_map_of_mem he, (compField_covers hc hc hk).2 ⟨rfl, rfl⟩⟩
  · simp [hk]

theorem compWrite_other (r : VRegs) (n : Nat) {l : List (Nat × Nat × Nat)} (hb : ∀ e ∈ l, e.1 < 64 ∧ e.2.1 < 16)
    {i c : Nat} (hi : i < 64) (hc : c < 16) (h : (i, c) ∉ l.map (fun e => (e.1, e.2.1))) :
    ((r.applyAll (compWrite n l)).mreg n).comp i c = (r.mreg n).comp i c := by
  apply Nat.eq_of_testBit_eq
  intro k
  rw [MvReg.comp_testBit, MvReg.comp_testBit]
  by_cases hk : k < 32
  · rw [VRegs.compWrite_bit r n l (by omega), overlay_uncovered]
    intro f hf hc'
    obtain ⟨e, he, rfl⟩ := List.mem_map.1 hf
    obtain ⟨h1, h2⟩ := (compField_covers (hb e he).2 hc hk).1 hc'
    exact h (List.mem_map.2 ⟨e, he, Prod.ext h1 h2⟩)
  · simp [hk]

/-! ## Loads and stores of elements (R194) -/

/-- Does a run move bit q of the byte at p? -/
def StoreRun.coversByte (p q : Nat) (x : StoreRun) : Bool := decide (x.pa = p ∧ x.bit ≤ q ∧ q < x.bit + x.len)

/-- The bit that a run of a v register brings to bit q of its byte. -/
def StoreRun.brings (v : VRegs) (q : Nat) (x : StoreRun) : Bool := (v.vreg x.reg).getLsbD (x.src + (q - x.bit))

theorem StoreRun.coversByte_iff {p q : Nat} {x : StoreRun} :
    x.coversByte p q = true ↔ x.pa = p ∧ x.bit ≤ q ∧ q < x.bit + x.len := by simp [StoreRun.coversByte]

theorem storeRun_bit (v : VRegs) (who : Writer) (m : Mem) (x : StoreRun) (p : Nat) {q : Nat} (hq : q < 8) :
    ((storeRun v false who m x).byte p).getLsbD q =
      if x.coversByte p q then x.brings v q else (m.byte p).getLsbD q := by
  simp only [storeRun, Bool.false_eq_true, if_false, Mem.byte_write]
  by_cases hp : p = x.pa
  · subst hp
    rw [if_pos rfl, BitVec.getLsbD_ofNat, Nat.testBit_or, Nat.testBit_xor, Nat.testBit_and, testBit_maskBits,
      Nat.testBit_shiftLeft, testBit_bitsAt, BitVec.testBit_toNat, BitVec.testBit_toNat]
    by_cases hc : x.bit ≤ q ∧ q < x.bit + x.len
    · have hk : q - x.bit < x.len := by omega
      simp [StoreRun.coversByte, StoreRun.brings, hc, hk, hq]
    · have hk : ¬ (x.bit ≤ q ∧ q - x.bit < x.len) := by omega
      rw [← Bool.and_assoc (decide _), ← Bool.decide_and, decide_eq_false hk]
      simp [StoreRun.coversByte, hc, hq]
  · have hc : ¬ x.coversByte p q = true := fun h => hp (StoreRun.coversByte_iff.1 h).1.symm
    rw [if_neg hp, if_neg hc]

/-- A bit of memory after the runs of a store. -/
theorem storeRuns_bit (v : VRegs) (who : Writer) (l : List StoreRun) (m : Mem) (p : Nat) {q : Nat} (hq : q < 8) :
    ((l.foldl (storeRun v false who) m).byte p).getLsbD q =
      overlay (StoreRun.coversByte p q) (StoreRun.brings v q) l ((m.byte p).getLsbD q) := by
  induction l generalizing m with
  | nil => rfl
  | cons x l ih => rw [List.foldl_cons, ih, storeRun_bit _ _ _ _ _ hq]; rfl

/-- A byte that no run names is as before. -/
theorem storeRuns_byte_other (v : VRegs) (who : Writer) (l : List StoreRun) (m : Mem) (p : Nat)
    (h : ∀ x ∈ l, x.pa ≠ p) : (l.foldl (storeRun v false who) m).byte p = m.byte p := by
  apply BitVec.eq_of_getLsbD_eq
  intro q hq
  rw [storeRuns_bit _ _ _ _ _ hq, overlay_uncovered]
  exact fun x hx hc => h x hx (StoreRun.coversByte_iff.1 hc).1

/-- The fields that a load writes. -/
def loadField (val : StoreRun → Nat) (x : StoreRun) : Nat × Nat × Nat × Nat := (x.reg, x.src, x.len, val x)

theorem runWrites_eq (v : VRegs) (val : StoreRun → Nat) (l : List StoreRun) :
    runWrites v false val l = gatherV (l.map (loadField val)) := rfl

/-- A bit d of a run of a field belongs to a bit t of the field, in the register and in its byte. -/
theorem slotRuns_bit {pas : List Nat} {reg src off len : Nat} {x : StoreRun} (hx : x ∈ slotRuns pas reg src off len)
    {d : Nat} (hd : d < x.len) :
    ∃ t < len, x.reg = reg ∧ x.src + d = src + t ∧ x.bit + d = (off + t) % 8 ∧ x.pa = pas.getD ((off + t) / 8) 0 := by
  simp only [slotRuns, rangeFrom, List.mem_map, List.mem_range] at hx
  obtain ⟨_, ⟨k, hk, rfl⟩, rfl⟩ := hx
  dsimp only at hd ⊢
  have h8 : (off + (max off (8 * (off / 8 + k)) - off + d)) / 8 = off / 8 + k := by omega
  exact ⟨max off (8 * (off / 8 + k)) - off + d, by omega, rfl, by omega, by omega, by rw [h8]⟩

/-- Every bit of a field lies in one of its runs. -/
theorem slotRuns_covers (pas : List Nat) (reg src off : Nat) {len t : Nat} (ht : t < len) :
    ∃ x ∈ slotRuns pas reg src off len, ∃ d < x.len,
      x.reg = reg ∧ x.src + d = src + t ∧ x.bit + d = (off + t) % 8 ∧ x.pa = pas.getD ((off + t) / 8) 0 := by
  have hk : (off + t) / 8 - off / 8 < cdiv (off + len) 8 - off / 8 := by unfold cdiv; omega
  have h8 : off / 8 + ((off + t) / 8 - off / 8) = (off + t) / 8 := by omega
  refine ⟨_, List.mem_map.2 ⟨off / 8 + ((off + t) / 8 - off / 8), List.mem_map.2 ⟨_, List.mem_range.2 hk, rfl⟩, rfl⟩, ?_⟩
  rw [h8]
  dsimp only
  exact ⟨off + t - max off (8 * ((off + t) / 8)), by omega, rfl, by omega, by omega, rfl⟩

/-- The bytes of a run are those of the field's places. -/
theorem slotRuns_pa_mem {pas : List Nat} {reg src off len : Nat} (hl : pas.length = cdiv (off + len) 8) {x : StoreRun}
    (hx : x ∈ slotRuns pas reg src off len) : x.pa ∈ pas := by
  simp only [slotRuns, rangeFrom, List.mem_map, List.mem_range] at hx
  obtain ⟨_, ⟨k, hk, rfl⟩, rfl⟩ := hx
  simp only
  rw [List.getD_eq_getElem _ _ (by omega)]
  exact List.getElem_mem _

/-- Bit b of the bytes at pas. -/
def Mem.bitOf (m : Mem) (pas : List Nat) (b : Nat) : Bool := (m.byte (pas.getD (b / 8) 0)).getLsbD (b % 8)

/-- The runs of element i of a stream whose elements of width w stand off bits into its first byte, at the places pas. -/
def elemRuns (grant w base off : Nat) (pas : Nat → List Nat) (i : Nat) : List StoreRun :=
  slotRuns (pas i) (groupLoc grant w base i).1 (groupLoc grant w base i).2 ((off + w * i) % 8) w

theorem streamElem_runs {s : State} {grant w : Nat} (hw : vtSew s.cur.conf.vtype = w) (hg : s.cur.conf.grant = grant)
    (base off : Nat) (x : Word) (pas : Nat → List Nat) (i : Nat) :
    (streamElem s base off x i).runs (pas i) = elemRuns grant w base off pas i := by
  subst hw hg
  simp [VElem.runs, streamElem, elemRuns, State.vt]

section
variable {grant w base off : Nat} (h : GroupShape grant w) {is : List Nat} {pas : Nat → List Nat}
  (hi : ∀ i ∈ is, i < 32 * (grant * perSlice w))
include h hi

/-- A load puts into each bit of an element the bit of its places. -/
theorem load_elem_bit (r : VRegs) (m : Mem) {i k : Nat} (him : i ∈ is) (hk : k < w) :
    ((r.applyAll (runWrites r false m.runBits (is.flatMap (elemRuns grant w base off pas)))).elem grant w base i).testBit k =
      m.bitOf (pas i) ((off + w * i) % 8 + k) := by
  rw [VRegs.elem_testBit, decide_eq_true hk, Bool.true_and, runWrites_eq, VRegs.gatherV_bit _ _ _ _ (h.groupLoc_bit_lt base i hk)]
  apply overlay_eq
  · intro f hf hc
    obtain ⟨x, hx, rfl⟩ := List.mem_map.1 hf
    obtain ⟨i', hi', hx⟩ := List.mem_flatMap.1 hx
    obtain ⟨hreg, hlo, hhi⟩ := fieldCovers_iff.1 hc
    simp only [loadField] at hreg hlo hhi
    have hd : (groupLoc grant w base i).2 + k - x.src < x.len := by omega
    obtain ⟨t, ht, hr, hs, hb, hp⟩ := slotRuns_bit hx hd
    obtain ⟨rfl, rfl⟩ := h.groupLoc_inj (hi i' hi') (hi i him) ht hk (hr.symm.trans hreg) (by omega)
    simp only [fieldBit, loadField, Mem.runBits, testBit_bitsAt, decide_eq_true hd, Bool.true_and, BitVec.testBit_toNat,
      hb, hp, Mem.bitOf]
  · obtain ⟨x, hx, d, hd, hr, hs, -, -⟩ := slotRuns_covers (pas i) (groupLoc grant w base i).1
      (groupLoc grant w base i).2 ((off + w * i) % 8) hk
    exact .inr ⟨loadField m.runBits x, List.mem_map_of_mem (List.mem_flatMap.2 ⟨i, him, hx⟩),
      fieldCovers_iff.2 ⟨hr, by simp only [loadField]; omega, by simp only [loadField]; omega⟩⟩

omit hi h in
/-- A store puts each bit of an element at its place, where every place is named once. -/
theorem store_elem_bit (r : VRegs) (who : Writer) (m : Mem) {i k : Nat} (him : i ∈ is) (hk : k < w)
    (hn : (is.flatMap (fun i => (List.range w).map (fun k =>
      ((pas i).getD (((off + w * i) % 8 + k) / 8) 0, ((off + w * i) % 8 + k) % 8)))).Nodup) :
    ((is.flatMap (elemRuns grant w base off pas)).foldl (storeRun r false who) m).bitOf (pas i) ((off + w * i) % 8 + k) =
      (r.elem grant w base i).testBit k := by
  rw [VRegs.elem_testBit, decide_eq_true hk, Bool.true_and, Mem.bitOf, storeRuns_bit _ _ _ _ _ (Nat.mod_lt _ (by decide))]
  obtain ⟨hin, hout⟩ := List.nodup_flatMap.1 hn
  have hsymm : Std.Symm (Function.onFun List.Disjoint (fun i => (List.range w).map (fun k =>
    ((pas i).getD (((off + w * i) % 8 + k) / 8) 0, ((off + w * i) % 8 + k) % 8)))) := ⟨fun _ _ hd => hd.symm⟩
  apply overlay_eq
  · intro x hx hc
    obtain ⟨i', hi', hx⟩ := List.mem_flatMap.1 hx
    obtain ⟨hpa, hlo, hhi⟩ := StoreRun.coversByte_iff.1 hc
    have hd : ((off + w * i) % 8 + k) % 8 - x.bit < x.len := by omega
    obtain ⟨t, ht, hr, hs, hb, hp⟩ := slotRuns_bit hx hd
    have hbit : ((off + w * i) % 8 + k) % 8 = ((off + w * i') % 8 + t) % 8 := by omega
    have hmem : ∀ {j q}, q < w → ((pas j).getD (((off + w * j) % 8 + q) / 8) 0, ((off + w * j) % 8 + q) % 8) ∈
        (List.range w).map (fun k => ((pas j).getD (((off + w * j) % 8 + k) / 8) 0, ((off + w * j) % 8 + k) % 8)) :=
      fun hq => List.mem_map.2 ⟨_, List.mem_range.2 hq, rfl⟩
    have hspot : ((pas i).getD (((off + w * i) % 8 + k) / 8) 0, ((off + w * i) % 8 + k) % 8) =
        ((pas i').getD (((off + w * i') % 8 + t) / 8) 0, ((off + w * i') % 8 + t) % 8) :=
      Prod.ext (hpa.symm.trans hp) hbit
    have hii : i' = i := by
      by_contra hne
      exact List.disjoint_left.1 (hout.forall him hi' (Ne.symm hne)) (hmem hk)
        (hspot ▸ hmem ht)
    subst hii
    have hkt : k = t := List.inj_on_of_nodup_map (hin _ him) (List.mem_range.2 hk) (List.mem_range.2 ht) hspot
    subst hkt
    rw [StoreRun.brings, hr, hs]
  · obtain ⟨x, hx, d, hd, hr, hs, hb, hp⟩ := slotRuns_covers (pas i) (groupLoc grant w base i).1
      (groupLoc grant w base i).2 ((off + w * i) % 8) hk
    exact .inr ⟨x, List.mem_flatMap.2 ⟨i, him, hx⟩, StoreRun.coversByte_iff.2 ⟨hp, by omega, by omega⟩⟩

end

/-- Settles O39: every write of registers and of memory is an overlay of fields of bits, and the fields of different elements
stand apart. -/
theorem elementsMove : Obligations.ElementsMove := by
  intro s grant w base hg hg8 hw
  have h : GroupShape grant w := ⟨hg, hg8, hw⟩
  refine ⟨fun l hn hl => ?_, fun n l hn hl hb => ?_, fun n l hl hb => ?_, fun hsew hgrant off x is pas hoff hnd hi hlen => ?_⟩
  · obtain ⟨hp, hm⟩ := VRegs.gatherV_frame s.cur.vr (l.map (elemField grant w base) ++ tailZeros grant w base (l.map Prod.fst))
    refine ⟨fun e he => groupWrites_elem h hn hl _ he, fun i hi hni => groupWrites_elem_other h hl _ hi hni,
      fun k hk => groupWrites_vreg_other _ hk, hp, hm, ?_⟩
    rintro rfl e he k hk
    exact groupWrites_tail _ h he (by simpa using hk)
  · obtain ⟨hk, hv, hm⟩ := VRegs.predWrite_frame s.cur.vr hn l
    exact ⟨fun e he => predWrite_set _ hn hl he (hb e he), fun i hi hni => predWrite_other _ hn hi hni, hk, hv, hm⟩
  · obtain ⟨ht, hk, hv, hp⟩ := VRegs.compWrite_frame s.cur.vr n l
    exact ⟨fun e he => compWrite_comp _ n hl hb he, fun i c hi hc hni => compWrite_other _ n hb hi hc hni, ht, hk, hv, hp⟩
  · have hruns : is.flatMap (fun i => (streamElem s base off x i).runs (pas i)) = is.flatMap (elemRuns grant w base off pas) :=
      congrArg is.flatMap (funext (streamElem_runs hsew hgrant base off x pas))
    simp only [hruns]
    refine ⟨fun i him k hk => load_elem_bit h hi _ _ him hk, fun hspots i him k hk => store_elem_bit _ _ _ him hk hspots,
      fun p hp => storeRuns_byte_other _ _ _ _ _ ?_⟩
    rintro y hy rfl
    obtain ⟨i, him, hy⟩ := List.mem_flatMap.1 hy
    have hl : (pas i).length = cdiv ((off + w * i) % 8 + w) 8 := by
      rw [hlen i him, ← hsew]; rfl
    exact hp i him (slotRuns_pa_mem hl hy)

end Sys2Proof.Machine
end

section
/-! Where a trap goes and what it saves (R105, R107, R467, R472, R474). -/
namespace Sys2Proof.Machine

/-! ## Log records and the halt of a partition -/

theorem State.logPf_part (s : State) (addr : Word) (part unit : Nat) (synd : BitVec 32) (cls cause k : Nat) :
    (s.logPf addr part unit synd cls cause).part k = s.part k := by
  unfold State.logPf; simp only; split <;> rfl

/-- A log record changes, of a partition, the ends of its log ring alone. -/
theorem State.logError_part_state (s : State) (part : Nat) (addr : Word) (unit : Nat) (synd : BitVec 32) (cls cause k : Nat) :
    ((s.logError part addr unit synd cls cause).part k).state = (s.part k).state := by
  unfold State.logError
  dsimp only
  split
  · rw [State.logPf_part]
  · split
    · split
      · rw [State.logPf_part, State.logPf_part]
      · rw [State.logPf_part]
    · rw [State.part_setPart]
      split
      · next h => rw [h]
      · rfl

theorem State.haltPart_halted (s : State) (pn : Nat) (addr : Word) (unit cause : Nat) :
    ((s.haltPart pn addr unit cause).part pn).state = .halted := by
  show ((State.logError _ _ _ _ _ _ _).part pn).state = _
  rw [State.logError_part_state, State.part_setPart, if_pos rfl]

/-! ## The rings that a trap is tried at -/

/-- The places of the record of ring k, as a handler set rs of partition pn names it (R474). -/
def State.handlerPlaces (v : State) (rs : RingSet) (pn k : Nat) : Except (Nat × Word) (List Nat) :=
  v.deviceRange (v.part pn) false .write 64 16 (rs.get k).record

/-- Does ring k take a trap: it has a handler, and its record, if it has one, can be written? -/
def State.ringOpen (v : State) (rs : RingSet) (pn k : Nat) : Prop :=
  (rs.get k).handler ≠ 0#64 ∧ ((rs.get k).record ≠ 0#64 → ∃ pas, v.handlerPlaces rs pn k = .ok pas)

/-- What a ring that does not take a trap leaves: the log record of a violation by its own record (R30). -/
def ringTried (rs : RingSet) (pn : Nat) (v : State) (k : Nat) : State :=
  if (rs.get k).handler = 0#64 ∨ (rs.get k).record = 0#64 then v
  else match v.handlerPlaces rs pn k with
    | .error (0x20, a) => v.logError pn a 0x2000 v.synd 5 0x20
    | _ => v

theorem ringTried_none {rs : RingSet} {pn k : Nat} {v : State}
    (h : (rs.get k).handler = 0#64 ∨ (rs.get k).record = 0#64) : ringTried rs pn v k = v := if_pos h

theorem ringTried_error {rs : RingSet} {pn k : Nat} {v : State} (hh : (rs.get k).handler ≠ 0#64)
    (hr : (rs.get k).record ≠ 0#64) {e : Nat × Word} (he : v.handlerPlaces rs pn k = .error e) :
    ringTried rs pn v k = v.logViolation pn e.1 e.2 := by
  obtain ⟨c, a⟩ := e
  rw [ringTried, if_neg (not_or.2 ⟨hh, hr⟩), he, State.logViolation]
  split
  · next h => cases h; rfl
  · next h => rw [if_neg fun hc : c = cViolation => h a (by rw [hc]; rfl)]

/-- What the rings from a below b leave. -/
def ringsTried (rs : RingSet) (pn a b : Nat) (v : State) : State := (List.range' a (b - a)).foldl (ringTried rs pn) v

theorem ringsTried_self (rs : RingSet) (pn a : Nat) (v : State) : ringsTried rs pn a a v = v := by
  simp [ringsTried]

theorem ringsTried_succ (rs : RingSet) (pn : Nat) {a b : Nat} (h : a ≤ b) (v : State) :
    ringsTried rs pn a (b + 1) v = ringTried rs pn (ringsTried rs pn a b v) b := by
  unfold ringsTried
  rw [Nat.succ_sub h, List.range'_1_concat, List.foldl_append, Nat.add_sub_cancel' h]
  rfl

theorem ringTried_cur (rs : RingSet) (pn : Nat) (v : State) (k : Nat) : (ringTried rs pn v k).cur = v.cur := by
  unfold ringTried
  split
  · rfl
  · split
    · exact State.logError_cur ..
    · rfl

theorem ringsTried_cur (rs : RingSet) (pn a b : Nat) (v : State) : (ringsTried rs pn a b v).cur = v.cur := by
  unfold ringsTried
  induction List.range' a (b - a) generalizing v with
  | nil => rfl
  | cons k l ih => rw [List.foldl_cons, ih, ringTried_cur]

/-! ## Delivery (R474) -/

/-- The cause word of a trap that a ring takes (R105, R472). -/
def Trap.causeWord (x : Trap) (nested : Bool) (orig : Nat) : Word :=
  if nested then mkCause cNested x.queue x.eside orig (routeOf orig) x.synd else mkCause orig x.queue x.eside 0 0 x.synd

/-- A ring that does not take the trap passes it on, nested. -/
theorem State.deliver_closed {v : State} {k : Nat} (hk : k ≤ 3) (hc : ¬ v.ringOpen v.cur.rings v.pn k) (x : Trap) (epc : Word)
    (n : Nat) (nested : Bool) (orig : Nat) :
    v.deliver x epc (n + 1) k nested orig = (ringTried v.cur.rings v.pn v k).deliver x epc n (k + 1) true orig := by
  rw [State.deliver, if_neg (by omega)]
  dsimp only
  by_cases hh : (v.cur.rings.get k).handler = 0#64
  · rw [if_pos hh, ringTried_none (.inl hh)]
  · have hr : (v.cur.rings.get k).record ≠ 0#64 := fun hr => hc ⟨hh, fun h => absurd hr h⟩
    rw [if_neg hh, if_neg hr]
    cases hd : v.handlerPlaces v.cur.rings v.pn k with
    | ok pas => exact absurd ⟨hh, fun _ => ⟨pas, hd⟩⟩ hc
    | error e =>
      rw [ringTried_error hh hr hd]
      rw [show v.deviceRange v.cp false .write 64 16 (v.cur.rings.get k).record = .error e from hd]

/-- The state with the trap record written to its places (R475). -/
def State.recorded (v : State) (x : Trap) (epc cause : Word) (pr : Nat) (pas : List Nat) : State :=
  { v with mem := v.mem.writeAll v.writer (pas.zip (trapRecord v x epc cause pr)) }

/-- A ring that takes the trap is entered, its record, if it has one, written first. -/
theorem State.deliver_open {v : State} {k : Nat} (hk : k ≤ 3) (ho : (v.cur.rings.get k).handler ≠ 0#64) (x : Trap) (epc : Word)
    (n : Nat) (nested : Bool) (orig : Nat) :
    ((v.cur.rings.get k).record = 0#64 →
      v.deliver x epc (n + 1) k nested orig = v.enterRing x k epc (x.causeWord nested orig)) ∧
    ∀ pas, (v.cur.rings.get k).record ≠ 0#64 → v.handlerPlaces v.cur.rings v.pn k = .ok pas →
      v.deliver x epc (n + 1) k nested orig =
        (v.recorded x epc (x.causeWord nested orig) v.cur.ring.toNat pas).enterRing x k epc (x.causeWord nested orig) := by
  rw [State.deliver, if_neg (by omega)]
  dsimp only
  rw [if_neg ho]
  refine ⟨fun hr => by rw [if_pos hr]; rfl, fun pas hr hp => ?_⟩
  rw [if_neg hr]
  rw [show v.deviceRange v.cp false .write 64 16 (v.cur.rings.get k).record = .ok pas from hp]
  rfl

/-- The rings from r below k do not take the trap: it comes to ring k. -/
theorem State.deliver_climb {v : State} {r k : Nat} (hr : r ≤ k) (hk : k ≤ 4) (x : Trap) (epc : Word) (n : Nat) (nested : Bool)
    (orig : Nat)
    (hc : ∀ j, r ≤ j → j < k → ¬ (ringsTried v.cur.rings v.pn r j v).ringOpen v.cur.rings v.pn j) :
    v.deliver x epc (n + (k - r)) r nested orig =
      (ringsTried v.cur.rings v.pn r k v).deliver x epc n k (nested || decide (k ≠ r)) orig := by
  induction k, hr using Nat.le_induction generalizing n with
  | base => simp [ringsTried_self]
  | succ k hrk ih =>
    have hcur := ringsTried_cur v.cur.rings v.pn r k v
    have hpn : (ringsTried v.cur.rings v.pn r k v).pn = v.pn := congrArg (fun t => t.id.part) hcur
    have hn : n + (k + 1 - r) = (n + 1) + (k - r) := by omega
    have hck := hc k hrk (Nat.lt_succ_self k)
    rw [← hpn, ← hcur, hcur, hpn] at hck
    rw [hn, ih (by omega) _ (fun j hj hjk => hc j hj (Nat.lt_succ_of_lt hjk)),
      State.deliver_closed (by omega) (by rw [hcur, hpn]; exact hck), ringsTried_succ _ _ hrk, hcur, hpn,
      decide_eq_true (show k + 1 ≠ r by omega), Bool.or_true]

/-! ## Taking a trap -/

/-- The ring that a trap is first tried at, for a thread at ring c: the one that its cause routes to, or the one above. -/
def Trap.start (x : Trap) (c : Nat) : Nat := if routeOf x.cause ≤ c then c + 1 else routeOf x.cause

/-- Does the user handler take the trap (R107)? -/
def Trap.toUser (x : Trap) (t : Thread) : Prop :=
  routeOf x.cause = 0 ∧ t.ring.toNat = 0 ∧ t.user.ih = false ∧ t.user.uhandler ≠ 0#64

/-- Is a trap NESTED at the first ring that it is tried at (R472): its cause does not route there? -/
def Trap.promoted (x : Trap) (t : Thread) : Bool :=
  if routeOf x.cause = 0 ∧ t.ring.toNat = 0 then t.user.ih else decide (routeOf x.cause ≤ t.ring.toNat)

theorem routeOf_le (c : Nat) : routeOf c ≤ 3 := by unfold routeOf; split_ifs <;> omega

theorem Trap.start_pos (x : Trap) (c : Nat) : 1 ≤ x.start c := by unfold Trap.start; split <;> omega

theorem Trap.start_le (x : Trap) (t : Thread) : x.start t.ring.toNat ≤ 4 := by
  have := t.ring.isLt
  have := routeOf_le x.cause
  unfold Trap.start
  split <;> omega

/-- The state that a trap is delivered from: its cause logged, the framing ended. -/
def State.trapped (s : State) (x : Trap) : State := { s.logCause x with cur := { s.cur with framing := none } }

theorem deliverTrap_of_toUser {s : State} {x : Trap} (h : x.toUser s.cur) :
    deliverTrap s x = (s.trapped x).enterUser x (x.savedPc s.cur) := by
  obtain ⟨hr, hc, hih, hh⟩ := h
  have hih' : (s.trapped x).cur.user.ih = false := hih
  show (if _ then (if (s.trapped x).cur.user.ih then _ else _) else _) = _
  rw [if_pos (by simp [hr]; exact hc), hih', if_neg Bool.false_ne_true, if_pos hh]
  rfl

theorem deliverTrap_of_not_toUser {s : State} {x : Trap} (h : ¬ x.toUser s.cur) :
    deliverTrap s x =
      (s.trapped x).deliver x (x.savedPc s.cur) 4 (x.start s.cur.ring.toNat) (x.promoted s.cur) x.cause := by
  have hcur : (s.trapped x).cur.ring = s.cur.ring ∧ (s.trapped x).cur.user = s.cur.user := ⟨rfl, rfl⟩
  unfold deliverTrap
  change (if _ then (if (s.trapped x).cur.user.ih then (s.trapped x).deliver _ _ _ _ _ _
    else if (s.trapped x).cur.user.uhandler ≠ 0#64 then _ else (s.trapped x).deliver _ _ _ _ _ _)
    else if routeOf x.cause ≤ (s.trapped x).cur.ring.toNat then (s.trapped x).deliver _ _ _ _ _ _
    else (s.trapped x).deliver _ _ _ _ _ _) = _
  rw [hcur.1, hcur.2]
  unfold Trap.promoted Trap.start
  by_cases h0 : routeOf x.cause = 0 ∧ s.cur.ring.toNat = 0
  · obtain ⟨hr, hc⟩ := h0
    simp only [hr, hc, decide_true, Bool.and_self, if_true, and_self, Nat.le_refl]
    cases hih : s.cur.user.ih with
    | true => rfl
    | false =>
      rw [if_neg Bool.false_ne_true, if_neg fun hh => h ⟨hr, hc, hih, hh⟩]
  · rw [if_neg (by simpa using h0), if_neg h0]
    by_cases hle : routeOf x.cause ≤ s.cur.ring.toNat
    · simp only [hle, if_true, decide_true]
    · simp only [hle, if_false, decide_false]

theorem recordHeld_of_toUser {s : State} {x : Trap} (h : x.toUser s.cur) : s.recordHeld x = false := by
  obtain ⟨hr, hc, hih, hh⟩ := h
  simp [State.recordHeld, hr, hc, hih, hh]

theorem recordHeld_of_not_toUser {s : State} {x : Trap} (h : ¬ x.toUser s.cur) :
    s.recordHeld x = (s.trapBytes 4 (x.start s.cur.ring.toNat)).any s.owned := by
  have hu : (decide (routeOf x.cause = 0) && decide (s.cur.ring.toNat = 0) && !s.cur.user.ih &&
      decide (s.cur.user.uhandler ≠ 0#64)) = false := by
    rw [Bool.eq_false_iff]
    intro ht
    simp only [Bool.and_eq_true, decide_eq_true_eq, Bool.not_eq_true'] at ht
    exact h ⟨ht.1.1.1, ht.1.1.2, ht.1.2, ht.2⟩
  have hs : (if (decide (routeOf x.cause = 0) && decide (s.cur.ring.toNat = 0)) = true then 1
      else if routeOf x.cause ≤ s.cur.ring.toNat then s.cur.ring.toNat + 1 else routeOf x.cause) = x.start s.cur.ring.toNat := by
    unfold Trap.start
    split
    · next h0 =>
      simp only [Bool.and_eq_true, decide_eq_true_eq] at h0
      simp [h0.1, h0.2]
    · rfl
  unfold State.recordHeld
  dsimp only
  rw [hu, hs]
  rfl

/-! ## The bytes of the record (R23, R474) -/

/-- Is the record of ring k one that a trap tried from ring r on would write, the rings before it not taking the trap? -/
def State.triesRecord (s : State) (r k : Nat) : Prop :=
  r ≤ k ∧ k ≤ 3 ∧ (s.cur.rings.get k).handler ≠ 0#64 ∧ (s.cur.rings.get k).record ≠ 0#64 ∧
    ∀ j, r ≤ j → j < k → (s.cur.rings.get j).handler ≠ 0#64 →
      (s.cur.rings.get j).record ≠ 0#64 ∧ ∃ e, s.handlerPlaces s.cur.rings s.pn j = .error e

/-- Is a byte one of ring k's record or of its walk? -/
def State.recordByte (s : State) (k a : Nat) : Prop :=
  (∃ i < 16, a ∈ s.walkBytes s.cp ((s.cur.rings.get k).record + BitVec.ofNat 64 (64 * i))) ∨
    ∃ pas, s.handlerPlaces s.cur.rings s.pn k = .ok pas ∧ a ∈ pas

/-- A later ring's record is tried where the ring before it does not take the trap and stands in its way no more. -/
theorem State.triesRecord_succ {s : State} {r k : Nat}
    (hr : (s.cur.rings.get r).handler ≠ 0#64 →
      (s.cur.rings.get r).record ≠ 0#64 ∧ ∃ e, s.handlerPlaces s.cur.rings s.pn r = .error e) :
    s.triesRecord (r + 1) k ↔ s.triesRecord r k ∧ k ≠ r := by
  constructor
  · rintro ⟨h1, h2, h3, h4, h5⟩
    refine ⟨⟨by omega, h2, h3, h4, fun j hj hjk hh => ?_⟩, by omega⟩
    rcases Nat.eq_or_lt_of_le hj with rfl | hj
    · exact hr hh
    · exact h5 j hj hjk hh
  · rintro ⟨⟨h1, h2, h3, h4, h5⟩, hk⟩
    exact ⟨by omega, h2, h3, h4, fun j hj hjk => h5 j (by omega) hjk⟩

theorem State.mem_trapBytes (s : State) (a n : Nat) : ∀ r, 4 ≤ n + r →
    (a ∈ s.trapBytes n r ↔ ∃ k, s.triesRecord r k ∧ s.recordByte k a) := by
  induction n with
  | zero =>
    intro r hr
    simp only [State.trapBytes, List.not_mem_nil, false_iff, not_exists, not_and]
    intro k hk
    exact absurd hk.1 (by have := hk.2.1; omega)
  | succ n ih =>
    intro r hr
    rw [State.trapBytes]
    split
    · next h4 =>
      simp only [List.not_mem_nil, false_iff, not_exists, not_and]
      intro k hk
      exact absurd hk.1 (by have := hk.2.1; omega)
    · split
      · next hh =>
        rw [ih (r + 1) (by omega)]
        refine exists_congr fun k => and_congr_left fun _ => ?_
        rw [State.triesRecord_succ (fun h => absurd hh h), and_iff_left_iff_imp]
        rintro hk rfl
        exact hk.2.2.1 hh
      · next hh =>
        split
        · next hrec =>
          simp only [List.not_mem_nil, false_iff, not_exists, not_and]
          intro k hk
          rcases Nat.eq_or_lt_of_le hk.1 with rfl | hlt
          · exact absurd hrec hk.2.2.2.1
          · exact absurd hrec (hk.2.2.2.2 r (Nat.le_refl r) hlt hh).1
        · next hrec =>
          have hself : s.triesRecord r r := ⟨Nat.le_refl r, by omega, hh, hrec, fun j hj hjr => by omega⟩
          rw [List.mem_append, List.mem_flatMap]
          simp only [List.mem_range]
          cases hd : s.handlerPlaces s.cur.rings s.pn r with
          | error e =>
            rw [show s.deviceRange s.cp false .write 64 16 (s.cur.rings.get r).record = .error e from hd]
            dsimp only
            rw [ih (r + 1) (by omega)]
            simp only [State.triesRecord_succ (fun _ => ⟨hrec, e, hd⟩)]
            constructor
            · rintro (hw | ⟨k, ⟨hk, -⟩, hb⟩)
              · exact ⟨r, hself, .inl hw⟩
              · exact ⟨k, hk, hb⟩
            · rintro ⟨k, hk, hb⟩
              by_cases hkr : k = r
              · subst hkr
                rcases hb with hw | ⟨pas, hp, -⟩
                · exact .inl hw
                · rw [hd] at hp; cases hp
              · exact .inr ⟨k, ⟨hk, hkr⟩, hb⟩
          | ok pas =>
            rw [show s.deviceRange s.cp false .write 64 16 (s.cur.rings.get r).record = .ok pas from hd]
            dsimp only
            constructor
            · rintro (hw | hm)
              · exact ⟨r, hself, .inl hw⟩
              · exact ⟨r, hself, .inr ⟨pas, hd, hm⟩⟩
            · rintro ⟨k, hk, hb⟩
              rcases Nat.eq_or_lt_of_le hk.1 with rfl | hlt
              · rcases hb with hw | ⟨pas', hp, hm⟩
                · exact .inl hw
                · rw [hd] at hp; cases hp; exact .inr hm
              · obtain ⟨-, e, he⟩ := hk.2.2.2.2 r (Nat.le_refl r) hlt hh
                rw [hd] at he; cases he

/-! ## What the trap takes -/

theorem routeOf_eq (c : Nat) :
    routeOf c =
      if c ∈ [0x03, 0x08, 0x09, 0x0A, 0x0B, 0x0C, 0x0D, 0x0E, 0x0F, 0x10, 0x11, 0x13, 0x14] then 0
      else if c = 0x20 ∨ c = 0x30 then 2 else if c = 0x31 then 3 else 1 := by
  simp only [routeOf, List.contains_iff_mem, Bool.or_eq_true, decide_eq_true_eq]
  rfl

theorem Trap.savedPc_eq (x : Trap) (t : Thread) :
    x.savedPc t = if x.cause = 0x30 ∨ x.cause = 0x31 then t.prog.last.getD (x.epc.getD t.pc) else x.epc.getD t.pc := by
  simp only [Trap.savedPc, contained, Bool.or_eq_true, decide_eq_true_eq]
  rfl

theorem Trap.promoted_iff (x : Trap) (t : Thread) :
    x.promoted t = true ↔
      (routeOf x.cause ≤ t.ring.toNat ∧ ¬ (routeOf x.cause = 0 ∧ t.ring.toNat = 0)) ∨
        (routeOf x.cause = 0 ∧ t.ring.toNat = 0 ∧ t.user.ih = true) := by
  unfold Trap.promoted
  split
  · next h => simp [h.1, h.2]
  · next h =>
    simp only [decide_eq_true_eq]
    exact ⟨fun hle => .inl ⟨hle, h⟩, fun ho => ho.elim And.left fun h' => absurd ⟨h'.1, h'.2.1⟩ h⟩

/-- A cause that the user handler takes brings no log record with it. -/
theorem State.logCause_of_route_zero (s : State) {x : Trap} (h : routeOf x.cause = 0) : s.logCause x = s := by
  have hv : x.cause ≠ cViolation := fun hc => absurd h (by rw [hc]; decide)
  have hm : x.cause ≠ cMachine := fun hc => absurd h (by rw [hc]; decide)
  rw [State.logCause, if_neg hv, if_neg hm, ite_self]

/-- The cause word, field by field (R105, R472). -/
theorem Trap.causeWord_eq (x : Trap) {nested : Bool} {P : Prop} [Decidable P] (h : nested = true ↔ P) {r : Nat}
    (hr : routeOf x.cause = r) :
    x.causeWord nested x.cause =
      BitVec.ofNat 64 ((if P then 0x18 else x.cause) + 256 * x.queue + 2048 * (if x.eside then 1 else 0) +
        (if P then 4096 * x.cause + 2 ^ 20 * r else 0) + 2 ^ 24 * x.synd) := by
  subst hr
  cases nested with
  | true =>
    rw [if_pos (h.1 rfl), if_pos (h.1 rfl)]
    show BitVec.ofNat 64 _ = BitVec.ofNat 64 _
    congr 1
    unfold cNested b2n
    omega
  | false =>
    rw [if_neg fun hP => Bool.false_ne_true (h.2 hP), if_neg fun hP => Bool.false_ne_true (h.2 hP)]
    rfl

/-- The registers of the rings with those of ring k, 1 to 3, replaced. -/
theorem RingSet.put_eq (x : RingSet) {k : Nat} (h1 : 1 ≤ k) (h3 : k ≤ 3) (r : RingRegs) :
    x.put k r = { d := if k = 1 then r else x.d, h := if k = 2 then r else x.h, m := if k = 3 then r else x.m } := by
  obtain rfl | rfl | rfl : k = 1 ∨ k = 2 ∨ k = 3 := by omega
  all_goals rfl

/-- The state that a trap comes to ring k in: its cause logged, the framing ended, the rings before k tried. -/
def State.trappedAt (s : State) (x : Trap) (k : Nat) : State :=
  ringsTried s.cur.rings s.pn (x.start s.cur.ring.toNat) k (s.trapped x)

theorem State.trappedAt_cur (s : State) (x : Trap) (k : Nat) : (s.trappedAt x k).cur = { s.cur with framing := none } :=
  ringsTried_cur ..

theorem State.trappedAt_pn (s : State) (x : Trap) (k : Nat) : (s.trappedAt x k).pn = s.pn :=
  congrArg (fun t => t.id.part) (s.trappedAt_cur x k)

/-- Is a trap that comes to ring k NESTED there? -/
def Trap.nestedAt (x : Trap) (t : Thread) (k : Nat) : Bool := x.promoted t || decide (k ≠ x.start t.ring.toNat)

/-- No ring before k takes the trap: it comes to ring k. -/
theorem takeTrap_reaches {s : State} {x : Trap} (hk : ¬ x.toUser s.cur) (hr : s.recordHeld x = false) {k : Nat}
    (h1 : x.start s.cur.ring.toNat ≤ k) (h4 : k ≤ 4)
    (hc : ∀ j, x.start s.cur.ring.toNat ≤ j → j < k → ¬ (s.trappedAt x j).ringOpen s.cur.rings s.pn j) :
    ∃ n, takeTrap s x = (s.trappedAt x k).deliver x (x.savedPc s.cur) (n + 1) k (x.nestedAt s.cur k) x.cause := by
  have hp := x.start_pos s.cur.ring.toNat
  refine ⟨3 - (k - x.start s.cur.ring.toNat), ?_⟩
  rw [takeTrap, hr, if_neg Bool.false_ne_true, deliverTrap_of_not_toUser hk]
  have := State.deliver_climb (v := s.trapped x) h1 h4 x (x.savedPc s.cur) (3 - (k - x.start s.cur.ring.toNat) + 1)
    (x.promoted s.cur) x.cause hc
  rwa [show 3 - (k - x.start s.cur.ring.toNat) + 1 + (k - x.start s.cur.ring.toNat) = 4 by omega] at this

/-- No ring takes the trap: the partition halts. -/
theorem takeTrap_halts {s : State} {x : Trap} (hk : ¬ x.toUser s.cur) (hr : s.recordHeld x = false)
    (hc : ∀ j, x.start s.cur.ring.toNat ≤ j → j ≤ 3 → ¬ (s.trappedAt x j).ringOpen s.cur.rings s.pn j) :
    takeTrap s x = (s.trappedAt x 4).haltPart s.pn x.addr s.cur.place.core x.cause := by
  obtain ⟨n, h⟩ := takeTrap_reaches hk hr (x.start_le s.cur) (Nat.le_refl 4) fun j h1 h2 => hc j h1 (by omega)
  rw [h, State.deliver, if_pos (Nat.le_refl 4), s.trappedAt_pn, s.trappedAt_cur]

end Sys2Proof.Machine

/-- Settles O21, by following the delivery from ring to ring. -/
theorem Sys2Proof.Machine.trapEntry : Obligations.TrapEntry := by
  unfold Obligations.TrapEntry
  refine ⟨fun s x hc hx hih hh => ?_, fun s x => ?_⟩
  · have hr : routeOf x.cause = 0 := by rw [routeOf_eq, if_pos hx]
    have hu : x.toUser s.cur := ⟨hr, by rw [hc]; rfl, hih, hh⟩
    have hs : x.savedPc s.cur = x.epc.getD s.cur.pc := by
      rw [Trap.savedPc_eq, if_neg]
      rintro (h | h) <;> rw [h] at hr <;> exact absurd hr (by decide)
    rw [takeTrap, recordHeld_of_toUser hu, if_neg Bool.false_ne_true, deliverTrap_of_toUser hu, hs, State.trapped,
      s.logCause_of_route_zero hr]
    rfl
  · intro c userCause route ih kept promoted start u regs pn places tried at_ open_ trapped epc b word entered line tries
    have hroute : route = routeOf x.cause := (routeOf_eq _).symm
    have hkept : kept ↔ x.toUser s.cur := by
      show (route = 0 ∧ _) ↔ _
      rw [hroute]; rfl
    have hprom : x.promoted s.cur = true ↔ promoted := by
      show _ ↔ (route ≤ c ∧ ¬ (route = 0 ∧ c = 0)) ∨ (route = 0 ∧ c = 0 ∧ ih = true)
      rw [hroute]; exact x.promoted_iff s.cur
    have hstart : start = x.start c := by
      show (if route ≤ c then c + 1 else route) = _
      rw [hroute]; rfl
    have htried : tried = ringTried s.cur.rings pn := by
      funext v k
      rfl
    have hat : at_ = s.trappedAt x := by
      funext k
      show (List.range' start (k - start)).foldl tried _ = _
      rw [hstart, htried]; rfl
    have hepc : epc = x.savedPc s.cur := (x.savedPc_eq s.cur).symm
    have hword : ∀ k, word k = x.causeWord (x.nestedAt s.cur k) x.cause := by
      intro k
      refine (x.causeWord_eq ?_ hroute.symm).symm
      rw [Trap.nestedAt, Bool.or_eq_true, decide_eq_true_eq, hprom, hstart]
    have hentered : ∀ v : State, ∀ k, 1 ≤ k → k ≤ 3 → v.cur = { s.cur with framing := none } →
        v.enterRing x k epc (word k) = { v with cur := entered k } := by
      intro v k h1 h3 hv
      rw [State.enterRing, hv, RingSet.put_eq _ h1 h3]
      rfl
    have hpos : 1 ≤ start := hstart ▸ x.start_pos c
    refine ⟨fun h => recordHeld_of_toUser (hkept.1 h), fun h => ?_, fun h => ?_, fun h hr => ⟨fun k h1 h3 ho hc => ?_, fun hc => ?_⟩⟩
    · have htries : ∀ k, tries k ↔ s.triesRecord start k := fun k => Iff.rfl
      rw [recordHeld_of_not_toUser (mt hkept.2 h), List.any_eq_true, ← hstart]
      simp only [s.mem_trapBytes _ 4 start (by omega)]
      constructor
      · rintro ⟨a, ⟨k, hk, hb⟩, ha⟩
        exact ⟨k, a, hk, ha, hb⟩
      · rintro ⟨k, a, hk, ha, hb⟩
        exact ⟨a, ⟨k, hk, hb⟩, ha⟩
    · rw [takeTrap, if_pos h]; rfl
    · have hop : ∀ j, open_ j = (s.trappedAt x j).ringOpen s.cur.rings s.pn j := fun j => by rw [← hat]; rfl
      rw [hop] at ho
      simp only [hop] at hc
      rw [hstart] at h1 hc
      obtain ⟨n, ht⟩ := takeTrap_reaches (mt hkept.2 h) hr h1 (by omega) hc
      have hv := s.trappedAt_cur x k
      have hwr : (s.trappedAt x k).writer = s.writer := by unfold State.writer; rw [hv]
      obtain ⟨hnone, hsome⟩ := State.deliver_open (v := s.trappedAt x k) h3 (by rw [hv]; exact ho.1) x (x.savedPc s.cur) n
        (x.nestedAt s.cur k) x.cause
      rw [hv] at hnone hsome
      rw [ht, hat, ← hepc, ← hentered _ k (by omega) h3 hv]
      rw [← hepc, ← hword] at hnone hsome
      refine ⟨hnone, fun pas hrec hp => ?_⟩
      rw [hsome pas hrec (by rw [s.trappedAt_pn]; exact hp)]
      rw [hentered ((s.trappedAt x k).recorded x epc (word k) c pas) k (by omega) h3 hv, State.recorded, hwr]
    · have ht := takeTrap_halts (mt hkept.2 h) hr fun j h1 h3 => by
        have := hc j (hstart ▸ h1) h3
        exact fun ho => this (by show _ ∧ _; rw [hat]; exact ho)
      rw [ht, hat]
      exact ⟨rfl, State.haltPart_halted .., (State.haltPart_cur ..).trans (s.trappedAt_cur x 4)⟩
end

section
/-! Staged objects: the accesses, the hand-off to waiters, and the classes (R294 to R309). -/
namespace Sys2Proof.Machine

/-! ## Little-endian numbers (R1) -/

theorem leNum_cons (b : Byte) (l : List Byte) : leNum (b :: l) = b.toNat + 256 * leNum l := by
  unfold leNum
  rw [List.zipIdx_cons, List.map_cons, List.sum_cons, List.zipIdx_succ, List.map_map, ← List.sum_map_mul_left]
  simp only [Nat.pow_zero, Nat.mul_one, Function.comp_def, Nat.pow_succ]
  congr 3
  funext e
  ring

theorem ofBytes_eq_leNum (l : List Byte) : ofBytes l = leNum l := by
  induction l with
  | nil => rfl
  | cons b l ih => rw [leNum_cons, ofBytes, ih]

theorem leNum_lt (l : List Byte) : leNum l < 256 ^ l.length := by
  induction l with
  | nil => decide
  | cons b l ih =>
    rw [leNum_cons, List.length_cons, Nat.pow_succ]
    have := b.isLt
    omega

theorem bytesOf_eq_leBytes (n x : Nat) : bytesOf n x = leBytes n x := by
  induction n generalizing x with
  | zero => rfl
  | succ n ih =>
    rw [bytesOf, ih, leBytes, leBytes, List.range_succ_eq_map, List.map_cons, List.map_map]
    simp only [Nat.pow_zero, Nat.div_one, Function.comp_def, Nat.pow_succ']
    simp only [Nat.div_div_eq_div_mul]

/-! ## Entries of an automaton (R293, R300, R303) -/

theorem bitsAt_eq (x lo len : Nat) : bitsAt x lo len = x / 2 ^ lo % 2 ^ len := by
  rw [bitsAt, Nat.shiftRight_eq_div_pow]

/-- The entry of state st and code c. -/
def Automaton.entry (a : Automaton) (st c : Nat) : Nat := (Table.get a.table 0#16 (16 * st + c)).toNat

theorem Automaton.attempt_bad {a : Automaton} {st : Nat} (h : a.nst ≤ st) (k : StKind) (c : Nat) : a.attempt k st c = .bad :=
  if_pos h

section
variable {a : Automaton} {st c : Nat} (h : st < a.nst) (k : StKind)
include h

theorem Automaton.attempt_eq :
    a.attempt k st c =
      if (a.entry st c).testBit 4 = true then
        if dataOk k (a.entry st c / 2 ^ 7 % 4) = true then
          .legal (a.entry st c % 16) ((a.entry st c).testBit 11)
        else .fault
      else if a.entry st c / 2 ^ 5 % 4 = 0 then .fail
      else if a.entry st c / 2 ^ 5 % 4 = 1 then .park else .fault := by
  rw [Automaton.attempt, if_neg (Nat.not_le.2 h)]
  simp only [enAct, enData, enNext, bitsAt_eq]
  simp only [enLegal, enWake, bitAt, Automaton.entry, Nat.pow_zero, Nat.div_one]
  rfl

theorem Automaton.attempt_legal (hl : (a.entry st c).testBit 4 = true) (hd : dataOk k (a.entry st c / 2 ^ 7 % 4) = true) :
    a.attempt k st c = .legal (a.entry st c % 16) ((a.entry st c).testBit 11) := by
  rw [a.attempt_eq h, if_pos hl, if_pos hd]

theorem Automaton.attempt_fault
    (hf : ((a.entry st c).testBit 4 = true ∧ dataOk k (a.entry st c / 2 ^ 7 % 4) = false) ∨
      (¬ (a.entry st c).testBit 4 = true ∧ 2 ≤ a.entry st c / 2 ^ 5 % 4)) : a.attempt k st c = .fault := by
  rw [a.attempt_eq h]
  rcases hf with ⟨hl, hd⟩ | ⟨hl, ha⟩
  · rw [if_pos hl, hd, if_neg Bool.false_ne_true]
  · rw [if_neg hl, if_neg (by omega), if_neg (by omega)]

theorem Automaton.attempt_fail (hl : ¬ (a.entry st c).testBit 4 = true) (ha : a.entry st c / 2 ^ 5 % 4 = 0) :
    a.attempt k st c = .fail := by
  rw [a.attempt_eq h, if_neg hl, if_pos ha]

theorem Automaton.attempt_park (hl : ¬ (a.entry st c).testBit 4 = true) (ha : a.entry st c / 2 ^ 5 % 4 = 1) :
    a.attempt k st c = .park := by
  rw [a.attempt_eq h, if_neg hl, if_neg (by omega), if_pos ha]

end

theorem ststWord_scalar (fail : Bool) (st next code cls : Nat) :
    ststWord fail false st next code cls =
      BitVec.ofNat 64 (b2n fail + 16 * (st % 16) + 256 * next + 4096 * code + 65536 * cls) := by
  rw [ststWord, bitsAt_eq, Nat.pow_zero, Nat.div_one]
  rfl

/-! ## The threads that a change concerns -/

/-- Two changes of a thread, one after the other. -/
theorem State.onThread_onThread (s : State) (id : ThreadId) {f : Thread → Thread} (g : Thread → Thread) (hf : ∀ t, (f t).id = t.id) :
    (s.onThread id f).onThread id g = s.onThread id (fun t => g (f t)) := by
  have key : ∀ t : Thread, (if (if t.id = id then f t else t).id = id then g (if t.id = id then f t else t)
      else (if t.id = id then f t else t)) = if t.id = id then g (f t) else t := by
    intro t
    by_cases h : t.id = id
    · simp only [if_pos h, hf]
    · simp only [if_neg h]
  unfold State.onThread
  simp only [List.map_map, Function.comp_def, key]
  cases s.active
  · rfl
  · simp only [if_true, key]

theorem map_filter_other {α : Type} (l : List α) (f : α → α) (p : α → Prop) [DecidablePred p]
    (h : ∀ x, (p (f x) ↔ p x) ∧ (p x → f x = x)) : (l.map f).filter (fun x => p x) = l.filter (fun x => p x) := by
  induction l with
  | nil => rfl
  | cons x l ih =>
    rw [List.map_cons]
    by_cases hp : p x
    · rw [List.filter_cons_of_pos (by simpa using (h x).1.2 hp), List.filter_cons_of_pos (by simpa using hp), ih, (h x).2 hp]
    · rw [List.filter_cons_of_neg (by simpa using fun hx => hp ((h x).1.1 hx)), List.filter_cons_of_neg (by simpa using hp), ih]

section
variable (s : State) (id : ThreadId) (f : Thread → Thread) (hf : ∀ t, (f t).id = t.id)
include hf

/-- A change of one thread leaves the other threads on a core. -/
theorem State.onThread_others :
    (s.onThread id f).others.filter (fun u => u.id ≠ id) = s.others.filter (fun u => u.id ≠ id) := by
  refine map_filter_other _ _ (fun u : Thread => u.id ≠ id) fun t => ?_
  by_cases h : t.id = id
  · simp [h, hf]
  · simp [h]

/-- A change of one thread leaves the other threads that are saved. -/
theorem State.onThread_saved :
    (s.onThread id f).saved.filter (fun e => e.1.id ≠ id) = s.saved.filter (fun e => e.1.id ≠ id) := by
  refine map_filter_other _ _ (fun e : Thread × List (Nat × HTable) × Table (BitVec 32) => e.1.id ≠ id) fun e => ?_
  by_cases h : e.1.id = id
  · simp [h, hf]
  · simp [h]

end

/-- A change of the current thread, where it is on its core. -/
theorem State.onThread_cur (s : State) (f : Thread → Thread) (ha : s.active = true) :
    s.onThread s.cur.id f =
      { s with cur := f s.cur, others := (s.onThread s.cur.id f).others, saved := (s.onThread s.cur.id f).saved } := by
  unfold State.onThread
  simp [ha]

theorem State.writerOf_cur (s : State) (ha : s.active = true) : s.writerOf s.cur.id = s.writer := by
  simp [State.writerOf, State.findThread, State.started, State.onChip, ha, State.writer]

/-! ## The arrival of an access (R302, R303) -/

/-- The access of LDT, STT or TXN, before the unit knows its object. -/
def State.stagedWaiter (s : State) (k : StKind) (c : BitVec 4) (d : BitVec 5) (n : Nat) (ea : Word) (pas : List Nat) : Waiter :=
  ⟨ea, 0, 0, 0, k, c.toNat, s.cur.id, d.toNat, n, pas.headD 0, s.readS d⟩

/-- What a word does with its arrival. -/
def Arrival.out (s : State) : Arrival → State
  | .done s' => complete s'
  | .parked s' => s'.onProg (fun p => { p with wait := .parked })
  | .wait x => s.waits x
  | .trap c addr => takeTrap s { cause := c, addr := addr, batch := if c = cResidency then [subBlock addr] else [] }

theorem stagedWord_of_arrive {s : State} (hi : s.idle) {k : StKind} {acc : Acc} {n : Nat} {c : BitVec 4} {d a : BitVec 5}
    {pas : List Nat} (hp : s.place acc n (s.readS a) n = .ok pas) {r : Arrival}
    (hr : s.arrive s.pn true (s.stagedWaiter k c d n (s.readS a) pas) = r) :
    stagedWord k acc n c d a s = .next (r.out s) := by
  have hq : s.cur.anyPending = false := by simp [Thread.anyPending, hi.2]
  have ht := (State.idle_free hi).2
  unfold stagedWord
  dsimp only
  rw [hp, hi.1]
  rw [State.stagedWaiter] at hr
  dsimp only [bind, Except.bind]
  rw [hq, Bool.not_false, hr]
  cases r with
  | done s' => exact aside_ok hi.1 (.inr ht) (by rw [hp]; dsimp only; rw [hq, Bool.not_false, hr]; rfl)
  | parked s' => dsimp only; rw [ht, if_neg Bool.false_ne_true]; rfl
  | wait x => exact aside_wait hi.1 (.inr ht) (by rw [hp]; dsimp only; rw [hq, Bool.not_false, hr])
  | trap e ad => exact aside_trap hi (by rw [hp]; dsimp only; rw [hq, Bool.not_false, hr])

/-- What becomes of an access that has come to its object. -/
def State.attempted (s : State) (pn : Nat) (w : Waiter) (slot st : Nat) : Try → Arrival
  | .bad => .trap cStBad w.va
  | .fault => .trap cStIllegal w.va
  | .fail => .done (s.failAccess w st)
  | .park => .parked (s.parkAccess pn w)
  | .legal next wake => if s.poisonedLdt w then .trap cMachine w.va else .done (s.transition pn w slot st next wake)

section
variable {s : State} {w : Waiter} {pn : Nat}

theorem State.arrive_outside (h : (s.objs pn).find w.va.toNat = none) : s.arrive pn true w = .trap cStIllegal w.va := by
  rw [State.arrive, h]

variable {m j : Nat} {cl : Class} (hf : (s.objs pn).find w.va.toNat = some (m, cl, j))
include hf

theorem State.arrive_unread {e : Nat × Word} (he : s.stateByte (s.part pn) cl j = .error e) :
    s.arrive pn true w = .trap e.1 e.2 := by
  rw [State.arrive, hf]
  dsimp only
  rw [he]

variable {sb : Nat} (hb : s.stateByte (s.part pn) cl j = .ok sb) (hc : ∀ x ∈ sb :: rangeFrom w.pa w.size, s.cutOff x = false)
include hb hc

theorem State.arrive_eq :
    s.arrive pn true w =
      if s.objectOwned (s.objs pn) m j sb || (rangeFrom w.pa w.size).any s.owned then .wait .other
      else if s.poisoned [sb] then .trap cMachine (cl.sarr + w64 j)
      else s.attempted pn { w with cls := m, obj := j, sb := sb } cl.slot (s.mem.byte sb).toNat
        (((s.objs pn).automaton cl.slot).attempt w.kind (s.mem.byte sb).toNat w.code) := by
  have hcut : (sb :: rangeFrom w.pa w.size).any s.cutOff = false := by
    rw [List.any_eq_false]
    exact fun x hx => by rw [hc x hx]; exact Bool.false_ne_true
  rw [State.arrive, hf]
  dsimp only
  rw [hb]
  dsimp only
  rw [hcut, if_neg Bool.false_ne_true]
  split
  · rfl
  · split
    · rfl
    · cases ((s.objs pn).automaton cl.slot).attempt w.kind (s.mem.byte sb).toNat w.code <;> simp [State.attempted]

end

/-! ## The effects of an access (R303, R305, R308) -/

/-- Memory after a legal access: the data of a store, then the next state. -/
def Waiter.stored (w : Waiter) (s : State) (next : Nat) : Mem :=
  (if w.kind = .stt then s.mem.writeAll (s.writerOf w.thread) ((rangeFrom w.pa w.size).zip (leBytes w.size w.data.toNat))
    else s.mem).write (.sheet (homeOf w.sb)) w.sb (BitVec.ofNat 8 next)

/-- What a legal access brings to its register, if anything. -/
def Waiter.result (w : Waiter) (s : State) (st : Nat) : Option Word :=
  if w.kind = .ldt then some (BitVec.ofNat 64 (leNum ((rangeFrom w.pa w.size).map s.mem.byte)))
  else if w.kind = .txn then some (BitVec.ofNat 64 st) else none

/-- stst after the access. -/
def Waiter.stst (w : Waiter) (fail st after : Nat) : Word :=
  BitVec.ofNat 64 (fail + 16 * (st % 16) + 256 * after + 4096 * w.code + 65536 * w.cls)

/-- The thread with stst written. -/
def Thread.withStst (v : Word) (t : Thread) : Thread := { t with user := { t.user with stst := v } }

/-- The thread with the answer of a legal access. -/
def Waiter.answered (w : Waiter) (s : State) (st next : Nat) (t : Thread) : Thread :=
  match w.result s st with
  | some y => (t.withStst (w.stst 0 st next)).writeS (BitVec.ofNat 5 w.dest) y
  | none => t.withStst (w.stst 0 st next)

theorem Thread.writeS_id (t : Thread) (d : BitVec 5) (v : Word) : (t.writeS d v).id = t.id := by
  unfold Thread.writeS; split <;> rfl

theorem Waiter.answered_id (w : Waiter) (s : State) (st next : Nat) (t : Thread) : (w.answered s st next t).id = t.id := by
  unfold Waiter.answered
  split
  · exact Thread.writeS_id ..
  · rfl

theorem State.failAccess_eq (s : State) (w : Waiter) (st : Nat) :
    s.failAccess w st = s.onThread w.thread (Thread.withStst (w.stst 1 st st)) := by
  rw [State.failAccess, ststWord_scalar]
  rfl

theorem State.applyAccess_gate {w : Waiter} (hk : w.kind = .gate) (s : State) (st next : Nat) :
    s.applyAccess w st next = { s with mem := w.stored s next } := by
  unfold State.applyAccess Waiter.stored
  rw [hk]
  rfl

theorem State.applyAccess_word {w : Waiter} (hk : w.kind ≠ .gate) (s : State) (st next : Nat) :
    s.applyAccess w st next = State.onThread { s with mem := w.stored s next } w.thread (w.answered s st next) := by
  unfold State.applyAccess Waiter.stored Waiter.answered Waiter.result
  simp only [ststWord_scalar, ofBytes_eq_leNum, bytesOf_eq_leBytes]
  cases h : w.kind with
  | gate => exact absurd h hk
  | ldt => rfl
  | stt => rfl
  | txn => rfl

/-- A waiter's word completes: what its access does to the thread, and the word is passed. -/
theorem State.finishAccess_onThread {w : Waiter} (hk : w.kind ≠ .gate) (s : State) {f : Thread → Thread} (hf : ∀ t, (f t).id = t.id) :
    (s.onThread w.thread f).finishAccess w = s.onThread w.thread (fun t => (f t).past) := by
  have : (s.onThread w.thread f).finishAccess w =
      (s.onThread w.thread f).onThread w.thread (fun t => t.advance.retired t.pc) := by
    unfold State.finishAccess
    cases h : w.kind with
    | gate => exact absurd h hk
    | ldt | stt | txn => rfl
  rw [this, State.onThread_onThread _ _ _ hf]
  simp only [Thread.retired_advance]

theorem Thread.withStst_settleTag (t : Thread) (v : Word) : (t.withStst v).settleTag = t.settleTag.withStst v := by
  have hl : (t.withStst v).level = t.level := rfl
  unfold Thread.settleTag
  rw [hl]
  show (match Table.get t.prog.resend none t.level with | some e => _ | none => _) = _
  cases Table.get t.prog.resend none t.level with
  | none => rfl
  | some e =>
    by_cases h : e.1 = t.pc
    · simp only [h, if_true]
      exact if_pos rfl
    · simp only [h, if_false]
      exact if_neg h

/-- stst has no part in a thread's progress. -/
theorem Thread.withStst_past (t : Thread) (v : Word) : (t.withStst v).past = t.past.withStst v := by
  have hadv : (t.withStst v).advance = t.advance.withStst v := by
    unfold Thread.advance
    rw [Thread.withStst_settleTag]
    have hl : (t.settleTag.withStst v).loopsOn = t.settleTag.loopsOn := rfl
    by_cases h : t.settleTag.loopsOn = true
    · simp only [hl, h, if_true]; rfl
    · simp only [hl, h]; rfl
  rw [← Thread.retired_advance, hadv, ← Thread.retired_advance]
  rfl

/-! ## LDT, STT and TXN -/

/-- A failed access of the current thread changes stst alone. -/
theorem complete_failAccess {s : State} (ha : s.active = true) {w : Waiter} (hw : w.thread = s.cur.id) (st : Nat) :
    complete (s.failAccess w st) = { s with
      cur := { s.cur.past with user := { s.cur.user with stst := w.stst 1 st st } }
      others := (s.failAccess w st).others, saved := (s.failAccess w st).saved } := by
  rw [complete_eq, State.failAccess_eq, hw, State.onThread_cur _ _ ha]
  dsimp only
  rw [Thread.withStst_past]
  rfl

/-- The state past a parked access of the current thread. -/
theorem parkAccess_eq (s : State) (pn : Nat) (w : Waiter) :
    s.parkAccess pn w = { s with
      objects := (s.parkAccess pn w).objects
      timers := if s.unitFull w.sb then s.timers ++ [.stagedResend w.thread] else s.timers } := by
  unfold State.parkAccess
  dsimp only
  split <;> rfl

theorem parkAccess_objs (s : State) (pn : Nat) (w : Waiter) (q : Nat) :
    (s.parkAccess pn w).objs q =
      if q = pn then
        (if s.unitFull w.sb then
          { s.objs pn with resend := (s.objs pn).resend.filter (fun x => x.thread ≠ w.thread) ++ [w] }
        else { s.objs pn with
          resend := (s.objs pn).resend.filter (fun x => x.thread ≠ w.thread), waiters := (s.objs pn).waiters ++ [w] })
      else s.objs q := by
  have hne : (fun x : Waiter => x.thread != w.thread) = fun x => decide (x.thread ≠ w.thread) := by
    funext x; simp [bne, BEq.beq]
  unfold State.parkAccess
  dsimp only
  rw [hne]
  split
  · exact (State.objs_setObjs ..).trans rfl
  · exact (State.objs_setObjs ..).trans rfl

theorem Waiter.answered_eq (w : Waiter) (s : State) (st next : Nat) (t : Thread) :
    w.answered s st next t =
      { t with s := (w.answered s st next t).s, user := { t.user with stst := w.stst 0 st next } } := by
  unfold Waiter.answered
  split
  · unfold Thread.writeS
    split <;> rfl
  · rfl

/-- What a legal access of the current thread leaves before its hand-off. -/
theorem applyAccess_cur {s : State} (ha : s.active = true) {w : Waiter} (hw : w.thread = s.cur.id) (hk : w.kind ≠ .gate)
    (st next : Nat) : (s.applyAccess w st next).cur = w.answered s st next s.cur := by
  rw [State.applyAccess_word hk, hw]
  exact congrArg State.cur (State.onThread_cur { s with mem := w.stored s next } _ ha)

theorem applyAccess_mem {w : Waiter} (s : State) (st next : Nat) : (s.applyAccess w st next).mem = w.stored s next := by
  by_cases hk : w.kind = .gate
  · rw [State.applyAccess_gate hk]
  · rw [State.applyAccess_word hk]
    rfl

theorem applyAccess_rest {s : State} (ha : s.active = true) {w : Waiter} (hw : w.thread = s.cur.id) (hk : w.kind ≠ .gate)
    (st next : Nat) :
    s.applyAccess w st next = { s with
      mem := (s.applyAccess w st next).mem
      cur := { s.cur with s := (s.applyAccess w st next).cur.s, user := { s.cur.user with stst := w.stst 0 st next } }
      others := (s.applyAccess w st next).others, saved := (s.applyAccess w st next).saved } := by
  rw [applyAccess_mem, applyAccess_cur ha hw hk, ← w.answered_eq s st next s.cur, State.applyAccess_word hk, hw]
  exact State.onThread_cur { s with mem := w.stored s next } _ ha

theorem Waiter.answered_readS (w : Waiter) (s : State) (st next : Nat) (t : Thread) (q : BitVec 5) :
    (w.answered s st next t).readS q =
      if q = BitVec.ofNat 5 w.dest ∧ BitVec.ofNat 5 w.dest ≠ 0#5 then (w.result s st).getD (t.readS (BitVec.ofNat 5 w.dest))
      else t.readS q := by
  unfold Waiter.answered
  split
  · next y hy =>
    rw [hy, Thread.readS_writeS]
    by_cases hq : q = BitVec.ofNat 5 w.dest
    · rw [if_pos hq]
      by_cases hd : BitVec.ofNat 5 w.dest = 0#5
      · rw [if_pos hd, if_neg fun h => h.2 hd, hq, hd]
        rfl
      · rw [if_neg hd, if_pos ⟨hq, hd⟩]
        rfl
    · rw [if_neg hq, if_neg fun h => hq h.1]
      rfl
  · next hy =>
    rw [hy]
    split
    · next h => rw [h.1]; rfl
    · rfl

/-- A word of the current thread, by its kind, with the object that it has come to. -/
def State.stagedAt (s : State) (k : StKind) (c : BitVec 4) (d : BitVec 5) (n : Nat) (ea : Word) (pas : List Nat) (m j sb : Nat) :
    Waiter :=
  { s.stagedWaiter k c d n ea pas with cls := m, obj := j, sb := sb }

theorem State.poisonedLdt_iff {s : State} {w : Waiter} :
    s.poisonedLdt w = true ↔ w.kind = .ldt ∧ s.poisoned (rangeFrom w.pa w.size) = true := by
  rw [State.poisonedLdt, Bool.and_eq_true, decide_eq_true_eq]

/-! ## STQRY (R309) -/

section
variable {i : Instr} {s : State} {body : State → Except Stop State} (hi : s.idle)
  (he : exec i s = aside false complete body s)
include hi he

/-- An A-side word of an idle thread whose body is done completes. -/
theorem completes_of_body {u : State} (hb : body s = .ok u) {P : State → Prop} (hP : P (complete u)) : Completes i s P :=
  ⟨_, he.trans (aside_ok hi.1 (.inr (State.idle_free hi).2) hb), hP⟩

/-- An A-side word of an idle thread whose body traps takes the trap. -/
theorem traps_of_body {x : Trap} (hb : body s = .error (.trap x)) : Completes i s (fun t => t = takeTrap s x) :=
  ⟨_, he.trans (aside_trap hi hb), rfl⟩

/-- An A-side word of an idle thread whose body waits. -/
theorem waits_of_body {w : WaitOn} (hb : body s = .error (.wait w)) : Completes i s (fun t => t = s.waits w) :=
  ⟨_, he.trans (aside_wait hi.1 (.inr (State.idle_free hi).2) hb), rfl⟩

end

/-- What STQRY answers for an object that it finds. -/
def State.queried (s : State) (m : Nat) (cl : Class) (j sb : Nat) : Word :=
  BitVec.ofNat 64 ((s.mem.byte sb).toNat % 16 + 16 +
    (if ((s.objs s.pn).automaton cl.slot).nst ≤ (s.mem.byte sb).toNat then 32 else 0) + 256 * m +
    4096 * ((s.objs s.pn).waitersOf m j).length)

section
variable {s : State} {a : BitVec 5} {pas : List Nat} (hi : s.idle) (hp : s.place .read 1 (s.readS a) 1 = .ok pas) (d : BitVec 5)
include hi hp

theorem execStqry_outside (hf : (s.objs s.pn).find (s.readS a).toNat = none) :
    Completes (.stqry d a) s (Wrote d 0#64 s) := by
  refine completes_of_body hi (by dsimp only [exec]; unfold execStqry; exact rfl) ?_ (wrote_complete ..)
  dsimp only [bind, Except.bind]
  rw [hp, hf]
  rfl

variable {m j : Nat} {cl : Class} (hf : (s.objs s.pn).find (s.readS a).toNat = some (m, cl, j))
include hf

theorem execStqry_unread {e : Nat} {ad : Word} (hb : s.stateByte s.cp cl j = .error (e, ad)) :
    Completes (.stqry d a) s (fun t =>
      t = takeTrap s { cause := e, addr := ad, batch := if e = cResidency then [subBlock ad] else [] }) := by
  refine traps_of_body hi (by dsimp only [exec]; unfold execStqry; exact rfl) ?_
  dsimp only [bind, Except.bind]
  rw [hp, hf]
  dsimp only
  rw [hb]

variable {sb : Nat} (hb : s.stateByte s.cp cl j = .ok sb) (hr : s.reachable [sb] = .ok ())
include hb hr

theorem execStqry_poisoned (hpo : s.poisoned [sb] = true) :
    Completes (.stqry d a) s (fun t => t = takeTrap s { cause := cMachine, addr := cl.sarr + w64 j }) := by
  refine traps_of_body hi (by dsimp only [exec]; unfold execStqry; exact rfl) ?_
  dsimp only [bind, Except.bind]
  rw [hp, hf]
  dsimp only
  rw [hb]
  dsimp only
  rw [hr, State.fetchBytes, if_pos hpo]

theorem execStqry_found (hpo : s.poisoned [sb] = false) : Completes (.stqry d a) s (Wrote d (s.queried m cl j sb) s) := by
  refine completes_of_body hi (by dsimp only [exec]; unfold execStqry; exact rfl) (u := s.writeS d (s.queried m cl j sb)) ?_ (wrote_complete ..)
  dsimp only [bind, Except.bind]
  rw [hp, hf]
  dsimp only
  rw [hb]
  dsimp only
  rw [hr, State.fetchBytes, hpo, if_neg Bool.false_ne_true]
  dsimp only
  rw [State.queried, bitsAt_eq, Nat.pow_zero, Nat.div_one]
  by_cases hst : ((s.objs s.pn).automaton cl.slot).nst ≤ (s.mem.byte sb).toNat
  · rw [if_pos hst, decide_eq_true hst]
    rfl
  · rw [if_neg hst, decide_eq_false hst]
    rfl

end

/-! ## The hand-off of an object to its waiters (R305) -/

theorem dataOk_iff (k : StKind) (e : Nat) :
    dataOk k (e / 2 ^ 7 % 4) = true ↔ (k = .ldt → e.testBit 7 = true) ∧ (k = .stt → e.testBit 8 = true) := by
  have hbit : ∀ n < 2, (e / 2 ^ 7 % 4).testBit n = e.testBit (n + 7) := fun n hn => by
    rw [show (4 : Nat) = 2 ^ 2 from rfl, Nat.testBit_mod_two_pow, Nat.testBit_div_two_pow, decide_eq_true hn, Bool.true_and]
  cases k with
  | ldt => rw [dataOk, bitAt, hbit 0 (by decide)]; simp
  | stt => rw [dataOk, bitAt, hbit 1 (by decide)]; simp
  | txn | gate => simp [dataOk]

/-- A waiter's word takes the trap of a cause at its thread's next turn, or its launch ends (R315). -/
def State.handFault (s : State) (pn : Nat) (w : Waiter) (c : Nat) : State :=
  if w.kind = .gate then (s.endLaunch pn w.thread.lid .gateFaulted 0).logHub pn w.thread.lid w.va c
  else s.faultAccess w c w.va

/-- A waiter's access fails, or its launch ends (R315). -/
def State.handFail (s : State) (pn : Nat) (w : Waiter) (st : Nat) : State :=
  if w.kind = .gate then s.endLaunch pn w.thread.lid .gateFailed 0
  else s.onThread w.thread (fun t => (t.withStst (w.stst 1 st st)).past)

/-- A waiter's legal access, with its word, or its launch's gate. -/
def State.handLegal (s : State) (pn : Nat) (w : Waiter) (st next : Nat) : State :=
  if w.kind = .gate then State.passGate { s with mem := w.stored s next } pn w.thread.lid
  else State.onThread { s with mem := w.stored s next } w.thread (fun t => (w.answered s st next t).past)

section
variable {s : State} {pn cls obj sb slot n : Nat}

theorem State.handOff_empty (h : (s.objs pn).waitersOf cls obj = []) : State.handOff pn cls obj sb slot (n + 1) s = s := by
  rw [State.handOff, h]
  rfl

variable {w : Waiter} {r : List Waiter} (h : (s.objs pn).waitersOf cls obj = w :: r)
include h

theorem State.handOff_park (ht : ((s.objs pn).automaton slot).attempt w.kind (s.mem.byte sb).toNat w.code = .park) :
    State.handOff pn cls obj sb slot (n + 1) s = s := by
  rw [State.handOff, h]
  dsimp only [List.head?_cons]
  rw [ht]

theorem State.handOff_bad (ht : ((s.objs pn).automaton slot).attempt w.kind (s.mem.byte sb).toNat w.code = .bad) :
    State.handOff pn cls obj sb slot (n + 1) s =
      State.handOff pn cls obj sb slot n ((s.unpark pn w).handFault pn w cStBad) := by
  rw [State.handOff, h]
  dsimp only [List.head?_cons]
  rw [ht]
  rfl

theorem State.handOff_fault (ht : ((s.objs pn).automaton slot).attempt w.kind (s.mem.byte sb).toNat w.code = .fault) :
    State.handOff pn cls obj sb slot (n + 1) s =
      State.handOff pn cls obj sb slot n ((s.unpark pn w).handFault pn w cStIllegal) := by
  rw [State.handOff, h]
  dsimp only [List.head?_cons]
  rw [ht]
  rfl

theorem State.handOff_fail (ht : ((s.objs pn).automaton slot).attempt w.kind (s.mem.byte sb).toNat w.code = .fail) :
    State.handOff pn cls obj sb slot (n + 1) s =
      State.handOff pn cls obj sb slot n ((s.unpark pn w).handFail pn w (s.mem.byte sb).toNat) := by
  rw [State.handOff, h]
  dsimp only [List.head?_cons]
  rw [ht]
  dsimp only
  rw [State.handFail]
  by_cases hk : w.kind = .gate
  · rw [if_pos hk, if_pos hk]
  · rw [if_neg hk, if_neg hk, State.failAccess_eq,
      State.finishAccess_onThread hk _ (f := Thread.withStst _) fun _ => rfl]

variable {next : Nat} {wake : Bool}
  (ht : ((s.objs pn).automaton slot).attempt w.kind (s.mem.byte sb).toNat w.code = .legal next wake)
include ht

theorem State.handOff_cut (hc : ∃ x ∈ rangeFrom w.pa w.size, s.cutOff x = true) :
    State.handOff pn cls obj sb slot (n + 1) s =
      State.handOff pn cls obj sb slot n ((s.unpark pn w).linkLost w.thread s.fresh) := by
  rw [State.handOff, h]
  dsimp only [List.head?_cons]
  rw [ht]
  exact if_pos (List.any_eq_true.2 hc)

variable (hc : ∀ x ∈ rangeFrom w.pa w.size, s.cutOff x = false)
include hc

theorem State.handOff_reached :
    State.handOff pn cls obj sb slot (n + 1) s =
      if s.poisonedLdt w then State.handOff pn cls obj sb slot n ((s.unpark pn w).faultAccess w cMachine w.va)
      else if wake then State.handOff pn cls obj sb slot n ((s.unpark pn w).handLegal pn w (s.mem.byte sb).toNat next)
      else (s.unpark pn w).handLegal pn w (s.mem.byte sb).toNat next := by
  have hcut : ¬ (rangeFrom w.pa w.size).any s.cutOff = true := fun hx => by
    obtain ⟨x, hx, hcx⟩ := List.any_eq_true.1 hx
    exact Bool.false_ne_true ((hc x hx).symm.trans hcx)
  have hlegal : (if w.kind = .gate then
        (((s.unpark pn w).applyAccess w (s.mem.byte sb).toNat next).finishAccess w).passGate pn w.thread.lid
      else ((s.unpark pn w).applyAccess w (s.mem.byte sb).toNat next).finishAccess w) =
      (s.unpark pn w).handLegal pn w (s.mem.byte sb).toNat next := by
    rw [State.handLegal]
    by_cases hk : w.kind = .gate
    · rw [if_pos hk, if_pos hk, State.applyAccess_gate hk]
      rw [State.finishAccess, hk]
    · rw [if_neg hk, if_neg hk, State.applyAccess_word hk, State.finishAccess_onThread hk _ (w.answered_id _ _ _)]
  rw [State.handOff, h]
  dsimp only [List.head?_cons]
  rw [ht]
  dsimp only
  rw [if_neg hcut, hlegal]

end

/-! ## STLOAD (R294, R298) -/

theorem State.fenced_of_idle {s : State} (hi : s.idle) : s.fenced = .ok () := by
  simp [State.fenced, Thread.anyPending, hi.2]

/-- A word that changes a partition's objects and memory, and writes a register, completes. -/
theorem complete_setObjs (s : State) (d : BitVec 5) (v : Word) (pn : Nat) (o : Objects) (m : Mem) {t : State}
    (ht : t = complete ((State.setObjs { s with mem := m } pn o).writeS d v)) :
    t.readS d = (if d = 0#5 then 0#64 else v) ∧ (∀ r, r ≠ d → t.readS r = s.readS r) ∧
      (∀ q, t.objs q = if q = pn then o else s.objs q) ∧
      t = { s with mem := m, objects := t.objects, cur := { s.cur.past with s := t.cur.s } } := by
  obtain ⟨hres, hoth, -, hrest⟩ := wrote_complete d v (State.setObjs { s with mem := m } pn o)
  rw [← ht] at hres hoth hrest
  have hobj : t.objects = (State.setObjs { s with mem := m } pn o).objects := by rw [hrest]
  refine ⟨hres, hoth, fun q => ?_, hobj ▸ hrest⟩
  rw [State.objs, hobj]
  exact State.objs_setObjs { s with mem := m } pn q o

theorem Table.get_foldl_set {β : Type} [DecidableEq β] (f : Nat → β) (z : β) (k : Nat) (l : List Nat) (t : Table β) :
    Table.get (l.foldl (fun t j => Table.set t z j (f j)) t) z k = if k ∈ l then f k else Table.get t z k := by
  induction l generalizing t with
  | nil => rfl
  | cons j l ih =>
    rw [List.foldl_cons, ih, Table.get_set]
    by_cases hl : k ∈ l
    · rw [if_pos hl, if_pos (List.mem_cons_of_mem j hl)]
    · by_cases hj : k = j
      · subst hj; rw [if_neg hl, if_pos rfl, if_pos List.mem_cons_self]
      · rw [if_neg hl, if_neg hj, if_neg (by simp [hj, hl])]

theorem field_eq_leNum (bs : List Byte) (o n : Nat) : field bs o n = leNum ((bs.drop o).take n) := ofBytes_eq_leNum _

theorem field_lt (bs : List Byte) (o n : Nat) : field bs o n < 256 ^ n := by
  rw [field_eq_leNum]
  exact (leNum_lt _).trans_le (Nat.pow_le_pow_right (by decide) (List.length_take_le ..))

/-- When an entry of an image is not valid (R294). -/
theorem entryBad_iff (nst st : Nat) {x : Nat} (hx : x < 65536) :
    entryBad nst st (BitVec.ofNat 16 x) = true ↔
      x / 2 ^ 12 ≠ 0 ∨ x / 2 ^ 5 % 4 = 3 ∨ (x.testBit 4 = true ∧ x / 2 ^ 5 % 4 ≠ 0) ∨
        (x.testBit 4 = false ∧ (x % 16 ≠ 0 ∨ x / 2 ^ 7 % 32 ≠ 0)) ∨
        (st < nst ∧ x.testBit 4 = true ∧ nst ≤ x % 16) ∨ (nst ≤ st ∧ x ≠ 0) := by
  have hn : (BitVec.ofNat 16 x).toNat = x := by rw [BitVec.toNat_ofNat]; exact Nat.mod_eq_of_lt hx
  have hz : BitVec.ofNat 16 x ≠ 0#16 ↔ x ≠ 0 := by
    rw [Ne, ← BitVec.toNat_inj, hn]; rfl
  have htop : x / 2 ^ 12 % 2 ^ 4 = x / 2 ^ 12 := Nat.mod_eq_of_lt (by omega)
  simp only [entryBad, enAct, enNext, enLegal, bitAt, bitsAt_eq, hn, hz, htop, Bool.or_eq_true, Bool.and_eq_true, decide_eq_true_eq,
    Bool.not_eq_true', Nat.pow_zero, Nat.div_one, or_assoc, and_assoc]
  norm_num

/-- The entry k of an image (R294). -/
def imageNum (bs : List Byte) (k : Nat) : Nat := leNum ((bs.drop (2 * k)).take 2)

theorem imageNum_lt (bs : List Byte) (k : Nat) : imageNum bs k < 65536 := by
  rw [imageNum, ← field_eq_leNum]
  exact field_lt bs (2 * k) 2

/-- Is entry k of an image not valid for a state count? -/
def imageWrong (bs : List Byte) (nst k : Nat) : Prop :=
  imageNum bs k / 2 ^ 12 ≠ 0 ∨ imageNum bs k / 2 ^ 5 % 4 = 3 ∨
    ((imageNum bs k).testBit 4 = true ∧ imageNum bs k / 2 ^ 5 % 4 ≠ 0) ∨
    ((imageNum bs k).testBit 4 = false ∧ (imageNum bs k % 16 ≠ 0 ∨ imageNum bs k / 2 ^ 7 % 32 ≠ 0)) ∨
    (k / 16 < nst ∧ (imageNum bs k).testBit 4 = true ∧ nst ≤ imageNum bs k % 16) ∨ (nst ≤ k / 16 ∧ imageNum bs k ≠ 0)

/-- Are an image and its counts x not valid (R298)? -/
def imageBad (bs : List Byte) (x : Nat) : Prop :=
  x / 2 ^ 3 % 32 ≠ 0 ∨ x / 2 ^ 13 ≠ 0 ∨ x / 2 ^ 8 % 32 = 0 ∨ 16 < x / 2 ^ 8 % 32 ∨ ∃ k < 256, imageWrong bs (x / 2 ^ 8 % 32) k

theorem imageEntry_eq (bs : List Byte) (k : Nat) : imageEntry bs k = BitVec.ofNat 16 (imageNum bs k) := by
  rw [imageEntry, field_eq_leNum]; rfl

theorem imageBad_iff (bs : List Byte) {x : Nat} (hx : x < 2 ^ 64) :
    (decide (bitsAt x 3 5 ≠ 0) || decide (bitsAt x 13 51 ≠ 0) || decide (bitsAt x 8 5 = 0) || decide (16 < bitsAt x 8 5) ||
      (List.range 256).any (fun k => entryBad (bitsAt x 8 5) (k / 16) (imageEntry bs k))) = true ↔ imageBad bs x := by
  have htop : x / 2 ^ 13 % 2 ^ 51 = x / 2 ^ 13 := Nat.mod_eq_of_lt (by omega)
  simp only [imageBad, imageWrong, bitsAt_eq, htop, Bool.or_eq_true, decide_eq_true_eq, List.any_eq_true, List.mem_range, imageEntry_eq,
    entryBad_iff _ _ (imageNum_lt _ _), or_assoc]
  rfl

/-- Does an object of a class of the slot have a waiter (R298)? -/
def Objects.slotHeld (o : Objects) (slot : Nat) : Prop := ∃ w ∈ o.waiters, ∃ cl, o.cls w.cls = some cl ∧ cl.slot = slot

theorem Objects.slotHeld_iff (o : Objects) (slot : Nat) :
    o.waiters.any (fun w => match o.cls w.cls with
      | some c => decide (c.slot = slot)
      | none => false) = true ↔ o.slotHeld slot := by
  rw [List.any_eq_true]
  refine exists_congr fun w => and_congr_right fun _ => ?_
  cases o.cls w.cls <;> simp

/-- The automaton that an image of nst states loads. -/
def imageAutomaton (bs : List Byte) (nst : Nat) : Automaton :=
  ⟨nst, (List.range 256).foldl (fun t k => Table.set t 0#16 k (imageEntry bs k)) []⟩

theorem imageAutomaton_get (bs : List Byte) (nst : Nat) {k : Nat} (hk : k < 256) :
    Table.get (imageAutomaton bs nst).table 0#16 k = BitVec.ofNat 16 (imageNum bs k) := by
  rw [imageAutomaton, Table.get_foldl_set, if_pos (List.mem_range.2 hk), imageEntry_eq]

/-- The body of STLOAD once its image is read. -/
theorem execStload_body {s : State} (hi : s.idle) (d : BitVec 5) {a b : BitVec 5} {bs : List Byte}
    (hl : s.loadBlock 64 (s.readS a) 512 = .ok bs) :
    ∃ body, exec (.stload d a b) s = aside false complete body s ∧
      (imageBad bs (s.readS b).toNat → body s = .ok (s.writeS d 2#64)) ∧
      (¬ imageBad bs (s.readS b).toNat → (s.objs s.pn).slotHeld ((s.readS b).toNat % 8) → body s = .ok (s.writeS d 1#64)) ∧
      (¬ imageBad bs (s.readS b).toNat → ¬ (s.objs s.pn).slotHeld ((s.readS b).toNat % 8) →
        body s = .ok ((s.setObjs s.pn { s.objs s.pn with
          automata := Table.set (s.objs s.pn).automata Automaton.empty ((s.readS b).toNat % 8)
            (imageAutomaton bs ((s.readS b).toNat / 2 ^ 8 % 32)) }).writeS d 0#64)) := by
  refine ⟨_, by dsimp only [exec]; unfold execStload; exact rfl, ?_⟩
  dsimp only [bind, Except.bind]
  rw [s.fenced_of_idle hi, hl]
  dsimp only
  have hslot : bitsAt (s.readS b).toNat 0 3 = (s.readS b).toNat % 8 := by rw [bitsAt_eq, Nat.pow_zero, Nat.div_one]; rfl
  have hnst : bitsAt (s.readS b).toNat 8 5 = (s.readS b).toNat / 2 ^ 8 % 32 := bitsAt_eq ..
  refine ⟨fun hb => ?_, fun hb hh => ?_, fun hb hh => ?_⟩
  · exact if_pos ((imageBad_iff bs (s.readS b).isLt).2 hb)
  · refine (if_neg (mt (imageBad_iff bs (s.readS b).isLt).1 hb)).trans (if_pos ?_)
    rw [hslot]
    exact (Objects.slotHeld_iff ..).2 hh
  · refine (if_neg (mt (imageBad_iff bs (s.readS b).isLt).1 hb)).trans ?_
    rw [hslot, hnst]
    exact if_neg (mt (Objects.slotHeld_iff ..).1 hh)

/-! ## STUNBIND (R299) -/

theorem execStunbind_body {s : State} (hi : s.idle) (d b : BitVec 5) :
    ∃ body, exec (.stunbind d b) s = aside false complete body s ∧
      ((s.objs s.pn).cls b.toNat = none → body s = .ok (s.writeS d minusOne)) ∧
      ((s.objs s.pn).cls b.toNat ≠ none → (∃ w ∈ (s.objs s.pn).waiters, w.cls = b.toNat) → body s = .ok (s.writeS d 1#64)) ∧
      ((s.objs s.pn).cls b.toNat ≠ none → ¬ (∃ w ∈ (s.objs s.pn).waiters, w.cls = b.toNat) →
        body s = .ok ((s.setObjs s.pn { s.objs s.pn with
          classes := Table.set (s.objs s.pn).classes none b.toNat none }).writeS d 0#64)) := by
  have hany : (s.objs s.pn).waiters.any (fun w => w.cls == b.toNat) = true ↔ ∃ w ∈ (s.objs s.pn).waiters, w.cls = b.toNat := by
    simp
  refine ⟨_, by dsimp only [exec]; unfold execStunbind; exact rfl, ?_⟩
  dsimp only [bind, Except.bind]
  rw [s.fenced_of_idle hi]
  dsimp only
  cases (s.objs s.pn).cls b.toNat with
  | none => exact ⟨fun _ => rfl, fun h => absurd rfl h, fun h => absurd rfl h⟩
  | some cl => exact ⟨fun h => (nomatch h), fun _ hw => if_pos (hany.2 hw), fun _ hw => if_neg (mt hany.1 hw)⟩

/-! ## STBIND (R296, R297) -/

/-- Are the fields of a class descriptor in their ranges (R296)? -/
def descriptorValid (bs : List Byte) : Prop :=
  6 ≤ field bs 12 1 ∧ field bs 12 1 ≤ 16 ∧ field bs 0 8 % 2 ^ field bs 12 1 = 0 ∧ 1 ≤ field bs 8 4 ∧ field bs 8 4 ≤ 16777216 ∧
    field bs 13 1 ≤ 7 ∧ 1 ≤ field bs 15 1 ∧ field bs 15 1 ≤ 4 ∧ (field bs 16 1 ≤ 15 ∨ field bs 16 1 = 255) ∧
    field bs 17 7 = 0 ∧ field bs 32 32 = 0

/-- The class that a descriptor names. -/
def descriptorClass (bs : List Byte) : Class :=
  ⟨BitVec.ofNat 64 (field bs 0 8), field bs 8 4, field bs 12 1, field bs 13 1, field bs 15 1, BitVec.ofNat 64 (field bs 24 8)⟩

theorem classParse_valid {bs : List Byte} (h : descriptorValid bs) :
    classParse bs = some (descriptorClass bs, field bs 14 1, field bs 16 1) := by
  unfold classParse
  refine if_pos ?_
  simp only [Bool.and_eq_true, Bool.or_eq_true, decide_eq_true_eq, and_assoc]
  exact h

theorem classParse_invalid {bs : List Byte} (h : ¬ descriptorValid bs) : classParse bs = none := by
  unfold classParse
  refine if_neg fun hv => h ?_
  simp only [Bool.and_eq_true, Bool.or_eq_true, decide_eq_true_eq, and_assoc] at hv
  exact hv

/-- Do two ranges meet? -/
theorem rangesMeet_iff (x y : Nat × Nat) : rangesMeet x y = true ↔ x.1 < y.1 + y.2 ∧ y.1 < x.1 + x.2 := by
  simp [rangesMeet]

/-- Is a class number one that STBIND takes for a descriptor's CNUM (R297)? -/
def Objects.takes (o : Objects) (cnum n : Nat) : Prop :=
  n < 16 ∧ o.cls n = none ∧ (cnum = n ∨ (cnum = 255 ∧ ∀ j < n, o.cls j ≠ none))

/-- Does a class meet itself or a bound class? -/
def Objects.clash (o : Objects) (cl : Class) : Prop :=
  (cl.base.toNat < cl.sarr.toNat + cl.count ∧ cl.sarr.toNat < cl.base.toNat + cl.count * 2 ^ cl.osh) ∨
    ∃ n < 16, ∃ x, o.cls n = some x ∧ ∃ r ∈ x.ranges, ∃ r' ∈ cl.ranges, r.1 < r'.1 + r'.2 ∧ r'.1 < r.1 + r.2

/-- Do the ranges of a class lie in the partition's window? -/
def Part.holdsClass (p : Part) (cl : Class) : Prop :=
  ∀ r ∈ cl.ranges, p.regs.vwbaseF.toNat ≤ r.1 ∧ r.1 + r.2 ≤ p.regs.vwbaseF.toNat + p.regs2.gzcount * 2 ^ 28

/-- May a class be bound, its number apart? -/
def State.bindable (s : State) (cl : Class) (istate : Nat) : Prop :=
  istate < ((s.objs s.pn).automaton cl.slot).nst ∧ s.cp.holdsClass cl ∧ ¬ (s.objs s.pn).clash cl

/-- The number that STBIND takes, if any. -/
def Objects.number (o : Objects) (cnum : Nat) : Option Nat :=
  if cnum = 255 then (List.range 16).find? (fun n => (o.cls n).isNone) else if (o.cls cnum).isNone then some cnum else none

theorem State.bindNumber_eq (s : State) (cl : Class) (istate cnum : Nat) [Decidable (s.bindable cl istate)] :
    s.bindNumber cl istate cnum = if s.bindable cl istate then (s.objs s.pn).number cnum else none := by
  have hclash : (rangesMeet (cl.ranges.headD (0, 0)) (cl.ranges.getD 1 (0, 0)) ||
      ((List.range 16).filterMap (s.objs s.pn).cls).any (fun x => x.ranges.any (fun r => cl.ranges.any (rangesMeet r)))) = true ↔
      (s.objs s.pn).clash cl := by
    simp only [Bool.or_eq_true, List.any_eq_true, rangesMeet_iff, List.mem_filterMap, List.mem_range]
    refine or_congr Iff.rfl ⟨?_, ?_⟩
    · rintro ⟨x, ⟨n, hn, hx⟩, hr⟩
      exact ⟨n, hn, x, hx, hr⟩
    · rintro ⟨n, hn, x, hx, hr⟩
      exact ⟨x, ⟨n, hn, hx⟩, hr⟩
  have hin : cl.ranges.all s.cp.windowHolds = true ↔ s.cp.holdsClass cl := by
    rw [List.all_eq_true]
    simp only [Part.windowHolds, Bool.and_eq_true, decide_eq_true_eq]
    rfl
  have hbad : (decide (((s.objs s.pn).automaton cl.slot).nst ≤ istate) || !cl.ranges.all s.cp.windowHolds ||
      (rangesMeet (cl.ranges.headD (0, 0)) (cl.ranges.getD 1 (0, 0)) ||
        ((List.range 16).filterMap (s.objs s.pn).cls).any (fun x => x.ranges.any (fun r => cl.ranges.any (rangesMeet r))))) = true ↔
      ¬ s.bindable cl istate := by
    rw [Bool.or_eq_true, Bool.or_eq_true, hclash, Bool.not_eq_true', ← Bool.not_eq_true, hin, decide_eq_true_eq, State.bindable]
    constructor
    · rintro ((h | h) | h) ⟨h1, h2, h3⟩
      · omega
      · exact h h2
      · exact h3 h
    · intro h
      by_contra hn
      simp only [not_or, Nat.not_le, not_not] at hn
      exact h ⟨hn.1.1, hn.1.2, hn.2⟩
  unfold State.bindNumber
  dsimp only
  by_cases hb : s.bindable cl istate
  · rw [if_neg (mt hbad.1 (not_not.2 hb)), if_pos hb]
    rfl
  · rw [if_pos (hbad.2 hb), if_neg hb]

theorem Objects.number_iff (o : Objects) {cnum : Nat} (hc : cnum ≤ 15 ∨ cnum = 255) (n : Nat) :
    o.number cnum = some n ↔ o.takes cnum n := by
  unfold Objects.number Objects.takes
  by_cases h : cnum = 255
  · rw [if_pos h, List.find?_range_eq_some]
    simp only [Option.isNone_iff_eq_none, List.mem_range, Bool.not_eq_true', ← Bool.not_eq_true, ne_eq]
    constructor
    · rintro ⟨hf, hn, hj⟩
      exact ⟨hn, hf, .inr ⟨h, hj⟩⟩
    · rintro ⟨hn, hf, hc | ⟨-, hj⟩⟩
      · omega
      · exact ⟨hf, hn, hj⟩
  · rw [if_neg h, ite_eq_iff]
    simp only [Option.isNone_iff_eq_none, Option.some.injEq, reduceCtorEq, and_false, or_false]
    constructor
    · rintro ⟨hf, rfl⟩
      exact ⟨by omega, hf, .inl rfl⟩
    · rintro ⟨hn, hf, rfl | ⟨hc, -⟩⟩
      · exact ⟨hf, rfl⟩
      · exact absurd hc h

/-- The place of one byte that an access reaches. -/
theorem State.element_byte {s : State} {p : Part} {k : Acc} {ea : Word} {pas : List Nat} (h : s.element p k 1 ea 1 = .ok pas) :
    pas = [p.tagged (s.winPa p ea.toNat)] := by
  have hb : byteAddrs ea 1 = [ea.toNat] := by simp [byteAddrs, w64, Nat.mod_eq_of_lt ea.isLt]
  unfold State.element at h
  rw [if_neg (by omega), hb] at h
  dsimp only at h
  split at h
  · cases h
  · split at h
    · cases h
    · cases h; rfl

/-- The places of a range of bytes that single accesses reach. -/
theorem State.element_bytes {s : State} {p : Part} {k : Acc} {ea : Word} {pas : List Nat}
    (h : ∀ j < pas.length, s.element p k 1 (ea + BitVec.ofNat 64 j) 1 = .ok [pas.getD j 0]) :
    (byteAddrs ea pas.length).map (fun va => p.tagged (s.winPa p va)) = pas := by
  refine List.ext_getElem (by simp [byteAddrs]) fun j hj hj' => ?_
  have := State.element_byte (h j hj')
  rw [List.getD_eq_getElem _ _ hj'] at this
  rw [List.getElem_map]
  simp only [byteAddrs, List.getElem_map, List.getElem_range]
  exact (List.singleton_inj.1 this).symm

/-- Each address that stands for a sub-block lies among the bytes. -/
theorem mem_subBlocks {va x : Word} {n : Nat} (hn : 1 ≤ n) (h : x ∈ subBlocks va n) : ∃ j < n, x = va + BitVec.ofNat 64 j := by
  simp only [subBlocks, rangeFrom, List.mem_map, List.mem_range] at h
  obtain ⟨k, ⟨i, hi, rfl⟩, rfl⟩ := h
  split
  · exact ⟨0, hn, by simp⟩
  · next hk =>
    refine ⟨(va.toNat / 2 ^ 21 + i) * 2 ^ 21 - va.toNat, by omega, ?_⟩
    apply BitVec.eq_of_toNat_eq
    rw [w64, BitVec.toNat_ofNat, BitVec.toNat_add, BitVec.toNat_ofNat]
    omega

theorem State.putStates_eq (s : State) (pas : List Nat) (x : Nat) :
    s.putStates pas x = { s with
      mem := pas.foldl (fun m q => m.write (.sheet (homeOf q)) q (BitVec.ofNat 8 x)) s.mem } := by
  unfold State.putStates
  induction pas generalizing s with
  | nil => rfl
  | cons q l ih => rw [List.foldl_cons, ih]; rfl

/-- The body of STBIND once its descriptor is read, where it binds nothing. -/
theorem execStbind_refused {s : State} (hi : s.idle) (d : BitVec 5) {a : BitVec 5} {bs : List Byte}
    (hl : s.loadBlock 64 (s.readS a) 64 = .ok bs)
    (h : descriptorValid bs ∧ s.bindable (descriptorClass bs) (field bs 14 1) → ∀ n, ¬ (s.objs s.pn).takes (field bs 16 1) n) :
    Completes (.stbind d a) s (Wrote d minusOne s) := by
  refine completes_of_body hi (by dsimp only [exec]; unfold execStbind; exact rfl) (u := s.writeS d minusOne) ?_ (wrote_complete ..)
  dsimp only [bind, Except.bind]
  rw [s.fenced_of_idle hi, hl]
  dsimp only
  by_cases hv : descriptorValid bs
  · rw [classParse_valid hv]
    dsimp only
    have hn : s.bindNumber (descriptorClass bs) (field bs 14 1) (field bs 16 1) = none := by
      have hcnum : field bs 16 1 ≤ 15 ∨ field bs 16 1 = 255 := hv.2.2.2.2.2.2.2.2.1
      classical
      rw [State.bindNumber_eq]
      split
      · next hb =>
        rw [Option.eq_none_iff_forall_ne_some]
        exact fun n hn => h ⟨hv, hb⟩ n (((s.objs s.pn).number_iff hcnum n).1 hn)
      · rfl
    rw [hn]
    rfl
  · rw [classParse_invalid hv]
    rfl

/-- The body of STBIND once its descriptor is read, where its bytes and its number are found. -/
theorem execStbind_body {s : State} (hi : s.idle) (d : BitVec 5) {a : BitVec 5} {bs : List Byte}
    (hl : s.loadBlock 64 (s.readS a) 64 = .ok bs) (hv : descriptorValid bs)
    (hb : s.bindable (descriptorClass bs) (field bs 14 1)) {n : Nat} (hn : (s.objs s.pn).takes (field bs 16 1) n) {pas : List Nat}
    (hlen : pas.length = (descriptorClass bs).count)
    (hp : ∀ k < (descriptorClass bs).count,
      s.element s.cp .write 1 ((descriptorClass bs).sarr + BitVec.ofNat 64 k) 1 = .ok [pas.getD k 0]) :
    ∃ body, exec (.stbind d a) s = aside false complete body s ∧
      body s = match s.reachable pas with
        | .error e => .error e
        | .ok _ => .ok ((State.setObjs { s with
            mem := pas.foldl (fun m q => m.write (.sheet (homeOf q)) q (BitVec.ofNat 8 (field bs 14 1))) s.mem } s.pn
            { s.objs s.pn with
              classes := Table.set (s.objs s.pn).classes none n (some (descriptorClass bs)) }).writeS d (BitVec.ofNat 64 n)) := by
  have hcnum : field bs 16 1 ≤ 15 ∨ field bs 16 1 = 255 := hv.2.2.2.2.2.2.2.2.1
  have hcount : 1 ≤ (descriptorClass bs).count := hv.2.2.2.1
  have hnum : s.bindNumber (descriptorClass bs) (field bs 14 1) (field bs 16 1) = some n := by
    classical
    rw [State.bindNumber_eq, if_pos hb, (s.objs s.pn).number_iff hcnum]
    exact hn
  have hsub : ∀ va ∈ subBlocks (descriptorClass bs).sarr (descriptorClass bs).count, ∃ q, s.element s.cp .write 1 va 1 = .ok q := by
    intro va hva
    obtain ⟨k, hk, rfl⟩ := mem_subBlocks hcount hva
    exact ⟨_, hp k hk⟩
  refine ⟨_, by dsimp only [exec]; unfold execStbind; exact rfl, ?_⟩
  dsimp only [bind, Except.bind]
  rw [s.fenced_of_idle hi, hl]
  dsimp only
  rw [classParse_valid hv]
  dsimp only
  rw [hnum]
  dsimp only
  rw [(List.filterMap_eq_nil_iff (l := subBlocks _ _)).2 fun va hva => (hsub va hva).elim fun q hq => by rw [hq]]
  dsimp only
  rw [← hlen] at hp ⊢
  rw [State.element_bytes hp]
  cases s.reachable pas with
  | error e => rfl
  | ok u =>
    dsimp only
    rw [State.putStates_eq]
    rfl

end Sys2Proof.Machine

/-- Settles O34: what each access comes to by its entry, what each hand-off comes to by its head, and the three class words. -/
theorem Sys2Proof.Machine.stagedAccess : Obligations.StagedAccess := by
  unfold Obligations.StagedAccess
  refine ⟨fun s c d a z hi ha => ?_, ?_, ?_⟩
  · intro ea id o traps badByte elsewhere out
    have hout : ∀ (i : Instr) (k : StKind) (acc : Acc) (n : Nat) (may : Nat → Bool), k ≠ .gate →
        exec i s = stagedWord k acc n c d a s → (∀ x, may x = dataOk k x) → out i k acc n may := by
      intro i k acc n may hk he hmay pas hp
      have harr : ∀ {r : Arrival} {P : State → Prop}, s.arrive s.pn true (s.stagedWaiter k c d n (s.readS a) pas) = r → P (r.out s) →
          Completes i s P := fun hr hP => ⟨_, he.trans (stagedWord_of_arrive hi hp hr), hP⟩
      refine ⟨fun hf => harr (State.arrive_outside hf) rfl, fun m cl j hf => ⟨fun e ad hb => ?_, fun sb hb => ?_⟩⟩
      · exact harr (State.arrive_unread hf hb) rfl
      intro st au e legal act next stst pa w places held hc
      have hw : w = s.stagedAt k c d n (s.readS a) pas m j sb := rfl
      have hheld : held ↔ (s.objectOwned o m j sb || (rangeFrom pa n).any s.owned) = true := by
        rw [Bool.or_eq_true, List.any_eq_true]
        exact Iff.rfl
      have heq := State.arrive_eq (w := s.stagedWaiter k c d n (s.readS a) pas) hf hb hc
      refine ⟨fun hh => harr (heq.trans (if_pos (hheld.1 hh))) rfl, fun hh hpo => ?_, fun hh hpo => ?_⟩
      · exact harr (heq.trans ((if_neg (mt hheld.2 hh)).trans (if_pos hpo))) rfl
      have hatt : s.arrive s.pn true (s.stagedWaiter k c d n (s.readS a) pas) =
          s.attempted s.pn w cl.slot st (au.attempt k st c.toNat) :=
        heq.trans ((if_neg (mt hheld.2 hh)).trans (if_neg (by rw [hpo]; exact Bool.false_ne_true)))
      refine ⟨fun hst => ?_, fun hst hno => ?_, fun hst hl hact => ?_, fun hst hl hact => ?_, fun hst hl hd hld hpp => ?_,
        fun hst hl hd hpp => ?_⟩
      · rw [Automaton.attempt_bad hst] at hatt
        exact harr hatt rfl
      · rw [Automaton.attempt_fault hst k (by rw [← hmay]; exact hno)] at hatt
        exact harr hatt rfl
      · rw [Automaton.attempt_fail hst k hl hact] at hatt
        refine harr hatt ?_
        show elsewhere (complete (s.failAccess w st)) ∧ _
        have h := complete_failAccess ha (w := w) rfl st
        refine ⟨?_, ?_⟩
        · rw [h]
          rw [State.failAccess_eq]
          exact ⟨State.onThread_others s id _ fun _ => rfl, State.onThread_saved s id _ fun _ => rfl⟩
        · exact h
      · rw [Automaton.attempt_park hst k hl hact] at hatt
        refine harr hatt ⟨fun q => parkAccess_objs s s.pn w q, ?_⟩
        exact (congrArg (State.onProg · fun p => { p with wait := .parked }) (parkAccess_eq s s.pn w)).trans rfl
      · rw [Automaton.attempt_legal hst k hl ((hmay _).symm.trans hd)] at hatt
        exact harr (hatt.trans (if_pos (State.poisonedLdt_iff.2 ⟨hld, hpp⟩))) rfl
      · rw [Automaton.attempt_legal hst k hl ((hmay _).symm.trans hd)] at hatt
        have hclean : ¬ s.poisonedLdt w = true := fun h => by
          obtain ⟨hld, hpo⟩ := State.poisonedLdt_iff.1 h
          exact Bool.false_ne_true ((hpp hld).symm.trans hpo)
        refine harr (hatt.trans (if_neg hclean)) ?_
        refine ⟨s.applyAccess w st next, ⟨?_, ?_⟩, ?_, fun q => ?_, ?_, ?_⟩
        · rw [State.applyAccess_word hk]
          exact State.onThread_others { s with mem := w.stored s next } id _ (w.answered_id s st next)
        · rw [State.applyAccess_word hk]
          exact State.onThread_saved { s with mem := w.stored s next } id _ (w.answered_id s st next)
        · rw [applyAccess_mem]
          rw [Waiter.stored, show w.thread = s.cur.id from rfl, State.writerOf_cur s ha]
          rfl
        · show (s.applyAccess w st next).cur.readS q = _
          rw [applyAccess_cur ha rfl hk, Waiter.answered_readS, show BitVec.ofNat 5 w.dest = d from BitVec.ofNat_toNat 5 d]
          rfl
        · exact applyAccess_rest ha rfl hk st next
        · show Passed _ (complete (s.transition s.pn w cl.slot st (e % 16) (e.testBit 11)))
          have hobj : (s.applyAccess w st (e % 16)).objs s.pn = o := by rw [applyAccess_rest ha rfl hk]; rfl
          rw [State.transition, hobj]
          exact passed_complete _
    refine ⟨hout _ .ldt .read _ _ StKind.noConfusion rfl fun _ => rfl, hout _ .stt .write _ _ StKind.noConfusion rfl fun _ => rfl,
      hout _ .txn .read 1 _ StKind.noConfusion rfl fun _ => rfl, fun pas hp => ⟨fun hf => ?_, fun m cl j hf => ⟨fun e ad hb => ?_, fun sb hb hr => ?_⟩⟩⟩
    · exact execStqry_outside hi hp d hf
    · exact execStqry_unread hi hp d hf hb
    · exact ⟨execStqry_poisoned hi hp d hf hb hr, execStqry_found hi hp d hf hb hr⟩
  · intro s pn cls obj sb slot n o au st on run
    refine ⟨fun h => State.handOff_empty h, fun w r h => ?_⟩
    intro e legal act next may stst places done traps gate parks
    have hmay : dataOk w.kind (e / 2 ^ 7 % 4) = true ↔ may := dataOk_iff w.kind e
    refine ⟨fun ⟨hst, hl, ha⟩ => State.handOff_park h (Automaton.attempt_park hst _ hl ha), fun hnp =>
      ⟨s.unpark pn w, rfl, fun q => State.objs_setObjs .., fun hst => ?_, fun hst hno => ?_, fun hst hl ha => ?_,
        fun hst hl hd hc => ?_, fun hst hl hd hc hk hpo => ?_, fun hst hl hd hc hpp => ?_⟩⟩
    · exact State.handOff_bad h (Automaton.attempt_bad hst _ _)
    · refine State.handOff_fault h (Automaton.attempt_fault hst _ ?_)
      rw [← hmay, Bool.not_eq_true] at hno
      exact hno
    · exact State.handOff_fail h (Automaton.attempt_fail hst _ hl ha)
    · exact State.handOff_cut h (Automaton.attempt_legal hst _ hl (hmay.2 hd)) hc
    · exact (State.handOff_reached h (Automaton.attempt_legal hst _ hl (hmay.2 hd)) hc).trans
        (if_pos (State.poisonedLdt_iff.2 ⟨hk, hpo⟩))
    · intro m v result x hsb
      have hclean : ¬ s.poisonedLdt w = true := fun h => by
        obtain ⟨hld, hpo⟩ := State.poisonedLdt_iff.1 h
        exact Bool.false_ne_true ((hpp hld).symm.trans hpo)
      have hx : (s.unpark pn w).handLegal pn w st next = x := by
        subst hsb
        rfl
      rw [← hx]
      exact (State.handOff_reached h (Automaton.attempt_legal hst _ hl (hmay.2 hd)) hc).trans (if_neg hclean)
  · intro s d a b hi pn p o done
    refine ⟨fun bs hl => ?_, fun bs hl => ?_, ?_⟩
    · intro x slot nst entry wrong bad held
      obtain ⟨body, he, hbad, hheld, hload⟩ := execStload_body hi d hl (b := b)
      refine ⟨fun hb => completes_of_body hi he (hbad hb) (wrote_complete ..),
        fun hb hh => completes_of_body hi he (hheld hb hh) (wrote_complete ..), fun hb hh => ?_, fun hb hh => ?_⟩
      · refine completes_of_body hi he (hload hb hh) ⟨_, complete_setObjs s d 0#64 pn _ s.mem rfl, fun q => ?_⟩
        rw [Table.get_set]
        by_cases hq : q = slot
        · rw [if_pos hq, if_pos hq, Table.get_set_self]
        · rw [if_neg hq, if_neg hq]
          rfl
      · refine completes_of_body hi he (hload hb hh) ?_
        obtain ⟨-, -, hobj, -⟩ := complete_setObjs s d 0#64 pn { o with
          automata := Table.set o.automata Automaton.empty slot (imageAutomaton bs nst) } s.mem rfl
        have haut : ((complete ((s.setObjs pn { o with
            automata := Table.set o.automata Automaton.empty slot (imageAutomaton bs nst) }).writeS d 0#64)).objs pn).automaton slot =
            imageAutomaton bs nst := by
          rw [show _ = _ from hobj pn, if_pos rfl]
          exact Table.get_set_self ..
        refine ⟨congrArg Automaton.nst haut, fun k hk => ?_⟩
        exact (congrArg (fun x => Table.get x.table 0#16 k) haut).trans (imageAutomaton_get bs nst hk)
    · intro f
      have hf : f = field bs := funext fun o => funext fun n => (field_eq_leNum bs o n).symm
      clear_value f
      subst hf
      intro osh cl valid ranges meets inside clash takes good
      refine ⟨fun h => execStbind_refused hi d hl fun ⟨hv, hs, hin, hc⟩ => h ⟨hv, hs, hin, hc⟩, fun n pas hg hn hlen hp => ?_⟩
      obtain ⟨hv, hs, hin, hc⟩ := hg
      obtain ⟨body, he, hbody⟩ := execStbind_body hi d hl hv ⟨hs, hin, hc⟩ hn hlen hp
      rw [State.reachable] at hbody
      refine ⟨fun hw => ?_, fun hw hcut => ?_, fun hw => ?_⟩
      · rw [if_pos (List.any_eq_true.2 hw)] at hbody
        exact waits_of_body hi he hbody
      · rw [if_neg (by simpa using hw), if_pos (List.any_eq_true.2 hcut)] at hbody
        exact waits_of_body hi he hbody
      · rw [if_neg (by simpa using fun q hq => (hw q hq).1), if_neg (by simpa using fun q hq => (hw q hq).2)] at hbody
        exact completes_of_body hi he hbody ⟨_, complete_setObjs s d _ pn _ _ rfl, fun q => Table.get_set ..⟩
    · intro n held
      obtain ⟨body, he, hnone, hheld, hun⟩ := execStunbind_body hi d b
      refine ⟨fun hn => completes_of_body hi he (hnone hn) (wrote_complete ..),
        fun hn hh => completes_of_body hi he (hheld hn hh) (wrote_complete ..), fun hn hh => ?_⟩
      refine completes_of_body hi he (hun hn hh) ⟨_, complete_setObjs s d 0#64 pn _ s.mem rfl, fun q => ?_⟩
      rw [Table.get_set]
      rfl
end

section
/-! A LINK_ERROR where two threads on cores have one id (R260, R467). -/
namespace Sys2Proof.Machine

/-! The statement speaks of every state, also of those in which the id of the thread whose access fails is another thread's as
well. execLinkError takes that thread by its access, and State.cancelWaits ends the waits of the first thread with its id: the
slot that leaves its core's order of waiters is then another core's. -/

/-- What the failure of an access to a peer under tag 7 takes back. -/
def twinUndo : Undo where
  tag := 7
  pc := 0
  s := []
  conf := Thread.reset.conf
  dims := Thread.reset.dims
  loops := Thread.reset.loops
  vfirst := 0
  chk := false
  instret := 0
  last := none
  pops := []
  late := 0

/-- A thread on core 1 with a load from a peer under tag 7 that waits. -/
def twinThread : Thread :=
  { Thread.reset with
    place := { Thread.reset.place with core := 1 }
    viq := [.scalar ⟨0, 0, 0, 0, some twinUndo⟩ [] (.load 0 8 false)] }

/-- The thread of core 1, and a thread of the same id on core 0, whose slot 0 stands in the core's order of waiters. -/
def twinState : State :=
  { State.reset with active := true, others := [twinThread], cores := [(0, { Core.reset with waiters := [0] })] }

theorem twinState_awaits : twinState.onChip.find? (fun t => decide (t.prog.wait = .retry (.peer 7))) = none := by decide

theorem twinState_owner :
    twinState.onChip.find? (fun t => t.viq.any (fun e => e.undo.any (fun u => u.tag == 7))) = some twinThread := rfl

theorem twinState_waiters : (twinState.core 0).waiters = [0] := by decide

/-- The state that the LINK_ERROR leaves. -/
theorem exec_linkError_twinState :
    exec (.linkError 7) twinState = .next (((twinState.cancelWaits twinThread.id).onThread twinThread.id
      (fun t => t.takeBack 0 twinUndo)).linkLost twinThread.id 7) := by
  have h1 : twinState.awaits 7 = none := twinState_awaits
  have h2 : twinState.awaitsEntry 7 = some (twinThread, 0, twinUndo) := rfl
  dsimp only [exec]
  unfold execLinkError
  rw [h1, h2]

/-- The waiter of core 0, where the failed access is not, has gone. -/
theorem twinState_waiters_gone :
    (((twinState.cancelWaits twinThread.id).core 0).waiters) = [] := by decide

/-- Refutes O53: a LINK_ERROR of a thread on core 1 changes core 0, where the first thread of its id is. -/
theorem not_outsideEvents : ¬ Obligations.OutsideEvents := by
  unfold Obligations.OutsideEvents
  intro h
  obtain ⟨-, -, -, -, -, -, -, -, -, hlink, -⟩ := h.1 twinState ⟨0, 0, 0, 0, 0, .read 0⟩ 7 0 0 0 0 0 0 0
  obtain ⟨x, -, u, hu, -, -, -, -, hcore, -⟩ := hlink.2 twinThread twinState_awaits twinState_owner
  have hstep : exec (.linkError 7) twinState = .next u := hu
  rw [exec_linkError_twinState] at hstep
  have hsame : u.core 0 = twinState.core 0 := hcore 0 (by decide)
  have hgone : (u.core 0).waiters = [] := by
    injection hstep with hstep
    rw [← hstep]
    exact twinState_waiters_gone
  rw [hsame, twinState_waiters] at hgone
  cases hgone

end Sys2Proof.Machine
end

section
/-! The configuration requests: what refuses one, and what one that is carried out does (R502, R503). -/
namespace Sys2Proof.Machine

/-! ## The end of a request (R502) -/

/-- The state with a request's REASON and result, its end still to be signalled. -/
def State.concluded (s : State) (r : Nat) (res : Word) : State :=
  { s with
    hub := { s.hub with pf := { s.hub.pf with reason := r, reqRes := res } }
    inputs := s.inputs ++ [Instr.requestComplete] }

/-- The state after one check of the hardware. -/
def State.checked (s : State) : State := { s with flaws := s.flaws.tail }

/-- Does the hardware fail at the next check? -/
def State.flawed (s : State) : Prop := s.flaws.headD false = true

theorem State.conclude_zero (s : State) (r : Nat) : s.conclude r 0#64 = s.concluded r 0#64 := by
  rw [State.conclude, ite_self]; rfl

theorem State.conclude_done (s : State) (res : Word) : s.conclude 0 res = s.concluded 0 res := rfl

theorem State.carryOut_flawed {s : State} (h : s.flawed) (f : State → State) : s.carryOut f = s.checked.concluded 7 0#64 := by
  unfold State.carryOut State.flaw
  rw [show s.flaws.headD false = true from h]
  exact State.conclude_zero ..

theorem State.carryOut_sound {s : State} (h : ¬ s.flawed) (f : State → State) : s.carryOut f = f s.checked := by
  unfold State.carryOut State.flaw
  rw [show s.flaws.headD false = false from Bool.eq_false_of_not_eq_true h]
  rfl

/-- A failure of step n of bring-up, noted in the log or on the port (R515). -/
def State.stepFailed (s : State) (n : Nat) : State :=
  if s.hub.pf.logCap = 0#32 then { s.checked with outbox := s.outbox ++ [.bringUpFailed n] }
  else s.checked.logPf 0#64 0xFFFF 0x2000 s.checked.synd 6 0

theorem State.carryOutStep_flawed {s : State} (h : s.flawed) (n : Nat) (f : State → State) :
    s.carryOutStep n f = (s.stepFailed n).concluded 7 0#64 := by
  unfold State.carryOutStep State.flaw
  rw [show s.flaws.headD false = true from h]
  dsimp only
  rw [State.conclude_zero]
  rfl

theorem State.carryOutStep_sound {s : State} (h : ¬ s.flawed) (n : Nat) (f : State → State) : s.carryOutStep n f = f s.checked := by
  unfold State.carryOutStep State.flaw
  rw [show s.flaws.headD false = false from Bool.eq_false_of_not_eq_true h]
  rfl

/-- A request ends with a REASON and no effect. -/
def Refuses (i : Instr) (s : State) (r : Nat) : Prop := Completes i s (fun u => u = s.concluded r 0#64)

/-- A request is carried out, as q says, unless the hardware fails. -/
def Carries (i : Instr) (s : State) (q : State → Prop) : Prop :=
  (s.flawed → Completes i s (fun u => u = s.checked.concluded 7 0#64)) ∧ (¬ s.flawed → Completes i s q)

/-- A request that is carried out does x. -/
def Does (i : Instr) (s x : State) : Prop := Carries i s (fun u => u = x.concluded 0 0#64)

theorem completes_of_idle {i : Instr} {s : State} {f : State → State} (he : exec i s = whenBusy s f)
    (hb : s.hub.pf.reqState ≠ .busy) : Completes i s (fun u => u = s) :=
  ⟨_, he, by rw [if_neg hb]⟩

section
variable {i : Instr} {s : State} {f : State → State} (he : exec i s = whenBusy s f) (hb : s.hub.pf.reqState = .busy)
include he hb

theorem completes_of_busy {P : State → Prop} (hP : P (f s)) : Completes i s P := ⟨_, he, by rw [if_pos hb]; exact hP⟩

theorem refuses_of_busy {r : Nat} (hf : f s = s.conclude r 0#64) : Refuses i s r :=
  completes_of_busy he hb (hf.trans (s.conclude_zero r))

theorem carries_of_busy {g : State → State} (hf : f s = s.carryOut g) {q : State → Prop} (hq : q (g s.checked)) : Carries i s q :=
  ⟨fun h => completes_of_busy he hb (hf.trans (State.carryOut_flawed h g)),
    fun h => completes_of_busy he hb (by rw [hf, State.carryOut_sound h]; exact hq)⟩

theorem does_of_busy {g : State → State} (hf : f s = s.carryOut g) {x : State} (hx : g s.checked = x.conclude 0 0#64) : Does i s x :=
  carries_of_busy he hb hf (hx.trans (State.conclude_zero ..))

end

/-! ## ADDMEM (R24, R495, R503) -/

/-- May memory at base, of n bytes, be named by ADDMEM? -/
def memForm (base n : Nat) : Prop := base % 2 ^ 28 = 0 ∧ n % 2 ^ 28 = 0 ∧ n ≠ 0 ∧ base + n ≤ 2 ^ 50

/-- Does memory at base, of n bytes, meet what is granted or retired? -/
def State.rangeTaken (s : State) (base n : Nat) : Prop :=
  (∃ x ∈ s.parts, ∃ r ∈ x.2.ranges, rangesMeet r (base, n) = true) ∨
    ∃ r ∈ s.hub.retiredSb, rangesMeet (r, 2 ^ 21) (base, n) = true

/-- The sub-blocks of a tier that a sheet may grant. -/
def State.roomOf (s : State) (t : Fin 2) (sheet : Nat) : Nat :=
  512 * (if t = 0 then 72 - 6 * s.hub.retiredCh.countP (fun c => c.1 == sheet && c.2.1 == t.val)
    else 384 - 96 * s.hub.retiredCh.countP (fun c => c.1 == sheet && c.2.1 == t.val))

theorem Hub.tierRoom_eq (s : State) (t : Fin 2) (sheet : Nat) : s.hub.tierRoom t sheet = s.roomOf t sheet := by
  unfold Hub.tierRoom State.roomOf
  dsimp only
  split <;> rfl

/-- Is there memory at each granule, and room for it on each sheet? -/
def State.hasRoom (s : State) (base n : Nat) : Prop :=
  (∀ g ∈ granulesOf base n, Config.tierAt g ≠ none) ∧
    ∀ (t : Fin 2) (k : Fin 4), tierCount t k.val ((base, n) :: s.parts.flatMap (fun e => e.2.ranges)) ≤ s.roomOf t k.val

theorem State.grantable_iff (s : State) (base n : Nat) : s.grantable base n = true ↔ s.hasRoom base n := by
  unfold State.grantable State.hasRoom
  simp only [Bool.and_eq_true, List.all_eq_true, decide_eq_true_eq, List.mem_range, Hub.tierRoom_eq, Option.isSome_iff_ne_none]
  refine and_congr_right fun _ => ⟨fun h t k => h t (by fin_cases t <;> simp) k.val k.isLt, fun h t _ k hk => h t ⟨k, hk⟩⟩

theorem addmem_body (s : State) (m : Master) :
    let pn := (s.arg 0).toNat
    let base := (s.arg 1).toNat
    let n := (s.arg 2).toNat
    ∃ f, exec (.addmem m) s = whenBusy s f ∧
      (32 ≤ pn ∨ ¬ memForm base n → f s = s.conclude 2 0#64) ∧
      (pn < 32 → memForm base n → (s.part pn).state = .absent → f s = s.conclude 4 0#64) ∧
      (pn < 32 → memForm base n → (s.part pn).state ≠ .absent →
        (s.rangeTaken base n ∨ ¬ s.hasRoom base n → f s = s.conclude 5 0#64) ∧
        (¬ s.rangeTaken base n → s.hasRoom base n → f s = s.carryOut (fun u =>
          (u.setPart pn { s.part pn with ranges := (s.part pn).ranges ++ [(base, n)] }).conclude 0 0#64))) := by
  intro pn base n
  have hform : (32 ≤ pn ∨ base % 2 ^ 28 ≠ 0 ∨ n % 2 ^ 28 ≠ 0 ∨ n = 0 ∨ 2 ^ 50 < base + n) ↔ 32 ≤ pn ∨ ¬ memForm base n := by
    unfold memForm
    omega
  have hbad : (s.parts.any (fun e => e.2.ranges.any (fun r => rangesMeet r (base, n))) ||
      s.hub.retiredSb.any (fun a => rangesMeet (a, 2 ^ 21) (base, n)) || !s.grantable base n) = true ↔
      s.rangeTaken base n ∨ ¬ s.hasRoom base n := by
    rw [← s.grantable_iff]
    simp only [State.rangeTaken, Bool.or_eq_true, List.any_eq_true, Bool.not_eq_true', Bool.not_eq_true]
  refine ⟨_, by dsimp only [exec]; unfold execAddmem; exact rfl, ?_⟩
  have hok : pn < 32 → memForm base n → ¬ _ := fun hp hf => mt hform.1 (not_or.2 ⟨Nat.not_le.2 hp, not_not.2 hf⟩)
  exact ⟨fun h => if_pos (hform.2 h), fun hp hf ha => (if_neg (hok hp hf)).trans (if_pos ha), fun hp hf ha =>
    ⟨fun h => (if_neg (hok hp hf)).trans ((if_neg ha).trans (if_pos (hbad.2 h))),
      fun ht hr => (if_neg (hok hp hf)).trans ((if_neg ha).trans (if_neg (mt hbad.1 (not_or.2 ⟨ht, not_not.2 hr⟩))))⟩⟩

/-! ## EXPORT (R503) -/

/-- May an aperture be the n bytes at base, with FLAGS fl? -/
def apertureForm (base n fl : Nat) : Prop := base % 2 ^ 28 = 0 ∧ n % 2 ^ 28 = 0 ∧ n ≤ 2 ^ 36 ∧ fl < 4

theorem Part.covers_iff (p : Part) (base n : Nat) :
    p.covers base n = true ↔ ∀ g ∈ granulesOf base n, ∃ r ∈ p.ranges, r.1 ≤ g * 2 ^ 28 ∧ g * 2 ^ 28 < r.1 + r.2 := by
  simp only [Part.covers, List.all_eq_true, List.any_eq_true, Bool.and_eq_true, decide_eq_true_eq]

theorem State.requestsTo_iff (s : State) (num : Nat) :
    s.requestsTo num = true ↔ ∃ q, .peerRequest q ∈ s.inputs ∧ q.aperture = num := by
  rw [State.requestsTo, List.any_eq_true]
  constructor
  · rintro ⟨i, hi, h⟩
    split at h
    · next q => exact ⟨q, hi, by simpa using h⟩
    · cases h
  · rintro ⟨q, hq, rfl⟩
    exact ⟨_, hq, by simp⟩

theorem exportAperture_body (s : State) (m : Master) :
    let pn := (s.arg 0).toNat
    let num := (s.arg 1).toNat
    let base := (s.arg 2).toNat
    let n := (s.arg 3).toNat
    let fl := (s.arg 4).toNat
    let p := s.part pn
    let there := s.hub.apertures.find? (fun a => a.num == num)
    ∃ f, exec (.exportAperture m) s = whenBusy s f ∧
      (32 ≤ pn ∨ 16 ≤ num → f s = s.conclude 2 0#64) ∧
      (pn < 32 → num < 16 → p.state = .absent → f s = s.conclude 4 0#64) ∧
      (pn < 32 → num < 16 → p.state ≠ .absent →
        (n ≠ 0 → ¬ apertureForm base n fl → f s = s.conclude 2 0#64) ∧
        (n ≠ 0 → apertureForm base n fl → ¬ p.covers base n = true → f s = s.conclude 5 0#64) ∧
        (n ≠ 0 → apertureForm base n fl → p.covers base n = true → there ≠ none → f s = s.conclude 3 0#64) ∧
        (n ≠ 0 → apertureForm base n fl → p.covers base n = true → there = none → f s = s.carryOut (fun u =>
          (u.onHub (fun h => { h with apertures := h.apertures ++ [⟨num, pn, base, n, bitAt fl 0, bitAt fl 1, []⟩] })).conclude 0 0#64)) ∧
        (n = 0 → (∀ x, there = some x → x.part ≠ pn) → f s = s.conclude 2 0#64) ∧
        (∀ x, n = 0 → there = some x → x.part = pn →
          (s.requestsTo num = true → f s = s.push (.exportAperture m)) ∧
          (¬ s.requestsTo num = true → f s = s.carryOut (fun u =>
            (u.onHub (fun h => { h with apertures := h.apertures.filter (fun a => a.num != num) })).conclude 0 0#64)))) := by
  intro pn num base n fl p there
  have hform : (base % 2 ^ 28 ≠ 0 ∨ n % 2 ^ 28 ≠ 0 ∨ 2 ^ 36 < n ∨ 4 ≤ fl) ↔ ¬ apertureForm base n fl := by
    unfold apertureForm
    omega
  refine ⟨_, by dsimp only [exec]; unfold execExportAperture; exact rfl, ?_⟩
  have hok : pn < 32 → num < 16 → ¬ (32 ≤ pn ∨ 16 ≤ num) := by omega
  refine ⟨fun h => if_pos h, fun hp hn ha => (if_neg (hok hp hn)).trans (if_pos ha), fun hp hn ha => ?_⟩
  have hgo : ∀ {x y z : State}, (if 32 ≤ pn ∨ 16 ≤ num then x else if p.state = .absent then y else z) = z :=
    (if_neg (hok hp hn)).trans (if_neg ha)
  refine ⟨fun hz hf => ?_, fun hz hf hc => ?_, fun hz hf hc ht => ?_, fun hz hf hc ht => ?_, fun hz ht => ?_, fun x hz ht hx => ?_⟩
  · exact hgo.trans ((if_neg hz).trans (if_pos (hform.2 hf)))
  · exact hgo.trans ((if_neg hz).trans ((if_neg (mt hform.1 (not_not.2 hf))).trans (if_pos (by simpa using hc))))
  · exact hgo.trans ((if_neg hz).trans ((if_neg (mt hform.1 (not_not.2 hf))).trans
      ((if_neg (by simpa using hc)).trans (if_pos (Option.isSome_iff_ne_none.2 ht)))))
  · exact hgo.trans ((if_neg hz).trans ((if_neg (mt hform.1 (not_not.2 hf))).trans
      ((if_neg (by simpa using hc)).trans (if_neg (mt Option.isSome_iff_ne_none.1 (not_not.2 ht))))))
  · refine hgo.trans ((if_pos hz).trans ?_)
    cases h : s.hub.apertures.find? (fun a => a.num == (s.arg 1).toNat) with
    | none => rfl
    | some a => exact if_pos (ht a h)
  · refine ⟨fun hr => hgo.trans ((if_pos hz).trans ?_), fun hr => hgo.trans ((if_pos hz).trans ?_)⟩
    · rw [show s.hub.apertures.find? (fun a => a.num == (s.arg 1).toNat) = some x from ht]
      exact (if_neg (not_not.2 hx)).trans (if_pos hr)
    · rw [show s.hub.apertures.find? (fun a => a.num == (s.arg 1).toNat) = some x from ht]
      exact (if_neg (not_not.2 hx)).trans (if_neg hr)

/-! ## PEERMAP and PEERUNMAP (R503) -/

theorem peermap_body (s : State) (m : Master) :
    let pn := (s.arg 0).toNat
    let e := ((s.arg 1).toNat, (s.arg 2).toNat)
    let p := s.part pn
    ∃ f, exec (.peermap m) s = whenBusy s f ∧
      (32 ≤ pn ∨ 1024 ≤ e.1 ∨ 16 ≤ e.2 → f s = s.conclude 2 0#64) ∧
      (¬ (32 ≤ pn ∨ 1024 ≤ e.1 ∨ 16 ≤ e.2) → p.state = .absent → f s = s.conclude 4 0#64) ∧
      (¬ (32 ≤ pn ∨ 1024 ≤ e.1 ∨ 16 ≤ e.2) → p.state ≠ .absent →
        (e ∈ p.peers → f s = s.conclude 3 0#64) ∧
        (e ∉ p.peers → f s = s.carryOut (fun u => (u.setPart pn { p with peers := p.peers ++ [e] }).conclude 0 0#64))) := by
  intro pn e p
  refine ⟨_, by dsimp only [exec]; unfold execPeermap; exact rfl, ?_⟩
  exact ⟨fun h => if_pos h, fun h ha => (if_neg h).trans (if_pos ha), fun h ha =>
    ⟨fun hm => (if_neg h).trans ((if_neg ha).trans (if_pos (List.contains_iff_mem.2 hm))),
      fun hm => (if_neg h).trans ((if_neg ha).trans (if_neg (mt List.contains_iff_mem.1 hm)))⟩⟩

theorem peerunmap_body (s : State) (m : Master) :
    let pn := (s.arg 0).toNat
    let e := ((s.arg 1).toNat, (s.arg 2).toNat)
    let p := s.part pn
    ∃ f, exec (.peerunmap m) s = whenBusy s f ∧
      (32 ≤ pn ∨ 1024 ≤ e.1 ∨ 16 ≤ e.2 → f s = s.conclude 2 0#64) ∧
      (¬ (32 ≤ pn ∨ 1024 ≤ e.1 ∨ 16 ≤ e.2) → p.state = .absent → f s = s.conclude 4 0#64) ∧
      (¬ (32 ≤ pn ∨ 1024 ≤ e.1 ∨ 16 ≤ e.2) → p.state ≠ .absent →
        (e ∉ p.peers → f s = s.conclude 2 0#64) ∧
        (e ∈ p.peers → s.peerBusy pn e = true → f s = s.push (.peerunmap m)) ∧
        (e ∈ p.peers → ¬ s.peerBusy pn e = true → f s = s.carryOut (fun u =>
          (u.setPart pn { p with peers := p.peers.filter (fun x => x != e) }).conclude 0 0#64))) := by
  intro pn e p
  refine ⟨_, by dsimp only [exec]; unfold execPeerunmap; exact rfl, ?_⟩
  have hin : e ∈ p.peers → ¬ (!p.peers.contains e) = true := fun hm => by simpa using hm
  exact ⟨fun h => if_pos h, fun h ha => (if_neg h).trans (if_pos ha), fun h ha =>
    ⟨fun hm => (if_neg h).trans ((if_neg ha).trans (if_pos (by simpa using hm))),
      fun hm hb => (if_neg h).trans ((if_neg ha).trans ((if_neg (hin hm)).trans (if_pos hb))),
      fun hm hb => (if_neg h).trans ((if_neg ha).trans ((if_neg (hin hm)).trans (if_neg hb)))⟩⟩

/-- Does the aperture e of a peer hold the byte? -/
def peerHolds (e : Nat × Nat) (x : Nat) : Prop :=
  2 ^ 51 + 2 ^ 40 * e.1 + 2 ^ 36 * e.2 ≤ x ∧ x < 2 ^ 51 + 2 ^ 40 * e.1 + 2 ^ 36 * (e.2 + 1)

theorem peerHolds_range (e r : Nat × Nat) :
    (decide (0 < r.2) = true ∧ rangesMeet r (2 ^ 51 + 2 ^ 40 * e.1 + 2 ^ 36 * e.2, 2 ^ 36) = true) ↔ ∃ j < r.2, peerHolds e (r.1 + j) := by
  simp only [decide_eq_true_eq, rangesMeet_iff, peerHolds]
  constructor
  · rintro ⟨h0, h1, h2⟩
    exact ⟨2 ^ 51 + 2 ^ 40 * e.1 + 2 ^ 36 * e.2 - r.1, by omega, by omega, by omega⟩
  · rintro ⟨j, hj, h1, h2⟩
    omega

/-- Does an access of a partition to a peer's aperture still run (R503)? -/
theorem State.peerBusy_iff (s : State) (pn : Nat) (e : Nat × Nat) :
    s.peerBusy pn e = true ↔
      (∃ c ∈ s.cmds, c.thread.part = pn ∧ ∃ r ∈ c.body.dests ++ c.body.sources, ∃ j < r.2, peerHolds e (r.1 + j)) ∨
      (∃ t ∈ s.started, t.id.part = pn ∧ ((∃ k, t.prog.wait = .retry (.peer k)) ∨ ∃ v ∈ t.viq, ∃ x ∈ v.bytes.2, peerHolds e x)) ∨
      ∃ x ∈ (s.objs pn).waiters ++ (s.objs pn).resend, peerHolds e x.sb ∨ peerHolds e x.pa := by
  have hbyte : ∀ x, (decide (0 < 1) = true ∧ rangesMeet (x, 1) (2 ^ 51 + 2 ^ 40 * e.1 + 2 ^ 36 * e.2, 2 ^ 36) = true) ↔ peerHolds e x := by
    intro x
    refine (peerHolds_range e (x, 1)).trans ?_
    exact ⟨fun ⟨j, hj, h⟩ => by rwa [Nat.lt_one_iff.1 hj] at h, fun h => ⟨0, Nat.one_pos, h⟩⟩
  have hwait : ∀ w : Wait, (match w with | .retry (.peer _) => true | _ => false) = true ↔ ∃ k, w = .retry (.peer k) := by
    intro w
    constructor
    · intro h
      split at h
      · exact ⟨_, rfl⟩
      · cases h
    · rintro ⟨k, rfl⟩
      rfl
  unfold State.peerBusy
  simp only [Bool.or_eq_true, Bool.and_eq_true, List.any_eq_true, beq_iff_eq, peerHolds_range, hbyte, or_assoc]
  refine or_congr Iff.rfl (or_congr (exists_congr fun t => and_congr_right fun _ => and_congr_right fun _ => or_congr (hwait _) Iff.rfl)
    Iff.rfl)

end Sys2Proof.Machine
end

section
/-! Quads that come to a partition and those that leave it (R224, R396, R439, R513). -/
namespace Sys2Proof.Machine

/-! ## Entries of a table changed one after the other -/

theorem Table.get_foldl_modify {β : Type} [DecidableEq β] (f : β → β) (hf : ∀ x, f (f x) = f x) (z : β) (k : Nat) (l : List Nat)
    (t : Table β) :
    Table.get (l.foldl (fun t j => Table.set t z j (f (Table.get t z j))) t) z k =
      if k ∈ l then f (Table.get t z k) else Table.get t z k := by
  induction l generalizing t with
  | nil => rfl
  | cons j l ih =>
    rw [List.foldl_cons, ih, Table.get_set]
    by_cases hj : k = j
    · subst hj
      rw [if_pos rfl, hf, ite_self, if_pos List.mem_cons_self]
    · rw [if_neg hj]
      by_cases hl : k ∈ l
      · rw [if_pos hl, if_pos (List.mem_cons_of_mem j hl)]
      · rw [if_neg hl, if_neg (by simp [hj, hl])]

/-- Cores changed one after the other. -/
theorem State.foldl_setCore (f : Core → Core) (l : List Nat) (s : State) :
    l.foldl (fun s c => s.setCore c (f (s.core c))) s = { s with
      cores := l.foldl (fun t c => Table.set t Core.reset c (f (Table.get t Core.reset c))) s.cores } := by
  induction l generalizing s with
  | nil => rfl
  | cons c l ih => rw [List.foldl_cons, ih]; rfl

theorem State.foldl_setCore_core {f : Core → Core} (hf : ∀ x, f (f x) = f x) (l : List Nat) (s : State) (c : Nat) :
    (l.foldl (fun s c => s.setCore c (f (s.core c))) s).core c = if c ∈ l then f (s.core c) else s.core c := by
  rw [State.foldl_setCore]
  exact Table.get_foldl_modify f hf _ c l s.cores

/-- Quads changed one after the other. -/
theorem State.foldl_setQuad (f : Quad → Quad) (l : List Nat) (s : State) :
    l.foldl (fun s q => s.setQuad q (f (s.quad q))) s = { s with
      quads := l.foldl (fun t q => Table.set t Quad.reset q (f (Table.get t Quad.reset q))) s.quads } := by
  induction l generalizing s with
  | nil => rfl
  | cons q l ih => rw [List.foldl_cons, ih]; rfl

theorem State.foldl_setQuad_quad {f : Quad → Quad} (hf : ∀ x, f (f x) = f x) (l : List Nat) (s : State) (q : Nat) :
    (l.foldl (fun s q => s.setQuad q (f (s.quad q))) s).quad q = if q ∈ l then f (s.quad q) else s.quad q := by
  rw [State.foldl_setQuad]
  exact Table.get_foldl_modify f hf _ q l s.quads

/-! ## A quad comes to a partition (R224, R396) -/

/-- A core cleared: its CEIL stays. -/
def Core.cleared (c : Core) : Core := { Core.reset with ceil := c.ceil }

/-- A quad cleared and given to partition k. -/
def Quad.takenBy (k : Nat) (q : Quad) : Quad := { q with owner := some k, fenced := false, acc := [], slots := [] }

theorem mem_quadCores (q c : Nat) : c ∈ rangeFrom (4 * q) 4 ↔ c / 4 = q := by
  simp only [rangeFrom, List.mem_map, List.mem_range]
  constructor
  · rintro ⟨i, hi, rfl⟩
    omega
  · rintro rfl
    exact ⟨c % 4, by omega, by omega⟩

theorem State.takeIn_eq (s : State) (k q : Nat) :
    s.takeIn k q = State.setQuad ((rangeFrom (4 * q) 4).foldl (fun s c => s.setCore c (s.core c).cleared) s) q
      ((s.quad q).takenBy k) := by
  unfold State.takeIn
  rw [show (fun (s : State) (c : Nat) => s.setCore c { Core.reset with ceil := (s.core c).ceil }) =
    fun s c => s.setCore c (s.core c).cleared from rfl, State.foldl_setCore]
  rfl

theorem State.takeIn_core (s : State) (k q c : Nat) : (s.takeIn k q).core c = if c / 4 = q then (s.core c).cleared else s.core c := by
  rw [State.takeIn_eq]
  show State.core ((rangeFrom (4 * q) 4).foldl (fun s c => s.setCore c (s.core c).cleared) s) c = _
  rw [State.foldl_setCore_core (f := Core.cleared) (fun _ => rfl)]
  simp only [mem_quadCores]

theorem State.takeIn_quad (s : State) (k q j : Nat) :
    (s.takeIn k q).quad j = if j = q then (s.quad q).takenBy k else s.quad j := by
  rw [State.takeIn_eq, State.foldl_setCore Core.cleared]
  exact State.quad_setQuad ..

theorem State.takeIn_rest (s : State) (k q : Nat) :
    s.takeIn k q = { s with cores := (s.takeIn k q).cores, quads := (s.takeIn k q).quads } := by
  rw [State.takeIn_eq, State.foldl_setCore Core.cleared]
  rfl

/-- Quads that come to a partition. -/
def State.takeAll (s : State) (k : Nat) (qs : List Nat) : State := qs.foldl (fun s q => s.takeIn k q) s

theorem State.takeAll_nil (s : State) (k : Nat) : s.takeAll k [] = s := by
  unfold State.takeAll
  rw [List.foldl_nil]

theorem State.takeAll_cons (s : State) (k q : Nat) (qs : List Nat) : s.takeAll k (q :: qs) = (s.takeIn k q).takeAll k qs := by
  unfold State.takeAll
  rw [List.foldl_cons]

theorem State.takeAll_spec (k : Nat) (qs : List Nat) : ∀ s : State,
    (∀ c, (s.takeAll k qs).core c = if c / 4 ∈ qs then (s.core c).cleared else s.core c) ∧
    (∀ q, (s.takeAll k qs).quad q = if q ∈ qs then (s.quad q).takenBy k else s.quad q) ∧
    s.takeAll k qs = { s with cores := (s.takeAll k qs).cores, quads := (s.takeAll k qs).quads } := by
  induction qs with
  | nil =>
    intro s
    rw [State.takeAll_nil]
    exact ⟨fun c => by simp, fun q => by simp, rfl⟩
  | cons q qs ih =>
    intro s
    obtain ⟨hc, hq, hr⟩ := ih (s.takeIn k q)
    rw [State.takeAll_cons]
    refine ⟨fun c => ?_, fun j => ?_, ?_⟩
    · rw [hc, State.takeIn_core]
      by_cases h : c / 4 = q
      · rw [if_pos h, if_pos (show c / 4 ∈ q :: qs by simp [h])]
        split <;> rfl
      · rw [if_neg h]
        simp [h]
    · rw [hq, State.takeIn_quad]
      by_cases h : j = q
      · subst h
        rw [if_pos rfl, if_pos List.mem_cons_self]
        split <;> rfl
      · rw [if_neg h]
        simp [h]
    · rw [hr, State.takeIn_rest]

theorem State.takeAll_core (s : State) (k : Nat) (qs : List Nat) (c : Nat) :
    (s.takeAll k qs).core c = if c / 4 ∈ qs then (s.core c).cleared else s.core c := (State.takeAll_spec k qs s).1 c

theorem State.takeAll_quad (s : State) (k : Nat) (qs : List Nat) (q : Nat) :
    (s.takeAll k qs).quad q = if q ∈ qs then (s.quad q).takenBy k else s.quad q := (State.takeAll_spec k qs s).2.1 q

theorem State.takeAll_rest (s : State) (k : Nat) (qs : List Nat) :
    s.takeAll k qs = { s with cores := (s.takeAll k qs).cores, quads := (s.takeAll k qs).quads } := (State.takeAll_spec k qs s).2.2

/-! ## What a change of one table leaves of the others -/

theorem State.setPart_core (s : State) (k c : Nat) (p : Part) : (s.setPart k p).core c = s.core c := rfl
theorem State.setPart_quad (s : State) (k q : Nat) (p : Part) : (s.setPart k p).quad q = s.quad q := rfl
theorem State.setQuad_core (s : State) (k c : Nat) (q : Quad) : (s.setQuad k q).core c = s.core c := rfl
theorem State.setQuad_part (s : State) (k j : Nat) (q : Quad) : (s.setQuad k q).part j = s.part j := rfl
theorem State.part_congr {s : State} {c : Table Core} {q : Table Quad} (j : Nat) :
    State.part { s with cores := c, quads := q } j = s.part j := rfl

theorem State.takeIn_part (s : State) (k q j : Nat) : (s.takeIn k q).part j = s.part j := by
  rw [State.takeIn_rest, State.part_congr]

theorem State.takeAll_part (s : State) (k : Nat) (qs : List Nat) (j : Nat) : (s.takeAll k qs).part j = s.part j := by
  rw [State.takeAll_rest, State.part_congr]

end Sys2Proof.Machine
end

section
/-! Service, power, links and images (R503, R512 to R515). -/
namespace Sys2Proof.Machine

/-! ## READMIT (R513) -/

/-- A quad that is cleared, its owner as it was. -/
def Quad.back (q : Quad) : Quad := { q with fenced := false, acc := [], slots := [] }

/-- The state after a fenced quad has come back to the partition that it left, if any. -/
def State.readmitted (s : State) (q : Nat) : State :=
  match (s.quad q).owner with
  | some pn =>
    (s.takeIn pn q).setPart pn { (s.takeIn pn q).part pn with quads := ((s.takeIn pn q).part pn).quads ||| (1#64 <<< q) }
  | none => (s.takeIn 0 q).setQuad q { (s.takeIn 0 q).quad q with owner := none }

section
variable (s : State) (q : Nat)

theorem State.readmitted_some {pn : Nat} (h : (s.quad q).owner = some pn) :
    s.readmitted q = (s.takeIn pn q).setPart pn
      { (s.takeIn pn q).part pn with quads := ((s.takeIn pn q).part pn).quads ||| (1#64 <<< q) } := by
  rw [State.readmitted, h]

theorem State.readmitted_none (h : (s.quad q).owner = none) :
    s.readmitted q = (s.takeIn 0 q).setQuad q { (s.takeIn 0 q).quad q with owner := none } := by
  rw [State.readmitted, h]

theorem Quad.takenBy_owner {r : Quad} {k : Nat} (h : r.owner = some k) : r.takenBy k = r.back := by
  rw [Quad.takenBy, ← h]; rfl

theorem State.readmitted_quad (k : Nat) : (s.readmitted q).quad k = if k = q then (s.quad q).back else s.quad k := by
  cases ho : (s.quad q).owner with
  | some pn =>
    rw [s.readmitted_some q ho, State.setPart_quad, State.takeIn_quad, Quad.takenBy_owner ho]
  | none =>
    rw [s.readmitted_none q ho, State.quad_setQuad, State.takeIn_quad, State.takeIn_quad, if_pos rfl]
    by_cases hk : k = q
    · rw [if_pos hk, if_pos hk, Quad.back, Quad.takenBy, ho]
    · rw [if_neg hk, if_neg hk, if_neg hk]

theorem State.readmitted_core (c : Nat) : (s.readmitted q).core c = if c / 4 = q then (s.core c).cleared else s.core c := by
  cases ho : (s.quad q).owner with
  | some pn => rw [s.readmitted_some q ho, State.setPart_core, State.takeIn_core]
  | none => rw [s.readmitted_none q ho, State.setQuad_core, State.takeIn_core]

theorem State.readmitted_part (k : Nat) :
    (s.readmitted q).part k =
      if (s.quad q).owner = some k then { s.part k with quads := (s.part k).quads ||| (1#64 <<< q) } else s.part k := by
  cases ho : (s.quad q).owner with
  | some pn =>
    rw [s.readmitted_some q ho, State.part_setPart, State.takeIn_part, State.takeIn_part]
    by_cases hk : k = pn
    · rw [if_pos hk, if_pos (by rw [hk]), hk]
    · rw [if_neg hk, if_neg fun h => hk (Option.some.inj h).symm]
  | none => rw [s.readmitted_none q ho, State.setQuad_part, State.takeIn_part, if_neg (by simp)]

theorem State.readmitted_rest :
    s.readmitted q = { s with
      quads := (s.readmitted q).quads, cores := (s.readmitted q).cores, parts := (s.readmitted q).parts } := by
  cases ho : (s.quad q).owner with
  | some pn =>
    rw [s.readmitted_some q ho, State.takeIn_rest]
    rfl
  | none =>
    rw [s.readmitted_none q ho, State.takeIn_rest]
    rfl

end

theorem readmit_body (s : State) (m : Master) :
    ∃ f, exec (.readmit m) s = whenBusy s f ∧
      (64 ≤ (s.arg 0).toNat ∨ (s.quad (s.arg 0).toNat).fenced = false → f s = s.conclude 2 0#64) ∧
      ((s.arg 0).toNat < 64 → (s.quad (s.arg 0).toNat).fenced = true →
        f s = s.carryOut (fun u => (u.readmitted (s.arg 0).toNat).conclude 0 0#64)) := by
  refine ⟨_, by dsimp only [exec]; unfold execReadmit; exact rfl, ?_⟩
  refine ⟨fun h => if_pos (by simpa using h), fun hq hf => ?_⟩
  refine (if_neg (by simp [hf]; omega)).trans (congrArg s.carryOut (funext fun u => ?_))
  unfold State.readmitted
  cases (u.quad (s.arg 0).toNat).owner <;> rfl

/-! ## RETIRESB and RETIRECH (R20, R503) -/

/-- Does a valid entry mark a sub-block resident for which q holds? -/
def State.resident (s : State) (q : Bool → Nat → Prop) : Prop :=
  ∃ e ∈ s.gz, e.2.perm.getLsbD 2 = true ∧ ∃ b < 128, e.2.resid.getLsbD b = true ∧
    q (e.2.tier.getLsbD b) ((if e.2.tier.getLsbD b then e.2.t1base else e.2.t0base) + b * 2 ^ 21)

theorem State.residentAny_iff (s : State) (p : Bool → Nat → Bool) :
    s.residentAny p = true ↔ s.resident (fun t x => p t x = true) := by
  simp only [State.residentAny, State.resident, List.any_eq_true, Bool.and_eq_true, List.mem_range, GzEntry.subPa]

theorem retiresb_body (s : State) (m : Master) :
    let a := (s.arg 0).toNat
    ∃ f, exec (.retiresb m) s = whenBusy s f ∧
      (a % 2 ^ 21 ≠ 0 ∨ 2 ^ 50 ≤ a → f s = s.conclude 2 0#64) ∧
      (¬ (a % 2 ^ 21 ≠ 0 ∨ 2 ^ 50 ≤ a) →
        (s.resident (fun _ x => x = a) → f s = s.conclude 3 0#64) ∧
        (¬ s.resident (fun _ x => x = a) → f s = s.carryOut (fun u => (u.onHub (fun h => { h with
          retiredSb := if h.retiredSb.contains a then h.retiredSb else h.retiredSb ++ [a] })).conclude 0 0#64))) := by
  intro a
  have hr : s.residentAny (fun _ x => x == a) = true ↔ s.resident (fun _ x => x = a) := by
    simp only [State.residentAny_iff, beq_iff_eq]
  refine ⟨_, by dsimp only [exec]; unfold execRetiresb; exact rfl, ?_⟩
  exact ⟨fun h => if_pos h, fun h => ⟨fun hx => (if_neg h).trans (if_pos (hr.2 hx)),
    fun hx => (if_neg h).trans (if_neg (mt hr.1 hx))⟩⟩

/-- May a channel be one of a sheet, with ARG 1? -/
def channelForm (sheet x : Nat) : Prop :=
  sheet < 4 ∧ x % 256 < 2 ∧ x / 256 % 256 < (if x % 256 = 0 then 12 else 4) ∧ x < 2 ^ 16

/-- Does a sub-block that a valid entry marks resident lie on the channels of a kind of a sheet? -/
def State.channelUsed (s : State) (sheet kind : Nat) : Prop :=
  s.resident (fun t1 x => x / 2 ^ 50 % 4 = 0 ∧ t1 = decide (kind = 1) ∧ (Config.homeSheet (x / 2 ^ 21)).val = sheet)

theorem retirech_body (s : State) (m : Master) :
    let sheet := (s.arg 0).toNat
    let x := (s.arg 1).toNat
    let c := (sheet, x % 256, x / 256 % 256)
    ∃ f, exec (.retirech m) s = whenBusy s f ∧
      (¬ channelForm sheet x → f s = s.conclude 2 0#64) ∧
      (channelForm sheet x → s.channelUsed sheet (x % 256) → f s = s.conclude 3 0#64) ∧
      (channelForm sheet x → ¬ s.channelUsed sheet (x % 256) → f s = s.carryOut (fun u => (u.onHub (fun h => { h with
        retiredCh := if h.retiredCh.contains c then h.retiredCh else h.retiredCh ++ [c] })).conclude 0 0#64)) := by
  intro sheet x c
  have hk : bitsAt x 0 8 = x % 256 := by rw [bitsAt_eq, Nat.pow_zero, Nat.div_one]; rfl
  have hc : bitsAt x 8 8 = x / 256 % 256 := bitsAt_eq ..
  have hform : (4 ≤ sheet ∨ 2 ≤ bitsAt x 0 8 ∨ (if bitsAt x 0 8 = 0 then 12 else 4) ≤ bitsAt x 8 8 ∨ 2 ^ 16 ≤ x) ↔
      ¬ channelForm sheet x := by
    rw [hk, hc, channelForm]
    omega
  have hused : s.residentAny (fun t1 a => targetOf a == 0 && t1 == decide (bitsAt x 0 8 = 1) && homeOf a == sheet) = true ↔
      s.channelUsed sheet (x % 256) := by
    rw [State.residentAny_iff, State.channelUsed, hk]
    simp only [Bool.and_eq_true, beq_iff_eq, targetOf_eq, and_assoc]
    rfl
  refine ⟨_, by dsimp only [exec]; unfold execRetirech; exact rfl, ?_⟩
  refine ⟨fun h => if_pos (hform.2 h), fun h hu => (if_neg (mt hform.1 (not_not.2 h))).trans (if_pos (hused.2 hu)),
    fun h hu => (if_neg (mt hform.1 (not_not.2 h))).trans ((if_neg (mt hused.1 hu)).trans ?_)⟩
  rw [show (sheet, bitsAt x 0 8, bitsAt x 8 8) = c from by rw [hk, hc]]

theorem mem_added {α : Type} [BEq α] [LawfulBEq α] (a x : α) (l : List α) :
    x ∈ (if l.contains a then l else l ++ [a]) ↔ x = a ∨ x ∈ l := by
  by_cases h : l.contains a
  · rw [if_pos h]
    exact ⟨.inr, fun hx => hx.elim (fun e => e ▸ List.contains_iff_mem.1 h) id⟩
  · rw [if_neg h, List.mem_append, List.mem_singleton, or_comm]

/-! ## POWER and bring-up (R514, R515) -/

theorem Table.get_filter_key {β : Type} (p : Nat → Bool) (t : Table β) (d : β) (k : Nat) :
    Table.get (t.filter (fun e => p e.1)) d k = if p k then Table.get t d k else d := by
  induction t with
  | nil => simp
  | cons e t ih =>
    by_cases hp : p e.1
    · rw [List.filter_cons_of_pos (p := fun e : Nat × β => p e.1) hp]
      show (if e.1 = k then e.2 else Table.get _ d k) = if p k then (if e.1 = k then e.2 else Table.get t d k) else d
      rw [ih]
      by_cases hk : e.1 = k
      · rw [if_pos hk, if_pos (hk ▸ hp), if_pos hk]
      · rw [if_neg hk, if_neg hk]
    · rw [List.filter_cons_of_neg (p := fun e : Nat × β => p e.1) hp, ih]
      show _ = if p k then (if e.1 = k then e.2 else Table.get t d k) else d
      by_cases hk : e.1 = k
      · rw [if_neg (hk ▸ hp), if_neg (hk ▸ hp)]
      · rw [if_neg hk]

theorem Table.get_of_not_mem_keys {β : Type} (t : Table β) (d : β) {k : Nat} (h : k ∉ Table.keys t) : Table.get t d k = d := by
  induction t with
  | nil => rfl
  | cons e t ih =>
    simp only [Table.keys, List.map_cons, List.mem_cons, not_or] at h
    exact (if_neg (Ne.symm h.1)).trans (ih h.2)

theorem away_iff (x : Nat) : (targetOf x == 1 || targetOf x == 2) = true ↔ x / 2 ^ 50 % 4 = 1 ∨ x / 2 ^ 50 % 4 = 2 := by
  simp [targetOf_eq]

/-- In P3 the memories of the host and of peers keep their bytes. -/
theorem State.powerOff_byte (s : State) (x : Nat) :
    s.powerOff.mem.byte x = if x / 2 ^ 50 % 4 = 1 ∨ x / 2 ^ 50 % 4 = 2 then s.mem.byte x else 0#8 := by
  refine (Table.get_filter_key (fun k => targetOf k == 1 || targetOf k == 2) s.mem.cells Mem.unwritten x).trans ?_
  simp only [away_iff]
  rfl

theorem State.mem_powerOff_poison (s : State) (x : Nat) :
    x ∈ s.powerOff.mem.poison ↔ x ∈ s.mem.poison ∧ (x / 2 ^ 50 % 4 = 1 ∨ x / 2 ^ 50 % 4 = 2) := by
  refine List.mem_filter.trans ?_
  rw [away_iff]

theorem power_body (s : State) (m : Master) :
    let k := (s.arg 0).toNat
    ∃ f, exec (.power m) s = whenBusy s f ∧
      (4 ≤ k → f s = s.conclude 2 0#64) ∧
      (k = 3 → s.hub.power = 3 → f s = s.conclude 0 0#64) ∧
      (k = 3 → s.hub.power ≠ 3 → f s = s.powerOff.conclude 0 0#64) ∧
      (k < 3 → s.hub.power ≠ 3 → f s = s.carryOut (fun u => (u.onHub (fun h => { h with power := k })).conclude 0 0#64)) ∧
      (k < 3 → s.hub.power = 3 → f s = s.powerUp k) := by
  intro k
  refine ⟨_, by dsimp only [exec]; unfold execPower; exact rfl, ?_⟩
  refine ⟨fun h => if_pos h, fun hk hp => (if_neg (by omega)).trans ((if_pos hk).trans ?_),
    fun hk hp => (if_neg (by omega)).trans ((if_pos hk).trans ?_),
    fun hk hp => (if_neg (by omega)).trans ((if_neg (by omega)).trans (if_neg hp)),
    fun hk hp => (if_neg (by omega)).trans ((if_neg (by omega)).trans (if_pos hp))⟩
  · rw [if_pos hp]
  · rw [if_neg hp]

/-- The state after n checks of the hardware. -/
def State.checkedBy (s : State) (n : Nat) : State := { s with flaws := s.flaws.drop n }

theorem State.flaw_checkedBy (s : State) (n : Nat) : (s.checkedBy n).flaw = (s.flaws.getD n false, s.checkedBy (n + 1)) := by
  unfold State.flaw State.checkedBy
  dsimp only
  rw [List.tail_drop]
  congr 1
  rw [List.headD_eq_head?_getD, List.head?_drop, List.getD_eq_getElem?_getD]

theorem State.badChannels_checkedBy (s : State) (n : Nat) :
    (s.checkedBy n).badChannels =
      ((List.range 64).filter (fun k => s.flaws.getD (n + k) false), s.checkedBy (n + 64)) := by
  have key : ∀ m, (List.range m).foldl (fun (a : List Nat × State) k =>
      let f := a.2.flaw
      (if f.1 then a.1 ++ [k] else a.1, f.2)) ([], s.checkedBy n) =
      ((List.range m).filter (fun k => s.flaws.getD (n + k) false), s.checkedBy (n + m)) := by
    intro m
    induction m with
    | zero => rfl
    | succ m ih =>
      rw [List.range_succ, List.foldl_append, ih, List.filter_append]
      simp only [List.foldl_cons, List.foldl_nil, State.flaw_checkedBy]
      by_cases h : s.flaws.getD (n + m) false = true
      · rw [if_pos h, List.filter_cons_of_pos (p := fun k => s.flaws.getD (n + k) false) h]; rfl
      · rw [if_neg h, List.filter_cons_of_neg (p := fun k => s.flaws.getD (n + k) false) h, List.filter_nil, List.append_nil]; rfl
  exact key 64

/-- A core with its scratchpad zeroed. -/
def Core.noSpad (c : Core) : Core := { c with spad := [] }

/-- A quad with its slots EMPTY. -/
def Quad.noSlots (q : Quad) : Quad := { q with slots := [] }

/-- The state after steps 2 and 3 of bring-up and the zeroing of the scratchpads, with channels that failed. -/
def State.spadsZeroed (s : State) (bad : List Nat) : State :=
  (Table.keys s.cores).foldl (fun s k => s.setCore k (s.core k).noSpad)
    { s with gz := [], hub := { s.hub with stage := 4, retiredCh := bad.map channelOf } }

/-- The state after step 4 of bring-up: the slots EMPTY too. -/
def State.memoryUp (s : State) (bad : List Nat) : State :=
  (Table.keys (s.spadsZeroed bad).quads).foldl (fun s k => s.setQuad k (s.quad k).noSlots) (s.spadsZeroed bad)

section
variable (s : State) (bad : List Nat)

theorem State.spadsZeroed_eq :
    s.spadsZeroed bad = { s with
      gz := [], cores := (s.spadsZeroed bad).cores, hub := { s.hub with stage := 4, retiredCh := bad.map channelOf } } := by
  unfold State.spadsZeroed
  rw [State.foldl_setCore Core.noSpad]

theorem State.spadsZeroed_core (c : Nat) : (s.spadsZeroed bad).core c = (s.core c).noSpad := by
  unfold State.spadsZeroed
  rw [State.foldl_setCore_core (f := Core.noSpad) (fun _ => rfl)]
  split
  · rfl
  · next h =>
    show Table.get s.cores Core.reset c = (Table.get s.cores Core.reset c).noSpad
    rw [Table.get_of_not_mem_keys _ _ h]
    rfl

theorem State.memoryUp_rest :
    s.memoryUp bad = { s with
      gz := [], cores := (s.memoryUp bad).cores, quads := (s.memoryUp bad).quads
      hub := { s.hub with stage := 4, retiredCh := bad.map channelOf } } := by
  unfold State.memoryUp
  rw [State.foldl_setQuad Quad.noSlots, State.spadsZeroed_eq]

theorem State.memoryUp_core (c : Nat) : (s.memoryUp bad).core c = { s.core c with spad := [] } := by
  unfold State.memoryUp
  rw [State.foldl_setQuad Quad.noSlots]
  exact s.spadsZeroed_core bad c

theorem State.memoryUp_quad (q : Nat) : (s.memoryUp bad).quad q = { s.quad q with slots := [] } := by
  have hq : (s.spadsZeroed bad).quad q = s.quad q := by rw [State.spadsZeroed_eq]; rfl
  unfold State.memoryUp
  rw [State.foldl_setQuad_quad (f := Quad.noSlots) (fun _ => rfl), hq]
  split
  · rfl
  · next h =>
    rw [← hq]
    show Table.get (s.spadsZeroed bad).quads Quad.reset q = (Table.get (s.spadsZeroed bad).quads Quad.reset q).noSlots
    rw [Table.get_of_not_mem_keys _ _ h]
    rfl

end

/-- What the transition out of P3 comes to, by the steps of bring-up that fail. -/
theorem State.powerUp_cases {s : State} (hp : s.hub.power = 3) (k : Nat) :
    let bad := fun n => s.flaws.getD n false = true
    let x := s.checkedBy 67
    let stopped := fun n e => State.emit { x with hub := { x.hub with stage := n } } (.bringUpFailed e)
    let up := x.memoryUp ((List.range 64).filter (fun k => s.flaws.getD (3 + k) false))
    (bad 0 → s.powerUp k = (stopped 1 2).conclude 7 0#64) ∧
    (¬ bad 0 → bad 1 → s.powerUp k = (stopped 2 3).conclude 7 0#64) ∧
    (¬ bad 0 → ¬ bad 1 → bad 2 → s.powerUp k = (up.emit (.bringUpFailed 5)).conclude 7 0#64) ∧
    (¬ bad 0 → ¬ bad 1 → ¬ bad 2 →
      s.powerUp k = State.conclude { up with hub := { up.hub with stage := 5, power := k } } 0 0#64) := by
  intro bad x stopped up
  have h0 : s.flaw = (s.flaws.getD 0 false, s.checkedBy 1) := s.flaw_checkedBy 0
  have hup : up.hub.power = 3 := by
    show (x.memoryUp _).hub.power = 3
    rw [State.memoryUp_rest]
    exact hp
  unfold State.powerUp
  rw [h0]
  dsimp only
  rw [State.flaw_checkedBy]
  dsimp only
  rw [State.flaw_checkedBy]
  dsimp only
  rw [State.badChannels_checkedBy]
  dsimp only
  unfold State.bringUp
  refine ⟨fun hb0 => ?_, fun hb0 hb1 => ?_, fun hb0 hb1 hb2 => ?_, fun hb0 hb1 hb2 => ?_⟩
  · rw [show s.flaws.getD 0 false = true from hb0]
    exact if_pos hp
  · rw [show s.flaws.getD 0 false = false from Bool.eq_false_of_not_eq_true hb0, show s.flaws.getD 1 false = true from hb1]
    exact if_pos hp
  · rw [show s.flaws.getD 0 false = false from Bool.eq_false_of_not_eq_true hb0,
      show s.flaws.getD (0 + 1) false = false from Bool.eq_false_of_not_eq_true hb1, show s.flaws.getD (1 + 1) false = true from hb2]
    exact if_pos hup
  · rw [show s.flaws.getD 0 false = false from Bool.eq_false_of_not_eq_true hb0,
      show s.flaws.getD (0 + 1) false = false from Bool.eq_false_of_not_eq_true hb1,
      show s.flaws.getD (1 + 1) false = false from Bool.eq_false_of_not_eq_true hb2]
    exact if_neg (show ¬ (0 : Nat) = 3 by decide)

/-- Are the scratchpads zeroed and the slots EMPTY in u? -/
def State.memoryCleared (s u : State) : Prop :=
  (∀ c, u.core c = { s.core c with spad := [] }) ∧ ∀ q, u.quad q = { s.quad q with slots := [] }

/-- The channels that fail as the memory is trained (R20, R515). -/
def State.lostChannels (s : State) : List (Nat × Nat × Nat) :=
  ((List.range 64).filter (fun k => s.flaws.getD (3 + k) false)).map channelOf

section
variable {s : State} (hp : s.hub.power = 3) (k : Nat) (h0 : ¬ s.flaws.getD 0 false = true) (h1 : ¬ s.flaws.getD 1 false = true)
include hp h0 h1

/-- A module whose PCIe link fails stops before P0 with its memory cleared. -/
theorem State.powerUp_linkless (h2 : s.flaws.getD 2 false = true) :
    s.memoryCleared (s.powerUp k) ∧
      s.powerUp k = State.concluded { s.checkedBy 67 with
        gz := [], cores := (s.powerUp k).cores, quads := (s.powerUp k).quads
        hub := { s.hub with stage := 4, retiredCh := s.lostChannels }
        outbox := s.outbox ++ [.bringUpFailed 5] } 7 0#64 := by
  have hu := (State.powerUp_cases hp k).2.2.1 h0 h1 h2
  rw [hu, State.conclude_zero]
  refine ⟨⟨fun c => State.memoryUp_core .., fun q => State.memoryUp_quad ..⟩, ?_⟩
  rw [State.memoryUp_rest]
  rfl

/-- A module whose steps succeed comes up in the power state asked for. -/
theorem State.powerUp_done (h2 : ¬ s.flaws.getD 2 false = true) :
    s.memoryCleared (s.powerUp k) ∧
      s.powerUp k = State.concluded { s.checkedBy 67 with
        gz := [], cores := (s.powerUp k).cores, quads := (s.powerUp k).quads
        hub := { s.hub with stage := 5, power := k, retiredCh := s.lostChannels } } 0 0#64 := by
  have hu := (State.powerUp_cases hp k).2.2.2 h0 h1 h2
  rw [hu, State.conclude_zero]
  refine ⟨⟨fun c => State.memoryUp_core .., fun q => State.memoryUp_quad ..⟩, ?_⟩
  rw [State.memoryUp_rest]
  rfl

end

/-! ## LINKS (R504, R515) -/

/-- A port trained with all its lanes. -/
def Port.full : Port := ⟨true, 8, false⟩

/-- A port as training leaves it: with all its lanes, with the spare in use, or with 4 lanes. -/
def Port.trainedAs (p : Port) : Prop := p ∈ [⟨true, 8, false⟩, ⟨true, 8, true⟩, ⟨true, 4, true⟩]

theorem State.trainPort_eq (s : State) (k : Nat) :
    ∃ n v, Port.trainedAs v ∧ ((∀ b ∈ s.flaws, b = false) → v = Port.full) ∧
      s.trainPort k = { s with
        flaws := s.flaws.drop n, hub := { s.hub with ports := Table.set s.hub.ports Port.reset k v } } := by
  have h0 : s.flaw = (s.flaws.getD 0 false, s.checkedBy 1) := s.flaw_checkedBy 0
  unfold State.trainPort
  rw [h0]
  cases hb : s.flaws.getD 0 false with
  | false => exact ⟨1, ⟨true, 8, false⟩, by simp [Port.trainedAs], fun _ => rfl, rfl⟩
  | true =>
    have hnot : ¬ ∀ b ∈ s.flaws, b = false := fun h => by
      cases hs : s.flaws with
      | nil => rw [hs] at hb; cases hb
      | cons b l =>
        rw [hs] at hb
        exact Bool.false_ne_true ((h b (hs ▸ List.mem_cons_self)).symm.trans hb)
    dsimp only
    rw [State.flaw_checkedBy]
    cases s.flaws.getD (0 + 1) false with
    | false => exact ⟨2, ⟨true, 8, true⟩, by simp [Port.trainedAs], fun h => absurd h hnot, rfl⟩
    | true => exact ⟨2, ⟨true, 4, true⟩, by simp [Port.trainedAs], fun h => absurd h hnot, rfl⟩

/-- The ports of a mask among the first n trained. -/
def State.trainPorts (s : State) (m n : Nat) : State :=
  (List.range n).foldl (fun s k => if bitAt m k then s.trainPort k else s) s

theorem State.trainPorts_eq (s : State) (m n : Nat) :
    ∃ d ports, s.trainPorts m n = { s with flaws := s.flaws.drop d, hub := { s.hub with ports := ports } } ∧
      (∀ k, ¬ (k < n ∧ m.testBit k = true) → Table.get ports Port.reset k = Table.get s.hub.ports Port.reset k) ∧
      ∀ k, k < n → m.testBit k = true → Port.trainedAs (Table.get ports Port.reset k) ∧
        ((∀ b ∈ s.flaws, b = false) → Table.get ports Port.reset k = Port.full) := by
  induction n with
  | zero => exact ⟨0, s.hub.ports, rfl, fun _ _ => rfl, fun k hk => absurd hk (Nat.not_lt_zero k)⟩
  | succ n ih =>
    obtain ⟨d, ports, heq, hsame, htrained⟩ := ih
    have hstep : s.trainPorts m (n + 1) = if m.testBit n then (s.trainPorts m n).trainPort n else s.trainPorts m n := by
      unfold State.trainPorts
      rw [List.range_succ, List.foldl_append, List.foldl_cons, List.foldl_nil, bitAt]
    by_cases hb : m.testBit n = true
    · obtain ⟨d', v, hv, hfull, ht⟩ := (s.trainPorts m n).trainPort_eq n
      refine ⟨d + d', Table.set ports Port.reset n v, ?_, fun k hk => ?_, fun k hk hbit => ?_⟩
      · rw [hstep, if_pos hb, ht, heq, List.drop_drop]
      · have hkn : k ≠ n := fun h => hk ⟨by omega, h ▸ hb⟩
        rw [Table.get_set_other _ _ _ hkn]
        exact hsame k fun h => hk ⟨by omega, h.2⟩
      · by_cases hkn : k = n
        · rw [hkn, Table.get_set_self]
          refine ⟨hv, fun h => hfull fun b hmem => h b ?_⟩
          rw [heq] at hmem
          exact List.mem_of_mem_drop hmem
        · rw [Table.get_set_other _ _ _ hkn]
          exact htrained k (by omega) hbit
    · refine ⟨d, ports, by rw [hstep, if_neg hb, heq], fun k hk => hsame k fun h => hk ⟨by omega, h.2⟩, fun k hk hbit => ?_⟩
      exact htrained k (by rcases Nat.lt_succ_iff_lt_or_eq.1 hk with h | h; exacts [h, absurd (h ▸ hbit) hb]) hbit

theorem links_body (s : State) (m : Master) :
    let k := (s.arg 0).toNat
    ∃ f, exec (.links m) s = whenBusy s f ∧ (2 ^ 16 ≤ k → f s = s.conclude 2 0#64) ∧
      (k < 2 ^ 16 → f s = s.carryOutStep 6 (fun u =>
        ((u.trainPorts k 16).onHub (fun h => { h with stage := h.linked })).conclude 0 0#64)) := by
  intro k
  refine ⟨_, by dsimp only [exec]; unfold execLinks; exact rfl, ?_⟩
  exact ⟨fun h => if_pos h, fun h => if_neg (Nat.not_le.2 h)⟩

/-- The state after LINKS with the ports of a mask trained. -/
def State.linksDone (s : State) (k : Nat) : State :=
  ((s.checked.trainPorts k 16).onHub (fun h => { h with stage := h.linked })).conclude 0 0#64

theorem State.linksDone_spec (s : State) (k : Nat) :
    ∃ n,
      (∀ j, ¬ (j < 16 ∧ k.testBit j = true) →
        Table.get (s.linksDone k).hub.ports Port.reset j = Table.get s.hub.ports Port.reset j) ∧
      (∀ j, j < 16 → k.testBit j = true → Port.trainedAs (Table.get (s.linksDone k).hub.ports Port.reset j) ∧
        ((∀ b ∈ s.flaws, b = false) → Table.get (s.linksDone k).hub.ports Port.reset j = Port.full)) ∧
      s.linksDone k = State.concluded { s with
        flaws := s.flaws.drop n
        hub := { s.hub with ports := (s.linksDone k).hub.ports, stage := s.hub.linked } } 0 0#64 := by
  obtain ⟨d, ports, heq, hsame, htrained⟩ := s.checked.trainPorts_eq k 16
  have hu : s.linksDone k = State.concluded { s with
      flaws := s.flaws.drop (d + 1), hub := { s.hub with ports := ports, stage := s.hub.linked } } 0 0#64 := by
    rw [State.linksDone, heq, State.conclude_zero, Nat.add_comm, ← List.drop_drop, List.drop_one]
    rfl
  rw [hu]
  refine ⟨d + 1, hsame, fun j hj hbit => ?_, rfl⟩
  obtain ⟨hv, hfull⟩ := htrained j hj hbit
  exact ⟨hv, fun h => hfull fun b hb => h b (List.mem_of_mem_tail hb)⟩

/-! ## UPDATE (R512) -/

theorem update_body (s : State) (m : Master) :
    ∃ f, exec (.update m) s = whenBusy s f ∧ (Config.choice s.fresh 0 % 2 ≠ 0 → f s = s.conclude 6 0#64) ∧
      (Config.choice s.fresh 0 % 2 = 0 → f s = s.carryOut (fun u =>
        (u.install_ (s.arg 0).toNat (Config.digest s.fresh).toNat).conclude 0 (Config.digest s.fresh))) := by
  refine ⟨_, by dsimp only [exec]; unfold execUpdate; exact rfl, ?_⟩
  exact ⟨fun h => if_neg h, fun h => if_pos h⟩

end Sys2Proof.Machine
end

section
/-! Where the records of a core that leaves its partition go (R265, R426, R439). -/
namespace Sys2Proof.Machine

theorem leastLoaded_eq_none {load : Nat → Nat} {l : List Nat} (h : leastLoaded load l = none) : l = [] := by
  cases l with
  | nil => rfl
  | cons c r =>
    rw [leastLoaded] at h
    split at h
    · split at h <;> cases h
    · cases h

/-- The least loaded of cores in ascending order, the lowest of equals. -/
theorem leastLoaded_spec {load : Nat → Nat} {l : List Nat} (hs : l.Pairwise (· < ·)) {d : Nat} (h : leastLoaded load l = some d) :
    d ∈ l ∧ ∀ c ∈ l, load d ≤ load c ∧ (load d = load c → d ≤ c) := by
  induction l generalizing d with
  | nil => cases h
  | cons c r ih =>
    obtain ⟨hlt, hr⟩ := List.pairwise_cons.1 hs
    rw [leastLoaded] at h
    cases hm : leastLoaded load r with
    | none =>
      rw [hm] at h
      cases h
      rw [leastLoaded_eq_none hm]
      exact ⟨List.mem_singleton_self c, fun y hy => by rw [List.mem_singleton.1 hy]; exact ⟨Nat.le_refl _, fun _ => Nat.le_refl _⟩⟩
    | some e =>
      rw [hm] at h
      obtain ⟨he, hmin⟩ := ih hr hm
      dsimp only at h
      split at h
      · next hec =>
        cases h
        refine ⟨List.mem_cons_of_mem c he, fun y hy => ?_⟩
        rcases List.mem_cons.1 hy with rfl | hy
        · exact ⟨Nat.le_of_lt hec, fun heq => by omega⟩
        · exact hmin y hy
      · next hec =>
        cases h
        refine ⟨List.mem_cons_self, fun y hy => ?_⟩
        rcases List.mem_cons.1 hy with rfl | hy
        · exact ⟨Nat.le_refl _, fun _ => Nat.le_refl _⟩
        · exact ⟨by have := (hmin y hy).1; omega, fun _ => Nat.le_of_lt (hlt y hy)⟩

theorem Part.cores_sorted (p : Part) : p.cores.Pairwise (· < ·) := by
  have hmem : ∀ q c, c ∈ (if p.quads.getLsbD q then rangeFrom (4 * q) 4 else []) → c / 4 = q := by
    intro q c hc
    split at hc
    · exact (mem_quadCores q c).1 hc
    · cases hc
  rw [Part.cores, List.pairwise_flatMap]
  refine ⟨fun q _ => ?_, List.pairwise_lt_range.imp fun {a b} hab x hx y hy => ?_⟩
  · split
    · exact List.pairwise_map.2 (List.pairwise_lt_range.imp fun h => Nat.add_lt_add_left h _)
    · exact List.Pairwise.nil
  · have := hmem a x hx
    have := hmem b y hy
    omega

theorem sumNat_eq_sum (l : List Nat) : sumNat l = l.sum := List.sum_eq_foldl.symm

theorem Core.takesTables_iff (c : Core) (l : List (Nat × HTable)) :
    c.takesTables l = true ↔
      (∀ e ∈ l, c.table e.1 = none) ∧ c.charges (fun _ => true) + (l.map (fun e => chargeOf e.2.b)).sum ≤ 524288 := by
  simp only [Core.takesTables, Bool.and_eq_true, List.all_eq_true, Option.isNone_iff_eq_none, decide_eq_true_eq, sumNat_eq_sum]

/-- Is d one of the cores cs near core c: on its sheet, or where none is, on the lowest sheet? -/
def nearCore (cs : List Nat) (c d : Nat) : Prop :=
  d ∈ cs ∧ ((∃ y ∈ cs, y / 64 = c / 64) → d / 64 = c / 64) ∧ ((∀ y ∈ cs, y / 64 ≠ c / 64) → ∀ y ∈ cs, d / 64 ≤ y / 64)

/-- The cores near core c, as the model lists them. -/
def nearCores (cs : List Nat) (c : Nat) : List Nat :=
  if (cs.filter (fun d => sheetOf d == sheetOf c)).isEmpty then cs.filter (fun d => sheetOf d == sheetOf (cs.headD 0))
  else cs.filter (fun d => sheetOf d == sheetOf c)

theorem headD_le {cs : List Nat} (hs : cs.Pairwise (· < ·)) : ∀ y ∈ cs, cs.headD 0 ≤ y := by
  cases cs with
  | nil => exact fun y hy => nomatch hy
  | cons c r =>
    intro y hy
    rcases List.mem_cons.1 hy with rfl | hy
    · exact Nat.le_refl _
    · exact Nat.le_of_lt ((List.pairwise_cons.1 hs).1 y hy)

theorem headD_mem {cs : List Nat} (hne : cs ≠ []) : cs.headD 0 ∈ cs := by
  cases cs with
  | nil => exact absurd rfl hne
  | cons c r => exact List.mem_cons_self

theorem mem_nearCores {cs : List Nat} (hs : cs.Pairwise (· < ·)) (c d : Nat) : d ∈ nearCores cs c ↔ nearCore cs c d := by
  unfold nearCores nearCore
  simp only [List.isEmpty_iff, List.filter_eq_nil_iff, beq_iff_eq, sheetOf]
  split
  · next hnone =>
    simp only [List.mem_filter, beq_iff_eq]
    refine and_congr_right fun hd => ⟨fun h => ⟨fun ⟨y, hy, hyc⟩ => absurd hyc (hnone y hy), fun _ y hy => ?_⟩, fun h => ?_⟩
    · rw [h]
      exact Nat.div_le_div_right (headD_le hs y hy)
    · exact Nat.le_antisymm (h.2 hnone _ (headD_mem (List.ne_nil_of_mem hd))) (Nat.div_le_div_right (headD_le hs d hd))
  · next hsome =>
    simp only [List.mem_filter, beq_iff_eq]
    simp only [not_forall, not_not] at hsome
    obtain ⟨y, hy, hyc⟩ := hsome
    exact and_congr_right fun hd => ⟨fun h => ⟨fun _ => h, fun hno => absurd hyc (hno y hy)⟩, fun h => h.1 ⟨y, hy, hyc⟩⟩

theorem nearCores_ne_nil {cs : List Nat} (hne : cs ≠ []) (c : Nat) : nearCores cs c ≠ [] := by
  unfold nearCores
  split
  · intro h
    have := List.filter_eq_nil_iff.1 h _ (headD_mem hne)
    simp at this
  · next h => exact fun hn => h (List.isEmpty_iff.2 hn)

theorem nearCores_sorted {cs : List Nat} (hs : cs.Pairwise (· < ·)) (c : Nat) : (nearCores cs c).Pairwise (· < ·) := by
  unfold nearCores
  split <;> exact hs.filter _

/-- The tables of the claim group of a launch's saved threads on a core. -/
def State.tablesOf (s : State) (k c l : Nat) : List (Nat × HTable) :=
  s.saved.flatMap (fun e => if e.1.id.part = k ∧ e.1.id.lid = l ∧ e.1.place.core = c then e.2.1 else [])

/-- Can core d take tables? -/
def State.coreTakes (s : State) (tables : List (Nat × HTable)) (d : Nat) : Prop :=
  (∀ e ∈ tables, (s.core d).table e.1 = none) ∧
    (s.core d).charges (fun _ => true) + (tables.map (fun e => chargeOf e.2.b)).sum ≤ 524288

/-- Threads and records of a partition on a core. -/
def State.loadAt (s : State) (k d : Nat) : Nat :=
  s.started.countP (fun t => t.id.part == k && t.place.core == d) + (s.part k).records.countP (fun r => r.core == d)

theorem State.loadOf_eq (s : State) (k d : Nat) : s.loadOf k d = s.loadAt k d := by
  rw [State.loadOf, State.loadAt, List.countP_eq_length_filter, List.countP_eq_length_filter]

/-- The near cores that can take the tables of the claim group, or all where none can, as the model lists them. -/
def State.candidates (s : State) (k c l : Nat) : List Nat :=
  if ((nearCores (s.part k).cores c).filter (fun d => (s.core d).takesTables (s.tablesOf k c l))).isEmpty
  then nearCores (s.part k).cores c
  else (nearCores (s.part k).cores c).filter (fun d => (s.core d).takesTables (s.tablesOf k c l))

/-- The new core is the least loaded of the near ones that can take the tables, or of the near ones where none can. -/
theorem State.newCore_spec (s : State) (k c l : Nat) (hne : (s.part k).cores ≠ []) :
    let near := nearCore (s.part k).cores c
    let cand := fun d => near d ∧ ((∃ y, near y ∧ s.coreTakes (s.tablesOf k c l) y) → s.coreTakes (s.tablesOf k c l) d)
    cand (s.newCore k c l) ∧ ∀ d, cand d →
      s.loadAt k (s.newCore k c l) ≤ s.loadAt k d ∧
        (s.loadAt k (s.newCore k c l) = s.loadAt k d → s.newCore k c l ≤ d) := by
  intro near cand
  have hs := (s.part k).cores_sorted
  have hmem : ∀ d, d ∈ nearCores (s.part k).cores c ↔ near d := mem_nearCores hs c
  have htables : s.saved.flatMap (fun e =>
      if e.1.id.part == k && e.1.id.lid == l && e.1.place.core == c then e.2.1 else []) = s.tablesOf k c l := by
    unfold State.tablesOf
    congr 1
    funext e
    simp only [Bool.and_eq_true, beq_iff_eq, and_assoc]
  have hdef : s.newCore k c l = (leastLoaded (s.loadAt k)
      (s.candidates k c l)).getD 0 := by
    unfold State.newCore
    dsimp only
    rw [htables, show s.loadOf k = s.loadAt k from funext fun d => s.loadOf_eq k d]
    rfl
  have hcand : ∀ d, d ∈ (s.candidates k c l) ↔ cand d := by
    intro d
    simp only [State.candidates, List.isEmpty_iff, List.filter_eq_nil_iff, Core.takesTables_iff]
    split
    · next hnone =>
      rw [hmem]
      exact ⟨fun h => ⟨h, fun ⟨y, hy, ht⟩ => absurd ht (hnone y ((hmem y).2 hy))⟩, And.left⟩
    · next hsome =>
      simp only [not_forall, not_not] at hsome
      obtain ⟨y, hy, ht⟩ := hsome
      rw [List.mem_filter, hmem, Core.takesTables_iff]
      exact and_congr_right fun _ => ⟨fun h _ => h, fun h => h ⟨y, (hmem y).1 hy, ht⟩⟩
  have hsorted : (s.candidates k c l).Pairwise (· < ·) := by
    unfold State.candidates
    split
    · exact nearCores_sorted hs c
    · exact (nearCores_sorted hs c).filter _
  cases hl : leastLoaded (s.loadAt k) (s.candidates k c l) with
  | none =>
    have hemp := leastLoaded_eq_none hl
    unfold State.candidates at hemp
    split at hemp
    · exact absurd hemp (nearCores_ne_nil hne c)
    · next h => exact absurd (List.isEmpty_iff.2 hemp) h
  | some d =>
    obtain ⟨hd, hmin⟩ := leastLoaded_spec hsorted hl
    rw [hdef, hl]
    exact ⟨(hcand d).1 hd, fun y hy => hmin y ((hcand y).2 hy)⟩

end Sys2Proof.Machine
end

section
/-! The removal of quads from a partition (R439). -/
namespace Sys2Proof.Machine

/-! ## Records re-queued (R265, R439) -/

/-- The thread with its home, where it is a thread of launch l with home c, on the new core. -/
def Thread.rehomed (k c l new : Nat) (t : Thread) : Thread :=
  if t.id.part = k ∧ t.id.lid = l ∧ t.place.home = c then { t with place := { t.place with home := new } } else t

/-- A saved thread of launch l that core c leaves, on the new core; its slot number keeps the core of its claim group. -/
def Thread.removed (k c l new : Nat) (t : Thread) : Thread :=
  if t.id.part = k ∧ t.id.lid = l ∧ t.place.core = c then
    { t.rehomed k c l new with place := { (t.rehomed k c l new).place with
      core := new, slot := 4 + if 4 ≤ t.place.slot then t.place.slot - 4 else c } }
  else t.rehomed k c l new

/-- The records and threads of launch l moved off core c. -/
def State.movedOff (s : State) (k c l : Nat) : State :=
  { s.setPart k { s.part k with records := (s.part k).records.map (fun r =>
      if r.id.part = k ∧ r.id.lid = l ∧ r.core = c then { r with core := s.newCore k c l } else r) } with
    cur := s.cur.rehomed k c l (s.newCore k c l)
    others := s.others.map (Thread.rehomed k c l (s.newCore k c l))
    saved := s.saved.map (fun e => (e.1.removed k c l (s.newCore k c l), e.2)) }

theorem State.requeue_eq (s : State) (k c l : Nat) : s.requeue k c l = s.movedOff k c l := by
  have hmine : ∀ (id : ThreadId) (d : Nat),
      (id.part == k && id.lid == l && d == c) = true ↔ id.part = k ∧ id.lid = l ∧ d = c := by
    intro id d
    simp only [Bool.and_eq_true, beq_iff_eq, and_assoc]
  have hgroup : ∀ t : Thread, t.place.core = c → t.groupCore = if 4 ≤ t.place.slot then t.place.slot - 4 else c := by
    intro t ht
    rw [Thread.groupCore, Thread.moved, ht]
    simp only [decide_eq_true_eq]
  have hmove : ∀ t : Thread,
      (if (t.id.part == k && t.id.lid == l && t.place.core == c) = true then
        { t.rehomed k c l (s.newCore k c l) with place := { (t.rehomed k c l (s.newCore k c l)).place with
          core := s.newCore k c l, slot := 4 + t.groupCore } }
      else t.rehomed k c l (s.newCore k c l)) = t.removed k c l (s.newCore k c l) := by
    intro t
    unfold Thread.removed
    by_cases h : t.id.part = k ∧ t.id.lid = l ∧ t.place.core = c
    · rw [if_pos ((hmine _ _).2 h), if_pos h, hgroup t h.2.2]
    · rw [if_neg (mt (hmine _ _).1 h), if_neg h]
  unfold State.requeue State.movedOff
  simp only [← hmove]
  simp only [hmine, Thread.rehomed]
  rfl

/-- The launches with records or saved threads on the cores of quads, all moved off. -/
def State.emptied (s : State) (k : Nat) (qs : List Nat) : State :=
  (qs.flatMap (fun q => rangeFrom (4 * q) 4)).foldl (fun s c => (s.lidsOn k c).foldl (fun s l => s.movedOff k c l) s) s

/-- Need the records of partition k no new turn of its dispatcher? -/
abbrev State.settledIn (s : State) (k : Nat) : Prop :=
  ((s.part k).records = [] ∧ ∀ e ∈ s.saved, e.1.id.part ≠ k) ∨ .threadDispatch k ∈ s.inputs

theorem State.redispatch_settled {s : State} {k : Nat} (h : s.settledIn k) : s.redispatch k = s := by
  unfold State.redispatch
  refine if_pos ?_
  simpa [State.settledIn] using h

theorem State.redispatch_unsettled {s : State} {k : Nat} (h : ¬ s.settledIn k) :
    s.redispatch k = { s with inputs := s.inputs ++ [.threadDispatch k] } := by
  unfold State.redispatch
  refine if_neg fun hs => h ?_
  simpa [State.settledIn] using hs

theorem State.requeueAll_eq (s : State) (k : Nat) (qs : List Nat) : s.requeueAll k qs = (s.emptied k qs).redispatch k := by
  unfold State.requeueAll State.emptied
  simp only [State.requeue_eq]

/-! ## One step of a removal (R439, R487) -/

section
variable {x : State} {k : Nat} {qs : List Nat} (again : Instr) (done : State → State)

theorem State.removeStep_preempts {t : Thread} (h : (x.onQuads qs).find? (fun t => x.mayPreempt t.id) = some t) :
    exec (.preemption t.id) x = .next (x.preempt t.id none) ∧ x.removeStep k qs again done = (x.preempt t.id none).push again := by
  have hmay : x.mayPreempt t.id = true := by simpa using List.find?_some h
  refine ⟨?_, by rw [State.removeStep, h]⟩
  dsimp only [exec]
  unfold execPreemption
  rw [if_pos hmay]

theorem State.removeStep_waits (h : (x.onQuads qs).find? (fun t => x.mayPreempt t.id) = none)
    (hw : x.onQuads qs ≠ [] ∨ ∃ c ∈ x.cmds, c.core / 4 ∈ qs) : x.removeStep k qs again done = x.push again := by
  rw [State.removeStep, h]
  refine if_pos ?_
  simpa [State.enginesBusy, quadOf] using hw

theorem State.removeStep_done (ho : x.onQuads qs = []) (hc : ∀ c ∈ x.cmds, c.core / 4 ∉ qs) :
    x.removeStep k qs again done = done (x.requeueAll k qs) := by
  rw [State.removeStep, ho]
  refine if_neg ?_
  simpa [State.enginesBusy, quadOf] using hc

end

/-- The state once every record of the quads is re-queued. -/
def State.requeued (s : State) (k : Nat) (qs : List Nat) : State :=
  if (s.emptied k qs).settledIn k then s.emptied k qs
  else { s.emptied k qs with inputs := (s.emptied k qs).inputs ++ [.threadDispatch k] }

theorem State.requeueAll_requeued (s : State) (k : Nat) (qs : List Nat) : s.requeueAll k qs = s.requeued k qs := by
  rw [State.requeueAll_eq, State.requeued]
  split
  · next h => exact State.redispatch_settled h
  · next h => exact State.redispatch_unsettled h

/-- What a request i that removes quads from partition k does next, in state x: it pre-empts a thread of theirs, waits, or is done. -/
def Leaves (i : Instr) (s x : State) (k : Nat) (qs : List Nat) (done : State → State) : Prop :=
  (∀ t, (x.onQuads qs).find? (fun t => x.mayPreempt t.id) = some t → ∃ v, exec (.preemption t.id) x = .next v ∧
    Completes i s (fun u => u = { v with inputs := v.inputs ++ [i] })) ∧
  ((x.onQuads qs).find? (fun t => x.mayPreempt t.id) = none → x.onQuads qs ≠ [] ∨ (∃ c ∈ x.cmds, c.core / 4 ∈ qs) →
    Completes i s (fun u => u = { x with inputs := x.inputs ++ [i] })) ∧
  (x.onQuads qs = [] → (∀ c ∈ x.cmds, c.core / 4 ∉ qs) →
    Completes i s (fun u => u = (done (x.requeued k qs)).concluded 0 0#64))

theorem leaves_of_busy {i : Instr} {s x : State} {k : Nat} {qs : List Nat} {done : State → State} {f : State → State}
    (he : exec i s = whenBusy s f) (hb : s.hub.pf.reqState = .busy)
    (hf : f s = x.removeStep k qs i (fun y => (done y).conclude 0 0#64)) : Leaves i s x k qs done := by
  refine ⟨fun t ht => ?_, fun hn hw => ?_, fun ho hc => ?_⟩
  · obtain ⟨hx, hr⟩ := State.removeStep_preempts (k := k) i (fun y => (done y).conclude 0 0#64) ht
    exact ⟨_, hx, completes_of_busy he hb (hf.trans hr)⟩
  · exact completes_of_busy he hb (hf.trans (State.removeStep_waits i _ hn hw))
  · refine completes_of_busy he hb (hf.trans ((State.removeStep_done i _ ho hc).trans ?_))
    rw [State.conclude_zero, State.requeueAll_requeued]

/-! ## FENCEQ (R513) -/

/-- The state with a quad fenced. -/
def State.fence (s : State) (q : Nat) : State := s.setQuad q { s.quad q with fenced := true }

/-- The state with a quad out of its partition's mask. -/
def State.unmasked (s : State) (p : Part) (k q : Nat) : State := s.setPart k { p with quads := p.quads &&& ~~~(1#64 <<< q) }

theorem fenceq_body (s : State) (m : Master) :
    let q := (s.arg 0).toNat
    let i := Instr.fenceq m
    ∃ f, exec i s = whenBusy s f ∧ (64 ≤ q → f s = s.conclude 2 0#64) ∧
      (q < 64 → ((s.quad q).owner = none ∨ (s.quad q).fenced = true →
          f s = s.carryOut (fun u => (u.fence q).conclude 0 0#64)) ∧
        ∀ k, (s.quad q).owner = some k → (s.quad q).fenced = false →
          let p := s.part k
          let go := fun (u : State) => (u.unmasked p k q).removeStep k [q] i (fun y => (y.fence q).conclude 0 0#64)
          (quadsOf p.quads = [q] → f s = s.conclude 3 0#64) ∧
          (quadsOf p.quads ≠ [q] → p.quads.getLsbD q = true → f s = s.carryOut go) ∧
          (quadsOf p.quads ≠ [q] → ¬ p.quads.getLsbD q = true → f s = go s)) := by
  intro q i
  refine ⟨_, by dsimp only [i, exec]; unfold execFenceq; exact rfl, ?_⟩
  refine ⟨fun h => if_pos h, fun hq => ⟨fun h => (if_neg (Nat.not_le.2 hq)).trans ?_, fun k ho hfe => ?_⟩⟩
  · show (match (s.quad q).owner with | none => _ | some pn => _) = _
    cases ho : (s.quad q).owner with
    | none => rfl
    | some k => exact if_pos (h.resolve_left (by rw [ho]; exact Option.some_ne_none k))
  · intro p go
    have hnf : ¬ (s.quad q).fenced = true := by rw [hfe]; exact Bool.false_ne_true
    refine ⟨fun hone => ?_, fun hmany hbit => ?_, fun hmany hbit => ?_⟩
    all_goals
      refine (if_neg (Nat.not_le.2 hq)).trans ?_
      show (match (s.quad q).owner with | none => _ | some pn => _) = _
      rw [ho]
      refine (if_neg hnf).trans ?_
    · exact if_pos (beq_iff_eq.2 hone)
    · exact (if_neg (mt beq_iff_eq.1 hmany)).trans (if_pos hbit)
    · exact (if_neg (mt beq_iff_eq.1 hmany)).trans (if_neg hbit)

/-! ## RESIZE (R439, R511) -/

/-- The quads of a mask that are new to partition k. -/
def State.newQuads (s : State) (k : Nat) (mask : Word) : List Nat :=
  (quadsOf mask).filter (fun q => (s.quad q).owner != some k || (s.quad q).fenced)

/-- The quads that partition k gives back under a mask. -/
def State.goneQuads (s : State) (k : Nat) (mask : Word) : List Nat :=
  (List.range 64).filter (fun q => (s.quad q).owner == some k && !mask.getLsbD q && !(s.quad q).fenced)

/-- The state with quads given back. -/
def State.givenBack (s : State) (qs : List Nat) : State := qs.foldl (fun s q => s.setQuad q { s.quad q with owner := none }) s

/-- The state with a mask written, and the quads new to partition k taken in. -/
def State.resized (s b : State) (k : Nat) (mask : Word) : State :=
  (b.setPart k { s.part k with quads := mask }).takeAll k (s.newQuads k mask)

theorem mem_quadsOf (mask : Word) (q : Nat) : q ∈ quadsOf mask ↔ q < 64 ∧ mask.getLsbD q = true := by
  rw [quadsOf, List.mem_filter, List.mem_range]

section
variable (s b : State) (k : Nat) (mask : Word)

theorem State.resized_quad (hq : ∀ q, b.quad q = s.quad q) (q : Nat) :
    (s.resized b k mask).quad q = if q ∈ s.newQuads k mask then (s.quad q).takenBy k else s.quad q := by
  rw [State.resized, State.takeAll_quad, State.setPart_quad, hq]

theorem State.resized_core (hc : ∀ c, b.core c = s.core c) (c : Nat) :
    (s.resized b k mask).core c = if c / 4 ∈ s.newQuads k mask then (s.core c).cleared else s.core c := by
  rw [State.resized, State.takeAll_core, State.setPart_core, hc]

theorem State.resized_part (hp : ∀ j, b.part j = s.part j) (j : Nat) :
    (s.resized b k mask).part j = if j = k then { s.part k with quads := mask } else s.part j := by
  rw [State.resized, State.takeAll_part, State.part_setPart, hp]

theorem State.resized_rest :
    s.resized b k mask = { b with
      parts := (s.resized b k mask).parts, quads := (s.resized b k mask).quads, cores := (s.resized b k mask).cores } := by
  unfold State.resized
  rw [State.takeAll_rest]
  rfl

/-- The quads that leave are those that the mask no longer names, whatever came. -/
theorem State.resized_leaving (hq : ∀ q, b.quad q = s.quad q) : (s.resized b k mask).leaving k = s.goneQuads k mask := by
  have hpart : ((s.resized b k mask).part k).quads = mask := by
    rw [State.resized, State.takeAll_part, State.part_setPart, if_pos rfl]
  unfold State.leaving State.goneQuads
  refine List.filter_congr fun q _ => ?_
  rw [hpart, s.resized_quad b k mask hq]
  by_cases hm : mask.getLsbD q = true
  · rw [hm, Bool.not_true, Bool.and_false, Bool.and_false]
    rfl
  · rw [if_neg fun hn : q ∈ s.newQuads k mask => hm ((mem_quadsOf mask q).1 (List.mem_of_mem_filter hn)).2]

end

theorem resize_body (s : State) (m : Master) :
    let k := (s.arg 0).toNat
    let mask := s.arg 1
    let i := Instr.resize m
    let go := fun (u : State) => (s.resized u k mask).removeStep k (s.goneQuads k mask) i
      (fun y => (y.givenBack (s.goneQuads k mask)).conclude 0 0#64)
    ∃ f, exec i s = whenBusy s f ∧ (32 ≤ k ∨ mask = 0#64 → f s = s.conclude 2 0#64) ∧
      (k < 32 → mask ≠ 0#64 → (s.part k).state = .absent → f s = s.conclude 4 0#64) ∧
      (k < 32 → mask ≠ 0#64 → (s.part k).state ≠ .absent →
        ((∃ q ∈ s.newQuads k mask, ¬ s.quadFree q = true) → f s = s.conclude 3 0#64) ∧
        ((∀ q ∈ s.newQuads k mask, s.quadFree q = true) →
          ((s.part k).quads = mask → f s = go s) ∧
          ((s.part k).quads ≠ mask → ¬ s.flawed → f s = go s.checked) ∧
          ((s.part k).quads ≠ mask → s.flawed → f s = s.checked.conclude 7 0#64))) := by
  intro k mask i go
  have hnew : (!(s.newQuads k mask).all s.quadFree) = true ↔ ∃ q ∈ s.newQuads k mask, ¬ s.quadFree q = true := by simp
  have hgo : ∀ u : State, (∀ q, u.quad q = s.quad q) →
      (s.resized u k mask).removeStep k ((s.resized u k mask).leaving k) i
        (fun y => (y.givenBack ((s.resized u k mask).leaving k)).conclude 0 0#64) = go u := fun u hq => by
    rw [State.resized_leaving s u k mask hq]
  refine ⟨_, by dsimp only [i, exec]; unfold execResize; exact rfl, ?_⟩
  have hok : k < 32 → mask ≠ 0#64 → ¬ (32 ≤ k ∨ mask = 0#64) := fun hk hm => not_or.2 ⟨Nat.not_le.2 hk, hm⟩
  refine ⟨fun h => if_pos h, fun hk hm ha => (if_neg (hok hk hm)).trans (if_pos ha), fun hk hm ha => ⟨fun hq => ?_, fun hq => ?_⟩⟩
  · exact (if_neg (hok hk hm)).trans ((if_neg ha).trans (if_pos (hnew.2 hq)))
  · have hfree : ¬ (!(s.newQuads k mask).all s.quadFree) = true := fun h => by
      obtain ⟨q, hqn, hqf⟩ := hnew.1 h
      exact hqf (hq q hqn)
    refine ⟨fun heq => ?_, fun hne hfl => ?_, fun hne hfl => ?_⟩
    all_goals refine (if_neg (hok hk hm)).trans ((if_neg ha).trans ((if_neg hfree).trans ?_))
    · exact (if_pos heq).trans (hgo s fun _ => rfl)
    · exact (if_neg hne).trans ((State.carryOut_sound hfl _).trans (hgo s.checked fun _ => rfl))
    · exact (if_neg hne).trans ((State.carryOut_flawed hfl _).trans (State.conclude_zero ..).symm)

end Sys2Proof.Machine
end

section
/-! CREATE (R396, R503, R511). -/
namespace Sys2Proof.Machine

theorem Table.get_clearGz (g : Table GzEntry) (first n k : Nat) :
    Table.get (clearGz g first n) GzEntry.zero k = if first ≤ k ∧ k < first + n then GzEntry.zero else Table.get g GzEntry.zero k := by
  refine (Table.get_filter_key (fun k => !(decide (first ≤ k) && decide (k < first + n))) g GzEntry.zero k).trans ?_
  simp only [Bool.not_eq_true', ← Bool.not_eq_true, Bool.and_eq_true, decide_eq_true_eq, ite_not]

/-! ## CREATE -/

/-- Are the arguments of CREATE in their ranges, and has bring-up come to it? -/
def State.createForm (s : State) : Prop :=
  8 ≤ s.hub.stage ∧ s.arg 1 ≠ 0#64 ∧ (s.arg 2).toNat ≤ 16384 ∧ (s.arg 3).toNat < 2 ^ 20

/-- Are the n gazetteer entries from k free? -/
def State.freeRange (s : State) (n k : Nat) : Prop :=
  k + n ≤ 16384 ∧ ∀ e ∈ s.parts, rangesMeet (e.2.regs2.gzfirst, e.2.regs2.gzcount) (k, n) = false

theorem State.mem_freeGz (s : State) {n : Nat} (hn : n ≤ 16384) (k : Nat) : k ∈ s.freeGz n ↔ s.freeRange n k := by
  unfold State.freeGz State.freeRange
  simp only [List.mem_filter, List.mem_range, Bool.not_eq_true', List.any_eq_false, List.mem_map, forall_exists_index, and_imp,
    forall_apply_eq_imp_iff₂, Bool.not_eq_true]
  exact and_congr_left fun _ => by omega

/-- The partition that CREATE makes. -/
def State.newPart (s : State) (first : Nat) : Part :=
  { Part.reset with
    state := .running, quads := s.arg 1, pasid := (s.arg 3).toNat, key := s.hub.nextKey
    regs2 := { PartRegs2.reset with gzfirst := first, gzcount := (s.arg 2).toNat }, ptinv := [(0, 0, s.mem.logLen)] }

/-- The state in which the partition and its entries stand, its quads still to come. -/
def State.placed (s : State) (first : Nat) : State :=
  (State.setPart { s with gz := clearGz s.gz first (s.arg 2).toNat } (s.arg 0).toNat (s.newPart first)).setObjs (s.arg 0).toNat
    Objects.reset

/-- The state after CREATE. -/
def State.created (s : State) (first : Nat) : State :=
  ((s.placed first).takeAll (s.arg 0).toNat (quadsOf (s.arg 1))).onHub (fun h => { h with nextKey := h.nextKey + 1 })

section
variable (s : State) (first : Nat)

theorem State.onHub_quad (f : Hub → Hub) (q : Nat) : (s.onHub f).quad q = s.quad q := rfl
theorem State.onHub_core (f : Hub → Hub) (c : Nat) : (s.onHub f).core c = s.core c := rfl
theorem State.onHub_part (f : Hub → Hub) (k : Nat) : (s.onHub f).part k = s.part k := rfl

theorem State.created_rest :
    s.created first = { s with
      parts := (s.created first).parts, gz := (s.created first).gz, objects := (s.created first).objects
      cores := (s.created first).cores, quads := (s.created first).quads
      hub := { s.hub with nextKey := s.hub.nextKey + 1 } } := by
  unfold State.created
  rw [State.takeAll_rest]
  rfl

theorem State.created_part (k : Nat) :
    (s.created first).part k = if k = (s.arg 0).toNat then s.newPart first else s.part k := by
  rw [State.created, State.onHub_part, State.takeAll_part]
  exact State.part_setPart { s with gz := clearGz s.gz first (s.arg 2).toNat } (s.arg 0).toNat k (s.newPart first)

theorem State.created_quad (q : Nat) :
    (s.created first).quad q = if q ∈ quadsOf (s.arg 1) then (s.quad q).takenBy (s.arg 0).toNat else s.quad q := by
  rw [State.created, State.onHub_quad, State.takeAll_quad]
  rfl

theorem State.created_core (c : Nat) :
    (s.created first).core c = if c / 4 ∈ quadsOf (s.arg 1) then (s.core c).cleared else s.core c := by
  rw [State.created, State.onHub_core, State.takeAll_core]
  rfl

theorem State.created_objs (k : Nat) :
    (s.created first).objs k = if k = (s.arg 0).toNat then Objects.reset else s.objs k := by
  unfold State.created
  rw [State.takeAll_rest]
  exact State.objs_setObjs s (s.arg 0).toNat k Objects.reset

theorem State.created_gz (k : Nat) :
    Table.get (s.created first).gz GzEntry.zero k =
      if first ≤ k ∧ k < first + (s.arg 2).toNat then GzEntry.zero else Table.get s.gz GzEntry.zero k := by
  unfold State.created
  rw [State.takeAll_rest]
  exact Table.get_clearGz ..

end

theorem create_body (s : State) (m : Master) :
    let pn := (s.arg 0).toNat
    let n := (s.arg 2).toNat
    ∃ f, exec (.create m) s = whenBusy s f ∧
      (32 ≤ pn ∨ ¬ s.createForm → f s = s.conclude 2 0#64) ∧
      (pn < 32 → s.createForm → (s.part pn).state ≠ .absent → f s = s.conclude 4 0#64) ∧
      (pn < 32 → s.createForm → (s.part pn).state = .absent →
        ((∃ q ∈ quadsOf (s.arg 1), ¬ s.quadFree q = true) ∨ (∀ k, ¬ s.freeRange n k) → f s = s.conclude 3 0#64) ∧
        ((∀ q ∈ quadsOf (s.arg 1), s.quadFree q = true) → (∃ k, s.freeRange n k) →
          ∃ g first, f s = s.carryOutStep 7 g ∧ s.freeRange n first ∧
            g s.checked = (s.checked.created first).conclude 0 (BitVec.ofNat 64 first))) := by
  intro pn n
  have hform : (s.hub.stage < 8 ∨ 32 ≤ pn ∨ s.arg 1 = 0#64 ∨ 16384 < n ∨ 2 ^ 20 ≤ (s.arg 3).toNat) ↔ 32 ≤ pn ∨ ¬ s.createForm := by
    unfold State.createForm
    by_cases hm : s.arg 1 = 0#64
    · simp [hm]
    · simp only [hm, false_or, ne_eq, not_false_eq_true, true_and]
      omega
  have hquads : (!(quadsOf (s.arg 1)).all s.quadFree) = true ↔ ∃ q ∈ quadsOf (s.arg 1), ¬ s.quadFree q = true := by simp
  refine ⟨_, by dsimp only [exec]; unfold execCreate; exact rfl, ?_⟩
  have hok : pn < 32 → s.createForm → ¬ _ := fun hp hf => mt hform.1 (not_or.2 ⟨Nat.not_le.2 hp, not_not.2 hf⟩)
  refine ⟨fun h => if_pos (hform.2 h), fun hp hf ha => (if_neg (hok hp hf)).trans (if_pos ha), fun hp hf ha => ?_⟩
  have hfree := s.mem_freeGz hf.2.2.1
  refine ⟨fun h => (if_neg (hok hp hf)).trans ((if_neg (not_not.2 ha)).trans ?_), fun hq hk => ?_⟩
  · by_cases hqu : ∃ q ∈ quadsOf (s.arg 1), ¬ s.quadFree q = true
    · exact if_pos (hquads.2 hqu)
    · refine (if_neg (mt hquads.1 hqu)).trans ?_
      have hnil : s.freeGz (s.arg 2).toNat = [] :=
        List.eq_nil_iff_forall_not_mem.2 fun k hk => h.resolve_left hqu k ((hfree k).1 hk)
      rw [hnil]
  · have hgo : ∀ {x y z : State}, (if (s.part pn).state ≠ .absent then x else
        if (!(quadsOf (s.arg 1)).all s.quadFree) = true then y else z) = z := by
      intro x y z
      rw [if_neg (not_not.2 ha), if_neg (mt hquads.1 (by simpa using hq))]
    cases hl : s.freeGz n with
    | nil =>
      obtain ⟨k, hk⟩ := hk
      have := (hfree k).2 hk
      rw [hl] at this
      cases this
    | cons k r =>
      have hlt : Config.choice s.fresh 0 % (r.length + 1) < (k :: r).length := Nat.mod_lt _ (Nat.succ_pos _)
      have hmem : (k :: r).getD (Config.choice s.fresh 0 % (r.length + 1)) k ∈ s.freeGz n := by
        rw [hl, List.getD_eq_getElem _ _ hlt]
        exact List.getElem_mem _
      refine ⟨?go, (k :: r).getD (Config.choice s.fresh 0 % (r.length + 1)) k, ?run, (hfree _).1 hmem, ?outcome⟩
      case run =>
        refine (if_neg (hok hp hf)).trans (hgo.trans ?_)
        rw [show s.freeGz (s.arg 2).toNat = k :: r from hl]
      case outcome => rfl

end Sys2Proof.Machine
end

section
/-! DESTROY (R503, R511). -/
namespace Sys2Proof.Machine

/-! ## The quads go (R439, R511) -/

/-- A quad of partition k cleared and owned by none; its fence is as it was in state s0. -/
def State.dropQuad (s0 s : State) (k q : Nat) : State :=
  (s.takeIn k q).setQuad q { (s.takeIn k q).quad q with owner := none, fenced := (s0.quad q).fenced }

/-- Quads of partition k cleared and owned by none. -/
def State.dropQuads (s0 s : State) (k : Nat) (qs : List Nat) : State := qs.foldl (fun s q => s0.dropQuad s k q) s

theorem State.dropQuads_cons (s0 s : State) (k q : Nat) (qs : List Nat) :
    s0.dropQuads s k (q :: qs) = s0.dropQuads (s0.dropQuad s k q) k qs := by
  unfold State.dropQuads
  rw [List.foldl_cons]

theorem State.dropQuad_core (s0 s : State) (k q c : Nat) :
    (s0.dropQuad s k q).core c = if c / 4 = q then (s.core c).cleared else s.core c := by
  rw [State.dropQuad, State.setQuad_core, State.takeIn_core]

theorem State.dropQuad_quad (s0 s : State) (k q j : Nat) :
    (s0.dropQuad s k q).quad j =
      if j = q then { (s.quad q).takenBy k with owner := none, fenced := (s0.quad q).fenced } else s.quad j := by
  rw [State.dropQuad, State.quad_setQuad, State.takeIn_quad, State.takeIn_quad, if_pos rfl]
  split <;> rfl

theorem State.dropQuad_rest (s0 s : State) (k q : Nat) :
    s0.dropQuad s k q = { s with cores := (s0.dropQuad s k q).cores, quads := (s0.dropQuad s k q).quads } := by
  unfold State.dropQuad
  rw [State.takeIn_rest]
  rfl

theorem State.dropQuads_spec (s0 : State) (k : Nat) (qs : List Nat) : ∀ s : State,
    (∀ c, (s0.dropQuads s k qs).core c = if c / 4 ∈ qs then (s.core c).cleared else s.core c) ∧
    (∀ q, q ∉ qs → (s0.dropQuads s k qs).quad q = s.quad q) ∧ (∀ q ∈ qs, ((s0.dropQuads s k qs).quad q).owner = none) ∧
    s0.dropQuads s k qs = { s with cores := (s0.dropQuads s k qs).cores, quads := (s0.dropQuads s k qs).quads } := by
  induction qs with
  | nil => exact fun s => ⟨fun c => by simp [State.dropQuads], fun q _ => rfl, fun q hq => (List.not_mem_nil hq).elim, rfl⟩
  | cons q qs ih =>
    intro s
    obtain ⟨hc, hout, hin, hr⟩ := ih (s0.dropQuad s k q)
    rw [State.dropQuads_cons]
    refine ⟨fun c => ?_, fun j hj => ?_, fun j hj => ?_, ?_⟩
    · rw [hc, State.dropQuad_core]
      by_cases h : c / 4 = q
      · rw [if_pos h, if_pos (show c / 4 ∈ q :: qs by simp [h])]
        split <;> rfl
      · rw [if_neg h]
        simp [h]
    · obtain ⟨hjq, hjs⟩ := not_or.1 (mt List.mem_cons.2 hj)
      rw [hout j hjs, State.dropQuad_quad, if_neg hjq]
    · by_cases hjs : j ∈ qs
      · exact hin j hjs
      · obtain rfl : j = q := (List.mem_cons.1 hj).resolve_right hjs
        rw [hout j hjs, State.dropQuad_quad, if_pos rfl]
    · rw [hr, State.dropQuad_rest]

/-! ## The memory goes (R511) -/

/-- Is the byte memory of the partition's own? -/
def Part.ownsMemory (p : Part) (x : Nat) : Prop := x / 2 ^ 50 % 4 = 0 ∧ p.owns x = true

theorem Part.ownsMemory_iff (p : Part) (x : Nat) : (p.owns x && targetOf x == 0) = true ↔ p.ownsMemory x := by
  rw [Bool.and_eq_true, beq_iff_eq, targetOf_eq, Part.ownsMemory, and_comm]

theorem Mem.byte_foldl_write_zero (l : List Nat) (m : Mem) (x : Nat) :
    (l.foldl (fun m a => m.write .unit a 0#8) m).byte x = if x ∈ l then 0#8 else m.byte x := by
  induction l generalizing m with
  | nil => rfl
  | cons a l ih =>
    rw [List.foldl_cons, ih, Mem.byte_write]
    by_cases h : x = a
    · simp [h]
    · simp [h]

theorem State.zeroRanges_byte (s : State) (p : Part) (x : Nat) :
    (p.ownsMemory x → (s.zeroRanges p).mem.byte x = 0#8) ∧ (¬ p.ownsMemory x → (s.zeroRanges p).mem.byte x = s.mem.byte x) := by
  have hmem : x ∈ (s.mem.cells.filter (fun e => p.owns e.1 && targetOf e.1 == 0)).map (fun e => e.1) ↔
      p.ownsMemory x ∧ ∃ b, (x, b) ∈ s.mem.cells := by
    simp only [List.mem_map, List.mem_filter, p.ownsMemory_iff]
    exact ⟨fun ⟨⟨a, b⟩, ⟨hab, ho⟩, hx⟩ => by obtain rfl : a = x := hx; exact ⟨ho, b, hab⟩, fun ⟨ho, b, hb⟩ => ⟨(x, b), ⟨hb, ho⟩, rfl⟩⟩
  have hbyte := Mem.byte_foldl_write_zero ((s.mem.cells.filter (fun e => p.owns e.1 && targetOf e.1 == 0)).map (fun e => e.1)) s.mem x
  refine ⟨fun ho => hbyte.trans ?_, fun ho => hbyte.trans (if_neg fun h => ho (hmem.1 h).1)⟩
  by_cases hc : ∃ b, (x, b) ∈ s.mem.cells
  · exact if_pos (hmem.2 ⟨ho, hc⟩)
  · rw [if_neg fun h => hc (hmem.1 h).2]
    exact Table.get_of_not_mem_keys s.mem.cells _ fun hk => hc (by simpa [Table.keys] using hk)

theorem State.zeroRanges_poison (s : State) (p : Part) {x : Nat} (h : p.ownsMemory x) : x ∉ (s.zeroRanges p).mem.poison := by
  intro hx
  have hno := (List.mem_filter.1 hx).2
  rw [(p.ownsMemory_iff x).2 h] at hno
  cases hno

/-! ## What is left of a partition (R511) -/

/-- The quads that a partition has. -/
def State.quadsHeld (s : State) (k : Nat) : List Nat := (List.range 64).filter (fun q => (s.quad q).owner == some k)

theorem State.mem_quadsHeld (s : State) (k q : Nat) : q ∈ s.quadsHeld k ↔ q < 64 ∧ (s.quad q).owner = some k := by
  rw [State.quadsHeld, List.mem_filter, List.mem_range, beq_iff_eq]

/-- The state without a partition's threads, operations, bytes and entries. -/
def State.orphaned (s : State) (k : Nat) : State :=
  { s with
    mem := (s.zeroRanges (s.part k)).mem
    cur := if s.cur.id.part != k then s.cur else Thread.reset
    active := s.active && s.cur.id.part != k
    others := s.others.filter (fun t => t.id.part != k)
    saved := s.saved.filter (fun e => e.1.id.part != k)
    mlq := s.mlq.filter (fun o => o.part != k)
    gz := clearGz s.gz (s.part k).regs2.gzfirst (s.part k).regs2.gzcount }

/-- The state with a partition's entry and objects replaced, and without its apertures. -/
def State.replaced (d : State) (k : Nat) (p : Part) (o : Objects) : State :=
  ((d.setPart k p).setObjs k o).onHub (fun h => { h with apertures := h.apertures.filter (fun a => a.part != k) })

section
variable (d : State) (k : Nat) (p : Part) (o : Objects)

theorem State.replaced_core (c : Nat) : (d.replaced k p o).core c = d.core c := rfl
theorem State.replaced_quad (q : Nat) : (d.replaced k p o).quad q = d.quad q := rfl

theorem State.replaced_part (j : Nat) : (d.replaced k p o).part j = if j = k then p else d.part j := State.part_setPart d k j p

theorem State.replaced_objs (j : Nat) : (d.replaced k p o).objs j = if j = k then o else d.objs j := State.objs_setObjs d k j o

theorem State.replaced_rest :
    d.replaced k p o = { d with
      parts := (d.replaced k p o).parts, objects := (d.replaced k p o).objects
      hub := { d.hub with apertures := d.hub.apertures.filter (fun a => a.part != k) } } := rfl

end

theorem State.replaced_dropQuads_rest (s d : State) (k : Nat) (qs : List Nat) (p : Part) (o : Objects) :
    (s.dropQuads d k qs).replaced k p o = { d with
      cores := ((s.dropQuads d k qs).replaced k p o).cores, quads := ((s.dropQuads d k qs).replaced k p o).quads
      parts := ((s.dropQuads d k qs).replaced k p o).parts, objects := ((s.dropQuads d k qs).replaced k p o).objects
      hub := { d.hub with apertures := d.hub.apertures.filter (fun a => a.part != k) } } := by
  rw [State.replaced_rest, (s.dropQuads_spec k qs d).2.2.2]

theorem State.eraseParts_eq (s : State) (k : Nat) :
    s.eraseParts k = (s.dropQuads (s.orphaned k) k (s.quadsHeld k)).replaced k Part.reset Objects.reset := rfl

section
variable (s : State) (k : Nat)

theorem State.eraseParts_rest :
    s.eraseParts k = { s.orphaned k with
      cores := (s.eraseParts k).cores, quads := (s.eraseParts k).quads, parts := (s.eraseParts k).parts
      objects := (s.eraseParts k).objects
      hub := { s.hub with apertures := s.hub.apertures.filter (fun a => a.part != k) } } := by
  rw [State.eraseParts_eq]
  exact s.replaced_dropQuads_rest (s.orphaned k) k (s.quadsHeld k) Part.reset Objects.reset

theorem State.eraseParts_core (c : Nat) :
    (s.eraseParts k).core c = if c / 4 ∈ s.quadsHeld k then (s.core c).cleared else s.core c := by
  rw [State.eraseParts_eq, State.replaced_core, (s.dropQuads_spec k (s.quadsHeld k) (s.orphaned k)).1]
  rfl

theorem State.eraseParts_quad {q : Nat} (h : q ∉ s.quadsHeld k) : (s.eraseParts k).quad q = s.quad q := by
  rw [State.eraseParts_eq, State.replaced_quad, (s.dropQuads_spec k (s.quadsHeld k) (s.orphaned k)).2.1 q h]
  rfl

theorem State.eraseParts_owner {q : Nat} (h : q ∈ s.quadsHeld k) : ((s.eraseParts k).quad q).owner = none := by
  rw [State.eraseParts_eq, State.replaced_quad, (s.dropQuads_spec k (s.quadsHeld k) (s.orphaned k)).2.2.1 q h]

theorem State.eraseParts_part (j : Nat) : (s.eraseParts k).part j = if j = k then Part.reset else s.part j := by
  rw [State.eraseParts_eq, State.replaced_part, (s.dropQuads_spec k (s.quadsHeld k) (s.orphaned k)).2.2.2, State.part_congr]
  rfl

theorem State.eraseParts_objs (j : Nat) : (s.eraseParts k).objs j = if j = k then Objects.reset else s.objs j := by
  rw [State.eraseParts_eq, State.replaced_objs, (s.dropQuads_spec k (s.quadsHeld k) (s.orphaned k)).2.2.2]
  rfl

end

/-- The state with a partition on its way out. -/
def State.quiesced (s : State) (k : Nat) : State := s.setPart k { s.part k with state := .quiescing }

theorem State.partCmds_iff (s : State) (k : Nat) : s.partCmds k = true ↔ ∃ c ∈ s.cmds, c.thread.part = k := by
  simp only [State.partCmds, List.any_eq_true, beq_iff_eq]

theorem destroy_body (s : State) (m : Master) :
    let k := (s.arg 0).toNat
    let go := fun (u : State) => if (u.quiesced k).partCmds k then (u.quiesced k).push (.destroy m)
      else ((u.quiesced k).eraseParts k).conclude 0 0#64
    ∃ f, exec (.destroy m) s = whenBusy s f ∧ (32 ≤ k → f s = s.conclude 2 0#64) ∧
      (k < 32 → (s.part k).state = .absent → f s = s.conclude 4 0#64) ∧
      (k < 32 → (s.part k).state = .quiescing → f s = go s) ∧
      (k < 32 → (s.part k).state ≠ .absent → (s.part k).state ≠ .quiescing → f s = s.carryOut go) := by
  intro k go
  refine ⟨_, by dsimp only [exec]; unfold execDestroy; exact rfl, ?_⟩
  exact ⟨fun h => if_pos h, fun h ha => (if_neg (Nat.not_le.2 h)).trans (if_pos ha),
    fun h hq => (if_neg (Nat.not_le.2 h)).trans ((if_neg (by rw [hq]; decide)).trans (if_pos hq)),
    fun h ha hq => (if_neg (Nat.not_le.2 h)).trans ((if_neg ha).trans (if_neg hq))⟩

end Sys2Proof.Machine
end

section
/-! What CREATE, DESTROY and RESIZE leave once they are carried out (R396, R439, R511). -/
namespace Sys2Proof.Machine

/-- A quad of state x stands cleared in state u, owned by partition k (R224, R396). -/
def QuadCleared (x : State) (k q : Nat) (u : State) : Prop :=
  u.quad q = (x.quad q).takenBy k ∧ ∀ c, c / 4 = q → u.core c = (x.core c).cleared

/-- A quad and its cores stand in state u as they stood in state x. -/
def QuadKept (x : State) (q : Nat) (u : State) : Prop := u.quad q = x.quad q ∧ ∀ c, c / 4 = q → u.core c = x.core c

/-- State u is what CREATE leaves of state s, its entries from first on. -/
def CreateLeaves (s u : State) (first : Nat) : Prop :=
  (∀ k, u.part k = if k = (s.arg 0).toNat then s.newPart first else s.part k) ∧
  (∀ q ∈ quadsOf (s.arg 1), QuadCleared s (s.arg 0).toNat q u) ∧
  (∀ q, q ∉ quadsOf (s.arg 1) → QuadKept s q u) ∧
  (∀ k, Table.get u.gz GzEntry.zero k =
    if first ≤ k ∧ k < first + (s.arg 2).toNat then GzEntry.zero else Table.get s.gz GzEntry.zero k) ∧
  (∀ k, u.objs k = if k = (s.arg 0).toNat then Objects.reset else s.objs k) ∧
  u = State.concluded { s.checked with
    parts := u.parts, cores := u.cores, quads := u.quads, gz := u.gz, objects := u.objects
    hub := { s.hub with nextKey := s.hub.nextKey + 1 } } 0 (BitVec.ofNat 64 first)

theorem createLeaves_created (s : State) (first : Nat) :
    CreateLeaves s ((s.checked.created first).concluded 0 (BitVec.ofNat 64 first)) first := by
  refine ⟨fun k => s.checked.created_part first k, fun q hq => ⟨(s.checked.created_quad first q).trans (if_pos hq), fun c hc => ?_⟩,
    fun q hq => ⟨(s.checked.created_quad first q).trans (if_neg hq), fun c hc => ?_⟩, fun k => s.checked.created_gz first k,
    fun k => s.checked.created_objs first k, congrArg (fun x => State.concluded x 0 _) (s.checked.created_rest first)⟩
  all_goals
    subst hc
    refine (s.checked.created_core first c).trans ?_
  · exact if_pos hq
  · exact if_neg hq

/-- State u is what DESTROY leaves of state v, once no engine serves partition k. -/
def DestroyLeaves (v u : State) (k : Nat) : Prop :=
  (∀ j, u.part j = if j = k then Part.reset else v.part j) ∧
  (∀ j, u.objs j = if j = k then Objects.reset else v.objs j) ∧
  (∀ q < 64, (u.quad q).owner = if (v.quad q).owner = some k then none else (v.quad q).owner) ∧
  (∀ q, (v.quad q).owner ≠ some k → QuadKept v q u) ∧
  (∀ q < 64, (v.quad q).owner = some k → ∀ c, c / 4 = q → u.core c = (v.core c).cleared) ∧
  (∀ x, (v.part k).ownsMemory x → u.mem.byte x = 0#8 ∧ x ∉ u.mem.poison) ∧
  (∀ x, ¬ (v.part k).ownsMemory x → u.mem.byte x = v.mem.byte x) ∧
  (∀ j, Table.get u.gz GzEntry.zero j =
    if (v.part k).regs2.gzfirst ≤ j ∧ j < (v.part k).regs2.gzfirst + (v.part k).regs2.gzcount then GzEntry.zero
    else Table.get v.gz GzEntry.zero j) ∧
  u = State.concluded { v with
    mem := u.mem, gz := u.gz, cores := u.cores, quads := u.quads, parts := u.parts, objects := u.objects
    cur := if v.cur.id.part != k then v.cur else Thread.reset
    active := v.active && v.cur.id.part != k
    others := v.others.filter (fun t => t.id.part != k)
    saved := v.saved.filter (fun e => e.1.id.part != k)
    mlq := v.mlq.filter (fun o => o.part != k)
    hub := { v.hub with apertures := v.hub.apertures.filter (fun a => a.part != k) } } 0 0#64

theorem State.concluded_part (s : State) (r : Nat) (w : Word) (j : Nat) : (s.concluded r w).part j = s.part j := rfl
theorem State.concluded_quad (s : State) (r : Nat) (w : Word) (q : Nat) : (s.concluded r w).quad q = s.quad q := rfl
theorem State.concluded_core (s : State) (r : Nat) (w : Word) (c : Nat) : (s.concluded r w).core c = s.core c := rfl
theorem State.concluded_mem (s : State) (r : Nat) (w : Word) : (s.concluded r w).mem = s.mem := rfl
theorem State.concluded_gz (s : State) (r : Nat) (w : Word) : (s.concluded r w).gz = s.gz := rfl
theorem State.concluded_objs (s : State) (r : Nat) (w : Word) (j : Nat) : (s.concluded r w).objs j = s.objs j := rfl

theorem State.quiesced_part (s : State) (k : Nat) : (s.quiesced k).part k = { s.part k with state := .quiescing } :=
  (State.part_setPart ..).trans (if_pos rfl)

/-- The entry of a partition on its way out names the same memory and the same gazetteer entries. -/
theorem State.orphaned_quiesced (s : State) (k : Nat) :
    (s.quiesced k).orphaned k = { s.orphaned k with parts := (s.quiesced k).parts } := by
  unfold State.orphaned State.zeroRanges
  rw [State.quiesced_part]
  rfl

theorem destroyLeaves_eraseParts (v : State) (k : Nat) : DestroyLeaves v (((v.quiesced k).eraseParts k).concluded 0 0#64) k := by
  have hheld : ∀ q, q ∈ (v.quiesced k).quadsHeld k ↔ q < 64 ∧ (v.quad q).owner = some k := (v.quiesced k).mem_quadsHeld k
  have hkept : ∀ q, (v.quad q).owner ≠ some k → q ∉ (v.quiesced k).quadsHeld k := fun q ho hq => ho ((hheld q).1 hq).2
  have hrest := (v.quiesced k).eraseParts_rest k
  rw [v.orphaned_quiesced k] at hrest
  have hmem : ((v.quiesced k).eraseParts k).mem = (v.zeroRanges (v.part k)).mem := by rw [hrest]; rfl
  have hgz : ((v.quiesced k).eraseParts k).gz = clearGz v.gz (v.part k).regs2.gzfirst (v.part k).regs2.gzcount := by
    rw [hrest]; rfl
  have hquad : ∀ q, (v.quad q).owner ≠ some k → ((v.quiesced k).eraseParts k).quad q = v.quad q :=
    fun q ho => (v.quiesced k).eraseParts_quad k (hkept q ho)
  refine ⟨fun j => ?_, fun j => ?_, fun q hq => ?_, fun q ho => ⟨(State.concluded_quad ..).trans (hquad q ho), fun c hc => ?_⟩, fun q hq ho c hc => ?_,
    fun x hx => ?_, fun x hx => ?_, fun j => ?_, ?_⟩
  · refine ((State.concluded_part ..).trans (State.eraseParts_part ..)).trans ?_
    by_cases hj : j = k
    · rw [if_pos hj, if_pos hj]
    · rw [if_neg hj, if_neg hj]
      exact (State.part_setPart ..).trans (if_neg hj)
  · exact (State.concluded_objs ..).trans (State.eraseParts_objs ..)
  · rw [State.concluded_quad]
    split
    · next ho => exact (v.quiesced k).eraseParts_owner k ((hheld q).2 ⟨hq, ho⟩)
    · next ho => rw [hquad q ho]
  · subst hc
    exact ((State.concluded_core ..).trans ((v.quiesced k).eraseParts_core k c)).trans (if_neg (hkept _ ho))
  · subst hc
    exact ((State.concluded_core ..).trans ((v.quiesced k).eraseParts_core k c)).trans (if_pos ((hheld _).2 ⟨hq, ho⟩))
  · rw [State.concluded_mem, hmem]
    exact ⟨(v.zeroRanges_byte (v.part k) x).1 hx, v.zeroRanges_poison (v.part k) hx⟩
  · rw [State.concluded_mem, hmem]
    exact (v.zeroRanges_byte (v.part k) x).2 hx
  · rw [State.concluded_gz, hgz]
    exact Table.get_clearGz ..
  · clear hquad
    generalize (v.quiesced k).eraseParts k = e at hrest hmem hgz ⊢
    show e.concluded 0 0#64 = State.concluded { v with
      mem := e.mem, gz := e.gz, cores := e.cores, quads := e.quads, parts := e.parts, objects := e.objects
      cur := if v.cur.id.part != k then v.cur else Thread.reset
      active := v.active && v.cur.id.part != k
      others := v.others.filter (fun t => t.id.part != k)
      saved := v.saved.filter (fun e => e.1.id.part != k)
      mlq := v.mlq.filter (fun o => o.part != k)
      hub := { v.hub with apertures := v.hub.apertures.filter (fun a => a.part != k) } } 0 0#64
    rw [hmem, hgz]
    exact congrArg (fun x => State.concluded x 0 0#64) hrest

theorem destroyLeaves_of_idle (v : State) (k : Nat) (i : Instr) (h : ∀ c ∈ v.cmds, c.thread.part ≠ k) :
    DestroyLeaves v (if (v.quiesced k).partCmds k then (v.quiesced k).push i
      else ((v.quiesced k).eraseParts k).conclude 0 0#64) k := by
  have hno : ¬ (v.quiesced k).partCmds k = true := fun hx => by
    obtain ⟨c, hc, hp⟩ := ((v.quiesced k).partCmds_iff k).1 hx
    exact h c hc hp
  rw [if_neg hno, State.conclude_zero]
  exact destroyLeaves_eraseParts v k

/-- State x is what RESIZE leaves of state s, its hardware checked where b is, the quads that go still to be given back. -/
def ResizeLeaves (s b x : State) (k : Nat) (mask : Word) : Prop :=
  (∀ q ∈ s.newQuads k mask, QuadCleared s k q x) ∧ (∀ q, q ∉ s.newQuads k mask → QuadKept s q x) ∧
  (∀ j, x.part j = if j = k then { s.part k with quads := mask } else s.part j) ∧
  x = { b with parts := x.parts, quads := x.quads, cores := x.cores }

theorem resizeLeaves_resized (s b : State) (k : Nat) (mask : Word) (hq : ∀ q, b.quad q = s.quad q) (hc : ∀ c, b.core c = s.core c)
    (hp : ∀ j, b.part j = s.part j) : ResizeLeaves s b (s.resized b k mask) k mask := by
  refine ⟨fun q h => ⟨(s.resized_quad b k mask hq q).trans (if_pos h), fun c hcq => ?_⟩,
    fun q h => ⟨(s.resized_quad b k mask hq q).trans (if_neg h), fun c hcq => ?_⟩, s.resized_part b k mask hp, s.resized_rest b k mask⟩
  all_goals
    subst hcq
    refine (s.resized_core b k mask hc c).trans ?_
  · exact if_pos h
  · exact if_neg h

end Sys2Proof.Machine
end

section
/-! How CREATE, DESTROY, RESIZE and FENCEQ end while a request is carried out (R502, R503). -/
namespace Sys2Proof.Machine

section
variable {s : State} (m : Master) (hb : s.hub.pf.reqState = .busy)
include hb

theorem create_granted (hp : (s.arg 0).toNat < 32) (hf : s.createForm) (ha : (s.part (s.arg 0).toNat).state = .absent)
    (hq : ∀ q ∈ quadsOf (s.arg 1), s.quadFree q = true) (hroom : ∃ k, s.freeRange (s.arg 2).toNat k) :
    (s.flawed → Completes (.create m) s (fun u => u = (s.stepFailed 7).concluded 7 0#64)) ∧
    (¬ s.flawed → Completes (.create m) s (fun u => ∃ first, s.freeRange (s.arg 2).toNat first ∧ CreateLeaves s u first)) := by
  obtain ⟨f, he, -, -, h3⟩ := create_body s m
  obtain ⟨g, first, hrun, hfirst, hg⟩ := (h3 hp hf ha).2 hq hroom
  refine ⟨fun hfl => completes_of_busy he hb (hrun.trans (State.carryOutStep_flawed hfl 7 _)), fun hfl => completes_of_busy he hb ?_⟩
  rw [hrun, State.carryOutStep_sound hfl, hg, State.conclude_done]
  exact ⟨first, hfirst, createLeaves_created s first⟩

/-- DESTROY does at once what it does to a partition on its way out, and to any other where the hardware bears it. -/
theorem destroy_goes {P : State → State → Prop} (hp : (s.arg 0).toNat < 32) (ha : (s.part (s.arg 0).toNat).state ≠ .absent)
    (hP : ∀ v : State, v.cmds = s.cmds → v.inputs = s.inputs →
      P v (if (v.quiesced (s.arg 0).toNat).partCmds (s.arg 0).toNat then (v.quiesced (s.arg 0).toNat).push (.destroy m)
        else ((v.quiesced (s.arg 0).toNat).eraseParts (s.arg 0).toNat).conclude 0 0#64)) :
    ((s.part (s.arg 0).toNat).state = .quiescing → Completes (.destroy m) s (P s)) ∧
    ((s.part (s.arg 0).toNat).state ≠ .quiescing → Carries (.destroy m) s (P s.checked)) := by
  obtain ⟨f, he, -, -, h3, h4⟩ := destroy_body s m
  refine ⟨fun hq => completes_of_busy he hb ?_, fun hq => carries_of_busy he hb (h4 hp ha hq) (hP s.checked rfl rfl)⟩
  rw [h3 hp hq]
  exact hP s rfl rfl

theorem destroy_waits (hp : (s.arg 0).toNat < 32) (ha : (s.part (s.arg 0).toNat).state ≠ .absent)
    (hc : ∃ c ∈ s.cmds, c.thread.part = (s.arg 0).toNat) :
    let waits := fun (v u : State) => u = { v.quiesced (s.arg 0).toNat with inputs := s.inputs ++ [.destroy m] }
    ((s.part (s.arg 0).toNat).state = .quiescing → Completes (.destroy m) s (waits s)) ∧
    ((s.part (s.arg 0).toNat).state ≠ .quiescing → Carries (.destroy m) s (waits s.checked)) := by
  intro waits
  refine destroy_goes m hb hp ha (P := waits) fun v hv hi => ?_
  rw [if_pos (((v.quiesced _).partCmds_iff _).2 (show ∃ c ∈ v.cmds, _ by rwa [hv]))]
  simp only [waits, ← hi]
  rfl

theorem destroy_ends (hp : (s.arg 0).toNat < 32) (ha : (s.part (s.arg 0).toNat).state ≠ .absent)
    (hc : ∀ c ∈ s.cmds, c.thread.part ≠ (s.arg 0).toNat) :
    ((s.part (s.arg 0).toNat).state = .quiescing → Completes (.destroy m) s (fun u => DestroyLeaves s u (s.arg 0).toNat)) ∧
    ((s.part (s.arg 0).toNat).state ≠ .quiescing →
      Carries (.destroy m) s (fun u => DestroyLeaves s.checked u (s.arg 0).toNat)) :=
  destroy_goes m hb hp ha (P := fun v u => DestroyLeaves v u (s.arg 0).toNat) fun v hv _ =>
    destroyLeaves_of_idle v (s.arg 0).toNat (.destroy m) (by rwa [hv])

theorem resize_granted (hp : (s.arg 0).toNat < 32) (hm : s.arg 1 ≠ 0#64) (ha : (s.part (s.arg 0).toNat).state ≠ .absent)
    (hq : ∀ q ∈ s.newQuads (s.arg 0).toNat (s.arg 1), s.quadFree q = true) :
    let k := (s.arg 0).toNat
    ((s.part k).quads ≠ s.arg 1 → s.flawed → Completes (.resize m) s (fun u => u = s.checked.concluded 7 0#64)) ∧
    ((s.part k).quads = s.arg 1 ∨ ¬ s.flawed → ∃ x,
      ResizeLeaves s (if (s.part k).quads = s.arg 1 then s else s.checked) x k (s.arg 1) ∧
      Leaves (.resize m) s x k (s.goneQuads k (s.arg 1)) (fun y => y.givenBack (s.goneQuads k (s.arg 1)))) := by
  intro k
  obtain ⟨f, he, -, -, h3⟩ := resize_body s m
  obtain ⟨hsame, hsound, hfail⟩ := (h3 hp hm ha).2 hq
  refine ⟨fun hne hfl => completes_of_busy he hb ((hfail hne hfl).trans (State.conclude_zero ..)), fun hor => ?_⟩
  by_cases heq : (s.part k).quads = s.arg 1
  · rw [if_pos heq]
    exact ⟨s.resized s k (s.arg 1), resizeLeaves_resized s s k (s.arg 1) (fun _ => rfl) (fun _ => rfl) (fun _ => rfl),
      leaves_of_busy he hb (hsame heq)⟩
  · rw [if_neg heq]
    exact ⟨s.resized s.checked k (s.arg 1),
      resizeLeaves_resized s s.checked k (s.arg 1) (fun _ => rfl) (fun _ => rfl) (fun _ => rfl),
      leaves_of_busy he hb (hsound heq (hor.resolve_left heq))⟩

theorem fenceq_owned (hq : (s.arg 0).toNat < 64) {k : Nat} (ho : (s.quad (s.arg 0).toNat).owner = some k)
    (hf : (s.quad (s.arg 0).toNat).fenced = false) {fence : State → State} (hd : fence = fun y => y.fence (s.arg 0).toNat) :
    let q := (s.arg 0).toNat
    let p := s.part k
    (quadsOf p.quads = [q] → Refuses (.fenceq m) s 3) ∧
    (quadsOf p.quads ≠ [q] → p.quads.getLsbD q = true → s.flawed →
      Completes (.fenceq m) s (fun u => u = s.checked.concluded 7 0#64)) ∧
    (quadsOf p.quads ≠ [q] → ¬ p.quads.getLsbD q = true ∨ ¬ s.flawed →
      Leaves (.fenceq m) s ((if p.quads.getLsbD q = true then s.checked else s).unmasked p k q) k [q] fence) := by
  intro q p
  subst hd
  obtain ⟨f, he, -, h2⟩ := fenceq_body s m
  obtain ⟨hone, hcheck, hgo⟩ := (h2 hq).2 k ho hf
  refine ⟨fun h1 => refuses_of_busy he hb (hone h1),
    fun h1 hh hfl => completes_of_busy he hb ((hcheck h1 hh).trans (State.carryOut_flawed hfl _)), fun h1 hor => ?_⟩
  by_cases hh : p.quads.getLsbD q = true
  · rw [if_pos hh]
    exact leaves_of_busy he hb (done := fun y => y.fence q)
      ((hcheck h1 hh).trans (State.carryOut_sound (hor.resolve_left (not_not.2 hh)) _))
  · rw [if_neg hh]
    exact leaves_of_busy he hb (done := fun y => y.fence q) (hgo h1 hh)

end

theorem State.quadFree_iff (s : State) (q : Nat) : s.quadFree q = true ↔ (s.quad q).owner = none ∧ (s.quad q).fenced = false := by
  simp only [State.quadFree, Bool.and_eq_true, Option.isNone_iff_eq_none, Bool.not_eq_true']

/-- No request acts unless one is carried out (R502). -/
theorem requests_idle {s : State} (m : Master) (h : s.hub.pf.reqState ≠ .busy) :
    ∀ i ∈ ([.create m, .destroy m, .resize m, .addmem m, .exportAperture m, .peermap m, .peerunmap m, .fenceq m, .readmit m, .retiresb m,
      .retirech m, .power m, .links m, .update m] : List Instr), Completes i s (fun u => u = s) := by
  have hidle : ∀ {i : Instr} {P : (State → State) → Prop}, (∃ f, exec i s = whenBusy s f ∧ P f) → Completes i s (fun u => u = s) :=
    fun ⟨_, he, _⟩ => completes_of_idle he h
  simp only [List.forall_mem_cons, List.not_mem_nil, false_implies, implies_true, and_true]
  exact ⟨hidle (create_body s m), hidle (destroy_body s m), hidle (resize_body s m), hidle (addmem_body s m),
    hidle (exportAperture_body s m), hidle (peermap_body s m), hidle (peerunmap_body s m), hidle (fenceq_body s m),
    hidle (readmit_body s m), hidle (retiresb_body s m), hidle (retirech_body s m), hidle (power_body s m), hidle (links_body s m),
    hidle (update_body s m)⟩

end Sys2Proof.Machine
end

section
/-! The configuration requests, all together (R502, R503). -/
namespace Sys2Proof.Machine

/-- Settles O55, request by request: each body is a chain of refusals that ends in what is carried out. -/
theorem requestEvents : Obligations.RequestEvents := by
  unfold Obligations.RequestEvents
  refine ⟨?_, ?_⟩
  · intro s m h a pn p fl w concl all fails mask quadFree refuses carries cleared moved lids requeued leaves
    obtain ⟨fc, hec, hc1, hc2, hc3⟩ := create_body s m
    obtain ⟨fd, hed, hd1, hd2, -⟩ := destroy_body s m
    obtain ⟨fr, her, hr1, hr2, hr3⟩ := resize_body s m
    obtain ⟨ff, hef, hf1, hf2⟩ := fenceq_body s m
    have hquad : ∀ q, s.quadFree q = true ↔ quadFree q := s.quadFree_iff
    refine ⟨fun x k c l hne => x.newCore_spec k c l hne, fun hidle => requests_idle m hidle, fun hb => ⟨fun hp => ?_, fun hp => ?_,
      fun hq => refuses_of_busy hef hb (hf1 hq), fun hq => ?_⟩⟩
    · exact ⟨refuses_of_busy hec hb (hc1 (.inl hp)), refuses_of_busy hed hb (hd1 hp), refuses_of_busy her hb (hr1 (.inl hp))⟩
    · intro form n free
      refine ⟨fun hf => refuses_of_busy hec hb (hc1 (.inr hf)), fun hf ha => refuses_of_busy hec hb (hc2 hp hf ha), fun hf ha ho => ?_,
        fun hf ha hfree hroom => create_granted m hb hp hf ha (fun q hq => (hquad q).2 (hfree q hq)) hroom,
        fun ha => ⟨refuses_of_busy hed hb (hd2 hp ha), fun hm => refuses_of_busy her hb (hr2 hp hm ha)⟩,
        fun hm => refuses_of_busy her hb (hr1 (.inr hm)),
        fun ha => ⟨fun hc => destroy_waits m hb hp ha hc, fun hc => destroy_ends m hb hp ha hc, fun hm => ?_⟩⟩
      · simp only [← hquad] at ho
        exact refuses_of_busy hec hb ((hc3 hp hf ha).1 ho)
      · intro new gone
        refine ⟨fun hu => refuses_of_busy her hb ((hr3 hp hm ha).1 (hu.imp fun q hq => ⟨hq.1, mt (hquad q).1 hq.2⟩)), fun hfree => ?_⟩
        obtain ⟨hfails, hdone⟩ := resize_granted m hb hp hm ha fun q hq => (hquad q).2 (hfree q hq)
        refine ⟨hfails, fun hor => ?_⟩
        obtain ⟨x, ⟨hnew, hkept, hpart, hrest⟩, hleaves⟩ := hdone hor
        exact ⟨x, hnew, hkept, hpart, hrest, hleaves⟩
    · intro q fence
      refine ⟨fun h => carries_of_busy hef hb ((hf2 hq).1 h) (State.conclude_zero ..), fun k ho hfe => ?_⟩
      have howned := fenceq_owned m hb hq ho hfe (fence := fence) rfl
      clear_value fence
      exact howned
  · intro s m hb h a pn p fl w concl fails part hub refuses carries does e base size peer granules overlaps held room blocks grants resident
    obtain ⟨fa, hea, ha1, ha2, ha3⟩ := addmem_body s m
    obtain ⟨fx, hex, hx1, hx2, hx3⟩ := exportAperture_body s m
    obtain ⟨fp, hep, hp1, hp2, hp3⟩ := peermap_body s m
    obtain ⟨fu, heu, hu1, hu2, hu3⟩ := peerunmap_body s m
    obtain ⟨fr, her, hr1, hr2⟩ := readmit_body s m
    obtain ⟨fb, heb, hb1, hb2⟩ := retiresb_body s m
    obtain ⟨fc, hec, hc1, hc2, hc3⟩ := retirech_body s m
    obtain ⟨fw, hew, hw1, hw2, hw3, hw4, hw5⟩ := power_body s m
    obtain ⟨fk, hek, hk1, hk2⟩ := links_body s m
    obtain ⟨fv, hev, hv1, hv2⟩ := update_body s m
    refine ⟨fun hpn i hi => ?_, fun hpn => ⟨?_, ?_, fun hout => ?_, fun hbase hsize => ?_⟩, ?_⟩
    · simp only [List.mem_cons, List.not_mem_nil, or_false] at hi
      rcases hi with rfl | rfl | rfl | rfl
      · exact refuses_of_busy hea hb (ha1 (.inl hpn))
      · exact refuses_of_busy hex hb (hx1 (.inl hpn))
      · exact refuses_of_busy hep hb (hp1 (.inl hpn))
      · exact refuses_of_busy heu hb (hu1 (.inl hpn))
    · intro form
      exact ⟨fun hf => refuses_of_busy hea hb (ha1 (.inr hf)), fun hf hs => refuses_of_busy hea hb (ha2 hpn hf hs),
        fun hf hs ho => refuses_of_busy hea hb ((ha3 hpn hf hs).1 ho),
        fun hf hs ho hg => does_of_busy hea hb ((ha3 hpn hf hs).2 ho hg) rfl⟩
    · intro first n holds there form i
      refine ⟨fun hn => refuses_of_busy hex hb (hx1 (.inr hn)), fun hn => ⟨fun hs => refuses_of_busy hex hb (hx2 hpn hn hs), fun hs => ?_⟩⟩
      obtain ⟨h1, h2, h3, h4, h5, h6⟩ := hx3 hpn hn hs
      have hcov : p.covers first n = true ↔ holds := p.covers_iff first n
      refine ⟨fun hz hf => refuses_of_busy hex hb (h1 hz hf), fun hz hf hc => refuses_of_busy hex hb (h2 hz hf (mt hcov.1 hc)),
        fun hz hf hc ht => refuses_of_busy hex hb (h3 hz hf (hcov.2 hc) ht),
        fun hz hf hc ht => does_of_busy hex hb (h4 hz hf (hcov.2 hc) ht) rfl,
        fun hz ht => refuses_of_busy hex hb (h5 hz ht), fun x hz ht hx => ⟨fun hr => ?_, fun hr => ?_⟩⟩
      · exact completes_of_busy hex hb ((h6 x hz ht hx).1 ((s.requestsTo_iff base).2 hr))
      · exact does_of_busy hex hb ((h6 x hz ht hx).2 (mt (s.requestsTo_iff base).1 fun ⟨q, hq, he⟩ => hr q hq he)) rfl
    · exact ⟨refuses_of_busy hep hb (hp1 (.inr hout)), refuses_of_busy heu hb (hu1 (.inr hout))⟩
    · intro hit busy
      have hin : ¬ (32 ≤ pn ∨ 1024 ≤ base ∨ 16 ≤ size) := by omega
      have hbusy : s.peerBusy pn (base, size) = true ↔ busy := s.peerBusy_iff pn (base, size)
      refine ⟨fun hs => ⟨refuses_of_busy hep hb (hp2 hin hs), refuses_of_busy heu hb (hu2 hin hs)⟩, fun hs => ?_⟩
      obtain ⟨hm1, hm2⟩ := hp3 hin hs
      obtain ⟨hn1, hn2, hn3⟩ := hu3 hin hs
      exact ⟨fun hm => refuses_of_busy hep hb (hm1 hm), fun hm => ⟨refuses_of_busy heu hb (hn1 hm), does_of_busy hep hb (hm2 hm) rfl⟩,
        fun hm hbu => completes_of_busy heu hb (hn2 hm (hbusy.2 hbu)), fun hm hbu => does_of_busy heu hb (hn3 hm (mt hbusy.1 hbu)) rfl⟩
    refine ⟨fun hq => refuses_of_busy her hb (hr1 (.inl hq)), fun hq => ⟨fun hf => refuses_of_busy her hb (hr1 (.inr hf)), fun hf => ?_⟩,
      ?_⟩
    · refine carries_of_busy her hb (hr2 hq hf) ⟨fun k => s.checked.readmitted_quad pn k, fun c => s.checked.readmitted_core pn c,
        fun k => s.checked.readmitted_part pn k, (State.conclude_zero ..).trans ?_⟩
      rw [State.readmitted_rest]
      rfl
    refine ⟨fun hf => refuses_of_busy heb hb (hb1 (by tauto)), fun h1 h2 => ?_, ?_⟩
    · obtain ⟨hused, hfree⟩ := hb2 (not_or.2 ⟨not_not.2 h1, Nat.not_le.2 h2⟩)
      exact ⟨fun hr => refuses_of_busy heb hb (hused hr), fun hr => carries_of_busy heb hb (hfree hr)
        ⟨fun x => mem_added pn x h.retiredSb, State.conclude_zero ..⟩⟩
    refine ⟨?_, ?_⟩
    · intro kind ctl form used
      exact ⟨fun hf => refuses_of_busy hec hb (hc1 hf), fun hf hu => refuses_of_busy hec hb (hc2 hf hu),
        fun hf hu => carries_of_busy hec hb (hc3 hf hu)
          ⟨fun x => mem_added (pn, kind, ctl) x h.retiredCh, State.conclude_zero ..⟩⟩
    refine ⟨fun hk => refuses_of_busy hew hb (hw1 hk), fun hk hp3 => refuses_of_busy hew hb (hw2 hk hp3), fun hk hp3 => ?_,
      fun hk hp3 => does_of_busy hew hb (hw4 hk hp3) rfl, fun hk hp3 => ?_, ?_⟩
    · refine completes_of_busy hew hb ?_
      rw [hw3 hk hp3]
      exact ⟨fun x => s.powerOff_byte x, fun x => s.mem_powerOff_poison x, State.conclude_zero ..⟩
    · refine completes_of_busy hew hb ?_
      rw [hw5 hk hp3]
      intro bad channels x stops cleared
      obtain ⟨h1, h2, -⟩ := State.powerUp_cases hp3 pn
      exact ⟨fun hb0 => (h1 hb0).trans (State.conclude_zero ..), fun hb0 hb1 => (h2 hb0 hb1).trans (State.conclude_zero ..),
        fun hb0 hb1 hb2 => State.powerUp_linkless hp3 pn hb0 hb1 hb2, fun hb0 hb1 hb2 => State.powerUp_done hp3 pn hb0 hb1 hb2⟩
    refine ⟨fun hk => refuses_of_busy hek hb (hk1 hk), fun hk hfl => ?_, fun hk hfl => ?_, fun hc => refuses_of_busy hev hb (hv1 hc),
      fun hc => ?_⟩
    · exact completes_of_busy hek hb ((hk2 hk).trans (State.carryOutStep_flawed hfl 6 _))
    · refine completes_of_busy hek hb ?_
      rw [hk2 hk, State.carryOutStep_sound hfl]
      exact s.linksDone_spec pn
    · exact carries_of_busy hev hb (hv2 hc) (State.conclude_done ..)

end Sys2Proof.Machine
end

section
/-! The decoder and the encoder: a word has one meaning (R32 to R42). -/
namespace Sys2Proof.Laws

/-- The bits of w from lo upwards are those of x. -/
def Fills (w : BitVec 32) (lo : Nat) {n : Nat} (x : BitVec n) : Prop := fld w lo n = x

/-- A joined word fills a field where its parts fill the two parts of the field. -/
theorem fills_append {m n : Nat} (w : BitVec 32) (lo : Nat) (x : BitVec m) (y : BitVec n) :
    Fills w lo (x ++ y) ↔ Fills w (lo + n) x ∧ Fills w lo y := by
  unfold Fills fld
  rw [← BitVec.extractLsb'_append_extractLsb'_eq_extractLsb' rfl]
  constructor
  · intro h
    have hx := congrArg (BitVec.extractLsb' n m) h
    have hy := congrArg (BitVec.extractLsb' 0 n) h
    rw [BitVec.extractLsb'_append_eq_left, BitVec.extractLsb'_append_eq_left] at hx
    rw [ex_lo, ex_lo] at hy
    exact ⟨hx, hy⟩
  · rintro ⟨rfl, rfl⟩
    rfl

/-- Whatever r reads from the word w encodes as w. -/
def Reads (w : BitVec 32) (r : Except DecodeError Instr) : Prop := ∀ i, r = .ok i → Fills w 0 (encode i)

theorem reads_ok (w : BitVec 32) (i : Instr) : Reads w (.ok i) ↔ Fills w 0 (encode i) :=
  ⟨fun h => h i rfl, by rintro h j ⟨⟩; exact h⟩

theorem reads_error (w : BitVec 32) (e : DecodeError) : Reads w (.error e) ↔ True := by simp [Reads]

theorem reads_need (w : BitVec 32) (ok : Bool) (i : Instr) : Reads w (need ok i) ↔ (ok = true → Fills w 0 (encode i)) := by
  cases ok <;> simp [need, reads_ok, reads_error]

theorem ne_zero_iff_eq_one (x : BitVec 1) : ¬ x = 0#1 ↔ x = 1#1 := by decide +revert

variable {w : BitVec 32}

theorem reads_decodeASide (h31 : fld w 31 1 = 0#1) : Reads w (decodeASide w) := by
  unfold decodeASide
  split
  all_goals simp only [decodeInt, decodeAddi, decodeImm, decodeHi, decodePcadd, decodeLd, decodeSt, decodeBr, decodeJal, decodeJalr,
    decodeLoop, decodeQue, decodeFps, decodeAmo, decodeSync, decodeSbar, decodeSys, decodeSysx, decodeLnch,
    decodeHctl, decodeStg, decodeEng, decodeEngb, decodeAtt, decodeVld, decodeVst, decodeVlds, decodeVamo,
    decodeSpm, decodeHop, decodeVtxn, decodeGeo, decodeMvld, decodeVcfg, decodeSettypei, reads_error]
  all_goals repeat' split
  all_goals simp only [reads_need, reads_ok, reads_error, beq_iff_eq, Bool.and_eq_true]
  all_goals unfold encode; simp -index only [fills_append, Nat.reduceAdd]; simp_all +contextual [Fills, ne_zero_iff_eq_one]

theorem reads_decodeESide : Reads w (decodeESide w) := by
  unfold decodeESide
  split
  all_goals simp only [decodeVint, decodeVints, decodeVfp, decodeVfps, decodeVcmp, decodePred, decodePerm, decodeVred, decodeVcpx,
    decodeVcvt, decodeMvp, decodeMvu, decodeMvm, decodeMvs, decodeMat, decodeVtok, reads_error]
  all_goals repeat' split
  all_goals simp only [reads_need, reads_ok, reads_error, beq_iff_eq, Bool.and_eq_true]
  all_goals unfold encode; simp -index only [fills_append, Nat.reduceAdd]; simp_all +contextual [Fills]

theorem reads_decode (w : BitVec 32) : Reads w (decode w) := by
  have hf : Reads w (decodeFields w) := by
    unfold decodeFields
    split
    · split
      · next h => exact reads_decodeASide (by simpa using h)
      · exact (reads_error ..).2 trivial
    · split
      · exact reads_decodeESide
      · exact (reads_error ..).2 trivial
  unfold decode
  split
  · next i hi =>
    split
    · exact (reads_ok ..).2 (hf i hi)
    · exact (reads_error ..).2 trivial
  · exact (reads_error ..).2 trivial

/-- The word 0, with the reserved major 0 (R34), decodes to nothing. -/
theorem decode_zero : decode 0#32 = .error .reservedMajor := by rfl

/-- An event has no word of its own: its encoding is 0. -/
theorem encode_of_event {i : Instr} (h : i.hasWord = false) : encode i = 0#32 := by
  cases i <;> cases h <;> rfl

theorem wellFormed_of_decode {w : BitVec 32} {i : Instr} (h : decode w = .ok i) : i.wellFormed = true := by
  unfold decode at h
  split at h
  · split at h
    · next hw => cases h; exact hw
    · cases h
  · cases h

theorem encode_of_decode {w : BitVec 32} {i : Instr} (h : decode w = .ok i) : encode i = w :=
  (reads_decode w i h).symm.trans (ex_all w)

theorem hasWord_of_decode {w : BitVec 32} {i : Instr} (h : decode w = .ok i) : i.hasWord = true := by
  by_contra hn
  have hw : w = 0#32 := (encode_of_decode h).symm.trans (encode_of_event (by simpa using hn))
  rw [hw, decode_zero] at h
  cases h

/-- Settles O3: each branch of the decoder has checked every part of the word that its instruction encodes. -/
theorem encodeInvertsDecode : Obligations.EncodeInvertsDecode :=
  fun _ _ h => ⟨hasWord_of_decode h, wellFormed_of_decode h, encode_of_decode h⟩

/-- Settles O1: the decoder evaluates on each printed word to the instruction named. -/
theorem decodeSpecWords : Obligations.DecodeSpecWords := by
  unfold Obligations.DecodeSpecWords
  exact ⟨rfl, rfl, rfl, rfl, rfl, rfl, rfl, rfl, rfl, rfl, rfl, rfl, rfl, rfl, rfl, rfl, rfl, rfl⟩

/-- Settles O2: the laws of the single instructions, in the order of the constructors. -/
theorem decodeInvertsEncode : Obligations.DecodeInvertsEncode := by
  intro i
  exact i.casesOn (motive := Coded.Statement)
    Coded.add Coded.sub Coded.and Coded.or Coded.xor Coded.sll Coded.srl Coded.sra Coded.mul Coded.mulh
    Coded.mulhu Coded.div Coded.divu Coded.rem Coded.remu Coded.min Coded.max Coded.minu Coded.maxu Coded.slt
    Coded.sltu Coded.addv Coded.subv Coded.clz Coded.popc Coded.addi Coded.andi Coded.ori Coded.xori Coded.slti
    Coded.sltiu Coded.slli Coded.srli Coded.srai Coded.hi Coded.pcadd Coded.lb Coded.lh Coded.lw Coded.ld
    Coded.lbu Coded.lhu Coded.lwu Coded.ldk Coded.sb Coded.sh Coded.sw Coded.sd Coded.beq Coded.bne Coded.blt
    Coded.bge Coded.bltu Coded.bgeu Coded.jal Coded.jalr Coded.loop0 Coded.loop1 Coded.loopi0 Coded.loopi1
    Coded.lexit0 Coded.lexit1 Coded.qpop Coded.qcnt Coded.qdrain Coded.fadd Coded.fsub Coded.fmul Coded.fdiv
    Coded.fsqrt Coded.fmin Coded.fmax Coded.feq Coded.flt Coded.fle Coded.fcvtfi Coded.fcvtif Coded.fcvtff
    Coded.fclass Coded.fma Coded.amoswap Coded.amoadd Coded.amoand Coded.amoor Coded.amoxor Coded.amomin
    Coded.amomax Coded.amominu Coded.amomaxu Coded.amocas Coded.lda Coded.stl Coded.amofadd Coded.fence
    Coded.pfence Coded.bar Coded.sbar Coded.srr Coded.srw Coded.srs Coded.src Coded.trap Coded.breakpoint
    Coded.tret Coded.uret Coded.wfe Coded.vtinv Coded.ptinv Coded.ctxsave Coded.ctxload Coded.launch
    Coded.launchc Coded.lwait Coded.yield Coded.lstat Coded.endThread Coded.hclaim Coded.hfree Coded.hstat
    Coded.hdrain Coded.ldt Coded.stt Coded.txn Coded.stqry Coded.stload Coded.stbind Coded.stunbind Coded.cpy
    Coded.ecwait Coded.wbld Coded.acstm Coded.acldm Coded.engb Coded.attach Coded.detach Coded.vld
    Coded.vldStrided Coded.vldIndexed Coded.vldOrd Coded.vst Coded.vstStrided Coded.vstIndexed Coded.vstOrd
    Coded.vldff Coded.vldm Coded.vldb Coded.vstm Coded.vamoadd Coded.vamomin Coded.vamomax Coded.vamofadd
    Coded.spld Coded.spst Coded.spldu Coded.spstu Coded.hins Coded.hprb Coded.hdel Coded.hacc Coded.hamin
    Coded.hamax Coded.hupd Coded.vtxn Coded.boxx Coded.trix Coded.mlins Coded.mlins2 Coded.mlrslv Coded.mlclr
    Coded.mlcfg Coded.mld Coded.mldp Coded.mst Coded.mstp Coded.setvl Coded.settype Coded.settypei
    Coded.queueDeadlock Coded.wfeTimeout Coded.stagedResend Coded.commandComplete Coded.tokenDeadlock
    Coded.mlInsertion Coded.mlResolveApply Coded.mlClearApply Coded.setvlReevaluation Coded.bootLaunch
    Coded.partitionUnitTake Coded.gateReoffer Coded.threadDispatch Coded.recordAging Coded.launchComplete
    Coded.nodeFlush Coded.laneReclaim Coded.governorEvaluation Coded.preemption Coded.resume Coded.peerRequest
    Coded.peerResend Coded.peerRetryReply Coded.linkError Coded.flitCrcRetry Coded.crinikLaneFailure
    Coded.crinikPortLoss Coded.hostRequest Coded.softError Coded.eccCorrected Coded.uncorrectableError
    Coded.fatalDeviceError Coded.heartbeat Coded.takeoverExpiry Coded.ownershipWrite Coded.modidWrite
    Coded.registerWrite Coded.create Coded.destroy Coded.resize Coded.addmem Coded.exportAperture Coded.peermap
    Coded.peerunmap Coded.fenceq Coded.readmit Coded.retiresb Coded.retirech Coded.power Coded.links
    Coded.update Coded.seize Coded.handback Coded.requestComplete Coded.imageSwitch Coded.spdmGetMeasurements
    Coded.spdmChallenge Coded.spdmKeyExchange Coded.pldmMonitoring Coded.pldmFirmwareUpdate Coded.auxPowerUp
    Coded.mainPowerUp Coded.illegalWord Coded.dieToDieLinkRetry Coded.replyAcknowledgement Coded.vadd Coded.vsub
    Coded.vmul Coded.vmulh Coded.vmin Coded.vmax Coded.vminu Coded.vmaxu Coded.vand Coded.vor Coded.vxor
    Coded.vsll Coded.vsrl Coded.vsra Coded.vmacc Coded.vdiv Coded.vaddsat Coded.vsubsat Coded.vintsVadd
    Coded.vintsVsub Coded.vintsVmul Coded.vintsVmulh Coded.vintsVmin Coded.vintsVmax Coded.vintsVminu
    Coded.vintsVmaxu Coded.vintsVand Coded.vintsVor Coded.vintsVxor Coded.vintsVsll Coded.vintsVsrl
    Coded.vintsVsra Coded.vintsVmacc Coded.vintsVdiv Coded.vintsVaddsat Coded.vintsVsubsat Coded.vfadd
    Coded.vfsub Coded.vfmul Coded.vfdiv Coded.vfsqrt Coded.vfma Coded.vfms Coded.vfmin Coded.vfmax Coded.vfabs
    Coded.vfneg Coded.vfpsVfadd Coded.vfpsVfsub Coded.vfpsVfmul Coded.vfpsVfdiv Coded.vfpsVfma Coded.vfpsVfms
    Coded.vfpsVfmin Coded.vfpsVfmax Coded.vcmpEq Coded.vcmpNe Coded.vcmpLt Coded.vcmpGe Coded.vcmpLe
    Coded.vcmpGt Coded.vcmpUn Coded.pand Coded.por Coded.pxor Coded.pandn Coded.pnot Coded.plead Coded.pthru
    Coded.ppre Coded.pcnt Coded.pany Coded.pset Coded.pclr Coded.pgetf Coded.vslup Coded.vsldn Coded.vslupi
    Coded.vsldni Coded.vperm Coded.vcomp Coded.vexpd Coded.vmerge Coded.vbcast Coded.vextr Coded.vins
    Coded.viota Coded.vid Coded.vredsum Coded.vredmin Coded.vredmax Coded.vfredo Coded.vfredt Coded.vfredmin
    Coded.vfredmax Coded.vcmul Coded.vcmac Coded.vcmulc Coded.vcabs2 Coded.vcvt Coded.vscale Coded.vqmax
    Coded.mgp Coded.mwdg Coded.mdot Coded.mlct Coded.mjoin Coded.msand Coded.mcomm Coded.mrev Coded.mdual
    Coded.mgrd Coded.mnrm2 Coded.mnrmi Coded.mnormz Coded.mexpb Coded.mlogm Coded.mmov Coded.msetm Coded.mgetm
    Coded.mclean Coded.mfromv Coded.mtov Coded.madd Coded.msub Coded.mscal Coded.mconj Coded.minvol Coded.mxac
    Coded.mxacs Coded.mzero Coded.acld Coded.acst Coded.mchk Coded.vtok
end Sys2Proof.Laws
end

section
/-! The state right after reset (R47, R48, R67, R51, R142, R387, R470, R500, R515). -/
namespace Sys2Proof.Machine

theorem Thread.reset_readS (r : BitVec 5) : Thread.reset.readS r = 0#64 := by
  unfold Thread.readS; split <;> rfl

/-- Settles O57: every clause reads off what reset puts in place. -/
theorem resetValues : Obligations.ResetValues := by
  unfold Obligations.ResetValues
  refine ⟨fun k => ⟨rfl, rfl, rfl, rfl, rfl, rfl⟩, rfl, rfl, rfl, rfl, rfl, rfl, rfl, rfl, rfl, rfl, rfl, rfl, rfl, rfl, rfl, rfl, rfl,
    Thread.reset_readS, fun k => rfl, fun a => rfl, fun s => ⟨rfl, fun v => rfl, rfl⟩⟩
end Sys2Proof.Machine
end

section
/-! TRAP, BREAKPOINT and the returns (R46, R108, R203, R477, R478). -/
namespace Sys2Proof.Machine

/-- An A-side word whose body has had its effect and then traps takes the trap at once where the E-side is idle. -/
theorem aside_after {fr : Bool} {fin : State → State} {body : State → Except Stop State} {s u : State} {x : Trap}
    (hi : s.idle) (hb : body s = .error (.after x u)) : aside fr fin body s = .next (takeTrap u x) := by
  unfold aside asideAs
  rw [hi.1]
  have : s.cur.trapPending = false := by simp [Thread.trapPending, hi.2]
  simp [this, hb, finishWith, trapWhen, hi.2]

/-- The W pops that a return to target keeps (R46). -/
theorem get_wpops_completeReturn (target : Word) (ri : Bool) (s : State) (l : Nat) :
    Table.get (completeReturn target ri s).cur.prog.wpops none l =
      match Table.get s.cur.prog.wpops none l with
      | some e => if l = s.cur.level ∧ e.1 ≠ target then none else some e
      | none => none := by
  show Table.get (match Table.get s.cur.prog.wpops none s.cur.level with
    | some e => if e.1 = target then s.cur.prog.wpops else Table.set s.cur.prog.wpops none s.cur.level none
    | none => s.cur.prog.wpops) none l = _
  cases hl : Table.get s.cur.prog.wpops none s.cur.level with
  | none =>
    cases h : Table.get s.cur.prog.wpops none l with
    | none => simp
    | some e =>
      have : l ≠ s.cur.level := by rintro rfl; simp [hl] at h
      simp [this]
  | some e =>
    by_cases he : e.1 = target
    · simp only [he, if_true]
      cases h : Table.get s.cur.prog.wpops none l with
      | none => rfl
      | some f =>
        have : ¬ (l = s.cur.level ∧ f.1 ≠ target) := by
          rintro ⟨rfl, hf⟩
          rw [hl] at h
          cases h
          exact hf he
        simp [this]
    · simp only [he, if_false, Table.get_set]
      by_cases h : l = s.cur.level
      · subst h; simp [hl, he]
      · simp only [h, if_false, false_and]
        cases Table.get s.cur.prog.wpops none l <;> rfl

/-- Clearing bit 2 of a word. -/
theorem setBits_two_clear (x : Word) : setBits x 2 1 0 = x &&& ~~~4#64 := by
  simp [setBits, w64]

/-- The low two bits of a word as a number. -/
theorem bitsAt_low_two (x : Nat) : bitsAt x 0 2 = x % 4 := rfl

/-- The state that TRET's body leaves: the ring and the LS of before the trap are back, and the trap's RI is clear (R478). -/
def State.lowered (s : State) : State :=
  let k := s.cur.rings.get s.cur.ring.toNat
  s.onCur (fun t =>
    { t with
      ring := BitVec.ofNat 2 (bitsAt k.status.toNat 0 2)
      user := { t.user with ustatus := mkUstatus t.user.ih (bitAt k.status.toNat 4) t.user.pls t.user.uri }
      rings := t.rings.put t.ring.toNat { k with status := setBits k.status 2 1 0 } })

/-- The state that URET's body leaves: the user handler has ended and LS is back (R108). -/
def State.handled (s : State) : State := s.onUser (fun u => { u with ustatus := mkUstatus false u.pls false false })

section
variable {s : State} (hi : s.idle)
include hi

theorem exec_tret (h : ¬ (s.cur.ring.toNat = 0 ∨ s.cur.ring.toNat ≤ bitsAt (s.cur.rings.get s.cur.ring.toNat).status.toNat 0 2)) :
    exec .tret s = .next (completeReturn (s.cur.rings.get s.cur.ring.toNat).epc
      (bitAt (s.cur.rings.get s.cur.ring.toNat).status.toNat 2) s.lowered) := by
  show execTret s = _
  unfold execTret
  exact aside_ok hi.1 (.inr (State.idle_free hi).2) (if_neg (by simpa using h))

theorem exec_tret_illegal (h : s.cur.ring.toNat = 0 ∨ s.cur.ring.toNat ≤ bitsAt (s.cur.rings.get s.cur.ring.toNat).status.toNat 0 2) :
    exec .tret s = .next (takeTrap s { cause := 0x01 }) := by
  show execTret s = _
  unfold execTret
  exact aside_trap hi (if_pos (by simpa using h))

theorem exec_uret (hr : s.cur.ring = 0#2) (hu : s.cur.user.ih = true) :
    exec .uret s = .next (completeReturn s.cur.user.uepc s.cur.user.uri s.handled) := by
  show execUret s = _
  unfold execUret
  exact aside_ok hi.1 (.inr (State.idle_free hi).2) (if_neg (by simp [hr, hu]))

theorem exec_uret_illegal (h : s.cur.ring ≠ 0#2 ∨ s.cur.user.ih = false) :
    exec .uret s = .next (takeTrap s { cause := 0x01 }) := by
  show execUret s = _
  unfold execUret
  exact aside_trap hi (if_pos (by simpa using h))

theorem exec_trap (i : BitVec 11) :
    exec (.trap i) s = .next (takeTrap (s.onCur (fun t => t.retired t.pc))
      { cause := 0x16, addr := i.setWidth 64, epc := some (s.cur.pc + 4#64) }) := by
  show execTrap i s = _
  unfold execTrap
  exact aside_after hi rfl

theorem exec_breakpoint (i : BitVec 11) :
    exec (.breakpoint i) s = .next (takeTrap s { cause := 0x17, addr := i.setWidth 64 }) := by
  show execBreakpoint i s = _
  unfold execBreakpoint
  exact aside_trap hi rfl

end

theorem State.lowered_eq {s : State} (hc : 0 < s.cur.ring.toNat) :
    let c := s.cur.ring.toNat
    let k := s.cur.rings.get c
    let k' := { k with status := k.status &&& ~~~4#64 }
    s.lowered = s.onCur (fun t => { t with
      ring := BitVec.ofNat 2 (k.status.toNat % 4)
      user := { t.user with ustatus := mkUstatus t.user.ih (k.status.getLsbD 4) t.user.pls t.user.uri }
      rings := { d := if c = 1 then k' else t.rings.d, h := if c = 2 then k' else t.rings.h,
                 m := if c = 3 then k' else t.rings.m } }) := by
  intro c k k'
  unfold State.lowered State.onCur
  simp only [setBits_two_clear]
  rw [RingSet.put_eq _ hc (by omega)]
  rfl

/-- Settles O23: each word by its own equation, and a return by what it leaves of the thread and of the W pops. -/
theorem trapsAndReturns : Obligations.TrapsAndReturns := by
  unfold Obligations.TrapsAndReturns
  refine ⟨fun s i hi => ?_, fun s hi => ?_⟩
  · intro done addr
    have ha : addr = i.setWidth 64 := BitVec.ofNat_toNat ..
    rw [ha]
    exact ⟨⟨_, exec_trap hi i, rfl⟩, ⟨_, exec_breakpoint hi i, rfl⟩⟩
  · intro c k pr u b bits back k'
    have hring : c = 0 ↔ s.cur.ring = 0#2 := ⟨fun h => BitVec.eq_of_toNat_eq h, fun h => congrArg BitVec.toNat h⟩
    refine ⟨fun hc hp => ⟨_, exec_tret hi (by rw [bitsAt_low_two]; exact not_or.2 ⟨hc.ne', hp.not_ge⟩), get_wpops_completeReturn _ _ _, ?_⟩,
      fun hc => ⟨_, exec_tret_illegal hi hc, rfl⟩,
      fun hc hih => ⟨_, exec_uret hi (hring.1 hc) hih, get_wpops_completeReturn _ _ _, ?_⟩,
      fun hc => ⟨_, exec_uret_illegal hi (hc.imp_left (mt hring.2)), rfl⟩⟩
    · rw [State.lowered_eq hc]
      rfl
    · rw [← hring.1 hc]
      rfl
end Sys2Proof.Machine
end

section
/-! The integer words of the E-side on the active elements of a group (R41, R167 to R169). -/
namespace Sys2Proof.Machine

/-! ## Numbers of w bits -/

theorem vtSew_pos (vt : BitVec 32) : 0 < vtSew vt := by
  unfold vtSew sewBits
  split <;> omega

theorem sgnN_eq_bmod {w : Nat} (hw : 0 < w) (x : Nat) : sgnN w x = (x : Int).bmod (2 ^ w) := by
  obtain ⟨k, rfl⟩ : ∃ k, w = k + 1 := ⟨w - 1, by omega⟩
  have hhalf : (((2 ^ (k + 1) : Nat) : Int) + 1) / 2 = ((2 ^ k : Nat) : Int) := by
    rw [Nat.pow_succ]; omega
  have hmod : (x : Int) % ((2 ^ (k + 1) : Nat) : Int) = ((x % 2 ^ (k + 1) : Nat) : Int) := by norm_cast
  simp only [sgnN, Int.bmod, hhalf, hmod, Nat.add_sub_cancel, Int.ofNat_lt]
  push_cast
  rfl

theorem sgnN_bounds {w : Nat} (hw : 0 < w) (x : Nat) : -2 ^ (w - 1) ≤ sgnN w x ∧ sgnN w x ≤ 2 ^ (w - 1) - 1 := by
  obtain ⟨k, rfl⟩ : ∃ k, w = k + 1 := ⟨w - 1, by omega⟩
  have hlt : x % 2 ^ (k + 1) < 2 ^ (k + 1) := Nat.mod_lt _ (Nat.two_pow_pos _)
  have hp : ((2 : Int) ^ k) = ((2 ^ k : Nat) : Int) := by norm_cast
  have hp1 : ((2 : Int) ^ (k + 1)) = ((2 ^ (k + 1) : Nat) : Int) := by norm_cast
  have hs : 2 ^ (k + 1) = 2 * 2 ^ k := Nat.pow_succ'
  simp only [sgnN, Nat.add_sub_cancel, hp, hp1]
  split <;> omega

/-- A signed quotient that lies above the range is 2^(w-1), the quotient of the smallest number by -1 (R168). -/
theorem tdiv_overflow {m : Nat} {x y : Int} (hx : -(m : Int) ≤ x) (hx' : x ≤ m) (h : (m : Int) - 1 < x.tdiv y) : x.tdiv y = m := by
  have hle : (x.tdiv y).natAbs ≤ x.natAbs := by
    rw [Int.natAbs_tdiv]; exact Nat.div_le_self ..
  omega

section
variable {w : Nat} {int sat : Bool} {z x y : Nat}

theorem IntArgs.val_eq (hw : 0 < w) {n : Nat} (hn : n < 2 ^ w) :
    (⟨w, int, sat, z, x, y⟩ : IntArgs).val n = if int then (n : Int).bmod (2 ^ w) else (n : Int) := by
  simp only [IntArgs.val, sgnN_eq_bmod hw, bitsAt, Nat.shiftRight_zero, Nat.mod_eq_of_lt hn]

theorem clampInt_eq (v : Int) : clampInt int w v =
    (max (intMin int w) (min (intMax int w) v) % 2 ^ w).toNat := by
  have hle : intMin int w ≤ intMax int w := by
    have h1 : (0 : Int) < 2 ^ (w - 1) := by positivity
    have h2 : (0 : Int) < 2 ^ w := by positivity
    cases int <;> simp only [intMin, intMax] <;> omega
  unfold clampInt wrapN
  congr 2
  split_ifs <;> omega

theorem wrapN_eq (v : Int) : wrapN w v = (v % 2 ^ w).toNat := rfl

theorem IntArgs.fit_eq (v : Int) : (⟨w, int, sat, z, x, y⟩ : IntArgs).fit v =
    if sat then (max (intMin int w) (min (intMax int w) v) % 2 ^ w).toNat else (v % 2 ^ w).toNat := by
  simp only [IntArgs.fit, clampInt_eq, wrapN_eq]

theorem IntArgs.sh_eq (hy : y < 2 ^ w) : (⟨w, int, sat, z, x, y⟩ : IntArgs).sh = y % w := by
  simp only [IntArgs.sh, bitsAt, Nat.shiftRight_zero, Nat.mod_eq_of_lt hy]

/-- The quotient that overflows wraps to the pattern of 2^(w-1) (R168). -/
theorem wrapN_tdiv (hw : 0 < w) (hq : intMax true w < (sgnN w x).tdiv (sgnN w y)) :
    wrapN w ((sgnN w x).tdiv (sgnN w y)) = 2 ^ (w - 1) := by
  obtain ⟨h1, h2⟩ := sgnN_bounds hw x
  have hp : ((2 : Int) ^ (w - 1)) = ((2 ^ (w - 1) : Nat) : Int) := by norm_cast
  simp only [intMax, if_true, hp] at h1 h2 hq
  rw [tdiv_overflow h1 (by omega) hq, wrapN_eq]
  have hlt : (2 ^ (w - 1) : Nat) < 2 ^ w := Nat.pow_lt_pow_right (by decide) (by omega)
  norm_cast
  exact Nat.mod_eq_of_lt hlt

/-- VDIV with its overflow written out (R168). -/
theorem vDiv_eq (hw : 0 < w) (a : IntArgs) (ha : a.w = w) :
    vDiv a = if a.val a.b = 0 then 2 ^ w - 1
      else if a.int = true ∧ intMax a.int w < (a.val a.a).tdiv (a.val a.b) then
        (if a.sat then wrapN w (intMax a.int w) else 2 ^ (w - 1))
      else wrapN w ((a.val a.a).tdiv (a.val a.b)) := by
  obtain ⟨w', int, sat, z, x, y⟩ := a
  subst ha
  unfold vDiv
  cases int with
  | false => simp
  | true =>
    refine if_congr Iff.rfl rfl ?_
    by_cases h : intMax true w' < (sgnN w' x).tdiv (sgnN w' y)
    · simp [IntArgs.val, h, wrapN_tdiv hw h]
    · simp [IntArgs.val, h]

end

/-! ## A word and its scalar form -/

/-- What both forms of an integer operation do where the vector form reads group b and the scalar form register sB: f of the old
destination and the operands on every active element, or ILLEGAL where vtype names no integer format. -/
def Integer (vv vs : Instr) (d a b g : BitVec 5) (f : Nat → Nat → Nat → Nat) (s : State) : Prop :=
  let c := s.cur.conf
  let w := vtSew c.vtype
  let el := fun (r : BitVec 5) (i : Nat) => s.cur.vr.elem c.grant w r.toNat i
  let ws := fun (y : Nat → Nat) => groupWrites c.grant w d.toNat ((s.activeIn g c.vl).map (fun i => (i, f (el d i) (el a i) (y i))))
  (vtFmt c.vtype ≤ 1 → Computes vv (ws (el b)) 0 s ∧ Computes vs (ws (fun _ => (s.readS b).toNat % 2 ^ w)) 0 s) ∧
  (1 < vtFmt c.vtype → Raises vv 0x01 s ∧ Raises vs 0x01 s)

/-- A word that needs no rows and no tokens and is not MCHK. -/
structure Plain (i : Instr) : Prop where
  rows : needsRows i = false := by rfl
  pop : (tokensOf i).1 = false := by rfl
  push : (tokensOf i).2.1 = false := by rfl
  unchecked : ∀ c d e w t, i ≠ .mchk c d e w t := by nofun

theorem State.raise_zero (s : State) : s.raise 0 = s := by
  show s.onUser (fun u => { u with fflags := u.fflags ||| 0#64 }) = s
  simp only [BitVec.or_zero]
  rfl

/-- A plain word alone, its checks passed, whose effect writes registers and raises flags. -/
theorem computes_of_effect {s : State} (hi : s.idle) {i : Instr} {sa sb : Word} {ws : List RegWrite} {fl : Nat}
    (hw : s.esideWord i = some (0#1, sa, sb, true)) (hp : Plain i)
    (he : effect i (soloConvoy i sa sb s) ⟨i, sa, sb, s.cur.conf.fmask, s.cur.mat.chk⟩ (soloState s (soloConvoy i sa sb s)) =
      .done (((soloState s (soloConvoy i sa sb s)).applyRegs ws).raise fl)) : Computes i ws fl s :=
  ⟨_, (esideWord_exec hw).trans (eside_done hi (by simp [hp.rows]) hp.unchecked ⟨hp.pop, hp.push⟩ he), retire_regs ws fl hi⟩

theorem raises_illegal {s : State} (hi : s.idle) {i : Instr} {c : BitVec 1} {sa sb : Word}
    (hw : s.esideWord i = some (c, sa, sb, false)) : Raises i 0x01 s :=
  ⟨_, (esideWord_exec hw).trans (eside_illegal hi), rfl⟩

/-- An integer operation in both its forms (R41, R167). -/
theorem integer_word {s : State} (hi : s.idle) {vv vs : Instr} {d a b g : BitVec 5} {op : IntArgs → Nat} {f : Nat → Nat → Nat → Nat}
    (hvv : s.esideWord vv = some (0#1, 0#64, 0#64, vintLegal s.vt)) (hvs : s.esideWord vs = some (0#1, 0#64, s.readS b, vintLegal s.vt))
    (hpv : Plain vv) (hps : Plain vs) (hev : ∀ v m u, effect vv v m u = vintVV op v d a b g u)
    (hes : ∀ v m u, effect vs v m u = vintVS op v m d a g u)
    (hop : ∀ {z x y : Nat}, z < 2 ^ vtSew s.vt → x < 2 ^ vtSew s.vt → y < 2 ^ vtSew s.vt →
      op ⟨vtSew s.vt, decide (vtFmt s.vt = 0), vtSat s.vt, z, x, y⟩ = f z x y) :
    Integer vv vs d a b g f s := by
  let el := fun (r : BitVec 5) (i : Nat) => s.cur.vr.elem s.cur.conf.grant (vtSew s.vt) r.toNat i
  have hel : ∀ r i, el r i < 2 ^ vtSew s.vt := fun r i => VRegs.elem_lt ..
  refine ⟨fun h => ?_, fun h => ?_⟩
  · have hl : vintLegal s.vt = true := decide_eq_true h
    rw [hl] at hvv hvs
    refine ⟨computes_of_effect hi hvv hpv ?_, computes_of_effect hi hvs hps ?_⟩
    · rw [hev, State.raise_zero]
      have hm : ∀ is : List Nat, (is.map fun i => (i, op ⟨vtSew s.vt, decide (vtFmt s.vt = 0), vtSat s.vt, el d i, el a i, el b i⟩)) =
          is.map fun i => (i, f (el d i) (el a i) (el b i)) := fun is =>
        List.map_congr_left fun i _ => by rw [hop (hel d i) (hel a i) (hel b i)]
      exact congrArg (fun l => Eff.done ((soloState s _).applyRegs (groupWrites _ _ _ l))) (hm _)
    · rw [hes, State.raise_zero]
      have hm : ∀ is : List Nat, (is.map fun i => (i, op ⟨vtSew s.vt, decide (vtFmt s.vt = 0), vtSat s.vt, el d i, el a i, bitsAt (s.readS b).toNat 0 (vtSew s.vt)⟩)) =
          is.map fun i => (i, f (el d i) (el a i) ((s.readS b).toNat % 2 ^ vtSew s.vt)) := fun is =>
        List.map_congr_left fun i _ => congrArg (Prod.mk i) (hop (hel d i) (hel a i) (Nat.mod_lt _ (Nat.two_pow_pos _)))
      exact congrArg (fun l => Eff.done ((soloState s _).applyRegs (groupWrites _ _ _ l))) (hm _)
  · have hl : vintLegal s.vt = false := decide_eq_false (Nat.not_le.2 h)
    rw [hl] at hvv hvs
    exact ⟨raises_illegal hi hvv, raises_illegal hi hvs⟩

/-- Settles O45: each operation of the model, applied to the operands read as numbers, is the formula that the rule gives. -/
theorem vectorInteger : Obligations.VectorInteger := by
  unfold Obligations.VectorInteger
  intro s d a b g hi c w int sg num lo hi' clamp wrap fit el out
  have hw : 0 < w := vtSew_pos c.vtype
  have hout : ∀ (vv vs : Instr) (f : Nat → Nat → Nat → Nat), Integer vv vs d a b g f s → out vv vs f := fun _ _ _ h => h
  clear_value out
  have hwrap : ∀ v : Int, wrapN w v = wrap v := fun _ => rfl
  have hclamp : ∀ v : Int, clampInt int w v = wrap (clamp v) := clampInt_eq
  have hsg : ∀ n, sgnN w n = sg n := sgnN_eq_bmod hw
  have hnum : ∀ {z x y n : Nat}, n < 2 ^ w → (⟨w, int, vtSat c.vtype, z, x, y⟩ : IntArgs).val n = num n := fun h =>
    IntArgs.val_eq hw h
  have hfit : ∀ {z x y : Nat} (v : Int), (⟨w, int, vtSat c.vtype, z, x, y⟩ : IntArgs).fit v = fit v := fun v => IntArgs.fit_eq v
  have word : ∀ {vv vs : Instr} (op : IntArgs → Nat) {f : Nat → Nat → Nat → Nat}
      (_ : ∀ {z x y : Nat}, z < 2 ^ w → x < 2 ^ w → y < 2 ^ w → op ⟨w, int, vtSat c.vtype, z, x, y⟩ = f z x y)
      (_ : s.esideWord vv = some (0#1, 0#64, 0#64, vintLegal s.vt) := by rfl)
      (_ : s.esideWord vs = some (0#1, 0#64, s.readS b, vintLegal s.vt) := by rfl)
      (_ : Plain vv := by exact {}) (_ : Plain vs := by exact {})
      (_ : ∀ v m u, effect vv v m u = vintVV op v d a b g u := by exact fun _ _ _ => rfl)
      (_ : ∀ v m u, effect vs v m u = vintVS op v m d a g u := by exact fun _ _ _ => rfl), out vv vs f :=
    @fun _ _ _ _ h7 h1 h2 h3 h4 h5 h6 => hout _ _ _ (integer_word hi h1 h2 h3 h4 h5 h6 h7)
  clear_value num fit clamp wrap
  refine ⟨?_, ?_, ?_, ?_, ?_, ?_, ?_, ?_, ?_, ?_, ?_, ?_, ?_, ?_, ?_, ?_, ?_, ?_⟩
  · exact word vAdd fun hz hx hy => by simp only [vAdd, hfit, hnum hx, hnum hy]
  · exact word vSub fun hz hx hy => by simp only [vSub, hfit, hnum hx, hnum hy]
  · exact word vMul fun hz hx hy => by simp only [vMul, hfit, hnum hx, hnum hy]
  · exact word vMulh fun hz hx hy => by simp only [vMulh, hwrap, hnum hx, hnum hy]
  · exact word vMin fun hz hx hy => by simp only [vMin, hsg]
  · exact word vMax fun hz hx hy => by simp only [vMax, hsg]
  · exact word vMinu fun hz hx hy => rfl
  · exact word vMaxu fun hz hx hy => rfl
  · exact word vAnd fun hz hx hy => rfl
  · exact word vOr fun hz hx hy => rfl
  · exact word vXor fun hz hx hy => rfl
  · exact word vSll fun hz hx hy => by simp only [vSll, IntArgs.sh_eq hy, Nat.shiftLeft_eq]
  · exact word vSrl fun hz hx hy => by simp only [vSrl, IntArgs.sh_eq hy, Nat.shiftRight_eq_div_pow]
  · exact word vSra fun hz hx hy => by simp only [vSra, IntArgs.sh_eq hy, hwrap, hsg]
  · exact word vMacc fun hz hx hy => by simp only [vMacc, hfit, hnum hz, hnum hx, hnum hy]
  · exact word vDiv fun hz hx hy =>
      (vDiv_eq hw _ rfl).trans (by simp only [hnum hx, hnum hy, hwrap]; rfl)
  · exact word vAddsat fun hz hx hy => by simp only [vAddsat, hclamp, hnum hx, hnum hy]
  · exact word vSubsat fun hz hx hy => by simp only [vSubsat, hclamp, hnum hx, hnum hy]
end Sys2Proof.Machine
end

section
/-! The status registers: which numbers read and write, and what a write changes (R53, R54, R97, R141, R151, R470, R476). -/
namespace Sys2Proof.Machine

/-! ## Reading -/

/-- The numbers of the status registers (R53, R470). -/
def statusNumbers : List Nat :=
  [0x000, 0x001, 0x002, 0x003, 0x004, 0x010, 0x011, 0x012, 0x013, 0x014, 0x015, 0x016, 0x017, 0x018, 0x019, 0x01A, 0x01B, 0x01C,
   0x01D, 0x01E, 0x01F, 0x020, 0x021, 0x022, 0x028, 0x029, 0x02A, 0x02B, 0x030, 0x040, 0x041,
   0x100, 0x101, 0x102, 0x103, 0x104, 0x105, 0x106, 0x107, 0x200, 0x201, 0x202, 0x203, 0x204, 0x205, 0x206, 0x207,
   0x300, 0x301, 0x302, 0x303, 0x304, 0x305, 0x306, 0x307,
   0x110, 0x111, 0x112, 0x113, 0x114, 0x115, 0x116, 0x118, 0x119, 0x11A, 0x120, 0x121, 0x122, 0x123, 0x124, 0x125, 0x126, 0x127,
   0x128, 0x210, 0x211, 0x212, 0x213, 0x214, 0x215]

/-- What status register n holds, where there is one, whoever reads it. -/
def State.status (s : State) (n : Nat) : Option Word :=
  if n / 256 = 0 then userReg s n
  else if 4 ≤ n / 256 then none
  else if n % 256 < 6 then some ((s.cur.rings.get (n / 256)).read (n % 256))
  else if n % 256 < 8 then some (s.cp.regs2.defs (n / 256) (n % 256))
  else sharedReg s n

theorem map_fst_statusTable (s : State) : s.statusTable.map Prod.fst = statusNumbers := rfl

theorem mem_statusNumbers {s : State} {n : Nat} : n ∈ statusNumbers ↔ ∃ v, (n, v) ∈ s.statusTable := by
  rw [← map_fst_statusTable s]; simp

theorem Lat.word_eq (l : Lat) : l.word =
    BitVec.ofNat 64 (l.weight + 16 * (if l.pm then 1 else 0) + 256 * (List.range 8).countP (fun g => l.map.getLsbD g) + 4096 * l.share +
      65536 * l.map.toNat + 2 ^ 24 * (if l.wait then 1 else 0)) := by
  unfold Lat.word w64 b2n
  rw [List.countP_eq_length_filter]

theorem status_of_mem_statusTable (s : State) : ∀ e ∈ s.statusTable, s.status e.1 = some e.2 := by
  unfold State.statusTable
  simp only [← Lat.word_eq]
  refine List.forall_iff_forall_mem.1 ?_
  repeat' apply And.intro
  all_goals dsimp only [List.Forall]; rfl

theorem userReg_number {s : State} {n : Nat} {v : Word} (h : userReg s n = some v) : n ∈ statusNumbers := by
  unfold userReg at h
  split at h
  on_goal -1 => cases h
  all_goals decide

theorem sharedReg_number {s : State} {n : Nat} {v : Word} (h : sharedReg s n = some v) : n ∈ statusNumbers := by
  unfold sharedReg at h
  dsimp only at h
  split at h
  on_goal -1 => cases h
  all_goals decide

/-- The handler registers of the three rings (R470). -/
theorem ringReg_number : ∀ k < 4, ∀ o < 8, k ≠ 0 → 256 * k + o ∈ statusNumbers := by decide

theorem status_number {s : State} {n : Nat} {v : Word} (h : s.status n = some v) : n ∈ statusNumbers := by
  unfold State.status at h
  have ring : n / 256 ≠ 0 → ¬ 4 ≤ n / 256 → n % 256 < 8 → n ∈ statusNumbers := fun h0 h4 ho => by
    simpa only [Nat.div_add_mod] using ringReg_number (n / 256) (by omega) (n % 256) ho h0
  split_ifs at h with h0 h4 h6 h8
  · exact userReg_number h
  · exact ring h0 h4 (by omega)
  · exact ring h0 h4 h8
  · exact sharedReg_number h

/-- The status registers are those of the tables. -/
theorem status_eq_some {s : State} {n : Nat} {v : Word} : s.status n = some v ↔ (n, v) ∈ s.statusTable := by
  refine ⟨fun h => ?_, fun h => status_of_mem_statusTable s _ h⟩
  obtain ⟨w, hw⟩ := mem_statusNumbers.1 (status_number h)
  have hvw := (status_of_mem_statusTable s _ hw).symm.trans h
  cases hvw
  exact hw

/-- A read of a status register while the E-side has no work (R53, R54). -/
theorem sysRead_eq {s : State} (hq : s.cur.viq = []) (n : Nat) : sysRead s n =
    match s.status n with
    | some v => if n / 256 ≤ s.cur.ring.toNat then .ok v else .error (trapOf cIllegal)
    | none => .error (trapOf cIllegal) := by
  unfold sysRead State.status
  dsimp only
  by_cases h0 : n / 256 = 0
  · cases userReg s n <;> simp [hq, h0]
  · rw [if_neg h0, if_neg h0]
    by_cases h4 : 4 ≤ n / 256
    · rw [if_pos h4, if_pos h4]
    · rw [if_neg h4, if_neg h4]
      generalize (ite (n % 256 < 6) _ _ : Option Word) = v
      cases v <;> rfl

/-- A register of the tables that the ring may read. -/
theorem sysRead_ok {s : State} (hq : s.cur.viq = []) {n : Nat} {v : Word} :
    sysRead s n = .ok v ↔ (n, v) ∈ s.statusTable ∧ n / 256 ≤ s.cur.ring.toNat := by
  rw [sysRead_eq hq, ← status_eq_some]
  cases s.status n with
  | none => simp
  | some w => by_cases h : n / 256 ≤ s.cur.ring.toNat <;> simp [h]

/-- Any other number raises ILLEGAL. -/
theorem sysRead_illegal {s : State} (hq : s.cur.viq = []) {n : Nat}
    (h : (∀ v, (n, v) ∉ s.statusTable) ∨ s.cur.ring.toNat < n / 256) :
    sysRead s n = .error (trapOf cIllegal) := by
  rw [sysRead_eq hq]
  cases hs : s.status n with
  | none => rfl
  | some w => exact if_neg (h.resolve_left fun hn => hn w (status_eq_some.1 hs)).not_ge

/-! ## Writing -/

/-- The current thread may write v to status register n (R54, R476). -/
structure State.MayWrite (s : State) (n : Nat) (v : Word) : Prop where
  number : n ∈ statusNumbers
  ring : n / 256 ≤ s.cur.ring.toNat
  unlocked : readOnly n = false
  mask : v &&& ~~~writable n = 0#64
  range : inRange n v = true

theorem sysWrite_error {s : State} {n : Nat} {v : Word} {x : Stop} (h : sysRead s n = .error x) : sysWrite s n v = .error x := by
  unfold sysWrite
  rw [h]
  rfl

theorem sysWrite_of_read {s : State} {n : Nat} {v old : Word} (h : sysRead s n = .ok old) :
    sysWrite s n v = if readOnly n = false ∧ v &&& ~~~writable n = 0#64 ∧ inRange n v = true then .ok (setReg s n v)
      else .error (trapOf cIllegal) := by
  unfold sysWrite
  rw [h]
  cases readOnly n with
  | true => rw [if_neg fun h => Bool.noConfusion h.1]; rfl
  | false =>
    have hk : (decide (v &&& ~~~writable n = 0#64) && inRange n v) = true ↔ v &&& ~~~writable n = 0#64 ∧ inRange n v = true := by
      rw [Bool.and_eq_true, decide_eq_true_iff]
    by_cases h : v &&& ~~~writable n = 0#64 ∧ inRange n v = true
    · rw [if_pos ⟨rfl, h⟩, hk.2 h]; rfl
    · rw [if_neg fun hc => h hc.2, Bool.eq_false_of_not_eq_true (mt hk.1 h)]; rfl

theorem sysWrite_ok {s : State} (hq : s.cur.viq = []) {n : Nat} {v : Word} (h : s.MayWrite n v) :
    sysWrite s n v = .ok (setReg s n v) := by
  obtain ⟨old, hold⟩ := (mem_statusNumbers (s := s)).1 h.number
  rw [sysWrite_of_read ((sysRead_ok hq).2 ⟨hold, h.ring⟩)]
  exact if_pos ⟨h.unlocked, h.mask, h.range⟩

theorem sysWrite_illegal {s : State} (hq : s.cur.viq = []) {n : Nat} {v : Word} (h : ¬ s.MayWrite n v) :
    sysWrite s n v = .error (trapOf cIllegal) := by
  by_cases hr : n ∈ statusNumbers ∧ n / 256 ≤ s.cur.ring.toNat
  · obtain ⟨old, hold⟩ := (mem_statusNumbers (s := s)).1 hr.1
    rw [sysWrite_of_read ((sysRead_ok hq).2 ⟨hold, hr.2⟩)]
    exact if_neg fun ⟨ho, hm, hg⟩ => h ⟨hr.1, hr.2, ho, hm, hg⟩
  · exact sysWrite_error (sysRead_illegal hq
      ((not_and_or.1 hr).imp (fun hn v hv => hn (mem_statusNumbers.2 ⟨v, hv⟩)) Nat.lt_of_not_ge))


/-! ## What a write changes -/

theorem setReg_s (s : State) (n : Nat) (v : Word) : (setReg s n v).cur.s = s.cur.s := by
  have user : (setUserReg s.cur n v).s = s.cur.s := by
    unfold setUserReg
    split <;> rfl
  have shared : (setSharedReg s n v).cur = s.cur := by
    unfold setSharedReg
    split
    on_goal 16 => unfold State.redispatch; split
    all_goals rfl
  unfold setReg
  dsimp only
  split_ifs
  · exact user
  · rfl
  · rfl
  · exact congrArg Thread.s shared

/-- A change of the current thread's partition changes that one alone. -/
theorem State.setPart_spec (s : State) (p : Part) :
    s.setPart s.pn p = { s with parts := (s.setPart s.pn p).parts } ∧
      ∀ q, (s.setPart s.pn p).part q = if q = s.cur.id.part then p else s.part q :=
  ⟨rfl, fun _ => State.part_setPart ..⟩

/-- Of the reclaim intervals of a core's threads, those run that the core counts; the other timers stay (R151). -/
theorem State.mem_lanes_timers (s : State) (core : Nat) (i : Instr) : i ∈ (s.lanes core).timers ↔
    (∃ t ∈ s.onChip, t.place.core = core ∧ i = .laneReclaim t.id ∧ (s.core core).reclaims t.place.slot = true) ∨
      (i ∈ s.timers ∧ ∀ t ∈ s.onChip, t.place.core = core → i ≠ .laneReclaim t.id) := by
  have hw : i ∈ ((s.onChip.filter (fun t => t.place.core == core)).filter (fun t => (s.core core).reclaims t.place.slot)).map
      (fun t => Instr.laneReclaim t.id) ↔
      ∃ t ∈ s.onChip, t.place.core = core ∧ i = .laneReclaim t.id ∧ (s.core core).reclaims t.place.slot = true := by
    simp only [List.mem_map, List.mem_filter, beq_iff_eq]
    exact ⟨fun ⟨t, ⟨⟨h1, h2⟩, h3⟩, h4⟩ => ⟨t, h1, h2, h4.symm, h3⟩,
      fun ⟨t, h1, h2, h4, h3⟩ => ⟨t, ⟨⟨h1, h2⟩, h3⟩, h4.symm⟩⟩
  have hm : i ∉ (s.onChip.filter (fun t => t.place.core == core)).map (fun t => Instr.laneReclaim t.id) ↔
      ∀ t ∈ s.onChip, t.place.core = core → i ≠ .laneReclaim t.id := by
    simp only [List.mem_map, List.mem_filter, beq_iff_eq, not_exists, not_and]
    exact ⟨fun h t h1 h2 h3 => h t ⟨h1, h2⟩ h3.symm, fun h t h1 h3 => h t h1.1 h1.2 h3.symm⟩
  rw [← hw, ← hm]
  unfold State.lanes
  simp only [List.mem_append, List.mem_filter, Bool.or_eq_true, Bool.not_eq_true', List.contains_eq_mem, decide_eq_true_eq,
    decide_eq_false_iff_not]
  tauto

/-- A write of a weight: the entry takes it, and the core's reclaim intervals are counted anew (R141, R151). -/
theorem State.setWeight_spec (s : State) (k : Nat) (v : Word) :
    let core := s.cur.place.core
    let old := s.core core
    let u := s.setWeight k v
    u = { s with cores := u.cores, timers := u.timers } ∧ (∀ q, q ≠ core → u.core q = s.core q) ∧
      u.core core = { old with lat := (u.core core).lat } ∧
      (∀ j, (u.core core).latOf j = if j = k then { (old.latOf k) with weight := v.toNat % 16 } else old.latOf j) ∧
      ∀ i, i ∈ u.timers ↔
        (∃ t ∈ s.onChip, t.place.core = core ∧ i = .laneReclaim t.id ∧ (u.core core).reclaims t.place.slot = true) ∨
        (i ∈ s.timers ∧ ∀ t ∈ s.onChip, t.place.core = core → i ≠ .laneReclaim t.id) := by
  intro core old u
  have hcore : ∀ q, u.core q = if q = core then old.setLat k { old.latOf k with weight := bitsAt v.toNat 0 4 } else s.core q :=
    fun q => State.core_setCore ..
  have hc : u.core core = old.setLat k { old.latOf k with weight := bitsAt v.toNat 0 4 } := (hcore core).trans (if_pos rfl)
  exact ⟨rfl, fun q hq => (hcore q).trans (if_neg hq), by rw [hc]; rfl, fun j => by rw [hc, Core.latOf_setLat]; rfl,
    State.mem_lanes_timers _ _⟩

/-- A write to stkcount sends the waiting records to look for a slot (R144). -/
theorem State.redispatch_eq (s : State) (pn : Nat) : s.redispatch pn = { s with
    inputs := if ((s.part pn).records ≠ [] ∨ ∃ e ∈ s.saved, e.1.id.part = pn) ∧ Instr.threadDispatch pn ∉ s.inputs then
      s.inputs ++ [.threadDispatch pn] else s.inputs } := by
  have hiff : s.settledIn pn ↔
      ¬ (((s.part pn).records ≠ [] ∨ ∃ e ∈ s.saved, e.1.id.part = pn) ∧ Instr.threadDispatch pn ∉ s.inputs) := by
    rw [State.settledIn, not_and_or, not_or, not_not, not_not, not_exists]
    simp only [not_and]
  by_cases h : s.settledIn pn
  · rw [State.redispatch_settled h, if_neg (hiff.1 h)]
  · rw [State.redispatch_unsettled h, if_pos (not_not.1 (mt hiff.2 h))]

theorem State.setStkcount_spec (s : State) (v : Word) :
    let p := s.part s.cur.id.part
    let u := (s.onRegs (fun r => { r with stkcount := v })).redispatch s.pn
    let waiting := p.records ≠ [] ∨ ∃ e ∈ s.saved, e.1.id.part = s.cur.id.part
    u = { s with
      parts := u.parts
      inputs := if waiting ∧ Instr.threadDispatch s.cur.id.part ∉ s.inputs then s.inputs ++ [.threadDispatch s.cur.id.part]
        else s.inputs } ∧
      ∀ q, u.part q = if q = s.cur.id.part then { p with regs := { p.regs with stkcount := v } } else s.part q := by
  intro p u waiting
  have hp : ∀ q, (s.onRegs (fun r => { r with stkcount := v })).part q =
      if q = s.cur.id.part then { p with regs := { p.regs with stkcount := v } } else s.part q := fun q => State.part_setPart ..
  have hu : u = _ := State.redispatch_eq ..
  have hr : ((s.onRegs (fun r => { r with stkcount := v })).part s.pn).records = p.records := by
    rw [hp]
    simp only [State.pn, if_true]
  rw [hr] at hu
  exact ⟨by rw [hu]; rfl, fun q => by rw [hu]; exact hp q⟩

/-- A register that software may write: the values that it takes and what the write does. -/
structure StatusRow (s : State) (n : Nat) (ok : Word → Prop) (f : Word → State → Prop) : Prop where
  number : n ∈ statusNumbers := by decide
  unlocked : readOnly n = false := by rfl
  takes : ∀ v, ok v ↔ v &&& ~~~writable n = 0#64 ∧ inRange n v = true
  effect : ∀ v, f v (setReg s n v)

section
variable {s : State} {n : Nat} {f : Word → State → Prop}

/-- A register with reserved bits. -/
theorem StatusRow.masked (mask : Word) (he : ∀ v, f v (setReg s n v) := by exact fun _ => rfl) (hn : n ∈ statusNumbers := by decide)
    (ho : readOnly n = false := by rfl) (hw : writable n = mask := by rfl) (hr : ∀ v, inRange n v = true := by exact fun _ => rfl) :
    StatusRow s n (fun v => v &&& ~~~mask = 0#64) f :=
  ⟨hn, ho, fun v => by rw [hw]; exact (and_iff_left (hr v)).symm, he⟩

/-- A register with a range. -/
theorem StatusRow.ranged {ok : Word → Prop} (hr : ∀ v, inRange n v = true ↔ ok v)
    (he : ∀ v, f v (setReg s n v) := by exact fun _ => rfl) (hn : n ∈ statusNumbers := by decide)
    (ho : readOnly n = false := by rfl) (hw : writable n = BitVec.allOnes 64 := by rfl) : StatusRow s n ok f :=
  ⟨hn, ho, fun v => by rw [hw, BitVec.not_allOnes, BitVec.and_zero, hr]; exact (and_iff_right rfl).symm, he⟩

theorem StatusRow.aligned (k : Nat) (he : ∀ v, f v (setReg s n v) := by exact fun _ => rfl)
    (hr : ∀ v, inRange n v = (v.toNat % k == 0) := by exact fun _ => rfl) (hn : n ∈ statusNumbers := by decide)
    (ho : readOnly n = false := by rfl) (hw : writable n = BitVec.allOnes 64 := by rfl) : StatusRow s n (fun v => v.toNat % k = 0) f :=
  .ranged (fun v => by rw [hr, beq_iff_eq]) he hn ho hw

theorem StatusRow.bounded (k : Nat) (he : ∀ v, f v (setReg s n v) := by exact fun _ => rfl)
    (hr : ∀ v, inRange n v = decide (v.toNat ≤ k) := by exact fun _ => rfl) (hn : n ∈ statusNumbers := by decide)
    (ho : readOnly n = false := by rfl) (hw : writable n = BitVec.allOnes 64 := by rfl) : StatusRow s n (fun v => v.toNat ≤ k) f :=
  .ranged (fun v => by rw [hr, decide_eq_true_iff]) he hn ho hw

theorem StatusRow.plain (he : ∀ v, f v (setReg s n v) := by exact fun _ => rfl)
    (hr : ∀ v, inRange n v = true := by exact fun _ => rfl) (hn : n ∈ statusNumbers := by decide)
    (ho : readOnly n = false := by rfl) (hw : writable n = BitVec.allOnes 64 := by rfl) : StatusRow s n (fun _ => True) f :=
  .ranged (fun v => by simp [hr]) he hn ho hw

end

/-- The numbers of the registers that software may write. -/
def writableNumbers : List Nat :=
  [0x000, 0x001, 0x002, 0x003, 0x004, 0x013, 0x014, 0x015, 0x016, 0x017, 0x018, 0x019, 0x01A, 0x01B, 0x01C, 0x01D, 0x01E, 0x01F,
   0x020, 0x021, 0x022, 0x030,
   0x100, 0x101, 0x102, 0x103, 0x104, 0x105, 0x106, 0x107, 0x200, 0x201, 0x202, 0x203, 0x204, 0x205, 0x206, 0x207,
   0x300, 0x301, 0x302, 0x303, 0x304, 0x305, 0x306, 0x307,
   0x110, 0x111, 0x112, 0x113, 0x115, 0x118, 0x119, 0x11A, 0x120, 0x121, 0x122, 0x124, 0x125, 0x126, 0x127, 0x128, 0x212, 0x213,
   0x214]

theorem exec_srr (d : BitVec 5) (n : BitVec 12) (s : State) : exec (.srr d n) s =
    aside false complete (fun s => do
      let v ← sysRead s n.toNat
      return s.writeS d v) s := rfl

theorem exec_srw (a : BitVec 5) (n : BitVec 12) (s : State) : exec (.srw a n) s =
    aside false complete (fun s => sysWrite s n.toNat (s.readS a)) s := rfl

theorem exec_srs (d a : BitVec 5) (n : BitVec 12) (s : State) : exec (.srs d a n) s =
    aside false complete (fun s => do
      let old ← sysRead s n.toNat
      let s1 ← sysWrite s n.toNat (old ||| s.readS a)
      return s1.writeS d old) s := rfl

theorem exec_src (d a : BitVec 5) (n : BitVec 12) (s : State) : exec (.src d a n) s =
    aside false complete (fun s => do
      let old ← sysRead s n.toNat
      let s1 ← sysWrite s n.toNat (old &&& ~~~s.readS a)
      return s1.writeS d old) s := rfl

theorem mem_writableNumbers : ∀ n ∈ statusNumbers, readOnly n = false → n ∈ writableNumbers := by decide

/-! ## The words -/

section
variable {i : Instr} {s : State} {body : State → Except Stop State} (hi : s.idle) (he : exec i s = aside false complete body s)
include hi he

/-- A word that writes v to register n and old to sR where it may. -/
theorem completes_of_write {n : Nat} {v old : Word} {r : BitVec 5} {f : Word → State → Prop}
    (hb : body s = .ok ((setReg s n v).writeS r old)) (hf : f v (setReg s n v)) :
    Completes i s (fun t => t.readS r = (if r = 0#5 then 0#64 else old) ∧ (∀ k, k ≠ r → t.readS k = s.readS k) ∧
      ∃ u, f v u ∧ t = { u with cur := { u.cur.past with s := t.cur.s } }) := by
  have hw := wrote_complete r old (setReg s n v)
  have hs : ∀ k, (setReg s n v).readS k = s.readS k := fun k => by
    show (setReg s n v).cur.readS k = s.cur.readS k
    unfold Thread.readS
    rw [setReg_s]
  exact completes_of_body hi he hb ⟨hw.result, fun k hk => (hw.others k hk).trans (hs k), _, hf, hw.rest⟩

end

/-- SRS and SRC read the register, write it anew and put the old value in sD. -/
theorem changeReg_body {s : State} (hq : s.cur.viq = []) {n : Nat} {old : Word} (f : Word → Word → Word) (d a : BitVec 5)
    (hold : (n, old) ∈ s.statusTable) :
    (do
      let old ← sysRead s n
      let s1 ← sysWrite s n (f old (s.readS a))
      return s1.writeS d old : Except Stop State) =
    (do
      let s1 ← sysWrite s n (f old (s.readS a))
      return s1.writeS d old) := by
  by_cases hr : n / 256 ≤ s.cur.ring.toNat
  · rw [(sysRead_ok hq).2 ⟨hold, hr⟩]
    rfl
  · have hr := sysRead_illegal hq (.inr (Nat.lt_of_not_ge hr))
    rw [sysWrite_error hr, hr]
    rfl

/-- Settles O20: the model's table of registers is the statement's, row by row; a write that passes the checks of its row has that
row's effect. -/
theorem statusRegisters : Obligations.StatusRegisters := by
  unfold Obligations.StatusRegisters
  refine ⟨fun s d n => ⟨fun hi => ⟨fun v hv hr => ?_, fun hn => ?_⟩, fun hf hq hn => ?_⟩, ?_⟩
  · refine completes_of_body hi (exec_srr ..) (u := s.writeS d v) ?_ (wrote_complete ..)
    rw [(sysRead_ok hi.2).2 ⟨hv, hr⟩]
    rfl
  · refine traps_of_body hi (exec_srr ..) ?_
    rw [sysRead_illegal hi.2 hn]
    rfl
  · refine ⟨_, (exec_srr ..).trans (aside_wait hf.1 (.inr hf.2) (w := .other) ?_), rfl⟩
    rw [hn]
    cases hv : s.cur.viq with
    | nil => exact absurd hv hq
    | cons => simp [sysRead, userReg, hv]
  intro s d a n hi al only upTo any c pn core user loops dims ring p part regs regs2 weight stk table illegal out
  have hrow : ∀ e ∈ table, StatusRow s e.1 e.2.1 e.2.2 := by
    refine List.forall_mem_append.2 ⟨List.forall_mem_append.2 ⟨?_, ?_⟩, ?_⟩
    · refine List.forall_iff_forall_mem.1 ?_
      repeat' apply And.intro
      all_goals dsimp only [List.Forall]
      · exact .masked _
      · exact .aligned 4
      · exact .aligned 4
      · exact .masked _
      · exact .masked _
      rotate_right
      · exact .masked _
      all_goals exact .plain
    · intro e hflat
      obtain ⟨k, hk, he⟩ := List.mem_flatMap.1 hflat
      clear hflat
      obtain rfl | rfl | rfl : k = 1 ∨ k = 2 ∨ k = 3 := by simpa using hk
      all_goals
        revert e
        refine List.forall_iff_forall_mem.1 ?_
        repeat' apply And.intro
        all_goals dsimp only [List.Forall]
        · exact .masked _
        · exact .aligned 4
        · exact .aligned 4
        · exact .masked _
        · exact .aligned 1024
        · exact .plain
        · exact .aligned 4 fun _ => s.setPart_spec _
        · exact .aligned (2 ^ 20) fun _ => s.setPart_spec _
    · refine List.forall_iff_forall_mem.1 ?_
      repeat' apply And.intro
      all_goals dsimp only [List.Forall]
      iterate 4 exact .masked _ fun _ => s.setWeight_spec ..
      · exact .ranged (fun v => by simp [inRange]) fun _ => s.setPart_spec _
      · exact .aligned (2 ^ 28) fun _ => s.setPart_spec _
      · exact .aligned 64 fun _ => s.setPart_spec _
      · exact .aligned 65536 fun _ => s.setPart_spec _
      · exact .aligned 16 fun _ => s.setPart_spec _
      · exact .bounded 65536 fun _ => s.setPart_spec _
      · exact .plain fun _ => s.setPart_spec _
      · exact .aligned (2 ^ 20) fun _ => s.setPart_spec _
      · exact .plain fun _ => s.setPart_spec _
      · exact .aligned 4096 fun _ => s.setPart_spec _
      · exact .ranged (fun v => by simp [inRange, al, upTo]) fun _ => s.setPart_spec _
      · exact .bounded 65536 fun v => s.setStkcount_spec v
      · exact .aligned 32 fun _ => s.setPart_spec _
      · exact .bounded 65536 fun _ => s.setPart_spec _
      · exact .plain fun _ => s.setPart_spec _
  have hkeys : table.map Prod.fst = writableNumbers := rfl
  clear_value table
  have hmay : ∀ v, (∃ ok f, (n.toNat, ok, f) ∈ table ∧ ok v ∧ n.toNat / 256 ≤ c.ring.toNat) ↔ s.MayWrite n.toNat v := by
    intro v
    constructor
    · rintro ⟨ok, f, he, hv, hr⟩
      have h := hrow _ he
      exact ⟨h.number, hr, h.unlocked, ((h.takes v).1 hv).1, ((h.takes v).1 hv).2⟩
    · intro h
      have hm := mem_writableNumbers _ h.number h.unlocked
      rw [← hkeys] at hm
      obtain ⟨⟨m, ok, f⟩, he, rfl⟩ := List.mem_map.1 hm
      exact ⟨ok, f, he, ((hrow _ he).takes v).2 ⟨h.mask, h.range⟩, h.ring⟩
  have hout : ∀ {j : Instr} {body : State → Except Stop State} {v old : Word} {r : BitVec 5},
      exec j s = aside false complete body s →
      body s = (do
        let s1 ← sysWrite s n.toNat v
        return s1.writeS r old) → out j v old r := by
    intro j body v old r he hb
    refine ⟨fun ok f hm hv hr => completes_of_write hi he ?_ ((hrow _ hm).effect v), fun h => traps_of_body hi he ?_⟩
    · rw [hb, sysWrite_ok hi.2 ((hmay v).1 ⟨ok, f, hm, hv, hr⟩)]
      rfl
    · rw [hb, sysWrite_illegal hi.2 (mt (hmay v).2 h)]
      rfl
  have hill : ∀ {j : Instr} {body : State → Except Stop State}, exec j s = aside false complete body s →
      body s = .error (trapOf cIllegal) → illegal j := fun he hb => traps_of_body hi he hb
  clear_value out illegal
  refine ⟨hout (exec_srw ..) ?_, fun hn => ⟨hill (exec_srs ..) ?_, hill (exec_src ..) ?_⟩, fun old hold =>
    ⟨hout (exec_srs ..) (changeReg_body hi.2 (fun x y => x ||| y) d a hold),
      hout (exec_src ..) (changeReg_body hi.2 (fun x y => x &&& ~~~y) d a hold)⟩⟩
  · cases sysWrite s n.toNat (s.readS a) <;> rfl
  all_goals
    rw [sysRead_illegal hi.2 (.inl hn)]
    rfl

end Sys2Proof.Machine
end

section
/-! How convoys are framed and executed (R34 to R36, R43 to R46, R395). -/
namespace Sys2Proof.Machine

/-! ## Words inside a convoy -/

theorem trapWhen_empty {s u : State} (x : Trap) (hq : s.cur.viq = []) : trapWhen x u s = .next (takeTrap u x) := by
  unfold trapWhen
  rw [hq]
  rfl

/-- The thread frames convoy v and its E-side has no work. -/
def State.framed (s : State) (v : Convoy) : State := { s with cur := { s.cur with framing := some v, viq := [] } }

theorem State.framed_eq {s : State} {v : Convoy} (hf : s.cur.framing = some v) (hq : s.cur.viq = []) : s.framed v = s := by
  unfold State.framed
  rw [← hf, ← hq]

/-- Any word of the A-side ends the convoy being framed (R44): each looks at the framing first. -/
theorem exec_framed {s : State} {v : Convoy} {i : Instr} (hw : i.hasWord = true) (he : s.esideWord i = none)
    (hn : ∀ w, i ≠ .illegalWord w) :
    exec i (s.framed v) = .next (takeTrap (s.framed v) { cause := 0x02, eside := true, epc := some v.pc }) := by
  cases i
  case illegalWord w => exact absurd rfl (hn w)
  all_goals first
    | exact absurd hw Bool.false_ne_true
    | exact absurd he (Option.some_ne_none _)
    | exact rfl

/-- A word that is no instruction (R36). -/
theorem exec_illegalWord {s : State} (w : BitVec 32) (hq : s.cur.viq = []) : exec (.illegalWord w) s =
    .next (takeTrap s (match s.cur.framing with
      | none => { cause := 0x01, eside := decide (0x28 ≤ w.toNat / 2 ^ 25 % 64 ∧ w.toNat / 2 ^ 25 % 64 ≤ 0x37) }
      | some v => { cause := if 1 ≤ w.toNat / 2 ^ 25 % 64 ∧ w.toNat / 2 ^ 25 % 64 ≤ 0x23 then 0x02 else 0x01,
                    eside := true, epc := some v.pc })) := by
  show execIllegalWord w s = _
  unfold execIllegalWord asideMajor esideMajor majorOf
  simp only [bitsAt_eq, trapWhen_empty _ hq, ← Bool.decide_and, decide_eq_true_eq]
  cases s.cur.framing <;> rfl

/-! ## The idempotence rule (R45) -/

theorem meet_eq_false {a b : List Nat} : meet a b = false ↔ ∀ k ∈ a, k ∉ b := by
  simp [meet]

/-- The members with their pieces: none writes what an earlier one reads, nor, but for the last, what it reads itself. -/
theorem idempotent_iff (l : List (List Nat × List Nat)) (seen : List Nat) : idempotent seen l = true ↔
    ∀ pre m post, l = pre ++ m :: post →
      (∀ k ∈ m.2, k ∉ seen ∧ ∀ q ∈ pre, k ∉ q.1) ∧ (post ≠ [] → ∀ k ∈ m.2, k ∉ m.1) := by
  induction l generalizing seen with
  | nil => simp [idempotent]
  | cons x rest ih =>
    have hx : idempotent seen (x :: rest) = true ↔
        ((∀ k ∈ x.2, k ∉ seen) ∧ (rest ≠ [] → ∀ k ∈ x.2, k ∉ x.1)) ∧ idempotent (seen ++ x.1) rest = true := by
      obtain ⟨r, w⟩ := x
      simp only [idempotent, Bool.and_eq_true, Bool.not_eq_true', Bool.or_eq_true, List.isEmpty_iff, meet_eq_false, or_iff_not_imp_left]
    rw [hx, ih]
    constructor
    · rintro ⟨⟨h1, h2⟩, h3⟩ pre m post heq
      cases pre with
      | nil =>
        obtain ⟨rfl, rfl⟩ := List.cons.inj heq
        exact ⟨fun k hk => ⟨h1 k hk, nofun⟩, h2⟩
      | cons y pre =>
        obtain ⟨rfl, rfl⟩ := List.cons.inj heq
        obtain ⟨ha, hb⟩ := h3 pre m post rfl
        refine ⟨fun k hk => ?_, hb⟩
        obtain ⟨hs, hp⟩ := ha k hk
        obtain ⟨hs, hy⟩ := not_or.1 (mt List.mem_append.2 hs)
        exact ⟨hs, List.forall_mem_cons.2 ⟨hy, hp⟩⟩
    · intro h
      obtain ⟨h1, h2⟩ := h [] x rest rfl
      refine ⟨⟨fun k hk => (h1 k hk).1, h2⟩, fun pre m post heq => ?_⟩
      obtain ⟨ha, hb⟩ := h (x :: pre) m post (congrArg _ heq)
      refine ⟨fun k hk => ?_, hb⟩
      obtain ⟨hs, hp⟩ := ha k hk
      obtain ⟨hy, hp⟩ := List.forall_mem_cons.1 hp
      exact ⟨mt List.mem_append.1 (not_or.2 ⟨hs, hy⟩), hp⟩

/-- A convoy that breaks the rule. -/
theorem idempotent_eq_false {α : Type} (reads writes : α → List Nat) (all : List α) :
    idempotent [] (all.map (fun m => (reads m, writes m))) = false ↔ ∃ pre m post, all = pre ++ m :: post ∧
      ((∃ q ∈ pre, ∃ k ∈ writes m, k ∈ reads q) ∨ (post ≠ [] ∧ ∃ k ∈ writes m, k ∈ reads m)) := by
  rw [← Bool.not_eq_true, idempotent_iff]
  constructor
  · intro h
    by_contra hn
    refine h fun pre m post heq => ?_
    obtain ⟨pre, t, rfl, rfl, ht⟩ := List.map_eq_append_iff.1 heq
    obtain ⟨m, post, rfl, rfl, rfl⟩ := List.map_eq_cons_iff.1 ht
    refine ⟨fun k hk => ⟨List.not_mem_nil, fun q hq hkq => ?_⟩, fun hp k hk hkm => ?_⟩
    · obtain ⟨x, hx, rfl⟩ := List.mem_map.1 hq
      exact hn ⟨pre, m, post, rfl, .inl ⟨x, hx, k, hk, hkq⟩⟩
    · exact hn ⟨pre, m, post, rfl, .inr ⟨fun h => hp (by rw [h]; rfl), k, hk, hkm⟩⟩
  · rintro ⟨pre, m, post, rfl, hc⟩ h
    obtain ⟨h1, h2⟩ := h _ _ _ (by rw [List.map_append, List.map_cons])
    rcases hc with ⟨q, hq, k, hk, hkq⟩ | ⟨hp, k, hk, hkm⟩
    · exact (h1 k hk).2 _ (List.mem_map_of_mem hq) hkq
    · exact h2 (by simpa using hp) k hk hkm

/-! ## Framing (R43, R44) -/

/-- The convoy that a word joins: the one being framed, or a new one. -/
def State.joining (s : State) : Convoy := s.cur.framing.getD (Convoy.open s.cur)

/-- The convoy with one member more. -/
def Convoy.joined (v : Convoy) (i : Instr) (sa sb : Word) : Convoy := { v with members := v.members ++ [⟨i, sa, sb, 0, false⟩] }

theorem Thread.atLoopEnd_eq (t : Thread) : t.atLoopEnd =
    decide ((t.loops.lc1 ≠ 0#64 ∧ t.loops.le1 = t.pc) ∨ (t.loops.lc0 ≠ 0#64 ∧ t.loops.le0 = t.pc)) := by
  unfold Thread.atLoopEnd
  rw [Bool.decide_or, Bool.decide_and, Bool.decide_and, Bool.or_comm]

section
variable {i : Instr} {c : BitVec 1} {sa sb : Word} {s : State} (hq : s.cur.viq = [])
include hq

theorem convoys_empty : s.cur.convoys = 0 := by
  simp [Thread.convoys, hq]

/-- A word of the E-side where no convoy waits. -/
theorem eside_eq (ok : Bool) : eside i c sa sb ok s =
    if !ok then .next (takeTrap s { cause := 0x01, eside := true, epc := some s.joining.pc })
    else if c = 0#1 then dispatch (s.joining.joined i sa sb) s
    else if 4 ≤ (s.joining.joined i sa sb).members.length then
      .next (takeTrap s { cause := 0x02, eside := true, epc := some s.joining.pc })
    else .next { s with cur := { s.cur with
      pc := s.cur.pc + 4#64
      framing := some { s.joining.joined i sa sb with bad := s.joining.bad || s.cur.atLoopEnd }
      prog := { s.cur.prog with wait := .none, reissue := false } } } := by
  unfold eside
  dsimp only
  rw [convoys_empty hq, trapWhen_empty _ hq, trapWhen_empty _ hq]
  simp only [Nat.reduceLeDiff, decide_false, Bool.and_false]
  rfl

end

/-! ## Dispatch and the run of the members (R45, R46) -/

/-- The convoy as it enters the VIQ. -/
def State.captured (s : State) (v : Convoy) : Convoy :=
  let c := s.cur.conf
  { v with
    members := (capture c.fmask s.cur.mat.chk v.members).1, vl := c.vl, vtype := c.vtype, grant := c.grant, tgrant := c.tgrant
    popped := match Table.get s.cur.prog.wpops none s.cur.level with
      | some (pc, l) => if pc = v.pc then l else []
      | none => []
    sregs := s.cur.s, instret := s.cur.prog.instret, chk := s.cur.mat.chk }

/-- The state that its first member acts on. -/
def State.dispatched (s : State) (v : Convoy) : State :=
  { s with cur := { s.cur with
    pc := s.cur.advance.pc, loops := s.cur.advance.loops, framing := none, viq := [.convoy (s.captured v)]
    mat := { s.cur.mat with chk := (capture s.cur.conf.fmask s.cur.mat.chk v.members).2 }
    prog := { s.cur.prog with
      wait := .none, last := some s.cur.pc, reissue := false, wpops := Table.set s.cur.prog.wpops none s.cur.level none } } }

section
variable {s : State} {v : Convoy} (hq : s.cur.viq = [])
include hq

/-- A convoy that ends is checked, and else its members execute. -/
theorem dispatch_eq : dispatch v s =
    if v.bad || !idempotent [] (v.members.map (fun m => (eReads s.cur.conf.vtype s.cur.conf.grant s.cur.conf.tgrant m.instr,
        eWrites s.cur.conf.vtype s.cur.conf.grant s.cur.conf.tgrant m.instr))) then
      .next (takeTrap s { cause := 0x02, eside := true, epc := some v.pc })
    else if decide (s.cur.conf.tgrant = 0) && v.members.any (fun m => needsRows m.instr) then
      .next (takeTrap s { cause := 0x13, eside := true, epc := some v.pc })
    else .next (drain 1 0 (s.dispatched v)) := by
  unfold dispatch dispatchAs
  dsimp only
  rw [trapWhen_empty _ hq, trapWhen_empty _ hq]
  dsimp only [State.onCur]
  rw [hq, Thread.advance_eq]
  rfl

end

/-- What the members capture leaves their instructions. -/
theorem map_instr_capture (f : BitVec 4096) (chk : Bool) (l : List Member) :
    (capture f chk l).1.map Member.instr = l.map Member.instr := by
  induction l generalizing chk with
  | nil => rfl
  | cons m r ih => exact congrArg (m.instr :: ·) (ih _)

theorem length_capture (f : BitVec 4096) (chk : Bool) (l : List Member) : (capture f chk l).1.length = l.length := by
  simpa using congrArg List.length (map_instr_capture f chk l)

/-- Members with no tokens have none once dispatched. -/
theorem forall_capture {f : BitVec 4096} {chk : Bool} {l : List Member} {p : Instr → Prop} (h : ∀ m ∈ l, p m.instr) :
    ∀ m ∈ (capture f chk l).1, p m.instr := fun m hm => by
  have hi : m.instr ∈ l.map Member.instr := map_instr_capture f chk l ▸ List.mem_map_of_mem hm
  obtain ⟨x, hx, he⟩ := List.mem_map.1 hi
  exact he ▸ h x hx

/-- A word with no tokens. -/
def Tokenless (i : Instr) : Prop := (tokensOf i).1 = false ∧ (tokensOf i).2.1 = false

theorem takeTokens_tokenless {i : Instr} (h : Tokenless i) (v : Convoy) (s : State) : takeTokens v i s = some (v, s) := by
  simp [takeTokens, h.1, h.2]

/-- The convoy of which k members have executed. -/
def Convoy.after (v : Convoy) (k : Nat) : Convoy := { v with done := k }

theorem Convoy.after_done {v : Convoy} (hd : v.done = 0) : v.after 0 = v := by
  rw [← hd]
  rfl

/-- The members before the n-th, each of which has had its effect, leave the rest to run. -/
theorem runMembers_drop {ms : List Member} {v : Convoy} {run : Nat → State} (ht : ∀ m ∈ ms, Tokenless m.instr) {n : Nat}
    (hrun : ∀ k < n, ∃ m, ms[k]? = some m ∧ effect m.instr (v.after k) m (run k) = .done (run (k + 1))) :
    runMembers ms (v.after 0) (run 0) = runMembers (ms.drop n) (v.after n) (run n) := by
  induction n with
  | zero => rfl
  | succ n ih =>
    obtain ⟨m, hm, he⟩ := hrun n n.lt_succ_self
    have htok := takeTokens_tokenless (ht m (List.mem_of_getElem? hm))
    rw [ih fun k hk => hrun k (Nat.lt_succ_of_lt hk), List.drop_eq_getElem?_toList_append, hm]
    simp only [Option.toList_some, List.cons_append, List.nil_append, runMembers, htok, he, Option.isNone_some,
      Bool.false_eq_true, if_false]
    rfl

/-- A convoy alone whose members have had their effects retires. -/
theorem drain_retired {v : Convoy} {run : Nat → State} (hv : (run 0).cur.viq = [.convoy v]) (hd : v.done = 0)
    (ht : ∀ m ∈ v.members, Tokenless m.instr)
    (hrun : ∀ k < v.members.length, ∃ m, v.members[k]? = some m ∧ effect m.instr (v.after k) m (run k) = .done (run (k + 1))) :
    drain 1 0 (run 0) = retire 0 (v.after v.members.length) (run v.members.length) := by
  have := runMembers_drop ht hrun
  rw [Convoy.after_done hd, List.drop_length] at this
  rw [drain_alone hv, hd, List.drop_zero, this]
  rfl

/-- A convoy alone whose member n waits or traps. -/
theorem drain_stopped {v : Convoy} {run : Nat → State} (hv : (run 0).cur.viq = [.convoy v]) (hd : v.done = 0)
    (ht : ∀ m ∈ v.members, Tokenless m.instr) {n : Nat} {m : Member} (hm : v.members[n]? = some m)
    (hrun : ∀ k < n, ∃ m, v.members[k]? = some m ∧ effect m.instr (v.after k) m (run k) = .done (run (k + 1))) :
    match effect m.instr (v.after n) m (run n) with
    | .done _ => True
    | .block => drain 1 0 (run 0) = (run n).setEntry 0 (.convoy (v.after n))
    | .trap x => drain 1 0 (run 0) = eTrap (v.after n) x (run n)
    | .after x r => drain 1 0 (run 0) = eTrap (v.after n) x r := by
  have htok := takeTokens_tokenless (ht m (List.mem_of_getElem? hm))
  have hr := runMembers_drop ht hrun
  rw [Convoy.after_done hd, List.drop_eq_getElem?_toList_append, hm] at hr
  have hdrain := drain_alone hv
  rw [hdrain, hd, List.drop_zero, hr]
  simp only [Option.toList_some, List.cons_append, List.nil_append, runMembers, htok, Option.isNone_some, Bool.false_eq_true, if_false]
  cases effect m.instr (v.after n) m (run n) <;> first | rfl | trivial

/-! ## The pieces of words (R45) -/

theorem pPiece_eq (r : BitVec 5) : pPiece r.toNat = if r = 0#5 then [] else [64 + r.toNat] :=
  if_congr ⟨fun h => BitVec.eq_of_toNat_eq h, fun h => congrArg BitVec.toNat h⟩ rfl rfl

theorem tilePieces_eq (vt : BitVec 32) (d : BitVec 5) : tilePieces vt d.toNat =
    if vtFmt vt = 2 ∧ vtSew vt = 64 then [128 + 2 * d.toNat % 32, 128 + (2 * d.toNat + 1) % 32] else [128 + d.toNat] :=
  if_congr (by simp [fp64View, and_comm]) rfl rfl

/-! ## A convoy of VADD words -/

/-- The registers that VADD names: D, A, B and G. -/
abbrev VaddRegs : Type := BitVec 5 × BitVec 5 × BitVec 5 × BitVec 5

/-- The member that VADD is, before it is dispatched. -/
def vaddMember (c : BitVec 1) (r : VaddRegs) : Member := ⟨.vadd c r.1 r.2.1 r.2.2.1 r.2.2.2, 0#64, 0#64, 0#4096, false⟩

/-- The registers of a word that is VADD. -/
def vaddRegs (i : Instr) : Option VaddRegs :=
  match i with
  | .vadd _ d a b g => some (d, a, b, g)
  | _ => none

theorem eq_of_vaddRegs {i : Instr} {r : VaddRegs} (h : vaddRegs i = some r) : ∃ c, i = .vadd c r.1 r.2.1 r.2.2.1 r.2.2.2 := by
  unfold vaddRegs at h
  split at h
  · cases h
    exact ⟨_, rfl⟩
  · cases h

/-- What VADD makes of the register files. -/
def vaddOn (c : VConf) (vr : VRegs) (r : VaddRegs) : VRegs :=
  vr.applyAll (groupWrites c.grant (vtSew c.vtype) r.1.toNat ((activeOf (vr.preg r.2.2.2.toNat) c.vl).map (fun i =>
    (i, vAdd ⟨vtSew c.vtype, decide (vtFmt c.vtype = 0), vtSat c.vtype, vr.elem c.grant (vtSew c.vtype) r.1.toNat i,
      vr.elem c.grant (vtSew c.vtype) r.2.1.toNat i, vr.elem c.grant (vtSew c.vtype) r.2.2.1.toNat i⟩))))

/-- The members of a convoy of VADD words. -/
def vaddMembers (regs : List VaddRegs) (last : VaddRegs) : List Member := regs.map (vaddMember 1#1) ++ [vaddMember 0#1 last]

theorem map_vaddRegs_vaddMembers (regs : List VaddRegs) (last : VaddRegs) :
    ((vaddMembers regs last).map Member.instr).map vaddRegs = (regs ++ [last]).map some := by
  simp [vaddMembers, vaddMember, vaddRegs, Function.comp_def]

theorem forall_vaddMembers {p : Instr → Prop} (h : ∀ c d a b g, p (.vadd c d a b g)) (regs : List VaddRegs) (last : VaddRegs) :
    ∀ m ∈ vaddMembers regs last, p m.instr := by
  intro m hm
  rcases List.mem_append.1 hm with hm | hm
  · obtain ⟨r, -, rfl⟩ := List.mem_map.1 hm
    exact h ..
  · cases List.mem_singleton.1 hm
    exact h ..

/-- VADD as a member of a dispatched convoy. -/
theorem effect_vadd (s : State) (v : Convoy) (k : Nat) (c : BitVec 1) (r : VaddRegs) (m : Member) (u : State) :
    effect (.vadd c r.1 r.2.1 r.2.2.1 r.2.2.2) ((s.captured v).after k) m u =
      .done { u with cur := { u.cur with vr := vaddOn s.cur.conf u.cur.vr r } } := rfl

theorem capture_chk {f : BitVec 4096} {chk : Bool} {l : List Member} (h : ∀ m ∈ l, ∀ c d e w t, m.instr ≠ .mchk c d e w t) :
    (capture f chk l).2 = chk := by
  induction l generalizing chk with
  | nil => rfl
  | cons m r ih =>
    obtain ⟨hm, hr⟩ := List.forall_mem_cons.1 h
    refine (ih hr).trans ?_
    split
    · next heq => exact absurd heq (hm _ _ _ _ _)
    · rfl

/-- A v register is no predicate. -/
theorem not_mem_pPiece {l n k p : Nat} (h : k ∈ vGroup l n) : k ∉ pPiece p := by
  obtain ⟨j, -, rfl⟩ := List.mem_map.1 h
  unfold pPiece
  split
  · exact List.not_mem_nil
  · rw [List.mem_singleton]
    omega

/-- No VADD word of a convoy writes a group that an earlier one reads, nor, but for the last, one that it reads itself. -/
def VaddFree (c : VConf) (all : List VaddRegs) : Prop :=
  let group := fun (r : BitVec 5) => vGroup (vtLmul c.vtype) r.toNat
  ∀ pre r post, all = pre ++ r :: post →
    (∀ q ∈ pre, ∀ k ∈ group r.1, k ∉ group q.2.1 ∧ k ∉ group q.2.2.1) ∧
    (post ≠ [] → ∀ k ∈ group r.1, k ∉ group r.2.1 ∧ k ∉ group r.2.2.1)

/-- VADD words none of which writes a register that it must not keep the rule of R45. -/
theorem idempotent_vaddMembers (c : VConf) {regs : List VaddRegs} {last : VaddRegs}
    (h : VaddFree c (regs ++ [last])) :
    idempotent [] ((vaddMembers regs last).map (fun m =>
      (eReads c.vtype c.grant c.tgrant m.instr, eWrites c.vtype c.grant c.tgrant m.instr))) = true := by
  let reads := fun (r : VaddRegs) =>
    vGroup (vtLmul c.vtype) r.2.1.toNat ++ vGroup (vtLmul c.vtype) r.2.2.1.toNat ++ pPiece r.2.2.2.toNat
  let writes := fun (r : VaddRegs) => vGroup (vtLmul c.vtype) r.1.toNat
  have hmap : (vaddMembers regs last).map (fun m =>
      (eReads c.vtype c.grant c.tgrant m.instr, eWrites c.vtype c.grant c.tgrant m.instr)) =
      (regs ++ [last]).map (fun r => (reads r, writes r)) := by
    simp only [vaddMembers, List.map_append, List.map_map]
    rfl
  have hfree : ∀ {k r q}, k ∈ writes r →
      k ∉ vGroup (vtLmul c.vtype) q.2.1.toNat ∧ k ∉ vGroup (vtLmul c.vtype) q.2.2.1.toNat → k ∉ reads q :=
    fun {k r q} hk hn hr => (List.mem_append.1 hr).elim (fun hv => (List.mem_append.1 hv).elim hn.1 hn.2) (not_mem_pPiece hk)
  rw [hmap, ← Bool.not_eq_false, idempotent_eq_false]
  rintro ⟨pre, r, post, heq, ⟨q, hq, k, hk, hkr⟩ | ⟨hp, k, hk, hkr⟩⟩
  · exact hfree hk ((h pre r post heq).1 q hq k hk) hkr
  · exact hfree hk ((h pre r post heq).2 hp k hk) hkr

/-- The sum that VADD makes of two elements. -/
theorem vAdd_eq {w : Nat} (hw : 0 < w) {vt : BitVec 32} {z x y : Nat} (hx : x < 2 ^ w) (hy : y < 2 ^ w) :
    vAdd ⟨w, decide (vtFmt vt = 0), vtSat vt, z, x, y⟩ =
      let num := fun (x : Nat) => if vtFmt vt = 0 then (x : Int).bmod (2 ^ w) else (x : Int)
      let lo : Int := if vtFmt vt = 0 then -2 ^ (w - 1) else 0
      let hi : Int := if vtFmt vt = 0 then 2 ^ (w - 1) - 1 else 2 ^ w - 1
      ((if vtSat vt then max lo (min hi (num x + num y)) else num x + num y) % 2 ^ w).toNat := by
  simp only [vAdd, IntArgs.fit_eq, IntArgs.val_eq hw hx, IntArgs.val_eq hw hy, intMin, intMax, decide_eq_true_eq]
  cases vtSat vt <;> rfl

/-- The state after the first k members. -/
def State.summed (s : State) (v : Convoy) (all : List VaddRegs) (k : Nat) : State :=
  { s.dispatched v with cur := { (s.dispatched v).cur with vr := (all.take k).foldl (vaddOn s.cur.conf) s.cur.vr } }

/-- Each member of a convoy of VADD words acts on what those before it have written. -/
theorem effect_summed {s : State} {v : Convoy} {regs : List VaddRegs} {last : VaddRegs}
    (hm : v.members = vaddMembers regs last) (k : Nat) (hk : k < (s.captured v).members.length) : ∃ m, (s.captured v).members[k]? = some m ∧
      effect m.instr ((s.captured v).after k) m (s.summed v (regs ++ [last]) k) = .done (s.summed v (regs ++ [last]) (k + 1)) := by
  refine ⟨_, List.getElem?_eq_getElem hk, ?_⟩
  have hops : (((s.captured v).members.map Member.instr).map vaddRegs)[k]? = ((regs ++ [last]).map some)[k]? := by
    rw [← map_vaddRegs_vaddMembers, ← hm]
    exact congrArg (fun l => (l.map vaddRegs)[k]?) (map_instr_capture ..)
  simp only [List.getElem?_map, List.getElem?_eq_getElem hk, Option.map_some] at hops
  obtain ⟨r, hr, hops⟩ := Option.map_eq_some_iff.1 hops.symm
  obtain ⟨c, hc⟩ := eq_of_vaddRegs hops.symm
  rw [hc, effect_vadd]
  unfold State.summed
  rw [List.take_add_one, hr, List.foldl_append]
  rfl

/-- A command that has no entry before it has none fewer once one leaves. -/
theorem Cmd.ahead_less (c : Cmd) (t : ThreadId) :
    (if c.thread = t ∧ 0 < c.ahead then { c with ahead := c.ahead - 1 } else c) =
      if c.thread = t then { c with ahead := c.ahead - 1 } else c := by
  by_cases h : c.thread = t
  · rw [if_pos h]
    rcases Nat.eq_zero_or_pos c.ahead with h0 | h0
    · rw [if_neg fun hc => hc.2.ne' h0, h0, Nat.zero_sub, ← h0]
    · rw [if_pos ⟨h, h0⟩]
  · rw [if_neg h, if_neg fun hc => h hc.1]

/-- A convoy of VADD words that retires. -/
theorem retire_summed {s : State} (hq : s.cur.viq = []) {v : Convoy} {all : List VaddRegs} (hl : v.late = 0) (hp : v.pushes = [])
    (hchk : (capture s.cur.conf.fmask s.cur.mat.chk v.members).2 = s.cur.mat.chk) {n : Nat} (hn : v.members.length = n)
    (hall : all.length = n) :
    retire 0 ((s.captured v).after n) (s.summed v all n) = { s.ran with cur := { s.ran.cur with
      framing := none
      vr := all.foldl (vaddOn s.cur.conf) s.cur.vr
      prog := { s.ran.cur.prog with instret := s.cur.prog.instret + BitVec.ofNat 64 n } } } := by
  have hlen : ((s.captured v).after n).members.length = n := (length_capture ..).trans hn
  have hlate : ((s.captured v).after n).late = 0 := hl
  have hpush : ((s.captured v).after n).pushes = [] := hp
  unfold retire
  rw [hlen, hlate, hpush, State.raise_zero]
  simp [State.leaveViq, State.onPast, State.onCur, State.summed, State.dispatched, State.ran, w64, hchk, hq, ← hall, Cmd.ahead_less]

/-- The last word of a convoy of VADD words: each acts on what those before it have written. -/
theorem exec_vadd_last {s : State} {v : Convoy} {regs : List VaddRegs} {last : VaddRegs}
    (hq : s.cur.viq = []) (hf : s.cur.framing = some v) (hm : v.members = regs.map (vaddMember 1#1)) (hb : v.bad = false) (hd : v.done = 0) (hp : v.pushes = []) (hl : v.late = 0)
    (hfmt : vtFmt s.cur.conf.vtype ≤ 1) (hfree : VaddFree s.cur.conf (regs ++ [last])) :
    exec (vaddMember 0#1 last).instr s = .next { s.ran with cur := { s.ran.cur with
      framing := none
      vr := (regs ++ [last]).foldl (vaddOn s.cur.conf) s.cur.vr
      prog := { s.ran.cur.prog with instret := s.cur.prog.instret + BitVec.ofNat 64 (regs ++ [last]).length } } } := by
  let u := { v with members := vaddMembers regs last }
  have hjoin : s.joining.joined (vaddMember 0#1 last).instr 0#64 0#64 = u := by
    unfold Convoy.joined
    rw [State.joining, hf, Option.getD_some, hm]
    rfl
  have hword : s.esideWord (vaddMember 0#1 last).instr = some (0#1, 0#64, 0#64, true) :=
    congrArg (fun b => some (0#1, 0#64, 0#64, b)) (decide_eq_true hfmt)
  have hrows : u.members.any (fun m => needsRows m.instr) = false :=
    List.any_eq_false.2 fun m hm => by
      rw [forall_vaddMembers (p := fun i => needsRows i = false) (fun _ _ _ _ _ => rfl) regs last m hm]
      exact Bool.false_ne_true
  have htok : ∀ m ∈ (s.captured u).members, Tokenless m.instr :=
    forall_capture (forall_vaddMembers (p := Tokenless) (fun _ _ _ _ _ => ⟨rfl, rfl⟩) regs last)
  have hchk : (capture s.cur.conf.fmask s.cur.mat.chk u.members).2 = s.cur.mat.chk :=
    capture_chk (forall_vaddMembers (p := fun i => ∀ c d e w t, i ≠ .mchk c d e w t) (fun _ _ _ _ _ => nofun) regs last)
  have hlen : (s.captured u).members.length = (regs ++ [last]).length := (length_capture ..).trans (by simp [u, vaddMembers])
  have hrun := drain_retired (run := s.summed u (regs ++ [last])) rfl hd htok (effect_summed rfl)
  rw [hlen, retire_summed (v := u) hq hl hp hchk ((length_capture ..).symm.trans hlen) rfl] at hrun
  rw [esideWord_exec hword, eside_eq hq]
  refine (congrArg (dispatch · s) hjoin).trans ?_
  rw [dispatch_eq hq, idempotent_vaddMembers _ hfree, hrows, if_neg (by simp [u, hb]), Bool.and_false, if_neg Bool.false_ne_true]
  exact congrArg _ hrun

/-- Settles O44: words inside a convoy by what they look at first, a convoy that ends by its checks, and the run of its members one
member at a time. -/
theorem convoyFraming : Obligations.ConvoyFraming := by
  unfold Obligations.ConvoyFraming
  refine ⟨?_, fun s hq => ?_, ?_⟩
  · intro vt gr tg c d a b g k f group pred tiles pieces
    have hpred : ∀ r : BitVec 5, pPiece r.toNat = pred r := pPiece_eq
    have htiles : tilePieces vt d.toNat = tiles := tilePieces_eq vt d
    simp only [pieces, ← hpred, ← htiles]
    exact ⟨⟨rfl, rfl⟩, ⟨rfl, rfl⟩, ⟨rfl, rfl⟩, ⟨rfl, rfl⟩, ⟨rfl, rfl⟩, ⟨rfl, rfl⟩⟩
  · intro t c raises fresh
    refine ⟨fun w => ⟨_, exec_illegalWord w hq, rfl⟩, fun i v hf hw he hn => ?_, ⟨rfl, rfl, rfl, rfl, rfl, rfl, rfl⟩, ?_⟩
    · refine ⟨_, ?_, rfl⟩
      rw [← s.framed_eq hf hq]
      exact exec_framed hw he hn
    · intro i sa sb v all atEnd reads writes clash rows
      refine ⟨fun x hx => ⟨_, ?_, rfl⟩, ?_, ?_⟩
      · rw [esideWord_exec hx, eside_eq hq]
        rfl
      · intro he
        have hex : exec i s = _ := (esideWord_exec he).trans (eside_eq hq true)
        refine ⟨fun hlen => ⟨_, hex.trans (if_neg (Nat.not_le.2 (Nat.lt_succ_of_le hlen))), ?_⟩,
          fun hlen => ⟨_, hex.trans (if_pos hlen), rfl⟩⟩
        rw [Thread.atLoopEnd_eq]
        rfl
      · intro he
        have hex : exec i s = _ := ((esideWord_exec he).trans (eside_eq hq true)).trans (dispatch_eq hq)
        have hclash : idempotent [] (all.map (fun m => (reads m, writes m))) = false ↔ clash := idempotent_eq_false reads writes all
        have hbad : (v.bad || !idempotent [] (all.map (fun m => (reads m, writes m)))) = true ↔ v.bad = true ∨ clash := by
          rw [Bool.or_eq_true, Bool.not_eq_true', hclash]
        have hrows : (decide (c.tgrant = 0) && all.any (fun m => needsRows m.instr)) = true ↔ c.tgrant = 0 ∧ rows := by
          simp [rows]
        refine ⟨fun h => ⟨_, hex.trans (if_pos (hbad.2 h)), rfl⟩, fun hb hc h0 hr => ?_, fun hb hc hr hd ht => ?_⟩
        · have hok : ¬ (v.bad = true ∨ clash) := not_or.2 ⟨by simp [hb], hc⟩
          exact ⟨_, hex.trans ((if_neg (mt hbad.1 hok)).trans (if_pos (hrows.2 ⟨h0, hr⟩))), rfl⟩
        · intro seen popped at_ n run hrun0 hrun
          have hok : ¬ (v.bad = true ∨ clash) := not_or.2 ⟨by simp [hb], hc⟩
          have hat : ∀ k, at_ k = (s.captured (s.joining.joined i sa sb)).after k := fun _ => rfl
          have hat0 : at_ 0 = s.captured (s.joining.joined i sa sb) := (hat 0).trans (Convoy.after_done hd)
          have hstart : run 0 = s.dispatched (s.joining.joined i sa sb) := by
            rw [hrun0, hat0]
            rfl
          have hex : exec i s = .next (drain 1 0 (run 0)) := by
            rw [hstart]
            exact hex.trans ((if_neg (mt hbad.1 hok)).trans (if_neg (mt hrows.1 fun h => hr.elim (· h.1) (· h.2))))
          have hviq : (run 0).cur.viq = [.convoy (s.captured (s.joining.joined i sa sb))] := by rw [hstart]; rfl
          have htok : ∀ m ∈ seen.1, Tokenless m.instr := forall_capture ht
          simp only [hat] at hrun ⊢
          refine ⟨fun hn => ⟨_, hex, ?_⟩, fun m hm => ?_⟩
          · have hlen : seen.1.length = n := (length_capture ..).trans hn.symm
            rw [← hlen] at hrun ⊢
            exact drain_retired hviq hd htok hrun
          · have hstop := drain_stopped hviq hd htok hm hrun
            revert hstop
            cases effect m.instr ((s.captured (s.joining.joined i sa sb)).after n) m (run n) with
            | done _ => exact fun h => h
            | block => exact fun h => ⟨_, hex, h⟩
            | trap x => exact fun h => ⟨_, hex, h⟩
            | after x r => exact fun h => ⟨_, hex, h⟩
  · intro s d a b g v regs hq hfmt hf hm hb hd hp hl hlen t group all c w num lo hi fit add hfree
    have hw : 0 < w := vtSew_pos c.vtype
    have hadd : ∀ vr r, add vr r = vaddOn c vr r := fun vr r => by
      have hsum : ∀ i, fit (num (vr.elem c.grant w r.2.1.toNat i) + num (vr.elem c.grant w r.2.2.1.toNat i)) = _ := fun i =>
        (vAdd_eq (z := vr.elem c.grant w r.1.toNat i) hw (VRegs.elem_lt ..) (VRegs.elem_lt ..)).symm
      simp only [add, hsum]
      rfl
    have hfold : all.foldl add t.vr = all.foldl (vaddOn c) t.vr :=
      congrArg (fun f => all.foldl f t.vr) (funext fun vr => funext (hadd vr))
    rw [hfold]
    exact ⟨_, exec_vadd_last hq hf hm hb hd hp hl hfmt hfree, rfl⟩

end Sys2Proof.Machine
end

section
/-! Events that come to threads: deadlocks, ageing, waits in SETVL and staged accesses (R102, R147, R148, R306, R385, R432). -/
namespace Sys2Proof.Machine

/-! ## Deadlocks (R102, R385) -/

theorem State.asThread_cur {s : State} {t : ThreadId} (ha : s.active = true) (ht : s.cur.id = t) (f : State → State) :
    s.asThread t f = f s := by
  unfold State.asThread
  rw [ha, ht, beq_self_eq_true]
  rfl

theorem exec_queueDeadlock {s : State} {t : ThreadId} (ha : s.active = true) (ht : s.cur.id = t) :
    exec (.queueDeadlock t) s = .next ((s.cur.queueStuck.map (fun k =>
      ({ cause := 0x0B, queue := k, eside := decide (s.cur.prog.wait = .retry .viq) } : Trap))).elim s (takeTrap s)) := by
  show execQueueDeadlock t s = _
  unfold execQueueDeadlock
  rw [State.asThread_cur ha ht]
  cases s.cur.queueStuck <;> rfl

theorem exec_tokenDeadlock {s : State} {t : ThreadId} (ha : s.active = true) (ht : s.cur.id = t) :
    exec (.tokenDeadlock t) s = .next ((if s.tokenDead s.cur = true then
      some ({ cause := 0x15, synd := 4, eside := decide (s.cur.prog.wait = .retry .viq) } : Trap) else none).elim s (takeTrap s)) := by
  show execTokenDeadlock t s = _
  unfold execTokenDeadlock
  rw [State.asThread_cur ha ht]
  cases s.tokenDead s.cur <;> rfl

theorem Thread.queueStuck_eq (t : Thread) :
    t.queueStuck = if t.waitsBehind t.fullQueue = true then t.fullQueue else none := by
  unfold Thread.queueStuck
  cases h : t.fullQueue with
  | none => simp
  | some k => rfl

theorem Thread.fullQueue_eq (t : Thread) : t.fullQueue = t.nextMember.bind (fun e =>
    (List.range 8).find? (fun k => writesQueue e.2.instr k && decide (16 ≤ (t.queue k).length))) := by
  unfold Thread.fullQueue
  cases t.nextMember <;> rfl

theorem Thread.waitsBehind_eq (t : Thread) (full : Option Nat) : t.waitsBehind full =
    match t.prog.wait with
    | .retry .viq => true
    | .retry (.qpop j) => decide (some j ≠ full) && decide (t.queue j = [])
    | .retry (.qdrain _) => true
    | _ => false := by
  unfold Thread.waitsBehind
  simp only [List.length_eq_zero_iff] <;> rfl

/-- The convoy and the word that the E-side executes next, unless earlier work holds it. -/
theorem Thread.map_nextMember (t : Thread) : t.nextMember.map (fun e => (e.1, e.2.instr)) =
    match t.viq[t.viq.findIdx VEntry.isConvoy]? with
    | some (.convoy c) => if convoyHeld t.vr (t.viq.take (t.viq.findIdx VEntry.isConvoy)) c then none else
        (c.members[c.done]?).map (fun (m : Member) => (c, m.instr))
    | _ => none := by
  unfold Thread.nextMember
  dsimp only
  cases t.viq[t.viq.findIdx VEntry.isConvoy]? with
  | none => rfl
  | some e =>
    cases e with
    | convoy c =>
      dsimp only
      split
      · rfl
      · cases c.members[c.done]? <;> rfl
    | _ => rfl

theorem State.tokenStuck_eq (s : State) (t : Thread) : s.tokenStuck t =
    match t.nextMember.map (fun e => (e.1, e.2.instr)) with
    | some (c, i) =>
      ((tokensOf i).1 && !c.popped.contains c.done && decide (t.tok.get (tokensOf i).2.2.1 = 0) &&
        !s.cmds.any (fun x => decide (x.thread = t.id) && decide (x.push = some (tokensOf i).2.2.1))) ||
      ((tokensOf i).2.1 && decide (16 ≤ t.tok.get (tokensOf i).2.2.2 + c.pushes.count (tokensOf i).2.2.2))
    | none => false := by
  unfold State.tokenStuck
  cases t.nextMember <;> rfl

/-- Does the A-side wait for a token (R375)? -/
def Thread.waitsToken (t : Thread) : Bool :=
  match t.prog.wait with
  | .retry .tokenPop => true
  | .retry .tokenPush => true
  | _ => false

theorem State.tokenDead_eq (s : State) (t : Thread) : s.tokenDead t =
    (t.queueStuck.isNone && (t.waitsBehind t.fullQueue || t.waitsToken) && (s.tokenStuck t || t.fullQueue.isSome)) := rfl

/-- R385 in terms of the full queue. -/
theorem State.tokenDead_iff (s : State) (t : Thread) : s.tokenDead t = true ↔
    (t.fullQueue.isNone = true ∨ t.waitsBehind t.fullQueue = false) ∧
    (t.waitsBehind t.fullQueue = true ∨ t.waitsToken = true) ∧ (s.tokenStuck t = true ∨ t.fullQueue.isSome = true) := by
  have hn : t.queueStuck.isNone = true ↔ t.fullQueue.isNone = true ∨ t.waitsBehind t.fullQueue = false := by
    rw [Thread.queueStuck_eq]
    cases t.waitsBehind t.fullQueue <;> simp
  rw [State.tokenDead_eq, Bool.and_eq_true, Bool.and_eq_true, Bool.or_eq_true, Bool.or_eq_true, hn, and_assoc]

/-! ## Turns of a dispatcher (R144, R432) -/

/-- u is s but for events among P that come next. -/
structure State.Asks (s u : State) (P : Instr → Prop) : Prop where
  rest : u = { s with inputs := u.inputs }
  kept : ∀ i, i ∈ s.inputs → i ∈ u.inputs
  added : ∀ i, i ∈ u.inputs → i ∈ s.inputs ∨ P i

theorem State.redispatch_asks (s : State) (k : Nat) : s.Asks (s.redispatch k) (fun i => i = .threadDispatch k) := by
  by_cases h : s.settledIn k
  · rw [State.redispatch_settled h]
    exact ⟨rfl, fun _ hi => hi, fun _ hi => .inl hi⟩
  · rw [State.redispatch_unsettled h]
    exact ⟨rfl, fun _ hi => List.mem_append_left _ hi, fun _ hi => by simpa using hi⟩

/-- The state in which the records of thread t and its saved thread are marked (R432). -/
def State.marked (s : State) (t : ThreadId) : State :=
  { s.setPart t.part { s.part t.part with records := (s.part t.part).records.map (fun r =>
      if r.id = t then { r with aged := true } else r) } with
    saved := s.saved.map (fun e => (if e.1.id = t then { e.1 with place := { e.1.place with aged := true } } else e.1, e.2)) }

theorem State.part_marked (s : State) (t : ThreadId) (q : Nat) : (s.marked t).part q =
    if q = t.part then { s.part q with records := (s.part q).records.map (fun r => { r with aged := r.aged || decide (r.id = t) }) }
    else s.part q := by
  have hr : ∀ r : Record, (if r.id = t then { r with aged := true } else r) = { r with aged := r.aged || decide (r.id = t) } := by
    intro r
    by_cases h : r.id = t
    · simp only [h, if_true, decide_true, Bool.or_true]
    · simp only [h, if_false, decide_false, Bool.or_false]
  refine (State.part_setPart s t.part q _).trans ?_
  simp only [hr]
  by_cases h : q = t.part
  · rw [if_pos h, if_pos h, h]
  · rw [if_neg h, if_neg h]

theorem exec_recordAging (s : State) (t : ThreadId) : exec (.recordAging t) s = .next ((s.marked t).redispatch t.part) := rfl

/-! ## Staged accesses (R306) -/

theorem exec_stagedResend_none {s : State} {t : ThreadId} (h : (s.objs t.part).resend.find? (fun w => w.thread == t) = none) :
    exec (.stagedResend t) s = .next s := by
  show execStagedResend t s = _
  unfold execStagedResend
  dsimp only
  rw [h]

theorem exec_stagedResend_some {s : State} {t : ThreadId} {w : Waiter}
    (h : (s.objs t.part).resend.find? (fun w => w.thread == t) = some w) :
    let o := s.objs t.part
    let s1 := s.setObjs t.part { o with resend := o.resend.filter (fun x => x.thread != t) }
    exec (.stagedResend t) s = match s1.arrive t.part true w with
      | .done s2 => .next (s2.finishAccess w)
      | .parked s2 => .next s2
      | .trap c a => .next (s1.faultAccess w c a)
      | .wait _ => .next (s1.onThread t (fun h => { h with prog := { h.prog with wait := .retry .other } })) := by
  intro o s1
  show execStagedResend t s = _
  unfold execStagedResend
  dsimp only
  rw [h] <;> rfl

/-! ## Waits in SETVL (R147, R148) -/

/-- A waiter evaluated as the current thread. -/
def State.reevaluated (v : State) : State :=
  match v.cur.prog.wait with
  | .retry (.setvl d a b) => v.reevaluate d a b
  | _ => v

theorem State.reevaluated_setvl {v : State} {d a b : BitVec 5} (h : v.cur.prog.wait = .retry (.setvl d a b)) :
    v.reevaluated = v.reevaluate d a b := by
  unfold State.reevaluated
  rw [h]

theorem State.reevaluated_other {v : State} (h : ∀ d a b, v.cur.prog.wait ≠ .retry (.setvl d a b)) : v.reevaluated = v := by
  unfold State.reevaluated
  split
  · next heq => exact absurd heq (h _ _ _)
  · rfl

theorem exec_setvlReevaluation (s : State) (core : Nat) : exec (.setvlReevaluation core) s =
    .next ((s.core core).waiters.foldl (fun v slot =>
      match v.onChip.find? (fun h => h.place.core == core && h.place.slot == slot) with
      | none => v
      | some h => v.asThread h.id State.reevaluated)
      { s with inputs := s.inputs.filter (fun i => i != Instr.setvlReevaluation core) }) := by
  have hstep : ∀ (v : State) (slot : Nat), (match v.inSlot core slot with
      | none => v
      | some id => v.asThread id State.reevaluated) =
      match v.onChip.find? (fun h => h.place.core == core && h.place.slot == slot) with
      | none => v
      | some h => v.asThread h.id State.reevaluated := by
    intro v slot
    unfold State.inSlot
    cases v.onChip.find? (fun h => h.place.core == core && h.place.slot == slot) <;> rfl
  simp only [← hstep]
  rfl

/-- Of the core of v's current thread, u has the entry x for its slot and the waiters ws; the other entries and cores are v's. -/
structure State.Holds (v u : State) (x : Lat) (ws : List Nat) : Prop where
  own : (u.core v.cur.place.core).latOf v.cur.place.slot = x
  others : ∀ j, j ≠ v.cur.place.slot → (u.core v.cur.place.core).latOf j = (v.core v.cur.place.core).latOf j
  waiters : (u.core v.cur.place.core).waiters = ws
  cores : ∀ j, j ≠ v.cur.place.core → u.core j = v.core j

theorem State.holds_refl (v : State) :
    v.Holds v ((v.core v.cur.place.core).latOf v.cur.place.slot) (v.core v.cur.place.core).waiters :=
  ⟨rfl, fun _ _ => rfl, rfl, fun _ _ => rfl⟩

theorem State.Holds.putLat {v u : State} {x : Lat} {ws : List Nat} (h : v.Holds u x ws) (hp : u.cur.place = v.cur.place) (f : Lat → Lat) :
    v.Holds (u.putLat f) (f x) ws := by
  have hc : ∀ j, (u.putLat f).core j = if j = v.cur.place.core then (u.core v.cur.place.core).setLat v.cur.place.slot (f x) else u.core j := by
    intro j
    unfold State.putLat
    dsimp only
    rw [hp, h.own]
    exact State.core_setCore ..
  have hk := (hc v.cur.place.core).trans (if_pos rfl)
  refine ⟨?_, fun j hj => ?_, ?_, fun j hj => ((hc j).trans (if_neg hj)).trans (h.cores j hj)⟩
  · rw [hk, Core.latOf_setLat, if_pos rfl]
  · rw [hk, Core.latOf_setLat, if_neg hj]
    exact h.others j hj
  · rw [hk]
    exact h.waiters

/-- The current thread has left the waiters of its core. -/
theorem State.leaveWait_holds (v : State) :
    v.Holds v.leaveWait { (v.core v.cur.place.core).latOf v.cur.place.slot with wait := false }
      ((v.core v.cur.place.core).waiters.filter (fun u => u != v.cur.place.slot)) := by
  have hc : ∀ w j, (v.setCore v.cur.place.core w).core j = if j = v.cur.place.core then w else v.core j := fun _ _ => State.core_setCore ..
  have h : v.Holds (v.setCore v.cur.place.core
      { v.core v.cur.place.core with waiters := (v.core v.cur.place.core).waiters.filter (fun u => u != v.cur.place.slot) })
      ((v.core v.cur.place.core).latOf v.cur.place.slot)
      ((v.core v.cur.place.core).waiters.filter (fun u => u != v.cur.place.slot)) := by
    refine ⟨?_, fun j _ => ?_, ?_, fun j hj => (hc _ j).trans (if_neg hj)⟩
    · rw [hc, if_pos rfl]
      rfl
    · rw [hc, if_pos rfl]
      rfl
    · rw [hc, if_pos rfl]
  exact h.putLat rfl (fun l => { l with wait := false })

/-- The events that come next where a lane group is released. -/
theorem State.released_asks (s : State) (core : Nat) :
    s.Asks (s.released core) (fun i => i = .setvlReevaluation core ∨ ∃ x, i = .threadDispatch x) := by
  have hnext : ∀ {s1 : State} {P : Instr → Prop}, P (.setvlReevaluation core) → s.Asks s1 P →
      s.Asks (if (s1.core core).waiters.isEmpty || s1.inputs.contains (Instr.setvlReevaluation core) then s1
        else { s1 with inputs := .setvlReevaluation core :: s1.inputs }) P := by
    intro s1 P hP h
    split
    · exact h
    · refine ⟨by rw [h.rest], fun i hi => List.mem_cons_of_mem _ (h.kept i hi), fun i hi => ?_⟩
      rcases List.mem_cons.1 hi with rfl | hi
      · exact .inr hP
      · exact h.added i hi
  unfold State.released
  cases (s.quad (quadOf core)).owner with
  | none => exact hnext (.inl rfl) ⟨rfl, fun _ h => h, fun _ h => .inl h⟩
  | some pn =>
    have h := s.redispatch_asks pn
    exact hnext (.inl rfl) ⟨h.rest, h.kept, fun i hi => (h.added i hi).imp_right fun he => .inr ⟨pn, he⟩⟩

/-- The thread after a grant g: at a new grant every register of the vector files is zero (R148). -/
def Thread.granted (t : Thread) (d : BitVec 5) (g : Grant) : Thread :=
  { t with
    s := (t.writeS d (w64 g.vl)).s
    vr := if g.grant = t.conf.grant then t.vr else ⟨[], [], [], []⟩
    conf := { t.conf with vl := g.vl, grant := g.grant, fmask := if g.grant = t.conf.grant then t.conf.fmask else 0#4096 }
    user := { t.user with vfirst := if g.grant = t.conf.grant then t.user.vfirst else 0#64 } }

/-- The core's entries after a grant. -/
def State.grantedLat (v : State) (g : Grant) : State :=
  v.leaveWait.putLat (fun l => { l with map := g.map, share := g.share, pm := vtPm v.cur.conf.vtype && decide (g.grant ≠ 0) })

/-- The thread that a grant leaves. -/
theorem Thread.granted_eq (t : Thread) (d : BitVec 5) (g : Grant) :
    ({ (if g.grant = t.conf.grant then t else t.regrant g.grant) with
      conf := { (if g.grant = t.conf.grant then t else t.regrant g.grant).conf with vl := g.vl } } : Thread).writeS d (w64 g.vl) =
      t.granted d g := by
  unfold Thread.granted Thread.writeS Thread.regrant
  by_cases h : g.grant = t.conf.grant <;> by_cases hd : d = 0#5 <;> simp [h, hd]

theorem State.granted_eq (u : State) (d : BitVec 5) (g : Grant) :
    ((if g.grant = u.cur.conf.grant then u else u.onCur (fun t => t.regrant g.grant)).onConf (fun c => { c with vl := g.vl })).writeS
      d (w64 g.vl) = { u with cur := u.cur.granted d g } := by
  rw [← Thread.granted_eq]
  by_cases h : g.grant = u.cur.conf.grant
  · rw [if_pos h, if_pos h]
    rfl
  · rw [if_neg h, if_neg h]
    rfl

theorem State.lanes_released_eq (u : State) (fell : Bool) (c : Nat) :
    (if fell then u.released c else u).lanes c = { u with
      inputs := ((if fell then u.released c else u).lanes c).inputs, timers := ((if fell then u.released c else u).lanes c).timers } := by
  cases fell with
  | false => rfl
  | true => exact congrArg (fun x : State => { x with timers := ((u.released c).lanes c).timers }) (u.released_asks c).rest

/-- What the end of a SETVL leaves of a state x, which has thread t as the current one. -/
theorem State.relaned {x a G : State} {t : Thread} (hx : x = { a with cur := t }) (f : List Instr → List Instr) (fell : Bool) (c : Nat)
    (hG : G = (if fell then ({ x with timers := f x.timers } : State).released c else { x with timers := f x.timers }).lanes c) :
    G = { a with cur := t, inputs := G.inputs, timers := G.timers } := by
  subst hx
  rw [hG]
  exact State.lanes_released_eq _ fell c

theorem State.grantedLat_eq (v : State) (g : Grant) : v.grantedLat g = { v with cores := (v.grantedLat g).cores } := rfl

theorem State.grantWith_lanes (v : State) (d : BitVec 5) (g : Grant) : ∃ fell : Bool,
    let r := ((if g.grant = (v.grantedLat g).cur.conf.grant then v.grantedLat g else (v.grantedLat g).onCur (fun t => t.regrant g.grant)).onConf
      (fun c => { c with vl := g.vl })).writeS d (w64 g.vl)
    let u : State := { r with timers := r.timers.filter (fun i => i != Instr.laneReclaim v.cur.id) }
    v.grantWith d g = (if fell then u.released v.cur.place.core else u).lanes v.cur.place.core := ⟨_, rfl⟩

/-- A grant changes the current thread, its core's entries and waiters, and what comes next. -/
theorem State.grantWith_eq (v : State) (d : BitVec 5) (g : Grant) : v.grantWith d g =
    { v.grantedLat g with
      cur := v.cur.granted d g
      inputs := (v.grantWith d g).inputs, timers := (v.grantWith d g).timers } := by
  obtain ⟨fell, h⟩ := v.grantWith_lanes d g
  exact State.relaned ((v.grantedLat g).granted_eq d g) (fun l => l.filter (fun i => i != Instr.laneReclaim v.cur.id)) fell _ h

theorem Thread.prog_settleTag_congr {t u : Thread} (hpc : u.pc = t.pc) (hp : u.prog = t.prog) (hl : u.level = t.level) :
    u.settleTag.prog = t.settleTag.prog := by
  unfold Thread.settleTag
  rw [hl, hp, hpc]
  split
  · split
    · rfl
    · exact hp
  · exact hp

theorem Thread.settleTag_fields (t : Thread) : t.settleTag.pc = t.pc ∧ t.settleTag.loops = t.loops ∧ t.settleTag.loopsOn = t.loopsOn := by
  rw [Thread.settleTag_eq]
  exact ⟨rfl, rfl, rfl⟩

theorem Thread.advance_fields (t : Thread) : t.advance.prog = t.settleTag.prog ∧
    t.advance.pc = (if t.loopsOn then (loopEnd t.loops t.pc).1 else t.pc + 4#64) ∧
    t.advance.loops = (if t.loopsOn then (loopEnd t.loops t.pc).2 else t.loops) := by
  obtain ⟨hpc, hl, ho⟩ := t.settleTag_fields
  unfold Thread.advance
  dsimp only
  rw [ho, hpc, hl]
  cases t.loopsOn
  · exact ⟨rfl, rfl, rfl⟩
  · exact ⟨rfl, rfl, rfl⟩

/-- The progress of a thread past its word is not a matter of the registers that a grant changes. -/
theorem Thread.past_granted (t : Thread) (d : BitVec 5) (g : Grant) : (t.granted d g).past =
    { t.past with
      s := (t.granted d g).s, vr := (t.granted d g).vr, conf := (t.granted d g).conf, user := (t.granted d g).user } := by
  obtain ⟨h1, h2, h3⟩ := (t.granted d g).advance_fields
  obtain ⟨k1, k2, k3⟩ := t.advance_fields
  have hs : (t.granted d g).settleTag.prog = t.settleTag.prog := Thread.prog_settleTag_congr rfl rfl rfl
  unfold Thread.past
  rw [h1, h2, h3, k1, k2, k3, hs]
  rfl

/-- What the evaluation of the current thread's SETVL finds (R145). -/
def State.evaluated (v : State) (a b : BitVec 5) : Grant :=
  (v.core v.cur.place.core).evaluate v.cur.place.slot v.cur.conf.vtype (v.readS a).toNat (v.readS b).toNat

section
variable {v : State} {d a b : BitVec 5}

theorem State.reevaluate_waits (h : (v.evaluated a b).waits = true) :
    v.reevaluate d a b = v.putLat (fun l => { l with share := (v.evaluated a b).share }) := if_pos h

theorem State.reevaluate_busy (h : (v.evaluated a b).waits = false) (hq : v.cur.viq ≠ []) : v.reevaluate d a b =
    (v.leaveWait.putLat (fun l => { l with map := (v.evaluated a b).map, share := (v.evaluated a b).share, pm := vtPm v.cur.conf.vtype })).waits
      .other :=
  (if_neg (by rw [← State.evaluated, h]; exact Bool.false_ne_true)).trans (if_neg (by simpa using hq))

theorem State.reevaluate_idle (h : (v.evaluated a b).waits = false) (hq : v.cur.viq = []) :
    v.reevaluate d a b = complete (v.grantWith d (v.evaluated a b)) :=
  (if_neg (by rw [← State.evaluated, h]; exact Bool.false_ne_true)).trans (if_pos (by rw [hq]; rfl))

end

theorem State.grantedLat_holds (v : State) (g : Grant) : v.Holds (v.grantedLat g)
    { (v.core v.cur.place.core).latOf v.cur.place.slot with
      map := g.map, share := g.share, pm := vtPm v.cur.conf.vtype && decide (g.grant ≠ 0), wait := false }
    ((v.core v.cur.place.core).waiters.filter (fun u => u != v.cur.place.slot)) :=
  v.leaveWait_holds.putLat rfl (fun l => { l with map := g.map, share := g.share, pm := vtPm v.cur.conf.vtype && decide (g.grant ≠ 0) })

/-- A SETVL that completes with what its evaluation found. -/
theorem State.complete_grantWith (v : State) (d : BitVec 5) (g : Grant) : complete (v.grantWith d g) =
    { v.grantedLat g with
      cur := { v.cur.past with
        s := (v.cur.granted d g).s, vr := (v.cur.granted d g).vr, conf := (v.cur.granted d g).conf
        user := (v.cur.granted d g).user }
      inputs := (v.grantWith d g).inputs, timers := (v.grantWith d g).timers } := by
  rw [← Thread.past_granted]
  exact (complete_eq _).trans (congrArg (fun x : State => { x with cur := x.cur.past }) (v.grantWith_eq d g))

theorem State.complete_grantWith_eq (v : State) (d : BitVec 5) (g : Grant) : complete (v.grantWith d g) =
    { v with
      cores := (v.grantedLat g).cores, inputs := (v.grantWith d g).inputs, timers := (v.grantWith d g).timers
      cur := { v.cur.past with
        s := (v.cur.granted d g).s
        vr := if g.grant = v.cur.conf.grant then v.cur.vr else ⟨[], [], [], []⟩
        conf := { v.cur.conf with
          vl := g.vl, grant := g.grant, fmask := if g.grant = v.cur.conf.grant then v.cur.conf.fmask else 0#4096 }
        user := { v.cur.user with vfirst := if g.grant = v.cur.conf.grant then v.cur.user.vfirst else 0#64 } } } :=
  (v.complete_grantWith d g).trans (congrArg (fun x : State => { x with
    cur := { v.cur.past with
      s := (v.cur.granted d g).s, vr := (v.cur.granted d g).vr, conf := (v.cur.granted d g).conf
      user := (v.cur.granted d g).user }
    inputs := (v.grantWith d g).inputs, timers := (v.grantWith d g).timers }) (v.grantedLat_eq g))

/-- A SETVL that completes leaves all of the state but its core, what comes next and the registers that a grant changes. -/
theorem State.complete_grantWith_rest (v : State) (d : BitVec 5) (g : Grant) : complete (v.grantWith d g) =
    { v with
      cores := (complete (v.grantWith d g)).cores, inputs := (complete (v.grantWith d g)).inputs
      timers := (complete (v.grantWith d g)).timers
      cur := { v.cur.past with
        s := (complete (v.grantWith d g)).cur.s
        vr := if g.grant = v.cur.conf.grant then v.cur.vr else ⟨[], [], [], []⟩
        conf := { v.cur.conf with
          vl := g.vl, grant := g.grant, fmask := if g.grant = v.cur.conf.grant then v.cur.conf.fmask else 0#4096 }
        user := { v.cur.user with vfirst := if g.grant = v.cur.conf.grant then v.cur.user.vfirst else 0#64 } } } := by
  rw [State.complete_grantWith_eq]

/-- The registers after a SETVL that completes. -/
theorem State.readS_complete_grantWith (v : State) (d r : BitVec 5) (g : Grant) : (complete (v.grantWith d g)).readS r =
    if r = d then (if d = 0#5 then 0#64 else w64 g.vl) else v.readS r := by
  rw [State.complete_grantWith]
  exact Thread.readS_writeS ..

/-- A SETVL whose E-side has earlier work takes its entry and executes again. -/
theorem State.leaveWait_waits_rest (v : State) (f : Lat → Lat) (w : WaitOn) : (v.leaveWait.putLat f).waits w =
    { v with
      cores := ((v.leaveWait.putLat f).waits w).cores
      cur := { v.cur with prog := { v.cur.prog with wait := .retry w } } } := rfl

section
variable {v : State} {d a b : BitVec 5} (hv : v.cur.prog.wait = .retry (.setvl d a b))
include hv

/-- A waiter that goes on waiting has its share anew. -/
theorem State.reevaluated_waits (hw : (v.evaluated a b).waits = true) :
    v.reevaluated = v.putLat (fun l => { l with share := (v.evaluated a b).share }) :=
  (State.reevaluated_setvl hv).trans (State.reevaluate_waits hw)

theorem State.reevaluated_busy (hw : (v.evaluated a b).waits = false) (hq : v.cur.viq ≠ []) : v.reevaluated =
    (v.leaveWait.putLat (fun l =>
      { l with map := (v.evaluated a b).map, share := (v.evaluated a b).share, pm := vtPm v.cur.conf.vtype })).waits .other :=
  (State.reevaluated_setvl hv).trans (State.reevaluate_busy hw hq)

theorem State.reevaluated_idle (hw : (v.evaluated a b).waits = false) (hq : v.cur.viq = []) :
    v.reevaluated = complete (v.grantWith d (v.evaluated a b)) :=
  (State.reevaluated_setvl hv).trans (State.reevaluate_idle hw hq)

theorem State.reevaluated_waits_holds (hw : (v.evaluated a b).waits = true) : v.Holds v.reevaluated
    { (v.core v.cur.place.core).latOf v.cur.place.slot with share := (v.evaluated a b).share } (v.core v.cur.place.core).waiters := by
  rw [State.reevaluated_waits hv hw]
  exact v.holds_refl.putLat rfl (fun l => { l with share := (v.evaluated a b).share })

theorem State.reevaluated_busy_holds (hw : (v.evaluated a b).waits = false) (hq : v.cur.viq ≠ []) : v.Holds v.reevaluated
    { (v.core v.cur.place.core).latOf v.cur.place.slot with
      map := (v.evaluated a b).map, share := (v.evaluated a b).share, pm := vtPm v.cur.conf.vtype, wait := false }
    ((v.core v.cur.place.core).waiters.filter (fun u => u != v.cur.place.slot)) := by
  have h := v.leaveWait_holds.putLat rfl (fun l =>
    { l with map := (v.evaluated a b).map, share := (v.evaluated a b).share, pm := vtPm v.cur.conf.vtype })
  rw [State.reevaluated_busy hv hw hq]
  exact ⟨h.own, h.others, h.waiters, h.cores⟩

theorem State.reevaluated_idle_holds (hw : (v.evaluated a b).waits = false) (hq : v.cur.viq = []) : v.Holds v.reevaluated
    { (v.core v.cur.place.core).latOf v.cur.place.slot with
      map := (v.evaluated a b).map, share := (v.evaluated a b).share
      pm := vtPm v.cur.conf.vtype && decide ((v.evaluated a b).grant ≠ 0), wait := false }
    ((v.core v.cur.place.core).waiters.filter (fun u => u != v.cur.place.slot)) := by
  have h := v.grantedLat_holds (v.evaluated a b)
  rw [State.reevaluated_idle hv hw hq, State.complete_grantWith]
  exact ⟨h.own, h.others, h.waiters, h.cores⟩

/-- A waiter that takes its lane groups leaves the core's order of waiters. -/
theorem State.reevaluated_waiters (hw : (v.evaluated a b).waits = false) : (v.reevaluated.core v.cur.place.core).waiters =
    (v.core v.cur.place.core).waiters.filter (fun u => u != v.cur.place.slot) := by
  by_cases hq : v.cur.viq = []
  · exact (State.reevaluated_idle_holds hv hw hq).waiters
  · exact (State.reevaluated_busy_holds hv hw hq).waiters

end

end Sys2Proof.Machine
end

section
/-! Pre-emption (R46, R151, R486, R487): what the save engine writes and what leaves the core. -/
namespace Sys2Proof.Machine

/-! ## What the save engine changes (R487, R494) -/

/-- The state with the cores, the objects and the timers of another: nothing of what the save engine looks at. -/
def State.reframed (v r : State) : State := { v with cores := r.cores, objects := r.objects, timers := r.timers }

section
variable (v r : State)

theorem State.scalarRange_reframed (p : Part) (needU : Bool) (k : Acc) (al n : Nat) (ea : Word) :
    (v.reframed r).scalarRange p needU k al n ea = v.scalarRange p needU k al n ea := by
  induction n generalizing ea with
  | zero => rfl
  | succ n ih =>
    unfold State.scalarRange
    rw [ih]
    rfl

theorem State.deviceRange_reframed (p : Part) (needU : Bool) (k : Acc) (al n : Nat) (ea : Word) :
    (v.reframed r).deviceRange p needU k al n ea = v.deviceRange p needU k al n ea := by
  unfold State.deviceRange
  rw [State.scalarRange_reframed]
  rfl

theorem State.logPf_reframed (addr : Word) (part unit : Nat) (synd : BitVec 32) (cls cause : Nat) :
    (v.reframed r).logPf addr part unit synd cls cause = (v.logPf addr part unit synd cls cause).reframed r := by
  have hh : (v.reframed r).hub = v.hub := rfl
  unfold State.logPf
  dsimp only
  rw [hh]
  by_cases h : v.hub.pf.logCap.toNat = 0
  · rw [if_pos h, if_pos h]
    rfl
  · rw [if_neg h, if_neg h]
    rfl

theorem State.logError_reframed (part : Nat) (addr : Word) (unit : Nat) (synd : BitVec 32) (cls cause : Nat) :
    (v.reframed r).logError part addr unit synd cls cause = (v.logError part addr unit synd cls cause).reframed r := by
  have hp : (v.reframed r).part part = v.part part := rfl
  have hf : (v.reframed r).fresh = v.fresh := rfl
  unfold State.logError
  dsimp only
  rw [hp, hf, State.logPf_reframed, State.logPf_reframed, State.deviceRange_reframed]
  split
  · rfl
  · split
    · split
      · rfl
      · rfl
    · rfl

end

/-- Of s, only the memory, the hub and partition pn differ in u. -/
structure State.Logs (pn : Nat) (s u : State) : Prop where
  rest : u = { s with mem := u.mem, hub := u.hub, parts := u.parts }
  others : ∀ j, j ≠ pn → u.part j = s.part j

theorem State.Logs.refl (pn : Nat) (s : State) : State.Logs pn s s := ⟨rfl, fun _ _ => rfl⟩

theorem State.Logs.trans {pn : Nat} {s u v : State} (h : State.Logs pn s u) (k : State.Logs pn u v) : State.Logs pn s v :=
  ⟨k.rest.trans (congrArg (fun x : State => { x with mem := v.mem, hub := v.hub, parts := v.parts }) h.rest),
    fun j hj => (k.others j hj).trans (h.others j hj)⟩

theorem State.logPf_logs (pn : Nat) (s : State) (addr : Word) (part unit : Nat) (synd : BitVec 32) (cls cause : Nat) :
    State.Logs pn s (s.logPf addr part unit synd cls cause) := by
  refine ⟨?_, fun j _ => State.logPf_part ..⟩
  unfold State.logPf
  dsimp only
  split <;> rfl

theorem State.logError_logs (s : State) (pn : Nat) (addr : Word) (unit : Nat) (synd : BitVec 32) (cls cause : Nat) :
    State.Logs pn s (s.logError pn addr unit synd cls cause) := by
  unfold State.logError
  dsimp only
  split
  · exact State.logPf_logs ..
  · split
    · split
      · exact (State.logPf_logs ..).trans (State.logPf_logs ..)
      · exact State.logPf_logs ..
    · exact ⟨rfl, fun j hj => (State.part_setPart ..).trans (if_neg hj)⟩

theorem State.logViolation_logs (s : State) (pn cause : Nat) (addr : Word) : State.Logs pn s (s.logViolation pn cause addr) := by
  unfold State.logViolation
  split
  · exact State.logError_logs ..
  · exact .refl ..

theorem State.putBy_logs (pn : Nat) (s : State) (w : Writer) (pas : List Nat) (bs : List Byte) : State.Logs pn s (s.putBy w pas bs) :=
  ⟨rfl, fun _ _ => rfl⟩

theorem State.foldl_logs {α : Type} {pn : Nat} {f : State → α → State} (hf : ∀ s x, State.Logs pn s (f s x)) (l : List α) (s : State) :
    State.Logs pn s (l.foldl f s) := by
  induction l generalizing s with
  | nil => exact .refl ..
  | cons x l ih => exact (hf s x).trans (ih _)

/-- One piece of an image written to area a (R487), or the violation of its place logged with syndrome y (R494). -/
def savePiece (pn a : Nat) (p : Part) (y : BitVec 32) (v : State) (e : Nat × List Byte) : State :=
  match v.deviceRange p false .write 8 (e.2.length / 8) (p.regs.ctxbase + w64 (2 ^ 20 * a + e.1)) with
  | .ok pas => { v with mem := v.mem.writeAll .unit (pas.zip e.2) }
  | .error x => if x.1 = 0x20 then v.logError pn x.2 0x2000 y 5 0x20 else v

theorem savePiece_logs (pn a : Nat) (p : Part) (y : BitVec 32) (v : State) (e : Nat × List Byte) :
    State.Logs pn v (savePiece pn a p y v e) := by
  unfold savePiece
  split
  · exact State.putBy_logs ..
  · split
    · exact State.logError_logs ..
    · exact .refl ..

theorem savePiece_reframed (pn a : Nat) (p : Part) (y : BitVec 32) (v r : State) (e : Nat × List Byte) :
    savePiece pn a p y (v.reframed r) e = (savePiece pn a p y v e).reframed r := by
  unfold savePiece
  rw [State.deviceRange_reframed]
  split
  · rfl
  · split
    · exact State.logError_reframed ..
    · rfl

/-- The pieces of an image that lie in an area of 1 MiB, written one after another. -/
def savePieces (pn a : Nat) (p : Part) (y : BitVec 32) (l : List (Nat × List Byte)) (v : State) : State :=
  (l.filter (fun e => decide (e.1 + e.2.length ≤ 2 ^ 20))).foldl (savePiece pn a p y) v

theorem foldl_savePiece_reframed (pn a : Nat) (p : Part) (y : BitVec 32) (l : List (Nat × List Byte)) (v r : State) :
    l.foldl (savePiece pn a p y) (v.reframed r) = (l.foldl (savePiece pn a p y) v).reframed r := by
  induction l generalizing v with
  | nil => rfl
  | cons e l ih =>
    rw [List.foldl_cons, List.foldl_cons, savePiece_reframed]
    exact ih _

theorem savePieces_logs (pn a : Nat) (p : Part) (y : BitVec 32) (l : List (Nat × List Byte)) (v : State) :
    State.Logs pn v (savePieces pn a p y l v) := State.foldl_logs (fun s x => savePiece_logs pn a p y s x) _ v

/-- The model's save engine draws the syndrome of a violation from the state that it has come to, whose source is the first one's. -/
theorem State.saveImage_eq (s : State) (pn a : Nat) (l : List (Nat × List Byte)) :
    s.saveImage pn a l = savePieces pn a (s.part pn) s.synd l s := by
  have key : ∀ (m : List (Nat × List Byte)) (p : Part) (v : State), v.fresh = s.fresh → m.foldl (fun (s : State) e =>
      match s.deviceRange p false .write 8 (e.2.length / 8) (p.regs.ctxbase + w64 (2 ^ 20 * a + e.1)) with
      | .ok pas => s.putBy .unit pas e.2
      | .error (c, a) => s.logViolation pn c a) v = m.foldl (savePiece pn a p s.synd) v := by
    intro m p
    induction m with
    | nil => exact fun _ _ => rfl
    | cons e m ih =>
      intro v hv
      have hstep : (match v.deviceRange p false .write 8 (e.2.length / 8) (p.regs.ctxbase + w64 (2 ^ 20 * a + e.1)) with
          | .ok pas => v.putBy .unit pas e.2
          | .error (c, a) => v.logViolation pn c a) = savePiece pn a p s.synd v e := by
        unfold savePiece
        cases v.deviceRange p false .write 8 (e.2.length / 8) (p.regs.ctxbase + w64 (2 ^ 20 * a + e.1)) with
        | ok pas => rfl
        | error x =>
          obtain ⟨c, b⟩ := x
          have hy : v.synd = s.synd := congrArg Config.syndrome hv
          unfold State.logViolation
          dsimp only
          rw [hy]
          rfl
      have hf : (savePiece pn a p s.synd v e).fresh = s.fresh :=
        (congrArg State.fresh (savePiece_logs pn a p s.synd v e).rest).trans hv
      rw [List.foldl_cons, List.foldl_cons, hstep]
      exact ih _ hf
  exact key _ _ s rfl

theorem State.saveImage_reframed (s r : State) (pn a : Nat) (l : List (Nat × List Byte)) :
    (s.reframed r).saveImage pn a l = (s.saveImage pn a l).reframed r := by
  rw [State.saveImage_eq, State.saveImage_eq]
  exact foldl_savePiece_reframed ..

end Sys2Proof.Machine
end

section
/-! What a pre-emption takes off a core (R46, R389, R486, R487). -/
namespace Sys2Proof.Machine

/-! ## Timers and inputs -/

/-- Of s's timers u lacks none but lost ones, and it has no more but gained ones. -/
structure State.Retimes (lost gained : Instr → Prop) (s u : State) : Prop where
  kept : ∀ i ∈ s.timers, i ∈ u.timers ∨ lost i
  added : ∀ i ∈ u.timers, i ∈ s.timers ∨ gained i

theorem State.Retimes.trans {lost gained : Instr → Prop} {s u v : State} (h : State.Retimes lost gained s u)
    (k : State.Retimes lost gained u v) : State.Retimes lost gained s v :=
  ⟨fun i hi => (h.kept i hi).elim (k.kept i) .inr, fun i hi => (k.added i hi).elim (h.added i) .inr⟩

theorem State.Retimes.of_eq {lost gained : Instr → Prop} {s u : State} (h : u.timers = s.timers) : State.Retimes lost gained s u :=
  ⟨fun _ hi => .inl (h ▸ hi), fun _ hi => .inl (h ▸ hi)⟩

theorem State.Retimes.filter {lost gained : Instr → Prop} {s u : State} (p : Instr → Bool) (h : u.timers = s.timers.filter p)
    (hp : ∀ i, p i = false → lost i) : State.Retimes lost gained s u := by
  refine ⟨fun i hi => ?_, fun i hi => ?_⟩
  · cases hpi : p i with
    | false => exact .inr (hp i hpi)
    | true => exact .inl (h ▸ List.mem_filter.2 ⟨hi, hpi⟩)
  · rw [h] at hi
    exact .inl (List.mem_filter.1 hi).1

/-- What ends with the place of thread t on its core: its waits and reclaim intervals. -/
def endsWith (t : ThreadId) (i : Instr) : Prop := i = .wfeTimeout t ∨ i = .stagedResend t ∨ ∃ x, i = .laneReclaim x

/-- What starts as thread t gives up its place: reclaim intervals, and the time after which its record is aged. -/
def startsWith (t : ThreadId) (i : Instr) : Prop := i = .recordAging t ∨ ∃ x, i = .laneReclaim x

theorem State.lanes_retimes (t : ThreadId) (s : State) (core : Nat) :
    State.Retimes (endsWith t) (startsWith t) s (s.lanes core) := by
  refine ⟨fun i hi => ?_, fun i hi => ?_⟩
  · by_cases hl : ∃ x, i = .laneReclaim x
    · exact .inr (.inr (.inr hl))
    · exact .inl ((State.mem_lanes_timers ..).2 (.inr ⟨hi, fun u _ _ he => hl ⟨_, he⟩⟩))
  · rcases (State.mem_lanes_timers ..).1 hi with ⟨u, _, _, he, _⟩ | ⟨h, _⟩
    · exact .inr (.inr ⟨_, he⟩)
    · exact .inl h

theorem State.setCore_lanes_retimes (t : ThreadId) (s : State) (core : Nat) (c : Core) :
    State.Retimes (endsWith t) (startsWith t) s ((s.setCore core c).lanes core) :=
  State.Retimes.trans (u := s.setCore core c) (.of_eq rfl) (State.lanes_retimes ..)

/-- The reclaim intervals and the records of a partition after a release: timers and events alone. -/
theorem State.Asks.lanes_redispatch {a x : State} {P : Instr → Prop} (h : a.Asks x P) (core pn : Nat) :
    (x.lanes core).redispatch pn =
      { a with timers := ((x.lanes core).redispatch pn).timers, inputs := ((x.lanes core).redispatch pn).inputs } := by
  have hr := ((x.lanes core).redispatch_asks pn).rest
  have ht : ((x.lanes core).redispatch pn).timers = (x.lanes core).timers := (congrArg State.timers hr :)
  rw [ht]
  exact hr.trans (congrArg (fun y : State => { y with
    timers := (x.lanes core).timers, inputs := ((x.lanes core).redispatch pn).inputs }) h.rest)

/-! ## Waits that end (R141, R305) -/

/-- A core on which the thread of a slot is no waiter, with the entry x for it. -/
def Core.unwaited (c : Core) (slot : Nat) (x : Lat) : Core :=
  { c.setLat slot x with waiters := c.waiters.filter (fun k => k != slot) }

theorem Core.latOf_unwaited (c : Core) (slot j : Nat) (x : Lat) :
    (c.unwaited slot x).latOf j = if j = slot then x else c.latOf j := Core.latOf_setLat ..

theorem Core.unwaited_unwaited_waiters (c : Core) (slot : Nat) (x : Lat) :
    (c.unwaited slot x).waiters.filter (fun k => k != slot) = c.waiters.filter (fun k => k != slot) := by
  unfold Core.unwaited
  simp only [List.filter_filter, Bool.and_self]

/-- u is s without the waits of thread h. -/
structure State.Cancels (s : State) (h : Thread) (u : State) : Prop where
  rest : u = s.reframed u
  core : ∀ j, u.core j = if j = h.place.core then
    (s.core h.place.core).unwaited h.place.slot { (s.core h.place.core).latOf h.place.slot with wait := false } else s.core j
  objs : ∀ j, u.objs j = if j = h.id.part then { s.objs j with
    waiters := (s.objs j).waiters.filter (fun w => w.thread != h.id || w.kind == StKind.gate)
    resend := (s.objs j).resend.filter (fun w => w.thread != h.id) } else s.objs j
  times : State.Retimes (endsWith h.id) (startsWith h.id) s u

theorem State.find_id {l : List Thread} {t : ThreadId} {h : Thread} (hf : l.find? (fun x => x.id == t) = some h) : h.id = t := by
  simpa using List.find?_some hf

/-- s without the waits of thread t on the units of its partition and for a time limit. -/
def State.unwaited (s : State) (t : ThreadId) : State :=
  { s with timers := s.timers.filter (fun i => i != Instr.wfeTimeout t) }.setObjs t.part { s.objs t.part with
    waiters := (s.objs t.part).waiters.filter (fun w => w.thread != t || w.kind == StKind.gate)
    resend := (s.objs t.part).resend.filter (fun w => w.thread != t) }

theorem State.cancelWaits_eq {s : State} {h : Thread} (hf : s.onChip.find? (fun x => x.id == h.id) = some h) :
    s.cancelWaits h.id = ((s.unwaited h.id).setCore h.place.core ((s.core h.place.core).unwaited h.place.slot
      { (s.core h.place.core).latOf h.place.slot with wait := false })).lanes h.place.core := by
  have hf' : (s.unwaited h.id).onChip.find? (fun x => x.id == h.id) = some h := hf
  show (match (s.unwaited h.id).onChip.find? (fun x => x.id == h.id) with | some _ => _ | none => _) = _
  rw [hf']
  rfl

theorem State.cancelWaits_cancels {s : State} {h : Thread} (hf : s.onChip.find? (fun x => x.id == h.id) = some h) :
    s.Cancels h (s.cancelWaits h.id) := by
  rw [State.cancelWaits_eq hf]
  refine ⟨rfl, fun j => State.core_setCore .., fun j => ?_, ?_⟩
  · refine (State.objs_setObjs ..).trans ?_
    by_cases hj : j = h.id.part
    · rw [if_pos hj, if_pos hj, hj]
    · rw [if_neg hj, if_neg hj]
      rfl
  · have h1 : State.Retimes (endsWith h.id) (startsWith h.id) s (s.unwaited h.id) :=
      State.Retimes.filter (fun i => i != Instr.wfeTimeout h.id) rfl fun i hi => .inl (by simpa using hi)
    exact h1.trans (State.setCore_lanes_retimes ..)

/-! ## Tables (R263) -/

theorem Core.table_foldl_drop (l : List (Nat × HTable)) (c : Core) (n : Nat) :
    (l.foldl (fun c e => c.setTable e.1 none) c).table n = if l.any (fun e => e.1 == n) = true then none else c.table n := by
  induction l generalizing c with
  | nil => rfl
  | cons e l ih =>
    rw [List.foldl_cons, ih, Core.table_setTable, List.any_cons]
    by_cases h : e.1 = n
    · simp [h]
    · rw [if_neg (Ne.symm h), beq_false_of_ne h, Bool.false_or]

theorem Core.foldl_drop_eq (l : List (Nat × HTable)) (c : Core) :
    l.foldl (fun c e => c.setTable e.1 none) c = { c with tables := (l.foldl (fun c e => c.setTable e.1 none) c).tables } := by
  induction l generalizing c with
  | nil => rfl
  | cons e l ih =>
    rw [List.foldl_cons]
    exact ih _

/-- The tables that leave the core with thread h: those of its claim group, if it is the last of it. -/
def State.leavesTables (s : State) (h : Thread) : List (Nat × HTable) :=
  if s.lastOfGroup h then (s.core h.place.core).groupTables h.id.part h.id.lid else []

/-! ## Leaving the core (R389, R486) -/

/-- The state in which thread t has left its core, before what waits for its place looks for it. -/
def State.departed (s : State) (t : Thread) : State :=
  let s := s.releaseRows t
  let c := s.core t.place.core
  let here := s.active && s.cur.id == t.id
  { s.setCore t.place.core (c.unwaited t.place.slot Lat.zero) with
    cur := if here then Thread.reset else s.cur
    active := s.active && !here
    others := s.others.filter (fun u => u.id != t.id)
    timers := s.timers.filter (fun i => !([Instr.laneReclaim t.id, .wfeTimeout t.id, .stagedResend t.id].contains i)) }

theorem State.vacate_eq (s : State) (t : Thread) :
    s.vacate t = (((s.departed t).released t.place.core).lanes t.place.core).redispatch t.id.part := rfl

/-- u is s without thread h on its core. -/
structure State.Vacates (s : State) (h : Thread) (u : State) : Prop where
  rest : u = { s with
    cores := u.cores, quads := u.quads, timers := u.timers, inputs := u.inputs
    cur := if s.active && s.cur.id == h.id then Thread.reset else s.cur
    active := s.active && !(s.active && s.cur.id == h.id)
    others := s.others.filter (fun x => x.id != h.id) }
  core : ∀ j, u.core j = if j = h.place.core then (s.core h.place.core).unwaited h.place.slot Lat.zero else s.core j
  quad : ∀ j, u.quad j = if j = quadOf h.place.core then
    { s.quad j with acc := clearRows h.place.rowBase h.conf.tgrant (s.quad j).acc } else s.quad j
  keptIn : ∀ i ∈ s.inputs, i ∈ u.inputs
  addedIn : ∀ i ∈ u.inputs, i ∈ s.inputs ∨ i = .setvlReevaluation h.place.core ∨ ∃ x, i = .threadDispatch x
  times : State.Retimes (endsWith h.id) (startsWith h.id) s u

theorem State.vacate_vacates (s : State) (h : Thread) : s.Vacates h (s.vacate h) := by
  have h1 := (s.departed h).released_asks h.place.core
  have h2 := (((s.departed h).released h.place.core).lanes h.place.core).redispatch_asks h.id.part
  have hr := h1.lanes_redispatch h.place.core h.id.part
  rw [← State.vacate_eq] at hr
  have hc : (s.vacate h).cores = (s.departed h).cores := (congrArg State.cores hr :)
  have hq : (s.vacate h).quads = (s.departed h).quads := (congrArg State.quads hr :)
  refine ⟨?_, fun j => ?_, fun j => ?_, fun i hi => h2.kept i (h1.kept i hi), fun i hi => ?_, ?_⟩
  · rw [hc, hq]
    exact hr
  · refine (congrArg (fun c => Table.get c Core.reset j) hc).trans ?_
    exact State.core_setCore ..
  · refine (congrArg (fun c => Table.get c Quad.reset j) hq).trans ?_
    refine (State.quad_setQuad ..).trans ?_
    by_cases hj : j = quadOf h.place.core
    · rw [if_pos hj, if_pos hj, hj]
    · rw [if_neg hj, if_neg hj]
  · rcases h2.added i hi with hi | hi
    · exact h1.added i hi
    · exact .inr (.inr ⟨_, hi⟩)
  · refine State.Retimes.trans (State.Retimes.filter (u := s.departed h)
      (fun i => !([Instr.laneReclaim h.id, .wfeTimeout h.id, .stagedResend h.id].contains i)) rfl fun i hi => ?_)
      (State.Retimes.trans (State.Retimes.of_eq (congrArg State.timers h1.rest :)) (State.Retimes.trans (State.lanes_retimes ..)
        (State.Retimes.of_eq (congrArg State.timers h2.rest :))))
    simp only [List.contains_cons, List.contains_nil, Bool.not_eq_false', Bool.or_eq_true, beq_iff_eq, Bool.or_false] at hi
    rcases hi with rfl | rfl | rfl
    · exact .inr (.inr ⟨_, rfl⟩)
    · exact .inl rfl
    · exact .inr (.inl rfl)

end Sys2Proof.Machine
end

section
/-! The whole of a pre-emption (R46, R486, R487, R489). -/
namespace Sys2Proof.Machine

/-- The thread of which the save engine writes the image: a convoy in issue is abandoned (R46). -/
def Thread.imaged (h : Thread) : Thread :=
  { h with viq := abandoned h.viq, pc := (h.framing.map (fun v => v.pc)).getD h.pc }

/-- The thread that a pre-emption saves in area a, with its entry l of the lane allocation table. -/
def Thread.suspended (h : Thread) (a : Nat) (l : Lat) : Thread :=
  let t := { h with viq := abandoned h.viq }
  { t.stopWait with
    place := { t.place with area := some a, weight := l.weight, share := l.share, aged := false, tail := none }
    vr := { t.vr with tags := cleaned t.vr.tags } }

/-- The state after the save engine has written the image of thread h to area a. -/
def State.savedImage (s : State) (h : Thread) (a : Nat) : State :=
  s.saveImage h.id.part a (imagePieces h.imaged (s.tagsOf h) (s.accOf h) (s.leavesTables h))

theorem State.savedImage_logs (s : State) (h : Thread) (a : Nat) : State.Logs h.id.part s (s.savedImage h a) := by
  unfold State.savedImage
  rw [State.saveImage_eq]
  exact savePieces_logs ..

/-- The state between the image and the departure of thread h: its claim group's tables are off, and area a is taken. -/
def State.parked (v : State) (h : Thread) (a : Nat) (l : List (Nat × HTable)) : State :=
  let s2 := if l.isEmpty then v else v.dropTables h.place.core h.id.part h.id.lid
  s2.setPart h.id.part { s2.part h.id.part with areas := (s2.part h.id.part).areas ++ [a] }

/-- The state after the departure of thread h, which waits with entry e in the order of its record. -/
def State.queued (v : State) (h : Thread) (e : Thread × List (Nat × HTable) × Table (BitVec 32)) : State :=
  (({ v with saved := v.saved ++ [e] } : State).timer (.recordAging h.id)).redispatch h.id.part

section
variable {s : State} {h : Thread} {a : Nat}

theorem State.preempt_eq (hf : s.onChip.find? (fun x => x.id == h.id) = some h) (ha : (s.part h.id.part).freeArea = some a) :
    s.preempt h.id none = ((((s.savedImage h a).reframed (s.cancelWaits h.id)).parked h a (s.leavesTables h)).vacate h).queued h
      (h.suspended a (((s.cancelWaits h.id).core h.place.core).latOf h.place.slot), s.leavesTables h, s.accOf h) := by
  have hcan := State.cancelWaits_cancels hf
  unfold State.preempt
  generalize s.cancelWaits h.id = s0 at hcan ⊢
  have hf0 : s0.onChip.find? (fun x => x.id == h.id) = some h := by
    rw [hcan.rest]
    exact hf
  have ha0 : (s0.part h.id.part).freeArea = some a := by
    rw [hcan.rest]
    exact ha
  have hl : s0.lastOfGroup h = s.lastOfGroup h := (congrArg (fun x => State.lastOfGroup x h) hcan.rest :)
  have hacc : s0.accOf h = s.accOf h := (congrArg (fun x => State.accOf x h) hcan.rest :)
  have htag : s0.tagsOf h = s.tagsOf h := (congrArg (fun x => State.tagsOf x h) hcan.rest :)
  have hg : (s0.core h.place.core).groupTables h.id.part h.id.lid = (s.core h.place.core).groupTables h.id.part h.id.lid := by
    rw [hcan.core, if_pos rfl]
    rfl
  have himg : ∀ l, s0.saveImage h.id.part a l = (s.saveImage h.id.part a l).reframed s0 := fun l =>
    ((congrArg (fun x => State.saveImage x h.id.part a l) hcan.rest :)).trans (State.saveImage_reframed ..)
  dsimp only
  rw [hf0, ha0]
  dsimp only
  rw [hl, hacc, hg, himg]
  show _ = State.queued (State.vacate (State.parked (State.reframed (s.saveImage h.id.part a (imagePieces h.imaged (s.tagsOf h) (s.accOf h)
    (s.leavesTables h))) s0) h a (s.leavesTables h)) h) h _
  rw [← htag]
  rfl

end

/-! ## What is gone -/

theorem State.core_reframed (v r : State) (j : Nat) : (v.reframed r).core j = r.core j := rfl

theorem State.parked_rest (v : State) (h : Thread) (a : Nat) (l : List (Nat × HTable)) :
    v.parked h a l = { v with cores := (v.parked h a l).cores, parts := (v.parked h a l).parts } := by
  unfold State.parked
  dsimp only
  split <;> rfl

theorem State.parked_part (v : State) (h : Thread) (a : Nat) (l : List (Nat × HTable)) (j : Nat) :
    (v.parked h a l).part j = if j = h.id.part then { v.part j with areas := (v.part j).areas ++ [a] } else v.part j := by
  have key : ∀ s2 : State, s2.parts = v.parts →
      (s2.setPart h.id.part { s2.part h.id.part with areas := (s2.part h.id.part).areas ++ [a] }).part j =
      if j = h.id.part then { v.part j with areas := (v.part j).areas ++ [a] } else v.part j := by
    intro s2 hp
    have hq : ∀ i, s2.part i = v.part i := fun i => congrArg (fun x => Table.get x Part.reset i) hp
    rw [State.part_setPart, hq, hq]
    by_cases hj : j = h.id.part
    · rw [if_pos hj, if_pos hj, hj]
    · rw [if_neg hj, if_neg hj]
  refine key (if l.isEmpty then v else v.dropTables h.place.core h.id.part h.id.lid) ?_
  split <;> rfl

/-- c without the tables l. -/
def Core.tablesOff (c : Core) (l : List (Nat × HTable)) : Core :=
  { c with tables := (l.foldl (fun c e => c.setTable e.1 none) c).tables }

/-- Where l is empty or the claim group's tables, these and no others leave the core. -/
theorem State.parked_core (v : State) (h : Thread) (a : Nat) {l : List (Nat × HTable)}
    (hl : l = [] ∨ l = (v.core h.place.core).groupTables h.id.part h.id.lid) (j : Nat) :
    (v.parked h a l).core j = if j = h.place.core then (v.core j).tablesOff l else v.core j := by
  have hcore : (v.parked h a l).core j = (if l.isEmpty then v else v.dropTables h.place.core h.id.part h.id.lid).core j := rfl
  rw [hcore]
  cases l with
  | nil =>
    simp only [List.isEmpty_nil, if_true]
    split <;> rfl
  | cons e l =>
    have hg := hl.resolve_left (List.cons_ne_nil e l)
    refine (State.core_setCore ..).trans ?_
    by_cases hj : j = h.place.core
    · rw [if_pos hj, if_pos hj, hj, ← hg]
      exact Core.foldl_drop_eq ..
    · rw [if_neg hj, if_neg hj]

/-- u is s after thread h has gone to area a of its partition's context pool, whose image w holds. -/
structure State.Gone (s : State) (h : Thread) (a : Nat) (w u : State) : Prop where
  saved : u.saved = s.saved ++ [(h.suspended a ((s.core h.place.core).latOf h.place.slot), s.leavesTables h, s.accOf h)]
  core : ∀ j, u.core j = if j = h.place.core then { s.core h.place.core with
    lat := (u.core h.place.core).lat, tables := (u.core h.place.core).tables
    waiters := (s.core h.place.core).waiters.filter (fun x => x != h.place.slot) } else s.core j
  lat : ∀ j, (u.core h.place.core).latOf j = if j = h.place.slot then Lat.zero else (s.core h.place.core).latOf j
  table : ∀ n, (u.core h.place.core).table n =
    if (s.leavesTables h).any (fun e => e.1 == n) = true then none else (s.core h.place.core).table n
  quad : ∀ j, u.quad j = if j = quadOf h.place.core then
    { s.quad j with acc := clearRows h.place.rowBase h.conf.tgrant (s.quad j).acc } else s.quad j
  part : ∀ j, u.part j = if j = h.id.part then { w.part j with areas := (w.part j).areas ++ [a] } else w.part j
  objs : ∀ j, u.objs j = if j = h.id.part then { s.objs j with
    waiters := (s.objs j).waiters.filter (fun w => w.thread != h.id || w.kind == StKind.gate)
    resend := (s.objs j).resend.filter (fun w => w.thread != h.id) } else s.objs j
  aging : .recordAging h.id ∈ u.timers
  times : State.Retimes (endsWith h.id) (startsWith h.id) s u
  keptIn : ∀ i ∈ s.inputs, i ∈ u.inputs
  addedIn : ∀ i ∈ u.inputs, i ∈ s.inputs ∨ i = .setvlReevaluation h.place.core ∨ ∃ x, i = .threadDispatch x
  rest : u = { w with
    cores := u.cores, quads := u.quads, parts := u.parts, objects := u.objects, saved := u.saved
    timers := u.timers, inputs := u.inputs
    active := s.active && s.cur.id != h.id
    cur := if s.active = true ∧ s.cur.id = h.id then Thread.reset else s.cur
    others := s.others.filter (fun x => x.id != h.id) }

theorem State.queued_rest (v : State) (h : Thread) (e : Thread × List (Nat × HTable) × Table (BitVec 32)) :
    v.queued h e = { v with
      saved := v.saved ++ [e], timers := v.timers ++ [.recordAging h.id], inputs := (v.queued h e).inputs } :=
  (State.redispatch_asks (({ v with saved := v.saved ++ [e] } : State).timer (.recordAging h.id)) h.id.part).rest

section
variable {s w s0 p v u : State} {h : Thread} {a : Nat} {e : Thread × List (Nat × HTable) × Table (BitVec 32)}

/-- What the stages of a pre-emption leave alone. -/
theorem State.stages_rest (hw : State.Logs h.id.part s w)
    (hp : p = { w.reframed s0 with cores := p.cores, parts := p.parts }) (hv : p.Vacates h v) (hu : u = v.queued h e) :
    u = { w with
      cores := u.cores, quads := u.quads, parts := u.parts, objects := s0.objects, saved := s.saved ++ [e]
      timers := u.timers, inputs := u.inputs
      active := s.active && s.cur.id != h.id
      cur := if s.active = true ∧ s.cur.id = h.id then Thread.reset else s.cur
      others := s.others.filter (fun x => x.id != h.id) } := by
  have hact : (s.active && !(s.active && s.cur.id == h.id)) = (s.active && s.cur.id != h.id) := by
    cases s.active
    · rfl
    · rfl
  have hcur : (if (s.active && s.cur.id == h.id) = true then Thread.reset else s.cur) =
      if s.active = true ∧ s.cur.id = h.id then Thread.reset else s.cur := by simp only [Bool.and_eq_true, beq_iff_eq]
  obtain ⟨m, b, q, rfl⟩ : ∃ m b q, w = { s with mem := m, hub := b, parts := q } := ⟨_, _, _, hw.rest⟩
  obtain ⟨c, q', rfl⟩ : ∃ c q', p = { State.reframed { s with mem := m, hub := b, parts := q } s0 with cores := c, parts := q' } :=
    ⟨_, _, hp⟩
  have hv' := hv.rest
  rw [← hact, ← hcur, hu]
  refine (State.queued_rest v h e).trans ?_
  have hs : v.saved = s.saved := (congrArg State.saved hv' :)
  have hc : (v.queued h e).cores = v.cores := (congrArg State.cores (v.queued_rest h e) :)
  have hq : (v.queued h e).quads = v.quads := (congrArg State.quads (v.queued_rest h e) :)
  have hpp : (v.queued h e).parts = v.parts := (congrArg State.parts (v.queued_rest h e) :)
  have ht : (v.queued h e).timers = v.timers ++ [Instr.recordAging h.id] := (congrArg State.timers (v.queued_rest h e) :)
  rw [hc, hq, hpp, ht, hs]
  exact congrArg (fun x : State => { x with
    parts := v.parts, saved := s.saved ++ [e], timers := v.timers ++ [Instr.recordAging h.id], inputs := (v.queued h e).inputs }) hv'

/-- A core that the thread of a slot has left, with its waits, its tables and its lane groups. -/
theorem Core.left_eq (c : Core) (slot : Nat) (x : Lat) (l : List (Nat × HTable)) :
    let u := ((c.unwaited slot x).tablesOff l).unwaited slot Lat.zero
    u = { c with lat := u.lat, tables := u.tables, waiters := c.waiters.filter (fun k => k != slot) } ∧
    (∀ j, u.latOf j = if j = slot then Lat.zero else c.latOf j) ∧
    ∀ n, u.table n = if l.any (fun e => e.1 == n) = true then none else c.table n := by
  intro u
  have hw : u.waiters = c.waiters.filter (fun k => k != slot) := c.unwaited_unwaited_waiters slot x
  refine ⟨?_, fun j => ?_, fun n => ?_⟩
  · rw [← hw]
    rfl
  · refine (Core.latOf_unwaited ..).trans ?_
    by_cases hj : j = slot
    · rw [if_pos hj, if_pos hj]
    · rw [if_neg hj, if_neg hj]
      exact (Core.latOf_unwaited ..).trans (if_neg hj)
  · exact Core.table_foldl_drop l (c.unwaited slot x) n

theorem State.queued_inputs (v : State) (h : Thread) (e : Thread × List (Nat × HTable) × Table (BitVec 32)) :
    (∀ i ∈ v.inputs, i ∈ (v.queued h e).inputs) ∧ ∀ i ∈ (v.queued h e).inputs, i ∈ v.inputs ∨ i = .threadDispatch h.id.part :=
  have hr := State.redispatch_asks (({ v with saved := v.saved ++ [e] } : State).timer (.recordAging h.id)) h.id.part
  ⟨hr.kept, hr.added⟩

/-- The timers after the last stage: the record of the thread starts to age. -/
theorem State.queued_retimes {v : State} {h : Thread} {e : Thread × List (Nat × HTable) × Table (BitVec 32)} :
    State.Retimes (endsWith h.id) (startsWith h.id) v (v.queued h e) := by
  have ht : (v.queued h e).timers = v.timers ++ [Instr.recordAging h.id] := (congrArg State.timers (v.queued_rest h e) :)
  refine ⟨fun i hi => ?_, fun i hi => ?_⟩
  · rw [ht]
    exact .inl (List.mem_append_left _ hi)
  · rw [ht] at hi
    exact (List.mem_append.1 hi).imp_right fun hi => .inl (List.mem_singleton.1 hi)

theorem State.queued_aging (v : State) (h : Thread) (e : Thread × List (Nat × HTable) × Table (BitVec 32)) :
    .recordAging h.id ∈ (v.queued h e).timers := by
  have ht : (v.queued h e).timers = v.timers ++ [Instr.recordAging h.id] := (congrArg State.timers (v.queued_rest h e) :)
  rw [ht]
  exact List.mem_append_right _ (List.mem_singleton.2 rfl)

/-- The core after the stages of a pre-emption. -/
theorem State.stages_core (hcan : s.Cancels h s0)
    (hpc : ∀ j, p.core j = if j = h.place.core then (s0.core j).tablesOff (s.leavesTables h) else s0.core j) (hv : p.Vacates h v) (j : Nat) :
    (v.queued h e).core j = if j = h.place.core then (((s.core h.place.core).unwaited h.place.slot
      { (s.core h.place.core).latOf h.place.slot with wait := false }).tablesOff (s.leavesTables h)).unwaited h.place.slot Lat.zero
    else s.core j := by
  have hq : (v.queued h e).core j = v.core j := (congrArg (fun x : State => x.core j) (v.queued_rest h e) :)
  rw [hq, hv.core]
  by_cases hj : j = h.place.core
  · rw [if_pos hj, if_pos hj, hpc, if_pos rfl, hcan.core, if_pos rfl]
  · rw [if_neg hj, if_neg hj, hpc, if_neg hj, hcan.core, if_neg hj]

theorem State.stages_quad (hw : State.Logs h.id.part s w)
    (hp : p = { w.reframed s0 with cores := p.cores, parts := p.parts }) (hv : p.Vacates h v) (j : Nat) :
    (v.queued h e).quad j = if j = quadOf h.place.core then
      { s.quad j with acc := clearRows h.place.rowBase h.conf.tgrant (s.quad j).acc } else s.quad j := by
  have hs : p.quad j = s.quad j :=
    (congrArg (fun x : State => x.quad j) hp :).trans (congrArg (fun x : State => x.quad j) hw.rest :)
  have hq : (v.queued h e).quad j = v.quad j := (congrArg (fun x : State => x.quad j) (v.queued_rest h e) :)
  rw [hq, hv.quad, hs]

theorem State.stages_part (hpp : ∀ j, p.part j =
    if j = h.id.part then { w.part j with areas := (w.part j).areas ++ [a] } else w.part j) (hv : p.Vacates h v) (j : Nat) :
    (v.queued h e).part j = if j = h.id.part then { w.part j with areas := (w.part j).areas ++ [a] } else w.part j := by
  have hq : (v.queued h e).part j = p.part j :=
    (congrArg (fun x : State => x.part j) (v.queued_rest h e) :).trans (congrArg (fun x : State => x.part j) hv.rest :)
  rw [hq, hpp]

/-- The stages of a pre-emption, one after another. -/
theorem State.gone_of_stages (hcan : s.Cancels h s0) (hw : State.Logs h.id.part s w)
    (hpr : p = { w.reframed s0 with cores := p.cores, parts := p.parts })
    (hpp : ∀ j, p.part j = if j = h.id.part then { w.part j with areas := (w.part j).areas ++ [a] } else w.part j)
    (hpc : ∀ j, p.core j = if j = h.place.core then (s0.core j).tablesOff (s.leavesTables h) else s0.core j) (hv : p.Vacates h v)
    (he : e = (h.suspended a ((s.core h.place.core).latOf h.place.slot), s.leavesTables h, s.accOf h)) :
    s.Gone h a w (v.queued h e) := by
  have hrest := State.stages_rest (e := e) hw hpr hv rfl
  have hcore := State.stages_core (e := e) hcan hpc hv
  have hin : p.inputs = s.inputs := (congrArg State.inputs hpr :).trans (congrArg State.inputs hw.rest :)
  have hk := (hcore h.place.core).trans (if_pos rfl)
  obtain ⟨hown, hlat, htab⟩ := (s.core h.place.core).left_eq h.place.slot
    { (s.core h.place.core).latOf h.place.slot with wait := false } (s.leavesTables h)
  rw [← hk] at hown hlat htab
  obtain ⟨hkept, hadded⟩ := v.queued_inputs h e
  have hsaved : (v.queued h e).saved = s.saved ++ [e] := (congrArg State.saved hrest :)
  have hobjs : (v.queued h e).objects = s0.objects := (congrArg State.objects hrest :)
  refine ⟨he ▸ hsaved, fun j => ?_, hlat, htab, State.stages_quad hw hpr hv, State.stages_part hpp hv, fun j => ?_,
    v.queued_aging h e, ?_, fun i hi => hkept i (hv.keptIn i (hin ▸ hi)), fun i hi => ?_, ?_⟩
  · by_cases hj : j = h.place.core
    · rw [if_pos hj, hj]
      exact hown
    · rw [if_neg hj, hcore, if_neg hj]
  · exact (congrArg (fun x => Table.get x Objects.reset j) hobjs).trans (hcan.objs j)
  · exact hcan.times.trans (State.Retimes.trans (State.Retimes.of_eq (congrArg State.timers hpr :)) (hv.times.trans State.queued_retimes))
  · rcases hadded i hi with hi | hi
    · exact hin ▸ hv.addedIn i hi
    · exact .inr (.inr ⟨_, hi⟩)
  · rw [hobjs, hsaved]
    exact hrest

/-- What a pre-emption does to the state (R46, R486, R487). -/
theorem State.preempt_gone (hf : s.onChip.find? (fun x => x.id == h.id) = some h) (ha : (s.part h.id.part).freeArea = some a) :
    s.Gone h a (s.savedImage h a) (s.preempt h.id none) := by
  have hcan := State.cancelWaits_cancels hf
  have hpre := State.preempt_eq hf ha
  have hw := s.savedImage_logs h a
  generalize s.savedImage h a = w at hpre hw
  generalize s.cancelWaits h.id = s0 at hcan hpre
  have hlat : ((s0.core h.place.core).latOf h.place.slot) = { (s.core h.place.core).latOf h.place.slot with wait := false } := by
    rw [hcan.core, if_pos rfl]
    exact (Core.latOf_setLat ..).trans (if_pos rfl)
  have hgroup : s.leavesTables h = [] ∨ s.leavesTables h = ((w.reframed s0).core h.place.core).groupTables h.id.part h.id.lid := by
    rw [State.core_reframed, hcan.core, if_pos rfl]
    unfold State.leavesTables
    split
    · exact .inr rfl
    · exact .inl rfl
  rw [hpre, hlat]
  exact State.gone_of_stages hcan hw ((w.reframed s0).parked_rest h a _) ((w.reframed s0).parked_part h a _)
    ((w.reframed s0).parked_core h a hgroup) (State.vacate_vacates _ h) rfl

end

end Sys2Proof.Machine
end

section
/-! When a thread may be pre-empted, and what its record holds (R46, R151, R486, R487). -/
namespace Sys2Proof.Machine

/-- The lowest free area of the context pool. -/
theorem Part.freeArea_eq_some {p : Part} {a : Nat} (h : p.freeArea = some a) :
    a < p.regs.ctxcount.toNat ∧ a ∉ p.areas ∧ ∀ b < a, b ∈ p.areas := by
  obtain ⟨hp, hr, hlt⟩ := List.find?_range_eq_some.1 h
  exact ⟨List.mem_range.1 hr, by simpa using hp, fun b hb => by simpa using hlt b hb⟩

theorem Part.exists_freeArea (p : Part) : (∃ a, p.freeArea = some a) ↔ ∃ a, a < p.regs.ctxcount.toNat ∧ a ∉ p.areas := by
  refine ⟨fun ⟨a, h⟩ => ⟨a, (Part.freeArea_eq_some h).1, (Part.freeArea_eq_some h).2.1⟩, fun ⟨a, ha, hn⟩ => ?_⟩
  refine Option.isSome_iff_exists.1 (List.find?_isSome.2 ⟨a, List.mem_range.2 ha, ?_⟩)
  simpa using hn

/-- Has a trap arisen at the thread that waits to be taken (R487)? -/
def Thread.trapWaits (h : Thread) : Prop :=
  h.prog.check ≠ none ∨ (∃ c a, h.prog.wait = .retry (.fault c a)) ∨ ∃ x, h.prog.wait = .retry (.trap x)

theorem Thread.not_trapWaits_iff (h : Thread) : ¬ h.trapWaits ↔ h.prog.check.isNone = true ∧
    (match h.prog.wait with
      | .retry (.fault _ _) => false
      | .retry (.trap _) => false
      | _ => true) = true := by
  unfold Thread.trapWaits
  rw [not_or, not_not, Option.isNone_iff_eq_none, not_or]
  refine and_congr_right fun _ => ?_
  constructor
  · rintro ⟨hf, ht⟩
    split
    · next heq => exact absurd ⟨_, _, heq⟩ hf
    · next heq => exact absurd ⟨_, heq⟩ ht
    · rfl
  · intro hm
    constructor
    · rintro ⟨c, a, heq⟩
      rw [heq] at hm
      cases hm
    · rintro ⟨x, heq⟩
      rw [heq] at hm
      cases hm

section
variable {s : State} {t : ThreadId}

theorem State.mayPreempt_iff {h : Thread} (hf : s.onChip.find? (fun x => x.id == t) = some h) :
    s.mayPreempt t = true ↔ ¬ h.trapWaits ∧ ∃ a, a < (s.part t.part).regs.ctxcount.toNat ∧ a ∉ (s.part t.part).areas := by
  rw [Thread.not_trapWaits_iff, ← Part.exists_freeArea, ← Option.isSome_iff_exists]
  unfold State.mayPreempt
  rw [hf]
  dsimp only
  rw [Bool.and_eq_true, Bool.and_eq_true, and_assoc, and_comm] <;> exact Iff.rfl

theorem State.mayPreempt_absent (hf : s.onChip.find? (fun x => x.id == t) = none) : s.mayPreempt t = false := by
  unfold State.mayPreempt
  rw [hf]

theorem exec_preemption_may (h : s.mayPreempt t = true) : exec (.preemption t) s = .next (s.preempt t none) := by
  show execPreemption t s = _
  unfold execPreemption
  rw [if_pos h]

theorem exec_preemption_not (h : s.mayPreempt t = false) : exec (.preemption t) s = .next s := by
  show execPreemption t s = _
  unfold execPreemption
  rw [h]
  rfl

theorem exec_laneReclaim_absent (hf : s.onChip.find? (fun x => x.id == t) = none) : exec (.laneReclaim t) s = .next s := by
  show execLaneReclaim t s = _
  unfold execLaneReclaim
  rw [hf]

theorem exec_laneReclaim {h : Thread} (hf : s.onChip.find? (fun x => x.id == t) = some h) : exec (.laneReclaim t) s =
    if !(s.core h.place.core).reclaims h.place.slot then .next s
    else if s.mayPreempt t && h.place.ran then .next (s.preempt t none)
    else .next (s.timer (.laneReclaim t)) := by
  show execLaneReclaim t s = _
  unfold execLaneReclaim
  rw [hf]

theorem exec_laneReclaim_uncounted {h : Thread} (hf : s.onChip.find? (fun x => x.id == t) = some h)
    (hc : ¬ (s.core h.place.core).reclaims h.place.slot = true) : exec (.laneReclaim t) s = .next s := by
  rw [exec_laneReclaim hf, Bool.eq_false_iff.2 hc]
  rfl

theorem exec_laneReclaim_taken {h : Thread} (hf : s.onChip.find? (fun x => x.id == t) = some h)
    (hc : (s.core h.place.core).reclaims h.place.slot = true) (hm : s.mayPreempt t = true) (hr : h.place.ran = true) :
    exec (.laneReclaim t) s = .next (s.preempt t none) := by
  rw [exec_laneReclaim hf, hc, hm, hr]
  rfl

theorem exec_laneReclaim_deferred {h : Thread} (hf : s.onChip.find? (fun x => x.id == t) = some h)
    (hc : (s.core h.place.core).reclaims h.place.slot = true) (hn : ¬ s.mayPreempt t = true ∨ h.place.ran = false) :
    exec (.laneReclaim t) s = .next { s with timers := s.timers ++ [.laneReclaim t] } := by
  have hb : (s.mayPreempt t && h.place.ran) = false := by
    rcases hn with hn | hn
    · rw [Bool.eq_false_iff.2 hn, Bool.false_and]
    · rw [hn, Bool.and_false]
  rw [exec_laneReclaim hf, hc, hb]
  rfl

end

theorem Lat.held_eq_countP (l : Lat) : l.held = (List.range 8).countP (fun i => l.map.getLsbD i) := by
  rw [List.countP_eq_length_filter]
  rfl

/-- R151: the interval is counted while the thread holds more than its entitlement and another one waits, or the core holds more
than its ceiling. -/
theorem Core.reclaims_iff (c : Core) (t : Nat) : c.reclaims t = true ↔
    (if (c.latOf t).pm then max (2 * (c.shareOf t / 2)) 2 else max (c.shareOf t) 1) < (c.latOf t).held ∧
    ((∃ k ∈ List.range 4, k ≠ t ∧ (c.latOf k).wait = true) ∨
      max c.ceil ((List.range 4).countP (fun k => decide (0 < (c.latOf k).held))) < ((List.range 4).map (fun k => (c.latOf k).held)).sum) := by
  unfold Core.reclaims Core.entitle
  simp only [Bool.and_eq_true, decide_eq_true_eq, Bool.or_eq_true, List.any_eq_true, bne_iff_ne, sumNat_eq_sum,
    List.countP_eq_length_filter, Nat.mul_comm 2]

/-- A convoy in issue executes again from its first word; the other entries keep their pasts (R46). -/
theorem abandoned_eq (l : List VEntry) : abandoned l = l.map (fun e => match e with
    | .convoy v => .convoy { v with done := 0, pushes := [] }
    | e => e) := by
  have hh : ∀ h : Held, ({ h with undo := h.undo.map id } : Held) = h := fun h => by rw [Option.map_id]; rfl
  refine List.map_congr_left fun e _ => ?_
  cases e with
  | convoy c => rfl
  | write ws => rfl
  | reply n regs => rfl
  | access => exact congrArg (VEntry.access · _ _ _) (hh _)
  | tile => exact congrArg (VEntry.tile · _ _ _) (hh _)
  | vamo => exact congrArg (VEntry.vamo · _ _ _) (hh _)
  | scalar => exact congrArg (VEntry.scalar · _ _) (hh _)

/-- The request tags of a thread that gives up its wait: one that waits for a peer keeps its own (R260). -/
def Thread.tagsKept (h : Thread) : Table (Option (Word × Nat)) :=
  match h.prog.wait with
  | .retry (.peer k) => Table.set h.prog.resend none h.level (some (h.pc, k))
  | _ => h.prog.resend

theorem Thread.stopWait_eq (h : Thread) : h.stopWait = { h with prog := { h.prog with resend := h.tagsKept, wait := .none } } := by
  by_cases hw : ∃ k, h.prog.wait = .retry (.peer k)
  · obtain ⟨k, hw⟩ := hw
    have ht : h.tagsKept = Table.set h.prog.resend none h.level (some (h.pc, k)) := by
      unfold Thread.tagsKept
      rw [hw]
    rw [ht]
    unfold Thread.stopWait
    rw [hw]
    rfl
  · have ht : h.tagsKept = h.prog.resend := by
      unfold Thread.tagsKept
      split
      · next heq => exact absurd ⟨_, heq⟩ hw
      · rfl
    rw [ht]
    unfold Thread.stopWait
    split
    · next heq => exact absurd ⟨_, heq⟩ hw
    · rfl

/-- The thread that a pre-emption saves, field by field (R260, R486, R488, R489). -/
theorem Thread.suspended_eq (h : Thread) (a : Nat) (l : Lat) : h.suspended a l =
    { h with
      viq := abandoned h.viq
      vr := { h.vr with tags := h.vr.tags.map (fun e => (e.1, { e.2 with dirt := .clean })) }
      place := { h.place with area := some a, weight := l.weight, share := l.share, aged := false, tail := none }
      prog := { h.prog with resend := h.tagsKept, wait := .none } } := by
  unfold Thread.suspended
  dsimp only
  rw [Thread.stopWait_eq]
  rfl

theorem Thread.imaged_eq (h : Thread) : h.imaged = { h with
    viq := abandoned h.viq
    pc := match h.framing with
      | some v => v.pc
      | none => h.pc } := by
  unfold Thread.imaged
  cases h.framing <;> rfl

/-- Is thread h the last of its claim group on its core, in terms of the threads there? -/
theorem State.lastOfGroup_eq (s : State) (h : Thread) : s.lastOfGroup h =
    (s.onChip.filter (fun x => x.id.part == h.id.part && x.id.lid == h.id.lid && x.place.core == h.place.core)).all
      (fun x => x.id == h.id) := by
  unfold State.lastOfGroup
  rw [Bool.eq_iff_iff, Bool.not_eq_true', List.any_eq_false, List.all_eq_true]
  simp only [List.mem_filter, Bool.and_eq_true, bne_iff_ne, beq_iff_eq, not_and, ne_eq]
  exact ⟨fun hn x ⟨hx, ⟨h1, h2⟩, h3⟩ => by_contra fun hne => hn x hx ⟨⟨hne, h1⟩, h2⟩ h3,
    fun ha x hx ⟨⟨hne, h1⟩, h2⟩ h3 => hne (ha x ⟨hx, ⟨h1, h2⟩, h3⟩)⟩

theorem State.leavesTables_eq (s : State) (h : Thread) : s.leavesTables h =
    if (s.onChip.filter (fun x => x.id.part == h.id.part && x.id.lid == h.id.lid && x.place.core == h.place.core)).all
      (fun x => x.id == h.id) = true then (s.core h.place.core).groupTables h.id.part h.id.lid else [] := by
  rw [← State.lastOfGroup_eq]
  rfl

/-- The save engine writes the pieces of the image one after another (R487). -/
theorem State.savedImage_eq (s : State) (h : Thread) (a : Nat) {t : Thread} {tables : List (Nat × HTable)} (ht : t = h.imaged)
    (hl : tables = s.leavesTables h) : s.savedImage h a =
      ((imagePieces t (s.tagsOf h) (s.accOf h) tables).filter (fun e => decide (e.1 + e.2.length ≤ 2 ^ 20))).foldl
        (savePiece h.id.part a (s.part h.id.part) s.synd) s := by
  rw [ht, hl]
  exact State.saveImage_eq ..

namespace State.Gone
variable {s w u : State} {h : Thread} {a : Nat}

theorem core_of (hg : s.Gone h a w u) (hw : w.cores = s.cores) (j : Nat) :
    u.core j = if j = h.place.core then { s.core h.place.core with
      lat := (u.core h.place.core).lat, tables := (u.core h.place.core).tables
      waiters := (s.core h.place.core).waiters.filter (fun x => x != h.place.slot) } else w.core j := by
  have hc : w.core j = s.core j := congrArg (fun x => Table.get x Core.reset j) hw
  rw [hc]
  exact hg.core j

theorem quad_of (hg : s.Gone h a w u) (hw : w.quads = s.quads) (j : Nat) :
    u.quad j = if j = h.place.core / 4 then { s.quad (h.place.core / 4) with
      acc := clearRows h.place.rowBase h.conf.tgrant (s.quad (h.place.core / 4)).acc } else w.quad j := by
  have hq : w.quad j = s.quad j := congrArg (fun x => Table.get x Quad.reset j) hw
  rw [hq, hg.quad]
  unfold quadOf
  by_cases hj : j = h.place.core / 4
  · rw [if_pos hj, if_pos hj, hj]
  · rw [if_neg hj, if_neg hj]

theorem table_of (hg : s.Gone h a w u) {last : Bool} {group : List (Nat × HTable)}
    (hl : (if last = true then group else []) = s.leavesTables h) (n : Nat) : (u.core h.place.core).table n =
      if last = true ∧ group.any (fun e => e.1 == n) = true then none else (s.core h.place.core).table n := by
  rw [hg.table, ← hl]
  refine if_congr ?_ rfl rfl
  cases last
  · simp
  · simp

theorem saved_of (hg : s.Gone h a w u) {viq : List VEntry} {tables : List (Nat × HTable)} (hv : viq = abandoned h.viq)
    (hl : tables = s.leavesTables h) : u.saved = s.saved ++ [({ h with
      viq := viq
      vr := { h.vr with tags := h.vr.tags.map (fun e => (e.1, { e.2 with dirt := .clean })) }
      place := { h.place with
        area := some a, weight := ((s.core h.place.core).latOf h.place.slot).weight
        share := ((s.core h.place.core).latOf h.place.slot).share, aged := false, tail := none }
      prog := { h.prog with resend := h.tagsKept, wait := .none } }, tables, s.accOf h)] := by
  rw [hg.saved, Thread.suspended_eq, hl, hv]

end State.Gone

end Sys2Proof.Machine
end

section
/-! Resumption (R265, R391, R470, R489). -/
namespace Sys2Proof.Machine

/-! ## The core that takes a saved thread (R265, R489) -/

theorem State.homes_own (s : State) (t : Thread) : ∃ l, s.homes t = t.place.core :: l := by
  unfold State.homes
  dsimp only
  split_ifs
  · exact ⟨_, rfl⟩
  · exact ⟨_, rfl⟩
  · exact ⟨_, rfl⟩
  · exact ⟨_, rfl⟩

/-- A saved thread returns to its own core where that takes it. -/
theorem State.homeFor_own {s : State} {t : Thread} (h : s.fits t t.place.core = true) : s.homeFor t = some t.place.core := by
  obtain ⟨l, hl⟩ := s.homes_own t
  unfold State.homeFor
  dsimp only
  rw [hl, List.filter_cons_of_pos h]
  exact if_pos rfl

/-- The core that takes a saved thread is one of those on which it may resume. -/
theorem State.homeFor_mem {s : State} {t : Thread} {k : Nat} (h : s.homeFor t = some k) : k ∈ s.homes t ∧ s.fits t k = true := by
  refine List.mem_filter.1 ?_
  unfold State.homeFor at h
  dsimp only at h
  split at h
  · cases h
  · next c r heq =>
    rw [heq]
    split at h
    · obtain rfl := Option.some.inj h
      exact List.mem_cons_self
    · obtain rfl := Option.some.inj h
      have hlt : Config.choice s.fresh (2 ^ 59) % (r.length + 1) < (c :: r).length := Nat.mod_lt _ (Nat.succ_pos _)
      rw [List.getD_eq_getElem _ _ hlt]
      exact List.getElem_mem _

/-- The slot that a saved thread takes on a core. -/
def State.resumeSlot (s : State) (t : Thread) (core : Nat) : Nat :=
  if s.slotBound t && !t.moved then t.place.slot else s.takeSlot core

theorem State.takeSlot_mem {s : State} {core : Nat} (h : s.freeSlots core ≠ []) : s.takeSlot core ∈ s.freeSlots core := by
  unfold State.takeSlot
  dsimp only
  rw [List.getD_eq_getElem _ _ (Nat.mod_lt _ (List.length_pos_iff.2 h))]
  exact List.getElem_mem _

theorem State.slotFor_free {s : State} {id : ThreadId} {core : Nat} (h : s.slotFor id core = true) : s.freeSlots core ≠ [] := by
  unfold State.slotFor at h
  split at h
  · split at h
    · simp only [Bool.and_eq_true, Bool.not_eq_true', List.isEmpty_eq_false_iff] at h
      exact h.2
    · cases h
  · cases h

/-- The lane groups of a saved thread. -/
def Thread.laneCount (t : Thread) : Nat := if vtPm t.conf.vtype then 2 * t.conf.grant else t.conf.grant

/-- What a core offers to a thread that it takes. -/
structure State.Takes (s : State) (t : Thread) (k : Nat) : Prop where
  slot : s.resumeSlot t k ∈ s.freeSlots k
  lanes : (groupsOf ((s.core k).regroup 0 (vtPm t.conf.vtype) t.laneCount)).length = t.laneCount

theorem State.takes_of_fits {s : State} {t : Thread} {k : Nat} (h : s.fits t k = true) : s.Takes t k := by
  unfold State.fits at h
  simp only [Bool.and_eq_true, decide_eq_true_eq] at h
  obtain ⟨⟨⟨⟨⟨_, hslot⟩, hbound⟩, hlanes⟩, _⟩, _⟩ := h
  refine ⟨?_, hlanes⟩
  unfold State.resumeSlot
  split
  · next hb =>
    rw [hb] at hbound
    simpa using And.right (by simpa using hbound)
  · exact State.takeSlot_mem (State.slotFor_free hslot)

/-! ## Rows (R391) -/

theorem Table.not_mem_of_sorted {β : Type} {t : Table β} {lo j : Nat} (hs : Table.sorted t lo = true) (hj : j < lo) :
    j ∉ t.map (fun e => e.1) := by
  induction t generalizing lo with
  | nil => exact List.not_mem_nil
  | cons e r ih =>
    simp only [Table.sorted, Bool.and_eq_true, decide_eq_true_eq] at hs
    rw [List.map_cons, List.mem_cons, not_or]
    exact ⟨by omega, ih hs.2 (by omega)⟩

/-- The words of rows, from a base on, after the words of a table have been put there: the table's where it lists one. -/
theorem Table.get_foldl_rows {acc : Table (BitVec 32)} {lo : Nat} (hs : Table.sorted acc lo = true) (b j : Nat) (m : Table (BitVec 32)) :
    Table.get (acc.foldl (fun m e => Table.set m 0#32 (b + e.1) e.2) m) 0#32 (b + j) =
      if j ∈ acc.map (fun e => e.1) then Table.get acc 0#32 j else Table.get m 0#32 (b + j) := by
  induction acc generalizing lo m with
  | nil => rfl
  | cons e r ih =>
    obtain ⟨k, v⟩ := e
    simp only [Table.sorted, Bool.and_eq_true, decide_eq_true_eq] at hs
    have hget : Table.get ((k, v) :: r) 0#32 j = if k = j then v else Table.get r 0#32 j := rfl
    rw [List.foldl_cons, ih hs.2, Table.get_set, hget, List.map_cons]
    by_cases hj : j ∈ r.map (fun e => e.1)
    · have hne : k ≠ j := by
        rintro rfl
        exact Table.not_mem_of_sorted hs.2 (Nat.lt_succ_self _) hj
      rw [if_pos hj, if_pos (List.mem_cons_of_mem _ hj), if_neg hne]
    · rw [if_neg hj]
      by_cases hk : j = k
      · rw [if_pos (by rw [hk]), if_pos (hk ▸ List.mem_cons_self), if_pos hk.symm]
      · rw [if_neg (by omega), if_neg (List.not_mem_cons_of_ne_of_not_mem hk hj)]

theorem get_clearRows (first n : Nat) (acc : Table (BitVec 32)) (k : Nat) :
    Table.get (clearRows first n acc) 0#32 k = if 1024 * first ≤ k ∧ k < 1024 * (first + n) then 0#32 else Table.get acc 0#32 k := by
  refine (Table.get_filter_key (fun k => !(decide (1024 * first ≤ k) && decide (k < 1024 * (first + n)))) acc 0#32 k).trans ?_
  have hb : (!(decide (1024 * first ≤ k) && decide (k < 1024 * (first + n)))) = true ↔ ¬ (1024 * first ≤ k ∧ k < 1024 * (first + n)) := by
    rw [Bool.not_eq_true', ← Bool.not_eq_true, Bool.and_eq_true, decide_eq_true_eq, decide_eq_true_eq]
  by_cases h : 1024 * first ≤ k ∧ k < 1024 * (first + n)
  · rw [if_pos h, if_neg (mt hb.1 (not_not.2 h))]
  · rw [if_neg h, if_pos (hb.2 h)]

/-- The rows of a resumed thread hold the words that its record kept. -/
theorem get_rowsBack {acc : Table (BitVec 32)} (hw : Table.wf acc 0#32 = true) (first n j : Nat) (hj : j < 1024 * n) (q : Table (BitVec 32)) :
    Table.get (acc.foldl (fun m e => Table.set m 0#32 (1024 * first + e.1) e.2) (clearRows first n q)) 0#32 (1024 * first + j) =
      Table.get acc 0#32 j := by
  rw [Table.wf, Bool.and_eq_true] at hw
  rw [Table.get_foldl_rows hw.1, get_clearRows]
  by_cases h : j ∈ acc.map (fun e => e.1)
  · rw [if_pos h]
  · rw [if_neg h, if_pos (by omega), Table.get_of_not_mem_keys _ _ h]

/-! ## Tables (R265) -/

theorem Core.foldl_setTable_eq (l : List (Nat × HTable)) (c : Core) :
    l.foldl (fun c e => c.setTable e.1 (some e.2)) c =
      { c with tables := (l.foldl (fun c e => c.setTable e.1 (some e.2)) c).tables } := by
  induction l generalizing c with
  | nil => rfl
  | cons e l ih =>
    rw [List.foldl_cons]
    exact ih _

/-- Tables put on a core, one after another, stand there. -/
theorem Core.table_foldl_setTable (l : List (Nat × HTable)) (c : Core) (n : Nat) (h : (∃ e ∈ l, e.1 = n) ∨ ∃ x, c.table n = some x) :
    ∃ x, (l.foldl (fun c e => c.setTable e.1 (some e.2)) c).table n = some x := by
  induction l generalizing c with
  | nil =>
    rcases h with ⟨_, he, _⟩ | h
    · cases he
    · exact h
  | cons e l ih =>
    refine ih _ ?_
    by_cases hn : n = e.1
    · exact .inr ⟨e.2, (Core.table_setTable ..).trans (if_pos hn)⟩
    · rcases h with ⟨d, hd, rfl⟩ | ⟨x, hx⟩
      · rcases List.mem_cons.1 hd with rfl | hd
        · exact absurd rfl hn
        · exact .inl ⟨d, hd, rfl⟩
      · exact .inr ⟨x, ((Core.table_setTable ..).trans (if_neg hn)).trans hx⟩

end Sys2Proof.Machine
end

section
/-! What a resumed thread finds (R66, R265, R391, R470, R489). -/
namespace Sys2Proof.Machine

/-! ## The core (R144, R265) -/

/-- The entry of the lane allocation table for a resumed thread: what it had, on lane groups that are free. -/
def Core.entryFor (c : Core) (t : Thread) : Lat :=
  ⟨t.place.weight, c.regroup 0 (vtPm t.conf.vtype) t.laneCount, t.place.share, vtPm t.conf.vtype && decide (t.conf.grant ≠ 0), false⟩

/-- A core that takes a saved thread into a slot, with the tables of its claim group. -/
def Core.hosting (c : Core) (t : Thread) (slot : Nat) (tables : List (Nat × HTable)) : Core :=
  let c0 := tables.foldl (fun c e => c.setTable e.1 (some e.2)) c
  let c1 := c0.setLat slot (c0.entryFor t)
  { c1 with spad := if tables.isEmpty then c1.spad else cutSpad c1.spadSize c1.spad }

theorem Core.latOf_hosting (c : Core) (t : Thread) (slot : Nat) (tables : List (Nat × HTable)) (j : Nat) :
    (c.hosting t slot tables).latOf j = if j = slot then c.entryFor t else c.latOf j := by
  have hc := Core.foldl_setTable_eq tables c
  have hlat : ∀ i, (tables.foldl (fun c e => c.setTable e.1 (some e.2)) c).latOf i = c.latOf i := fun i =>
    (congrArg (fun x : Core => x.latOf i) hc :)
  have he : (tables.foldl (fun c e => c.setTable e.1 (some e.2)) c).entryFor t = c.entryFor t := by rw [hc]; rfl
  refine (Core.latOf_setLat ..).trans ?_
  rw [he, hlat]

theorem Core.table_hosting (c : Core) (t : Thread) (slot : Nat) {tables : List (Nat × HTable)} {e : Nat × HTable} (he : e ∈ tables) :
    ∃ x, (c.hosting t slot tables).table e.1 = some x :=
  Core.table_foldl_setTable tables c e.1 (.inl ⟨e, he, rfl⟩)

/-! ## The records of a moved thread (R470) -/

theorem State.copyRecords_logs (s : State) (t : Thread) (core slot : Nat) : State.Logs t.id.part s (s.copyRecords t core slot) := by
  unfold State.copyRecords
  split
  · exact .refl ..
  · refine State.foldl_logs (fun v k => ?_) _ s
    dsimp only
    split
    · exact .refl ..
    · split
      · exact State.putBy_logs ..
      · exact State.logViolation_logs ..
      · exact State.logViolation_logs ..

theorem State.copyRecords_still (s : State) {t : Thread} (h : t.moved = false) (core slot : Nat) : s.copyRecords t core slot = s := by
  unfold State.copyRecords
  rw [h]
  rfl

theorem PartRegs2.resumeRing_kept (r2 : PartRegs2) {t : Thread} (hm : t.moved = false) (hr : t.ring ≠ 0#2) (k core slot : Nat) :
    r2.resumeRing t k core slot = t.rings.get k := by
  unfold PartRegs2.resumeRing
  dsimp only
  rw [hm, decide_eq_false hr]
  exact if_neg (by simp)

/-! ## The thread -/

/-- The first row of a resumed thread. -/
def State.resumeRows (s : State) (t : Thread) (core : Nat) : Nat :=
  if t.conf.tgrant = 0 then 0 else (rowsAt (s.heldRows (quadOf core)) t.conf.tgrant).getD 0

/-- The thread as it resumes. -/
def State.resumedThread (s : State) (t : Thread) (core : Nat) : Thread :=
  let slot := s.resumeSlot t core
  let ring := fun (k : Nat) => (s.part t.id.part).regs2.resumeRing t k core slot
  { t with
    place := { t.place with
      core := core, slot := slot, area := none, rowBase := s.resumeRows t core, aged := false, tail := none, ran := false }
    rings := ⟨ring 1, ring 2, ring 3⟩ }

/-- The rows of a quad for a resumed thread. -/
def Quad.rowsBack (q : Quad) (t : Thread) (rows : Nat) (acc : Table (BitVec 32)) : Quad :=
  { q with
    acc := acc.foldl (fun m e => Table.set m 0#32 (1024 * rows + e.1) e.2) (clearRows rows t.conf.tgrant q.acc)
    slots := if t.moved then [] else q.slots }

/-- The areas of a partition once a thread has left its own. -/
def Part.areasWithout (p : Part) (t : Thread) : List Nat :=
  match t.place.area with
  | some k => p.areas.filter (fun x => x != k)
  | none => p.areas

theorem Part.areasWithout_eq (p : Part) (t : Thread) : p.areasWithout t = p.areas.filter (fun x => t.place.area != some x) := by
  unfold Part.areasWithout
  cases t.place.area with
  | none => exact (List.filter_eq_self.2 fun _ _ => rfl).symm
  | some k =>
    refine List.filter_congr fun x _ => ?_
    rw [Bool.eq_iff_iff, bne_iff_ne, bne_iff_ne, ne_eq, ne_eq, Option.some.injEq, eq_comm]

/-- The records that stay saved: a claim group's tables stand on the core that its first thread resumes on. -/
def stillSaved (t : Thread) (core : Nat) (tables : List (Nat × HTable)) (l : List (Thread × List (Nat × HTable) × Table (BitVec 32))) :
    List (Thread × List (Nat × HTable) × Table (BitVec 32)) :=
  (l.filter (fun e => e.1.id != t.id)).map (fun e =>
    if sameGroup t e.1 && !tables.isEmpty then ({ e.1 with place := { e.1.place with core := core } }, ([], e.2.2)) else e)

theorem stillSaved_ids {t : Thread} {core : Nat} {tables : List (Nat × HTable)} {l : List (Thread × List (Nat × HTable) × Table (BitVec 32))}
    {e : Thread × List (Nat × HTable) × Table (BitVec 32)} (he : e ∈ stillSaved t core tables l) : e.1.id ≠ t.id := by
  obtain ⟨d, hd, rfl⟩ := List.mem_map.1 he
  have hn : d.1.id ≠ t.id := by simpa using (List.mem_filter.1 hd).2
  split
  · exact hn
  · exact hn

/-- The state after a thread has got its core and its rows. -/
def State.hosted (v s : State) (t : Thread) (acc : Table (BitVec 32)) (core : Nat) : State :=
  let s1 := v.setCore core ((v.core core).hosting t (s.resumeSlot t core) (s.savedTables t))
  if t.conf.tgrant = 0 then s1
  else s1.setQuad (quadOf core) ((s1.quad (quadOf core)).rowsBack t (s.resumeRows t core) acc)

section
variable (v s : State) (t : Thread) (acc : Table (BitVec 32)) (core : Nat)

theorem State.hosted_rest : v.hosted s t acc core =
    { v with cores := (v.hosted s t acc core).cores, quads := (v.hosted s t acc core).quads } := by
  unfold State.hosted
  dsimp only
  split <;> rfl

theorem State.hosted_core (j : Nat) : (v.hosted s t acc core).core j =
    if j = core then (v.core core).hosting t (s.resumeSlot t core) (s.savedTables t) else v.core j := by
  have h : (v.hosted s t acc core).cores =
      (v.setCore core ((v.core core).hosting t (s.resumeSlot t core) (s.savedTables t))).cores := by
    unfold State.hosted
    dsimp only
    split <;> rfl
  exact (congrArg (fun x => Table.get x Core.reset j) h).trans (State.core_setCore ..)

theorem State.hosted_quad_other {j : Nat} (hj : j ≠ quadOf core) : (v.hosted s t acc core).quad j = v.quad j := by
  unfold State.hosted
  dsimp only
  split
  · rfl
  · exact (State.quad_setQuad ..).trans (if_neg hj)

theorem State.hosted_quad (ht : t.conf.tgrant ≠ 0) :
    (v.hosted s t acc core).quad (quadOf core) = (v.quad (quadOf core)).rowsBack t (s.resumeRows t core) acc := by
  unfold State.hosted
  dsimp only
  rw [if_neg ht]
  exact (State.quad_setQuad ..).trans (if_pos rfl)

end

/-- u is s after thread t has resumed on a core with the accumulator words acc. -/
structure State.Resumed (s : State) (t : Thread) (acc : Table (BitVec 32)) (k : Nat) (u : State) : Prop where
  others : u.others = s.others ++ [s.resumedThread t k]
  core : ∀ j, u.core j = if j = k then (s.core k).hosting t (s.resumeSlot t k) (s.savedTables t) else s.core j
  rows : Table.wf acc 0#32 = true → ∀ j < 1024 * t.conf.tgrant,
    Table.get (u.quad (quadOf k)).acc 0#32 (1024 * s.resumeRows t k + j) = Table.get acc 0#32 j
  quads : ∀ j, j ≠ quadOf k → u.quad j = s.quad j
  saved : u.saved = stillSaved t k (s.savedTables t) s.saved
  parts : ∀ j, j ≠ t.id.part → u.part j = s.part j
  part : t.moved = false → u.part t.id.part = { s.part t.id.part with areas := (s.part t.id.part).areasWithout t }
  rest : u = { s with
    mem := u.mem, hub := u.hub, cores := u.cores, quads := u.quads, parts := u.parts
    others := u.others, saved := u.saved, timers := u.timers }
  still : t.moved = false → u.mem = s.mem ∧ u.hub = s.hub

section
variable {s v : State} {t : Thread} {acc : Table (BitVec 32)} {k : Nat}

/-- The last stage of a resumption. -/
def State.resumedFrom (s x : State) (t : Thread) (k : Nat) : State :=
  let s3 := x.setPart t.id.part { x.part t.id.part with areas := (s.part t.id.part).areasWithout t }
  ({ s3 with
    others := s3.others ++ [s.resumedThread t k]
    saved := stillSaved t k (s.savedTables t) s3.saved
    timers := s3.timers.filter (fun i => i != Instr.recordAging t.id) } : State).lanes k

theorem State.resumeOn_eq (s : State) (t : Thread) (acc : Table (BitVec 32)) (k : Nat) : s.resumeOn t acc k =
    s.resumedFrom ((s.copyRecords t k (s.resumeSlot t k)).hosted s t acc k) t k := rfl

theorem State.resumedFrom_rest (x : State) : s.resumedFrom x t k = { x with
    parts := (s.resumedFrom x t k).parts, others := (s.resumedFrom x t k).others, saved := (s.resumedFrom x t k).saved
    timers := (s.resumedFrom x t k).timers } := rfl

theorem State.resumed_of (hv : State.Logs t.id.part s v) (hm : t.moved = false → v = s) :
    s.Resumed t acc k (s.resumedFrom (v.hosted s t acc k) t k) := by
  have hr := v.hosted_rest s t acc k
  have hc := v.hosted_core s t acc k
  have hq := fun j (hj : j ≠ quadOf k) => v.hosted_quad_other s t acc k hj
  have hqk := v.hosted_quad s t acc k
  generalize v.hosted s t acc k = x at hr hc hq hqk ⊢
  have hvc : ∀ j, v.core j = s.core j := fun j => (congrArg (fun y : State => y.core j) hv.rest :)
  have hvq : ∀ j, v.quad j = s.quad j := fun j => (congrArg (fun y : State => y.quad j) hv.rest :)
  have hxp : ∀ j, x.part j = v.part j := fun j => (congrArg (fun y : State => y.part j) hr :)
  have ho : x.others = s.others := ((congrArg State.others hr :)).trans (congrArg State.others hv.rest :)
  have hs : x.saved = s.saved := ((congrArg State.saved hr :)).trans (congrArg State.saved hv.rest :)
  have hpart : ∀ j, (s.resumedFrom x t k).part j =
      if j = t.id.part then { x.part t.id.part with areas := (s.part t.id.part).areasWithout t } else x.part j := fun j =>
    State.part_setPart ..
  have hrest := (State.resumedFrom_rest (s := s) (t := t) (k := k) x).trans (congrArg (fun y : State => { y with
    parts := (s.resumedFrom x t k).parts, others := (s.resumedFrom x t k).others, saved := (s.resumedFrom x t k).saved
    timers := (s.resumedFrom x t k).timers })
    (hr.trans (congrArg (fun y : State => { y with cores := x.cores, quads := x.quads }) hv.rest)))
  have hmem : (s.resumedFrom x t k).mem = v.mem := (congrArg State.mem hrest :)
  have hhub : (s.resumedFrom x t k).hub = v.hub := (congrArg State.hub hrest :)
  have hcores : (s.resumedFrom x t k).cores = x.cores := (congrArg State.cores hrest :)
  have hquads : (s.resumedFrom x t k).quads = x.quads := (congrArg State.quads hrest :)
  refine ⟨?_, fun j => ?_, fun hw j hj => ?_, fun j hj => ?_, ?_, fun j hj => ?_, fun hn => ?_, ?_, fun hn => ?_⟩
  · rw [← ho]
    rfl
  · rw [← hvc, ← hvc]
    exact hc j
  · have ht : t.conf.tgrant ≠ 0 := by
      intro h0
      rw [h0] at hj
      omega
    have hqu : (s.resumedFrom x t k).quad (quadOf k) = (v.quad (quadOf k)).rowsBack t (s.resumeRows t k) acc := hqk ht
    rw [hqu]
    exact get_rowsBack hw _ _ _ hj _
  · exact (hq j hj).trans (hvq j)
  · rw [← hs]
    rfl
  · rw [hpart, if_neg hj, hxp, hv.others j hj]
  · rw [hpart, if_pos rfl, hxp, hm hn]
  · rw [hmem, hhub, hcores, hquads]
    exact hrest
  · rw [hmem, hhub, hm hn]
    exact ⟨rfl, rfl⟩

theorem State.resumeOn_resumed (s : State) (t : Thread) (acc : Table (BitVec 32)) (k : Nat) : s.Resumed t acc k (s.resumeOn t acc k) := by
  rw [State.resumeOn_eq]
  exact State.resumed_of (s.copyRecords_logs t k _) (fun hm => s.copyRecords_still hm k _)

end

/-! ## The step (R489) -/

theorem State.saved_find_id {β : Type} {l : List (Thread × β)} {t : ThreadId} {e : Thread × β} (hf : l.find? (fun x => x.1.id == t) = some e) :
    e.1.id = t := by
  simpa using List.find?_some hf

section
variable {s : State} {t : ThreadId} {h : Thread} {e : List (Nat × HTable) × Table (BitVec 32)}

theorem exec_resume (s : State) (t : ThreadId) : exec (.resume t) s = .next ((s.tryResume t).getD s) := rfl

theorem exec_resume_absent (hf : s.saved.find? (fun e => e.1.id == t) = none) : exec (.resume t) s = .next s := by
  rw [exec_resume, State.tryResume, hf]
  rfl

theorem exec_resume_none (hf : s.saved.find? (fun e => e.1.id == t) = some (h, e)) (hn : s.homeFor h = none) :
    exec (.resume t) s = .next s := by
  rw [exec_resume, State.tryResume, hf]
  dsimp only
  rw [hn]
  rfl

theorem exec_resume_some (hf : s.saved.find? (fun e => e.1.id == t) = some (h, e)) {k : Nat} (hk : s.homeFor h = some k) :
    exec (.resume t) s = .next (s.resumeOn h e.2 k) := by
  rw [exec_resume, State.tryResume, hf]
  dsimp only
  rw [hk]
  rfl

theorem State.resumedThread_rings {k : Nat} (hm : h.moved = false) (hr : h.ring ≠ 0#2) : (s.resumedThread h k).rings = h.rings := by
  unfold State.resumedThread
  dsimp only
  rw [PartRegs2.resumeRing_kept _ hm hr, PartRegs2.resumeRing_kept _ hm hr, PartRegs2.resumeRing_kept _ hm hr]
  rfl

end

end Sys2Proof.Machine
end

section
/-! The order in which records start, and what they start with (R66, R427, R431, R432, R470). -/
namespace Sys2Proof.Machine

/-! ## The order (R432) -/

theorem lexLe_cons (x y : Nat) (a b : List Nat) : lexLe (x :: a) (y :: b) = true ↔ x < y ∨ x = y ∧ lexLe a b = true := by
  rw [lexLe, Bool.or_eq_true, Bool.and_eq_true, decide_eq_true_eq, beq_iff_eq]

theorem lexLe_trans {a b c : List Nat} (hab : lexLe a b = true) (hbc : lexLe b c = true) : lexLe a c = true := by
  induction a generalizing b c with
  | nil => rfl
  | cons x a ih =>
    cases b with
    | nil => exact absurd hab Bool.false_ne_true
    | cons y b =>
      cases c with
      | nil => exact absurd hbc Bool.false_ne_true
      | cons z c =>
        rw [lexLe_cons] at *
        rcases hab with h | ⟨rfl, h⟩
        · rcases hbc with k | ⟨rfl, _⟩
          · exact .inl (h.trans k)
          · exact .inl h
        · exact hbc.imp_right fun k => ⟨k.1, ih h k.2⟩

theorem lexLe_total (a b : List Nat) : lexLe a b = true ∨ lexLe b a = true := by
  induction a generalizing b with
  | nil => exact .inl rfl
  | cons x a ih =>
    cases b with
    | nil => exact .inr rfl
    | cons y b =>
      rw [lexLe_cons, lexLe_cons]
      rcases Nat.lt_trichotomy x y with h | rfl | h
      · exact .inl (.inl h)
      · exact (ih b).imp (fun k => .inr ⟨rfl, k⟩) (fun k => .inr ⟨rfl, k⟩)
      · exact .inr (.inl h)

/-- The first difference decides. -/
theorem lexLe_iff (a b : List Nat) : lexLe a b = true ↔
    (∃ c, b = a ++ c) ∨ ∃ c x y d e, a = c ++ x :: d ∧ b = c ++ y :: e ∧ x < y := by
  induction a generalizing b with
  | nil => exact iff_of_true rfl (.inl ⟨b, rfl⟩)
  | cons x a ih =>
    cases b with
    | nil => 
      refine iff_of_false Bool.false_ne_true ?_
      rintro (⟨c, hc⟩ | ⟨c, y, z, d, e, _, hb, _⟩)
      · exact List.cons_ne_nil _ _ hc.symm
      · exact List.append_ne_nil_of_right_ne_nil c (List.cons_ne_nil z e) hb.symm
    | cons y b =>
      rw [lexLe_cons, ih]
      constructor
      · rintro (h | ⟨rfl, ⟨c, rfl⟩ | ⟨c, u, v, d, e, rfl, rfl, h⟩⟩)
        · exact .inr ⟨[], x, y, a, b, rfl, rfl, h⟩
        · exact .inl ⟨c, rfl⟩
        · exact .inr ⟨x :: c, u, v, d, e, rfl, rfl, h⟩
      · rintro (⟨c, hc⟩ | ⟨c, u, v, d, e, ha, hb, h⟩)
        · obtain ⟨rfl, rfl⟩ := List.cons.inj hc
          exact .inr ⟨rfl, .inl ⟨c, rfl⟩⟩
        · cases c with
          | nil =>
            obtain ⟨rfl, rfl⟩ := List.cons.inj ha
            obtain ⟨rfl, rfl⟩ := List.cons.inj hb
            exact .inl h
          | cons z c =>
            obtain ⟨rfl, rfl⟩ := List.cons.inj ha
            obtain ⟨rfl, rfl⟩ := List.cons.inj hb
            exact .inr ⟨rfl, .inr ⟨c, u, v, d, e, rfl, rfl, h⟩⟩

/-- The records of a partition in the order in which they try to start. -/
def State.startOrder (s : State) (pn : Nat) : List (List Nat × Waiting) :=
  (s.waitingRecords pn).mergeSort (fun a b => lexLe a.1 b.1)

theorem State.startOrder_sorted (s : State) (pn : Nat) : (s.startOrder pn).Pairwise (fun a b => lexLe a.1 b.1 = true) := by
  refine List.pairwise_mergeSort (le := fun (a b : List Nat × Waiting) => lexLe a.1 b.1) (fun _ _ _ => lexLe_trans) (fun a b => ?_) _
  rw [Bool.or_eq_true]
  exact lexLe_total a.1 b.1

theorem exec_threadDispatch (s : State) (pn : Nat) : exec (.threadDispatch pn) s =
    .next (dispatchFrom pn ((s.startOrder pn).map (fun e => e.2)) s) := rfl

theorem dispatchFrom_record (pn : Nat) (r : Record) (l : List Waiting) (v : State) :
    dispatchFrom pn (.rec_ r :: l) v = dispatchFrom pn l ((v.tryStart r).getD v) := by
  rw [dispatchFrom]
  cases v.tryStart r <;> rfl

theorem dispatchFrom_thread (pn : Nat) (id : ThreadId) (l : List Waiting) (v : State) :
    dispatchFrom pn (.thr id :: l) v = if (v.tryResume id).isSome = true then
      { v with inputs := .resume id :: .threadDispatch pn :: v.inputs } else dispatchFrom pn l v := by
  rw [dispatchFrom]
  cases v.tryResume id <;> rfl

theorem State.tryResume_isSome (s : State) (id : ThreadId) : (s.tryResume id).isSome = true ↔
    ∃ e, s.saved.find? (fun e => e.1.id == id) = some e ∧ (s.homeFor e.1).isSome = true := by
  unfold State.tryResume
  cases s.saved.find? (fun e => e.1.id == id) with
  | none => simp
  | some e => simp

/-! ## Whether a record starts (R427, R432) -/

theorem State.mem_freeSlots (s : State) (k j : Nat) :
    j ∈ s.freeSlots k ↔ j < 4 ∧ ∀ t ∈ s.onChip, ¬ (t.place.core = k ∧ t.place.slot = j) := by
  simp only [State.freeSlots, List.mem_filter, List.mem_range, Bool.not_eq_true', List.any_eq_false, Bool.and_eq_true, beq_iff_eq]

theorem Part.mem_cores (p : Part) (k : Nat) : k ∈ p.cores ↔ k / 4 < 64 ∧ p.quads.getLsbD (k / 4) = true := by
  simp only [Part.cores, List.mem_flatMap, List.mem_range]
  constructor
  · rintro ⟨q, hq, hk⟩
    split at hk
    · next h =>
      obtain rfl := (mem_quadCores q k).1 hk
      exact ⟨hq, h⟩
    · cases hk
  · rintro ⟨hk, h⟩
    refine ⟨k / 4, hk, ?_⟩
    rw [if_pos h]
    exact (mem_quadCores _ _).2 rfl

theorem Part.exists_freeStack (p : Part) : (∃ n, p.freeStack = some n) ↔ ∃ n < p.regs.stkcount.toNat, n ∉ p.stackSlots := by
  unfold Part.freeStack
  rw [← Option.isSome_iff_exists, List.find?_isSome]
  simp

theorem Part.freeStack_eq_some {p : Part} {n : Nat} (h : p.freeStack = some n) :
    n < p.regs.stkcount.toNat ∧ n ∉ p.stackSlots ∧ ∀ m < n, m ∈ p.stackSlots := by
  obtain ⟨hp, hr, hlt⟩ := List.find?_range_eq_some.1 h
  exact ⟨List.mem_range.1 hr, by simpa using hp, fun b hb => by simpa using hlt b hb⟩

/-- Is there room for a record of a launch on its core? -/
structure State.Room (s : State) (r : Record) (l : Launch) (g : Legend) : Prop where
  few : s.running r.id.part r.id.lid r.core < tpcOf l.packet g
  slot : s.freeSlots r.core ≠ []
  core : r.core ∈ (s.part r.id.part).cores

/-- The stack that a record starts with: the lowest free one where its legend has a stack (R427). -/
def State.startStack (s : State) (r : Record) (g : Legend) : Option (Option Nat) :=
  if g.stack = 0 then some none else (s.part r.id.part).freeStack.map some

section
variable {s : State} {r : Record} {l : Launch} {g : Legend}

theorem State.slotFor_iff (hl : (s.part r.id.part).launch r.id.lid = some l) (hg : l.legend = some g) :
    s.slotFor r.id r.core = true ↔ s.running r.id.part r.id.lid r.core < tpcOf l.packet g ∧ s.freeSlots r.core ≠ [] := by
  unfold State.slotFor
  rw [hl]
  dsimp only
  rw [hg]
  simp only [Bool.and_eq_true, decide_eq_true_eq, Bool.not_eq_true', List.isEmpty_eq_false_iff]

theorem State.tryStart_eq (hl : (s.part r.id.part).launch r.id.lid = some l) (hg : l.legend = some g) :
    s.tryStart r = if !s.slotFor r.id r.core || !(s.part r.id.part).cores.contains r.core then none
      else (s.startStack r g).map (s.start r l g) := by
  unfold State.tryStart State.startStack
  dsimp only
  rw [hl]
  dsimp only
  rw [hg]
  dsimp only
  refine if_congr Iff.rfl rfl ?_
  split
  · rfl
  · cases (s.part r.id.part).freeStack <;> rfl

theorem State.tryStart_eq_some (hl : (s.part r.id.part).launch r.id.lid = some l) (hg : l.legend = some g) (u : State) :
    s.tryStart r = some u ↔ s.Room r l g ∧ ∃ k, s.startStack r g = some k ∧ s.start r l g k = u := by
  have hroom : (!s.slotFor r.id r.core || !(s.part r.id.part).cores.contains r.core) = true ↔ ¬ s.Room r l g := by
    have h := State.slotFor_iff hl hg
    rw [Bool.or_eq_true, Bool.not_eq_true', Bool.not_eq_true', ← Bool.not_eq_true, ← Bool.not_eq_true, h, List.contains_iff_mem,
      ← not_and_or]
    exact not_congr ⟨fun ⟨⟨h1, h2⟩, h3⟩ => ⟨h1, h2, h3⟩, fun ⟨h1, h2, h3⟩ => ⟨⟨h1, h2⟩, h3⟩⟩
  rw [State.tryStart_eq hl hg]
  by_cases h : s.Room r l g
  · rw [if_neg (mt hroom.1 (not_not.2 h)), Option.map_eq_some_iff]
    exact (and_iff_right h).symm
  · rw [if_pos (hroom.2 h)]
    exact iff_of_false (Option.some_ne_none u).symm fun hx => h hx.1

theorem State.startStack_ne_none (s : State) (r : Record) (g : Legend) : (∃ k, s.startStack r g = some k) ↔
    (g.stack ≠ 0 → ∃ n < (s.part r.id.part).regs.stkcount.toNat, n ∉ (s.part r.id.part).stackSlots) := by
  unfold State.startStack
  by_cases h : g.stack = 0
  · rw [if_pos h]
    exact iff_of_true ⟨_, rfl⟩ fun hn => absurd h hn
  · rw [if_neg h, ← Part.exists_freeStack]
    simp [h]

theorem State.startStack_zero {st : Option Nat} (h0 : g.stack = 0) (h : s.startStack r g = some st) : st = none := by
  unfold State.startStack at h
  rw [if_pos h0] at h
  exact (Option.some.inj h).symm

theorem State.startStack_some {st : Option Nat} (h0 : g.stack ≠ 0) (h : s.startStack r g = some st) :
    ∃ n, (s.part r.id.part).freeStack = some n ∧ st = some n := by
  unfold State.startStack at h
  rw [if_neg h0, Option.map_eq_some_iff] at h
  exact h.imp fun n hn => ⟨hn.1, hn.2.symm⟩

theorem State.tryStart_launch {u : State} (h : s.tryStart r = some u) :
    ∃ l g, (s.part r.id.part).launch r.id.lid = some l ∧ l.legend = some g := by
  unfold State.tryStart at h
  dsimp only at h
  split at h
  · next l hl =>
    split at h
    · next g hg => exact ⟨l, g, hl, hg⟩
    · cases h
  · cases h

end

/-! ## What a record starts with (R66, R470) -/

/-- Registers set one after another from register n + 1 on. -/
theorem Table.get_foldl_zipIdx (l : List Word) (n i : Nat) (t : Table Word) :
    Table.get ((l.zipIdx n).foldl (fun t v => Table.set t 0#64 (v.2 + 1) v.1) t) 0#64 (i + 1) =
      if n ≤ i ∧ i < n + l.length then l.getD (i - n) 0#64 else Table.get t 0#64 (i + 1) := by
  induction l generalizing n t with
  | nil =>
    rw [List.length_nil, if_neg (by omega)]
    rfl
  | cons x l ih =>
    rw [List.length_cons, List.zipIdx_cons, List.foldl_cons, ih, Table.get_set]
    by_cases hi : i = n
    · subst hi
      rw [if_neg (by omega), if_pos rfl, if_pos (by omega), Nat.sub_self]
      rfl
    · by_cases hr : n + 1 ≤ i ∧ i < n + 1 + l.length
      · have hs : i - n = i - (n + 1) + 1 := by omega
        rw [if_pos hr, if_pos (by omega), hs]
        rfl
      · rw [if_neg hr, if_neg (by omega), if_neg (by omega)]

/-- The first registers of R66. -/
def firstRegs (r : Record) (k : Packet) (total : Nat) : List Word :=
  let pr := fun (i : Nat) => r.pairs.getD i (0#64, 0#64)
  [(pr 0).1, (pr 0).2, (pr 1).1, (pr 1).2, (pr 2).1, (pr 2).2, w64 r.id.rank, w64 total, w64 r.id.lid,
    if r.id.lid = 1 then 0#64 else k.addr + 64#64] ++ (List.range 6).map (fun i => k.args.getD i 0#64) ++ [r.entries.1, r.entries.2]

theorem get_startRegs (r : Record) (k : Packet) (total : Nat) (sp : Word) (i : Nat) :
    Table.get (startRegs r k total sp) 0#64 (i + 1) = if i + 1 = 30 then sp else (firstRegs r k total).getD i 0#64 := by
  refine (Table.get_set ..).trans (if_congr Iff.rfl rfl ?_)
  refine (Table.get_foldl_zipIdx (firstRegs r k total) 0 i []).trans ?_
  by_cases h : i < (firstRegs r k total).length
  · rw [if_pos ⟨Nat.zero_le i, by omega⟩]
    rfl
  · rw [if_neg (by omega), List.getD_eq_default _ _ (by omega)]
    rfl

/-- The thread that a record starts as, with its stack. -/
def State.firstThread (s : State) (r : Record) (l : Launch) (g : Legend) (stack : Option Nat) : Thread :=
  let p := s.part r.id.part
  let slot := s.takeSlot r.core
  let ring := fun (k : Nat) => p.regs2.startRing k r.core slot
  { Thread.reset with
    id := r.id
    place := ⟨r.core, r.core, slot, l.packet.prio, stack, none, 0, 0, 0, false, none, true⟩
    pc := g.entry
    s := startRegs r l.packet l.total (match stack with
      | some k => p.regs.stkbase + w64 k * p.regs.stkslot + w64 g.stack
      | none => 0#64)
    rings := ⟨ring 1, ring 2, ring 3⟩ }

section
variable (s : State) (r : Record) (l : Launch) (g : Legend) (stack : Option Nat)

theorem State.firstThread_readS {k : BitVec 5} (hk : k.toNat ≠ 30) : (s.firstThread r l g stack).readS k =
    if k = 0#5 then 0#64 else (firstRegs r l.packet l.total).getD (k.toNat - 1) 0#64 := by
  unfold Thread.readS
  refine ite_congr rfl (fun _ => rfl) fun h0 => ?_
  have hpos : k.toNat = k.toNat - 1 + 1 := by
    have : k.toNat ≠ 0 := fun h => h0 (BitVec.eq_of_toNat_eq h)
    omega
  have hget := get_startRegs r l.packet l.total (match stack with
      | some k => (s.part r.id.part).regs.stkbase + w64 k * (s.part r.id.part).regs.stkslot + w64 g.stack
      | none => 0#64) (k.toNat - 1)
  rw [← hpos, if_neg hk] at hget
  exact hget

theorem State.firstThread_sp : (s.firstThread r l g stack).readS 30#5 = match stack with
    | some k => (s.part r.id.part).regs.stkbase + w64 k * (s.part r.id.part).regs.stkslot + w64 g.stack
    | none => 0#64 :=
  get_startRegs r l.packet l.total _ 29

theorem State.firstThread_rings {n : Nat} (h1 : 1 ≤ n) (h3 : n ≤ 3) : (s.firstThread r l g stack).rings.get n =
    (s.part r.id.part).regs2.startRing n r.core (s.takeSlot r.core) := by
  have hn : n = 1 ∨ n = 2 ∨ n = 3 := by omega
  rcases hn with rfl | rfl | rfl
  · rfl
  · rfl
  · rfl

/-- u is s after record r has started with a stack. -/
structure State.Started (u : State) : Prop where
  others : u.others = s.others ++ [s.firstThread r l g stack]
  part : ∀ j, u.part j = if j = r.id.part then { s.part r.id.part with
    records := (s.part r.id.part).records.filter (fun x => x.id != r.id)
    stackSlots := (s.part r.id.part).stackSlots ++ stack.toList } else s.part j
  core : ∀ j, u.core j = if j = r.core then { s.core r.core with lat := (u.core r.core).lat } else s.core j
  lat : ∀ j, (u.core r.core).latOf j =
    if j = s.takeSlot r.core then { Lat.zero with weight := 8 - l.packet.prio } else (s.core r.core).latOf j
  rest : u = { s with
    parts := u.parts, cores := u.cores, others := u.others
    timers := s.timers.filter (fun i => i != .recordAging r.id) }

theorem State.start_started : s.Started r l g stack (s.start r l g stack) := by
  have hstack : (match stack with
      | some k => (s.part r.id.part).stackSlots ++ [k]
      | none => (s.part r.id.part).stackSlots) = (s.part r.id.part).stackSlots ++ stack.toList := by
    cases stack with
    | none => exact (List.append_nil _).symm
    | some k => rfl
  have hcore : ∀ j, (s.start r l g stack).core j = if j = r.core then
      (s.core r.core).setLat (s.takeSlot r.core) { Lat.zero with weight := 8 - l.packet.prio } else s.core j := fun j =>
    State.core_setCore ..
  have hk := (hcore r.core).trans (if_pos rfl)
  refine ⟨rfl, fun j => ?_, fun j => ?_, fun j => ?_, rfl⟩
  · rw [← hstack]
    exact State.part_setPart ..
  · rw [hcore, hk]
    rfl
  · rw [hk]
    exact Core.latOf_setLat ..

end
end Sys2Proof.Machine
end

section
/-! The events that come to threads, and the order in which records start (logs 13, 15, 17, 19). -/
namespace Sys2Proof.Machine

/-- Settles O51: the deadlocks, the ageing, the waits in SETVL and the staged accesses by their equations; a pre-emption and a
resumption by what their stages leave, State.Gone and State.Resumed; the dispatch by the order of its list, and a record's start by
State.Started. -/
theorem threadEvents : Obligations.ThreadEvents := by
  unfold Obligations.ThreadEvents
  refine ⟨fun s t core => ?_, fun s t => ?_, fun s pn => ?_⟩
  · intro same here onE first next full behind forToken stuck
    have hnext : next = s.cur.nextMember.map (fun e => (e.1, e.2.instr)) := (Thread.map_nextMember s.cur).symm
    have hfull : full = s.cur.fullQueue := by
      rw [Thread.fullQueue_eq]
      show next.bind _ = _
      rw [hnext, Option.bind_map]
      rfl
    have hbehind : behind = s.cur.waitsBehind s.cur.fullQueue := by
      rw [← hfull]
      exact (Thread.waitsBehind_eq ..).symm
    have hstuck : stuck = s.tokenStuck s.cur := by
      rw [State.tokenStuck_eq, ← hnext] <;> rfl
    have htoken : forToken = s.cur.waitsToken := rfl
    refine ⟨fun ha ht => ⟨_, exec_queueDeadlock ha ht, ?_⟩, fun ha ht => ⟨_, exec_tokenDeadlock ha ht, ?_⟩,
      ⟨_, exec_recordAging s t, ?_⟩, ?_, ?_⟩
    · rw [Thread.queueStuck_eq, hbehind, hfull]
      split <;> rfl
    · have hdead := s.tokenDead_iff s.cur
      rw [← hbehind, ← hfull, ← htoken, ← hstuck] at hdead
      exact congrArg (fun x : Option Trap => x.elim s (takeTrap s)) (if_congr hdead rfl rfl)
    · have h := (s.marked t).redispatch_asks t.part
      refine ⟨fun q => ?_, h.kept, h.added, ?_⟩
      · rw [h.rest]
        exact s.part_marked t q
      · rw [h.rest]
        rfl
    · refine ⟨State.reevaluated, fun v hv => State.reevaluated_other hv, fun v d a b hv => ?_, _, exec_setvlReevaluation s core, rfl⟩
      intro k slot c l g kept alone
      have halone : ∀ {x : Lat} {ws : List Nat}, v.Holds v.reevaluated x ws → alone x := fun h => ⟨h.own, h.others, h.cores⟩
      clear_value alone
      have hg : g = v.evaluated a b := rfl
      clear_value g
      subst hg
      refine ⟨fun hw => ⟨halone (State.reevaluated_waits_holds hv hw), (State.reevaluated_waits_holds hv hw).waiters, ?_⟩,
        fun hw => State.reevaluated_waiters hv hw, fun hw hq => ⟨halone (State.reevaluated_busy_holds hv hw hq), ?_⟩,
        fun hw hq => ⟨halone (State.reevaluated_idle_holds hv hw hq), ?_, fun r hr => ?_, ?_⟩⟩
      · rw [State.reevaluated_waits hv hw]
        rfl
      · rw [State.reevaluated_busy hv hw hq]
        exact v.leaveWait_waits_rest _ _
      · rw [State.reevaluated_idle hv hw hq, State.readS_complete_grantWith, if_pos rfl]
        rfl
      · rw [State.reevaluated_idle hv hw hq, State.readS_complete_grantWith, if_neg hr]
      · rw [State.reevaluated_idle hv hw hq]
        exact v.complete_grantWith_rest d _
    · refine ⟨fun hn => ⟨_, exec_stagedResend_none hn, rfl⟩, fun w hw => ?_⟩
      intro s1
      have hx := exec_stagedResend_some hw
      dsimp only at hx
      change exec (.stagedResend t) s = (match s1.arrive t.part true w with
        | .done s2 => .next (s2.finishAccess w)
        | .parked s2 => .next s2
        | .trap c a => .next (s1.faultAccess w c a)
        | .wait _ => .next (s1.onThread t (fun h => { h with prog := { h.prog with wait := .retry .other } }))) at hx
      clear_value s1
      generalize s1.arrive t.part true w = r at hx
      cases r with
      | done s2 => exact ⟨_, hx, rfl⟩
      | parked s2 => exact ⟨_, hx, rfl⟩
      | trap c a => exact ⟨_, hx, rfl⟩
      | wait c => exact ⟨_, hx, rfl⟩
  · intro same chip p trapped room may gone
    have hgone : ∀ h, chip = some h → may h → gone h (s.preempt t none) := by
      intro h hc hm
      obtain rfl : h.id = t := State.find_id hc
      obtain ⟨a, ha⟩ := (s.part h.id.part).exists_freeArea.2 hm.2
      obtain ⟨hlt, hfree, hmin⟩ := Part.freeArea_eq_some ha
      have hg := State.preempt_gone hc ha
      have hw := s.savedImage_logs h a
      refine ⟨a, s.savedImage h a, ?_⟩
      generalize s.preempt h.id none = u at hg
      intro k slot c q base last group tables acc viq pc pieces
      have htables : tables = s.leavesTables h := (s.leavesTables_eq h).symm
      have hviq : viq = abandoned h.viq := (abandoned_eq h.viq).symm
      have himg : ({ h with viq := viq, pc := pc } : Thread) = h.imaged := by
        rw [Thread.imaged_eq, hviq] <;> rfl
      refine ⟨hlt, hfree, hmin, ?_, ?_, fun j => ?_, hg.lat, fun n => ?_, fun j => ?_, hg.part, hg.objs, hg.aging, hg.times.added,
        hg.times.kept, hg.keptIn, hg.addedIn, hg.rest⟩
      · exact s.savedImage_eq h a himg htables
      · exact hg.saved_of hviq htables
      · exact hg.core_of (congrArg State.cores hw.rest :) j
      · exact hg.table_of htables n
      · exact hg.quad_of (congrArg State.quads hw.rest :) j
    clear_value gone
    have hmay : ∀ h, chip = some h → (s.mayPreempt t = true ↔ may h) := fun h hc => State.mayPreempt_iff hc
    clear_value may
    refine ⟨fun hc => ⟨⟨_, exec_preemption_not (State.mayPreempt_absent hc), rfl⟩, _, exec_laneReclaim_absent hc, rfl⟩, fun h hc => ?_, ?_⟩
    · intro c l held slots share due
      have hdue : c.reclaims h.place.slot = true ↔ due := by
        rw [Core.reclaims_iff]
        simp only [Lat.held_eq_countP]
        rfl
      clear_value due
      refine ⟨fun hm => ⟨_, exec_preemption_may ((hmay h hc).2 hm), hgone h hc hm⟩,
        fun hm => ⟨_, exec_preemption_not (Bool.eq_false_iff.2 (mt (hmay h hc).1 hm)), rfl⟩, fun hd =>
          ⟨_, exec_laneReclaim_uncounted hc (mt hdue.1 hd), rfl⟩,
        fun hd hm hr => ⟨_, exec_laneReclaim_taken hc (hdue.2 hd) ((hmay h hc).2 hm) hr, hgone h hc hm⟩,
        fun hd hn => ⟨_, exec_laneReclaim_deferred hc (hdue.2 hd) (hn.imp_left (mt (hmay h hc).1)), rfl⟩⟩
    · refine ⟨fun hf => ⟨_, exec_resume_absent hf, rfl⟩, fun h tb acc hf => ?_⟩
      obtain rfl : h.id = t := State.saved_find_id hf
      refine ⟨fun hn => ⟨_, exec_resume_none hf hn, rfl⟩, State.homeFor_own, fun k hk => ?_⟩
      obtain ⟨hmem, hfits⟩ := State.homeFor_mem hk
      have ht := State.takes_of_fits hfits
      have hr := s.resumeOn_resumed h acc k
      refine ⟨hmem, hfits, _, exec_resume_some hf hk, ?_⟩
      generalize s.resumeOn h acc k = u at hr
      have hmoved : h.place.slot < 4 → h.moved = false := fun hs => decide_eq_false (not_le.2 hs)
      refine ⟨s.resumedThread h k, ?_⟩
      intro slot n
      have hlat : ∀ j, (u.core k).latOf j = if j = slot then (s.core k).entryFor h else (s.core k).latOf j := by
        intro j
        rw [hr.core, if_pos rfl]
        exact Core.latOf_hosting ..
      have hown := (hlat slot).trans (if_pos rfl)
      refine ⟨hr.others, ht.slot, rfl, fun hs hg => State.resumedThread_rings (hmoved hs) hg, ?_, ?_, ?_, ?_, ?_,
        fun j hj => (hlat j).trans (if_neg hj), fun j hj => (hr.core j).trans (if_neg hj), fun e he => ?_, hr.rows, hr.quads, fun e he => ?_,
        hr.parts, fun hs => ?_, ?_, ?_, ?_, ?_, ?_, ?_, fun hs => hr.still (hmoved hs)⟩
      · rw [hown]
        rfl
      · rw [hown]
        rfl
      · rw [hown]
        exact ht.lanes
      · rw [hown]
        rfl
      · rw [hown]
        rfl
      · rw [hr.core, if_pos rfl]
        exact Core.table_hosting _ _ _ he
      · rw [hr.saved] at he
        exact stillSaved_ids he
      · rw [← Part.areasWithout_eq]
        exact hr.part (hmoved hs)
      · exact (congrArg State.cur hr.rest :)
      · exact (congrArg State.active hr.rest :)
      · exact (congrArg State.objects hr.rest :)
      · exact (congrArg State.cmds hr.rest :)
      · exact (congrArg State.mlq hr.rest :)
      · exact (congrArg State.gz hr.rest :)
  · intro cls waiting
    refine ⟨⟨s.startOrder pn, dispatchFrom pn, List.mergeSort_perm .., s.startOrder_sorted pn, fun _ => rfl,
      fun r l v => dispatchFrom_record pn r l v, fun id l v => dispatchFrom_thread pn id l v, _, exec_threadDispatch s pn, rfl⟩, lexLe_iff, s.tryResume_isSome, ?_⟩
    rintro r rfl
    intro p k mine empty fits
    have hempty : ∀ j, j ∈ s.freeSlots k ↔ empty j := s.mem_freeSlots k
    have hfits : ∀ l g, fits l g ↔ s.Room r l g ∧ ∃ st, s.startStack r g = some st := by
      intro l g
      rw [State.startStack_ne_none]
      have hne : (∃ j, empty j) ↔ s.freeSlots r.core ≠ [] :=
        ⟨fun ⟨j, hj⟩ => List.ne_nil_of_mem ((hempty j).2 hj),
          fun h => (List.exists_mem_of_ne_nil _ h).imp fun j hj => (hempty j).1 hj⟩
      exact ⟨fun ⟨h1, h2, h3, h4⟩ => ⟨⟨h1, hne.1 h2, (Part.mem_cores ..).2 h3⟩, h4⟩,
        fun ⟨⟨h1, h2, h3⟩, h4⟩ => ⟨h1, hne.2 h2, (Part.mem_cores ..).1 h3, h4⟩⟩
    clear_value fits
    constructor
    · rw [Option.ne_none_iff_exists']
      constructor
      · rintro ⟨u, hu⟩
        obtain ⟨l, g, hl, hg⟩ := State.tryStart_launch hu
        obtain ⟨hroom, st, hst, _⟩ := (State.tryStart_eq_some hl hg u).1 hu
        exact ⟨l, g, hl, hg, (hfits l g).2 ⟨hroom, st, hst⟩⟩
      · rintro ⟨l, g, hl, hg, hf⟩
        obtain ⟨hroom, st, hst⟩ := (hfits l g).1 hf
        exact ⟨_, (State.tryStart_eq_some hl hg _).2 ⟨hroom, st, hst, rfl⟩⟩
    · intro u l g hu hl hg
      obtain ⟨hroom, st, hst, rfl⟩ := (State.tryStart_eq_some hl hg u).1 hu
      have hs := s.start_started r l g st
      generalize s.start r l g st = u at hs
      refine ⟨s.firstThread r l g st, hs.others, (hempty _).1 (State.takeSlot_mem hroom.slot), rfl,
        fun k hk => s.firstThread_readS r l g st hk, fun n h1 h3 => s.firstThread_rings r l g st h1 h3, fun h0 => ?_, fun h0 => ?_,
        hs.part, hs.core, hs.lat, hs.rest⟩
      · obtain rfl := State.startStack_zero h0 hst
        exact ⟨rfl, s.firstThread_sp r l g none⟩
      · obtain ⟨n, hn, rfl⟩ := State.startStack_some h0 hst
        obtain ⟨hlt, hfree, hmin⟩ := Part.freeStack_eq_some hn
        exact ⟨n, rfl, hlt, hfree, hmin, s.firstThread_sp r l g (some n)⟩

end Sys2Proof.Machine
end

section
/-! The integer words of the A-side, on numbers (R68 to R74). -/
namespace Sys2Proof.Machine

/-! ## Words of n bits (R68) -/

theorem opBits_pos (w : BitVec 1) : 0 < opBits w := by unfold opBits; split <;> decide

theorem sval_eq_toInt (n : Nat) (x : Word) : sval n x = (x.setWidth n).toInt := by
  rw [sval, BitVec.toInt_eq_toNat_bmod, BitVec.toNat_setWidth, Int.natCast_emod, Int.emod_bmod]

theorem uval_eq_toNat (n : Nat) (x : Word) : uval n x = (x.setWidth n).toNat := (BitVec.toNat_setWidth ..).symm

/-- The register word of an n-bit result is that result, sign-extended. -/
theorem res_eq_signExtend (n : Nat) (r : Int) : res n r = (BitVec.ofInt n r).signExtend 64 := by
  rw [res, BitVec.signExtend, BitVec.toInt_ofInt]

theorem word_size (w : BitVec 1) : w = 0#1 ∨ w = 1#1 := by revert w; decide

theorem intOp_eq (f : (n : Nat) → BitVec n → BitVec n → BitVec n) (w : BitVec 1) (x y : Word) :
    intOp f w x y = (f (opBits w) (x.setWidth _) (y.setWidth _)).signExtend 64 := by
  rcases word_size w with rfl | rfl
  · show f 64 x y = (f 64 (x.setWidth 64) (y.setWidth 64)).signExtend 64
    simp only [BitVec.setWidth_eq, BitVec.signExtend_eq]
  · rfl

/-- A number that lies well inside the width is its own sign extension. -/
theorem signExtend_ofNat {w : BitVec 1} {m : Nat} (h : m ≤ opBits w) :
    (BitVec.ofNat (opBits w) m).signExtend 64 = BitVec.ofNat 64 m := by
  rcases word_size w with rfl | rfl
  · exact BitVec.signExtend_eq ..
  · have h : m ≤ 32 := h
    show (BitVec.ofNat 32 m).signExtend 64 = _
    have hm : (BitVec.ofNat 32 m).toInt = m := by
      rw [← BitVec.ofInt_natCast, BitVec.toInt_ofInt, Int.bmod_eq_of_le (by omega) (by omega)]
    rw [BitVec.signExtend, hm, BitVec.ofInt_natCast]

theorem res_minus_one (w : BitVec 1) : res (opBits w) (-1) = BitVec.allOnes 64 := by
  unfold opBits; split <;> decide

/-- An INT word completes with the value of its operation. -/
theorem completes_int {f : (n : Nat) → BitVec n → BitVec n → BitVec n} {i : Instr} {d a b : BitVec 5} {w : BitVec 1}
    {s : State} {v : Word} (hi : exec i s = intWord f d a b w s) (hf : s.unframed)
    (hv : (f (opBits w) ((s.readS a).setWidth _) ((s.readS b).setWidth _)).signExtend 64 = v) :
    Completes i s (Wrote d v s) := by
  rw [← hv, ← intOp_eq, Completes, hi]
  exact asideReg_wrote (fun s => intOp f w (s.readS a) (s.readS b)) d s hf

/-- An INT word whose operation gives the number r in its width completes with it. -/
theorem completes_int_res {f : (n : Nat) → BitVec n → BitVec n → BitVec n} {i : Instr} {d a b : BitVec 5} {w : BitVec 1}
    {s : State} {r : Int} (hi : exec i s = intWord f d a b w s) (hf : s.unframed)
    (hr : f (opBits w) ((s.readS a).setWidth _) ((s.readS b).setWidth _) = BitVec.ofInt _ r) :
    Completes i s (Wrote d (res (opBits w) r) s) :=
  completes_int hi hf (by rw [hr, res_eq_signExtend])

/-! ## The operations on numbers (R68, R69) -/

section
variable {n : Nat} (x y : BitVec n)

theorem iAdd_eq : iAdd n x y = BitVec.ofInt n (x.toInt + y.toInt) := by
  rw [BitVec.ofInt_add, BitVec.ofInt_toInt, BitVec.ofInt_toInt, iAdd]

theorem iSub_eq : iSub n x y = BitVec.ofInt n (x.toInt - y.toInt) := by
  rw [Int.sub_eq_add_neg, BitVec.ofInt_add, BitVec.ofInt_neg, BitVec.ofInt_toInt, BitVec.ofInt_toInt, iSub,
    BitVec.sub_eq_add_neg]

theorem iMul_eq : iMul n x y = BitVec.ofInt n (x.toInt * y.toInt) := by
  rw [BitVec.ofInt_mul, BitVec.ofInt_toInt, BitVec.ofInt_toInt, iMul]

theorem iMulhu_eq : iMulhu n x y = BitVec.ofInt n ((x.toNat : Int) * y.toNat / 2 ^ n) := by
  rw [iMulhu, ← BitVec.ofInt_natCast]
  norm_cast

theorem allOnes_eq_ofInt (n : Nat) : BitVec.allOnes n = BitVec.ofInt n (-1) := by
  rw [← BitVec.neg_one_eq_allOnes, BitVec.ofInt_neg]
  rfl

variable {x y}

theorem toInt_eq_zero_iff : y.toInt = 0 ↔ y = 0 := by
  rw [← BitVec.toInt_inj]
  exact Iff.of_eq (congrArg (y.toInt = ·) BitVec.toInt_zero.symm)

theorem iDiv_of_zero (h : y.toInt = 0) : iDiv n x y = BitVec.ofInt n (-1) := by
  rw [iDiv, if_pos (toInt_eq_zero_iff.1 h), allOnes_eq_ofInt]

theorem iDiv_eq (h : y.toInt ≠ 0) : iDiv n x y = BitVec.ofInt n (x.toInt.tdiv y.toInt) := by
  rw [iDiv, if_neg (fun hy => h (toInt_eq_zero_iff.2 hy))]
  exact BitVec.eq_of_toInt_eq (by rw [BitVec.toInt_sdiv, BitVec.toInt_ofInt])

/-- The quotient that does not fit wraps to the dividend (R69). -/
theorem iDiv_overflow (hn : 0 < n) (hx : x.toInt = -2 ^ (n - 1)) (hy : y.toInt = -1) :
    iDiv n x y = BitVec.ofInt n x.toInt := by
  rw [iDiv_eq (by omega), hx, hy]
  refine BitVec.eq_of_toInt_eq ?_
  rw [BitVec.toInt_ofInt, BitVec.toInt_ofInt, Int.tdiv_neg, Int.tdiv_one]
  have h2 : ((2 ^ n : Nat) : Int) = 2 ^ (n - 1) + 2 ^ (n - 1) := by
    push_cast
    rw [← two_mul, ← pow_succ', Nat.sub_add_cancel hn]
  rw [show -(-2 ^ (n - 1) : Int) = -2 ^ (n - 1) + ((2 ^ n : Nat) : Int) by rw [h2]; ring, Int.add_bmod_right]

theorem iRem_of_zero (h : y.toInt = 0) : iRem n x y = BitVec.ofInt n x.toInt := by
  rw [iRem, if_pos (toInt_eq_zero_iff.1 h), BitVec.ofInt_toInt]

theorem iRem_eq (h : y.toInt ≠ 0) : iRem n x y = BitVec.ofInt n (x.toInt.tmod y.toInt) := by
  rw [iRem, if_neg (fun hy => h (toInt_eq_zero_iff.2 hy)), ← BitVec.toInt_srem, BitVec.ofInt_toInt]

theorem iRem_overflow (hy : y.toInt = -1) : iRem n x y = 0#n := by
  rw [iRem_eq (by omega), hy, Int.tmod_neg, Int.tmod_one]
  rfl

theorem iDivu_of_zero (h : y.toNat = 0) : iDivu n x y = BitVec.ofInt n (-1) := by
  rw [iDivu, if_pos (BitVec.eq_of_toNat_eq h), allOnes_eq_ofInt]

theorem iDivu_eq (h : y.toNat ≠ 0) : iDivu n x y = BitVec.ofInt n ((x.toNat : Int) / y.toNat) := by
  rw [iDivu, if_neg (by rintro rfl; exact h rfl), ← Int.natCast_ediv, BitVec.ofInt_natCast, ← BitVec.toNat_udiv,
    BitVec.ofNat_toNat, BitVec.setWidth_eq]

theorem iRemu_of_zero (h : y.toNat = 0) : iRemu n x y = BitVec.ofInt n x.toNat := by
  rw [iRemu, if_pos (BitVec.eq_of_toNat_eq h), BitVec.ofInt_natCast, BitVec.ofNat_toNat, BitVec.setWidth_eq]

theorem iRemu_eq (h : y.toNat ≠ 0) : iRemu n x y = BitVec.ofInt n ((x.toNat : Int) % y.toNat) := by
  rw [iRemu, if_neg (by rintro rfl; exact h rfl), ← Int.natCast_emod, BitVec.ofInt_natCast, ← BitVec.toNat_umod,
    BitVec.ofNat_toNat, BitVec.setWidth_eq]

end

/-- Settles O4: each operation on words of n bits is the number's operation, the corners of the divisions apart. -/
theorem integerArithmetic : Obligations.IntegerArithmetic := by
  unfold Obligations.IntegerArithmetic
  simp only [sval_eq_toInt, uval_eq_toNat]
  refine ⟨fun s d a b w hf => ⟨?_, ?_, ?_, ?_, ?_⟩, fun s d a b w hf => ⟨?_, ?_, ?_, ?_⟩⟩
  · exact completes_int_res (f := iAdd) rfl hf (iAdd_eq ..)
  · exact completes_int_res (f := iSub) rfl hf (iSub_eq ..)
  · exact completes_int_res (f := iMul) rfl hf (iMul_eq ..)
  · exact completes_int_res (f := iMulh) rfl hf rfl
  · exact completes_int_res (f := iMulhu) rfl hf (iMulhu_eq ..)
  · split_ifs with hy ho
    · rw [← res_minus_one w]
      exact completes_int_res (f := iDiv) rfl hf (iDiv_of_zero hy)
    · exact completes_int_res (f := iDiv) rfl hf (iDiv_overflow (opBits_pos w) ho.1 ho.2)
    · exact completes_int_res (f := iDiv) rfl hf (iDiv_eq hy)
  · split_ifs with hy
    · rw [← res_minus_one w]
      exact completes_int_res (f := iDivu) rfl hf (iDivu_of_zero (by exact_mod_cast hy))
    · exact completes_int_res (f := iDivu) rfl hf (iDivu_eq (by exact_mod_cast hy))
  · split_ifs with hy ho
    · exact completes_int_res (f := iRem) rfl hf (iRem_of_zero hy)
    · exact completes_int (f := iRem) rfl hf (by rw [iRem_overflow ho.2, signExtend_ofNat (Nat.zero_le _)])
    · exact completes_int_res (f := iRem) rfl hf (iRem_eq hy)
  · split_ifs with hy
    · exact completes_int_res (f := iRemu) rfl hf (iRemu_of_zero (by exact_mod_cast hy))
    · exact completes_int_res (f := iRemu) rfl hf (iRemu_eq (by exact_mod_cast hy))

/-! ## Logical words, shifts and comparison (R68, R71) -/

section
variable {n : Nat} (x y : BitVec n)

theorem iMin_eq : iMin n x y = BitVec.ofInt n (min x.toInt y.toInt) := by
  unfold iMin
  by_cases h : y.toInt < x.toInt
  · rw [if_pos (BitVec.slt_iff_toInt_lt.2 h), min_eq_right h.le, BitVec.ofInt_toInt]
  · rw [if_neg (fun hs => h (BitVec.slt_iff_toInt_lt.1 hs)), min_eq_left (not_lt.1 h), BitVec.ofInt_toInt]

theorem iMax_eq : iMax n x y = BitVec.ofInt n (max x.toInt y.toInt) := by
  unfold iMax
  by_cases h : x.toInt < y.toInt
  · rw [if_pos (BitVec.slt_iff_toInt_lt.2 h), max_eq_right h.le, BitVec.ofInt_toInt]
  · rw [if_neg (fun hs => h (BitVec.slt_iff_toInt_lt.1 hs)), max_eq_left (not_lt.1 h), BitVec.ofInt_toInt]

theorem ofInt_toNat_self : BitVec.ofInt n x.toNat = x := by
  rw [BitVec.ofInt_natCast, BitVec.ofNat_toNat, BitVec.setWidth_eq]

theorem iMinu_eq : iMinu n x y = BitVec.ofInt n ((min x.toNat y.toNat : Nat) : Int) := by
  unfold iMinu
  by_cases h : y.toNat < x.toNat
  · rw [if_pos (BitVec.ult_iff_toNat_lt.2 h), min_eq_right h.le, ofInt_toNat_self]
  · rw [if_neg (fun hs => h (BitVec.ult_iff_toNat_lt.1 hs)), min_eq_left (not_lt.1 h), ofInt_toNat_self]

theorem iMaxu_eq : iMaxu n x y = BitVec.ofInt n ((max x.toNat y.toNat : Nat) : Int) := by
  unfold iMaxu
  by_cases h : x.toNat < y.toNat
  · rw [if_pos (BitVec.ult_iff_toNat_lt.2 h), max_eq_right h.le, ofInt_toNat_self]
  · rw [if_neg (fun hs => h (BitVec.ult_iff_toNat_lt.1 hs)), max_eq_left (not_lt.1 h), ofInt_toNat_self]

theorem shiftLeft_eq_ofInt (k : Nat) : x <<< k = BitVec.ofInt n ((x.toNat * 2 ^ k : Nat) : Int) :=
  BitVec.eq_of_toNat_eq (by rw [BitVec.toNat_shiftLeft, Nat.shiftLeft_eq, BitVec.ofInt_natCast, BitVec.toNat_ofNat])

theorem shiftRight_eq_ofInt (k : Nat) : x >>> k = BitVec.ofInt n ((x.toNat / 2 ^ k : Nat) : Int) := by
  refine BitVec.eq_of_toNat_eq ?_
  rw [BitVec.toNat_ushiftRight, Nat.shiftRight_eq_div_pow, BitVec.ofInt_natCast, BitVec.toNat_ofNat,
    Nat.mod_eq_of_lt (lt_of_le_of_lt (Nat.div_le_self ..) x.isLt)]

theorem sshiftRight_eq_ofInt (k : Nat) : x.sshiftRight k = BitVec.ofInt n (x.toInt / 2 ^ k) := by
  rw [BitVec.sshiftRight, Int.shiftRight_eq_div_pow]
  norm_cast

theorem iClz_eq : iClz n x y = BitVec.ofNat n (n - x.toNat.size) := by
  unfold iClz
  congr 1
  by_cases h : x = 0#n
  · subst h; simp
  · have h0 : x.toNat ≠ 0 := fun hx => h (BitVec.eq_of_toNat_eq hx)
    have hs : x.toNat.size = Nat.log2 x.toNat + 1 := by
      have h1 := Nat.lt_size.2 (Nat.log2_self_le h0)
      have h2 := Nat.size_le.2 (Nat.lt_log2_self (n := x.toNat))
      omega
    rw [if_neg (by exact h), hs]
    omega

theorem iPopc_eq : iPopc n x y = BitVec.ofNat n ((List.range n).countP (fun k => x.toNat.testBit k)) := by
  rw [iPopc, List.countP_eq_length_filter]
  rfl

end

/-- The operands' low bits give a shift amount as the whole register does. -/
theorem shiftAmount_eq (w : BitVec 1) (y : Word) : (y.setWidth (opBits w)).toNat % opBits w = y.toNat % opBits w := by
  rw [BitVec.toNat_setWidth, Nat.mod_mod_of_dvd]
  unfold opBits
  split <;> decide

theorem ofInt_toNat_eq_setWidth (n : Nat) (x : Word) : BitVec.ofInt n x.toNat = x.setWidth n := by
  rw [BitVec.ofInt_natCast, BitVec.ofNat_toNat]

theorem signExtend_ofNat_b2n (w : BitVec 1) (p : Prop) [Decidable p] :
    (BitVec.ofNat (opBits w) (b2n (decide p))).signExtend 64 = if p then 1#64 else 0#64 := by
  have := opBits_pos w
  rw [signExtend_ofNat (by unfold b2n; split <;> omega)]
  by_cases h : p <;> simp [h, b2n]

/-- Settles O5: each operation on words of n bits is the number's operation. -/
theorem integerLogic : Obligations.IntegerLogic := by
  unfold Obligations.IntegerLogic
  simp only [sval_eq_toInt, uval_eq_toNat, ← shiftAmount_eq]
  refine ⟨fun s d a b w hf => ⟨?_, ?_, ?_, ?_, ?_, ?_⟩, fun s d a b w hf => ⟨?_, ?_, ?_, ?_, ?_, ?_, ?_, ?_⟩⟩
  · exact completes_int_res (f := iAnd) rfl hf (by rw [ofInt_toNat_eq_setWidth, BitVec.setWidth_and, iAnd])
  · exact completes_int_res (f := iOr) rfl hf (by rw [ofInt_toNat_eq_setWidth, BitVec.setWidth_or, iOr])
  · exact completes_int_res (f := iXor) rfl hf (by rw [ofInt_toNat_eq_setWidth, BitVec.setWidth_xor, iXor])
  · exact completes_int_res (f := iSll) rfl hf (shiftLeft_eq_ofInt ..)
  · exact completes_int_res (f := iSrl) rfl hf (shiftRight_eq_ofInt ..)
  · exact completes_int_res (f := iSra) rfl hf (sshiftRight_eq_ofInt ..)
  · exact completes_int_res (f := iMin) rfl hf (iMin_eq ..)
  · exact completes_int_res (f := iMax) rfl hf (iMax_eq ..)
  · exact completes_int_res (f := iMinu) rfl hf (iMinu_eq ..)
  · exact completes_int_res (f := iMaxu) rfl hf (iMaxu_eq ..)
  · exact completes_int (f := iSlt) rfl hf (signExtend_ofNat_b2n w _)
  · exact completes_int (f := iSltu) rfl hf (signExtend_ofNat_b2n w _)
  · exact completes_int (f := iClz) (b := 0#5) rfl hf (by
      rw [iClz_eq, signExtend_ofNat (Nat.sub_le ..)])
  · exact completes_int (f := iPopc) (b := 0#5) rfl hf (by
      rw [iPopc_eq, signExtend_ofNat (List.countP_le_length.trans_eq List.length_range)])

/-! ## Overflow and immediates (R70, R72 to R74) -/

theorem sext_eq_ofInt {n : Nat} (x : BitVec n) : sext x = BitVec.ofInt 64 x.toInt := rfl

/-- ADDV and SUBV: the result where it fits, and else ARITH_OVERFLOW (R70). -/
theorem overflowWord_cases {f : Int → Int → Int} {i : Instr} {d a b : BitVec 5} {w : BitVec 1} {s : State}
    (hi : exec i s = overflowWord f d a b w s) (h : s.idle) :
    let n := opBits w
    let r := f (sval n (s.readS a)) (sval n (s.readS b))
    let fits := -2 ^ (n - 1) ≤ r ∧ r < 2 ^ (n - 1)
    (fits → Completes i s (Wrote d (BitVec.ofInt 64 r) s)) ∧
    (¬ fits → Completes i s (fun t => t = takeTrap s { cause := 0x08 } ∧ ∀ k, t.readS k = s.readS k)) := by
  intro n r fits
  have hs : ∀ x : Word, sgnN n x.toNat = sval n x := fun x => by
    rw [sgnN_eq_bmod (opBits_pos w)]
    norm_cast
  have hfit : (intMin true n ≤ r && r ≤ intMax true n) = decide fits := by
    simp only [intMin, intMax, if_true, Bool.decide_and, fits, Int.le_sub_one_iff]
  constructor
  · intro hr
    refine ⟨_, hi.trans (aside_ok h.1 (.inl rfl) ?_), wrote_complete ..⟩
    show (if intMin true n ≤ f (sgnN n _) (sgnN n _) && f (sgnN n _) (sgnN n _) ≤ intMax true n then _ else _) = _
    rw [hs, hs, hfit, if_pos (decide_eq_true hr)]
    show Except.ok (s.writeS d (BitVec.ofInt 64 (f (sgnN n _) (sgnN n _)))) = _
    rw [hs, hs]
  · intro hr
    refine ⟨_, hi.trans (aside_trap (x := { cause := 0x08 }) h ?_), rfl, takeTrap_readS s _⟩
    show (if intMin true n ≤ f (sgnN n _) (sgnN n _) && f (sgnN n _) (sgnN n _) ≤ intMax true n then _ else _) = _
    rw [hs, hs, hfit, if_neg (by simpa using hr)]
    rfl

/-- A word that computes sD from sA completes with its value. -/
theorem completes_imm {f : Word → Word} {i : Instr} {d a : BitVec 5} {s : State} {v : Word}
    (hi : exec i s = immWord f d a s) (hf : s.unframed) (hv : f (s.readS a) = v) : Completes i s (Wrote d v s) := by
  rw [← hv, Completes, hi]
  exact asideReg_wrote (fun s => f (s.readS a)) d s hf

theorem w64_b2n (p : Prop) [Decidable p] : w64 (b2n (decide p)) = if p then 1#64 else 0#64 := by
  by_cases h : p <;> simp [h, b2n, w64]

theorem sext_shift_twelve (i : BitVec 20) : sext i <<< 12 = BitVec.ofInt 64 (i.toInt * 4096) := by
  rw [BitVec.ofInt_mul, sext_eq_ofInt, ← BitVec.mul_twoPow_eq_shiftLeft]
  rfl

/-- Settles O6: ADDV and SUBV by whether the sum fits, the immediate words by their operation. -/
theorem overflowAndImmediates : Obligations.OverflowAndImmediates := by
  unfold Obligations.OverflowAndImmediates
  refine ⟨fun s d a b w hi => ⟨overflowWord_cases (f := (· + ·)) rfl hi, overflowWord_cases (f := (· - ·)) rfl hi⟩,
    fun s d a i15 i12 i6 i20 hf => ⟨?_, ?_, ?_, ?_, ?_, ?_, ?_, ?_, ?_, ?_, ?_⟩⟩
  · exact completes_imm (f := fun x => x + sext i15) rfl hf rfl
  · exact completes_imm (f := fun x => x &&& sext i12) rfl hf rfl
  · exact completes_imm (f := fun x => x ||| sext i12) rfl hf rfl
  · exact completes_imm (f := fun x => x ^^^ sext i12) rfl hf rfl
  · refine completes_imm (f := fun x => w64 (b2n (x.slt (sext i12)))) rfl hf ?_
    rw [BitVec.slt_eq_decide, w64_b2n, sext, BitVec.toInt_signExtend_of_le (by decide)]
  · refine completes_imm (f := fun x => w64 (b2n (x.ult (sext i12)))) rfl hf ?_
    rw [BitVec.ult_eq_decide, w64_b2n, sext_eq_ofInt]
  · refine completes_imm (f := fun x => x <<< i6.toNat) rfl hf ?_
    rw [shiftLeft_eq_ofInt, BitVec.ofInt_natCast]
  · refine completes_imm (f := fun x => x >>> i6.toNat) rfl hf ?_
    rw [shiftRight_eq_ofInt, BitVec.ofInt_natCast]
  · exact completes_imm (f := fun x => x.sshiftRight i6.toNat) rfl hf (sshiftRight_eq_ofInt ..)
  · rw [← sext_shift_twelve]
    exact asideReg_wrote (fun _ => sext i20 <<< 12) d s hf
  · rw [← sext_shift_twelve]
    exact asideReg_wrote (fun s => s.cur.pc + (sext i20 <<< 12)) d s hf

end Sys2Proof.Machine
end

section
/-! Branches, jumps, hardware loops and queues (R86 to R101). -/
namespace Sys2Proof.Machine

/-! ## Branches and jumps (R86 to R88) -/

theorem wordOff_eq {n : Nat} (o : BitVec n) : wordOff o = BitVec.ofInt 64 (4 * o.toInt) := by
  rw [wordOff, BitVec.ofInt_mul, BitVec.mul_comm]
  rfl

/-- A branch word: taken where its condition holds, and past it elsewhere (R86). -/
theorem branch_cases {cond : Word → Word → Bool} {i : Instr} {a b : BitVec 5} {o : BitVec 12} {s : State} {c : Prop}
    (hi : exec i s = branch cond a b o s) (hf : s.unframed) (hc : cond (s.readS a) (s.readS b) = true ↔ c) :
    (c → Completes i s (fun t => Jumped (s.cur.pc + BitVec.ofInt 64 (4 * o.toInt)) s t ∧ t.cur.s = s.cur.s)) ∧
    (¬ c → Completes i s (Passed s)) := by
  rw [← wordOff_eq]
  refine ⟨fun h => ⟨_, hi.trans (aside_ok hf (.inl rfl) rfl), ?_⟩, fun h => ⟨_, hi.trans (aside_ok hf (.inl rfl) rfl), ?_⟩⟩
  · rw [if_pos (hc.2 h)]
    exact ⟨jumped_completeJump _ s s.cur.s, completeJump_s ..⟩
  · rw [if_neg (fun hx => h (hc.1 hx))]
    exact passed_complete s

/-- A jump that has written a register: control goes to target, and the register holds the value. -/
theorem jumped_writeS (target : Word) (d : BitVec 5) (v : Word) (s : State) :
    Jumped target s (completeJump target (s.writeS d v)) ∧
    (completeJump target (s.writeS d v)).readS d = (if d = 0#5 then 0#64 else v) ∧
    ∀ k, k ≠ d → (completeJump target (s.writeS d v)).readS k = s.readS k := by
  have hr : ∀ k, (completeJump target (s.writeS d v)).readS k = (s.writeS d v).readS k := fun k => by
    simp only [State.readS, Thread.readS, completeJump_s]
  refine ⟨?_, by rw [hr, State.readS_writeS, if_pos rfl], fun k hk => by rw [hr, State.readS_writeS, if_neg hk]⟩
  rw [State.writeS, Thread.writeS_eq]
  exact jumped_completeJump ..

theorem exec_jal (i : BitVec 25) (s : State) : exec (.jal i) s = execJal i s := rfl

theorem exec_jalr (d a : BitVec 5) (i : BitVec 15) (s : State) : exec (.jalr d a i) s = execJalr d a i s := rfl

/-- Settles O7: the branches by their condition, the jumps by where they go and what they link. -/
theorem branchesAndJumps : Obligations.BranchesAndJumps := by
  unfold Obligations.BranchesAndJumps
  refine ⟨fun s a b o hf => ⟨?_, ?_, ?_, ?_, ?_, ?_⟩, fun s d a i25 i15 => ⟨fun hf => ⟨?_, fun ht => ?_⟩, fun hi ht => ?_⟩⟩
  · exact branch_cases (cond := fun x y => x == y) rfl hf beq_iff_eq
  · exact branch_cases (cond := fun x y => x != y) rfl hf bne_iff_ne
  · exact branch_cases (cond := fun x y => x.slt y) rfl hf BitVec.slt_iff_toInt_lt
  · exact branch_cases (cond := fun x y => !x.slt y) rfl hf (by simp [BitVec.slt_eq_decide])
  · exact branch_cases (cond := fun x y => x.ult y) rfl hf BitVec.ult_iff_toNat_lt
  · exact branch_cases (cond := fun x y => !x.ult y) rfl hf (by simp [BitVec.ult_eq_decide])
  · rw [← wordOff_eq]
    exact ⟨_, (exec_jal ..).trans (aside_ok hf (.inl rfl) rfl), jumped_writeS ..⟩
  · exact ⟨_, (exec_jalr ..).trans (aside_ok hf (.inl rfl) (if_pos ht)), jumped_writeS ..⟩
  · exact ⟨_, (exec_jalr ..).trans (aside_trap hi (if_neg ht)), rfl, takeTrap_readS s _⟩

/-! ## Hardware loops (R90 to R96) -/

theorem Thread.atLoopEnd_iff (t : Thread) : t.atLoopEnd = true ↔
    (t.loops.lc0 ≠ 0#64 ∧ t.loops.le0 = t.pc) ∨ (t.loops.lc1 ≠ 0#64 ∧ t.loops.le1 = t.pc) := by
  simp only [Thread.atLoopEnd, Bool.or_eq_true, Bool.and_eq_true, decide_eq_true_eq]

/-- A LOOP word: the loop set up and its body entered or skipped, or ILLEGAL (R91, R92, R96). -/
theorem loopWord_cases {one : Bool} {count : Word} {i : BitVec 12} {j : Instr} {s : State}
    (hj : exec j s = loopWord one count i s) (hi : s.idle) :
    let le := s.cur.pc + BitVec.ofInt 64 (4 * i.toInt)
    let lp := s.cur.loops
    let atEnd := (lp.lc0 ≠ 0#64 ∧ lp.le0 = s.cur.pc) ∨ (lp.lc1 ≠ 0#64 ∧ lp.le1 = s.cur.pc)
    (0 < i.toInt → ¬ atEnd → Completes j s (fun t => t = { s with cur := { s.cur with
      pc := if count = 0#64 then le + 4#64 else s.cur.pc + 4#64
      loops := lp.begin one count (s.cur.pc + 4#64) le
      prog := { s.cur.prog with instret := s.cur.prog.instret + 1#64, last := some s.cur.pc, reissue := false, wait := .none } } })) ∧
    (i.toInt ≤ 0 ∨ atEnd → Completes j s (fun t => t = takeTrap s { cause := 0x01 })) := by
  intro le lp atEnd
  have hle : s.cur.pc + wordOff i = le := by rw [wordOff_eq]
  have hpos : (0#12).slt i = decide (0 < i.toInt) := by rw [BitVec.slt_eq_decide, BitVec.toInt_zero]
  have hend : s.cur.atLoopEnd = decide atEnd := by
    rw [Bool.eq_iff_iff, Thread.atLoopEnd_iff, decide_eq_true_eq]
  refine ⟨fun h hn => ⟨_, hj.trans (aside_ok hi.1 (.inl rfl) (if_pos ?_)), ?_⟩,
    fun h => ⟨_, hj.trans (aside_trap hi (if_neg ?_)), rfl⟩⟩
  · simp only [hpos, hend, h, hn, decide_true, decide_false, Bool.not_false, Bool.and_self]
  · rw [hle]
    by_cases hc : count = 0#64
    · rw [if_pos hc, if_pos hc]; rfl
    · rw [if_neg hc, if_neg hc]; rfl
  · rw [hpos, hend]
    rcases h with h | h
    · simp [not_lt.2 h]
    · simp [h]

/-- LEXITn: loop n ends and control goes past its end word, or ILLEGAL (R95, R96). -/
theorem loopExit_cases {one : Bool} {j : Instr} {s : State} {lc le : Word} {off after : Loops} (hj : exec j s = loopExit one s)
    (hi : s.idle) (hlc : (if one then s.cur.loops.lc1 else s.cur.loops.lc0) = lc)
    (hle : (if one then s.cur.loops.le1 else s.cur.loops.le0) = le)
    (hoff : (if one then { s.cur.loops with lc1 := 0#64 } else { s.cur.loops with lc0 := 0#64 }) = off)
    (hafter : (if s.cur.loopsOn then loopLeave off (le + 4#64) else off) = after) :
    let lp := s.cur.loops
    let atEnd := (lp.lc0 ≠ 0#64 ∧ lp.le0 = s.cur.pc) ∨ (lp.lc1 ≠ 0#64 ∧ lp.le1 = s.cur.pc)
    (lc ≠ 0#64 → ¬ atEnd → Completes j s (fun t => t = { s with cur := { s.cur with
      pc := le + 4#64
      loops := after
      prog := { s.cur.prog with instret := s.cur.prog.instret + 1#64, last := some s.cur.pc, reissue := false, wait := .none } } })) ∧
    (¬ lc ≠ 0#64 ∨ atEnd → Completes j s (fun t => t = takeTrap s { cause := 0x01 })) := by
  intro lp atEnd
  have hend : s.cur.atLoopEnd = decide atEnd := by
    rw [Bool.eq_iff_iff, Thread.atLoopEnd_iff, decide_eq_true_eq]
  refine ⟨fun h hn => ⟨_, hj.trans (aside_ok hi.1 (.inl rfl) (if_pos ?_)), ?_⟩,
    fun h => ⟨_, hj.trans (aside_trap hi (if_neg ?_)), rfl⟩⟩
  · rw [hlc, hend]
    simp [h, hn]
  · subst hlc hle hoff hafter
    rw [completeJump_eq]
    rfl
  · rw [hlc, hend]
    rcases h with h | h
    · simp [not_not.1 h]
    · simp [h]

/-- What R94 does to the loops, as the statement writes it: only an active loop that does not hold the target ends. -/
theorem loopLeave_eq (l : Loops) (target : Word) :
    let inside := fun (lb le : Word) => decide (lb.toNat ≤ target.toNat) && decide (target.toNat ≤ le.toNat)
    loopLeave l target = { l with
      lc0 := if !inside l.lb0 l.le0 then 0#64 else l.lc0
      lc1 := if !inside l.lb1 l.le1 then 0#64 else l.lc1 } := by
  have h : ∀ (lc : Word) (b : Bool), (if lc ≠ 0#64 && !b then 0#64 else lc) = if !b then 0#64 else lc := fun lc b => by
    by_cases hl : lc = 0#64 <;> simp [hl]
  simp only [loopLeave, h, BitVec.le_def]

/-! ## The loop-end test (R93) -/

theorem Thread.advance_off {t : Thread} (h : t.loopsOn = false) : t.advance.pc = t.pc + 4#64 ∧ t.advance.loops = t.loops := by
  obtain ⟨-, hpc, hl⟩ := t.advance_fields
  simp only [hpc, hl, h, if_false, Bool.false_eq_true, and_self]

theorem Thread.advance_on {t : Thread} (h : t.loopsOn = true) :
    t.advance.pc = (loopEnd t.loops t.pc).1 ∧ t.advance.loops = (loopEnd t.loops t.pc).2 := by
  obtain ⟨-, hpc, hl⟩ := t.advance_fields
  simp only [hpc, hl, h, if_true, and_self]

theorem lt_iff_one_lt_toNat (c : Word) : 1#64 < c ↔ 1 < c.toNat := BitVec.lt_def

theorem loopEnd_one {l : Loops} {x : Word} (h : l.lc1 ≠ 0#64 ∧ l.le1 = x) (hc : 1 < l.lc1.toNat) :
    loopEnd l x = (l.lb1, { l with lc1 := l.lc1 - 1#64 }) := by
  unfold loopEnd
  rw [if_pos (by simp [h.1, h.2]), if_pos ((lt_iff_one_lt_toNat _).2 hc)]

/-- Where loop 1 does not go round again, the test of loop 0 decides, with loop 1 over if the word ends it. -/
theorem loopEnd_zero {l : Loops} {x : Word} (h : l.lc1 ≠ 0#64 ∧ l.le1 = x → l.lc1 = 1#64) :
    let l1 := { l with lc1 := if l.le1 = x then 0#64 else l.lc1 }
    loopEnd l x =
      if l.lc0 ≠ 0#64 ∧ l.le0 = x then
        if 1 < l.lc0.toNat then (l.lb0, { l1 with lc0 := l.lc0 - 1#64 }) else (x + 4#64, { l1 with lc0 := 0#64 })
      else (x + 4#64, l1) := by
  intro l1
  unfold loopEnd
  by_cases he : l.lc1 ≠ 0#64 ∧ l.le1 = x
  · have hl1 : l1 = { l with lc1 := 0#64 } := by simp only [l1, he.2, if_true]
    rw [if_pos (by simp [he.1, he.2]), if_neg (by rw [h he]; decide), hl1]
    simp [lt_iff_one_lt_toNat]
  · have hl1 : l1 = l := by
      by_cases hx : l.le1 = x
      · have hz : l.lc1 = 0#64 := not_not.1 (fun hc => he ⟨hc, hx⟩)
        simp only [l1, hx, if_true]
        rw [← hz, ← hx]
      · simp only [l1, hx, if_false]
    rw [if_neg (by simpa using he), hl1]
    simp [lt_iff_one_lt_toNat]

/-- Settles O8: the LOOP and LEXIT words by whether they are legal, and the loop-end test from loop 1 to loop 0. -/
theorem hardwareLoops : Obligations.HardwareLoops := by
  unfold Obligations.HardwareLoops
  refine ⟨fun s a l i hi => ⟨?_, ?_, ?_, ?_⟩, fun s hi => ⟨?_, ?_⟩, fun s d a i hf => ?_⟩
  · exact loopWord_cases (one := false) rfl hi
  · exact loopWord_cases (one := true) rfl hi
  · rw [BitVec.ofNat_toNat]
    exact loopWord_cases (one := false) rfl hi
  · rw [BitVec.ofNat_toNat]
    exact loopWord_cases (one := true) rfl hi
  · refine loopExit_cases (one := false) rfl hi rfl rfl rfl ?_
    show (if decide (s.cur.ring = 0#2) && !s.cur.user.ls then _ else _) = _
    cases hon : decide (s.cur.ring = 0#2) && !s.cur.user.ls <;> simp [loopLeave_eq]
  · refine loopExit_cases (one := true) rfl hi rfl rfl rfl ?_
    show (if decide (s.cur.ring = 0#2) && !s.cur.user.ls then _ else _) = _
    cases hon : decide (s.cur.ring = 0#2) && !s.cur.user.ls <;> simp [loopLeave_eq]
  · intro x lp on ends1 ends0
    obtain ⟨t, ht, hw⟩ := asideReg_wrote (fun s => s.readS a + sext i) d s hf
    have hon : s.cur.loopsOn = true ↔ on := by simp [Thread.loopsOn, on]
    have hpc : t.cur.pc = s.cur.advance.pc := by rw [hw.rest]; rfl
    have hlp : t.cur.loops = s.cur.advance.loops := by rw [hw.rest]; rfl
    refine ⟨t, ht, ?_⟩
    dsimp only
    rw [hpc, hlp]
    refine ⟨fun h => ?_, fun h h1 hc => ?_, fun h h1 h0 hc => ?_, fun h h1 h0 => ?_⟩
    · exact Thread.advance_off (by simpa using mt hon.1 h)
    · rw [(Thread.advance_on (hon.2 h)).1, (Thread.advance_on (hon.2 h)).2, loopEnd_one h1 hc]
      exact ⟨rfl, rfl⟩
    · rw [(Thread.advance_on (hon.2 h)).1, (Thread.advance_on (hon.2 h)).2, loopEnd_zero h1, if_pos h0, if_pos hc]
      exact ⟨rfl, rfl⟩
    · rw [(Thread.advance_on (hon.2 h)).1, (Thread.advance_on (hon.2 h)).2, loopEnd_zero h1]
      by_cases he : ends0
      · have hle : lp.le0 = x := he.2
        rw [if_pos he, if_neg (by rw [h0 he]; decide), if_pos hle]
        exact ⟨rfl, rfl⟩
      · have hz : (if lp.le0 = x then 0#64 else lp.lc0) = lp.lc0 := by
          split
          · next hx => exact (not_not.1 (fun hc => he ⟨hc, hx⟩)).symm
          · rfl
        rw [if_neg he, hz]
        exact ⟨rfl, rfl⟩

/-! ## Queues (R99 to R101) -/

theorem State.supersede_idle {s : State} (h : s.cur.viq = []) (d : BitVec 5) : s.supersede d = s := by
  unfold State.supersede State.onCur
  simp only [h, List.map_nil]
  rw [← h]

theorem drainAll_idle {s : State} (h : s.cur.viq = []) : s.drainAll = s := by
  unfold State.drainAll
  rw [h]
  rfl

/-- The state of a QUE word before it completes: the queues as q, the older writers of sD gone, and v in sD. -/
def State.queWritten (s : State) (q : Table (List Word)) (d : BitVec 5) (v : Word) : State :=
  { s with cur := { s.cur with s := (s.cur.writeS d v).s, q := q, viq := (s.supersede d).cur.viq } }

/-- What a thread holds in its scalar registers, its queues, its flags and its pending work has no part in its progress past a
word. -/
theorem Thread.past_congr_parts (t : Thread) (x : Table Word) (q : Table (List Word)) (l : List VEntry) (fl : Word) :
    ({ t with s := x, q := q, viq := l, user := { t.user with fflags := fl } } : Thread).past =
      { t.past with s := x, q := q, viq := l, user := { t.user with fflags := fl } } := by
  obtain ⟨h1, h2, h3⟩ := ({ t with s := x, q := q, viq := l, user := { t.user with fflags := fl } } : Thread).advance_fields
  obtain ⟨k1, k2, k3⟩ := t.advance_fields
  have hs : ({ t with s := x, q := q, viq := l, user := { t.user with fflags := fl } } : Thread).settleTag.prog =
      t.settleTag.prog := Thread.prog_settleTag_congr rfl rfl rfl
  unfold Thread.past
  rw [h1, h2, h3, k1, k2, k3, hs]
  rfl

/-- What a QUE word leaves once it has changed the queues and written sD. -/
theorem complete_queWritten (s : State) (q : Table (List Word)) (d : BitVec 5) (v : Word) :
    let t := complete (s.queWritten q d v)
    t.readS d = (if d = 0#5 then 0#64 else v) ∧ (∀ r, r ≠ d → t.readS r = s.readS r) ∧ t.cur.q = q ∧
    t = { s with cur := { s.cur.past with s := t.cur.s, q := t.cur.q, viq := (s.supersede d).cur.viq } } := by
  intro t
  have ht : t = { s with cur := { s.cur.past with
      s := (s.cur.writeS d v).s, q := q, viq := (s.supersede d).cur.viq } } := by
    refine (complete_eq _).trans ?_
    exact congrArg (fun t => ({ s with cur := t } : State)) (Thread.past_congr_parts s.cur _ _ _ s.cur.user.fflags)
  have hr : ∀ r, t.readS r = (s.writeS d v).readS r := fun r => by rw [ht]; rfl
  exact ⟨by rw [hr, State.readS_writeS, if_pos rfl], fun r h => by rw [hr, State.readS_writeS, if_neg h], by rw [ht], by rw [ht]⟩

/-- A QUE word that leaves l in queue k and the other queues as they were. -/
theorem complete_queWritten_set (s : State) (k : Nat) (l : List Word) (d : BitVec 5) (v : Word) :
    let t := complete (s.queWritten (Table.set s.cur.q [] k l) d v)
    t.readS d = (if d = 0#5 then 0#64 else v) ∧ (∀ r, r ≠ d → t.readS r = s.readS r) ∧
    t.cur.queue k = l ∧ (∀ j, j ≠ k → t.cur.queue j = s.cur.queue j) ∧
    t = { s with cur := { s.cur.past with s := t.cur.s, q := t.cur.q, viq := (s.supersede d).cur.viq } } := by
  obtain ⟨hd, hr, hq, ht⟩ := complete_queWritten s (Table.set s.cur.q [] k l) d v
  refine ⟨hd, hr, ?_, fun j hj => ?_, ht⟩
  · rw [Thread.queue, hq, Table.get_set_self]
  · rw [Thread.queue, hq, Table.get_set_other _ _ _ hj]
    rfl

/-- QPOP and QDRAIN where the E-side is idle: n entries go, and the word completes. -/
theorem completeQue_popQueue {s : State} (hi : s.idle) (k n : Nat) (d : BitVec 5) (v : Word) :
    completeQue (((s.popQueue k n).supersede d).writeS d v) =
      complete (s.queWritten (Table.set s.cur.q [] k ((s.cur.queue k).drop n)) d v) := by
  have hp : s.popQueue k n = s.onCur (fun t => t.setQueue k ((t.queue k).drop n)) := by
    unfold State.popQueue State.onPast State.onCur
    simp only [Thread.setQueue, hi.2, List.map_nil]
  have hd : ((s.popQueue k n).supersede d).writeS d v = s.queWritten (Table.set s.cur.q [] k ((s.cur.queue k).drop n)) d v := by
    have hv : (s.onCur (fun t => t.setQueue k ((t.queue k).drop n))).cur.viq = [] := hi.2
    rw [hp, State.supersede_idle hv, State.queWritten, State.supersede_idle hi.2, State.writeS,
      Thread.writeS_eq]
    unfold State.onCur Thread.setQueue
    simp only [Thread.writeS]
    split <;> rfl
  have hv : (complete (s.queWritten (Table.set s.cur.q [] k ((s.cur.queue k).drop n)) d v)).cur.viq = [] := by
    rw [complete_eq]
    show (s.supersede d).cur.viq = []
    rw [State.supersede_idle hi.2, hi.2]
  rw [hd, completeQue, drainAll_idle hv]

theorem Thread.producing_idle {t : Thread} (h : t.viq = []) (k : Nat) : t.producing k = false := by
  unfold Thread.producing; rw [h]; rfl

section
variable {s : State} {d a : BitVec 5}

/-- QCNT writes the number of entries (R101). -/
theorem exec_qcnt (hf : s.unframed) : exec (.qcnt d a) s =
    .next (complete (s.queWritten s.cur.q d (w64 (s.cur.queue a.toNat).length))) := by
  have hw : (s.supersede d).writeS d (w64 (s.cur.queue a.toNat).length) =
      s.queWritten s.cur.q d (w64 (s.cur.queue a.toNat).length) := by
    rw [State.writeS, Thread.writeS_eq]
    unfold State.supersede State.onCur State.queWritten
    simp only [Thread.writeS]
    split <;> rfl
  rw [← hw]
  exact aside_ok (body := fun s => .ok ((s.supersede d).writeS d (w64 (s.cur.queue a.toNat).length))) hf (.inl rfl) rfl

/-- QPOP takes the oldest entry of its queue (R101). -/
theorem exec_qpop_cons (hi : s.idle) {v : Word} {l : List Word} (hq : s.cur.queue a.toNat = v :: l) : exec (.qpop d a) s =
    .next (complete (s.queWritten (Table.set s.cur.q [] a.toNat l) d v)) := by
  have hl : l = (s.cur.queue a.toNat).drop 1 := by rw [hq]; rfl
  rw [hl, ← completeQue_popQueue hi]
  show execQpop d a s = _
  exact aside_ok hi.1 (.inl rfl) (by simp only [hq])

/-- QPOP of an empty queue that no pending work fills raises QUEUE_UNDERFLOW (R101). -/
theorem exec_qpop_nil (hi : s.idle) (hq : s.cur.queue a.toNat = []) : exec (.qpop d a) s =
    .next (takeTrap s { cause := cUnderflow, queue := a.toNat }) := by
  show execQpop d a s = _
  refine aside_trap hi ?_
  simp only [hq]
  exact if_neg (by rw [Thread.producing_idle hi.2]; decide)

/-- QPOP of an empty queue waits for a producer (R101). -/
theorem exec_qpop_waits (hf : s.unframed) (hq : s.cur.queue a.toNat = []) (hp : s.cur.producing a.toNat = true) :
    exec (.qpop d a) s = .next (s.waits (.qpop a.toNat)) := by
  show execQpop d a s = _
  refine aside_wait hf (.inl rfl) ?_
  simp only [hq]
  exact if_pos hp

/-- QDRAIN removes every entry and writes their number (R101). -/
theorem exec_qdrain (hi : s.idle) : exec (.qdrain d a) s =
    .next (complete (s.queWritten (Table.set s.cur.q [] a.toNat []) d (w64 (s.cur.queue a.toNat).length))) := by
  have hq := completeQue_popQueue hi a.toNat (s.cur.queue a.toNat).length d (w64 (s.cur.queue a.toNat).length)
  rw [List.drop_length] at hq
  rw [← hq]
  show execQdrain d a s = _
  exact aside_ok hi.1 (.inl rfl) (if_neg (by rw [Thread.producing_idle hi.2]; decide))

end

/-- Settles O9: each QUE word by what it takes of its queue, an empty queue by whether a producer is pending. -/
theorem queues : Obligations.Queues := by
  unfold Obligations.Queues
  intro s d a k left
  refine ⟨fun hf => ⟨_, exec_qcnt hf, ?_⟩,
    fun hi => ⟨fun v l hq => ⟨_, exec_qpop_cons hi hq, complete_queWritten_set ..⟩, fun hq => ⟨_, exec_qpop_nil hi hq, rfl⟩,
      _, exec_qdrain hi, complete_queWritten_set ..⟩,
    fun hf hq hp => ⟨_, exec_qpop_waits hf hq hp, rfl⟩⟩
  obtain ⟨hd, hr, hq, ht⟩ := complete_queWritten s s.cur.q d (w64 (s.cur.queue k).length)
  exact ⟨hd, hr, by rw [Thread.queue, hq]; rfl, fun j _ => by rw [Thread.queue, hq]; rfl, ht⟩

end Sys2Proof.Machine
end

section
/-! The trap record, and what a trap leaves unchanged (R107, R474, R475). -/
namespace Sys2Proof.Machine

/-! ## Slices of joined lists -/

theorem length_leBytes (n x : Nat) : (leBytes n x).length = n := by simp [leBytes]

theorem leBytes_zero (n : Nat) : leBytes n 0 = List.replicate n 0#8 := by
  simp only [leBytes, Nat.zero_div, List.map_const', List.length_range]

/-- Bits above the bytes written have no part in them. -/
theorem leBytes_mod (n x : Nat) : leBytes n (x % 256 ^ n) = leBytes n x := by
  refine List.map_congr_left fun k hk => BitVec.eq_of_toNat_eq ?_
  have hk : k < n := List.mem_range.1 hk
  rw [BitVec.toNat_ofNat, BitVec.toNat_ofNat, show (256 : Nat) ^ n = 256 ^ k * 256 ^ (n - k) by rw [← pow_add]; congr 1; omega,
    Nat.mod_mul_right_div_self, Nat.mod_mod_of_dvd _ (dvd_pow_self 256 (by omega))]

/-- A slice inside one of several joined lists is a slice of that list. -/
theorem slice_flatten {L : List (List Byte)} {ns : List Nat} (hL : L.map List.length = ns) {i : Nat} {a : List Byte}
    (ha : L[i]? = some a) {o n : Nat} (h : o + n ≤ a.length) :
    (L.flatten.drop ((ns.take i).sum + o)).take n = (a.drop o).take n := by
  subst hL
  induction L generalizing i with
  | nil => simp at ha
  | cons b L ih =>
    cases i with
    | zero =>
      obtain rfl : b = a := by simpa using ha
      rw [List.take_zero, List.sum_nil, Nat.zero_add, List.flatten_cons, List.drop_append_of_le_length (by omega),
        List.take_append_of_le_length (by rw [List.length_drop]; omega)]
    | succ i =>
      rw [List.map_cons, List.take_succ_cons, List.sum_cons, List.flatten_cons, Nat.add_assoc, List.drop_length_add_append]
      exact ih (by simpa using ha)

/-- A list of several is itself a slice of their join. -/
theorem slice_flatten_self {L : List (List Byte)} {ns : List Nat} (hL : L.map List.length = ns) {i n : Nat} {a : List Byte}
    (ha : L[i]? = some a) (hn : a.length = n) : (L.flatten.drop (ns.take i).sum).take n = a := by
  have h := slice_flatten hL ha (o := 0) (n := n) (by omega)
  rwa [Nat.add_zero, List.drop_zero, List.take_of_length_le hn.le] at h

/-- Item k of m items of c bytes each. -/
theorem slice_flatMap_range {m c k : Nat} {f : Nat → List Byte} (hf : ∀ i, (f i).length = c) (hk : k < m) :
    (((List.range m).flatMap f).drop (c * k)).take c = f k := by
  have hL : ((List.range m).map f).map List.length = List.replicate m c := by
    rw [List.map_map, show List.length ∘ f = fun _ => c from funext hf, List.map_const', List.length_range]
  have h := slice_flatten_self hL (i := k) (n := c) (a := f k) (by simp [hk]) (hf k)
  rwa [List.take_replicate, List.sum_replicate, min_eq_left hk.le, smul_eq_mul, Nat.mul_comm] at h

theorem length_flatMap_range {m c : Nat} {f : Nat → List Byte} (hf : ∀ i, (f i).length = c) :
    ((List.range m).flatMap f).length = m * c := by
  simp [List.length_flatMap, hf]

/-! ## The record (R475) -/

/-- The parts of a trap record, in the order of the table of R475. -/
def recordParts (s : State) (x : Trap) (epc cause : Word) (pr : Nat) : List (List Byte) :=
  let t := s.cur
  let w := fun (v : Word) => leBytes 8 v.toNat
  let lp := t.loops
  [w epc, w cause, w (if x.synd ≠ 0 then w64 x.synd else x.addr),
   leBytes 8 (b2n x.reissue + 2 * b2n x.eside + 4 * pr + 256 * x.batch.length +
     65536 * (if x.elems then bitsAt t.user.vfirst.toNat 0 16 else 0)),
   (List.range 16).flatMap (fun i => leBytes 8 (x.batch.getD i 0)),
   (List.range 8).flatMap (fun i => leBytes 2 (if x.sweep then Table.get t.conf.counters 0 i else 0)),
   (if x.sweep then [t.dims.dx0, t.dims.dx1, t.dims.dx2] else [0#64, 0#64, 0#64]).flatMap w,
   [lp.lc0, lp.lb0, lp.le0, lp.lc1, lp.lb1, lp.le1].flatMap w,
   (List.range 8).flatMap (fun i => leBytes 1 (t.queue i).length),
   leBytes 512 (if x.elems then t.conf.fmask.toNat else 0), List.replicate 256 0#8]

section
variable (s : State) (x : Trap) (epc cause : Word) (pr : Nat)

theorem trapRecord_eq_flatten : trapRecord s x epc cause pr = (recordParts s x epc cause pr).flatten := by
  unfold trapRecord recordParts
  simp only [bytesOf_eq_leBytes, List.flatten_cons, List.flatten_nil, List.append_nil, List.append_assoc]

theorem recordParts_lengths :
    (recordParts s x epc cause pr).map List.length = [8, 8, 8, 8, 128, 16, 24, 48, 8, 512, 256] := by
  have hdx : ∀ (b : Bool) (u v : List Word), (if b = true then u else v).length = if b then u.length else v.length := fun b u v => by
    cases b <;> rfl
  unfold recordParts
  simp only [List.map_cons, List.map_nil, length_leBytes, List.length_replicate, length_flatMap_range (fun _ => length_leBytes ..),
    List.length_flatMap, List.map_const', List.sum_replicate, hdx, List.length_cons, List.length_nil, ite_self, smul_eq_mul]
  rfl

theorem length_trapRecord : (trapRecord s x epc cause pr).length = 1024 := by
  rw [trapRecord_eq_flatten, List.length_flatten, recordParts_lengths]
  rfl

variable {s x epc cause pr}

/-- Part i of a record, at its place. -/
theorem slice_trapRecord {i n : Nat} {a : List Byte} (ha : (recordParts s x epc cause pr)[i]? = some a) (hn : a.length = n) :
    ((trapRecord s x epc cause pr).drop ([8, 8, 8, 8, 128, 16, 24, 48, 8, 512, 256].take i).sum).take n = a := by
  rw [trapRecord_eq_flatten]
  exact slice_flatten_self (recordParts_lengths ..) ha hn

/-- Item k of part i of a record, whose items have c bytes each. -/
theorem slice_trapRecord_item {i m c k : Nat} {f : Nat → List Byte}
    (ha : (recordParts s x epc cause pr)[i]? = some ((List.range m).flatMap f)) (hf : ∀ j, (f j).length = c) (hk : k < m) :
    ((trapRecord s x epc cause pr).drop (([8, 8, 8, 8, 128, 16, 24, 48, 8, 512, 256].take i).sum + c * k)).take c = f k := by
  have hle : c * k + c ≤ m * c := by rw [Nat.mul_comm m, ← Nat.mul_succ]; exact Nat.mul_le_mul_left c hk
  rw [trapRecord_eq_flatten, slice_flatten (recordParts_lengths ..) ha (by rwa [length_flatMap_range hf]),
    slice_flatMap_range hf hk]

end

/-! ## What a trap leaves (R107, R474) -/

/-- The threads beside the current one are the same. -/
def State.othersKept (s u : State) : Prop := u.others = s.others ∧ u.saved = s.saved

theorem State.othersKept.trans {s u v : State} (h : s.othersKept u) (k : u.othersKept v) : s.othersKept v :=
  ⟨k.1.trans h.1, k.2.trans h.2⟩

theorem State.Logs.othersKept {pn : Nat} {s u : State} (h : State.Logs pn s u) : s.othersKept u := by
  rw [h.rest]; exact ⟨rfl, rfl⟩

theorem State.logCause_othersKept (s : State) (x : Trap) : s.othersKept (s.logCause x) := by
  unfold State.logCause
  split_ifs
  · exact ⟨rfl, rfl⟩
  · exact (State.logError_logs ..).othersKept
  · exact (State.logError_logs s s.pn ..).othersKept.trans ⟨rfl, rfl⟩
  · exact ⟨rfl, rfl⟩

theorem State.haltPart_othersKept (s : State) (pn : Nat) (addr : Word) (unit cause : Nat) :
    s.othersKept (s.haltPart pn addr unit cause) :=
  (State.logError_logs (s.setPart pn { s.part pn with state := .halted }) pn addr unit s.synd 3 cause).othersKept

theorem State.deliver_othersKept (x : Trap) (epc : Word) (n : Nat) : ∀ (s : State) (r : Nat) (b : Bool) (o : Nat),
    s.othersKept (s.deliver x epc n r b o) := by
  induction n with
  | zero => intro s r b o; exact State.haltPart_othersKept ..
  | succ n ih =>
    intro s r b o
    rw [State.deliver]
    split
    · exact State.haltPart_othersKept ..
    · dsimp only
      split
      · exact ih ..
      · split
        · exact ⟨rfl, rfl⟩
        · split
          · exact (State.logViolation_logs ..).othersKept.trans (ih ..)
          · exact ⟨rfl, rfl⟩

theorem State.trapped_othersKept (s : State) (x : Trap) : s.othersKept (s.trapped x) := s.logCause_othersKept x

theorem takeTrap_othersKept (s : State) (x : Trap) : s.othersKept (takeTrap s x) := by
  obtain ⟨-, h⟩ | ⟨-, h⟩ := takeTrap_cases s x <;> rw [h]
  · exact ⟨rfl, rfl⟩
  · by_cases hu : x.toUser s.cur
    · rw [deliverTrap_of_toUser hu]
      exact (s.trapped_othersKept x).trans ⟨rfl, rfl⟩
    · rw [deliverTrap_of_not_toUser hu]
      exact (s.trapped_othersKept x).trans (State.deliver_othersKept ..)

/-- Settles O22: the record is its parts in order, and a trap changes of the threads only what Thread.entered names. -/
theorem trapRecordAndFrame : Obligations.TrapRecordAndFrame := by
  unfold Obligations.TrapRecordAndFrame
  refine ⟨fun s x epc cause pr _ => ?_, fun s x => ?_⟩
  · intro bs t at_ w b
    refine ⟨length_trapRecord .., slice_trapRecord (i := 0) rfl (length_leBytes ..), slice_trapRecord (i := 1) rfl (length_leBytes ..),
      ?_, ?_, fun k hk => ?_, fun k hk => ?_, ?_, ?_, fun k hk => ?_, ?_, slice_trapRecord (i := 10) rfl List.length_replicate⟩
    · refine (slice_trapRecord (i := 2) rfl (length_leBytes ..)).trans ?_
      split
      · exact leBytes_mod 8 x.synd
      · rfl
    · refine (slice_trapRecord (i := 3) rfl (length_leBytes ..)).trans ?_
      cases x.elems <;> rfl
    · exact slice_trapRecord_item (i := 4) rfl (fun _ => length_leBytes ..) hk
    · refine (slice_trapRecord_item (i := 5) rfl (fun _ => length_leBytes ..) hk).trans ?_
      cases x.sweep
      · exact leBytes_zero 2
      · rfl
    · refine (slice_trapRecord (i := 6) rfl ?_).trans ?_
      · cases x.sweep <;> rfl
      · cases x.sweep
        · rfl
        · simp [w, t]
    · refine (slice_trapRecord (i := 7) rfl rfl).trans ?_
      simp [w, t]
    · have h := slice_trapRecord_item (s := s) (x := x) (epc := epc) (cause := cause) (pr := pr) (i := 8) rfl
        (fun _ => length_leBytes ..) hk
      rwa [Nat.one_mul] at h
    · refine (slice_trapRecord (i := 9) rfl (length_leBytes ..)).trans ?_
      cases x.elems
      · exact leBytes_zero 512
      · rfl
  · intro t
    have h := takeTrap_entered s x
    obtain ⟨ho, hs⟩ := takeTrap_othersKept s x
    refine ⟨takeTrap_readS s x, ?_⟩
    unfold Thread.entered at h
    rw [h]
    exact ⟨rfl, fun k => rfl, rfl, rfl, rfl, rfl, rfl, rfl, ho, hs⟩

end Sys2Proof.Machine
end

section
/-! A turn runs the word that its fetch finds (R32 to R36, R89). -/
namespace Sys2Proof.Machine

/-! ## What a step does around exec -/

/-- Only the time limits of s differ in u. -/
def State.timersOnly (s u : State) : Prop := u = { s with timers := u.timers }

theorem State.timersOnly.trans {s u v : State} (h : s.timersOnly u) (k : u.timersOnly v) : s.timersOnly v :=
  Eq.trans k (congrArg (fun x : State => { x with timers := v.timers }) h)

/-- A time limit that is noted where it is not noted yet. -/
theorem State.addTimer_timersOnly (s : State) (i : Instr) : s.timersOnly (if s.timers.contains i then s else s.timer i) := by
  split <;> rfl

theorem foldl_timersOnly {α : Type} (f : State → α → State) (hf : ∀ s a, State.timersOnly s (f s a)) (l : List α) :
    ∀ s : State, s.timersOnly (l.foldl f s) := by
  induction l with
  | nil => exact fun s => rfl
  | cons a l ih => exact fun s => (hf s a).trans (ih _)

/-- What a turn leaves is settled by noting time limits alone. -/
theorem State.settle_timersOnly (s : State) : s.timersOnly s.settle := by
  have add := State.addTimer_timersOnly
  have hcmds : ∀ (l : List Cmd) (u : State), u.timersOnly
      (l.foldl (fun s c => if s.timers.contains (.commandComplete c.id true) then s else s.timer (.commandComplete c.id true)) u) :=
    foldl_timersOnly _ fun u c => add ..
  have htags : ∀ (l : List Nat) (u : State), u.timersOnly (l.foldl (fun s k =>
      let s' := if s.timers.contains (.peerResend k) then s else s.timer (.peerResend k)
      if s'.timers.contains (.linkError k) then s' else s'.timer (.linkError k)) u) :=
    foldl_timersOnly _ fun u k => (add ..).trans (add ..)
  unfold State.settle
  extract_lets _ _ s0 s1
  have h0 : s.timersOnly s0 := hcmds ..
  have h1 : s.timersOnly s1 := by
    refine h0.trans ?_
    show s0.timersOnly (if s0.active then _ else s0)
    split
    · exact htags ..
    · rfl
  split
  · extract_lets s2
    have h2 : s.timersOnly s2 := by
      refine h1.trans ?_
      show s1.timersOnly s2
      unfold s2
      split
      · exact (add ..).trans (add ..)
      · rfl
    split_ifs
    · exact h2.trans (add ..)
    · exact h2.trans (add ..)
    · exact h2
  · exact h1

/-- An aperture without its sharers, if one of l that is hit has its number. -/
def Aperture.unshared (hit : Aperture → Bool) (l : List Aperture) (x : Aperture) : Aperture :=
  if l.any (fun a => hit a && a.num == x.num) then { x with sharers := [] } else x

theorem Aperture.unshared_cons_hit {hit : Aperture → Bool} {a : Aperture} (h : hit a = true) (l : List Aperture) (x : Aperture) :
    (if x.num = a.num then { x with sharers := [] } else x).unshared hit l = x.unshared hit (a :: l) := by
  unfold Aperture.unshared
  rw [List.any_cons, h, Bool.true_and]
  by_cases hx : x.num = a.num
  · rw [if_pos hx, hx, beq_self_eq_true, Bool.true_or, if_pos rfl]
    exact ite_self _
  · rw [if_neg hx, beq_false_of_ne (Ne.symm hx), Bool.false_or]

/-- The apertures of l that are hit lose their sharers, who are told (R506). -/
theorem foldl_invalidate (hit : Aperture → Bool) (l : List Aperture) : ∀ s : State,
    l.foldl (fun s a => if hit a then (s.setSharers a.num []).emit (.invalidate a.num a.sharers) else s) s =
      { s with
        hub := { s.hub with apertures := s.hub.apertures.map (Aperture.unshared hit l) }
        outbox := s.outbox ++ (l.filter hit).map (fun a => .invalidate a.num a.sharers) } := by
  induction l with
  | nil =>
    intro s
    have hx : Aperture.unshared hit [] = id := rfl
    rw [hx, List.map_id, List.filter_nil, List.map_nil, List.append_nil]
    rfl
  | cons a l ih =>
    intro s
    rw [List.foldl_cons, ih]
    by_cases h : hit a = true
    · have hap : (s.hub.apertures.map (fun x => if x.num = a.num then { x with sharers := [] } else x)).map
          (Aperture.unshared hit l) = s.hub.apertures.map (Aperture.unshared hit (a :: l)) := by
        rw [List.map_map]
        exact List.map_congr_left fun x _ => Aperture.unshared_cons_hit h l x
      rw [if_pos h, List.filter_cons_of_pos h, List.map_cons, ← hap, List.append_cons]
      rfl
    · have hap : Aperture.unshared hit (a :: l) = Aperture.unshared hit l := by
        funext x
        unfold Aperture.unshared
        rw [List.any_cons, Bool.eq_false_iff.2 h, Bool.false_and, Bool.false_or]
      rw [if_neg h, List.filter_cons_of_neg h, hap]

theorem State.invalidate_eq (t : State) (writes : List OldByte) :
    let hit := fun (a : Aperture) => a.shared && !a.sharers.isEmpty && writes.any (fun w => a.holds w.pa)
    t.invalidate writes = { t with
      hub := { t.hub with apertures := t.hub.apertures.map (Aperture.unshared hit t.hub.apertures) }
      outbox := t.outbox ++ (t.hub.apertures.filter hit).map (fun a => .invalidate a.num a.sharers) } :=
  foldl_invalidate _ _ t

/-- What a step adds to the outcome of its turn: time limits noted, and copies invalidated (R506). -/
theorem State.invalidate_settle (t : State) (n : Nat) :
    let hit := fun (a : Aperture) => a.shared && !a.sharers.isEmpty && (t.mem.since n).any (fun w => a.holds w.pa)
    t.settle.invalidate (t.settle.mem.since n) = { t with
      timers := t.settle.timers
      hub := { t.hub with apertures := t.hub.apertures.map (Aperture.unshared hit t.hub.apertures) }
      outbox := t.outbox ++ (t.hub.apertures.filter hit).map (fun a => .invalidate a.num a.sharers) } := by
  intro hit
  have h : t.settle = { t with timers := t.settle.timers } := t.settle_timersOnly
  rw [State.invalidate_eq, h]

/-! ## The fetch (R89) -/

theorem State.reachable_ok {s : State} {pas : List Nat} (h : ∀ a ∈ pas, s.owned a = false ∧ s.cutOff a = false) :
    s.reachable pas = .ok () := by
  unfold State.reachable
  rw [if_neg (by simpa using fun a ha => (h a ha).1), if_neg (by simpa using fun a ha => (h a ha).2)]

/-- The bytes of the tables that one access of n bytes reads. -/
theorem State.walkReady_one (s : State) {n : Nat} (hn : 0 < n) (ea : Word) :
    s.walkReady n n ea = if ea.toNat % n ≠ 0 then .ok () else s.reachable (s.walkBytes s.cp ea) := by
  unfold State.walkReady
  rw [Nat.div_self hn, List.range_one, List.flatMap_singleton, Nat.mul_zero, show ea + w64 0 = ea from BitVec.add_zero ea]

/-- The word at the PC, where nothing holds its bytes or those of its tables back. -/
theorem State.fetch_ok {s : State} {pas : List Nat} (hp : s.scalar s.cp s.needU .fetch 4 s.cur.pc 4 = .ok pas)
    (hr : ∀ a ∈ s.walkBytes s.cp s.cur.pc ++ pas, s.owned a = false ∧ s.cutOff a = false) (hq : s.poisoned pas = false) :
    s.fetch = .ok (BitVec.ofNat 32 (leNum (pas.map s.mem.byte))) := by
  have hw : s.walkReady 4 4 s.cur.pc = .ok () := by
    rw [State.walkReady_one s (by decide)]
    split
    · rfl
    · exact State.reachable_ok fun a ha => hr a (List.mem_append_left _ ha)
  have hb : s.reachable pas = .ok () := State.reachable_ok fun a ha => hr a (List.mem_append_right _ ha)
  unfold State.fetch
  simp only [hw, hp, hb, hq, Bool.false_eq_true, if_false, ofBytes_eq_leNum]

/-! ## A turn -/

theorem Thread.scoreboard_idle {t : Thread} (h : t.viq = []) (i : Instr) : t.scoreboard i = false := by
  have hr : ∀ n, t.registerPending n = false := fun n => by unfold Thread.registerPending; rw [h]; simp
  simp [Thread.scoreboard, hr]

/-- The turn of a thread that runs and has no earlier work: the word that it fetches. -/
theorem runCur_fetched {s : State} {w : BitVec 32} (hv : s.cur.viq = []) (hw : s.cur.prog.wait = .none)
    (hc : s.cur.prog.check = none) (hf : s.fetch = .ok w) : runCur s = settled (exec (instrOf w) s) := by
  have hr : runWord s = runNext s := by
    unfold runWord
    rw [hw, hc]
  rw [runCur, drainAll_idle hv, hr, runNext, hf]
  show settled (if s.cur.scoreboard (instrOf w) = true then _ else _) = _
  rw [Thread.scoreboard_idle hv, if_neg Bool.false_ne_true]

/-- A step whose turn is that of the current thread. -/
theorem step_of_turn {s : State} {turns : List Turn} (hs : s.sched = .cur :: turns) (ha : s.active = true)
    (hp : s.hub.power ≤ 1) (hr : (s.part s.cur.id.part).state = .running) (hw : s.cur.prog.wait = .none) :
    step s = invalidated s (runCur { s with cycle := s.cycle + Config.cycles s.fresh, fresh := s.fresh + 1, sched := turns }) := by
  have hpow : s.powered = true := decide_eq_true hp
  have htick : ({ s.tick with sched := turns } : State) =
      { s with cycle := s.cycle + Config.cycles s.fresh, fresh := s.fresh + 1, sched := turns } := by
    unfold State.tick
    rw [hpow]
    rfl
  rw [step, oneStep, hs]
  show invalidated s (takeCur { s.tick with sched := turns }) = _
  rw [htick, takeCur, if_pos]
  have hrun : s.partRuns s.cur.id.part = true := by rw [State.partRuns, hpow, hr]; rfl
  show (s.active && (s.partRuns s.cur.id.part && (decide (s.cur.prog.wait ≠ .parked) || _ || _))) = true
  rw [ha, hrun, hw]
  rfl

/-- Settles O56: the turn is the thread's, its fetch finds the word, and the step adds time limits and invalidations. -/
theorem stepRunsFetchedWord : Obligations.StepRunsFetchedWord := by
  unfold Obligations.StepRunsFetchedWord
  intro s turns pas i hs ha hp hr hw hc hv s1 w hpas hown hpois around
  have hstep : ∀ j, instrOf w = j → Completes j s1 (fun t => ∃ u, step s = .next u ∧ around t u) := by
    intro j hj
    obtain ⟨t, ht⟩ := exec_goesOn j s1
    refine ⟨t, ht, t.settle.invalidate (t.settle.mem.since s.mem.logLen), ?_, State.invalidate_settle t s.mem.logLen⟩
    rw [step_of_turn hs ha hp hr hw, runCur_fetched (s := s1) hv hw hc (State.fetch_ok hpas hown hpois)]
    show invalidated s (settled (exec (instrOf w) s1)) = _
    rw [hj, ht]
    rfl
  refine ⟨fun h => hstep i ?_, fun h => hstep _ ?_⟩
  · rw [instrOf, h]
  · cases hd : decode w with
    | ok j => exact absurd hd (h j)
    | error e => rw [instrOf, hd]

end Sys2Proof.Machine
end

section
/-! Scalar loads and stores, and those that fail their checks (R75 to R78, R485, R493). -/
namespace Sys2Proof.Machine

/-! ## The outcomes of an access (R23, R111, R237, R493) -/

/-- A scalar access waits behind an access of its stream or its bytes, or for an engine: it reads and writes no group of
registers. -/
theorem State.mustWait_scalar (s : State) (h : Held) (pas : List Nat) (op : ScalarOp) :
    s.mustWait (.scalar h pas op) =
      (s.cur.accessPending h.ag (VEntry.scalar h pas op).shared || pas.any s.owned) := by
  have hp : placesMeet s.cur.busy.2 ((VEntry.scalar h pas op).places s.cur.vr 0).1 = false := by
    show decide (s.cur.busy.2 &&& 0 ≠ 0) = false
    rw [Nat.and_zero]
    rfl
  unfold State.mustWait
  rw [hp, Bool.or_false]
  rfl

theorem VEntry.general_holds {e : VEntry} (h : e.holds = none) : e.general = false := by
  cases e
  case convoy | write | reply => rfl
  all_goals cases h

/-- Where no access waits, none stands before a later one. -/
theorem Thread.accessPending_of_not_waits {t : Thread} (h : t.accessWaits = false) (ag : Nat) (pas : List Nat) :
    t.accessPending ag pas = false := by
  unfold Thread.accessWaits at h
  unfold Thread.accessPending
  rw [List.any_eq_false] at h ⊢
  intro e he
  have hh : e.holds = none := by simpa using h e he
  simp [VEntry.precedes, VEntry.shared, hh, VEntry.general_holds hh]

theorem Thread.accessPending_idle {t : Thread} (h : t.viq = []) (ag : Nat) (pas : List Nat) : t.accessPending ag pas = false := by
  unfold Thread.accessPending; rw [h]; rfl

/-- What is reachable is neither an engine's nor cut off. -/
theorem State.reachable_ok_iff (s : State) (pas : List Nat) :
    s.reachable pas = .ok () ↔ pas.any s.owned = false ∧ pas.any s.cutOff = false := by
  unfold State.reachable
  cases pas.any s.owned <;> cases pas.any s.cutOff <;> simp

section
variable {s : State} {j : Instr} {body : State → Except Stop State} {k : Acc} {ea : Word} {n : Nat} {op : ScalarOp} {pas : List Nat}

/-- An access whose places are known is performed, or waits, as performNow says. -/
theorem State.scalarAccess_of_place (hp : s.scalarPlace k ea n = .ok pas) :
    s.scalarAccess k ea n false false op = s.performNow (.scalar ⟨0, 0#8, ea, 0, none⟩ pas op) := by
  unfold State.scalarAccess
  rw [hp]
  rfl

theorem State.scalarAccess_of_fault {e : Stop} (hp : s.scalarPlace k ea n = .error e) :
    s.scalarAccess k ea n false false op = .error e := by
  unfold State.scalarAccess
  rw [hp]

/-- An access that nothing holds back is performed at once. -/
theorem access_performed (hj : exec j s = aside false complete body s) (hb : body s = s.scalarAccess k ea n false false op)
    (hp : s.scalarPlace k ea n = .ok pas) (hf : s.free)
    (ha : s.cur.accessPending 0 (VEntry.scalar ⟨0, 0#8, ea, 0, none⟩ pas op).shared = false)
    (hr : s.reachable pas = .ok ()) (hq : op.reads = true → s.poisoned pas = false) :
    exec j s = .next (complete (s.doScalar pas op)) := by
  obtain ⟨ho, hc⟩ := (s.reachable_ok_iff pas).1 hr
  have hcons : s.consumes op.reads pas = false := by
    unfold State.consumes
    cases h : op.reads
    · rfl
    · exact hq h
  refine hj.trans (aside_ok hf.1 (.inr hf.2) ?_)
  rw [hb, State.scalarAccess_of_place hp]
  unfold State.performNow
  rw [State.mustWait_scalar, ha, ho]
  show (if pas.any s.cutOff = true then _ else if s.consumes op.reads pas = true then _ else _) = _
  rw [hc, hcons]
  rfl

/-- An access behind an earlier one, or to a line that an engine owns, waits its turn, and the word completes. -/
theorem access_waits (hj : exec j s = aside false complete body s) (hb : body s = s.scalarAccess k ea n false false op)
    (hp : s.scalarPlace k ea n = .ok pas) (hf : s.free)
    (ha : s.cur.accessPending 0 (VEntry.scalar ⟨0, 0#8, ea, 0, none⟩ pas op).shared = true ∨ ∃ b ∈ pas, s.owned b = true) :
    exec j s = .next (complete (s.enqueue (.scalar ⟨0, 0#8, ea, 0, none⟩ pas op))) := by
  refine hj.trans (aside_ok hf.1 (.inr hf.2) ?_)
  rw [hb, State.scalarAccess_of_place hp]
  unfold State.performNow
  rw [State.mustWait_scalar, ← List.any_eq_true] at *
  exact if_pos (Bool.or_eq_true_iff.2 ha)

/-- A read of a poisoned byte raises MACHINE_CHECK (R493). -/
theorem access_poisoned (hj : exec j s = aside false complete body s) (hb : body s = s.scalarAccess k ea n false false op)
    (hp : s.scalarPlace k ea n = .ok pas) (hi : s.idle) (hr : s.reachable pas = .ok ()) (hq : op.reads = true)
    (hpois : s.poisoned pas = true) : exec j s = .next (takeTrap s { cause := 0x30, addr := ea }) := by
  obtain ⟨ho, hc⟩ := (s.reachable_ok_iff pas).1 hr
  refine hj.trans (aside_trap hi ?_)
  rw [hb, State.scalarAccess_of_place hp]
  unfold State.performNow
  rw [State.mustWait_scalar, Thread.accessPending_idle hi.2, ho]
  show (if pas.any s.cutOff = true then _ else if (op.reads && s.poisoned pas) = true then _ else _) = _
  rw [hc, hq, hpois]
  rfl

/-- An access whose checks fail traps with its address. -/
theorem access_faults (hj : exec j s = aside false complete body s) (hb : body s = s.scalarAccess k ea n false false op)
    {c : Nat} (hp : s.scalarPlace k ea n = .error (accessTrap c ea)) (hi : s.idle) :
    exec j s = .next (takeTrap s { cause := c, addr := ea, batch := if c = 0x05 then [subBlock ea] else [] }) :=
  hj.trans (aside_trap hi (by rw [hb, State.scalarAccess_of_fault hp]; rfl))

end

/-! ## What a completed access leaves -/

/-- Every entry keeps its past where a register write changes nothing of it. -/
theorem VEntry.onPast_self (e : VEntry) : e.onPast (fun c => c) (fun u => u) = e := by
  have h : ∀ x : Held, ({ x with undo := x.undo.map (fun u => u) } : Held) = x := fun x => by
    cases x with
    | mk ag held ea stamp undo => cases undo <;> rfl
  cases e <;> simp only [VEntry.onPast, VEntry.onHeld, h]

theorem State.writeLate_zero (s : State) (v : Word) : s.writeLate 0#5 v = s := by
  have h : ∀ l : List VEntry, l.map (fun e => e.onPast (fun c => c) (fun u => u)) = l := fun l => by
    simp only [VEntry.onPast_self, List.map_id']
  show ({ s with cur := { s.cur with viq := s.cur.viq.map (fun e => e.onPast (fun c => c) (fun u => u)) } } : State) = s
  rw [h]

/-- A word that has loaded v into sD (R75, R111). -/
theorem loaded_complete (s : State) (d : BitVec 5) (v : Word) : Loaded d v s (complete (s.writeLate d v)) := by
  have hl : s.writeLate d v = { s with cur := { s.cur with
      s := (s.cur.writeS d v).s, q := s.cur.q, viq := (s.writeLate d v).cur.viq
      user := { s.cur.user with fflags := s.cur.user.fflags } } } := by
    unfold State.writeLate State.onPast State.onCur State.writeS
    rw [Thread.writeS_eq]
  have ht : complete (s.writeLate d v) = { s with cur := { s.cur.past with
      s := (s.cur.writeS d v).s, viq := (s.writeLate d v).cur.viq } } := by
    rw [complete_eq]
    conv_lhs => rw [hl]
    exact congrArg (fun t => ({ s with cur := t } : State)) (Thread.past_congr_parts ..)
  have hr : ∀ r, (complete (s.writeLate d v)).readS r = (s.writeS d v).readS r := fun r => by rw [ht]; rfl
  refine ⟨?_, fun r h => ?_, fun a => by rw [ht], by rw [ht], by rw [ht]⟩
  · rw [hr, State.readS_writeS, if_pos rfl]
  · rw [hr, State.readS_writeS, if_neg h]

/-- A word that has stored bytes (R75). -/
theorem stored_complete (s : State) (pas : List Nat) (bs : List Byte) (hl : pas.length = bs.length) :
    Stored pas bs 0#5 0#64 0 s (complete (s.putBytes pas bs)) := by
  have ht : complete (s.putBytes pas bs) = { s with mem := s.mem.writeAll s.writer (pas.zip bs), cur := s.cur.past } := complete_eq _
  have hz : s.cur.user.fflags ||| BitVec.ofNat 64 0 = s.cur.user.fflags := BitVec.or_zero
  rw [ht]
  refine ⟨fun hn => Mem.byte_writeAll_zip _ _ _ _ hl hn, fun a ha => ?_, rfl, fun _ _ => rfl, ?_, by rw [hz]; rfl⟩
  · exact Mem.byte_writeAll_other _ _ _ _ fun e he hea => ha (hea ▸ (List.of_mem_zip (a := e.1) (b := e.2) he).1)
  · rw [State.writeLate_zero]; rfl

/-- A word whose access waits (R111, R237, R260). -/
theorem queued_complete (s : State) (e : VEntry) : Queued s.cur.viq e s (complete (s.enqueue e)) := by
  refine ⟨if e.bytes.2.any (fun a => targetOf a == 2) then some s.undoNow else none, fun h => if_neg ?_, fun ⟨a, ha, h2⟩ => if_pos ?_, ?_⟩
  · simpa using h
  · exact List.any_eq_true.2 ⟨a, ha, by simpa using h2⟩
  · rw [complete_eq]
    exact congrArg (fun t => ({ s with cur := t } : State)) (Thread.past_congr_parts s.cur s.cur.s s.cur.q _ s.cur.user.fflags)

/-! ## The constant path (R78, R215, R216) -/

theorem Table.mem_of_get_ne {β : Type} {t : Table β} {d : β} {k : Nat} (h : Table.get t d k ≠ d) : (k, Table.get t d k) ∈ t := by
  induction t with
  | nil => exact absurd rfl h
  | cons e r ih =>
    obtain ⟨a, b⟩ := e
    by_cases ha : a = k
    · subst ha; simp [Table.get]
    · simp only [Table.get, if_neg ha] at h ⊢
      exact List.mem_cons_of_mem _ (ih h)

section
variable {fences : Table Nat} {p : Path} {id : ThreadId} {pas : List Nat}

theorem mustSee_le (l : List OldByte) (n : Nat) : mustSee fences p id pas l n ≤ n := by
  induction l generalizing n with
  | nil => exact Nat.zero_le n
  | cons e r ih =>
    unfold mustSee
    split
    · exact le_refl n
    · exact (ih (n - 1)).trans (Nat.sub_le n 1)

/-- A read sees every write to its bytes that a later fence covers (R216). -/
theorem mustSee_ge {l : List OldByte} {n j : Nat} {w : OldByte} (hj : l[j]? = some w) (hw : w.pa ∈ pas) {f : Nat × Nat}
    (hf : f ∈ fences) (hp : f.1 / 8 % 4 = p.num) (hc : w.who.covered (f.1 % 8) id (f.1 / 32) = true) (hn : n - j ≤ f.2) :
    n - j ≤ mustSee fences p id pas l n := by
  induction l generalizing n j with
  | nil => simp at hj
  | cons e r ih =>
    unfold mustSee
    split
    · exact Nat.sub_le n j
    · next hne =>
      cases j with
      | zero =>
        obtain rfl : e = w := by simpa using hj
        refine absurd ?_ hne
        rw [Bool.and_eq_true, List.any_eq_true]
        exact ⟨by simpa using hw, f, hf, by simpa [hp, hc] using hn⟩
      | succ j =>
        have h1 : n - (j + 1) = n - 1 - j := by omega
        rw [h1]
        exact ih (by simpa using hj) (by rwa [← h1])

end

theorem State.pickTime_bounds (s : State) (item : Nat) {t : Nat} (ht : t ≤ s.mem.logLen) (pas : List Nat) :
    t ≤ s.pickTime item t pas ∧ s.pickTime item t pas ≤ s.mem.logLen := by
  unfold State.pickTime
  split
  · have := Nat.mod_lt (Config.stale s.fresh item) (show 0 < s.mem.logLen - t + 1 by omega)
    omega
  · exact ⟨ht, le_refl _⟩

theorem Mem.byteAt_logLen (m : Mem) : m.byteAt m.logLen = m.byte := by
  funext a
  simp [Mem.byteAt, Mem.since]

/-- A read on a path returns its bytes as they stood at one point that is not too old. -/
theorem State.readPath_eq (s : State) (p : Path) (fences : Table Nat) (id : ThreadId) (item : Nat) (pas : List Nat) :
    ∃ k, mustSee fences p id pas s.mem.log s.mem.logLen ≤ k ∧ k ≤ s.mem.logLen ∧
      s.readPath p fences id item pas = pas.map (s.mem.byteAt k) := by
  obtain ⟨h1, h2⟩ := s.pickTime_bounds item (mustSee_le (fences := fences) (p := p) (id := id) (pas := pas) s.mem.log s.mem.logLen) pas
  refine ⟨_, h1, h2, ?_⟩
  unfold State.readPath State.readOld
  dsimp only
  split
  · next h => rw [h, Mem.byteAt_logLen]
  · rfl

/-! ## Loads and stores (R75 to R78) -/

theorem loadExtend_sign {n : Nat} (hn : 0 < n) (v : Nat) : loadExtend true n v = BitVec.ofInt 64 ((v : Int).bmod (2 ^ (8 * n))) := by
  rw [loadExtend, if_pos rfl, sgnN_eq_bmod (by omega)]

/-- A load: it writes its bytes extended, or waits. -/
theorem load_cases {s : State} {j : Instr} {d a : BitVec 5} {i : BitVec 12} {n : Nat} {sg : Bool} {ext : Nat → Word}
    (hj : exec j s = loadWord n sg d a i s) (hx : ∀ v, loadExtend sg n v = ext v) :
    let ea := s.readS a + BitVec.ofInt 64 i.toInt
    ∀ pas, s.scalarPlace .read ea n = .ok pas →
      (s.quiet → s.reachable pas = .ok () → s.poisoned pas = false →
        Completes j s (Loaded d (ext (leNum (pas.map s.mem.byte))) s)) ∧
      (s.free → s.cur.accessPending 0 pas = true ∨ (∃ b ∈ pas, s.owned b = true) →
        Completes j s (Queued s.cur.viq (.scalar ⟨0, 0#8, ea, 0, none⟩ pas (.load d n sg)) s)) := by
  intro ea pas hp
  refine ⟨fun hq hr hpois => ⟨_, access_performed (op := .load d n sg) hj rfl hp hq.1
      (Thread.accessPending_of_not_waits hq.2 ..) hr (fun _ => hpois), ?_⟩,
    fun hf hw => ⟨_, access_waits (op := .load d n sg) hj rfl hp hf hw, queued_complete ..⟩⟩
  rw [← hx, ← ofBytes_eq_leNum]
  exact loaded_complete ..

/-- A store: it writes the low bytes of sD, or waits with them. -/
theorem store_cases {s : State} {j : Instr} {d a : BitVec 5} {i : BitVec 12} {n : Nat} (hj : exec j s = storeWord n d a i s)
    (hl : ∀ pas, s.scalarPlace .write (s.readS a + BitVec.ofInt 64 i.toInt) n = .ok pas → pas.length = n) :
    let ea := s.readS a + BitVec.ofInt 64 i.toInt
    let bs := leBytes n (s.readS d).toNat
    ∀ pas, s.scalarPlace .write ea n = .ok pas →
      (s.quiet → s.reachable pas = .ok () → Completes j s (Stored pas bs 0#5 0#64 0 s)) ∧
      (s.free → s.cur.accessPending 0 pas = true ∨ (∃ b ∈ pas, s.owned b = true) →
        Completes j s (Queued s.cur.viq (.scalar ⟨0, 0#8, ea, 0, none⟩ pas (.store bs false)) s)) := by
  intro ea bs pas hp
  have hbody : s.scalarAccess .write (scalarEa a i s) n false false (.store (bytesOf n (s.readS d).toNat) false) =
      s.scalarAccess .write ea n false false (.store bs false) := by rw [bytesOf_eq_leBytes]; rfl
  exact ⟨fun hq hr => ⟨_, access_performed (op := .store bs false) hj hbody hp hq.1
      (Thread.accessPending_of_not_waits hq.2 ..) hr (fun h => Bool.noConfusion h),
      stored_complete _ _ _ (by rw [hl pas hp, length_leBytes])⟩,
    fun hf hw => ⟨_, access_waits (op := .store bs false) hj hbody hp hf hw, queued_complete ..⟩⟩

theorem State.element_length {s : State} {p : Part} {k : Acc} {al n : Nat} {ea : Word} {pas : List Nat}
    (h : s.element p k al ea n = .ok pas) : pas.length = n := by
  unfold State.element at h
  dsimp only at h
  split at h
  · cases h
  · split at h
    · cases h
    · split at h
      · cases h
      · cases h; simp [byteAddrs]

theorem State.scalar_length {s : State} {p : Part} {u : Bool} {k : Acc} {al n : Nat} {ea : Word} {pas : List Nat}
    (h : s.scalar p u k al ea n = .ok pas) : pas.length = n := by
  unfold State.scalar at h
  dsimp only at h
  split at h
  · cases h
  · split at h
    · cases h
    · split at h
      · exact State.element_length h
      · split at h
        · cases h
        · split at h
          · cases h
          · split at h
            · cases h
            · cases h; simp [rangeFrom]

theorem State.scalarPlace_length {s : State} {k : Acc} {n : Nat} {ea : Word} {pas : List Nat}
    (h : s.scalarPlace k ea n = .ok pas) : pas.length = n := by
  unfold State.scalarPlace at h
  split at h
  · cases h
  · split at h
    · cases h
    · next hs => cases h; exact State.scalar_length hs

/-- LDK: its bytes as they stood at one point after every write that a fence of the path covers (R78, R216). -/
theorem ldk_performed {s : State} {d a : BitVec 5} {i : BitVec 12} {pas : List Nat}
    (hp : s.scalarPlace .read (s.readS a + BitVec.ofInt 64 i.toInt) 8 = .ok pas) (hf : s.free)
    (ha : s.cur.accessPending 0 [] = false) (hr : s.reachable pas = .ok ()) (hpois : s.poisoned pas = false) :
    Completes (.ldk d a i) s (fun t => ∃ k, k ≤ s.mem.logLen ∧
      (∀ (j : Nat) (w : OldByte) (c sc : Nat), s.mem.log[j]? = some w → w.pa ∈ pas → sc < 5 →
        w.who.covered sc s.cur.id c = true → s.mem.logLen - j ≤ Table.get s.cur.prog.fences 0 (32 * c + sc) →
        s.mem.logLen - j ≤ k) ∧
      Loaded d (BitVec.ofNat 64 (leNum (pas.map (s.mem.byteAt k)))) s t) := by
  obtain ⟨k, hk, hlen, hread⟩ := s.readPath_eq .const s.cur.prog.fences s.cur.id (pas.headD 0) pas
  refine ⟨_, access_performed (op := .ldk d) (show _ = execLdk d a i s from rfl) rfl hp hf ha hr (fun _ => hpois), k, hlen,
    fun j w c sc hj hw hsc hc hn => ?_, ?_⟩
  · by_cases h0 : Table.get s.cur.prog.fences 0 (32 * c + sc) = 0
    · omega
    · exact (mustSee_ge hj hw (Table.mem_of_get_ne h0) (by show (32 * c + sc) / 8 % 4 = 0; omega)
        (by rwa [show (32 * c + sc) % 8 = sc by omega, show (32 * c + sc) / 32 = c by omega]) hn).trans hk
  · rw [← ofBytes_eq_leNum, ← hread]
    exact loaded_complete ..

/-- Settles O14: each access is performed or waits, and what it then leaves. -/
theorem loadsAndStores : Obligations.LoadsAndStores := by
  unfold Obligations.LoadsAndStores
  refine ⟨fun s d a i => ?_, fun s d a i => ?_⟩
  · intro ea out sx zx
    have zext : ∀ n v, loadExtend false n v = zx v := fun _ _ => rfl
    refine ⟨load_cases rfl (loadExtend_sign (by decide)), load_cases rfl (loadExtend_sign (by decide)),
      load_cases rfl (loadExtend_sign (by decide)), load_cases rfl (zext 8), load_cases rfl (zext 1), load_cases rfl (zext 2),
      load_cases rfl (zext 4), fun pas hp => ⟨fun hf ha hr hpois => ldk_performed hp hf ha hr hpois, fun hf hw =>
        ⟨_, access_waits (op := .ldk d) (show _ = execLdk d a i s from rfl) rfl hp hf hw, queued_complete ..⟩⟩⟩
  · have hl : ∀ n pas, s.scalarPlace .write (s.readS a + BitVec.ofInt 64 i.toInt) n = .ok pas → pas.length = n :=
      fun n pas h => State.scalarPlace_length h
    exact ⟨store_cases rfl (hl 1), store_cases rfl (hl 2), store_cases rfl (hl 4), store_cases rfl (hl 8)⟩

/-! ## Faults (R76, R485, R493) -/

section
variable (s : State) (k : Acc) {n : Nat} (hn : 0 < n) (ea : Word)
include hn

theorem State.scalarPlace_misaligned (h : ea.toNat % n ≠ 0) : s.scalarPlace k ea n = .error (accessTrap 0x03 ea) := by
  unfold State.scalarPlace
  rw [State.walkReady_one s hn, if_pos h]
  have hs : s.scalar s.cp s.needU k n ea n = .error 0x03 := if_pos h
  simp only [hs]

theorem State.scalarPlace_above (h : ea.toNat % n = 0) (hb : 2 ^ 52 ≤ ea.toNat) :
    s.scalarPlace k ea n = .error (accessTrap 0x04 ea) := by
  unfold State.scalarPlace
  have hw : s.walkBytes s.cp ea = [] := if_pos (.inl hb)
  rw [State.walkReady_one s hn, if_neg (not_not.2 h), hw]
  have hs : s.scalar s.cp s.needU k n ea n = .error 0x04 := by
    unfold State.scalar
    rw [if_neg (not_not.2 h), if_pos hb]
    rfl
  have hr : s.reachable [] = .ok () := rfl
  simp only [hr, hs]

end

theorem State.scalarPlace_fault {s : State} {k : Acc} {n c : Nat} {ea : Word} (hw : s.walkReady n n ea = .ok ())
    (hs : s.scalar s.cp (decide (s.cur.ring = 0#2)) k n ea n = .error c) : s.scalarPlace k ea n = .error (accessTrap c ea) := by
  unfold State.scalarPlace
  rw [hw]
  have hs' : s.scalar s.cp s.needU k n ea n = .error c := hs
  simp only [hs']

/-- A scalar access traps for the first of its checks that fails. -/
theorem access_checks {s : State} {j : Instr} {body : State → Except Stop State} {k : Acc} {ea : Word} {n : Nat} {op : ScalarOp}
    (hj : exec j s = aside false complete body s) (hb : body s = s.scalarAccess k ea n false false op) (hi : s.idle) (hn : 0 < n) :
    let traps := fun (j : Instr) (x : Trap) => Completes j s (fun t => t = takeTrap s x ∧ ∀ k, t.readS k = s.readS k)
    (ea.toNat % n ≠ 0 → traps j { cause := 0x03, addr := ea }) ∧
    (ea.toNat % n = 0 → 2 ^ 52 ≤ ea.toNat → traps j { cause := 0x04, addr := ea }) ∧
    (∀ c, s.walkReady n n ea = .ok () → s.scalar s.cp (decide (s.cur.ring = 0#2)) k n ea n = .error c →
      traps j { cause := c, addr := ea, batch := if c = 0x05 then [ea.toNat / 2 ^ 21 * 2 ^ 21] else [] }) := by
  intro traps
  exact ⟨fun h => ⟨_, access_faults hj hb (s.scalarPlace_misaligned k hn ea h) hi, rfl, takeTrap_readS s _⟩,
    fun h h52 => ⟨_, access_faults hj hb (s.scalarPlace_above k hn ea h h52) hi, rfl, takeTrap_readS s _⟩,
    fun c hw hs => ⟨_, access_faults hj hb (State.scalarPlace_fault hw hs) hi, rfl, takeTrap_readS s _⟩⟩

/-- Settles O15: the checks of every access, and the poison of a load. -/
theorem scalarFaults : Obligations.ScalarFaults := by
  unfold Obligations.ScalarFaults
  intro s d a i hi ea traps out load
  have hload : ∀ (j : Instr) (n : Nat) (op : ScalarOp) (body : State → Except Stop State), 0 < n → op.reads = true →
      exec j s = aside false complete body s → body s = s.scalarAccess .read ea n false false op → load j n :=
    fun j n op body hn hop hj hb => ⟨access_checks hj hb hi hn, fun pas hp hr hpois =>
      ⟨_, access_poisoned hj hb hp hi hr hop hpois, rfl, takeTrap_readS s _⟩⟩
  have hl : ∀ (j : Instr) (n : Nat) (sg : Bool), 0 < n → exec j s = loadWord n sg d a i s → load j n :=
    fun j n sg hn hj => hload j n (.load d n sg) _ hn rfl hj rfl
  have hst : ∀ (j : Instr) (n : Nat), 0 < n → exec j s = storeWord n d a i s → out j .write n :=
    fun j n hn hj => access_checks (op := .store (bytesOf n (s.readS d).toNat) false) hj rfl hi hn
  exact ⟨hl _ 1 true (by decide) rfl, hl _ 2 true (by decide) rfl, hl _ 4 true (by decide) rfl, hl _ 8 false (by decide) rfl,
    hl _ 1 false (by decide) rfl, hl _ 2 false (by decide) rfl, hl _ 4 false (by decide) rfl,
    hload _ 8 (.ldk d) _ (by decide) rfl (show _ = execLdk d a i s from rfl) rfl,
    hst _ 1 (by decide) rfl, hst _ 2 (by decide) rfl, hst _ 4 (by decide) rfl, hst _ 8 (by decide) rfl⟩

end Sys2Proof.Machine
end

section
/-! Translation: the window and the tables (R76, R185, R186, R189, R482, R485, R496). -/
namespace Sys2Proof.Machine

/-! ## The first cause (R186) -/

theorem firstCause_window {l : List Nat} (h : cWindow ∈ l) : firstCause l = some cWindow := by
  simp [firstCause, h]

theorem firstCause_protection {l : List Nat} (hw : cWindow ∉ l) (h : cProtection ∈ l) : firstCause l = some cProtection := by
  simp [firstCause, hw, h]

theorem firstCause_residency {l : List Nat} (hw : cWindow ∉ l) (hp : cProtection ∉ l) (h : cResidency ∈ l) :
    firstCause l = some cResidency := by
  simp [firstCause, hw, hp, h]

theorem firstCause_machine {l : List Nat} (h : cMachine ∈ l) (hne : ∀ c ∈ l, c = cMachine ∨ c = cViolation) :
    firstCause l = some cMachine := by
  have hw : cWindow ∉ l := fun hc => absurd (hne _ hc) (by decide)
  have hp : cProtection ∉ l := fun hc => absurd (hne _ hc) (by decide)
  have hr : cResidency ∉ l := fun hc => absurd (hne _ hc) (by decide)
  simp [firstCause, hw, hp, hr, h]

theorem firstCause_violation {l : List Nat} (h : cViolation ∈ l) (hne : ∀ c ∈ l, c = cViolation) :
    firstCause l = some cViolation := by
  have hno : ∀ c, c ≠ cViolation → c ∉ l := fun c hc hm => hc (hne c hm)
  simp [firstCause, hno cWindow (by decide), hno cProtection (by decide), hno cResidency (by decide), hno cMachine (by decide), h]

theorem firstCause_nil : firstCause [] = none := rfl

theorem mem_filterMap_range {n c : Nat} {f : Nat → Option Nat} : c ∈ (List.range n).filterMap f ↔ ∃ i < n, f i = some c := by
  simp [List.mem_filterMap]

theorem filterMap_range_nil {n : Nat} {f : Nat → Option Nat} (h : ∀ i < n, f i = none) : (List.range n).filterMap f = [] := by
  simpa [List.filterMap_eq_nil_iff] using h

/-! ## The window (R185, R186) -/

/-- No window entry holds the byte. -/
def State.outside (s : State) (p : Part) (va : Nat) : Prop :=
  2 ^ 52 ≤ va ∨ va < p.regs.vwbaseF.toNat ∨ p.regs.vwbaseF.toNat + p.regs2.gzcount * 2 ^ 28 ≤ va ∨
    (s.gzEntry (p.gzIndex va)).perm.getLsbD 2 = false

/-- The entry of the byte denies the access. -/
def State.denied (s : State) (p : Part) (k : Acc) (va : Nat) : Prop :=
  (k ≠ .write ∧ (s.gzEntry (p.gzIndex va)).perm.getLsbD 0 = false) ∨
    ((k = .write ∨ k = .atomic) ∧ (s.gzEntry (p.gzIndex va)).perm.getLsbD 1 = false)

/-- The sub-block of the byte is not resident. -/
def State.notResident (s : State) (p : Part) (va : Nat) : Prop :=
  (s.gzEntry (p.gzIndex va)).resid.getLsbD (va / 2 ^ 21 % 128) = false

theorem GzEntry.allows_eq_false (e : GzEntry) (k : Acc) : e.allows k = false ↔
    (k ≠ .write ∧ e.perm.getLsbD 0 = false) ∨ ((k = .write ∨ k = .atomic) ∧ e.perm.getLsbD 1 = false) := by
  have h : ∀ j, bitAt e.perm.toNat j = e.perm.getLsbD j := fun j => rfl
  cases k <;> simp only [GzEntry.allows, h, Bool.and_eq_false_iff] <;> simp

open Classical in
/-- The checks of one byte in their order (R186). -/
theorem State.winCause_eq (s : State) (p : Part) (k : Acc) (va : Nat) : s.winCause p k va =
    if s.outside p va then some cWindow else if s.denied p k va then some cProtection
    else if s.notResident p va then some cResidency else none := by
  have hb : bitsAt va 21 7 = va / 2 ^ 21 % 128 := bitsAt_eq va 21 7
  have hd : (!(s.gzEntry (p.gzIndex va)).allows k) = true ↔ s.denied p k va := by
    rw [Bool.not_eq_true', GzEntry.allows_eq_false]
    rfl
  have ha : (!bitAt (s.gzEntry (p.gzIndex va)).resid.toNat (bitsAt va 21 7)) = true ↔ s.notResident p va := by
    rw [Bool.not_eq_true', hb]
    rfl
  unfold State.winCause
  by_cases h52 : 2 ^ 52 ≤ va
  · rw [if_pos h52, if_pos (.inl h52)]
  · rw [if_neg h52]
    by_cases hw : p.inWindow va = true
    · have hwin : p.regs.vwbaseF.toNat ≤ va ∧ va < p.regs.vwbaseF.toNat + p.regs2.gzcount * 2 ^ 28 := by
        simpa [Part.inWindow] using hw
      have ho : (!bitAt (s.gzEntry (p.gzIndex va)).perm.toNat 2) = true ↔ s.outside p va := by
        rw [Bool.not_eq_true']
        exact ⟨fun h => .inr (.inr (.inr h)), fun h => by
          rcases h with h | h | h | h
          · exact absurd h h52
          · omega
          · omega
          · exact h⟩
      rw [if_neg (by simp [hw])]
      simp only [ho, hd, ha]
    · rw [if_pos (by simp [hw]), if_pos]
      by_contra ho
      refine hw ?_
      simp only [State.outside, not_or, not_le, not_lt] at ho
      rw [Part.inWindow, decide_eq_true ho.2.1, decide_eq_true ho.2.2.1]
      rfl

section
variable {s : State} {p : Part} {k : Acc} {va : Nat}

theorem State.winCause_window (h : s.outside p va) : s.winCause p k va = some cWindow := by
  classical rw [State.winCause_eq, if_pos h]

theorem State.winCause_protection (ho : ¬ s.outside p va) (h : s.denied p k va) : s.winCause p k va = some cProtection := by
  classical rw [State.winCause_eq, if_neg ho, if_pos h]

theorem State.winCause_residency (ho : ¬ s.outside p va) (hd : ¬ s.denied p k va) (h : s.notResident p va) :
    s.winCause p k va = some cResidency := by
  classical rw [State.winCause_eq, if_neg ho, if_neg hd, if_pos h]

theorem State.winCause_none (ho : ¬ s.outside p va) (hd : ¬ s.denied p k va) (ha : ¬ s.notResident p va) :
    s.winCause p k va = none := by
  classical rw [State.winCause_eq, if_neg ho, if_neg hd, if_neg ha]

theorem State.winCause_ne_window (ho : ¬ s.outside p va) : s.winCause p k va ≠ some cWindow := by
  classical
  rw [State.winCause_eq, if_neg ho]
  split_ifs <;> simp [cWindow, cProtection, cResidency]

theorem State.winCause_ne_protection (ho : ¬ s.outside p va) (hd : ¬ s.denied p k va) : s.winCause p k va ≠ some cProtection := by
  classical
  rw [State.winCause_eq, if_neg ho, if_neg hd]
  split_ifs <;> simp [cProtection, cResidency]

end

/-- The physical address of a window byte (R185). -/
theorem State.winPa_eq (s : State) (p : Part) (va : Nat) : s.winPa p va =
    (if (s.gzEntry (p.gzIndex va)).tier.getLsbD (va / 2 ^ 21 % 128) then (s.gzEntry (p.gzIndex va)).t1base
      else (s.gzEntry (p.gzIndex va)).t0base) + va % 2 ^ 28 := by
  have hb : bitsAt va 21 7 = va / 2 ^ 21 % 128 := bitsAt_eq va 21 7
  unfold State.winPa
  rw [hb, bitsAt_zero_eq_mod]
  rfl

section
variable {p : Part} {q : Nat}

theorem Part.targetCause_machine (h3 : targetOf q = 3) (hq : q < 2 ^ 52) : p.targetCause q = some cMachine := by
  unfold Part.targetCause
  rw [if_pos (by simp only [h3, hq, decide_true, Bool.and_self])]

theorem Part.targetCause_owned (ho : p.owns q = true) : p.targetCause q = none := by
  have h3 : targetOf q ≠ 3 := by
    intro h
    unfold Part.owns at ho
    rw [h] at ho
    simp at ho
  unfold Part.targetCause
  rw [if_neg (by simp [h3]), if_pos ho]

theorem Part.targetCause_violation (hr : ¬ (targetOf q = 3 ∧ q < 2 ^ 52)) (ho : p.owns q = false) :
    p.targetCause q = some cViolation := by
  unfold Part.targetCause
  rw [if_neg (by simpa using hr), ho, if_neg Bool.false_ne_true]

end

section
variable {p : Part} {n : Nat} {pa : Nat → Nat} {i : Nat}

theorem firstCause_targets_machine (hi : i < n) (h3 : targetOf (pa i) = 3) (hq : pa i < 2 ^ 52) :
    firstCause ((List.range n).filterMap (fun i => p.targetCause (pa i))) = some cMachine := by
  refine firstCause_machine (mem_filterMap_range.2 ⟨i, hi, Part.targetCause_machine h3 hq⟩) fun c hc => ?_
  obtain ⟨j, -, hj⟩ := mem_filterMap_range.1 hc
  rcases p.targetCause_cases (pa j) with h | h | h <;> rw [h] at hj
  · cases hj
  · exact .inl (Option.some.inj hj).symm
  · exact .inr (Option.some.inj hj).symm

theorem firstCause_targets_violation (hr : ∀ i < n, ¬ (targetOf (pa i) = 3 ∧ pa i < 2 ^ 52)) (hi : i < n)
    (ho : p.owns (pa i) = false) :
    firstCause ((List.range n).filterMap (fun i => p.targetCause (pa i))) = some cViolation := by
  refine firstCause_violation (mem_filterMap_range.2 ⟨i, hi, Part.targetCause_violation (hr i hi) ho⟩) fun c hc => ?_
  obtain ⟨j, hj, he⟩ := mem_filterMap_range.1 hc
  cases hown : p.owns (pa j)
  · rw [Part.targetCause_violation (hr j hj) hown] at he
    exact (Option.some.inj he).symm
  · rw [Part.targetCause_owned hown] at he
    cases he

end

section
variable {s : State} {p : Part} {k : Acc} {al n : Nat} {ea : Word} (h : ea.toNat % al = 0)
include h

/-- An aligned element faults for the first cause of the window checks of its bytes. -/
theorem State.element_window {c : Nat}
    (hc : firstCause ((List.range n).filterMap (fun i => s.winCause p k (ea + BitVec.ofNat 64 i).toNat)) = some c) :
    s.element p k al ea n = .error c := by
  have hc' : firstCause ((byteAddrs ea n).filterMap (s.winCause p k)) = some c := by
    rw [byteAddrs, List.filterMap_map]
    exact hc
  unfold State.element
  rw [if_neg (not_not.2 h)]
  dsimp only
  rw [hc']

variable (hw : ∀ i < n, s.winCause p k (ea + BitVec.ofNat 64 i).toNat = none)
include hw

theorem State.element_inside : s.element p k al ea n =
    match firstCause ((List.range n).filterMap (fun i => p.targetCause (s.winPa p (ea + BitVec.ofNat 64 i).toNat))) with
    | some c => .error c
    | none => .ok ((List.range n).map (fun i => p.tagged (s.winPa p (ea + BitVec.ofNat 64 i).toNat))) := by
  have hc : (byteAddrs ea n).filterMap (s.winCause p k) = [] := by
    rw [byteAddrs, List.filterMap_map]
    exact filterMap_range_nil hw
  unfold State.element
  rw [if_neg (not_not.2 h)]
  dsimp only
  rw [hc, firstCause_nil]
  dsimp only
  rw [byteAddrs, List.map_map, List.filterMap_map, List.map_map]
  rfl

/-- Then for the first cause of their targets. -/
theorem State.element_target {c : Nat}
    (hc : firstCause ((List.range n).filterMap (fun i => p.targetCause (s.winPa p (ea + BitVec.ofNat 64 i).toNat))) = some c) :
    s.element p k al ea n = .error c := by
  rw [State.element_inside h hw, hc]

theorem State.element_owned (ho : ∀ i < n, p.owns (s.winPa p (ea + BitVec.ofNat 64 i).toNat) = true) :
    s.element p k al ea n = .ok ((List.range n).map (fun i => p.tagged (s.winPa p (ea + BitVec.ofNat 64 i).toNat))) := by
  rw [State.element_inside h hw, filterMap_range_nil fun i hi => Part.targetCause_owned (ho i hi), firstCause_nil]

end

/-- The causes and places of an element of the window (R185, R186). -/
theorem State.element_cases (s : State) (p : Part) (k : Acc) (al : Nat) (ea : Word) (n : Nat) :
    let va := fun (i : Nat) => (ea + BitVec.ofNat 64 i).toNat
    let pa := fun (i : Nat) => s.winPa p (va i)
    (ea.toNat % al ≠ 0 → s.element p k al ea n = .error cMisaligned) ∧
    (ea.toNat % al = 0 →
      ((∃ i < n, s.outside p (va i)) → s.element p k al ea n = .error cWindow) ∧
      ((∀ i < n, ¬ s.outside p (va i)) → (∃ i < n, s.denied p k (va i)) → s.element p k al ea n = .error cProtection) ∧
      ((∀ i < n, ¬ s.outside p (va i) ∧ ¬ s.denied p k (va i)) → (∃ i < n, s.notResident p (va i)) →
        s.element p k al ea n = .error cResidency) ∧
      ((∀ i < n, ¬ s.outside p (va i) ∧ ¬ s.denied p k (va i) ∧ ¬ s.notResident p (va i)) →
        ((∃ i < n, targetOf (pa i) = 3 ∧ pa i < 2 ^ 52) → s.element p k al ea n = .error cMachine) ∧
        ((∀ i < n, ¬ (targetOf (pa i) = 3 ∧ pa i < 2 ^ 52)) → (∃ i < n, p.owns (pa i) = false) →
          s.element p k al ea n = .error cViolation) ∧
        ((∀ i < n, p.owns (pa i) = true) → s.element p k al ea n = .ok ((List.range n).map (fun i => p.tagged (pa i)))))) := by
  intro va pa
  refine ⟨fun h => if_pos h, fun h => ⟨fun ⟨i, hi, ho⟩ => ?_, fun ho ⟨i, hi, hd⟩ => ?_, fun hod ⟨i, hi, ha⟩ => ?_, fun hin => ?_⟩⟩
  · exact State.element_window h (firstCause_window (mem_filterMap_range.2 ⟨i, hi, State.winCause_window ho⟩))
  · refine State.element_window h (firstCause_protection (fun hc => ?_)
      (mem_filterMap_range.2 ⟨i, hi, State.winCause_protection (ho i hi) hd⟩))
    obtain ⟨j, hj, he⟩ := mem_filterMap_range.1 hc
    exact State.winCause_ne_window (ho j hj) he
  · refine State.element_window h (firstCause_residency (fun hc => ?_) (fun hc => ?_)
      (mem_filterMap_range.2 ⟨i, hi, State.winCause_residency (hod i hi).1 (hod i hi).2 ha⟩))
    · obtain ⟨j, hj, he⟩ := mem_filterMap_range.1 hc
      exact State.winCause_ne_window (hod j hj).1 he
    · obtain ⟨j, hj, he⟩ := mem_filterMap_range.1 hc
      exact State.winCause_ne_protection (hod j hj).1 (hod j hj).2 he
  · have hw : ∀ i < n, s.winCause p k (va i) = none := fun i hi =>
      State.winCause_none (hin i hi).1 (hin i hi).2.1 (hin i hi).2.2
    exact ⟨fun ⟨i, hi, h3, hq⟩ => State.element_target h hw (firstCause_targets_machine (pa := pa) hi h3 hq),
      fun hr ⟨i, hi, ho⟩ => State.element_target h hw (firstCause_targets_violation (pa := pa) hr hi ho),
      fun ho => State.element_owned h hw ho⟩

/-! ## Table entries (R485) -/

/-- The entry at the places from q. -/
def Part.entryAt (p : Part) (rd : Nat → Byte) (q : Nat) : Nat := leNum ((List.range 8).map (fun i => rd (p.tagged (q + i))))

/-- The frame of an entry. -/
def pteFrame (e : Nat) : Nat := e / 4096 % 2 ^ 40 * 4096

/-- An entry that is present and keeps its reserved bits at 0. -/
def pteSound (e : Nat) : Prop := e.testBit 0 = true ∧ e / 2 ^ 52 = 0 ∧ e / 2 ^ 7 % 32 = 0

/-- An entry that names a table. -/
def pteTable (e : Nat) : Prop := pteSound e ∧ e.testBit 4 = false ∧ e.testBit 6 = false

/-- The size of the page of a leaf of a level. -/
def pteSize (l e : Nat) : Nat := if e.testBit 6 then 65536 else 4096 * 512 ^ l

/-- An entry that is a leaf of its level. -/
def pteLeaf (l e : Nat) : Prop :=
  pteSound e ∧ e.testBit 4 = true ∧ l ≠ 3 ∧ (e.testBit 6 = true → l = 0) ∧ pteFrame e % pteSize l e = 0

/-- An entry that is neither. -/
def pteBad (l e : Nat) : Prop := ¬ pteLeaf l e ∧ (l = 0 ∨ ¬ pteTable e)

/-- The permissions that every one of the entries grants. -/
def Perms.granted (es : List Nat) : Perms :=
  ⟨es.all (fun x => x.testBit 1), es.all (fun x => x.testBit 2), es.all (fun x => x.testBit 3), es.all (fun x => x.testBit 5)⟩

theorem Perms.granted_append (es : List Nat) (e : Nat) : Perms.granted (es ++ [e]) =
    ⟨(granted es).r && pteBit e 1, (granted es).w && pteBit e 2, (granted es).x && pteBit e 3, (granted es).u && pteBit e 5⟩ := by
  simp only [Perms.granted, List.all_append, List.all_cons, List.all_nil, Bool.and_true]
  rfl

/-- The places of the entry of a level in a table. -/
def entryPlace (va l table : Nat) : Nat :=
  table + 8 * (if l = 3 then va / 2 ^ 39 % 2 ^ 13 else va / 2 ^ (12 + 9 * l) % 512)

theorem Part.entryAt_lt (p : Part) (rd : Nat → Byte) (q : Nat) : p.entryAt rd q < 2 ^ 64 := by
  have h := leNum_lt ((List.range 8).map (fun i => rd (p.tagged (q + i))))
  rw [List.length_map, List.length_range] at h
  exact h

section
variable {p : Part} {rd : Nat → Byte} {va l table : Nat} {pm : Perms} {seen : List Nat}

/-- One level of a walk, on the entry as a number. -/
theorem walkFrom_succ : ∃ seen', walkFrom p rd va (l + 1) table pm seen =
    let e := p.entryAt rd (entryPlace va l table)
    let pm' := Perms.mk (pm.r && pteBit e 1) (pm.w && pteBit e 2) (pm.x && pteBit e 3) (pm.u && pteBit e 5)
    match p.targetCause (entryPlace va l table) with
    | some c => ⟨.error c, seen'⟩
    | none =>
      if !pteBit e 0 then ⟨.error cPageFault, seen'⟩
      else if bitsAt e 52 12 ≠ 0 || bitsAt e 7 5 ≠ 0 then ⟨.error cPageFault, seen'⟩
      else if pteBit e 6 && l ≠ 0 then ⟨.error cPageFault, seen'⟩
      else if pteBit e 4 then
        if l = 3 then ⟨.error cPageFault, seen'⟩
        else
          let size := if l = 0 then (if pteBit e 6 then 65536 else 4096) else 4096 * 512 ^ l
          if pteFrame e % size ≠ 0 then ⟨.error cPageFault, seen'⟩ else ⟨.ok (pteFrame e, size, pm'), seen'⟩
      else if l = 0 then ⟨.error cPageFault, seen'⟩
      else walkFrom p rd va l (pteFrame e) pm' seen' := by
  have hidx : (if l = 3 then bitsAt va 39 13 else bitsAt va (12 + 9 * l) 9) =
      if l = 3 then va / 2 ^ 39 % 2 ^ 13 else va / 2 ^ (12 + 9 * l) % 512 := by
    simp only [bitsAt_eq]
    rfl
  have he : ofBytes ((rangeFrom (entryPlace va l table) 8).map (fun a => rd (p.tagged a))) =
      p.entryAt rd (entryPlace va l table) := by
    rw [ofBytes_eq_leNum, rangeFrom, List.map_map]
    rfl
  have hf : ∀ e, bitsAt e 12 40 * 4096 = pteFrame e := fun e => by rw [bitsAt_eq]; rfl
  refine ⟨seen ++ (rangeFrom (entryPlace va l table) 8).map p.tagged, ?_⟩
  rw [walkFrom]
  simp only [hidx]
  simp only [show table + 8 * (if l = 3 then va / 2 ^ 39 % 2 ^ 13 else va / 2 ^ (12 + 9 * l) % 512) = entryPlace va l table from rfl,
    he, hf] <;> rfl

theorem pteSound_iff {e : Nat} (he : e < 2 ^ 64) :
    pteSound e ↔ pteBit e 0 = true ∧ (bitsAt e 52 12 ≠ 0 || bitsAt e 7 5 ≠ 0) = false := by
  have h52 : bitsAt e 52 12 = e / 2 ^ 52 := by rw [bitsAt_eq, Nat.mod_eq_of_lt (by omega)]
  have h7 : bitsAt e 7 5 = e / 2 ^ 7 % 32 := bitsAt_eq ..
  rw [h52, h7]
  simp [pteSound, pteBit, bitAt]

theorem walkFrom_target {c : Nat} (h : p.targetCause (entryPlace va l table) = some c) :
    (walkFrom p rd va (l + 1) table pm seen).result = .error c := by
  obtain ⟨seen', hw⟩ := walkFrom_succ (p := p) (rd := rd) (va := va) (l := l) (table := table) (pm := pm) (seen := seen)
  rw [hw, h]

/-- A leaf's page size, as the walk computes it. -/
theorem pteSize_eq {l e : Nat} (h : e.testBit 6 = true → l = 0) :
    (if l = 0 then (if pteBit e 6 then 65536 else 4096) else 4096 * 512 ^ l) = pteSize l e := by
  unfold pteSize
  by_cases h6 : e.testBit 6 = true
  · rw [if_pos (h h6), if_pos h6]
    exact if_pos h6
  · rw [if_neg h6]
    split
    · next h0 => subst h0; exact if_neg h6
    · rfl

variable (h : p.targetCause (entryPlace va l table) = none)
include h

theorem walkFrom_leaf (hl : pteLeaf l (p.entryAt rd (entryPlace va l table))) :
    let e := p.entryAt rd (entryPlace va l table)
    (walkFrom p rd va (l + 1) table pm seen).result =
      .ok (pteFrame e, pteSize l e, ⟨pm.r && pteBit e 1, pm.w && pteBit e 2, pm.x && pteBit e 3, pm.u && pteBit e 5⟩) := by
  intro e
  obtain ⟨seen', hw⟩ := walkFrom_succ (p := p) (rd := rd) (va := va) (l := l) (table := table) (pm := pm) (seen := seen)
  obtain ⟨hs, h4, h3, h6, hz⟩ := hl
  obtain ⟨h0, hres⟩ := (pteSound_iff (p.entryAt_lt ..)).1 hs
  have h6' : (pteBit (p.entryAt rd (entryPlace va l table)) 6 && decide (l ≠ 0)) = false := by
    cases hb : pteBit (p.entryAt rd (entryPlace va l table)) 6
    · rfl
    · simp [h6 hb]
  have h4' : pteBit (p.entryAt rd (entryPlace va l table)) 4 = true := h4
  rw [hw, h]
  simp only [h0, hres, h6', h4', if_neg h3, pteSize_eq h6, hz, Bool.not_true, Bool.false_eq_true, if_false, if_true, ne_eq,
    not_true_eq_false]
  rfl

theorem walkFrom_bad (hb : pteBad l (p.entryAt rd (entryPlace va l table))) :
    (walkFrom p rd va (l + 1) table pm seen).result = .error cPageFault := by
  obtain ⟨seen', hw⟩ := walkFrom_succ (p := p) (rd := rd) (va := va) (l := l) (table := table) (pm := pm) (seen := seen)
  obtain ⟨hleaf, htable⟩ := hb
  have hs := pteSound_iff (p.entryAt_lt rd (entryPlace va l table))
  rw [hw, h]
  generalize p.entryAt rd (entryPlace va l table) = e at *
  by_cases hsound : pteSound e
  · obtain ⟨h0, hres⟩ := hs.1 hsound
    cases h6 : pteBit e 6 && decide (l ≠ 0)
    · have h6' : e.testBit 6 = true → l = 0 := fun hb => by
        have hb' : pteBit e 6 = true := hb
        simpa [hb'] using h6
      cases h4 : pteBit e 4
      · have hl : l = 0 := by
          by_contra hl
          have h6' : pteBit e 6 = false := by simpa [hl] using h6
          exact htable.resolve_left hl ⟨hsound, h4, h6'⟩
        subst hl
        simp only [h0, hres, h6, h4, Bool.not_true, Bool.false_eq_true, if_false, if_true]
      · by_cases h3 : l = 3
        · simp only [h0, hres, h6, h4, if_pos h3, Bool.not_true, Bool.false_eq_true, if_false, if_true]
        · have hz : pteFrame e % pteSize l e ≠ 0 := fun hz => hleaf ⟨hsound, h4, h3, h6', hz⟩
          simp only [h0, hres, h6, h4, if_neg h3, pteSize_eq h6', if_pos hz, Bool.not_true, Bool.false_eq_true, if_false, if_true]
    · simp only [h0, hres, h6, Bool.not_true, Bool.false_eq_true, if_false, if_true]
  · cases h0 : pteBit e 0
    · simp only [h0, Bool.not_false, if_true]
    · have hres : (decide (bitsAt e 52 12 ≠ 0) || decide (bitsAt e 7 5 ≠ 0)) = true :=
        Bool.eq_true_of_not_eq_false fun hr => hsound (hs.2 ⟨h0, hr⟩)
      simp only [h0, hres, Bool.not_true, Bool.false_eq_true, if_false, if_true]

theorem walkFrom_table (hl : l ≠ 0) (ht : pteTable (p.entryAt rd (entryPlace va l table))) :
    let e := p.entryAt rd (entryPlace va l table)
    ∃ seen', walkFrom p rd va (l + 1) table pm seen = walkFrom p rd va l (pteFrame e)
      ⟨pm.r && pteBit e 1, pm.w && pteBit e 2, pm.x && pteBit e 3, pm.u && pteBit e 5⟩ seen' := by
  intro e
  obtain ⟨seen', hw⟩ := walkFrom_succ (p := p) (rd := rd) (va := va) (l := l) (table := table) (pm := pm) (seen := seen)
  obtain ⟨hs, h4, h6⟩ := ht
  obtain ⟨h0, hres⟩ := (pteSound_iff (p.entryAt_lt ..)).1 hs
  have h4' : pteBit (p.entryAt rd (entryPlace va l table)) 4 = false := h4
  have h6' : pteBit (p.entryAt rd (entryPlace va l table)) 6 = false := h6
  refine ⟨seen', ?_⟩
  rw [hw, h]
  simp only [h0, hres, h6', h4', if_neg hl, Bool.not_true, Bool.false_and, Bool.false_eq_true, if_false]
  rfl

end

/-! ## Walks (R485) -/

/-- The walk of va has come, through the entries es, to a table of level l. -/
def Part.walkAt (p : Part) (rd : Nat → Byte) (va l table : Nat) (es : List Nat) : Prop :=
  ∃ seen, p.walk rd va = walkFrom p rd va (l + 1) table (Perms.granted es) seen

theorem Part.walkAt_root (p : Part) (rd : Nat → Byte) (va : Nat) : p.walkAt rd va 3 p.regs.ptrootF.toNat [] := ⟨[], rfl⟩

section
variable {p : Part} {rd : Nat → Byte} {va l table : Nat} {es : List Nat} (hw : p.walkAt rd va l table es)
include hw

theorem Part.walkAt.target {c : Nat} (h : p.targetCause (entryPlace va l table) = some c) :
    (p.walk rd va).result = .error c := by
  obtain ⟨seen, hw⟩ := hw
  rw [hw, walkFrom_target h]

variable (h : p.targetCause (entryPlace va l table) = none)
include h

theorem Part.walkAt.leaf (hl : pteLeaf l (p.entryAt rd (entryPlace va l table))) :
    let e := p.entryAt rd (entryPlace va l table)
    (p.walk rd va).result = .ok (pteFrame e, pteSize l e, Perms.granted (es ++ [e])) := by
  intro e
  obtain ⟨seen, hw⟩ := hw
  rw [hw, walkFrom_leaf h hl, Perms.granted_append]

theorem Part.walkAt.bad (hb : pteBad l (p.entryAt rd (entryPlace va l table))) : (p.walk rd va).result = .error cPageFault := by
  obtain ⟨seen, hw⟩ := hw
  rw [hw, walkFrom_bad h hb]

end

theorem Part.walkAt.next {p : Part} {rd : Nat → Byte} {va l table : Nat} {es : List Nat} (hw : p.walkAt rd va (l + 1) table es)
    (h : p.targetCause (entryPlace va (l + 1) table) = none) (ht : pteTable (p.entryAt rd (entryPlace va (l + 1) table))) :
    let e := p.entryAt rd (entryPlace va (l + 1) table)
    p.walkAt rd va l (pteFrame e) (es ++ [e]) := by
  obtain ⟨seen, hw⟩ := hw
  obtain ⟨seen', hs⟩ := walkFrom_table (pm := Perms.granted es) (seen := seen) h (Nat.succ_ne_zero l) ht
  exact ⟨seen', by rw [hw, hs, Perms.granted_append]⟩

theorem entryPlace_root (va table : Nat) : entryPlace va 3 table = table + 8 * (va / 2 ^ 39 % 2 ^ 13) := by
  unfold entryPlace
  rw [if_pos rfl]

theorem entryPlace_of_ne {va l table : Nat} (h : l ≠ 3) : entryPlace va l table = table + 8 * (va / 2 ^ (12 + 9 * l) % 512) := by
  unfold entryPlace
  rw [if_neg h]

/-- A walk from the root: each level's entry is a table, a leaf or a PAGE_FAULT (R485). -/
theorem Part.walk_cases (p : Part) (rd : Nat → Byte) (va : Nat) {q3 q2 q1 q0 e3 e2 e1 e0 : Nat}
    (hq3 : entryPlace va 3 p.regs.ptrootF.toNat = q3) (he3 : p.entryAt rd q3 = e3)
    (hq2 : entryPlace va 2 (pteFrame e3) = q2) (he2 : p.entryAt rd q2 = e2)
    (hq1 : entryPlace va 1 (pteFrame e2) = q1) (he1 : p.entryAt rd q1 = e1)
    (hq0 : entryPlace va 0 (pteFrame e1) = q0) (he0 : p.entryAt rd q0 = e0) :
    let gives := fun (l e : Nat) (es : List Nat) => (p.walk rd va).result = .ok (pteFrame e, pteSize l e, Perms.granted es)
    let fails := (p.walk rd va).result = .error cPageFault
    let there := fun (q : Nat) => p.targetCause q = none
    there q3 → (pteBad 3 e3 → fails) ∧ (pteTable e3 →
      (∀ c, p.targetCause q2 = some c → (p.walk rd va).result = .error c) ∧ (there q2 →
        (pteLeaf 2 e2 → gives 2 e2 [e3, e2]) ∧ (pteBad 2 e2 → fails) ∧ (pteTable e2 → there q1 →
          (pteLeaf 1 e1 → gives 1 e1 [e3, e2, e1]) ∧ (pteBad 1 e1 → fails) ∧ (pteTable e1 → there q0 →
            (pteLeaf 0 e0 → gives 0 e0 [e3, e2, e1, e0]) ∧ (pteBad 0 e0 → fails))))) := by
  subst hq3 he3 hq2 he2 hq1 he1 hq0 he0
  intro gives fails there h3
  have w3 := p.walkAt_root rd va
  refine ⟨w3.bad h3, fun t3 => ?_⟩
  have w2 := w3.next h3 t3
  refine ⟨fun c hc => w2.target hc, fun h2 => ⟨w2.leaf h2, w2.bad h2, fun t2 h1 => ?_⟩⟩
  have w1 := w2.next h2 t2
  refine ⟨w1.leaf h1, w1.bad h1, fun t1 h0 => ?_⟩
  have w0 := w1.next h1 t1
  exact ⟨w0.leaf h0, w0.bad h0⟩

/-! ## Scalar accesses (R76, R485) -/

theorem Perms.allow_iff (pm : Perms) (k : Acc) (u : Bool) : pm.allow k u = true ↔
    (u = true → pm.u = true) ∧ (k = .read ∨ k = .atomic → pm.r = true) ∧ (k = .write ∨ k = .atomic → pm.w = true) ∧
      (k = .fetch → pm.x = true) := by
  have hu : (!u || pm.u) = true ↔ (u = true → pm.u = true) := by cases u <;> simp
  unfold Perms.allow
  rw [Bool.and_eq_true, hu]
  cases k <;> simp

theorem State.scalar_cases (s : State) (p : Part) (u : Bool) (k : Acc) (al : Nat) (ea : Word) (n : Nat)
    (ha : ea.toNat % al = 0) (h52 : ea.toNat < 2 ^ 52) :
    (p.inWindow ea.toNat = true → s.scalar p u k al ea n = s.element p k 1 ea n) ∧
    (p.inWindow ea.toNat = false →
      (∀ c, (s.walkOf p ea.toNat).result = .error c → s.scalar p u k al ea n = .error c) ∧
      ∀ base size pm, (s.walkOf p ea.toNat).result = .ok (base, size, pm) →
        let pas := (List.range n).map (fun i => base + ea.toNat % size + i)
        (¬ pm.allow k u = true → s.scalar p u k al ea n = .error cProtection) ∧
        (pm.allow k u = true → (∀ pa ∈ pas, targetOf pa ≠ 3 ∧ p.owns pa = true) →
          s.scalar p u k al ea n = .ok (pas.map p.tagged))) := by
  unfold State.scalar
  rw [if_neg (not_not.2 ha), if_neg (not_le.2 h52)]
  refine ⟨fun hw => if_pos hw, fun hw => ?_⟩
  rw [if_neg (by rw [hw]; exact Bool.false_ne_true)]
  refine ⟨fun c hc => by rw [hc], fun base size pm hr => ?_⟩
  intro pas
  rw [hr]
  refine ⟨fun hp => ?_, fun hp ho => ?_⟩
  · rw [Bool.not_eq_true] at hp
    simp only [hp, Bool.not_false, if_true]
  · have hpas : rangeFrom (base + ea.toNat % size) n = pas := rfl
    have hn : pas.filterMap p.targetCause = [] :=
      List.filterMap_eq_nil_iff.2 fun a ha => Part.targetCause_owned (ho a ha).2
    simp only [hp, hpas, hn, firstCause_nil, Bool.not_true, Bool.false_eq_true, if_false]

/-! ## Translations that a TLB holds (R189, R482) -/

theorem foldl_max_if {α : Type} {c : α → Bool} {f : α → Nat} (l : List α) (a : Nat) :
    let r := l.foldl (fun a e => if c e then max a (f e) else a) a
    a ≤ r ∧ (∀ e ∈ l, c e = true → f e ≤ r) ∧ ∀ b, a ≤ b → (∀ e ∈ l, f e ≤ b) → r ≤ b := by
  induction l generalizing a with
  | nil =>
    intro r
    exact ⟨le_refl a, fun e he => absurd he List.not_mem_nil, fun b hb _ => hb⟩
  | cons e l ih =>
    intro r
    obtain ⟨h1, h2, h3⟩ := ih (if c e then max a (f e) else a)
    have ha : a ≤ if c e then max a (f e) else a := by split <;> simp
    refine ⟨ha.trans h1, fun x hx hc => ?_, fun b hb hl => h3 b ?_ fun x hx => hl x (List.mem_cons_of_mem _ hx)⟩
    · rcases List.mem_cons.1 hx with rfl | hx
      · have hx : f x ≤ if c x then max a (f x) else a := by rw [if_pos hc]; exact le_max_right ..
        exact hx.trans h1
      · exact h2 x hx hc
    · split
      · exact max_le hb (hl e (List.mem_cons_self ..))
      · exact hb

/-- Every PTINV of the page is at or before the position of the newest. -/
theorem Part.ptinvPos_ge {p : Part} {va n : Nat} {e : Nat × Nat × Nat} (he : e ∈ p.ptinv)
    (hc : e.2.1 = 0 ∨ (e.1 < va / n * n + n ∧ va / n * n < e.1 + 4096 * e.2.1)) : e.2.2 ≤ p.ptinvPos va n :=
  (foldl_max_if (c := fun e : Nat × Nat × Nat => e.2.1 = 0 || (decide (e.1 < va / n * n + n) && decide (va / n * n < e.1 + 4096 * e.2.1)))
    (f := fun e => e.2.2) p.ptinv 0).2.1 e he (by simpa using hc)

theorem Part.ptinvPos_le {p : Part} {b : Nat} (h : ∀ e ∈ p.ptinv, e.2.2 ≤ b) (va n : Nat) : p.ptinvPos va n ≤ b :=
  (foldl_max_if p.ptinv 0).2.2 b (Nat.zero_le b) h

/-- A walk is that of the tables as they stand, or a held one no older than the last PTINV of its page (log 7). -/
theorem State.walkOf_cases (s : State) (p : Part) (va : Nat) (hp : ∀ e ∈ p.ptinv, e.2.2 ≤ s.mem.logLen) :
    s.walkOf p va = p.walk s.mem.byte va ∨
    ∃ k base n pm, k ≤ s.mem.logLen ∧ s.walkOf p va = { p.walk (s.mem.byteAt k) va with touched := [] } ∧
      (s.walkOf p va).result = .ok (base, n, pm) ∧
      ∀ e ∈ p.ptinv, (e.2.1 = 0 ∨ (e.1 < va / n * n + n ∧ va / n * n < e.1 + 4096 * e.2.1)) → e.2.2 ≤ k := by
  have hk := (s.pickTime_bounds va (Part.ptinvPos_le hp va 4096) (p.walk s.mem.byte va).touched).2
  unfold State.walkOf
  dsimp only
  generalize s.pickTime va (p.ptinvPos va 4096) (p.walk s.mem.byte va).touched = k at hk
  by_cases hnow : k = s.mem.logLen
  · exact .inl (if_pos hnow)
  · rw [if_neg hnow]
    generalize hw : p.walk (s.mem.byteAt k) va = w
    obtain ⟨result, touched⟩ := w
    match result with
    | .error c => exact .inl rfl
    | .ok (base, n, pm) =>
      by_cases hpos : p.ptinvPos va n ≤ k
      · exact .inr ⟨k, base, n, pm, hk, by rw [hw]; exact if_pos hpos, congrArg Walk.result (if_pos hpos), fun e he hc => (Part.ptinvPos_ge he hc).trans hpos⟩
      · exact .inl (if_neg hpos)

/-! ## What a walk waits for, and what the device meets (R23, R260, R504) -/

theorem State.mem_walkBytes {s : State} {p : Part} {ea : Word} {a : Nat} : a ∈ s.walkBytes p ea ↔
    ea.toNat < 2 ^ 52 ∧ p.inWindow ea.toNat = false ∧ a ∈ (s.walkOf p ea.toNat).touched := by
  unfold State.walkBytes
  split
  · next h =>
    refine ⟨fun h => absurd h List.not_mem_nil, fun ⟨h1, h2, _⟩ => ?_⟩
    rcases h with h | h
    · omega
    · rw [h2] at h; cases h
  · next h =>
    rw [not_or, not_le, Bool.not_eq_true] at h
    exact ⟨fun ha => ⟨h.1, h.2, ha⟩, fun ha => ha.2.2⟩

/-- The waits of the bytes of some lines: an engine's first, then a peer's. -/
theorem State.reachable_cases (s : State) (l : List Nat) :
    ((∃ a ∈ l, s.owned a = true) → s.reachable l = .error (.wait .other)) ∧
    ((∀ a ∈ l, s.owned a = false) → (∃ a ∈ l, s.cutOff a = true) → s.reachable l = .error (.wait (.peer s.peerTag))) ∧
    ((∀ a ∈ l, s.owned a = false ∧ s.cutOff a = false) → s.reachable l = .ok ()) := by
  refine ⟨fun h => if_pos (List.any_eq_true.2 h), fun ho hc => ?_, State.reachable_ok⟩
  unfold State.reachable
  rw [if_neg (by simpa using ho), if_pos (List.any_eq_true.2 hc)]

/-- Settles O16: the checks of a window element, the levels of a walk, and what holds a walk back. -/
theorem translation : Obligations.Translation := by
  unfold Obligations.Translation
  refine ⟨fun s p k al ea n => ?_, fun p rd va => ?_, fun s p u k al ea n ha h52 => ?_, fun s p va hp => s.walkOf_cases p va hp,
    fun s al n ea ha => ?_, fun s p u k al n ea => ?_⟩
  · have h := s.element_cases p k al ea n
    simp only [State.winPa_eq, targetOf_eq] at h
    simp only [Part.tagged, targetOf_eq] at h
    exact h
  · intro entry frame q3 e3 q2 e2 q1 e1 q0 e0 sound table leaf bad gives fails there
    have hq3 : entryPlace va 3 p.regs.ptrootF.toNat = q3 := entryPlace_root ..
    have hq2 : entryPlace va 2 (frame e3) = q2 := entryPlace_of_ne (by decide)
    have hq1 : entryPlace va 1 (frame e2) = q1 := entryPlace_of_ne (by decide)
    have hq0 : entryPlace va 0 (frame e1) = q0 := entryPlace_of_ne (by decide)
    have he : ∀ q, p.entryAt rd q = entry q 0 := fun q => rfl
    clear_value q3 q2 q1 q0
    exact p.walk_cases rd va hq3 (he q3) hq2 (he q2) hq1 (he q1) hq0 (he q0)
  · obtain ⟨hw, ho⟩ := s.scalar_cases p u k al ea n ha h52
    refine ⟨hw, fun h => ⟨(ho h).1, fun base size pm hr => ?_⟩⟩
    intro pass pas
    have hall : pm.allow k u = true ↔ pass := pm.allow_iff k u
    rw [← hall]
    exact (ho h).2 base size pm hr
  · have hmem : ∀ a, a ∈ (List.range (n / al)).flatMap (fun i => s.walkBytes s.cp (ea + w64 (al * i))) ↔
        ∃ i < n / al, (ea + w64 (al * i)).toNat < 2 ^ 52 ∧ s.cp.inWindow (ea + w64 (al * i)).toNat = false ∧
          a ∈ (s.walkOf s.cp (ea + w64 (al * i)).toNat).touched := fun a => by
      simp only [List.mem_flatMap, List.mem_range, State.mem_walkBytes]
    have hr : s.walkReady al n ea = s.reachable ((List.range (n / al)).flatMap (fun i => s.walkBytes s.cp (ea + w64 (al * i)))) :=
      if_neg (not_not.2 ha)
    intro read
    rw [hr]
    have h := s.reachable_cases ((List.range (n / al)).flatMap (fun i => s.walkBytes s.cp (ea + w64 (al * i))))
    simp only [hmem] at h
    exact h
  · intro at_ cut
    have hcut : ∀ i, (s.walkBytes p (at_ i)).any s.cutOff = true ↔ cut i := fun i => List.any_eq_true
    have hno : ∀ i, ¬ cut i → (s.walkBytes p (at_ i)).any s.cutOff = false := fun i h => by
      rw [← hcut] at h
      exact Bool.eq_false_iff.2 h
    refine ⟨fun i hi hc hl => ?_, fun hn => ?_⟩
    · have hf : (List.range n).find? (fun i => (s.walkBytes p (ea + w64 (al * i))).any s.cutOff) = some i := by
        rw [List.find?_range_eq_some]
        exact ⟨(hcut i).2 hc, by simpa using hi, fun j hj => congrArg (!·) (hno j (hl j hj))⟩
      unfold State.deviceRange
      rw [hf]
      rfl
    · have hf : (List.range n).find? (fun i => (s.walkBytes p (ea + w64 (al * i))).any s.cutOff) = none := by
        rw [List.find?_eq_none]
        exact fun i hi => Bool.eq_false_iff.1 (hno i (hn i (List.mem_range.1 hi)))
      unfold State.deviceRange
      rw [hf]
      refine ⟨fun e he => by rw [he], fun pas hp => ?_⟩
      rw [hp]
      simp only [List.any_eq_true]
      rfl

end Sys2Proof.Machine
end

section
/-!
The scalar floating-point words (R79 to R85): each is a value with its flags, written to sD and joined to fflags.
-/
namespace Sys2Proof.Machine

/-- A word that writes sD and raises flags, past which the thread goes on. -/
theorem wroteFl_complete (d : BitVec 5) (v : Word) (fl : Nat) (s : State) :
    WroteFl d v fl s (complete ((s.writeS d v).raise fl)) := by
  have hs : (complete ((s.writeS d v).raise fl)).cur.s = (s.writeS d v).cur.s := by rw [complete_eq]; rfl
  have hr : ∀ r, (complete ((s.writeS d v).raise fl)).readS r = (s.writeS d v).readS r := fun r => by
    simp only [State.readS, Thread.readS, hs]
  refine ⟨?_, fun r h => ?_, fun a => ?_, ?_⟩
  · rw [hr, State.readS_writeS, if_pos rfl]
  · rw [hr, State.readS_writeS, if_neg h]
  · rw [complete_eq]; rfl
  · obtain ⟨x, hx⟩ : ∃ x, s.cur.writeS d v = { s.cur with s := x } := by
      unfold Thread.writeS
      split
      · exact ⟨_, rfl⟩
      · exact ⟨_, rfl⟩
    have he : complete ((s.writeS d v).raise fl) = { s with cur := ({ s.cur with
        s := x, q := s.cur.q, viq := s.cur.viq,
        user := { s.cur.user with fflags := s.cur.user.fflags ||| w64 fl } } : Thread).past } := by
      rw [complete_eq]
      unfold State.raise State.onUser State.onCur State.writeS
      rw [hx]
    rw [he, Thread.past_congr_parts]
    rfl

/-- An FPS word writes its value to sD and joins its flags to fflags (R79). -/
theorem fpsWord_wroteFl {s : State} (hf : s.free) (f : State → Fl Nat) (d : BitVec 5) :
    ∃ t, fpsWord f d s = .next t ∧ WroteFl d (w64 (f s).val) (f s).fl s t := by
  have hp : (s.writeS d (w64 (f s).val)).cur.trapPending = false := by
    rw [State.writeS_cur, ← hf.2]
    unfold Thread.writeS
    split <;> rfl
  have ha : (s.writeS d (w64 (f s).val)).raiseA (f s).fl = (s.writeS d (w64 (f s).val)).raise (f s).fl :=
    if_neg (by rw [hp]; exact Bool.false_ne_true)
  have he : fpsWord f d s = .next (complete ((s.writeS d (w64 (f s).val)).raiseA (f s).fl)) :=
    aside_ok (body := fun s => .ok ((s.writeS d (w64 (f s).val)).raiseA (f s).fl)) hf.1 (.inl rfl) rfl
  exact ⟨_, he, ha ▸ wroteFl_complete ..⟩

/-! ## What exec runs for the FPS words -/

section
variable (d a b : BitVec 5) (p r : BitVec 2) (s : State)

theorem exec_fadd : exec (.fadd d a b p r) s = fpsArith (fun rm x y => sumTerms rm [x, y]) d a b p r s := rfl
theorem exec_fsub : exec (.fsub d a b p r) s = fpsArith (fun rm x y => sumTerms rm [x, y.negate]) d a b p r s := rfl
theorem exec_fmul : exec (.fmul d a b p r) s = fpsArith (fun _ x y => x.mul y) d a b p r s := rfl
theorem exec_fdiv : exec (.fdiv d a b p r) s = fpsArith (fun _ x y => x.div y) d a b p r s := rfl
theorem exec_fsqrt : exec (.fsqrt d a p r) s =
    fpsWord (fun s => sqrtOnce (fpsFmt p) r.toNat ((fpsFmt p).value (fpsEnc p (s.readS a)))) d s := rfl
theorem exec_fma : exec (.fma d a b p r) s = fpsWord (fun s => roundFl (fpsFmt p) r.toNat (sumFl r.toNat
    [((fpsFmt p).value (fpsEnc p (s.readS a))).mul ((fpsFmt p).value (fpsEnc p (s.readS b))),
      ⟨(fpsFmt p).value (fpsEnc p (s.readS d)), 0⟩])) d s := rfl
theorem exec_fmin : exec (.fmin d a b p) s = fpsMinMax false d a b p s := rfl
theorem exec_fmax : exec (.fmax d a b p) s = fpsMinMax true d a b p s := rfl
theorem exec_feq : exec (.feq d a b p) s = fpsCompare false FV.eq d a b p s := rfl
theorem exec_flt : exec (.flt d a b p) s = fpsCompare true FV.lt d a b p s := rfl
theorem exec_fle : exec (.fle d a b p) s = fpsCompare true (fun x y => FV.lt x y || FV.eq x y) d a b p s := rfl
theorem exec_fcvtff : exec (.fcvtff d a p r) s = execFcvtff d a p r s := rfl
theorem exec_fclass : exec (.fclass d a p) s = execFclass d a p s := rfl
theorem exec_fcvtfi : exec (.fcvtfi d a b p r) s = execFcvtfi d a b p r s := rfl
theorem exec_fcvtif : exec (.fcvtif d a b p r) s = execFcvtif d a b p r s := rfl

end

/-! ## The values -/

theorem w64_wrapN (i : Int) : w64 (wrapN 64 i) = BitVec.ofInt 64 i := by
  apply BitVec.eq_of_toInt_eq
  unfold w64 wrapN
  rw [← BitVec.ofInt_natCast, Int.toNat_of_nonneg (Int.emod_nonneg _ (by decide)), BitVec.toInt_ofInt, BitVec.toInt_ofInt]
  exact Int.emod_bmod ..

theorem sgnN_low {w : Nat} (hw : 0 < w) (x : Word) : sgnN w (bitsAt x.toNat 0 w) = sval w x := by
  rw [sgnN_eq_bmod hw, bitsAt_zero_eq_mod, Int.natCast_mod]
  exact Int.emod_bmod ..

theorem b2n_masked (nan c : Bool) : (if nan then 0 else b2n c) = if !nan && c then 1 else 0 := by
  cases nan <;> cases c <;> rfl

/-- An instruction that is an FPS word completes with the word's value and flags. -/
theorem completes_of_fpsWord {i : Instr} {s : State} (hf : s.free) {f : State → Fl Nat} {d : BitVec 5} {v : Fl Nat}
    (hi : exec i s = fpsWord f d s) (hv : f s = v) : Completes i s (WroteFl d (w64 v.val) v.fl s) := by
  rw [← hv]
  unfold Completes
  rw [hi]
  exact fpsWord_wroteFl hf f d

/-- FCVTFI writes the integer modulo 2^64 (R82, R83). -/
theorem completes_fcvtfi {s : State} (hf : s.free) (d a b : BitVec 5) (p r : BitVec 2) :
    let v := toInt (fpsInt b).1 (fpsInt b).2 r.toNat ((fpsFmt p).value (fpsEnc p (s.readS a)))
    Completes (.fcvtfi d a b p r) s (WroteFl d (BitVec.ofInt 64 v.val) v.fl s) := by
  intro v
  rw [← w64_wrapN]
  exact completes_of_fpsWord (v := ⟨wrapN 64 v.val, v.fl⟩) hf (exec_fcvtfi ..) rfl

/-- Settles O10: each word computes its exact value, rounds it once, and joins its flags. -/
theorem scalarFloatingPoint : Obligations.ScalarFloatingPoint := by
  unfold Obligations.ScalarFloatingPoint
  intro s d a b p r hf f g enc x y z rm low nan sig cmp toI i64 u64 i32 u32 out outInt
  have henc : ∀ k, fpsEnc p (s.readS k) = enc k := fun k => bitsAt_zero_eq_mod ..
  have hx : (fpsFmt p).value (fpsEnc p (s.readS a)) = x := congrArg f.value (henc a)
  have hy : (fpsFmt p).value (fpsEnc p (s.readS b)) = y := congrArg f.value (henc b)
  have hz : (fpsFmt p).value (fpsEnc p (s.readS d)) = z := congrArg f.value (henc d)
  have hm : fpsFmt p = f := rfl
  have arith : ∀ {i : Instr} (op : Nat → FV → FV → Fl FV), exec i s = fpsArith op d a b p r s → out i (roundFl f rm (op rm x y)) :=
    fun op hi _ => completes_of_fpsWord hf hi (congrArg₂ (fun x y => roundFl f rm (op rm x y)) hx hy)
  have compare : ∀ {i : Instr} (loud : Bool) (c : FV → FV → Bool), exec i s = fpsCompare loud c d a b p s → out i (cmp (c x y) loud) :=
    fun loud c hi _ => completes_of_fpsWord hf hi (by dsimp only; rw [hx, hy, b2n_masked])
  have minmax : ∀ {i : Instr} (m : Bool), exec i s = fpsMinMax m d a b p s → out i (fminmax f m (enc a) (enc b)) :=
    fun m hi _ => completes_of_fpsWord hf hi (by rw [henc, henc, hm])
  have toWord : ∀ k, outInt (.fcvtfi d a k p r) (toI (fpsInt k).1 (fpsInt k).2) := fun k _ => by
    have h := completes_fcvtfi hf d a k p r
    rw [hx] at h
    exact h
  have ofWord : ∀ (k : BitVec 5) (n : Int),
      (if (fpsInt k).1 then sgnN (fpsInt k).2 (bitsAt (s.readS a).toNat 0 (fpsInt k).2) else (bitsAt (s.readS a).toNat 0 (fpsInt k).2 : Int)) = n →
      out (.fcvtif d a k p r) (roundOnce f rm false (FV.ofInt n)) :=
    fun k n hn _ => completes_of_fpsWord hf (exec_fcvtif ..) (congrArg (fun n => roundOnce f rm false (FV.ofInt n)) hn)
  refine ⟨arith _ (exec_fadd ..), arith _ (exec_fsub ..), arith _ (exec_fmul ..), arith _ (exec_fdiv ..), fun _ => ?_, fun _ => ?_,
    minmax false (exec_fmin ..), minmax true (exec_fmax ..), compare _ _ (exec_feq ..), compare _ _ (exec_flt ..),
    compare _ _ (exec_fle ..), fun _ => ?_, fun _ => ?_, toWord 0#5, toWord 1#5, toWord 2#5, toWord 3#5, ofWord 0#5 _ ?_, ofWord 1#5 _ ?_,
    ofWord 2#5 _ ?_, ofWord 3#5 _ ?_⟩
  · exact completes_of_fpsWord hf (exec_fsqrt ..) (congrArg (sqrtOnce f rm) hx)
  · exact completes_of_fpsWord hf (exec_fma ..) (by rw [hx, hy, hz, hm])
  · exact completes_of_fpsWord hf (exec_fcvtff ..) rfl
  · exact completes_of_fpsWord hf (exec_fclass ..) (by dsimp only; rw [hx, henc, hm])
  · exact (if_pos rfl).trans ((sgnN_low (by decide) _).trans (BitVec.toInt_eq_toNat_bmod _).symm)
  · exact congrArg Int.ofNat (Nat.mod_eq_of_lt (s.readS a).isLt)
  · exact (if_pos rfl).trans (sgnN_low (by decide) _)
  · rfl

end Sys2Proof.Machine
end

section
/-!
Exact arithmetic over the numbers (R80, R124, R125): sums, products, quotients and order of finite values, and what NaNs and
infinities make of them.
-/
namespace Sys2Proof.Machine

/-! ## A finite value and its number -/

/-- The number (−1)^neg · num/den · 2^exp. -/
def finRat (neg : Bool) (n d : Nat) (e : Int) : Rat := (if neg then -1 else 1) * ((n : Rat) / d) * (2 : Rat) ^ e

/-- x is a finite value, and a its number. -/
def FV.Is (x : FV) (a : Rat) : Prop := x.proper ∧ x.rat = some a

theorem FV.is_fin {neg : Bool} {n d : Nat} {e : Int} {a : Rat} :
    (FV.fin neg n d e).Is a ↔ d ≠ 0 ∧ finRat neg n d e = a :=
  and_congr_right fun _ => Option.some_inj

/-- The finite values that have a number. -/
theorem FV.Is.elim {x : FV} {a : Rat} (h : x.Is a) :
    ∃ neg n d e, x = .fin neg n d e ∧ d ≠ 0 ∧ finRat neg n d e = a := by
  cases x with
  | fin neg n d e => exact ⟨neg, n, d, e, rfl, FV.is_fin.1 h⟩
  | nan sig => exact h.1.elim
  | inf neg => exact h.1.elim

theorem finRat_eq_zero {neg : Bool} {n d : Nat} {e : Int} (hd : d ≠ 0) : finRat neg n d e = 0 ↔ n = 0 := by
  have h2 : (2 : Rat) ^ e ≠ 0 := (zpow_pos (by norm_num) e).ne'
  have hd' : (d : Rat) ≠ 0 := Nat.cast_ne_zero.2 hd
  unfold finRat
  cases neg <;> simp [h2, hd']

/-- The sign of a number that is not zero. -/
theorem finRat_neg_iff {neg : Bool} {n d : Nat} {e : Int} (hd : d ≠ 0) (hn : n ≠ 0) : finRat neg n d e < 0 ↔ neg = true := by
  have hpos : 0 < (n : Rat) / d * (2 : Rat) ^ e :=
    mul_pos (div_pos (by exact_mod_cast Nat.pos_of_ne_zero hn) (by exact_mod_cast Nat.pos_of_ne_zero hd)) (zpow_pos (by norm_num) e)
  unfold finRat
  cases neg
  · simp only [Bool.false_eq_true, if_false, one_mul, iff_false, not_lt]
    exact hpos.le
  · simp only [if_true, iff_true, neg_mul, one_mul]
    exact neg_neg_of_pos hpos

theorem FV.Is.isZero {x : FV} {a : Rat} (h : x.Is a) : x.isZero = decide (a = 0) := by
  obtain ⟨neg, n, d, e, rfl, hd, rfl⟩ := h.elim
  simp only [FV.isZero, finRat_eq_zero hd]

theorem FV.Is.neg {x : FV} {a : Rat} (h : x.Is a) (ha : a ≠ 0) : x.neg = decide (a < 0) := by
  obtain ⟨neg, n, d, e, rfl, hd, rfl⟩ := h.elim
  have hn : n ≠ 0 := fun hn => ha ((finRat_eq_zero hd).2 hn)
  simp only [FV.neg, finRat_neg_iff hd hn, Bool.decide_eq_true]

theorem FV.Is.isNan {x : FV} {a : Rat} (h : x.Is a) : x.isNan = false := by
  obtain ⟨neg, n, d, e, rfl, -⟩ := h.elim
  rfl

theorem FV.Is.isSig {x : FV} {a : Rat} (h : x.Is a) : x.isSig = false := by
  obtain ⟨neg, n, d, e, rfl, -⟩ := h.elim
  rfl

theorem FV.Is.notFinite {x : FV} {a : Rat} (h : x.Is a) : x.notFinite = false := by
  obtain ⟨neg, n, d, e, rfl, -⟩ := h.elim
  rfl

theorem FV.zero_is (neg : Bool) : (FV.zero neg).Is 0 := FV.is_fin.2 ⟨one_ne_zero, (finRat_eq_zero one_ne_zero).2 rfl⟩

theorem FV.Is.negate {x : FV} {a : Rat} (h : x.Is a) : x.negate.Is (-a) := by
  obtain ⟨neg, n, d, e, rfl, hd, rfl⟩ := h.elim
  refine FV.is_fin.2 ⟨hd, ?_⟩
  unfold finRat
  cases neg <;> simp

/-! ## Sums of two -/

/-- A finite value at a lower exponent, over a multiple of its denominator. -/
theorem finRat_scaleTo {neg : Bool} {n d k : Nat} {e lo : Int} (hd : d ≠ 0) (hk : k ≠ 0) (hlo : lo ≤ e) :
    finRat neg n d e = ((if neg then -(scaleTo (n * k) e lo : Int) else (scaleTo (n * k) e lo : Int) : Int) : Rat) / ((d * k : Nat) : Rat) * 2 ^ lo := by
  have hd' : (d : Rat) ≠ 0 := Nat.cast_ne_zero.2 hd
  have hk' : (k : Rat) ≠ 0 := Nat.cast_ne_zero.2 hk
  have he : (2 : Rat) ^ e = 2 ^ (e - lo).toNat * 2 ^ lo := by
    rw [← zpow_natCast, Int.toNat_of_nonneg (by omega), ← zpow_add₀ (by norm_num)]
    congr 1; omega
  unfold finRat scaleTo
  rw [he]
  cases neg
  · simp only [Bool.false_eq_true, if_false]
    push_cast
    field_simp
  · simp only [if_true]
    push_cast
    field_simp

/-- A numerator with its sign. -/
theorem finRat_natAbs (t : Int) (d : Nat) (e : Int) : finRat (decide (t < 0)) t.natAbs d e = (t : Rat) / d * 2 ^ e := by
  have h : ((if decide (t < 0) then -1 else 1 : Rat)) * (t.natAbs : Rat) = t := by
    rcases lt_or_ge t 0 with ht | ht
    · rw [if_pos (by simpa using ht), Nat.cast_natAbs, abs_of_neg ht]
      push_cast; ring
    · rw [if_neg (by simpa using ht), Nat.cast_natAbs, abs_of_nonneg ht]
      push_cast; ring
  unfold finRat
  rw [← h]; ring

theorem addFin_is {s1 s2 : Bool} {n1 d1 n2 d2 : Nat} {e1 e2 : Int} (h1 : d1 ≠ 0) (h2 : d2 ≠ 0) :
    (addFin s1 n1 d1 e1 s2 n2 d2 e2).Is (finRat s1 n1 d1 e1 + finRat s2 n2 d2 e2) := by
  refine FV.is_fin.2 ⟨Nat.mul_ne_zero h1 h2, ?_⟩
  rw [finRat_natAbs, finRat_scaleTo h1 h2 (min_le_left e1 e2), finRat_scaleTo h2 h1 (min_le_right e1 e2), Nat.mul_comm d2 d1]
  push_cast; ring

/-! ## Sums -/

/-- The sum so far and the next term. -/
def addNext (a x : FV) : FV :=
  match a, x with
  | .fin s n d e, .fin s' n' d' e' => addFin s n d e s' n' d' e'
  | _, _ => a

theorem FV.Is.addNext {x y : FV} {a b : Rat} (hx : x.Is a) (hy : y.Is b) : (addNext x y).Is (a + b) := by
  obtain ⟨s, n, d, e, rfl, hd, rfl⟩ := hx.elim
  obtain ⟨s', n', d', e', rfl, hd', rfl⟩ := hy.elim
  exact addFin_is hd hd'

theorem foldl_addNext_is {l : List (FV × Rat)} (hl : ∀ e ∈ l, e.1.Is e.2) {x : FV} {a : Rat} (hx : x.Is a) :
    ((l.map (fun e => e.1)).foldl addNext x).Is (a + (l.map (fun e => e.2)).sum) := by
  induction l generalizing x a with
  | nil => simpa using hx
  | cons e l ih =>
    simp only [List.map_cons, List.foldl_cons, List.sum_cons, ← add_assoc]
    exact ih (fun e he => hl e (List.mem_cons_of_mem _ he)) (hx.addNext (hl e (List.mem_cons_self ..)))

/-- The sign of a sum that comes to 0 (R124). -/
def zeroSign (rm : Nat) (l : List FV) : Bool :=
  (if allZeros true l then true else if allZeros false l then false else decide (rm = 2)) && !l.isEmpty

theorem zeroSign_eq (rm : Nat) (l : List FV) : zeroSign rm l = decide (l ≠ [] ∧ ((∀ x ∈ l, x.isZero = true ∧ x.neg = true) ∨
    (rm = 2 ∧ ¬ ∀ x ∈ l, x.isZero = true ∧ x.neg = false))) := by
  have hall : ∀ neg, allZeros neg l = true ↔ ∀ x ∈ l, x.isZero = true ∧ x.neg = neg := fun neg => by
    simp [allZeros, List.all_eq_true]
  rw [Bool.eq_iff_iff, decide_eq_true_iff, ← hall, ← hall]
  unfold zeroSign
  cases l with
  | nil => simp
  | cons x l => cases allZeros true (x :: l) <;> cases allZeros false (x :: l) <;> simp

/-- The sum of finite values: no flag, their sum, and the sign of R124 where it is 0. -/
theorem sumTerms_finite (l : List (FV × Rat)) (rm : Nat) (hl : ∀ e ∈ l, e.1.Is e.2) :
    let xs := l.map (fun e => e.1)
    let q := (l.map (fun e => e.2)).sum
    (sumTerms rm xs).fl = 0 ∧ (sumTerms rm xs).val.Is q ∧ (q = 0 → (sumTerms rm xs).val.neg = zeroSign rm xs) := by
  intro xs q
  have hsum : (xs.foldl addNext (FV.zero false)).Is q := by
    simpa using foldl_addNext_is hl (FV.zero_is false)
  have hx : ∀ x ∈ xs, ∃ a, x.Is a := fun x hx => by
    obtain ⟨e, he, rfl⟩ := List.mem_map.1 hx
    exact ⟨_, hl e he⟩
  have hinf : ∀ neg, xs.contains (.inf neg) = false := fun neg => by
    rw [Bool.eq_false_iff, Ne, List.contains_iff_mem]
    exact fun h => (hx _ h).elim fun a ha => ha.1.elim
  have hnan : xs.any FV.isNan = false := List.any_eq_false.2 fun x h => (hx x h).elim fun a ha => by simp [ha.isNan]
  have hsig : xs.any FV.isSig = false := List.any_eq_false.2 fun x h => (hx x h).elim fun a ha => by simp [ha.isSig]
  obtain ⟨neg, n, d, e, hv, hd, hq⟩ := hsum.elim
  have hs : sumTerms rm xs = if n = 0 then ⟨FV.zero (zeroSign rm xs), 0⟩ else ⟨.fin neg n d e, 0⟩ := by
    unfold sumTerms
    simp only [hinf, hnan, hsig, Bool.or_false, Bool.and_false, Bool.false_eq_true, if_false]
    change (match xs.foldl addNext (FV.zero false) with
      | .fin _ 0 _ _ => Fl.mk (FV.zero (zeroSign rm xs)) 0
      | v => ⟨v, 0⟩) = _
    rw [hv]
    cases n with
    | zero => rfl
    | succ n => rfl
  have hn : n = 0 ↔ q = 0 := by rw [← hq, finRat_eq_zero hd]
  rw [hs]
  by_cases h0 : n = 0
  · rw [if_pos h0, hn.1 h0]
    exact ⟨rfl, FV.zero_is _, fun _ => rfl⟩
  · rw [if_neg h0]
    exact ⟨rfl, hv ▸ hsum, fun h => absurd (hn.2 h) h0⟩

/-! ## Products -/

/-- The product so far and the next factor. -/
def mulNext (a : Fl FV) (x : FV) : Fl FV :=
  match a.val, x with
  | .fin s n d e, .fin s' n' d' e' => ⟨.fin (s != s') (n * n') (d * d') (e + e'), a.fl⟩
  | _, _ => a

theorem finRat_mul {s s' : Bool} {n n' d d' : Nat} {e e' : Int} :
    finRat (s != s') (n * n') (d * d') (e + e') = finRat s n d e * finRat s' n' d' e' := by
  unfold finRat
  rw [zpow_add₀ (by norm_num)]
  cases s <;> cases s' <;> push_cast <;> ring_nf <;> simp

theorem mulNext_is {x : Fl FV} {y : FV} {a b : Rat} (hx : x.val.Is a) (hy : y.Is b) :
    (mulNext x y).val.Is (a * b) ∧ (mulNext x y).val.neg = (x.val.neg != y.neg) ∧ (mulNext x y).fl = x.fl := by
  obtain ⟨s, n, d, e, hv, hd, rfl⟩ := hx.elim
  obtain ⟨s', n', d', e', rfl, hd', rfl⟩ := hy.elim
  obtain ⟨v, fl⟩ := x
  dsimp only at hv
  subst hv
  exact ⟨FV.is_fin.2 ⟨Nat.mul_ne_zero hd hd', finRat_mul⟩, rfl, rfl⟩

theorem foldl_mulNext_is {l : List (FV × Rat)} (hl : ∀ e ∈ l, e.1.Is e.2) {x : Fl FV} {a : Rat} (hx : x.val.Is a) :
    let r := (l.map (fun e => e.1)).foldl mulNext x
    r.val.Is (a * (l.map (fun e => e.2)).prod) ∧
      r.val.neg = (l.map (fun e => e.1)).foldl (fun a x => a != x.neg) x.val.neg ∧ r.fl = x.fl := by
  induction l generalizing x a with
  | nil => simpa using hx
  | cons e l ih =>
    obtain ⟨h1, h2, h3⟩ := mulNext_is hx (hl e (List.mem_cons_self ..))
    have h := ih (fun e he => hl e (List.mem_cons_of_mem _ he)) h1
    rw [h2, h3] at h
    simpa only [List.map_cons, List.foldl_cons, List.prod_cons, mul_assoc] using h

/-- The exclusive OR of the signs tells whether their number is odd. -/
theorem foldl_neg_eq (l : List FV) (b : Bool) :
    l.foldl (fun a x => a != x.neg) b = (b != decide (l.countP FV.neg % 2 = 1)) := by
  induction l generalizing b with
  | nil => cases b <;> rfl
  | cons x l ih =>
    rw [List.foldl_cons, ih, List.countP_cons]
    cases hx : x.neg
    · simp
    · have : decide ((l.countP FV.neg + 1) % 2 = 1) = !decide (l.countP FV.neg % 2 = 1) := by
        rw [← decide_not, decide_eq_decide]; omega
      simp only [if_true, this]
      cases b <;> cases decide (l.countP FV.neg % 2 = 1) <;> rfl

/-- The product of finite values: no flag, their product, and the exclusive OR of their signs. -/
theorem prodTerms_finite (l : List (FV × Rat)) (hl : ∀ e ∈ l, e.1.Is e.2) :
    let xs := l.map (fun e => e.1)
    (prodTerms xs).fl = 0 ∧ (prodTerms xs).val.Is (l.map (fun e => e.2)).prod ∧
      (prodTerms xs).val.neg = decide (xs.countP FV.neg % 2 = 1) := by
  intro xs
  have hx : ∀ x ∈ xs, ∃ a, x.Is a := fun x hx => by
    obtain ⟨e, he, rfl⟩ := List.mem_map.1 hx
    exact ⟨_, hl e he⟩
  have hnf : xs.any FV.notFinite = false := List.any_eq_false.2 fun x h => (hx x h).elim fun a ha => by simp [ha.notFinite]
  have hinf : xs.any (fun x => x.notFinite && !x.isNan) = false :=
    List.any_eq_false.2 fun x h => (hx x h).elim fun a ha => by simp [ha.notFinite]
  have hnan : xs.any FV.isNan = false := List.any_eq_false.2 fun x h => (hx x h).elim fun a ha => by simp [ha.isNan]
  have hsig : xs.any FV.isSig = false := List.any_eq_false.2 fun x h => (hx x h).elim fun a ha => by simp [ha.isSig]
  have hp : prodTerms xs = xs.foldl mulNext ⟨FV.one, 0⟩ := by
    unfold prodTerms
    simp only [hnf, hinf, hnan, hsig, Bool.or_false, Bool.and_false, Bool.false_eq_true, if_false]
    rfl
  have hone : FV.one.Is 1 := FV.is_fin.2 ⟨one_ne_zero, by simp [finRat]⟩
  obtain ⟨h1, h2, h3⟩ := foldl_mulNext_is hl (x := ⟨FV.one, 0⟩) hone
  rw [one_mul] at h1
  rw [foldl_neg_eq] at h2
  rw [hp]
  exact ⟨h3, h1, by rw [h2]; exact Bool.false_bne _⟩

/-! ## Quotients and order -/

theorem finRat_div {s s' : Bool} {n n' d d' : Nat} {e e' : Int} :
    finRat (s != s') (n * d') (d * n') (e - e') = finRat s n d e / finRat s' n' d' e' := by
  unfold finRat
  rw [zpow_sub₀ (by norm_num)]
  cases s <;> cases s' <;> push_cast <;> simp <;> field_simp

theorem FV.Is.div {x y : FV} {a b : Rat} (hx : x.Is a) (hy : y.Is b) :
    (b ≠ 0 → (x.div y).val.Is (a / b) ∧ (x.div y).fl = 0) ∧
    (b = 0 → a ≠ 0 → x.div y = ⟨.inf (x.neg != y.neg), fDZ⟩) ∧ (b = 0 → a = 0 → x.div y = ⟨.nan false, fNV⟩) := by
  obtain ⟨s, n, d, e, rfl, hd, rfl⟩ := hx.elim
  obtain ⟨s', n', d', e', rfl, hd', rfl⟩ := hy.elim
  rw [Ne, Ne, finRat_eq_zero hd', finRat_eq_zero hd]
  refine ⟨fun hb => ?_, fun hb ha => ?_, fun hb ha => ?_⟩
  · have h : (FV.fin s n d e).div (.fin s' n' d' e') = ⟨.fin (s != s') (n * d') (d * n') (e - e'), 0⟩ := if_neg hb
    rw [h]
    exact ⟨FV.is_fin.2 ⟨Nat.mul_ne_zero hd hb, finRat_div⟩, rfl⟩
  · exact (if_pos hb).trans (if_neg ha)
  · exact (if_pos hb).trans (if_pos ha)

theorem FV.Is.lt_iff {x y : FV} {a b : Rat} (hx : x.Is a) (hy : y.Is b) : FV.lt x y = true ↔ a < b := by
  have hxn := hx.negate
  obtain ⟨s, n, d, e, rfl, hd, rfl⟩ := hx.elim
  obtain ⟨s', n', d', e', rfl, hd', rfl⟩ := hy.elim
  have hneg : finRat (!s) n d e = -finRat s n d e := (FV.is_fin.1 hxn).2
  have h := addFin_is (s1 := s') (n1 := n') (e1 := e') (s2 := !s) (n2 := n) (e2 := e) hd' hd
  rw [hneg, ← sub_eq_add_neg] at h
  obtain ⟨sr, nr, dr, er, hr, hdr, hq⟩ := h.elim
  have hl : FV.lt (.fin s n d e) (.fin s' n' d' e') = (!sr && decide (nr ≠ 0)) := by
    change (match addFin s' n' d' e' (!s) n d e with
      | .fin s n _ _ => !s && decide (n ≠ 0)
      | _ => false) = _
    rw [hr]
  rw [hl, ← sub_pos, ← hq, Bool.and_eq_true, Bool.not_eq_true', decide_eq_true_iff]
  by_cases hn : nr = 0
  · rw [(finRat_eq_zero hdr).2 hn]
    simp [hn]
  · have hz : finRat sr nr dr er ≠ 0 := fun h => hn ((finRat_eq_zero hdr).1 h)
    rw [← Bool.not_eq_true, ← finRat_neg_iff hdr hn (e := er), not_lt, and_iff_left hn]
    exact ⟨fun h => lt_of_le_of_ne h (Ne.symm hz), le_of_lt⟩

theorem FV.Is.eq_iff {x y : FV} {a b : Rat} (hx : x.Is a) (hy : y.Is b) : FV.eq x y = true ↔ a = b := by
  unfold FV.eq
  rw [hx.isNan, hy.isNan]
  simp only [Bool.not_false, Bool.true_and, Bool.and_eq_true, Bool.not_eq_true']
  rw [← Bool.not_eq_true, ← Bool.not_eq_true, hx.lt_iff hy, hy.lt_iff hx, not_lt, not_lt, and_comm]
  exact le_antisymm_iff.symm

/-! ## NaNs and infinities (log 30) -/

theorem FV.isNan_of_isSig {x : FV} (h : x.isSig = true) : x.isNan = true := by
  cases x with
  | nan sig => rfl
  | inf neg => exact h
  | fin neg n d e => exact h

theorem FV.notFinite_number {x : FV} : (x.notFinite && !x.isNan) = true ↔ ∃ neg, x = .inf neg := by
  cases x with
  | nan sig => exact ⟨fun h => (nomatch h), fun ⟨_, h⟩ => (nomatch h)⟩
  | inf neg => exact ⟨fun _ => ⟨neg, rfl⟩, fun _ => rfl⟩
  | fin neg n d e => exact ⟨fun h => (nomatch h), fun ⟨_, h⟩ => (nomatch h)⟩

section
variable (l : List FV) (rm : Nat)

/-- A sum with a NaN, or infinities of both signs, is NaN. -/
theorem sumTerms_nan (h : l.any FV.isNan || (l.contains (.inf false) && l.contains (.inf true))) :
    sumTerms rm l = ⟨.nan false, if l.any FV.isSig || (l.contains (.inf false) && l.contains (.inf true)) then fNV else 0⟩ :=
  if_pos h

theorem sumTerms_cases :
    let nan := ∃ x ∈ l, x.isNan = true
    let sig := ∃ x ∈ l, x.isSig = true
    let both := FV.inf true ∈ l ∧ FV.inf false ∈ l
    (sig ∨ both → sumTerms rm l = ⟨.nan false, fNV⟩) ∧ (nan → ¬ sig → ¬ both → sumTerms rm l = ⟨.nan false, 0⟩) ∧
    (¬ nan → ¬ both → ∀ neg, FV.inf neg ∈ l → sumTerms rm l = ⟨.inf neg, 0⟩) := by
  intro nan sig both
  have hnan : l.any FV.isNan = true ↔ nan := List.any_eq_true
  have hsig : l.any FV.isSig = true ↔ sig := List.any_eq_true
  have hboth : (l.contains (.inf false) && l.contains (.inf true)) = true ↔ both := by
    rw [Bool.and_eq_true, List.contains_iff_mem, List.contains_iff_mem, and_comm]
  have hsn : sig → nan := fun ⟨x, hx, h⟩ => ⟨x, hx, FV.isNan_of_isSig h⟩
  refine ⟨fun h => ?_, fun hn hs hb => ?_, fun hn hb neg hi => ?_⟩
  · rw [sumTerms_nan, if_pos]
    · rwa [Bool.or_eq_true, hsig, hboth]
    · rw [Bool.or_eq_true, hnan, hboth]
      exact h.imp_left hsn
  · rw [sumTerms_nan, if_neg]
    · rw [Bool.or_eq_true, hsig, hboth]
      exact fun h => h.elim hs hb
    · rw [Bool.or_eq_true, hnan]
      exact .inl hn
  · have hs : l.any FV.isSig = false := Bool.eq_false_iff.2 fun h => hn (hsn (hsig.1 h))
    have hn' : l.any FV.isNan = false := Bool.eq_false_iff.2 fun h => hn (hnan.1 h)
    have hb' := Bool.eq_false_iff.2 (mt hboth.1 hb)
    have hc : l.contains (.inf neg) = true := List.contains_iff_mem.2 hi
    unfold sumTerms
    cases neg
    · rw [hc, Bool.true_and] at hb'
      simp only [hs, hn', hc, hb', Bool.and_false, Bool.or_false, Bool.false_eq_true, if_false, if_true]
    · rw [hc, Bool.and_true] at hb'
      simp only [hs, hn', hc, hb', Bool.false_and, Bool.or_false, Bool.false_or, Bool.false_eq_true, if_false, if_true]

/-- A product with a NaN, or with a zero and an infinity, is NaN. -/
theorem prodTerms_nan (h : l.any FV.isNan || (l.any FV.isZero && l.any (fun x => x.notFinite && !x.isNan))) :
    prodTerms l = ⟨.nan false, if l.any FV.isSig || (l.any FV.isZero && l.any (fun x => x.notFinite && !x.isNan)) then fNV else 0⟩ :=
  if_pos h

theorem prodTerms_cases :
    let nan := ∃ x ∈ l, x.isNan = true
    let sig := ∃ x ∈ l, x.isSig = true
    let inf := ∃ neg, FV.inf neg ∈ l
    let off := inf ∧ ∃ x ∈ l, x.isZero = true
    (sig ∨ off → prodTerms l = ⟨.nan false, fNV⟩) ∧ (nan → ¬ sig → ¬ off → prodTerms l = ⟨.nan false, 0⟩) ∧
    (inf → ¬ nan → ¬ off → prodTerms l = ⟨.inf (decide (l.countP FV.neg % 2 = 1)), 0⟩) := by
  intro nan sig inf off
  have hnan : l.any FV.isNan = true ↔ nan := List.any_eq_true
  have hsig : l.any FV.isSig = true ↔ sig := List.any_eq_true
  have hinf : l.any (fun x => x.notFinite && !x.isNan) = true ↔ inf := by
    rw [List.any_eq_true]
    refine ⟨fun ⟨x, hx, h⟩ => ?_, fun ⟨neg, h⟩ => ⟨_, h, rfl⟩⟩
    obtain ⟨neg, rfl⟩ := FV.notFinite_number.1 h
    exact ⟨neg, hx⟩
  have hoff : (l.any FV.isZero && l.any (fun x => x.notFinite && !x.isNan)) = true ↔ off := by
    rw [Bool.and_eq_true, hinf, List.any_eq_true, and_comm]
  have hsn : sig → nan := fun ⟨x, hx, h⟩ => ⟨x, hx, FV.isNan_of_isSig h⟩
  refine ⟨fun h => ?_, fun hn hs ho => ?_, fun hi hn ho => ?_⟩
  · rw [prodTerms_nan, if_pos]
    · rwa [Bool.or_eq_true, hsig, hoff]
    · rw [Bool.or_eq_true, hnan, hoff]
      exact h.imp_left hsn
  · rw [prodTerms_nan, if_neg]
    · rw [Bool.or_eq_true, hsig, hoff]
      exact fun h => h.elim hs ho
    · rw [Bool.or_eq_true, hnan]
      exact .inl hn
  · have hs : l.any FV.isSig = false := Bool.eq_false_iff.2 fun h => hn (hsn (hsig.1 h))
    have hn' : l.any FV.isNan = false := Bool.eq_false_iff.2 fun h => hn (hnan.1 h)
    have ho' := Bool.eq_false_iff.2 (mt hoff.1 ho)
    have hf : l.any FV.notFinite = true := hi.elim fun neg h => List.any_eq_true.2 ⟨_, h, rfl⟩
    unfold prodTerms
    simp only [hs, hn', ho', hf, Bool.or_false, Bool.false_eq_true, if_false, if_true, foldl_neg_eq, Bool.false_bne]

end

/-- Settles O12: finite values by their numbers, the others by the cases of log 30. -/
theorem exactArithmetic : Obligations.ExactArithmetic := by
  unfold Obligations.ExactArithmetic
  refine ⟨fun x y a b rm px py rx ry => ?_, fun l rm hl => ?_, fun l rm => ?_⟩
  · have hx : x.Is a := ⟨px, rx⟩
    have hy : y.Is b := ⟨py, ry⟩
    have hl : ∀ e ∈ [(x, a), (y, b)], e.1.Is e.2 := by simp [hx, hy]
    have hsum : [a, b].sum = a + b := by simp
    obtain ⟨hm, hm', hz⟩ := sumTerms_finite [(x, a), (y, b)] rm hl
    obtain ⟨-, ha, -⟩ := sumTerms_finite [(x, a), (y, b)] 0 hl
    obtain ⟨-, hp, hpn⟩ := prodTerms_finite [(x, a), (y, b)] hl
    obtain ⟨hd, hdz, hdn⟩ := hx.div hy
    simp only [List.map_cons, List.map_nil, hsum, List.prod_cons, List.prod_nil, mul_one] at hm hm' hz ha hp hpn
    have hpar : decide ([x, y].countP FV.neg % 2 = 1) = (x.neg != y.neg) := by
      rw [List.countP_cons, List.countP_cons, List.countP_nil]
      cases x.neg <;> cases y.neg <;> rfl
    refine ⟨ha.2, hp.2, hpn.trans hpar, fun h => ⟨(hd h).1.2, (hd h).2⟩, hdz, hdn, hx.lt_iff hy, hx.eq_iff hy, hx.negate.2, hm'.2, hm,
      hm'.neg, fun h => ?_⟩
    rw [hz h, zeroSign_eq]
    simp only [List.forall_mem_cons, hx.isZero, hy.isZero, decide_eq_true_eq]
    by_cases ha0 : a = 0
    · have hb0 : b = 0 := by rwa [ha0, zero_add] at h
      cases x.neg <;> cases y.neg <;> simp [ha0, hb0]
    · simp [ha0]
  · have hl' : ∀ e ∈ l, e.1.Is e.2 := hl
    obtain ⟨hs, hv, hz⟩ := sumTerms_finite l rm hl'
    obtain ⟨hp, hpv, hpn⟩ := prodTerms_finite l hl'
    exact ⟨hs, hv.2, hv.neg, fun h => (hz h).trans (zeroSign_eq ..), hp, hpv.2, hpn⟩
  · obtain ⟨s1, s2, s3⟩ := sumTerms_cases l rm
    obtain ⟨p1, p2, p3⟩ := prodTerms_cases l
    exact ⟨s1, s2, s3, p1, p2, p3⟩

end Sys2Proof.Machine
end

section
/-!
The finite encodings of a format as numbers (R114, R115): each is a whole number of the format's least steps, and a greater
encoding is a greater number.
-/
namespace Sys2Proof.Machine

/-- The eight formats of R113. -/
def allFmts : List Fmt := [fp64, fp32, fp16, bf16, e4m3, e5m2, e3m2, e2m1]

/-- The magnitude of an encoding without sign, in units of the format's least step. -/
def Fmt.mag (f : Fmt) (n : Nat) : Nat := if n < 2 ^ f.fb then n else (n % 2 ^ f.fb + 2 ^ f.fb) * 2 ^ (n / 2 ^ f.fb - 1)

/-- The distance from an encoding's magnitude to the next. -/
def Fmt.gap (f : Fmt) (n : Nat) : Nat := 2 ^ (n / 2 ^ f.fb - 1)

/-- The format's least step. -/
noncomputable def Fmt.step (f : Fmt) : ℝ := 2 ^ (1 - (f.bias : Int) - (f.fb : Int))

/-- The number that an encoding without sign stands for. -/
noncomputable def Fmt.num (f : Fmt) (n : Nat) : ℝ := f.mag n * f.step

/-! ## Magnitudes -/

section
variable (f : Fmt)

/-- The magnitude of a significand m at exponent field step E. -/
theorem Fmt.mag_enc {E m : Nat} (hm : m ≤ 2 ^ (f.fb + 1)) (hE : E = 0 ∨ 2 ^ f.fb ≤ m) : f.mag (E * 2 ^ f.fb + m) = m * 2 ^ E := by
  have hp : 0 < 2 ^ f.fb := Nat.two_pow_pos _
  rw [Nat.pow_succ] at hm
  unfold Fmt.mag
  generalize 2 ^ f.fb = B at *
  by_cases hlow : m < B
  · obtain rfl : E = 0 := hE.resolve_right (by omega)
    rw [if_pos (by omega)]; simp
  · obtain ⟨r, rfl⟩ : ∃ r, m = B + r := ⟨m - B, by omega⟩
    rw [if_neg (by omega)]
    have hsplit : E * B + (B + r) = r + (E + 1) * B := by ring
    rw [hsplit, Nat.add_mul_mod_self_right, Nat.add_mul_div_right _ _ hp]
    rcases (show r < B ∨ r = B by omega) with hr | rfl
    · rw [Nat.mod_eq_of_lt hr, Nat.div_eq_of_lt hr, Nat.zero_add, Nat.add_sub_cancel, Nat.add_comm r]
    · rw [Nat.mod_self, Nat.div_self hp, Nat.zero_add, show 1 + (E + 1) - 1 = E + 1 by omega, Nat.pow_succ]; ring

/-- An encoding by its exponent step and significand. -/
theorem Fmt.exists_enc (n : Nat) : ∃ E m, n = E * 2 ^ f.fb + m ∧ m < 2 ^ (f.fb + 1) ∧ (E = 0 ∨ 2 ^ f.fb ≤ m) ∧ E = n / 2 ^ f.fb - 1 := by
  have hdm := Nat.div_add_mod' n (2 ^ f.fb)
  have hlt := Nat.mod_lt n (Nat.two_pow_pos f.fb)
  rw [Nat.pow_succ]
  cases hq : n / 2 ^ f.fb with
  | zero =>
    rw [hq] at hdm
    exact ⟨0, n, by omega, by omega, .inl rfl, rfl⟩
  | succ q =>
    rw [hq, Nat.succ_mul] at hdm
    exact ⟨q, 2 ^ f.fb + n % 2 ^ f.fb, by omega, by omega, .inr (by omega), rfl⟩

theorem Fmt.mag_succ (n : Nat) : f.mag (n + 1) = f.mag n + f.gap n := by
  obtain ⟨E, m, hn, hm, hE, hg⟩ := f.exists_enc n
  have h1 : f.mag n = m * 2 ^ E := by rw [hn]; exact f.mag_enc hm.le hE
  have h2 : f.mag (n + 1) = (m + 1) * 2 ^ E := by
    rw [hn, Nat.add_assoc]; exact f.mag_enc hm (hE.imp_right fun h => by omega)
  rw [h1, h2, Fmt.gap, ← hg]; ring

theorem Fmt.mag_strictMono : StrictMono f.mag := strictMono_nat_of_lt_succ fun n => by
  rw [f.mag_succ]
  exact Nat.lt_add_of_pos_right (Nat.two_pow_pos _)

@[simp] theorem Fmt.mag_zero : f.mag 0 = 0 := if_pos (Nat.two_pow_pos _)

theorem Fmt.step_pos : 0 < f.step := zpow_pos (by norm_num) _

theorem Fmt.num_strictMono : StrictMono f.num := fun a b h =>
  mul_lt_mul_of_pos_right (by exact_mod_cast f.mag_strictMono h) f.step_pos

@[simp] theorem Fmt.num_zero : f.num 0 = 0 := by simp [Fmt.num]

theorem Fmt.num_nonneg (n : Nat) : 0 ≤ f.num n := by
  rw [← f.num_zero]
  exact f.num_strictMono.monotone (Nat.zero_le n)

/-- The number of a significand m at the scale 2^u. -/
theorem Fmt.num_enc {E m : Nat} {u : Int} (hm : m ≤ 2 ^ (f.fb + 1)) (hE : E = 0 ∨ 2 ^ f.fb ≤ m)
    (hu : u = (E : Int) + (1 - (f.bias : Int) - (f.fb : Int))) : f.num (E * 2 ^ f.fb + m) = m * 2 ^ u := by
  unfold Fmt.num Fmt.step
  rw [f.mag_enc hm hE, hu, zpow_add₀ (by norm_num), zpow_natCast]
  push_cast; ring

/-- The smallest normal number. -/
theorem Fmt.num_normal : f.num (2 ^ f.fb) = 2 ^ (1 - (f.bias : Int)) := by
  have h := f.num_enc (E := 0) (m := 2 ^ f.fb) (Nat.pow_le_pow_right (by norm_num) (Nat.le_succ _)) (.inl rfl) rfl
  rw [Nat.zero_mul, Nat.zero_add] at h
  rw [h, Nat.cast_pow, Nat.cast_ofNat, ← zpow_natCast, ← zpow_add₀ (by norm_num)]
  congr 1; push_cast; ring

/-- Neighbouring steps are equal unless a power of two lies between. -/
theorem Fmt.num_gap_eq {n : Nat} (h : (n + 1) % 2 ^ f.fb ≠ 0) :
    f.num (n + 2) - f.num (n + 1) = f.num (n + 1) - f.num n := by
  have hq : (n + 1) / 2 ^ f.fb = n / 2 ^ f.fb :=
    Nat.succ_div_of_not_dvd fun hd => h (Nat.mod_eq_zero_of_dvd hd)
  have h1 := f.mag_succ n
  have h2 := f.mag_succ (n + 1)
  unfold Fmt.gap at h1 h2
  rw [hq] at h2
  unfold Fmt.num
  rw [h2, h1]
  push_cast; ring

end

/-! ## What an encoding stands for -/

/-- An encoding's part without sign, and its sign. -/
def Fmt.unsign (f : Fmt) (k : Nat) : Nat := k % 2 ^ (f.eb + f.fb)

section
variable {f : Fmt} {k : Nat}

theorem Fmt.exp_field : bitsAt k f.fb f.eb = f.unsign k / 2 ^ f.fb := by
  unfold Fmt.unsign
  rw [bitsAt_eq, Nat.add_comm, Nat.pow_add, Nat.mod_mul_right_div_self]

theorem Fmt.frac_field : bitsAt k 0 f.fb = f.unsign k % 2 ^ f.fb := by
  unfold Fmt.unsign
  rw [bitsAt_zero_eq_mod, Nat.mod_mod_of_dvd _ (Nat.pow_dvd_pow 2 (Nat.le_add_left ..))]

theorem Fmt.unsign_lt : f.unsign k < 2 ^ f.eb * 2 ^ f.fb := by
  rw [← Nat.pow_add]
  exact Nat.mod_lt _ (Nat.two_pow_pos _)

/-- The encoding is an infinity or a NaN of its format. -/
def Fmt.special (f : Fmt) (n : Nat) : Prop :=
  n / 2 ^ f.fb = 2 ^ f.eb - 1 ∧ (f.hasInf = true ∨ f.hasNan = true ∧ n % 2 ^ f.fb = 2 ^ f.fb - 1)

/-- The special encodings are those above the largest number. -/
theorem Fmt.special_iff (he : 0 < f.eb) : f.special (f.unsign k) ↔ f.maxEnc < f.unsign k := by
  have hn : f.unsign k < 2 ^ f.eb * 2 ^ f.fb := Fmt.unsign_lt
  have hB : 0 < 2 ^ f.fb := Nat.two_pow_pos _
  have hQ : 2 ≤ 2 ^ f.eb := Nat.le_self_pow (by omega) 2
  have hdm := Nat.div_add_mod' (f.unsign k) (2 ^ f.fb)
  have hmod := Nat.mod_lt (f.unsign k) hB
  have hdiv : f.unsign k / 2 ^ f.fb ≤ 2 ^ f.eb - 1 := Nat.le_sub_one_of_lt (Nat.div_lt_of_lt_mul (by rwa [Nat.mul_comm]))
  unfold Fmt.special Fmt.maxEnc
  rw [Nat.pow_add]
  generalize f.unsign k = n at *
  generalize 2 ^ f.fb = B at *
  generalize 2 ^ f.eb = Q at *
  obtain ⟨q, rfl⟩ : ∃ q, Q = q + 1 := ⟨Q - 1, by omega⟩
  have hqB : B ≤ q * B := Nat.le_mul_of_pos_left B (by omega)
  rw [Nat.add_sub_cancel] at *
  rw [Nat.succ_mul] at *
  have hlow : n / B ≠ q → n < q * B := fun h => Nat.div_lt_iff_lt_mul hB |>.1 (by omega)
  by_cases hi : f.hasInf = true
  · rw [if_pos hi, and_iff_left (.inl hi)]
    exact ⟨fun h => by rw [h] at hdm; omega, fun h => by by_contra hq; have := hlow hq; omega⟩
  · rw [if_neg hi, or_iff_right hi]
    by_cases hN : f.hasNan = true
    · rw [if_pos hN, and_iff_right hN]
      refine ⟨fun ⟨h, h'⟩ => by rw [h] at hdm; omega, fun h => ?_⟩
      have hq : n / B = q := by by_contra hq; have := hlow hq; omega
      rw [hq] at hdm
      exact ⟨hq, by omega⟩
    · rw [if_neg hN]
      exact ⟨fun h => absurd h.2.1 hN, fun h => by omega⟩

/-- A finite encoding's value: its significand at its exponent. -/
theorem Fmt.value_finite (he : 0 < f.eb) (h : f.unsign k ≤ f.maxEnc) : ∃ m e, f.value k = .fin (bitAt k (f.eb + f.fb)) m 1 e ∧
    (m : ℝ) * 2 ^ e = f.num (f.unsign k) := by
  have hs : ¬ f.special (f.unsign k) := by rw [Fmt.special_iff he]; omega
  have h1 : ¬ ((decide (f.unsign k / 2 ^ f.fb = 2 ^ f.eb - 1) && f.hasInf) = true) := fun h => by
    rw [Bool.and_eq_true, decide_eq_true_iff] at h
    exact hs ⟨h.1, .inl h.2⟩
  have h2 : ¬ ((decide (f.unsign k / 2 ^ f.fb = 2 ^ f.eb - 1) && f.hasNan && decide (f.unsign k % 2 ^ f.fb = 2 ^ f.fb - 1)) = true) :=
    fun h => by
      rw [Bool.and_eq_true, Bool.and_eq_true, decide_eq_true_iff, decide_eq_true_iff] at h
      exact hs ⟨h.1.1, .inr ⟨h.1.2, h.2⟩⟩
  have hmod := Nat.mod_lt (f.unsign k) (Nat.two_pow_pos f.fb)
  have hdm := Nat.div_add_mod' (f.unsign k) (2 ^ f.fb)
  unfold Fmt.value
  simp only [Fmt.exp_field, Fmt.frac_field]
  rw [if_neg h1, if_neg h2]
  split
  · next h0 =>
    refine ⟨_, _, rfl, ?_⟩
    rw [h0, Nat.zero_mul] at hdm
    rw [← f.num_enc (E := 0) (by rw [Nat.pow_succ]; omega) (.inl rfl) (by push_cast; ring), Nat.zero_mul, hdm]
  · next h0 =>
    refine ⟨_, _, rfl, ?_⟩
    obtain ⟨q, hq⟩ : ∃ q, f.unsign k / 2 ^ f.fb = q + 1 := ⟨_, (Nat.succ_pred_eq_of_ne_zero h0).symm⟩
    rw [hq, Nat.succ_mul] at hdm
    rw [hq, ← f.num_enc (E := q) (by rw [Nat.pow_succ]; omega) (.inr (by omega)) (by push_cast; ring)]
    congr 1
    omega

/-- A special encoding's value: an infinity where its fraction is 0, and else a NaN. -/
theorem Fmt.value_special (he : 0 < f.eb) (h : f.maxEnc < f.unsign k) :
    f.value k = if f.hasInf = true ∧ f.unsign k % 2 ^ f.fb = 0 then .inf (bitAt k (f.eb + f.fb))
      else .nan (f.hasInf && (!bitAt (f.unsign k % 2 ^ f.fb) (f.fb - 1) && decide (f ≠ e5m2))) := by
  obtain ⟨hq, hs⟩ := (Fmt.special_iff he).2 h
  unfold Fmt.value
  simp only [Fmt.exp_field, Fmt.frac_field]
  cases hi : f.hasInf
  · have hs' := hs.resolve_left (by rw [hi]; exact Bool.false_ne_true)
    simp only [hq, hs', Bool.and_false, Bool.and_true, Bool.false_and, decide_true, Bool.false_eq_true, false_and, if_false, if_true]
  · simp only [hq, Bool.and_true, Bool.true_and, decide_true, true_and, if_true]

theorem Fmt.value_notFinite (he : 0 < f.eb) (h : f.maxEnc < f.unsign k) : (f.value k).notFinite = true := by
  rw [Fmt.value_special he h]
  split <;> rfl

/-- The finite encodings. -/
theorem Fmt.notFinite_iff (he : 0 < f.eb) : (f.value k).notFinite = false ↔ f.unsign k ≤ f.maxEnc := by
  refine ⟨fun h => ?_, fun h => ?_⟩
  · by_contra hlt
    rw [Fmt.value_notFinite he (not_le.1 hlt)] at h
    cases h
  · obtain ⟨m, e, hv, -⟩ := Fmt.value_finite he h
    rw [hv]; rfl

theorem FV.real_fin_one (neg : Bool) (m : Nat) (e : Int) : (FV.fin neg m 1 e).real = (if neg then -1 else 1) * ((m : ℝ) * 2 ^ e) := by
  simp only [FV.real, Nat.cast_one, div_one, mul_assoc]

theorem Fmt.value_real (he : 0 < f.eb) (h : f.unsign k ≤ f.maxEnc) :
    (f.value k).real = (if bitAt k (f.eb + f.fb) then -1 else 1) * f.num (f.unsign k) := by
  obtain ⟨m, e, hv, hr⟩ := Fmt.value_finite he h
  rw [hv, FV.real_fin_one, hr]

theorem Fmt.value_neg (he : 0 < f.eb) (h : f.unsign k ≤ f.maxEnc) : (f.value k).neg = bitAt k (f.eb + f.fb) := by
  obtain ⟨m, e, hv, -⟩ := Fmt.value_finite he h
  rw [hv]; rfl

theorem Fmt.abs_value_real (he : 0 < f.eb) (h : f.unsign k ≤ f.maxEnc) : |(f.value k).real| = f.num (f.unsign k) := by
  rw [Fmt.value_real he h, abs_mul, abs_of_nonneg (f.num_nonneg _)]
  split <;> simp

/-! ## Encodings with a sign -/

theorem Fmt.unsign_signed {n : Nat} (hn : n < 2 ^ (f.eb + f.fb)) (neg : Bool) : f.unsign (f.signed neg n) = n := by
  unfold Fmt.unsign Fmt.signed
  split
  · rw [Nat.add_mod_right, Nat.mod_eq_of_lt hn]
  · exact Nat.mod_eq_of_lt hn

theorem Fmt.sign_signed {n : Nat} (hn : n < 2 ^ (f.eb + f.fb)) (neg : Bool) : bitAt (f.signed neg n) (f.eb + f.fb) = neg := by
  unfold bitAt Fmt.signed
  cases neg
  · exact Nat.testBit_lt_two_pow hn
  · rw [if_pos rfl, Nat.add_comm, Nat.testBit_two_pow_add_eq, Nat.testBit_lt_two_pow hn]; rfl

/-- An encoding from its sign and the rest. -/
theorem Fmt.signed_unsign (hk : k < 2 ^ f.width) : f.signed (bitAt k (f.eb + f.fb)) (f.unsign k) = k := by
  unfold Fmt.width at hk
  rw [show 1 + f.eb + f.fb = (f.eb + f.fb) + 1 by omega, Nat.pow_succ] at hk
  have hdm := Nat.div_add_mod' k (2 ^ (f.eb + f.fb))
  have hq : k / 2 ^ (f.eb + f.fb) < 2 := Nat.div_lt_of_lt_mul hk
  unfold Fmt.signed Fmt.unsign bitAt
  rw [Nat.testBit_eq_decide_div_mod_eq, Nat.mod_eq_of_lt hq]
  generalize k / 2 ^ (f.eb + f.fb) = q at *
  obtain rfl | rfl : q = 0 ∨ q = 1 := by omega
  · rw [if_neg (by decide)]; omega
  · rw [if_pos (by decide)]; omega

theorem Fmt.maxEnc_lt : f.maxEnc < 2 ^ (f.eb + f.fb) := by
  have hL : 0 < 2 ^ (f.eb + f.fb) := Nat.two_pow_pos _
  unfold Fmt.maxEnc
  split
  · rw [Nat.pow_add] at *
    have : (2 ^ f.eb - 1) * 2 ^ f.fb ≤ 2 ^ f.eb * 2 ^ f.fb := Nat.mul_le_mul_right _ (Nat.sub_le ..)
    omega
  · split <;> omega

end

end Sys2Proof.Machine
end

section
/-!
round_once of a magnitude (R121, R122): it lies between two neighbouring encodings, and the mode takes one of them.
-/
namespace Sys2Proof.Machine

/-- The mode takes the upper of the neighbours n and n + 1 of a magnitude v. -/
def upward (f : Fmt) (rm : Nat) (neg : Bool) (v : ℝ) (n : Nat) : Prop :=
  (rm = 0 ∧ (f.num n + f.num (n + 1) < 2 * v ∨ (2 * v = f.num n + f.num (n + 1) ∧ n % 2 = 1))) ∨
  (((rm = 2 ∧ neg = true) ∨ (rm = 3 ∧ neg = false)) ∧ v ≠ f.num n)

/-- The result of a rounding to an encoding without sign, with its flags (R122, R123). -/
def finish (f : Fmt) (rm : Nat) (sat neg inexact low : Bool) (enc : Nat) : Fl Nat :=
  let nx := if inexact then fNX else 0
  let uf := if inexact && low then fUF else 0
  if f.maxEnc < enc then ⟨overflow f rm neg sat, nx ||| uf ||| fOF ||| fNX⟩ else ⟨f.signed neg enc, nx ||| uf⟩

/-- r is the magnitude v, between the neighbours n and n + 1, rounded to the encoding n'. -/
structure RoundsTo (f : Fmt) (rm : Nat) (sat neg : Bool) (v : ℝ) (n n' : Nat) (r : Fl Nat) : Prop where
  below : f.num n ≤ v
  above : v < f.num (n + 1)
  up : upward f rm neg v n → n' = n + 1
  down : ¬ upward f rm neg v n → n' = n
  result : ∃ inexact low : Bool, (inexact = true ↔ v ≠ f.num n) ∧ (low = true ↔ v < 2 ^ (1 - (f.bias : Int))) ∧
    r = finish f rm sat neg inexact low n'

/-- r is the magnitude v rounded once. -/
def RoundsOnce (f : Fmt) (rm : Nat) (sat neg : Bool) (v : ℝ) (r : Fl Nat) : Prop := ∃ n n', RoundsTo f rm sat neg v n n' r

/-! ## From significands to encodings -/

/-- The decision of roundsUp, where ρ is the part of the last place that is left over. -/
theorem roundsUp_iff {rm : Nat} {neg sticky : Bool} {m rem half : Nat} {ρ : ℝ} (hrm : rm < 4)
    (hx : (rem ≠ 0 ∨ sticky = true) ↔ ρ ≠ 0)
    (hn : (half < rem ∨ rem = half ∧ half ≠ 0 ∧ (sticky = true ∨ m % 2 = 1)) ↔ (1 < 2 * ρ ∨ 2 * ρ = 1 ∧ m % 2 = 1)) :
    roundsUp rm neg m rem half sticky = true ↔
      (rm = 0 ∧ (1 < 2 * ρ ∨ 2 * ρ = 1 ∧ m % 2 = 1)) ∨ (((rm = 2 ∧ neg = true) ∨ (rm = 3 ∧ neg = false)) ∧ ρ ≠ 0) := by
  rw [← hx, ← hn]
  unfold roundsUp
  match rm, hrm with
  | 0, _ => simp [and_assoc]
  | 1, _ => simp
  | 2, _ => simp
  | 3, _ => simp

/-- A magnitude (m + ρ)·2^u, where m is a significand of the format at the scale 2^u, is rounded to m or to m + 1. -/
theorem roundsTo_of_significand {f : Fmt} {rm : Nat} {sat neg sticky low : Bool} {m rem half E : Nat} {u : Int} {ρ : ℝ} (hfb : 0 < f.fb)
    (hrm : rm < 4) (hm : m < 2 ^ (f.fb + 1)) (hE : E = 0 ∨ 2 ^ f.fb ≤ m) (hu : u = (E : Int) + (1 - (f.bias : Int) - (f.fb : Int)))
    (h0 : 0 ≤ ρ) (h1 : ρ < 1) (hx : (rem ≠ 0 ∨ sticky = true) ↔ ρ ≠ 0)
    (hn : (half < rem ∨ rem = half ∧ half ≠ 0 ∧ (sticky = true ∨ m % 2 = 1)) ↔ (1 < 2 * ρ ∨ 2 * ρ = 1 ∧ m % 2 = 1))
    (hlow : low = true ↔ (m + ρ) * 2 ^ u < (2 : ℝ) ^ (1 - (f.bias : Int))) :
    RoundsTo f rm sat neg ((m + ρ) * 2 ^ u) (E * 2 ^ f.fb + m)
      (E * 2 ^ f.fb + if roundsUp rm neg m rem half sticky then m + 1 else m)
      (finish f rm sat neg (decide (rem ≠ 0) || sticky) low (E * 2 ^ f.fb + if roundsUp rm neg m rem half sticky then m + 1 else m)) := by
  have hpos : (0 : ℝ) < 2 ^ u := zpow_pos (by norm_num) u
  have hlo : f.num (E * 2 ^ f.fb + m) = m * 2 ^ u := f.num_enc hm.le hE hu
  have hhi : f.num (E * 2 ^ f.fb + m + 1) = (m + 1) * 2 ^ u := by
    rw [Nat.add_assoc, f.num_enc hm (hE.imp_right fun h => by omega) hu]; push_cast; rfl
  have hodd : (E * 2 ^ f.fb + m) % 2 = m % 2 := by
    obtain ⟨b, hb⟩ : ∃ b, f.fb = b + 1 := ⟨f.fb - 1, by omega⟩
    rw [hb, Nat.pow_succ, ← Nat.mul_assoc]; omega
  have hne : (m + ρ) * 2 ^ u ≠ f.num (E * 2 ^ f.fb + m) ↔ ρ ≠ 0 := by
    rw [hlo, Ne, mul_left_inj' hpos.ne', add_eq_left]
  have hup : roundsUp rm neg m rem half sticky = true ↔ upward f rm neg ((m + ρ) * 2 ^ u) (E * 2 ^ f.fb + m) := by
    rw [roundsUp_iff hrm hx hn, upward, hne, hodd, hlo, hhi]
    have hl : m * 2 ^ u + (m + 1) * 2 ^ u < 2 * ((m + ρ) * 2 ^ u) ↔ 1 < 2 * ρ := by
      rw [← sub_pos, show 2 * ((m + ρ) * (2 : ℝ) ^ u) - (m * 2 ^ u + (m + 1) * 2 ^ u) = (2 * ρ - 1) * 2 ^ u by ring,
        mul_pos_iff_of_pos_right hpos, sub_pos]
    have he : 2 * ((m + ρ) * 2 ^ u) = m * 2 ^ u + (m + 1) * 2 ^ u ↔ 2 * ρ = 1 := by
      rw [← sub_eq_zero, show 2 * ((m + ρ) * (2 : ℝ) ^ u) - (m * 2 ^ u + (m + 1) * 2 ^ u) = (2 * ρ - 1) * 2 ^ u by ring,
        mul_eq_zero, or_iff_left hpos.ne', sub_eq_zero]
    rw [hl, he]
  refine ⟨?_, ?_, fun h => ?_, fun h => ?_, _, low, ?_, hlow, rfl⟩
  · rw [hlo]
    exact mul_le_mul_of_nonneg_right (by linarith) hpos.le
  · rw [hhi]
    exact mul_lt_mul_of_pos_right (by linarith) hpos
  · rw [if_pos (hup.2 h), Nat.add_assoc]
  · rw [if_neg fun h' => h (hup.1 h')]
  · rw [hne, Bool.or_eq_true, decide_eq_true_iff, hx]

/-! ## roundMag -/

theorem log2_bounds {q : Nat} (hq : 0 < q) : 2 ^ Nat.log2 q ≤ q ∧ q < 2 ^ (Nat.log2 q + 1) :=
  ⟨Nat.log2_self_le hq.ne', Nat.lt_log2_self⟩

/-- Where the magnitude lies below the smallest normal number. -/
theorem top_lt_iff {q : Nat} (hq : 0 < q) {δ : ℝ} (h0 : 0 ≤ δ) (h1 : δ < 1) (e k : Int) :
    (Nat.log2 q : Int) + e < k ↔ ((q : ℝ) + δ) * 2 ^ e < 2 ^ k := by
  obtain ⟨hl, hu⟩ := log2_bounds hq
  have hl' : (2 : ℝ) ^ (Nat.log2 q : Int) ≤ q := by rw [zpow_natCast]; exact_mod_cast hl
  have hu' : (q : ℝ) + 1 ≤ 2 ^ ((Nat.log2 q : Int) + 1) := by
    rw [← Nat.cast_one (R := Int), ← Nat.cast_add, zpow_natCast]; exact_mod_cast hu
  have hpos : (0 : ℝ) < 2 ^ e := zpow_pos (by norm_num) e
  constructor
  · intro h
    calc ((q : ℝ) + δ) * 2 ^ e < 2 ^ ((Nat.log2 q : Int) + 1) * 2 ^ e := mul_lt_mul_of_pos_right (by linarith) hpos
      _ = 2 ^ ((Nat.log2 q : Int) + 1 + e) := (zpow_add₀ (by norm_num) ..).symm
      _ ≤ 2 ^ k := zpow_le_zpow_right₀ (by norm_num) (by omega)
  · intro h
    by_contra hk
    have : (2 : ℝ) ^ k ≤ ((q : ℝ) + δ) * 2 ^ e :=
      calc (2 : ℝ) ^ k ≤ 2 ^ ((Nat.log2 q : Int) + e) := zpow_le_zpow_right₀ (by norm_num) (by omega)
        _ = 2 ^ (Nat.log2 q : Int) * 2 ^ e := zpow_add₀ (by norm_num) ..
        _ ≤ ((q : ℝ) + δ) * 2 ^ e := mul_le_mul_of_nonneg_right (by linarith) hpos.le
    linarith

/-- Whether r + δ stands above the half 2^k, or on it with an odd significand. -/
theorem half_iff {r k : Nat} {δ ρ : ℝ} (h0 : 0 ≤ δ) (h1 : δ < 1) {sticky : Bool} (hs : sticky = true ↔ δ ≠ 0) (m : Nat)
    (h2 : 2 * ρ * 2 ^ k = r + δ) :
    (2 ^ k < r ∨ r = 2 ^ k ∧ 2 ^ k ≠ 0 ∧ (sticky = true ∨ m % 2 = 1)) ↔ (1 < 2 * ρ ∨ 2 * ρ = 1 ∧ m % 2 = 1) := by
  have hP : (0 : ℝ) < 2 ^ k := by positivity
  have hk : (2 : ℝ) ^ k = ((2 ^ k : Nat) : ℝ) := by push_cast; rfl
  rcases lt_trichotomy r (2 ^ k) with hr | hr | hr
  · have : (r : ℝ) + 1 ≤ 2 ^ k := by rw [hk]; exact_mod_cast hr
    have hlt : 2 * ρ < 1 := by by_contra hc; nlinarith
    refine iff_of_false (fun h => ?_) (fun h => ?_)
    · rcases h with h | h
      · omega
      · omega
    · rcases h with h | h
      · linarith
      · linarith [h.1]
  · have hrk : (r : ℝ) = 2 ^ k := by rw [hr, hk]
    have hk0 : 2 ^ k ≠ 0 := (Nat.two_pow_pos k).ne'
    by_cases hd : δ = 0
    · have h1 : 2 * ρ = 1 := by
        rw [hd, add_zero, hrk] at h2
        exact (mul_eq_right₀ hP.ne').1 h2
      have hst : ¬ sticky = true := fun h => hs.1 h hd
      simp [hr, h1, hst]
    · have h1 : 1 < 2 * ρ := by
        have := lt_of_le_of_ne h0 (Ne.symm hd)
        by_contra hc
        nlinarith
      exact iff_of_true (.inr ⟨hr, hk0, .inl (hs.2 hd)⟩) (.inl h1)
  · have : (2 : ℝ) ^ k + 1 ≤ r := by rw [hk]; exact_mod_cast hr
    exact iff_of_true (.inl hr) (.inl (by by_contra hc; nlinarith))

/-- The part that a shift leaves over: it is nonzero, above one half or one half as roundsUp decides. -/
theorem shift_rest {q sh : Nat} (hsh : 0 < sh) {δ : ℝ} (h0 : 0 ≤ δ) (h1 : δ < 1) {sticky : Bool} (hs : sticky = true ↔ δ ≠ 0) (m : Nat) :
    let ρ := (((q % 2 ^ sh : Nat) : ℝ) + δ) / 2 ^ sh
    0 ≤ ρ ∧ ρ < 1 ∧ ((q % 2 ^ sh ≠ 0 ∨ sticky = true) ↔ ρ ≠ 0) ∧
    ((2 ^ (sh - 1) < q % 2 ^ sh ∨ q % 2 ^ sh = 2 ^ (sh - 1) ∧ 2 ^ (sh - 1) ≠ 0 ∧ (sticky = true ∨ m % 2 = 1)) ↔
      (1 < 2 * ρ ∨ 2 * ρ = 1 ∧ m % 2 = 1)) := by
  intro ρ
  obtain ⟨k, rfl⟩ : ∃ k, sh = k + 1 := ⟨sh - 1, by omega⟩
  have hP : (0 : ℝ) < 2 ^ k := by positivity
  have hlt := Nat.mod_lt q (Nat.two_pow_pos (k + 1))
  have hρ : ρ * (2 * 2 ^ k) = ((q % 2 ^ (k + 1) : Nat) : ℝ) + δ := by
    rw [← pow_succ']
    exact div_mul_cancel₀ _ (by positivity)
  rw [Nat.add_sub_cancel]
  clear_value ρ
  generalize q % 2 ^ (k + 1) = r at *
  have hr0 : (0 : ℝ) ≤ r := Nat.cast_nonneg r
  have hr1 : (r : ℝ) + 1 ≤ 2 * 2 ^ k := by rw [← pow_succ']; exact_mod_cast hlt
  have hz : ρ ≠ 0 ↔ ¬ ((r : ℝ) + δ = 0) := by
    rw [← hρ, mul_eq_zero, or_iff_left (by positivity)]
  refine ⟨by nlinarith, by nlinarith, ?_, ?_⟩
  · rw [hz, hs]
    have : (r : ℝ) = 0 ↔ r = 0 := Nat.cast_eq_zero
    refine ⟨fun h he => ?_, fun h => ?_⟩
    · exact h.elim (fun h => h (this.1 (by linarith))) fun h => h (by linarith)
    · by_contra hc
      rw [not_or, not_not, not_not] at hc
      exact h (by rw [this.2 hc.1, hc.2, add_zero])
  · exact half_iff h0 h1 hs m (by linarith)

/-- The bits that the last place keeps of q. -/
theorem significand_bounds {q fb : Nat} (hq : 0 < q) {sh : Nat} (h : Nat.log2 q ≤ fb + sh) :
    q / 2 ^ sh < 2 ^ (fb + 1) ∧ (Nat.log2 q = fb + sh → 2 ^ fb ≤ q / 2 ^ sh) := by
  obtain ⟨hl, hu⟩ := log2_bounds hq
  refine ⟨Nat.div_lt_of_lt_mul ?_, fun he => (Nat.le_div_iff_mul_le (Nat.two_pow_pos _)).2 ?_⟩
  · calc q < 2 ^ (Nat.log2 q + 1) := hu
      _ ≤ 2 ^ (sh + (fb + 1)) := Nat.pow_le_pow_right (by norm_num) (by omega)
      _ = 2 ^ sh * 2 ^ (fb + 1) := Nat.pow_add ..
  · rwa [← Nat.pow_add, ← he]

/-- A significand that is shifted up. -/
theorem shifted_bounds {q fb c : Nat} (hq : 0 < q) (h : Nat.log2 q + c ≤ fb) :
    q * 2 ^ c < 2 ^ (fb + 1) ∧ (Nat.log2 q + c = fb → 2 ^ fb ≤ q * 2 ^ c) := by
  obtain ⟨hl, hu⟩ := log2_bounds hq
  refine ⟨?_, fun he => ?_⟩
  · calc q * 2 ^ c < 2 ^ (Nat.log2 q + 1) * 2 ^ c := Nat.mul_lt_mul_of_pos_right hu (Nat.two_pow_pos c)
      _ = 2 ^ (Nat.log2 q + 1 + c) := (Nat.pow_add ..).symm
      _ ≤ 2 ^ (fb + 1) := Nat.pow_le_pow_right (by norm_num) (by omega)
  · rw [← he, Nat.pow_add]
    exact Nat.mul_le_mul_right _ hl

/-- round_once of the magnitude (q + δ)·2^e (R122). -/
theorem roundMag_roundsOnce {f : Fmt} {rm : Nat} {sat neg sticky : Bool} {q : Nat} {e : Int} {δ : ℝ} (hfb : 0 < f.fb) (hrm : rm < 4)
    (hq : 0 < q) (h0 : 0 ≤ δ) (h1 : δ < 1) (hs : sticky = true ↔ δ ≠ 0) (hbits : sticky = true → f.fb + 2 ≤ Nat.log2 q) :
    RoundsOnce f rm sat neg ((q + δ) * 2 ^ e) (roundMag f rm sat neg q e sticky) := by
  have hlow := top_lt_iff hq h0 h1 e (1 - (f.bias : Int))
  unfold roundMag
  dsimp only
  generalize hulp : max ((Nat.log2 q : Int) + e - (f.fb : Int)) (1 - (f.bias : Int) - (f.fb : Int)) = u
  obtain ⟨E, hE⟩ : ∃ E : Nat, u = (E : Int) + (1 - (f.bias : Int) - (f.fb : Int)) :=
    ⟨(u - (1 - (f.bias : Int) - (f.fb : Int))).toNat, by omega⟩
  have henc : ∀ m : Nat, (if u = 1 - (f.bias : Int) - (f.fb : Int) then m
      else ((u - (1 - (f.bias : Int) - (f.fb : Int))).toNat <<< f.fb) + m) = E * 2 ^ f.fb + m := fun m => by
    rw [Nat.shiftLeft_eq, show (u - (1 - (f.bias : Int) - (f.fb : Int))).toNat = E by omega]
    split
    · rw [show E = 0 by omega, Nat.zero_mul, Nat.zero_add]
    · rfl
  rw [henc]
  by_cases hc : u ≤ e
  · have hst : sticky = false := Bool.eq_false_iff.2 fun h => by have := hbits h; omega
    have hδ : δ = 0 := by
      by_contra h
      exact absurd (hs.2 h) (by rw [hst]; exact Bool.false_ne_true)
    obtain ⟨c, hc'⟩ : ∃ c : Nat, e = u + c := ⟨(e - u).toNat, by omega⟩
    obtain ⟨hm, hm'⟩ := shifted_bounds (fb := f.fb) hq (c := c) (by omega)
    have hEm : E = 0 ∨ 2 ^ f.fb ≤ q * 2 ^ c := or_iff_not_imp_left.2 fun h => hm' (by omega)
    have hv : ((q : ℝ) + δ) * 2 ^ e = (((q * 2 ^ c : Nat) : ℝ) + 0) * 2 ^ u := by
      rw [hc', zpow_add₀ (by norm_num), zpow_natCast, hδ]; push_cast; ring
    rw [show (e - u).toNat = c by omega]
    simp only [if_pos hc]
    rw [hv] at hlow ⊢
    exact ⟨_, _, roundsTo_of_significand hfb hrm hm hEm hE le_rfl one_pos (by simp [hst]) (by simp [hst])
      (decide_eq_true_iff.trans hlow)⟩
  · obtain ⟨sh, hsh, hu'⟩ : ∃ sh : Nat, 0 < sh ∧ u = e + sh := ⟨(u - e).toNat, by omega, by omega⟩
    obtain ⟨hm, hm'⟩ := significand_bounds (fb := f.fb) hq (sh := sh) (by omega)
    obtain ⟨r0, r1, r2, r3⟩ := shift_rest hsh h0 h1 hs (q := q) (q / 2 ^ sh)
    have hEm : E = 0 ∨ 2 ^ f.fb ≤ q / 2 ^ sh := or_iff_not_imp_left.2 fun h => hm' (by omega)
    have hv : ((q : ℝ) + δ) * 2 ^ e = (((q / 2 ^ sh : Nat) : ℝ) + (((q % 2 ^ sh : Nat) : ℝ) + δ) / 2 ^ sh) * 2 ^ u := by
      have hq' : (q : ℝ) = ((q / 2 ^ sh : Nat) : ℝ) * 2 ^ sh + ((q % 2 ^ sh : Nat) : ℝ) := by
        exact_mod_cast (Nat.div_add_mod' q (2 ^ sh)).symm
      rw [hu', zpow_add₀ (by norm_num), zpow_natCast]
      generalize ((q / 2 ^ sh : Nat) : ℝ) = a at *
      generalize ((q % 2 ^ sh : Nat) : ℝ) = r at *
      rw [hq']
      field_simp
      ring
    rw [show (u - e).toNat = sh by omega, Nat.shiftRight_eq_div_pow]
    simp only [if_neg hc]
    rw [hv] at hlow ⊢
    exact ⟨_, _, roundsTo_of_significand hfb hrm hm hEm hE r0 r1 r2 r3 (decide_eq_true_iff.trans hlow)⟩

end Sys2Proof.Machine
end

section
/-!
round_once as Rounded states it: what the chosen neighbour is among all numbers of the format, and where it overflows.
-/
namespace Sys2Proof.Machine

/-! ## The eight formats -/

/-- What the proofs use of a format. -/
structure Fmt.Known (f : Fmt) : Prop where
  exp : 0 < f.eb
  frac : 0 < f.fb
  inner : f.maxEnc % 2 ^ f.fb ≠ 0
  normal : 2 ^ f.fb ≤ f.maxEnc
  noNan : f.hasNan = false ↔ f = e3m2 ∨ f = e2m1

theorem Fmt.known {f : Fmt} (h : f ∈ allFmts) : f.Known := by
  have hall : ∀ f ∈ allFmts, 0 < f.eb ∧ 0 < f.fb ∧ f.maxEnc % 2 ^ f.fb ≠ 0 ∧ 2 ^ f.fb ≤ f.maxEnc ∧
    (f.hasNan = false ↔ f = e3m2 ∨ f = e2m1) := by decide
  obtain ⟨h1, h2, h3, h4, h5⟩ := hall f h
  exact ⟨h1, h2, h3, h4, h5⟩

/-! ## The chosen neighbour -/

/-- w is a number of the format's magnitudes, with a sign. -/
def Fmt.IsNum (f : Fmt) (w : ℝ) : Prop := ∃ j, w = f.num j ∨ w = -f.num j

theorem Fmt.IsNum.neg {f : Fmt} {w : ℝ} (h : f.IsNum w) : f.IsNum (-w) := by
  obtain ⟨j, rfl | rfl⟩ := h
  · exact ⟨j, .inr rfl⟩
  · exact ⟨j, .inl (neg_neg _)⟩

theorem Fmt.IsNum.abs {f : Fmt} {w : ℝ} (h : f.IsNum w) : f.IsNum |w| := by
  rcases abs_choice w with hw | hw <;> rw [hw]
  · exact h
  · exact h.neg

section
variable {f : Fmt} {rm : Nat} {sat neg : Bool} {v : ℝ} {n n' : Nat} {r : Fl Nat}

theorem upward_ne (h : v < f.num (n + 1)) (hu : upward f rm neg v n) : v ≠ f.num n := by
  rintro rfl
  rcases hu with ⟨-, hu | ⟨hu, -⟩⟩ | ⟨-, hu⟩
  · linarith
  · linarith
  · exact hu rfl

theorem RoundsTo.eq_or (h : RoundsTo f rm sat neg v n n' r) : n' = n ∨ n' = n + 1 := by
  by_cases hu : upward f rm neg v n
  · exact .inr (h.up hu)
  · exact .inl (h.down hu)

/-- The result is the number itself only where it is the lower neighbour. -/
theorem RoundsTo.exact_iff (h : RoundsTo f rm sat neg v n n' r) : v = f.num n' ↔ v = f.num n := by
  refine ⟨fun he => ?_, fun he => ?_⟩
  · obtain rfl | rfl := h.eq_or
    · exact he
    · exact absurd h.above (by rw [← he]; exact lt_irrefl _)
  · rw [h.down fun hu => upward_ne h.above hu he]; exact he

/-- No number lies between neighbours. -/
theorem Fmt.IsNum.le_or_ge {w : ℝ} (hw : f.IsNum w) (n : Nat) : w ≤ f.num n ∨ f.num (n + 1) ≤ w := by
  obtain ⟨j, rfl | rfl⟩ := hw
  · exact (le_or_gt j n).imp (f.num_strictMono.le_iff_le.2 ·) (f.num_strictMono.le_iff_le.2 ·)
  · left
    have := f.num_nonneg j
    have := f.num_nonneg n
    linarith

/-- The modes that cut off. -/
def cuts (rm : Nat) (neg : Bool) : Prop := rm = 1 ∨ (rm = 2 ∧ neg = false) ∨ (rm = 3 ∧ neg = true)

/-- The modes that take the upper neighbour. -/
def raises (rm : Nat) (neg : Bool) : Prop := (rm = 2 ∧ neg = true) ∨ (rm = 3 ∧ neg = false)

theorem RoundsTo.cut (h : RoundsTo f rm sat neg v n n' r) (hc : cuts rm neg) :
    f.num n' ≤ v ∧ ∀ w, f.IsNum w → w ≤ v → w ≤ f.num n' := by
  have hu : ¬ upward f rm neg v n := by
    rintro (⟨rfl, -⟩ | ⟨h, -⟩)
    · rcases hc with h | ⟨h, -⟩ | ⟨h, -⟩ <;> cases h
    · rcases hc with rfl | ⟨rfl, rfl⟩ | ⟨rfl, rfl⟩ <;> simp at h
  obtain rfl := h.down hu
  exact ⟨h.below, fun w hw hwv => (hw.le_or_ge _).resolve_right fun hge => absurd h.above (by linarith)⟩

theorem RoundsTo.raise (h : RoundsTo f rm sat neg v n n' r) (hc : raises rm neg) :
    v ≤ f.num n' ∧ ∀ w, f.IsNum w → v ≤ w → f.num n' ≤ w := by
  by_cases he : v = f.num n
  · rw [← h.exact_iff] at he
    exact ⟨he.le, fun w _ hw => he ▸ hw⟩
  · obtain rfl := h.up (.inr ⟨hc, he⟩)
    have hlt := lt_of_le_of_ne h.below (Ne.symm he)
    exact ⟨h.above.le, fun w hw hvw => (hw.le_or_ge n).resolve_left fun hle => absurd hlt (by linarith)⟩

/-- Under RNE the result is the nearest number, and even where another is as near. -/
theorem RoundsTo.nearest (h : RoundsTo f 0 sat neg v n n' r) {w : ℝ} (hw : f.IsNum w) :
    |v - f.num n'| ≤ |v - w| ∧ (|v - f.num n'| = |v - w| → w ≠ f.num n' → n' % 2 = 0) := by
  have hb := h.below
  have ha := h.above
  have hside := hw.le_or_ge n
  by_cases hu : upward f 0 neg v n
  · obtain rfl := h.up hu
    have hmid : f.num n + f.num (n + 1) ≤ 2 * v := by
      rcases hu with ⟨-, hu | ⟨hu, -⟩⟩ | ⟨hu, -⟩
      · exact hu.le
      · exact hu.ge
      · simp at hu
    rw [abs_of_nonpos (show v - f.num (n + 1) ≤ 0 by linarith)]
    rcases hside with hs | hs
    · rw [abs_of_nonneg (by linarith)]
      refine ⟨by linarith, fun he _ => ?_⟩
      rcases hu with ⟨-, hu | ⟨-, hu⟩⟩ | ⟨hu, -⟩
      · linarith
      · omega
      · simp at hu
    · rw [abs_of_nonpos (by linarith)]
      exact ⟨by linarith, fun he hne => absurd (by linarith) hne⟩
  · obtain rfl := h.down hu
    have hmid : 2 * v ≤ f.num n' + f.num (n' + 1) := not_lt.1 fun hlt => hu (.inl ⟨rfl, .inl hlt⟩)
    rw [abs_of_nonneg (show 0 ≤ v - f.num n' by linarith)]
    rcases hside with hs | hs
    · rw [abs_of_nonneg (by linarith)]
      exact ⟨by linarith, fun he hne => absurd (by linarith) hne⟩
    · rw [abs_of_nonpos (by linarith)]
      refine ⟨by linarith, fun he _ => ?_⟩
      by_contra hodd
      exact hu (.inl ⟨rfl, .inr ⟨by linarith, by omega⟩⟩)

/-! ## Overflow -/

/-- The magnitude v overflows, where T is the largest number and u its distance to the one before (R122). -/
def overflows (rm : Nat) (neg : Bool) (T u v : ℝ) (odd : Prop) : Prop :=
  T < v ∧ (raises rm neg ∨ T + u ≤ v ∨ (rm = 0 ∧ (T + u / 2 < v ∨ (v = T + u / 2 ∧ odd))))

/-- An encoding above the largest number's is chosen exactly where the magnitude overflows. -/
theorem RoundsTo.overflow_iff (h : RoundsTo f rm sat neg v n n' r) (hk : f.Known) :
    f.maxEnc < n' ↔ overflows rm neg (f.num f.maxEnc) (f.num f.maxEnc - f.num (f.maxEnc - 1)) v (f.maxEnc % 2 = 1) := by
  have hgap : f.num (f.maxEnc + 1) = f.num f.maxEnc + (f.num f.maxEnc - f.num (f.maxEnc - 1)) := by
    have hM : 0 < f.maxEnc := lt_of_lt_of_le (Nat.two_pow_pos _) hk.normal
    obtain ⟨m, hm⟩ : ∃ m, f.maxEnc = m + 1 := ⟨f.maxEnc - 1, by omega⟩
    have hi := hk.inner
    rw [hm] at hi ⊢
    have := f.num_gap_eq hi
    rw [Nat.add_sub_cancel]
    linarith
  have hb := h.below
  have ha := h.above
  have hmono := f.num_strictMono
  have hstep : f.num f.maxEnc < f.num (f.maxEnc + 1) := hmono (Nat.lt_succ_self _)
  generalize f.num f.maxEnc - f.num (f.maxEnc - 1) = u at *
  unfold overflows
  rcases lt_trichotomy n f.maxEnc with hn | hn | hn
  · have hle : f.num (n + 1) ≤ f.num f.maxEnc := hmono.monotone hn
    have := h.eq_or
    exact iff_of_false (by omega) (fun ho => by linarith [ho.1])
  · rw [hn] at hb ha
    have hup : f.maxEnc < n' ↔ upward f rm neg v f.maxEnc := by
      rw [← hn]
      refine ⟨fun hlt => ?_, fun hu => by have := h.up hu; omega⟩
      by_contra hu
      have := h.down hu
      omega
    have hlt : ¬ f.num f.maxEnc + u ≤ v := by rw [← hgap]; exact not_le.2 ha
    have hm1 : f.num f.maxEnc + f.num (f.maxEnc + 1) < 2 * v ↔ f.num f.maxEnc + u / 2 < v := by
      rw [hgap]; constructor <;> intro <;> linarith
    have hm2 : 2 * v = f.num f.maxEnc + f.num (f.maxEnc + 1) ↔ v = f.num f.maxEnc + u / 2 := by
      rw [hgap]; constructor <;> intro <;> linarith
    rw [hup, or_iff_right hlt, ← hm1, ← hm2]
    refine ⟨fun hu => ⟨lt_of_le_of_ne hb (Ne.symm (upward_ne ha hu)), hu.symm.imp_left And.left⟩, fun ⟨hT, ho⟩ => ?_⟩
    exact ho.symm.imp_right fun hr => ⟨hr, hT.ne'⟩
  · have hle : f.num (f.maxEnc + 1) ≤ f.num n := hmono.monotone hn
    have := h.eq_or
    exact iff_of_true (by omega) ⟨by linarith, .inr (.inl (by linarith))⟩

end

/-! ## Rounded -/

/-- A number with the sign neg. -/
noncomputable def withSign (neg : Bool) (v : ℝ) : ℝ := if neg then -v else v

theorem eq_withSign {x : ℝ} {neg : Bool} (hneg : neg = true ↔ x < 0) : x = withSign neg |x| := by
  unfold withSign
  split
  · next h => rw [abs_of_neg (hneg.1 h), neg_neg]
  · next h => rw [abs_of_nonneg (not_lt.1 fun hx => h (hneg.2 hx))]

theorem abs_withSign (neg : Bool) (v : ℝ) : |withSign neg v| = |v| := by
  unfold withSign
  split
  · exact abs_neg v
  · rfl

theorem withSign_sub (neg : Bool) (v w : ℝ) : withSign neg v - withSign neg w = withSign neg (v - w) := by
  unfold withSign
  split <;> ring

theorem withSign_withSign (neg : Bool) (v : ℝ) : withSign neg (withSign neg v) = v := by
  cases neg <;> simp [withSign]

theorem Fmt.isNum_real {f : Fmt} (he : 0 < f.eb) {k : Nat} (h : (f.value k).notFinite = false) : f.IsNum (f.value k).real := by
  rw [Fmt.value_real he ((Fmt.notFinite_iff he).1 h)]
  refine ⟨f.unsign k, ?_⟩
  split
  · exact .inr (by ring)
  · exact .inl (by ring)

theorem Fmt.IsNum.withSign {f : Fmt} {w : ℝ} (h : f.IsNum w) (neg : Bool) : f.IsNum (withSign neg w) := by
  cases neg
  · exact h
  · exact h.neg

theorem Fmt.value_signed {f : Fmt} (hk : f.Known) {n : Nat} (hn : n ≤ f.maxEnc) (neg : Bool) :
    (f.value (f.signed neg n)).notFinite = false ∧ (f.value (f.signed neg n)).neg = neg ∧
      (f.value (f.signed neg n)).real = withSign neg (f.num n) := by
  have hlt : n < 2 ^ (f.eb + f.fb) := lt_of_le_of_lt hn Fmt.maxEnc_lt
  have hu : f.unsign (f.signed neg n) ≤ f.maxEnc := by rwa [Fmt.unsign_signed hlt]
  refine ⟨(Fmt.notFinite_iff hk.exp).2 hu, ?_, ?_⟩
  · rw [Fmt.value_neg hk.exp hu, Fmt.sign_signed hlt]
  · rw [Fmt.value_real hk.exp hu, Fmt.sign_signed hlt, Fmt.unsign_signed hlt]
    cases neg <;> simp [withSign]

theorem Fmt.real_value {f : Fmt} (hk : f.Known) {n : Nat} (hn : n ≤ f.maxEnc) : (f.value n).real = f.num n :=
  (f.value_signed hk hn false).2.2

/-- The overflow's result (R123). -/
theorem finish_overflow {f : Fmt} (hk : f.Known) {rm : Nat} {sat neg inexact low : Bool} {enc : Nat} (h : f.maxEnc < enc)
    (hlow : low = false) : (finish f rm sat neg inexact low enc).fl = fOF ||| fNX ∧
      (finish f rm sat neg inexact low enc).val =
        if sat = true ∨ f = e3m2 ∨ f = e2m1 ∨ rm = 1 ∨ (rm = 2 ∧ neg = false) ∨ (rm = 3 ∧ neg = true) then f.signed neg f.maxEnc
        else if f.hasInf then f.signed neg f.infEnc else f.nan := by
  have hf : finish f rm sat neg inexact low enc = ⟨overflow f rm neg sat, (if inexact then fNX else 0) ||| 0 ||| fOF ||| fNX⟩ := by
    unfold finish
    simp only [hlow, Bool.and_false, Bool.false_eq_true, if_false, if_pos h]
  rw [hf]
  refine ⟨by cases inexact <;> rfl, ?_⟩
  dsimp only
  unfold overflow
  have hn := hk.noNan
  by_cases hs : sat = true ∨ f = e3m2 ∨ f = e2m1
  · rw [if_pos (by rw [Bool.or_eq_true, Bool.not_eq_true', hn]; exact hs), if_pos (by tauto)]
  · rw [if_neg (by rw [Bool.or_eq_true, Bool.not_eq_true', hn]; exact hs)]
    by_cases ht : rm = 1 ∨ (rm = 2 ∧ neg = false) ∨ (rm = 3 ∧ neg = true)
    · rw [if_pos (by simpa [or_assoc] using ht), if_pos (by tauto)]
    · rw [if_neg (by simpa [or_assoc] using ht)]
      exact (if_neg (by tauto)).symm

theorem Fmt.signed_mod_two {f : Fmt} (he : 0 < f.eb) (neg : Bool) (n : Nat) : f.signed neg n % 2 = n % 2 := by
  obtain ⟨k, hk⟩ : ∃ k, f.eb + f.fb = k + 1 := ⟨f.eb + f.fb - 1, by omega⟩
  unfold Fmt.signed
  rw [hk, Nat.pow_succ]
  split <;> omega

section
variable {f : Fmt} {rm : Nat} {sat neg : Bool} {v : ℝ} {n n' : Nat} {r : Fl Nat}

/-- The directed modes, with the sign back in place. -/
theorem RoundsTo.directed (h : RoundsTo f rm sat neg v n n' r) :
    let x := withSign neg v
    let y := withSign neg (f.num n')
    (rm = 2 → y ≤ x ∧ ∀ w, f.IsNum w → w ≤ x → w ≤ y) ∧ (rm = 3 → x ≤ y ∧ ∀ w, f.IsNum w → x ≤ w → y ≤ w) := by
  cases neg
  · exact ⟨fun hr => h.cut (.inr (.inl ⟨hr, rfl⟩)), fun hr => h.raise (.inr ⟨hr, rfl⟩)⟩
  · refine ⟨fun hr => ?_, fun hr => ?_⟩
    · obtain ⟨h1, h2⟩ := h.raise (.inl ⟨hr, rfl⟩)
      exact ⟨neg_le_neg h1, fun w hw hwx => le_neg_of_le_neg (h2 _ hw.neg (le_neg_of_le_neg hwx))⟩
    · obtain ⟨h1, h2⟩ := h.cut (.inr (.inr ⟨hr, rfl⟩))
      exact ⟨neg_le_neg h1, fun w hw hwx => neg_le_of_neg_le (h2 _ hw.neg (neg_le_of_neg_le hwx))⟩

/-- The nearest number, with the sign back in place. -/
theorem RoundsTo.nearest_signed (h : RoundsTo f 0 sat neg v n n' r) {w : ℝ} (hw : f.IsNum w) :
    let x := withSign neg v
    let y := withSign neg (f.num n')
    |x - y| ≤ |x - w| ∧ (|x - y| = |x - w| → w ≠ y → n' % 2 = 0) := by
  intro x y
  obtain ⟨h1, h2⟩ := h.nearest (hw.withSign neg)
  have hy : |x - y| = |v - f.num n'| := by rw [withSign_sub, abs_withSign]
  have hz : |x - w| = |v - withSign neg w| := by
    rw [← withSign_withSign neg w, withSign_sub, abs_withSign, withSign_withSign]
  rw [hy, hz]
  exact ⟨h1, fun he hne => h2 he fun hww => hne (by rw [← withSign_withSign neg w, hww])⟩

/-- A magnitude that overflows is not below the normal numbers. -/
theorem not_low_of_overflows {T u : ℝ} {odd : Prop} (hk : f.Known) (h : overflows rm neg T u v odd) (hT : T = f.num f.maxEnc) :
    ¬ v < 2 ^ (1 - (f.bias : Int)) := by
  have h1 := h.1
  have h2 := f.num_strictMono.monotone hk.normal
  rw [f.num_normal] at h2
  rw [hT] at h1
  linarith

end

/-- A rounding to one of the neighbours is the rounding of R121 to R123. -/
theorem rounded_of_roundsOnce {f : Fmt} (hf : f ∈ allFmts) {rm : Nat} {sat neg : Bool} {x : ℝ} {r : Fl Nat} (hx : x ≠ 0)
    (hneg : neg = true ↔ x < 0) (h : RoundsOnce f rm sat neg |x| r) : Rounded f rm sat x r := by
  have hk := Fmt.known hf
  obtain ⟨n, n', h⟩ := h
  obtain ⟨inexact, low, hin, hlow, rfl⟩ := h.result
  have hpos : 0 < |x| := abs_pos.2 hx
  have hneg' : neg = false ↔ 0 < x := by
    rw [← Bool.not_eq_true, hneg, not_lt]
    exact ⟨fun hle => lt_of_le_of_ne hle (Ne.symm hx), le_of_lt⟩
  have hraise : ((rm = 2 ∧ x < 0) ∨ (rm = 3 ∧ 0 < x)) ↔ raises rm neg := by unfold raises; rw [hneg, hneg']
  have hover := h.overflow_iff hk
  have htop : (f.value f.maxEnc).real = f.num f.maxEnc := f.real_value hk le_rfl
  have htop' : (f.value (f.maxEnc - 1)).real = f.num (f.maxEnc - 1) := f.real_value hk (Nat.sub_le ..)
  unfold Rounded
  dsimp only
  rw [hraise, htop, htop']
  change (overflows rm neg _ _ _ _ → _) ∧ (¬ overflows rm neg _ _ _ _ → _)
  rw [← hover]
  refine ⟨fun ho => ?_, fun ho => ?_⟩
  · have hl : low = false := Bool.eq_false_iff.2 fun hl => not_low_of_overflows hk (hover.1 ho) rfl (hlow.1 hl)
    obtain ⟨hfl, hval⟩ := finish_overflow (rm := rm) (sat := sat) (neg := neg) (inexact := inexact) hk ho hl
    refine ⟨hfl, fun s hs => ?_⟩
    obtain rfl : s = neg := Bool.eq_iff_iff.2 (hs.trans hneg.symm)
    rw [hval, ← hneg, ← hneg']
    exact ⟨fun ht => if_pos ht, fun ht => if_neg ht⟩
  · have hres : finish f rm sat neg inexact low n' =
        ⟨f.signed neg n', (if inexact then fNX else 0) ||| (if inexact && low then fUF else 0)⟩ := if_neg ho
    rw [hres]
    obtain ⟨hfin, hsg, hval⟩ := f.value_signed hk (not_lt.1 ho) neg
    dsimp only
    rw [hval, hsg]
    have hxs : x = withSign neg |x| := eq_withSign hneg
    have hxy : withSign neg (f.num n') = x ↔ ¬ inexact = true := by
      rw [hin, not_not, ← h.exact_iff]
      refine ⟨fun he => ?_, fun he => by rw [← he, ← hxs]⟩
      rw [← he, abs_withSign, abs_of_nonneg (f.num_nonneg _)]
    refine ⟨hfin, hneg, fun he => ?_, fun he hge => ?_, fun he hlt => ?_, fun hr => ?_, fun hr => ?_, fun hr => ?_, fun k hkf => ?_⟩
    · simp [Bool.eq_false_iff.2 (hxy.1 he)]
    · rw [not_not.1 (mt hxy.2 he), Bool.eq_false_iff.2 fun hl => absurd (hlow.1 hl) (not_lt.2 hge)]; rfl
    · rw [not_not.1 (mt hxy.2 he), hlow.2 hlt]; rfl
    · rw [abs_withSign, abs_of_nonneg (f.num_nonneg _)]
      exact (h.cut (.inl hr)).1
    · have := (h.directed.1 hr).1
      rwa [← hxs] at this
    · have := (h.directed.2 hr).1
      rwa [← hxs] at this
    · have hw := Fmt.isNum_real hk.exp hkf
      generalize (f.value k).real = w at hw
      refine ⟨fun hr => ?_, fun hr => ?_, fun hr => ?_, fun hr => ?_⟩
      · subst hr
        have := h.nearest_signed hw
        rwa [← hxs, ← Fmt.signed_mod_two hk.exp neg n'] at this
      · rw [abs_withSign, abs_of_nonneg (f.num_nonneg _)]
        exact (h.cut (.inl hr)).2 _ hw.abs
      · have := (h.directed.1 hr).2 w hw
        rwa [← hxs] at this
      · have := (h.directed.2 hr).2 w hw
        rwa [← hxs] at this

end Sys2Proof.Machine
end

section
/-!
round_once of an exact value, of a square root (R81, R122), and the rounding to an integer (R83).
-/
namespace Sys2Proof.Machine

/-! ## Quotients -/

/-- A quotient in the reals: its floor and what is left over. -/
theorem cast_div_add (n : Nat) {d : Nat} (hd : d ≠ 0) :
    (n : ℝ) / d = ((n / d : Nat) : ℝ) + ((n % d : Nat) : ℝ) / d ∧ 0 ≤ ((n % d : Nat) : ℝ) / d ∧ ((n % d : Nat) : ℝ) / d < 1 := by
  have hd' : (0 : ℝ) < d := by exact_mod_cast Nat.pos_of_ne_zero hd
  refine ⟨?_, by positivity, ?_⟩
  · have h : (n : ℝ) = ((n / d : Nat) : ℝ) * d + ((n % d : Nat) : ℝ) := by exact_mod_cast (Nat.div_add_mod' n d).symm
    conv_lhs => rw [h]
    field_simp
  · rw [div_lt_one hd']
    exact_mod_cast Nat.mod_lt n (Nat.pos_of_ne_zero hd)

/-- The magnitude of a finite value. -/
theorem FV.abs_real (neg : Bool) (num den : Nat) (e : Int) : |(FV.fin neg num den e).real| = (num : ℝ) / den * 2 ^ e := by
  have h0 : (0 : ℝ) ≤ (num : ℝ) / den * 2 ^ e := by positivity
  unfold FV.real
  cases neg
  · simp only [Bool.false_eq_true, if_false, one_mul, abs_of_nonneg h0]
  · simp only [if_true, neg_mul, one_mul, abs_neg, abs_of_nonneg h0]

/-- The scaled quotient of roundOnce keeps enough bits. -/
theorem log2_scaled_div {num den fb : Nat} (hn : num ≠ 0) (hd : den ≠ 0) :
    fb + 5 ≤ Nat.log2 (num * 2 ^ (fb + 6 + Nat.log2 den - Nat.log2 num) / den) := by
  have hpow : 2 ^ (fb + 5) * den ≤ num * 2 ^ (fb + 6 + Nat.log2 den - Nat.log2 num) :=
    calc 2 ^ (fb + 5) * den ≤ 2 ^ (fb + 5) * 2 ^ (Nat.log2 den + 1) := Nat.mul_le_mul_left _ Nat.lt_log2_self.le
      _ = 2 ^ (fb + 6 + Nat.log2 den) := by rw [← Nat.pow_add]; congr 1; omega
      _ ≤ 2 ^ (Nat.log2 num + (fb + 6 + Nat.log2 den - Nat.log2 num)) := Nat.pow_le_pow_right (by norm_num) (by omega)
      _ = 2 ^ Nat.log2 num * 2 ^ (fb + 6 + Nat.log2 den - Nat.log2 num) := Nat.pow_add ..
      _ ≤ _ := Nat.mul_le_mul_right _ (Nat.log2_self_le hn)
  have hq : 2 ^ (fb + 5) ≤ num * 2 ^ (fb + 6 + Nat.log2 den - Nat.log2 num) / den :=
    (Nat.le_div_iff_mul_le (Nat.pos_of_ne_zero hd)).2 hpow
  exact (Nat.le_log2 (by have := Nat.two_pow_pos (fb + 5); omega)).2 hq

/-- roundOnce of a number that is not zero. -/
theorem roundOnce_roundsOnce {f : Fmt} {rm num den : Nat} {sat neg : Bool} {e : Int} (hfb : 0 < f.fb) (hrm : rm < 4) (hn : num ≠ 0)
    (hd : den ≠ 0) : RoundsOnce f rm sat neg |(FV.fin neg num den e).real| (roundOnce f rm sat (.fin neg num den e)) := by
  rw [FV.abs_real]
  unfold roundOnce
  simp only [if_neg hn, if_neg hd, Nat.shiftLeft_eq]
  generalize hk : (if den = 1 then 0 else f.fb + 6 + Nat.log2 den - Nat.log2 num) = k
  obtain ⟨hdiv, h0, h1⟩ := cast_div_add (num * 2 ^ k) hd
  have hbits : den ≠ 1 → f.fb + 5 ≤ Nat.log2 (num * 2 ^ k / den) := fun h => by
    rw [← hk, if_neg h]
    exact log2_scaled_div hn hd
  have hq : 0 < num * 2 ^ k / den := by
    by_cases h : den = 1
    · rw [h, Nat.div_one]
      exact Nat.mul_pos (Nat.pos_of_ne_zero hn) (Nat.two_pow_pos k)
    · by_contra hz
      have := hbits h
      rw [Nat.eq_zero_of_not_pos hz, Nat.log2_zero] at this
      omega
  have hv : (num : ℝ) / den * 2 ^ e = (((num * 2 ^ k / den : Nat) : ℝ) + ((num * 2 ^ k % den : Nat) : ℝ) / den) * 2 ^ (e - (k : Int)) := by
    rw [← hdiv, zpow_sub₀ (by norm_num), zpow_natCast]
    push_cast
    field_simp
  rw [hv]
  refine roundMag_roundsOnce hfb hrm hq h0 h1 ?_ fun hs => ?_
  · rw [decide_eq_true_iff, Ne, Ne, div_eq_zero_iff, or_iff_left (Nat.cast_ne_zero.2 hd), Nat.cast_eq_zero]
  · have hd1 : den ≠ 1 := by
      rintro rfl
      simp [Nat.mod_one] at hs
    have := hbits hd1
    omega

/-- A number of the format is rounded to itself, with no flag. -/
theorem RoundsOnce.exact {f : Fmt} {rm j : Nat} {sat neg : Bool} {r : Fl Nat} (h : RoundsOnce f rm sat neg (f.num j) r)
    (hj : j ≤ f.maxEnc) : r = ⟨f.signed neg j, 0⟩ := by
  obtain ⟨n, n', h⟩ := h
  have hle := f.num_strictMono.le_iff_le.1 h.below
  have hlt := f.num_strictMono.lt_iff_lt.1 h.above
  obtain rfl : j = n := by omega
  obtain rfl : n' = j := h.down fun hu => upward_ne h.above hu rfl
  obtain ⟨inexact, low, hin, -, rfl⟩ := h.result
  have hi : inexact = false := Bool.eq_false_iff.2 fun hi => hin.1 hi rfl
  unfold finish
  simp [hi, not_lt.2 hj]

theorem FV.real_neg_iff {neg : Bool} {num den : Nat} {e : Int} (hn : num ≠ 0) (hd : den ≠ 0) :
    neg = true ↔ (FV.fin neg num den e).real < 0 := by
  have hpos : (0 : ℝ) < (num : ℝ) / den * 2 ^ e :=
    mul_pos (div_pos (by exact_mod_cast Nat.pos_of_ne_zero hn) (by exact_mod_cast Nat.pos_of_ne_zero hd)) (zpow_pos (by norm_num) e)
  unfold FV.real
  cases neg
  · simp only [Bool.false_eq_true, if_false, one_mul, false_iff, not_lt]
    exact hpos.le
  · simp only [if_true, true_iff, neg_mul, one_mul]
    exact neg_neg_of_pos hpos

theorem FV.real_ne_zero {neg : Bool} {num den : Nat} {e : Int} (hn : num ≠ 0) (hd : den ≠ 0) : (FV.fin neg num den e).real ≠ 0 := by
  rw [← abs_pos, FV.abs_real]
  exact mul_pos (div_pos (by exact_mod_cast Nat.pos_of_ne_zero hn) (by exact_mod_cast Nat.pos_of_ne_zero hd)) (zpow_pos (by norm_num) e)

/-- roundOnce is the rounding of R121 to R123, for every number that is not zero. -/
theorem roundOnce_rounded {f : Fmt} (hf : f ∈ allFmts) {rm num den : Nat} {sat neg : Bool} {e : Int} (hrm : rm < 4) (hn : num ≠ 0)
    (hd : den ≠ 0) : Rounded f rm sat (FV.fin neg num den e).real (roundOnce f rm sat (.fin neg num den e)) :=
  rounded_of_roundsOnce hf (FV.real_ne_zero hn hd) (FV.real_neg_iff hn hd) (roundOnce_roundsOnce (Fmt.known hf).frac hrm hn hd)

/-! ## Square roots -/

theorem isqrt_spec (n : Nat) {b r : Nat} (hl : r * r ≤ n) (hu : n < (r + 2 ^ b) * (r + 2 ^ b)) :
    isqrt n b r * isqrt n b r ≤ n ∧ n < (isqrt n b r + 1) * (isqrt n b r + 1) := by
  induction b generalizing r with
  | zero => exact ⟨hl, hu⟩
  | succ b ih =>
    unfold isqrt
    dsimp only
    split
    · next h => exact ih h (by rw [Nat.add_assoc, ← Nat.two_mul, ← Nat.pow_succ']; exact hu)
    · next h => exact ih hl (not_le.1 h)

/-- The root that sqrtOnce takes is the integer square root. -/
theorem isqrt_eq_sqrt (n : Nat) : isqrt n (Nat.log2 n / 2 + 1) 0 = Nat.sqrt n := by
  have hn : n < 2 ^ (Nat.log2 n + 1) := Nat.lt_log2_self
  have hu : n < (0 + 2 ^ (Nat.log2 n / 2 + 1)) * (0 + 2 ^ (Nat.log2 n / 2 + 1)) := by
    rw [Nat.zero_add, ← Nat.pow_add]
    exact hn.trans_le (Nat.pow_le_pow_right (by norm_num) (by omega))
  obtain ⟨h1, h2⟩ := isqrt_spec n (by omega) hu
  exact (Nat.eq_sqrt.2 ⟨h1, h2⟩)

/-- The fraction of a square root below its integer part. -/
theorem sqrt_rest (n : Nat) : 0 ≤ √(n : ℝ) - Nat.sqrt n ∧ √(n : ℝ) - Nat.sqrt n < 1 ∧
    (Nat.sqrt n * Nat.sqrt n ≠ n ↔ √(n : ℝ) - Nat.sqrt n ≠ 0) := by
  refine ⟨sub_nonneg.2 (Real.nat_sqrt_le_real_sqrt), ?_, ?_⟩
  · have := Real.real_sqrt_lt_nat_sqrt_succ (a := n)
    linarith
  · rw [sub_ne_zero, Ne, Ne, Real.sqrt_eq_iff_mul_self_eq (Nat.cast_nonneg _) (Nat.cast_nonneg _)]
    norm_cast
    exact not_congr eq_comm

/-- An even power under the root. -/
theorem sqrt_mul_zpow (x : ℝ) (k : Int) : √(x * 2 ^ (2 * k)) = √x * 2 ^ k := by
  have h : (2 : ℝ) ^ (2 * k) = (2 ^ k) ^ 2 := by rw [mul_comm, zpow_mul]; rfl
  rw [h, Real.sqrt_mul' _ (sq_nonneg _), Real.sqrt_sq (zpow_pos (by norm_num) k).le]

/-- sqrtOnce of a positive number is its real root, rounded once (R81). -/
theorem sqrtOnce_roundsOnce {f : Fmt} {rm num : Nat} {e : Int} (hfb : 0 < f.fb) (hrm : rm < 4) (hn : num ≠ 0) :
    RoundsOnce f rm false false |√(FV.fin false num 1 e).real| (sqrtOnce f rm (.fin false num 1 e)) := by
  obtain ⟨o, h, ho, he⟩ : ∃ (o : Nat) (h : Int), (e % 2).toNat = o ∧ e = 2 * h + o := ⟨(e % 2).toNat, e / 2, rfl, by omega⟩
  unfold sqrtOnce
  simp only [if_neg hn, Bool.false_eq_true, if_false, Nat.shiftLeft_eq, isqrt_eq_sqrt, ho]
  generalize hN : num * 2 ^ o * 2 ^ (2 * (f.fb + 4)) = n
  have hhalf : (e - (o : Int)) / 2 = h := by omega
  have hbig : 2 ^ (f.fb + 4) ≤ Nat.sqrt n := by
    rw [Nat.le_sqrt, ← hN, ← Nat.pow_add, ← Nat.two_mul]
    exact Nat.le_mul_of_pos_left _ (Nat.mul_pos (Nat.pos_of_ne_zero hn) (Nat.two_pow_pos o))
  have hq : 0 < Nat.sqrt n := (Nat.two_pow_pos _).trans_le hbig
  obtain ⟨h0, h1, h2⟩ := sqrt_rest n
  have hv : |√(FV.fin false num 1 e).real| = ((Nat.sqrt n : ℝ) + (√(n : ℝ) - Nat.sqrt n)) * 2 ^ (h - ((f.fb + 4 : Nat) : Int)) := by
    have hr : (FV.fin false num 1 e).real = (n : ℝ) * 2 ^ (2 * (h - ((f.fb + 4 : Nat) : Int))) := by
      rw [FV.real_fin_one, ← hN, he, mul_sub, zpow_add₀ (by norm_num), zpow_sub₀ (by norm_num), zpow_natCast]
      have : (2 : ℝ) ^ (2 * ((f.fb + 4 : Nat) : Int)) = 2 ^ (2 * (f.fb + 4)) := by
        rw [← zpow_natCast]; push_cast; rfl
      rw [this]
      simp only [Bool.false_eq_true, if_false]
      push_cast
      field_simp
    rw [hr, sqrt_mul_zpow, abs_of_nonneg (by positivity)]
    ring
  rw [hv, hhalf]
  exact roundMag_roundsOnce hfb hrm hq h0 h1 (by rw [decide_eq_true_iff, h2]) fun _ =>
    (Nat.le_log2 hq.ne').2 ((Nat.pow_le_pow_right (by norm_num) (by omega)).trans hbig)

end Sys2Proof.Machine
end

section
/-!
The conversions to integers (R83) and to classes (R85).
-/
namespace Sys2Proof.Machine

/-! ## Rounding to an integer -/

/-- m is the magnitude v = k + ρ rounded to an integer, with its inexactness. -/
structure IntRounds (rm : Nat) (neg : Bool) (v : ℝ) (m : Nat) (inexact : Bool) : Prop where
  exact_iff : inexact = true ↔ (m : ℝ) ≠ v
  cut : cuts rm neg → (m : Int) = ⌊v⌋
  raise : raises rm neg → (m : Int) = ⌈v⌉
  near : rm = 0 → |v - m| ≤ 1 / 2 ∧ (|v - m| = 1 / 2 → m % 2 = 0)

/-- The integer k or k + 1 that a decision up takes for k + ρ. -/
theorem intRounds_of_floor {rm : Nat} {neg up inexact : Bool} {k : Nat} {ρ : ℝ} (h0 : 0 ≤ ρ) (h1 : ρ < 1) (hi : inexact = true ↔ ρ ≠ 0)
    (hup : up = true ↔ (rm = 0 ∧ (1 < 2 * ρ ∨ 2 * ρ = 1 ∧ k % 2 = 1)) ∨ (raises rm neg ∧ ρ ≠ 0)) :
    IntRounds rm neg (k + ρ) (if up then k + 1 else k) inexact := by
  have hfloor : ⌊(k : ℝ) + ρ⌋ = k := Int.floor_eq_iff.2 ⟨by push_cast; linarith, by push_cast; linarith⟩
  have hz : up = true → ρ ≠ 0 := fun h => by
    rintro rfl
    rcases hup.1 h with ⟨-, h | h⟩ | ⟨-, h⟩
    · linarith
    · linarith [h.1]
    · exact h rfl
  refine ⟨?_, fun hc => ?_, fun hr => ?_, fun hr => ?_⟩
  · rw [hi]
    cases hu : up
    · simp only [Bool.false_eq_true, if_false, Ne, left_eq_add]
    · have := hz hu
      refine iff_of_true this ?_
      simp only [if_true]
      push_cast
      intro he
      linarith
  · have hu : up = false := Bool.eq_false_iff.2 fun hu => by
      rcases hup.1 hu with ⟨rfl, -⟩ | ⟨hr, -⟩
      · rcases hc with h | ⟨h, -⟩ | ⟨h, -⟩ <;> cases h
      · rcases hc with rfl | ⟨rfl, rfl⟩ | ⟨rfl, rfl⟩ <;> simp [raises] at hr
    rw [hu, hfloor]; rfl
  · by_cases hρ : ρ = 0
    · have hu : up = false := Bool.eq_false_iff.2 fun hu => hz hu hρ
      rw [hu, hρ, add_zero, Int.ceil_natCast]; rfl
    · have hpos := lt_of_le_of_ne h0 (Ne.symm hρ)
      rw [hup.2 (.inr ⟨hr, hρ⟩), if_pos rfl]
      exact (Int.ceil_eq_iff.2 ⟨by push_cast; linarith, by push_cast; linarith⟩).symm
  · subst hr
    have hn : ¬ raises 0 neg := by simp [raises]
    rw [or_iff_left (fun h => hn h.1)] at hup
    cases hu : up
    · have hle : ¬ (1 < 2 * ρ ∨ 2 * ρ = 1 ∧ k % 2 = 1) := fun h => by rw [hup.2 ⟨rfl, h⟩] at hu; cases hu
      rw [not_or, not_lt] at hle
      simp only [Bool.false_eq_true, if_false, add_sub_cancel_left, abs_of_nonneg h0]
      refine ⟨by linarith [hle.1], fun he => ?_⟩
      by_contra hodd
      exact hle.2 ⟨by linarith, by omega⟩
    · obtain ⟨-, hge⟩ := hup.1 hu
      simp only [if_true]
      rw [abs_of_nonpos (by push_cast; linarith)]
      push_cast
      refine ⟨?_, fun he => ?_⟩
      · rcases hge with h | ⟨h, -⟩ <;> linarith
      · rcases hge with h | ⟨-, h⟩
        · linarith
        · omega

/-- roundInt rounds the magnitude of its operand. -/
theorem roundInt_intRounds {rm : Nat} (hrm : rm < 4) (neg : Bool) (num : Nat) {den : Nat} (hd : den ≠ 0) (e : Int) :
    IntRounds rm neg ((num : ℝ) / den * 2 ^ e) (roundInt rm neg num den e).1 (roundInt rm neg num den e).2 := by
  unfold roundInt
  simp only [if_neg hd]
  have hd2 : den * 2 ^ (-e).toNat ≠ 0 := Nat.mul_ne_zero hd (Nat.two_pow_pos _).ne'
  obtain ⟨hdiv, h0, h1⟩ := cast_div_add (num * 2 ^ e.toNat) hd2
  have hv : (num : ℝ) / den * 2 ^ e = ((num * 2 ^ e.toNat : Nat) : ℝ) / ((den * 2 ^ (-e).toNat : Nat) : ℝ) := by
    have he : (2 : ℝ) ^ e = 2 ^ e.toNat / 2 ^ (-e).toNat := by
      rw [← zpow_natCast, ← zpow_natCast, ← zpow_sub₀ (by norm_num)]
      congr 1; omega
    rw [he]
    push_cast
    field_simp
  rw [hv, hdiv]
  generalize num * 2 ^ e.toNat = n at *
  generalize den * 2 ^ (-e).toNat = d at *
  have hdpos : (0 : ℝ) < d := by exact_mod_cast Nat.pos_of_ne_zero hd2
  have hρ : ((n % d : Nat) : ℝ) / d ≠ 0 ↔ n % d ≠ 0 := by
    rw [Ne, Ne, div_eq_zero_iff, or_iff_left hdpos.ne', Nat.cast_eq_zero]
  have hhalf : 1 < 2 * (((n % d : Nat) : ℝ) / d) ↔ d < 2 * (n % d) := by
    rw [← mul_div_assoc, one_lt_div hdpos]; norm_cast
  have heq : 2 * (((n % d : Nat) : ℝ) / d) = 1 ↔ 2 * (n % d) = d := by
    rw [← mul_div_assoc, div_eq_one_iff_eq hdpos.ne']; norm_cast
  refine intRounds_of_floor h0 h1 (by rw [hρ, decide_eq_true_iff]) ?_
  rw [hρ, hhalf, heq]
  unfold raises
  match rm, hrm with
  | 0, _ => simp
  | 1, _ => simp
  | 2, _ => simp
  | 3, _ => simp

/-- The rounded integer with its sign. -/
theorem IntRounds.roundsInt {rm : Nat} {neg inexact : Bool} {v : ℝ} {m : Nat} (hv : 0 ≤ v) (h : IntRounds rm neg v m inexact) :
    let i : Int := if neg then -(m : Int) else (m : Int)
    RoundsInt rm (withSign neg v) i ∧ ((i : ℝ) = withSign neg v ↔ inexact = false) := by
  have hex : inexact = false ↔ (m : ℝ) = v := by rw [← Bool.not_eq_true, h.exact_iff, not_not]
  cases neg
  · refine ⟨⟨fun hr => ?_, fun hr => ⟨fun _ => h.cut (.inl hr), fun hlt => absurd hlt (not_lt.2 hv)⟩,
      fun hr => h.cut (.inr (.inl ⟨hr, rfl⟩)), fun hr => h.raise (.inr ⟨hr, rfl⟩)⟩, ?_⟩
    · obtain ⟨h1, h2⟩ := h.near hr
      exact ⟨h1, fun he => by have := h2 he; simp only [Bool.false_eq_true, if_false]; omega⟩
    · exact hex.symm
  · simp only [withSign, if_true]
    refine ⟨⟨fun hr => ?_, fun hr => ⟨fun h0 => ?_, fun _ => ?_⟩, fun hr => ?_, fun hr => ?_⟩, ?_⟩
    · obtain ⟨h1, h2⟩ := h.near hr
      have : |(-v) - ((-(m : Int) : Int) : ℝ)| = |v - m| := by
        rw [← abs_neg]; push_cast; congr 1; ring
      rw [this]
      exact ⟨h1, fun he => by have := h2 he; omega⟩
    · have hc := h.cut (.inl hr)
      obtain rfl : v = 0 := by linarith
      simpa using hc
    · rw [Int.ceil_neg, h.cut (.inl hr)]
    · rw [Int.floor_neg, h.raise (.inl ⟨hr, rfl⟩)]
    · rw [Int.ceil_neg, h.cut (.inr (.inr ⟨hr, rfl⟩))]
    · rw [hex]; push_cast; rw [neg_inj]

theorem intMin_le_intMax (sgn : Bool) (w : Nat) : intMin sgn w ≤ intMax sgn w := by
  have h1 : (0 : Int) < 2 ^ w := by positivity
  have h2 : (0 : Int) < 2 ^ (w - 1) := by positivity
  cases sgn <;> simp only [intMin, intMax, Bool.false_eq_true, if_false, if_true] <;> omega

theorem FV.real_eq_withSign (neg : Bool) (num den : Nat) (e : Int) :
    (FV.fin neg num den e).real = withSign neg ((num : ℝ) / den * 2 ^ e) := by
  cases neg <;> simp [FV.real, withSign]

/-- toInt of a number (R83). -/
theorem toInt_isInt (sgn neg : Bool) {w rm : Nat} (num : Nat) {den : Nat} (e : Int) (hrm : rm < 4) (hd : den ≠ 0) :
    IsInt sgn w rm (FV.fin neg num den e).real (toInt sgn w rm (.fin neg num den e)) := by
  have hir := roundInt_intRounds hrm neg num hd e
  obtain ⟨hr, hx⟩ := hir.roundsInt (by positivity)
  rw [← FV.real_eq_withSign] at hr hx
  unfold toInt
  dsimp only
  generalize (roundInt rm neg num den e).2 = inexact at *
  generalize (if neg then -((roundInt rm neg num den e).1 : Int) else ((roundInt rm neg num den e).1 : Int)) = i at *
  have hle := intMin_le_intMax sgn w
  refine ⟨i, hr, fun hlo => if_pos hlo, fun hhi => ?_, fun hlo hhi => ?_⟩
  · exact (if_neg (by exact not_lt.2 (hle.trans (le_of_lt hhi)))).trans (if_pos hhi)
  · have h1 : ¬ i < intMin sgn w := not_lt.2 hlo
    have h2 : ¬ intMax sgn w < i := not_lt.2 hhi
    rw [if_neg h1, if_neg h2]
    refine ⟨rfl, fun he => ?_, fun hne => ?_⟩
    · rw [hx.1 he]; rfl
    · have hi : inexact = true := by
        by_contra h
        exact hne (hx.2 (Bool.eq_false_iff.2 h))
      rw [hi]; rfl

/-! ## Classes -/

/-- The class of a finite encoding. -/
theorem classMask_finite {f : Fmt} (he : 0 < f.eb) {x : Nat} (h : f.unsign x ≤ f.maxEnc) :
    classMask f x = if f.unsign x = 0 then (if bitAt x (f.eb + f.fb) then 2 ^ 3 else 2 ^ 4)
      else if f.unsign x < 2 ^ f.fb then (if bitAt x (f.eb + f.fb) then 2 ^ 2 else 2 ^ 5)
      else (if bitAt x (f.eb + f.fb) then 2 ^ 1 else 2 ^ 6) := by
  obtain ⟨m, e, hv, hm⟩ := Fmt.value_finite he h
  have hm0 : m = 0 ↔ f.unsign x = 0 := by
    have h2 : (2 : ℝ) ^ e ≠ 0 := (zpow_pos (by norm_num) e).ne'
    rw [← f.num_strictMono.injective.eq_iff (a := f.unsign x), f.num_zero, ← hm, mul_eq_zero, or_iff_left h2, Nat.cast_eq_zero]
  have hexp : bitsAt x f.fb f.eb = 0 ↔ f.unsign x < 2 ^ f.fb := by
    rw [Fmt.exp_field, Nat.div_eq_zero_iff, or_iff_right (Nat.two_pow_pos _).ne']
  unfold classMask
  rw [hv]
  simp only [hm0, hexp]

/-- FCLASS of a finite number by its size and sign (R85). -/
theorem classMask_number {f : Fmt} (he : 0 < f.eb) {x : Nat} (h : (f.value x).notFinite = false) :
    let v := (f.value x).real
    let normal := (2 : ℝ) ^ (1 - (f.bias : Int))
    let c := classMask f x
    (v ≤ -normal → c = 2 ^ 1) ∧ (-normal < v → v < 0 → c = 2 ^ 2) ∧ (v = 0 → c = if (f.value x).neg then 2 ^ 3 else 2 ^ 4) ∧
      (0 < v → v < normal → c = 2 ^ 5) ∧ (normal ≤ v → c = 2 ^ 6) := by
  have hu := (Fmt.notFinite_iff he).1 h
  intro v normal c
  have hv : v = _ := Fmt.value_real he hu
  have hc : c = _ := classMask_finite he hu
  have hn : normal = f.num (2 ^ f.fb) := f.num_normal.symm
  have hpos : 0 < normal := zpow_pos (by norm_num) _
  have hz : f.unsign x = 0 ↔ f.num (f.unsign x) = 0 := by rw [← f.num_zero, f.num_strictMono.injective.eq_iff]
  have hlt : f.unsign x < 2 ^ f.fb ↔ f.num (f.unsign x) < normal := by rw [hn, f.num_strictMono.lt_iff_lt]
  have h0 := f.num_nonneg (f.unsign x)
  rw [Fmt.value_neg he hu, hc, hv]
  simp only [hz, hlt]
  clear_value normal c v
  generalize f.num (f.unsign x) = y at *
  cases bitAt x (f.eb + f.fb)
  · simp only [Bool.false_eq_true, if_false, one_mul]
    refine ⟨fun h => ?_, fun _ h => ?_, fun h => if_pos h, fun h1 h2 => ?_, fun h => ?_⟩
    · exfalso; linarith
    · exfalso; linarith
    · rw [if_neg h1.ne', if_pos h2]
    · rw [if_neg (by linarith), if_neg (not_lt.2 h)]
  · simp only [if_true, neg_mul, one_mul]
    refine ⟨fun h => ?_, fun h1 h2 => ?_, fun h => if_pos (neg_eq_zero.1 h), fun h _ => ?_, fun h => ?_⟩
    · rw [if_neg (by linarith), if_neg (by linarith)]
    · rw [if_neg (by linarith), if_pos (by linarith)]
    · exfalso; linarith
    · exfalso; linarith

end Sys2Proof.Machine
end

section
/-!
Minimum and maximum, the conversions of VCVT, the greatest magnitude and the scale of a block (R81, R135, R138, R139).
-/
namespace Sys2Proof.Machine

/-! ## Minimum and maximum -/

/-- x stands below y, −0 below +0. -/
def FV.below (x y : FV) : Prop := FV.lt x y = true ∨ (FV.eq x y = true ∧ x.neg = true ∧ y.neg = false)

theorem FV.lt_asymm {x y : FV} (hx : x.proper ∨ x.notFinite = true) (hy : y.proper ∨ y.notFinite = true) (h : FV.lt x y = true) :
    ¬ FV.lt y x = true := by
  cases x with
  | nan sig => exact absurd h Bool.false_ne_true
  | inf a =>
    cases y with
    | nan sig => exact absurd h Bool.false_ne_true
    | inf b => cases a <;> cases b <;> simp [FV.lt] at h ⊢
    | fin neg n d e => cases a <;> simp [FV.lt] at h ⊢
  | fin neg n d e =>
    cases y with
    | nan sig => exact absurd h Bool.false_ne_true
    | inf b => cases b <;> simp [FV.lt] at h ⊢
    | fin neg' n' d' e' =>
      have hx' : (FV.fin neg n d e).Is _ := ⟨hx.resolve_right Bool.false_ne_true, rfl⟩
      have hy' : (FV.fin neg' n' d' e').Is _ := ⟨hy.resolve_right Bool.false_ne_true, rfl⟩
      rw [hx'.lt_iff hy'] at h
      rw [hy'.lt_iff hx']
      exact not_lt.2 h.le

theorem FV.not_below_self {x : FV} (hx : x.proper ∨ x.notFinite = true) : ¬ FV.below x x := by
  rintro (h | ⟨-, h1, h2⟩)
  · exact FV.lt_asymm hx hx h h
  · rw [h1] at h2; cases h2

theorem FV.eq_imp {x y : FV} (h : FV.eq x y = true) : ¬ FV.lt x y = true ∧ ¬ FV.lt y x = true := by
  unfold FV.eq at h
  simp only [Bool.and_eq_true, Bool.not_eq_true'] at h
  exact ⟨by simp [h.1.2], by simp [h.2]⟩

theorem FV.not_below {x y : FV} (hx : x.proper ∨ x.notFinite = true) (hy : y.proper ∨ y.notFinite = true) (h : FV.below x y) :
    ¬ FV.below y x := by
  rintro (h' | ⟨he', -, hn'⟩)
  · rcases h with h | ⟨he, -⟩
    · exact FV.lt_asymm hx hy h h'
    · exact (FV.eq_imp he).2 h'
  · rcases h with h | ⟨-, hn, -⟩
    · exact (FV.eq_imp he').2 h
    · rw [hn'] at hn; cases hn

/-- The values of encodings. -/
theorem Fmt.value_proper (f : Fmt) (x : Nat) : (f.value x).proper ∨ (f.value x).notFinite = true := by
  unfold Fmt.value
  dsimp only
  split_ifs
  · exact .inr rfl
  · exact .inr rfl
  · exact .inr rfl
  · exact .inl one_ne_zero
  · exact .inl one_ne_zero

/-- fminmax on two numbers: the one that is not below, or not above, the other (R81). -/
theorem fminmax_number {f : Fmt} {mx : Bool} {a b : Nat} (ha : (f.value a).isNan = false) (hb : (f.value b).isNan = false) :
    let r := (fminmax f mx a b).val
    (r = a ∨ r = b) ∧ ∀ k, k = a ∨ k = b → if mx then ¬ FV.below (f.value r) (f.value k) else ¬ FV.below (f.value k) (f.value r) := by
  have hr : (fminmax f mx a b).val =
      if (FV.lt (f.value a) (f.value b) || (FV.eq (f.value a) (f.value b) && (f.value a).neg && !(f.value b).neg)) != mx then a else b := by
    unfold fminmax
    simp only [ha, hb, Bool.false_and, Bool.false_eq_true, if_false]
  have hless : (FV.lt (f.value a) (f.value b) || (FV.eq (f.value a) (f.value b) && (f.value a).neg && !(f.value b).neg)) = true ↔
      FV.below (f.value a) (f.value b) := by
    simp only [Bool.or_eq_true, Bool.and_eq_true, Bool.not_eq_true', FV.below, and_assoc]
  intro r
  have hr' : r = _ := hr
  generalize (FV.lt (f.value a) (f.value b) || (FV.eq (f.value a) (f.value b) && (f.value a).neg && !(f.value b).neg)) = less at hless hr'
  clear_value r
  have sa := FV.not_below_self (f.value_proper a)
  have sb := FV.not_below_self (f.value_proper b)
  have hab := fun h => FV.not_below (f.value_proper a) (f.value_proper b) (hless.1 h)
  have hba : less = false → ¬ FV.below (f.value a) (f.value b) := fun h hb => by rw [hless.2 hb] at h; cases h
  cases less <;> cases mx <;> obtain rfl : r = _ := hr'
  · exact ⟨.inr rfl, by rintro k (rfl | rfl); exacts [hba rfl, sb]⟩
  · exact ⟨.inl rfl, by rintro k (rfl | rfl); exacts [sa, hba rfl]⟩
  · exact ⟨.inl rfl, by rintro k (rfl | rfl); exacts [sa, hab rfl]⟩
  · exact ⟨.inr rfl, by rintro k (rfl | rfl); exacts [hab rfl, sb]⟩

theorem fminmax_cases (f : Fmt) (mx : Bool) (a b : Nat) :
    let x := f.value a
    let y := f.value b
    let r := fminmax f mx a b
    r.fl = (if x.isSig || y.isSig then fNV else 0) ∧
    (x.isNan = true → y.isNan = true → r.val = f.nan) ∧ (x.isNan = true → y.isNan = false → r.val = b) ∧
    (x.isNan = false → y.isNan = true → r.val = a) := by
  unfold fminmax
  dsimp only
  cases (f.value a).isNan <;> cases (f.value b).isNan <;> simp

/-! ## Conversions (R135) -/

theorem fmtOf_mem (df w : Nat) : fmtOf df w ∈ allFmts := by
  unfold fmtOf
  split
  · split_ifs <;> decide
  all_goals decide

section
variable {sf : Nat} {vt : BitVec 32} {fl : Nat}

theorem isFp_iff {df : Nat} : isFp df = true ↔ 2 ≤ df ∧ df ≤ 7 := by
  unfold isFp
  rw [Bool.and_eq_true, decide_eq_true_iff, decide_eq_true_iff]

/-- To a floating format: the exact value, rounded once. -/
theorem convOne_fp (x : Fl FV) (h : 2 ≤ vtFmt vt ∧ vtFmt vt ≤ 7) :
    let r := roundOnce (fmtOf (vtFmt vt) (vtSew vt)) (vtRm vt) (decide (2 ≤ sf ∧ sf ≤ 7) && vtSat vt) x.val
    convOne sf vt x = ⟨r.val, r.fl ||| x.fl ||| (if x.val.isSig then fNV else 0)⟩ := by
  have hs : isFp sf = decide (2 ≤ sf ∧ sf ≤ 7) := by rw [Bool.eq_iff_iff, isFp_iff, decide_eq_true_iff]
  unfold convOne
  simp only [isFp_iff.2 h, if_true, hs]

theorem not_isFp {df : Nat} (h : df ≤ 1) : isFp df = false := Bool.eq_false_iff.2 fun hf => by have := isFp_iff.1 hf; omega

/-- To an integer format from a floating one. -/
theorem convOne_toInt (x : Fl FV) (h : vtFmt vt ≤ 1) (hs : 2 ≤ sf) :
    let r := toInt (decide (vtFmt vt = 0)) (vtSew vt) (vtRm vt) x.val
    convOne sf vt x = ⟨wrapN (vtSew vt) r.val, r.fl ||| x.fl⟩ := by
  have hi : isInt sf = false := decide_eq_false (by omega)
  unfold convOne
  simp only [not_isFp h, hi, Bool.false_eq_true, if_false]

/-- Between integer formats. -/
theorem convOne_int (neg : Bool) (num den : Nat) (e : Int) (h : vtFmt vt ≤ 1) (hs : sf ≤ 1) :
    let i : Int := if neg then -(num : Int) else num
    let lo := intMin (decide (vtFmt vt = 0)) (vtSew vt)
    let hi := intMax (decide (vtFmt vt = 0)) (vtSew vt)
    convOne sf vt ⟨.fin neg num den e, fl⟩ = ⟨wrapN (vtSew vt) (if vtSat vt ∧ i < lo then lo else if vtSat vt ∧ hi < i then hi else i), 0⟩ := by
  have hi : isInt sf = true := decide_eq_true hs
  unfold convOne
  simp only [not_isFp h, hi, Bool.false_eq_true, if_false, if_true]
  cases vtSat vt <;> simp

end

end Sys2Proof.Machine
end

section
/-!
CF32 conversions, the greatest magnitude and the scale of a block (R135, R138, R139), and the statement on roots and conversions.
-/
namespace Sys2Proof.Machine

/-! ## Encodings with infinities -/

section
variable {f : Fmt} {k : Nat}

theorem Fmt.maxEnc_of_hasInf (hi : f.hasInf = true) : f.maxEnc = f.infEnc - 1 := if_pos hi

theorem Fmt.infEnc_pos (he : 0 < f.eb) : 0 < f.infEnc :=
  Nat.mul_pos (Nat.sub_pos_of_lt (Nat.one_lt_two_pow he.ne')) (Nat.two_pow_pos _)

theorem Fmt.infEnc_lt : f.infEnc < 2 ^ (f.eb + f.fb) := by
  rw [Nat.pow_add]
  exact Nat.mul_lt_mul_of_pos_right (Nat.sub_lt (Nat.two_pow_pos _) one_pos) (Nat.two_pow_pos _)

/-- Numbers and infinities of a format with infinities. -/
theorem Fmt.unsign_le_infEnc (he : 0 < f.eb) (hi : f.hasInf = true) (hn : (f.value k).isNan = false) : f.unsign k ≤ f.infEnc := by
  have hp := Fmt.infEnc_pos he
  have hM := Fmt.maxEnc_of_hasInf hi
  by_cases h : f.unsign k ≤ f.maxEnc
  · omega
  · have hs := (Fmt.special_iff he).2 (not_le.1 h)
    rw [Fmt.value_special he (not_le.1 h)] at hn
    have hm : f.unsign k % 2 ^ f.fb = 0 := by
      by_contra hm
      rw [if_neg fun hc => hm hc.2] at hn
      cases hn
    have hdm := Nat.div_add_mod' (f.unsign k) (2 ^ f.fb)
    rw [hs.1, hm] at hdm
    exact hdm.ge

theorem Fmt.value_infEnc (he : 0 < f.eb) (hi : f.hasInf = true) (hu : f.unsign k = f.infEnc) :
    f.value k = .inf (bitAt k (f.eb + f.fb)) := by
  have hp := Fmt.infEnc_pos he
  have hM := Fmt.maxEnc_of_hasInf hi
  rw [Fmt.value_special he (by omega), if_pos ⟨hi, by rw [hu]; exact Nat.mul_mod_left ..⟩]

/-- An infinity's encoding. -/
theorem Fmt.unsign_eq_infEnc (he : 0 < f.eb) (hi : f.hasInf = true) (hn : (f.value k).isNan = false) (hf : (f.value k).notFinite = true) :
    f.unsign k = f.infEnc := by
  have hle := Fmt.unsign_le_infEnc he hi hn
  have hM := Fmt.maxEnc_of_hasInf hi
  have hgt : f.maxEnc < f.unsign k := by
    by_contra h
    rw [(Fmt.notFinite_iff he).2 (not_lt.1 h)] at hf
    cases hf
  omega

/-- A zero's encoding. -/
theorem Fmt.isZero_iff (he : 0 < f.eb) : (f.value k).isZero = true ↔ f.unsign k = 0 := by
  by_cases h : f.unsign k ≤ f.maxEnc
  · obtain ⟨m, e, hv, hm⟩ := Fmt.value_finite he h
    have h2 : (2 : ℝ) ^ e ≠ 0 := (zpow_pos (by norm_num) e).ne'
    rw [hv, ← f.num_strictMono.injective.eq_iff (a := f.unsign k), f.num_zero, ← hm, mul_eq_zero, or_iff_left h2, Nat.cast_eq_zero]
    exact decide_eq_true_iff
  · rw [Fmt.value_special he (not_le.1 h)]
    refine iff_of_false (fun hz => ?_) (by omega)
    split at hz <;> cases hz

/-- An encoding without sign. -/
theorem Fmt.unsign_of_lt (h : k < 2 ^ (f.eb + f.fb)) : f.unsign k = k ∧ bitAt k (f.eb + f.fb) = false :=
  ⟨Nat.mod_eq_of_lt h, Nat.testBit_lt_two_pow h⟩

theorem Fmt.unsign_lt_pow : f.unsign k < 2 ^ (f.eb + f.fb) := Nat.mod_lt _ (Nat.two_pow_pos _)

end

/-! ## CF32 parts (R135) -/

/-- Rounding an FP32 number to FP32 keeps it, but for NaNs. -/
theorem roundOnce_fp32_value {rm y : Nat} (hrm : rm < 4) (hy : y < 2 ^ 32) :
    roundOnce fp32 rm false (fp32.value y) = ⟨if (fp32.value y).isNan then 0x7FC00000 else y, 0⟩ := by
  have he : 0 < fp32.eb := by decide
  have hi : fp32.hasInf = true := rfl
  have hsg : fp32.signed (bitAt y (fp32.eb + fp32.fb)) (fp32.unsign y) = y := Fmt.signed_unsign hy
  by_cases h : fp32.unsign y ≤ fp32.maxEnc
  · obtain ⟨m, e, hv, hm⟩ := Fmt.value_finite he h
    have hz := Fmt.isZero_iff (k := y) he
    rw [hv] at hz ⊢
    by_cases h0 : m = 0
    · have hu : fp32.unsign y = 0 := hz.1 (decide_eq_true h0)
      rw [hu] at hsg
      exact (if_pos h0).trans (by rw [hsg]; rfl)
    · have hr := roundOnce_roundsOnce (f := fp32) (sat := false) (neg := bitAt y (fp32.eb + fp32.fb)) (e := e) (by decide) hrm h0 one_ne_zero
      rw [FV.abs_real, Nat.cast_one, div_one, hm] at hr
      rw [hr.exact h, hsg]
      rfl
  · by_cases hn : (fp32.value y).isNan = true
    · rw [if_pos hn]
      obtain ⟨sig, hs⟩ : ∃ sig, fp32.value y = .nan sig := by
        rw [Fmt.value_special he (not_le.1 h)] at hn ⊢
        split at hn
        · cases hn
        · next hc => rw [if_neg hc]; exact ⟨_, rfl⟩
      rw [hs]
      rfl
    · have hn' := Bool.eq_false_iff.2 hn
      have hu := Fmt.unsign_eq_infEnc he hi hn' (Fmt.value_notFinite he (not_le.1 h))
      rw [hu] at hsg
      rw [if_neg hn, Fmt.value_infEnc he hi hu]
      exact congrArg (Fl.mk · 0) hsg

/-- Both parts keep their bits, but for NaNs. -/
theorem convCx_eq {rm : Nat} (x : Nat) (hrm : rm < 4) :
    let half := fun (k : Nat) => x / 2 ^ (32 * k) % 2 ^ 32
    let part := fun (k : Nat) => if (fp32.value (half k)).isNan then 0x7FC00000 else half k
    convCx rm x = ⟨part 0 + 2 ^ 32 * part 1, if (fp32.value (half 0)).isSig || (fp32.value (half 1)).isSig then fNV else 0⟩ := by
  intro half part
  have h0 : bitsAt x 0 32 = half 0 := bitsAt_eq ..
  have h1 : bitsAt x 32 32 = half 1 := bitsAt_eq ..
  have hlt : ∀ k, half k < 2 ^ 32 := fun k => Nat.mod_lt _ (Nat.two_pow_pos _)
  have hfl : ∀ a b : Bool, (0 ||| if a then fNV else 0) ||| (0 ||| if b then fNV else 0) = if a || b then fNV else 0 := by decide
  unfold convCx
  simp only [h0, h1, roundOnce_fp32_value hrm (hlt _), hfl, Nat.mul_comm (2 ^ 32)]
  rfl

/-! ## The greatest magnitude of a block (R139) -/

theorem foldl_max_spec {α : Type} (g : α → Nat) (l : List α) (a : Nat) :
    let r := l.foldl (fun t x => max t (g x)) a
    a ≤ r ∧ (∀ x ∈ l, g x ≤ r) ∧ (r = a ∨ ∃ x ∈ l, g x = r) := by
  induction l generalizing a with
  | nil => exact ⟨le_rfl, fun x hx => absurd hx List.not_mem_nil, .inl rfl⟩
  | cons y l ih =>
    obtain ⟨h1, h2, h3⟩ := ih (max a (g y))
    refine ⟨(le_max_left ..).trans h1, fun x hx => ?_, ?_⟩
    · rcases List.mem_cons.1 hx with rfl | hx
      · exact (le_max_right ..).trans h1
      · exact h2 x hx
    · rcases h3 with h3 | ⟨x, hx, h3⟩
      · rcases max_choice a (g y) with hm | hm
        · exact .inl (h3.trans hm)
        · exact .inr ⟨y, List.mem_cons_self .., (h3.trans hm).symm⟩
      · exact .inr ⟨x, List.mem_cons_of_mem _ hx, h3⟩

section
variable {f : Fmt} {l : List Nat}

/-- A block with a NaN. -/
theorem vqmaxOne_nan (h : ∃ k ∈ l, (f.value k).isNan = true) :
    vqmaxOne f l = ⟨0x7FC00000, if l.any (fun x => (f.value x).isSig) then fNV else 0⟩ :=
  if_pos (List.any_eq_true.2 h)

/-- A block without one: the greatest encoding m without sign. -/
theorem vqmaxOne_max (h : ∀ k ∈ l, (f.value k).isNan = false) {m : Nat} (hle : ∀ k ∈ l, f.unsign k ≤ m)
    (hm : m = 0 ∨ ∃ k ∈ l, f.unsign k = m) : vqmaxOne f l = roundOnce fp32 3 false (f.value m) := by
  have hany : l.any (fun x => (f.value x).isNan) = false := List.any_eq_false.2 fun k hk => by simp [h k hk]
  obtain ⟨-, h1, h2⟩ := foldl_max_spec (fun x => bitsAt x 0 (f.eb + f.fb)) l 0
  have hr : l.foldl (fun t x => max t (bitsAt x 0 (f.eb + f.fb))) 0 = m := by
    refine le_antisymm ?_ ?_
    · rcases h2 with h2 | ⟨k, hk, h2⟩
      · rw [h2]; exact Nat.zero_le m
      · rw [← h2]; exact hle k hk
    · rcases hm with rfl | ⟨k, hk, rfl⟩
      · exact Nat.zero_le _
      · exact h1 k hk
  unfold vqmaxOne
  simp only [hany, hr, Bool.false_eq_true, if_false]

/-- With an infinity, the greatest magnitude is infinite. -/
theorem vqmaxOne_inf (he : 0 < f.eb) (hi : f.hasInf = true) (h : ∀ k ∈ l, (f.value k).isNan = false)
    (hf : ∃ k ∈ l, (f.value k).notFinite = true) : vqmaxOne f l = ⟨0x7F800000, 0⟩ := by
  obtain ⟨k, hk, hkf⟩ := hf
  rw [vqmaxOne_max h (m := f.infEnc) (fun j hj => Fmt.unsign_le_infEnc he hi (h j hj))
    (.inr ⟨k, hk, Fmt.unsign_eq_infEnc he hi (h k hk) hkf⟩)]
  obtain ⟨hu, hb⟩ := Fmt.unsign_of_lt (f := f) Fmt.infEnc_lt
  rw [Fmt.value_infEnc he hi hu, hb]
  rfl

theorem vqmaxOne_zero (hk : f.Known) (h : ∀ k ∈ l, (f.value k).isZero = true) : vqmaxOne f l = ⟨0, 0⟩ := by
  have hn : ∀ k ∈ l, (f.value k).isNan = false := fun k hkl => by
    have := h k hkl
    cases hv : f.value k with
    | nan sig => rw [hv] at this; cases this
    | inf neg => rfl
    | fin neg n d e => rfl
  rw [vqmaxOne_max hn (m := 0) (fun k hkl => ((Fmt.isZero_iff hk.exp).1 (h k hkl)).le) (.inl rfl)]
  have hu : f.unsign 0 = 0 := Nat.zero_mod _
  obtain ⟨m, e, hv, -⟩ := Fmt.value_finite (k := 0) hk.exp (by rw [hu]; exact Nat.zero_le _)
  have hz := (Fmt.isZero_iff (k := 0) hk.exp).2 hu
  rw [hv] at hz ⊢
  have hb : bitAt 0 (f.eb + f.fb) = false := Nat.zero_testBit _
  rw [hb]
  exact if_pos (of_decide_eq_true hz)

/-- Of numbers, the greatest magnitude, rounded up to FP32. -/
theorem vqmaxOne_number (hk : f.Known) {k : Nat} (hkl : k ∈ l)
    (h : ∀ j ∈ l, (f.value j).notFinite = false ∧ |(f.value j).real| ≤ |(f.value k).real|) (h0 : (f.value k).real ≠ 0) :
    Rounded fp32 3 false |(f.value k).real| (vqmaxOne f l) := by
  have hu : ∀ j ∈ l, f.unsign j ≤ f.maxEnc := fun j hj => (Fmt.notFinite_iff hk.exp).1 (h j hj).1
  have hn : ∀ j ∈ l, (f.value j).isNan = false := fun j hj => by
    have := (h j hj).1
    cases hv : f.value j with
    | nan sig => rw [hv] at this; cases this
    | inf neg => rfl
    | fin neg n d e => rfl
  have hle : ∀ j ∈ l, f.unsign j ≤ f.unsign k := fun j hj => by
    have := (h j hj).2
    rw [Fmt.abs_value_real hk.exp (hu j hj), Fmt.abs_value_real hk.exp (hu k hkl)] at this
    exact f.num_strictMono.le_iff_le.1 this
  rw [vqmaxOne_max hn hle (.inr ⟨k, hkl, rfl⟩)]
  obtain ⟨hu', hb⟩ := Fmt.unsign_of_lt (f := f) (Fmt.unsign_lt_pow (k := k))
  have hmax : f.unsign (f.unsign k) ≤ f.maxEnc := by rw [hu']; exact hu k hkl
  have hreal : (f.value (f.unsign k)).real = |(f.value k).real| := by
    rw [Fmt.abs_value_real hk.exp (hu k hkl), Fmt.value_real hk.exp hmax, hb, hu']
    simp
  obtain ⟨m, e, hv, -⟩ := Fmt.value_finite hk.exp hmax
  rw [← hreal, hv]
  refine roundOnce_rounded (by decide) (by decide) (fun hm => ?_) one_ne_zero
  rw [hv, hm] at hreal
  exact h0 (abs_eq_zero.1 (hreal.symm.trans (by simp [FV.real])))

end

/-! ## The scale of a block (R138) -/

theorem vscaleOne_number {tgt x : Nat} (h : (fp32.value x).notFinite = false) (h0 : (fp32.value x).isZero = false) :
    Rounded fp32 3 false (|(fp32.value x).real| / ((fmtOf tgt 8).value (fmtOf tgt 8).maxEnc).real) (vscaleOne tgt x) := by
  have hk := Fmt.known (fmtOf_mem tgt 8)
  obtain ⟨m, e, hv, -⟩ := Fmt.value_finite (by decide) ((Fmt.notFinite_iff (f := fp32) (by decide)).1 h)
  have hm : m ≠ 0 := fun hm => by rw [hv, hm] at h0; cases h0
  obtain ⟨hu, hb⟩ := Fmt.unsign_of_lt (f := fmtOf tgt 8) Fmt.maxEnc_lt
  obtain ⟨t, et, ht, hnum⟩ := Fmt.value_finite (k := (fmtOf tgt 8).maxEnc) hk.exp (by rw [hu])
  rw [hu] at hnum
  rw [hb] at ht
  have htop : 0 < (fmtOf tgt 8).num (fmtOf tgt 8).maxEnc := by
    rw [← (fmtOf tgt 8).num_zero, (fmtOf tgt 8).num_strictMono.lt_iff_lt]
    exact (Nat.two_pow_pos _).trans_le hk.normal
  have ht0 : t ≠ 0 := fun h => by
    rw [h, Nat.cast_zero, zero_mul] at hnum
    exact htop.ne hnum
  have hr : vscaleOne tgt x = roundOnce fp32 3 false (.fin false (m * 1) (1 * t) (e - et)) := by
    obtain ⟨m, rfl⟩ : ∃ n, m = n + 1 := ⟨m - 1, by omega⟩
    have hd : (FV.fin false (m + 1) 1 e).div (.fin false t 1 et) = ⟨.fin false ((m + 1) * 1) (1 * t) (e - et), 0⟩ := if_neg ht0
    unfold vscaleOne
    rw [hv, ht]
    change roundFl fp32 3 ((FV.fin false (m + 1) 1 e).div (.fin false t 1 et)) = _
    rw [hd]
    exact congrArg (Fl.mk _) (Nat.zero_or _)
  have hreal : |(fp32.value x).real| / ((fmtOf tgt 8).value (fmtOf tgt 8).maxEnc).real = (FV.fin false (m * 1) (1 * t) (e - et)).real := by
    have h2 : (2 : ℝ) ^ et ≠ 0 := (zpow_pos (by norm_num) et).ne'
    have ht' : (t : ℝ) ≠ 0 := Nat.cast_ne_zero.2 ht0
    rw [hv, ht, FV.abs_real, FV.real_fin_one, FV.real_eq_withSign, zpow_sub₀ (by norm_num)]
    simp only [withSign, Bool.false_eq_true, if_false]
    push_cast
    field_simp
  rw [hr, hreal]
  exact roundOnce_rounded (by decide) (by decide) (by omega) (by omega)

end Sys2Proof.Machine
end

section
/-!
The statement on roots, minimum and maximum, classes and conversions, from the lemmas before.
-/
namespace Sys2Proof.Machine

/-- The formats of the scalar words and of VQMAX are among the eight, and have infinities. -/
theorem mem_allFmts_of_wide {f : Fmt} (h : f ∈ [fp64, fp32, fp16, bf16]) : f ∈ allFmts ∧ f.hasInf = true := by
  have hall : ∀ f ∈ [fp64, fp32, fp16, bf16], f ∈ allFmts ∧ f.hasInf = true := by decide
  exact hall f h

/-- A square root, rounded once. -/
theorem sqrtOnce_rounded {f : Fmt} (hf : f ∈ allFmts) {rm num : Nat} {e : Int} (hrm : rm < 4) (hn : num ≠ 0) :
    Rounded f rm false √(FV.fin false num 1 e).real (sqrtOnce f rm (.fin false num 1 e)) := by
  have hpos : 0 < (FV.fin false num 1 e).real := by
    refine lt_of_le_of_ne (not_lt.1 fun h => ?_) (FV.real_ne_zero hn one_ne_zero).symm
    exact absurd ((FV.real_neg_iff hn one_ne_zero).2 h) Bool.false_ne_true
  have hroot := Real.sqrt_pos.2 hpos
  exact rounded_of_roundsOnce hf hroot.ne' (iff_of_false Bool.false_ne_true (not_lt.2 hroot.le))
    (sqrtOnce_roundsOnce (Fmt.known hf).frac hrm hn)

theorem sqrtOnce_zero {f : Fmt} {rm den : Nat} {e : Int} (neg : Bool) : sqrtOnce f rm (.fin neg 0 den e) = ⟨f.signed neg 0, 0⟩ := by
  unfold sqrtOnce
  exact if_pos rfl

theorem classMask_inf {f : Fmt} {x : Nat} {neg : Bool} (h : f.value x = .inf neg) : classMask f x = if neg then 2 ^ 0 else 2 ^ 7 := by
  unfold classMask
  rw [h]
  cases neg <;> rfl

theorem classMask_nan {f : Fmt} {x : Nat} {sig : Bool} (h : f.value x = .nan sig) : classMask f x = if sig then 2 ^ 8 else 2 ^ 9 := by
  unfold classMask
  rw [h]
  cases sig <;> rfl

theorem intMin_decide (p : Prop) [Decidable p] (w : Nat) : intMin (decide p) w = if p then -2 ^ (w - 1) else 0 := by
  simp only [intMin, decide_eq_true_eq]

theorem intMax_decide (p : Prop) [Decidable p] (w : Nat) : intMax (decide p) w = if p then 2 ^ (w - 1) - 1 else 2 ^ w - 1 := by
  simp only [intMax, decide_eq_true_eq]

theorem vtRm_lt (vt : BitVec 32) : vtRm vt < 4 := Nat.mod_lt _ (by decide)

section
variable (sf : Nat) (vt : BitVec 32)

/-- VCVT of a number to a floating format. -/
theorem convOne_number_fp (neg : Bool) (num : Nat) {den : Nat} (e : Int) (fl : Nat) (hd : den ≠ 0) (h : 2 ≤ vtFmt vt ∧ vtFmt vt ≤ 7) :
    let x := FV.fin neg num den e
    let f := fmtOf (vtFmt vt) (vtSew vt)
    let r := convOne sf vt ⟨x, fl⟩
    (num ≠ 0 → ∃ z, Rounded f (vtRm vt) (decide (2 ≤ sf ∧ sf ≤ 7) && vtSat vt) x.real z ∧ r.val = z.val ∧ r.fl = z.fl ||| fl) ∧
    (num = 0 → r.val = f.signed neg 0 ∧ r.fl = fl) := by
  intro x f r
  have hr : r = _ := convOne_fp ⟨x, fl⟩ h
  rw [hr]
  refine ⟨fun hn => ⟨_, roundOnce_rounded (fmtOf_mem ..) (vtRm_lt vt) hn hd, rfl, Nat.or_zero _⟩, fun hn => ?_⟩
  have h0 : roundOnce f (vtRm vt) (decide (2 ≤ sf ∧ sf ≤ 7) && vtSat vt) x = ⟨f.signed neg 0, 0⟩ := if_pos hn
  dsimp only
  rw [h0]
  exact ⟨rfl, (Nat.or_zero _).trans (Nat.zero_or _)⟩

/-- VCVT of a NaN to a floating format. -/
theorem convOne_nan (sig : Bool) (fl : Nat) (h : 2 ≤ vtFmt vt ∧ vtFmt vt ≤ 7) :
    let f := fmtOf (vtFmt vt) (vtSew vt)
    let nv := if sig then fNV else 0
    convOne sf vt ⟨.nan sig, fl⟩ = if f.hasNan then ⟨f.nan, fl ||| nv⟩ else ⟨0, fNV ||| fl ||| nv⟩ := by
  intro f nv
  rw [convOne_fp ⟨.nan sig, fl⟩ h]
  change Fl.mk (if f.hasNan then Fl.mk f.nan 0 else ⟨0, fNV⟩).val ((if f.hasNan then Fl.mk f.nan 0 else ⟨0, fNV⟩).fl ||| fl ||| nv) = _
  cases f.hasNan
  · rfl
  · exact congrArg (fun n => Fl.mk f.nan (n ||| nv)) (Nat.zero_or _)

end

/-- Settles O13: roots by roundMag's neighbours, conversions by round_once and roundInt, classes and magnitudes by the order of encodings. -/
theorem rootsAndConversions : Obligations.RootsAndConversions := by
  unfold Obligations.RootsAndConversions
  refine ⟨fun f hf rm num e hrm hn => ?_, fun f _ mx a b _ _ => ?_, fun sgn neg w rm num den e _ hrm hd => toInt_isInt sgn neg num e hrm hd,
    fun sgn w rm _ => ⟨rfl, rfl, fun _ => rfl⟩, fun f hf x => ?_, fun sf vt neg num den e fl hd => ?_, fun sf vt sig fl _ => ?_,
    fun rm x hrm => convCx_eq x hrm, fun f hf l => ?_, fun tgt x _ _ => ?_⟩
  · obtain ⟨hf', -⟩ := mem_allFmts_of_wide hf
    refine ⟨sqrtOnce_rounded hf' hrm hn, ?_, fun neg => sqrtOnce_zero neg, rfl, rfl, fun sig => rfl⟩
    exact (if_neg hn).trans (if_pos rfl)
  · obtain ⟨h1, h2, h3, h4⟩ := fminmax_cases f mx a b
    exact ⟨h1, h2, h3, h4, fminmax_number⟩
  · have he : 0 < f.eb := by
      have hall : ∀ f ∈ [fp64, fp32], 0 < f.eb := by decide
      exact hall f hf
    exact ⟨classMask_inf, classMask_inf, classMask_nan, classMask_nan, classMask_number he⟩
  · refine ⟨fun h1 h2 => (convOne_number_fp sf vt neg num e fl hd ⟨h1, h2⟩).1, fun h1 h2 => (convOne_number_fp sf vt neg num e fl hd ⟨h1, h2⟩).2,
      fun h hs => ?_, fun h hs => ?_⟩
    · rw [convOne_toInt ⟨.fin neg num den e, fl⟩ h hs]
      exact ⟨_, toInt_isInt (decide (vtFmt vt = 0)) neg num e (vtRm_lt vt) hd, wrapN_eq _, rfl⟩
    · rw [convOne_int neg num den e h hs, intMin_decide, intMax_decide]
      exact ⟨rfl, wrapN_eq _⟩
  · exact fun h1 h2 => convOne_nan sf vt sig fl ⟨h1, h2⟩
  · obtain ⟨hf', hi⟩ := mem_allFmts_of_wide hf
    have hk := Fmt.known hf'
    refine ⟨fun ⟨hn, hs⟩ => ?_, fun ⟨hn, hs⟩ => ?_, fun hn hfin => ?_, vqmaxOne_zero hk, fun k hkl h h0 => vqmaxOne_number hk hkl h h0⟩
    · rw [vqmaxOne_nan hn, if_pos (List.any_eq_true.2 hs)]
    · rw [vqmaxOne_nan hn, if_neg]
      rw [Bool.not_eq_true, List.any_eq_false]
      exact fun k hk => by simp [hs k hk]
    · exact vqmaxOne_inf hk.exp hi (fun k hk => Bool.eq_false_iff.2 fun h => hn ⟨k, hk, h⟩) hfin
  · refine ⟨fun h => ?_, fun h => ?_, vscaleOne_number⟩
    · unfold vscaleOne
      cases hv : fp32.value x with
      | nan sig => rfl
      | inf neg => rfl
      | fin neg n d e => rw [hv] at h; cases h
    · unfold vscaleOne
      cases hv : fp32.value x with
      | nan sig => rw [hv] at h; cases h
      | inf neg => rw [hv] at h; cases h
      | fin neg n d e =>
        rw [hv] at h
        obtain rfl : n = 0 := of_decide_eq_true h
        rfl

end Sys2Proof.Machine
end
